-- ==== Sys2Proof/Word.lean ====
section
/-! DEFINITION. The word types of the part (R4, R5): the 36-bit word, bytes, requester IDs and word addresses. -/

namespace Sys2Proof

/-- The native 36-bit word (R4). -/
abbrev Word := BitVec 36

/-- A byte, as it travels on I3C, I2C and in hashed messages. -/
abbrev Byte := BitVec 8

/-- A requester ID (R50). -/
abbrev Req := BitVec 8

/-- A word address of the register space (24 bits, R42). -/
abbrev Addr := BitVec 24

/-- An error code: class in the top digit, E000 is 0 (R11, R12). -/
abbrev Code := BitVec 12

end Sys2Proof
end

