-- ==== Sys2Proof/Syntax.lean ====
section
/-! DEFINITION. The commands of the part: one constructor of `Instr` for each row of the operation table, with the operands that reach the part from outside (values on a bus, a measurement, a received message), and the operand types. -/

namespace Sys2Proof

/-- A cell, n:cc:rr.kk (R10). -/
structure CellAddr where
  region : Fin 64
  col : Fin 29
  row : Fin 32
  cell : Fin 36
  deriving DecidableEq, Repr

/-- A block position, n:cc:rr (R10): a Quire, a RAM36 or a row of MAC36. -/
structure BlkAddr where
  region : Fin 64
  col : Fin 29
  row : Fin 32
  deriving DecidableEq, Repr

/-- An edge of fabric global line `line` at a Quire. -/
structure QuireEdge where
  q : BlkAddr
  line : Fin 16
  rising : Bool
  deriving DecidableEq, Repr

/-- What the routing presents to a Quire (R126, R131, R133): bit k of a word goes to cell k. -/
structure QuireIn where
  a1 : Word := 0
  a2 : Word := 0
  a3 : Word := 0
  a4 : Word := 0
  a5 : Word := 0
  a6 : Word := 0
  ax : Word := 0
  bx : Word := 0
  /-- The four CE lines and the two SR lines. -/
  ce : BitVec 4 := 0
  sr : BitVec 2 := 0
  /-- What the Quire drives on the starts of its 24 wires of length 4 and 12: bit 6d + j, directions as in R148, j from 0 to 3 length 4, 4 and 5 length 12. -/
  wires : BitVec 24 := 0
  /-- What it drives on the channels of a Pass word on a north or south edge, and on the 18 channels of its row on an east or west edge. -/
  passNS : Word := 0
  passEW : BitVec 18 := 0
  deriving DecidableEq, Repr

/-- The inputs of a RAM36 port at an edge of its clock (R152). -/
structure PortIn where
  addr : BitVec 15
  din : Word
  en : Bool
  we : BitVec 4
  oce : Bool
  orst : Bool
  deriving DecidableEq, Repr

/-- ADDR and EN of a RAM36 port that does not write (R152). -/
structure PortAt where
  addr : BitVec 15
  en : Bool
  deriving DecidableEq, Repr

/-- WR_EN and DIN of a FIFO's write side at an edge (R158). -/
structure FifoIn where
  en : Bool
  din : Word
  deriving DecidableEq, Repr

/-- An edge of a FIFO's read side, with RD_EN and the inputs of its output register (R152, R158). -/
structure FifoEdge where
  blk : BlkAddr
  en : Bool
  oce : Bool
  orst : Bool
  deriving DecidableEq, Repr

/-- Pins that the part looks at when a reset ends: the level of SVC_MODE (R76), and true where nSAFE is low (R65). -/
structure ResetPins where
  svcMode : Bool
  nsafe : Bool
  deriving DecidableEq, Repr

/-- A re-boot from the service port: into SERVICE or not (R83, R447), and true where nSAFE is low when it has been done (R65). -/
structure Reboot where
  toService : Bool
  nsafe : Bool
  deriving DecidableEq, Repr

/-- A master's request to a target: `master`, the row of R24's table; `raised`, what makes that row's requests urgent holds for this one. -/
structure Asker where
  master : Fin 15
  raised : Bool
  deriving DecidableEq, Repr

/-- A scratchpad beat: the first word, written or read, the further words of its group of four (R354; of a read their number counts), and
the cycles that it waited for busy sub-banks (R355). -/
structure Beat where
  write : Option Word
  more : List Word := []
  waits : Nat := 0
  deriving DecidableEq, Repr

/-- The inputs of a MAC36 at an edge of its clock (R167). -/
structure MacIn where
  a : Word
  b : Word
  d : Word
  c : BitVec 96
  opmode : BitVec 3
  ce : Bool
  rstP : Bool
  deriving DecidableEq, Repr

/-- The functions of the part: the units with CTRL and STATUS registers of their own (R44). -/
inductive Func where
  | rhx
  | flc
  | wdt
  | beater
  | mesh (p : Fin 8)
  /-- 0 UART0, 1 UART1, 2 SPI0, 3 SPI1, 4 I2C0, 5 I2C1 (R50 order). -/
  | serial (k : Fin 6)
  | tmr (k : Fin 16)
  deriving DecidableEq, Repr

/-- The two registers that carry locked sequences (R432). -/
inductive SeqReg where
  | modeReq
  | wdtKick
  deriving DecidableEq, Repr

/-- Widths of a core access in bytes. -/
inductive Width where
  | byte
  | half
  | word
  deriving DecidableEq, Repr

/-- What makes an access to the execute-in-place window (R386, R387). -/
inductive XipKind where
  | fetch
  | load
  | debug
  deriving DecidableEq, Repr

/-- The atomic memory operations of the A extension (R347). -/
inductive AmoOp where
  | swap | add | xor | and | or | min | max | minu | maxu
  deriving DecidableEq, Repr

/-- The engine memories that hold SECDED words (R261). -/
inductive EngMem where
  | context
  | key
  | stash
  | wildcard
  deriving DecidableEq, Repr

/-- Where an upset strikes (R121, R118, R165, R223, R226, R261, R358, R374). -/
inductive UpsetAt where
  /-- Bit 0..42 of a configuration word: data bits 0..35, check bits 36..42. -/
  | config (shadow : Bool) (seg : BitVec 7) (col : BitVec 5) (minor : BitVec 9) (fword : BitVec 7) (bit : Fin 43)
  /-- Bit of a cell's 64 LUT bits. -/
  | lut (cell : CellAddr) (bit : Fin 64)
  /-- Bit 0..35 of a RAM36 content word, or hidden parity bit 36..39 of a lane. -/
  | ram36 (blk : BlkAddr) (word : Fin 1024) (bit : Fin 40)
  | scratch (off : Fin 2097152) (bit : Fin 43)
  /-- `ix` counts words of the memory. -/
  | engine (m : EngMem) (ix : Nat) (bit : Fin 43)
  | flash (fa : BitVec 28) (bit : Fin 43)
  /-- One of three copies of a Calender engine's lane state; lane 64 is the ring. -/
  | calender (lane : Fin 65) (engineB : Bool) (copy : Fin 3) (bit : Fin 95)
  /-- One of three copies of a golden mode map bit. -/
  | golden (shadow : Bool) (cell : CellAddr) (copy : Fin 3)
  deriving DecidableEq, Repr

/-- A mesh packet: the header word's fields and the payload (R318). -/
structure Packet where
  dest : BitVec 10
  src : BitVec 10
  svc : BitVec 5
  vc : BitVec 2
  route : BitVec 2
  down : Bool
  hops : BitVec 7
  payload : List Word
  deriving DecidableEq, Repr

/-- The HELLO message (discovery payload table, R303 section Discovery). -/
structure Hello where
  wmark : BitVec 64
  prio : BitVec 8
  addrValid : Bool
  addr : BitVec 10
  port : BitVec 3
  state : BitVec 3
  epoch : BitVec 16
  rootWmark : BitVec 64
  depth : BitVec 7
  deriving DecidableEq, Repr

/-- An entry of an ECHO: one node of the subtree. -/
structure EchoEntry where
  wmark : BitVec 64
  prio : BitVec 8
  reqValid : Bool
  reqAddr : BitVec 10
  depth : BitVec 7
  deriving DecidableEq, Repr

/-- One link of a node, as its LSA names it. -/
structure LsaLink where
  port : BitVec 3
  nbr : BitVec 10
  nbrPort : BitVec 3
  deriving DecidableEq, Repr

/-- A link-state advertisement. -/
structure Lsa where
  epoch : BitVec 16
  addr : BitVec 10
  depth : BitVec 7
  links : List LsaLink
  deriving DecidableEq, Repr

/-- One entry of an ASSIGN. -/
structure AssignEntry where
  wmark : BitVec 64
  addr : BitVec 10
  deriving DecidableEq, Repr

/-- Four words: an engine request or response, or one 144-bit transfer. -/
structure Quad where
  w0 : Word
  w1 : Word
  w2 : Word
  w3 : Word
  deriving DecidableEq, Repr

/-- The commands of the part: one constructor for each row of the operation table. Those with operands come first, then those without, each
in the table's order; last the register writes and reads with a row of their own that `registerWrite` or `rcRead` also spells (Lean's compiler
numbers no more than 244 constructors with operands). `who` is the requester ID of the master that makes an access (R50). -/
inductive Instr where
  -- power, reset and mode events
  /-- `ns`: how long nRST was held low, in ns. -/
  | nrstAssert (ns : Nat)
  | nrstRelease (pins : ResetPins)
  /-- The monitor's reading, in mV, and how long in microseconds it has been on its side of the window (R94, R95). -/
  | supplyOutOfWindow (rail : Fin 22) (us : Nat) (mv : BitVec 12)
  /-- Eight readings in 0.25 degree units, sensor 0 first. -/
  | temperatureSample (readings : List (BitVec 12))
  | lockedSequenceExpired (reg : SeqReg)
  | wakePinEdge (rising : Bool)
  | requestPromotedUrgent (target : Nat) (asker : Asker)
  /-- `waitUs`: how long the oldest request has waited, in microseconds. -/
  | governorGrant (waitUs : Nat)
  | softstartComplete (ramp : Nat)
  -- I3C
  | i3cEnec (int hj : Bool)
  | i3cDisec (int hj : Bool)
  /-- `won`: the part's provisional ID won this arbitration round. -/
  | i3cEntdaa (addr : BitVec 7) (won : Bool)
  | i3cSetdasa (static : BitVec 7) (addr : BitVec 7)
  | i3cSetnewda (addr : BitVec 7)
  | i3cSetmwl (len : BitVec 16)
  | i3cSetmrl (len : BitVec 16)
  | i3cRstact (action : BitVec 8)
  | i3cUnknownCcc (direct : Bool) (code : BitVec 8)
  | registerWriteTransfer (dst : BitVec 7) (bytes : List Byte)
  | registerReadTransfer (dst : BitVec 7) (words : Nat)
  | hdrDdrWrite (bytes : List Byte)
  | hdrDdrRead (words : Nat)
  | ibiSend (acked : Bool)
  -- registers, claims, events, functions
  | registerWrite (who : Req) (addr : Addr) (v : Word)
  | eventRingEnable (who : Req) (v : Word)
  | eventReadAdvance (who : Req) (v : Word)
  | eventPop (who : Req) (peek : Bool)
  | ctrlEnable (who : Req) (f : Func) (v : Word)
  | ctrlDisable (who : Req) (f : Func) (v : Word)
  | profileWrite (who : Req) (f : Func) (v : Word)
  | expertWrite (who : Req) (addr : Addr) (v : Word)
  | functionStartComplete (f : Func)
  | functionStopComplete (f : Func)
  -- fabric
  /-- An edge of a fabric global line at a Quire whose WE line is 1, with what the routing presents there. -/
  | lutramWrite (e : QuireEdge) (i : QuireIn)
  /-- The same with the WE line at 0. -/
  | cellShift (e : QuireEdge) (i : QuireIn)
  /-- An edge of one port's clock, or the same edge for both (R156). -/
  | ram36Write (blk : BlkAddr) (a : Option PortIn) (b : Option PortIn)
  | ram36Read (blk : BlkAddr) (portB : Bool) (port : PortAt) (oce orst : Bool)
  | ram36CollClr (blk : BlkAddr)
  | fifoWrite (blk : BlkAddr) (i : FifoIn)
  | fifoRead (e : FifoEdge)
  | fifoRst (blk : BlkAddr)
  | sharedFifoDataRead (who : Req) (region : Fin 64) (k : Fin 4) (peek : Bool)
  | sharedFifoDataWrite (who : Req) (region : Fin 64) (k : Fin 4) (v : Word)
  | mac36Accumulate (blk : BlkAddr) (second : Bool) (i : MacIn)
  /-- The sample edge of a bus; bit r of `den`: row r's dynamic enable is 1. -/
  | busContentionCount (region : Fin 64) (bus : Bool) (den : BitVec 32)
  -- regions
  | regionReset (who : Req) (region : Fin 64) (v : Word)
  | regionResetRelease (region : Fin 64)
  | regionQuarantineCommand (who : Req) (region : Fin 64) (v : Word)
  | logAck (who : Req) (region : Fin 64) (v : Word)
  | regionLogRead (who : Req) (region : Fin 64) (peek : Bool)
  -- streams and security
  | streamSync (src : BitVec 3) (who : Req)
  | streamWordRefused (src : BitVec 3) (who : Req)
  | streamHeader (words : List Word)
  | tagSegment (words : List Word)
  | loadSlot (who : Req) (v : Word)
  | cfgAbort (who : Req) (v : Word)
  | sdataWrite (who : Req) (v : Word)
  | rdataRead (who : Req) (peek : Bool)
  | rollAdv (who : Req) (v : Word)
  | keyLoad (who : Req) (v : Word)
  | zeroize (who : Req) (v : Word)
  | krDataWrite (who : Req) (v : Word)
  -- planes and swap
  | regionSwap (who : Req) (v : Word)
  | chipSwap (who : Req) (v : Word)
  | meshSwap (who : Req) (v : Word)
  | meshCancel (who : Req) (v : Word)
  | mirror (who : Req) (v : Word)
  | repreloadComplete (region : Fin 64)
  | swapAtReceived (id : BitVec 8) (coord : BitVec 10) (t : BitVec 64)
  | voteReceived (node : BitVec 10) (id : BitVec 8) (ready null : Bool)
  | goReceived (id : BitVec 8)
  | abortReceived (id : BitVec 8) (cause : BitVec 4)
  -- the Calender
  /-- One CK_CFG cycle of the lanes that read a word in it, in ascending order (R220, R222, R224). -/
  | scrubRead (lanes : List (Fin 65))
  | doubleBitRepair (lane : Fin 65)
  | repairFetch (lane : Fin 65)
  | repairFetchTimeout (lane : Fin 65)
  | calRestart (who : Req) (v : Word)
  -- the Rhorax engine
  | engineRequestAccept (port : Fin 8) (req : Quad)
  | engineResponseTaken (port : Fin 8)
  | lookup (slot : Nat)
  | insert (slot : Nat)
  | delete (slot : Nat)
  | ctxRead (slot : Nat)
  | ctxWrite (slot : Nat)
  | ctxRun (slot : Nat)
  | lookupRun (slot : Nat)
  | fence (slot : Nat)
  | ageScanReport (slot : Option Nat) (who : Req)
  | ageScanStart (slot : Option Nat) (who : Req)
  | ageScanPause (slot : Option Nat) (who : Req)
  | ageScanResume (slot : Option Nat) (who : Req)
  | operationComplete (slot : Nat)
  | remoteOperationTimeout (slot : Nat)
  | enginePatrol (m : EngMem) (ix : Nat)
  | engineVoteFailure (credit : Bool)
  | allocWrite (who : Req) (n : Fin 10) (v : Word)
  | wcSegEnWrite (who : Req) (v : Word)
  | wcEntryWrite (who : Req) (v : Word)
  | wcEntryRead (who : Req) (v : Word)
  | kinsInsert (who : Req) (v : Word)
  | kinsDelete (who : Req) (v : Word)
  | cmdSubmit (who : Req) (v : Word)
  | cmdResponsePop (who : Req) (peek : Bool)
  -- mesh links
  | meshPortCalibration (p : Fin 8) (ok : Bool)
  | linkSignalDetect (p : Fin 8)
  | linkCdrLock (p : Fin 8)
  | linkEqDone (p : Fin 8)
  | linkAlignDone (p : Fin 8)
  | linkParamConfirm (p : Fin 8) (nbrPort : BitVec 3) (nbrWmark : BitVec 64)
  | linkTrainingTimeout (p : Fin 8) (lanes : BitVec 4)
  | linkTrainingRetry (p : Fin 8)
  | linkPacketReceived (p : Fin 8) (words : List Word)
  | ack (p : Fin 8) (w : Word)
  | credit (p : Fin 8) (w : Word)
  | rstart (p : Fin 8)
  | replayTimeout (p : Fin 8)
  | linkLoss (p : Fin 8) (cause : BitVec 3)
  | bye (p : Fin 8)
  -- mesh discovery
  | hello (p : Fin 8) (h : Hello)
  | resurvey (who : Req) (v : Word)
  | elect (p : Fin 8) (epoch : BitVec 16) (prio : BitVec 8) (wmark : BitVec 64) (dist : BitVec 7)
  | echo (p : Fin 8) (epoch : BitVec 16) (entries : List EchoEntry)
  | assign (p : Fin 8) (epoch : BitVec 16) (count : BitVec 11) (entries : List AssignEntry)
  | lsa (p : Fin 8) (l : Lsa)
  | done (p : Fin 8) (epoch : BitVec 16) (diam : BitVec 7)
  | ready (p : Fin 8) (epoch : BitVec 16) (root : BitVec 10) (count : BitVec 11) (diam : BitVec 7)
  | join (p : Fin 8) (h : Hello) (links : List LsaLink)
  | joinAck (p : Fin 8) (addr : BitVec 10) (rootWmark : BitVec 64) (epoch : BitVec 16) (count : BitVec 11)
  | refuse (p : Fin 8) (diam : BitVec 7)
  | discoveryNeighbourTimeout (p : Fin 8)
  | addrHoldExpiry (addr : BitVec 10)
  -- mesh routing and services
  | packetForward (p : Option (Fin 8)) (pkt : Packet)
  | rraRead (who : Req) (v : Word)
  | rraWrite (who : Req) (v : Word)
  | rraReq (src : BitVec 10) (write : Bool) (addr : Addr) (data : Word)
  | rraRsp (result : BitVec 4) (reason : BitVec 4) (data : Word)
  | engReq (src : BitVec 10) (sreq : BitVec 4) (stag : BitVec 6) (req : Quad)
  | engRsp (sreq : BitVec 4) (stag : BitVec 6) (rsp : Quad)
  | imagePush (who : Req) (v : Word)
  | imagePushAbort (who : Req) (v : Word)
  | imgData (src : BitVec 10) (first last abort : Bool) (off : BitVec 25) (words : List Word)
  | imgAck (consumed : BitVec 25)
  | imgResult (code : Code)
  | imgRb (words : List Word)
  | streamTxTransfer (k : Fin 8) (data : Quad) (dest : BitVec 13) (last : Bool)
  | user (src : BitVec 10) (srcIf dstIf : BitVec 3) (first : Bool) (seq : BitVec 8) (data : List Quad)
  | streamRxTransfer (k : Fin 8)
  | timeSyncSend (seq : BitVec 8)
  | timeSyncRequest (p : Fin 8) (seq : BitVec 8)
  | timeSyncReply (t2 t3 t4 : BitVec 64)
  | timeSet (who : Req) (v : Word)
  | nodeCfgWrite (who : Req) (v : Word)
  -- the core
  | trapEntry (interrupt : Bool) (cause : BitVec 31) (pc tval : BitVec 32)
  | doubleFault (mcause : BitVec 4) (pc : BitVec 32)
  | wfi (pc : BitVec 32)
  | ebreak (pc : BitVec 32)
  | coreInterrupt (pc : BitVec 32)
  | scratchpadLoad (addr : BitVec 32) (w : Width) (fetch : Bool)
  | scratchpadStore (addr : BitVec 32) (w : Width) (data : BitVec 32)
  | scratchpadBitSet (addr : BitVec 32) (data : BitVec 32)
  | scratchpadBitClear (addr : BitVec 32) (data : BitVec 32)
  | lr (addr : BitVec 32)
  | sc (addr : BitVec 32) (data : BitVec 32)
  | amo (op : AmoOp) (addr : BitVec 32) (data : BitVec 32)
  | nibbleWrite (addr : BitVec 32) (data : BitVec 32)
  | coreRegisterWrite (addr : BitVec 32) (w : Width) (data : BitVec 32)
  | coreRegisterRead (addr : BitVec 32) (w : Width)
  | nibbleRead (addr : BitVec 32)
  | xipFetch (addr : BitVec 32) (kind : XipKind)
  -- scratchpad, interrupts, peripherals
  | scratchpadAccess (who : Req) (off : Fin 2097152) (beat : Beat)
  | irqTake (who : Req) (peek : Bool)
  | irqDone (who : Req) (v : Word)
  | bankHandover (who : Req) (bank : Fin 16) (v : Word)
  | bankCfgWrite (who : Req) (bank : Fin 16) (v : Word)
  | uartTx (who : Req) (k : Fin 2) (v : Word)
  | uartRxRead (who : Req) (k : Fin 2) (peek : Bool)
  | uartByteReceived (k : Fin 2) (data : Byte) (parityErr frameErr : Bool)
  | spiTx (who : Req) (k : Fin 2) (v : Word)
  | i2cTx (who : Req) (k : Fin 2) (v : Word)
  /-- `rx`: the received data of the entry; `nacked` for I2C. -/
  | peripheralTransferComplete (k : Fin 6) (rx : BitVec 32) (nacked : Bool)
  | timerMatch (k : Fin 16)
  | timerCapture (k : Fin 16)
  -- the Beater
  | beaterStart (who : Req) (v : Word)
  /-- `fails`: failing (bank, word in bank, bit) found by the march, in order. -/
  | beaterRunComplete (fails : List (Fin 16 × Fin 131072 × Fin 43))
  | beaterAbort (who : Req) (v : Word)
  | beaterYield (who : Req) (off : Fin 2097152) (write : Option Word)
  | beaterAbortOnAccess (who : Req) (off : Fin 2097152) (write : Option Word)
  -- the flash
  | descWrWrite (who : Req) (v : Word)
  | cmplRdWrite (who : Req) (v : Word)
  | descriptorDispatch (k : Nat)
  | flashRead (k : Nat)
  | flashProgram (k : Nat) (dieOk : Bool)
  | flashErase (k : Nat) (dieOk : Bool)
  | flashVerify (k : Nat)
  | flashBlank (k : Nat)
  | marginRead (k : Nat)
  | swapBoot (k : Nat)
  | descriptorComplete (k : Nat)
  | fetchedExpiry (bank : Fin 16)
  | flcRecovRead (who : Req) (peek : Bool)
  -- pins
  | parkEnd (pin : Fin 720)
  | switchUnmask (pin : Fin 720)
  | gpioEdge (pin : Fin 720) (rising : Bool)
  | serialiserLock (pair : Fin 360) (locked : Bool)
  -- debug
  | extest (dr : BitVec 2160)
  | samplePreload (dr : BitVec 2160)
  | dmi (op : BitVec 2) (addr : BitVec 7) (data : BitVec 32)
  /-- `code`: the instruction code scanned in. -/
  | bypass (code : BitVec 8)
  | dbgregUpdate (write : Bool) (addr : Addr) (data : Word)
  | abstractCommand (write : Bool) (regno : BitVec 16)
  | systemBusAccess (write : Bool) (addr : BitVec 32) (data : BitVec 32)
  -- the service port
  | svcEvtK (k : Nat)
  | svcRgn (n : Fin 64)
  | svcRd (addr : Addr) (peek : Bool)
  | svcWr (addr : Addr) (v : Word)
  | svcSpRd (off : Fin 2097152)
  | svcSpWr (off : Fin 2097152) (v : Word)
  | svcPin (pin : Fin 720)
  | svcPinHigh (pin : Fin 720)
  | svcPinLow (pin : Fin 720)
  | svcPinZ (pin : Fin 720)
  | svcPinSquare (pin : Fin 720)
  | svcPinRelease (pin : Fin 720)
  | svcAuthResponse (r : List (BitVec 32))
  /-- `pinHigh`: the level of the SVC_MODE pin now (R447). -/
  | svcService (pinHigh : Bool)
  | svcReboot (how : Reboot)
  | svcBaud (n : Nat)
  /-- `reason`: the REJECT reason 1, 2 or 3 that the line's text gives. -/
  | svcInvalidLine (reason : BitVec 4)
  -- self-tests
  | testFlash (bank : Fin 16)
  | testMeshLoop (p : Fin 8)
  | testMesh (p : Fin 8)
  | meshTestLoopback (p : Fin 8)
  | march (bank : Fin 16) (ss preserve repair : Bool)
  | testUart (k : Fin 2)
  | testSpi (k : Fin 2)
  | testI2c (k : Fin 2)
  | testTmr (k : Fin 16)
  /-- `fail`: the code and detail word of a failure that the test's hardware found. -/
  | selfTestEnd (fail : Option (Code × Word))
  -- remaining events
  /-- `busActive`: the I3C bus was active when the service domain woke. -/
  | powerOnResetRelease (pins : ResetPins) (busActive : Bool)
  | phaseMoveComplete (line : Fin 16)
  | delayMoveComplete (pin : Fin 720)
  | overrideMaskEnd (pin : Fin 720)
  | upset (target : UpsetAt)
  | rcRead (who : Req) (addr : Addr)
  -- power, reset and mode events
  | powerOnReset
  | powerGood
  | rootPllLock
  | svcClockReturnToRoot
  | refclkLost
  | pllLockLost
  | vbattKeyLost
  | nsafeAssert
  | bootBlockSelect
  | bootRegionPowerUp
  | globalRelease
  | bankOutputEnable
  | retainEntryComplete
  | wakeTimerExpiry
  | vccramWakeTimeout
  | contextStoreWakeClear
  -- I3C
  | i3cRstdaa
  | i3cGetmwl
  | i3cGetmrl
  | i3cGetpid
  | i3cGetbcr
  | i3cGetdcr
  | i3cGetstatus
  | i3cGetmxds
  | i3cGetcaps
  | i3cEnthdr0
  | hdrExitPattern
  | hotJoinRequest
  -- registers, claims, events, functions
  | serviceBufferDrain
  -- streams and security
  | fcmdComplete
  | streamStallTimeout
  | rollAdvComplete
  -- planes and swap
  | mirrorComplete
  | swapEdge
  | meshSwapDeadline
  | meshSwapNoDecision
  -- the Calender
  | readbackRead
  -- the Rhorax engine
  | engineAdmission
  | lateResponseDiscard
  | stashDrain
  | agingSweepStart
  | agingVisit
  | engineEventLossReport
  -- mesh discovery
  | helloSend
  | routeComputationComplete
  -- mesh routing and services
  | rraTimeout
  | pushTimeout
  | timeSyncMissed
  -- the core
  | mret
  -- the Beater
  | beaterBlockRestart
  -- the flash
  | descriptorFetch
  | gapMove
  | gapMoveComplete
  | recoveryCheck
  | recoveryErase
  -- debug
  | tapReset
  | idcode
  | clamp
  | highz
  | dtmcs
  | haltRequest
  | resumeRequest
  | debuggerDetach
  | challengeExpiry
  | watchdogExpiry
  -- the service port
  | svcId
  | svcMode
  | svcHealth
  | svcFs
  | svcErrLast
  | svcEvtLast
  | svcI3c
  | svcBoot
  | svcPwr
  | svcTemp
  | svcCalStat
  | svcRgnAll
  | svcImg
  | svcSwap
  | svcRhx
  | svcMesh
  | svcMeshTime
  | svcWdt
  | svcAuth
  | svcLogout
  | svcAuthTimeout
  | svcServiceExit
  | svcWake
  | svcBaudHoldExpiry
  -- self-tests
  | testEngine
  | testCal
  | testWdt
  | testClk
  | selfTestAbort
  -- remaining events
  | vccramRunWindowEntry
  | svcRxOvf
  -- register accesses with a row of their own
  | softResetFirstWrite (who : Req)
  | softResetSecondWrite (who : Req)
  | retainRequest (who : Req)
  | wakeRequest (who : Req)
  | clockLineWrite (who : Req) (line : Fin 16) (v : Word)
  | claim (who : Req) (addr : Addr) (v : Word)
  | release (who : Req) (addr : Addr) (v : Word)
  | timeRead (who : Req)
  | pinCfgWrite (who : Req) (pin : Fin 720) (v : Word)
  | gpioWrite (who : Req) (pin : Fin 720) (v : Word)
  | pinDlyWrite (who : Req) (pin : Fin 720) (v : Word)
  | newChal (who : Req) (v : Word)
  | check (who : Req) (v : Word)
  | drop (who : Req) (v : Word)
  | wdtKickFirst (who : Req)
  | wdtKickSecond (who : Req)
  | wdtLock (who : Req) (v : Word)
  | swapEdgeRead (who : Req)
  deriving DecidableEq, Repr

end Sys2Proof
end

