-- ==== Sys2Proof/Decode.lean ====
section
/-! DEFINITION. The command that a word spells by the operation table's bits. The table gives no row any bits: a
command is an access or an event, not an encoded word, so no word spells one. -/

namespace Sys2Proof

/-- The command that the `nbits` low bits of `w` spell: none, since no row of the operation table has bits. -/
def decodeTableWord (nbits w : Nat) : Option Instr :=
  match nbits, w with
  | _, _ => none

end Sys2Proof
end

