-- ==== Sys2Proof/Machine/Crypto.lean ====
section
/-! DEFINITION. The published functions that the part computes (R3): CRC-32C, CRC-8, SHA-256, SHA-384, HMAC-SHA-256, AES-256-GCM
and the verification of ECDSA P-384. The spec names the standards and leaves their text to them (log entry 9). -/

namespace Sys2Proof.Machine.Crypto

open Sys2Proof

/-! ### Bytes -/

/-- A number as `n` bytes, most significant first. -/
def beBytes (n : Nat) (v : Nat) : List Byte := (List.range n).map (fun i => BitVec.ofNat 8 (v >>> (8 * (n - 1 - i))))

/-- The number that bytes spell, most significant first. -/
def beNat (l : List Byte) : Nat := l.foldl (fun a b => a * 256 + b.toNat) 0

/-- A list cut into pieces of `n`, at most `fuel` of them. -/
def chunks {α : Type} (n : Nat) : Nat → List α → List (List α)
  | 0, _ => []
  | _, [] => []
  | fuel + 1, l => l.take n :: chunks n fuel (l.drop n)

/-- Bytes zero-padded to a multiple of `n`. -/
def padTo (n : Nat) (l : List Byte) : List Byte := l ++ List.replicate ((n - l.length % n) % n) 0

/-! ### CRCs -/

/-- One byte of CRC-32C: reflected polynomial 0x82F63B78. -/
def crc32cByte (c : BitVec 32) (b : Byte) : BitVec 32 :=
  (List.range 8).foldl (fun c _ => if c.getLsbD 0 then (c >>> 1) ^^^ 0x82F63B78 else c >>> 1) (c ^^^ b.zeroExtend 32)

/-- CRC-32C carried on over bytes; the caller starts with all ones and inverts at the end. -/
def crc32cRun (c : BitVec 32) (l : List Byte) : BitVec 32 := l.foldl crc32cByte c

def crc32c (l : List Byte) : BitVec 32 := ~~~(crc32cRun (BitVec.allOnes 32) l)

/-- CRC-8 with polynomial `poly`, most significant bit first, from `init`. -/
def crc8 (poly init : Byte) (l : List Byte) : Byte :=
  l.foldl (fun c b => (List.range 8).foldl (fun c _ => if c.getLsbD 7 then (c <<< 1) ^^^ poly else c <<< 1) (c ^^^ b)) init

/-! ### The constants of SHA-2 -/

/-- The first primes below 410. -/
def primes : List Nat :=
  ((List.range 410).drop 2).filter (fun n => (List.range n).all (fun d => d < 2 || n % d != 0))

/-- The largest `x` below `2 ^ bits` with `x ^ e ≤ v`. -/
def iroot (e v : Nat) : Nat → Nat → Nat
  | 0, x => x
  | b + 1, x => let y := x + 2 ^ b; iroot e v b (if y ^ e ≤ v then y else x)

/-- The first `w` bits of the fraction of a prime's root. -/
def fracRoot (e w p : Nat) : Nat := iroot e (p * 2 ^ (e * w)) (w + 8) 0 % 2 ^ w

/-! ### SHA-256 and SHA-512 over words of `w` bits -/

/-- The rotations and shifts of one of the two hashes. -/
structure Sha2 (w : Nat) where
  k : List (BitVec w)
  s0 : Nat × Nat × Nat
  s1 : Nat × Nat × Nat
  e0 : Nat × Nat × Nat
  e1 : Nat × Nat × Nat

def rotr {w : Nat} (x : BitVec w) (n : Nat) : BitVec w := x.rotateRight n

/-- The small functions of the message schedule: two rotations and a shift. -/
def sigS {w : Nat} (r : Nat × Nat × Nat) (x : BitVec w) : BitVec w := rotr x r.1 ^^^ rotr x r.2.1 ^^^ (x >>> r.2.2)

/-- The large functions: three rotations. -/
def sigE {w : Nat} (r : Nat × Nat × Nat) (x : BitVec w) : BitVec w := rotr x r.1 ^^^ rotr x r.2.1 ^^^ rotr x r.2.2

/-- The message schedule, newest word first. -/
def schedule {w : Nat} (h : Sha2 w) : Nat → List (BitVec w) → List (BitVec w)
  | 0, l => l
  | n + 1, l =>
    schedule h n ((sigS h.s1 (l.getD 1 0) + l.getD 6 0 + sigS h.s0 (l.getD 14 0) + l.getD 15 0) :: l)

/-- One round: the eight working words a to h. -/
def round {w : Nat} (h : Sha2 w) (v : List (BitVec w)) (kw : BitVec w × BitVec w) : List (BitVec w) :=
  match v with
  | [a, b, c, d, e, f, g, hh] =>
    let t1 := hh + sigE h.e1 e + ((e &&& f) ^^^ (~~~e &&& g)) + kw.1 + kw.2
    let t2 := sigE h.e0 a + ((a &&& b) ^^^ (a &&& c) ^^^ (b &&& c))
    [t1 + t2, a, b, c, d + t1, e, f, g]
  | _ => v

/-- One block of 16 words. -/
def compress {w : Nat} (h : Sha2 w) (v : List (BitVec w)) (block : List (BitVec w)) : List (BitVec w) :=
  let ws := (schedule h (h.k.length - 16) block.reverse).reverse
  (v.zip ((h.k.zip ws).foldl (round h) v)).map (fun p => p.1 + p.2)

/-- The padded message: a one bit, zeros, and the length in `2 w` bits. -/
def padded (w : Nat) (m : List Byte) : List Byte :=
  let blk := 2 * w
  let z := (2 * blk - (m.length + 1 + w / 4) % blk) % blk
  m ++ [0x80] ++ List.replicate z 0 ++ beBytes (w / 4) (8 * m.length)

def sha2 {w : Nat} (h : Sha2 w) (iv : List (BitVec w)) (m : List Byte) : List Byte :=
  let p := padded w m
  let blocks := chunks (2 * w) (p.length / (2 * w) + 1) p
  let v := blocks.foldl (fun v b => compress h v ((chunks (w / 8) 16 b).map (fun x => BitVec.ofNat w (beNat x)))) iv
  (v.map (fun x => beBytes (w / 8) x.toNat)).flatten

def sha256p : Sha2 32 where
  k := (primes.take 64).map (fun p => BitVec.ofNat 32 (fracRoot 3 32 p))
  s0 := (7, 18, 3)
  s1 := (17, 19, 10)
  e0 := (2, 13, 22)
  e1 := (6, 11, 25)

def sha512p : Sha2 64 where
  k := (primes.take 80).map (fun p => BitVec.ofNat 64 (fracRoot 3 64 p))
  s0 := (1, 8, 7)
  s1 := (19, 61, 6)
  e0 := (28, 34, 39)
  e1 := (14, 18, 41)

def sha256 (m : List Byte) : List Byte :=
  sha2 sha256p ((primes.take 8).map (fun p => BitVec.ofNat 32 (fracRoot 2 32 p))) m

def sha384 (m : List Byte) : List Byte :=
  (sha2 sha512p (((primes.drop 8).take 8).map (fun p => BitVec.ofNat 64 (fracRoot 2 64 p))) m).take 48

/-- HMAC-SHA-256 with a key of at most 64 bytes. -/
def hmacSha256 (key m : List Byte) : List Byte :=
  let k := key ++ List.replicate (64 - key.length) 0
  sha256 (k.map (· ^^^ 0x5c) ++ sha256 (k.map (· ^^^ 0x36) ++ m))

/-! ### AES-256 -/

/-- Doubling in the field of AES. -/
def xtime (a : Byte) : Byte := if a.getLsbD 7 then (a <<< 1) ^^^ 0x1b else a <<< 1

def gmul (a b : Byte) : Byte :=
  ((List.range 8).foldl (fun (p : Byte × Byte) i => (if b.getLsbD i then p.1 ^^^ p.2 else p.1, xtime p.2)) (0, a)).1

/-- The inverse, as the 254th power. -/
def ginv (a : Byte) : Byte := (List.range 253).foldl (fun r _ => gmul r a) a

def sboxOf (a : Byte) : Byte :=
  let b := ginv a
  b ^^^ b.rotateLeft 1 ^^^ b.rotateLeft 2 ^^^ b.rotateLeft 3 ^^^ b.rotateLeft 4 ^^^ 0x63

def sboxTable : List Byte := (List.range 256).map (fun n => sboxOf (BitVec.ofNat 8 n))

def sub (a : Byte) : Byte := sboxTable.getD a.toNat 0

/-- The key schedule, newest word of four bytes first. -/
def expand : Nat → Byte → List (List Byte) → List (List Byte)
  | 0, _, l => l
  | n + 1, rc, l =>
    let i := l.length
    let t := l.getD 0 []
    let t' := if i % 8 = 0 then
        ((t.drop 1 ++ t.take 1).map sub).zipWith (· ^^^ ·) [rc, 0, 0, 0]
      else if i % 8 = 4 then t.map sub else t
    expand n (if i % 8 = 0 then xtime rc else rc) ((l.getD 7 []).zipWith (· ^^^ ·) t' :: l)

/-- The 15 round keys of 16 bytes. -/
def roundKeys (key : List Byte) : List (List Byte) :=
  chunks 16 15 ((expand 52 1 (chunks 4 8 key).reverse).reverse.flatten)

def shiftRows (s : List Byte) : List Byte := (List.range 16).map (fun i => s.getD ((i + 4 * (i % 4)) % 16) 0)

def mixCol (c : List Byte) : List Byte :=
  (List.range 4).map (fun i =>
    gmul 2 (c.getD i 0) ^^^ gmul 3 (c.getD ((i + 1) % 4) 0) ^^^ c.getD ((i + 2) % 4) 0 ^^^ c.getD ((i + 3) % 4) 0)

def mixCols (s : List Byte) : List Byte := ((chunks 4 4 s).map mixCol).flatten

def xorB (a b : List Byte) : List Byte := a.zipWith (· ^^^ ·) b

def aesBlock (rk : List (List Byte)) (b : List Byte) : List Byte :=
  let s := ((rk.drop 1).take 13).foldl (fun s k => xorB (mixCols (shiftRows (s.map sub))) k) (xorB b (rk.getD 0 []))
  xorB (shiftRows (s.map sub)) (rk.getD 14 [])

/-! ### GCM -/

/-- Multiplication in the field of GHASH, most significant bit first. -/
def ghMul (x y : BitVec 128) : BitVec 128 :=
  ((List.range 128).foldl (fun (p : BitVec 128 × BitVec 128) i =>
    (if x.getMsbD i then p.1 ^^^ p.2 else p.1,
     if p.2.getLsbD 0 then (p.2 >>> 1) ^^^ (0xe1 <<< 120) else p.2 >>> 1)) (0, y)).1

def ghash (h : BitVec 128) (l : List Byte) : BitVec 128 :=
  (chunks 16 (l.length / 16 + 1) l).foldl (fun y b => ghMul (y ^^^ BitVec.ofNat 128 (beNat b)) h) 0

/-- The key stream from counter block 2 on, xored onto bytes. -/
def gctr (rk : List (List Byte)) (iv : List Byte) (m : List Byte) : List Byte :=
  (((chunks 16 (m.length / 16 + 1) m).zipIdx).map (fun p => xorB p.1 (aesBlock rk (iv ++ beBytes 4 (p.2 + 2))))).flatten

/-- The tag over additional data and ciphertext. -/
def gcmTag (key iv aad c : List Byte) : List Byte :=
  let rk := roundKeys key
  let h := BitVec.ofNat 128 (beNat (aesBlock rk (List.replicate 16 0)))
  let s := ghash h (padTo 16 aad ++ padTo 16 c ++ beBytes 8 (8 * aad.length) ++ beBytes 8 (8 * c.length))
  xorB (beBytes 16 s.toNat) (aesBlock rk (iv ++ beBytes 4 1))

/-- The plaintext of a message whose tag checks (R187); with `enc` false the payload is authenticated only. -/
def gcmOpen (key iv aad c tag : List Byte) (enc : Bool) : Option (List Byte) :=
  if gcmTag key iv aad c = tag then some (if enc then gctr (roundKeys key) iv c else c) else none

/-! ### ECDSA P-384 -/

def p384 : Nat := 2 ^ 384 - 2 ^ 128 - 2 ^ 96 + 2 ^ 32 - 1

def b384 : Nat :=
  0xb3312fa7e23ee7e4988e056be3f82d19181d9c6efe8141120314088f5013875ac656398d8a2ed19d2a85c8edd3ec2aef

def n384 : Nat :=
  0xffffffffffffffffffffffffffffffffffffffffffffffffc7634d81f4372ddf581a0db248b0a77aecec196accc52973

def g384 : Nat × Nat :=
  (0xaa87ca22be8b05378eb1c71ef320ad746e1d3b628ba79b9859f741e082542a385502f25dbf55296c3a545e3872760ab7,
   0x3617de4a96262c6f5d9e98bf9292dc29f8f41dbd289a147ce9da3113b5f0b8c00a60b1ce1d7e819d7a431d7c90ea0e5f)

/-- `b ^ e` modulo `m`, over the `n` low bits of `e`. -/
def powMod (m b e : Nat) : Nat → Nat
  | 0 => 1 % m
  | n + 1 => let r := powMod m (b * b % m) (e / 2) n; if e % 2 = 1 then b * r % m else r

/-- The inverse modulo a prime. -/
def invMod (m a : Nat) : Nat := powMod m (a % m) (m - 2) 384

def subMod (m a b : Nat) : Nat := (a + m - b % m) % m

/-- Points of the curve; none is the point at infinity. -/
abbrev Pt := Option (Nat × Nat)

def ptSlope (p : Nat × Nat) (l : Nat) (q : Nat × Nat) : Nat × Nat :=
  let x := subMod p384 (subMod p384 (l * l % p384) p.1) q.1
  (x, subMod p384 (l * subMod p384 p.1 x % p384) p.2)

def ptAdd (a b : Pt) : Pt :=
  match a, b with
  | none, q => q
  | p, none => p
  | some p, some q =>
    if p.1 = q.1 then
      if p.2 = q.2 ∧ p.2 ≠ 0 then
        some (ptSlope p ((3 * p.1 * p.1 + p384 - 3) % p384 * invMod p384 (2 * p.2) % p384) q)
      else none
    else some (ptSlope p (subMod p384 q.2 p.2 * invMod p384 (subMod p384 q.1 p.1) % p384) q)

def ptMul (k : Nat) (p : Pt) : Nat → Pt
  | 0 => none
  | n + 1 => let r := ptMul (k / 2) (ptAdd p p) n; if k % 2 = 1 then ptAdd p r else r

def onCurve (q : Nat × Nat) : Bool :=
  decide (q.1 < p384) && decide (q.2 < p384) && (q.2 * q.2 % p384 == (q.1 * q.1 * q.1 + (p384 - 3) * q.1 + b384) % p384)

/-- A signature over a digest verifies under a public key. -/
def ecdsaVerify (q : Nat × Nat) (digest r s : Nat) : Bool :=
  onCurve q && decide (1 ≤ r) && decide (r < n384) && decide (1 ≤ s) && decide (s < n384) &&
  (let w := invMod n384 s
   match ptAdd (ptMul (digest * w % n384) (some g384) 384) (ptMul (r * w % n384) (some q) 384) with
   | none => false
   | some x => x.1 % n384 == r)

end Sys2Proof.Machine.Crypto
end

