-- ==== Sys2Proof/Machine/RegTable.lean ====
section
/-! DEFINITION. The register tables of the spec: for each register family its first word address, count and stride, which
bits a write stores (RW) and which a 1 clears (W1C), which a read clears (RC, RP), which else read back, and the reset
value. The addresses are those of R42; RGN stands for the offset inside one region's 8 KiW. -/

namespace Sys2Proof.Machine

/-- One register family. -/
structure Fam where
  base : Nat
  count : Nat
  stride : Nat
  rw : Nat
  w1c : Nat
  rc : Nat
  ro : Nat
  rst : Nat
  deriving DecidableEq, Repr

/-- Address `a` belongs to the family. -/
def Fam.has (f : Fam) (a : Nat) : Bool :=
  decide (f.base ≤ a) && decide ((a - f.base) % f.stride = 0) && decide ((a - f.base) / f.stride < f.count)

/-! ### SYS (R57) -/

def Reg.sysId : Nat := 0x00000
def Reg.sysWmark (i : Nat) : Nat := 0x00001 + i
def Reg.sysMode : Nat := 0x00003
def Reg.sysFsCause : Nat := 0x00004
def Reg.sysHifStatus : Nat := 0x00005
def Reg.sysStaticAddr : Nat := 0x00006
def Reg.sysTimeLo : Nat := 0x00008
def Reg.sysTimeHi : Nat := 0x00009
def Reg.sysEvtBase : Nat := 0x00010
def Reg.sysEvtCtrl : Nat := 0x00011
def Reg.sysEvtWr : Nat := 0x00012
def Reg.sysEvtRd : Nat := 0x00013
def Reg.sysEvtStatus : Nat := 0x00014
def Reg.sysEvtPend : Nat := 0x00015
def Reg.sysEvtIbiMask : Nat := 0x00016
def Reg.sysEvtIrqMask : Nat := 0x00017
def Reg.sysNirqMask : Nat := 0x00018
def Reg.sysEvtPop (i : Nat) : Nat := 0x0001c + i

def Fam.sys : List Fam :=
  [⟨0x00000, 1, 1, 0x0, 0x0, 0x0, 0xfffffffff, 0x0⟩,
   ⟨0x00001, 2, 1, 0x0, 0x0, 0x0, 0xffffffff, 0x0⟩,
   ⟨0x00003, 1, 1, 0x0, 0x0, 0x0, 0x1f7, 0x0⟩,
   ⟨0x00004, 1, 1, 0x0, 0x0, 0x0, 0xffff, 0x0⟩,
   ⟨0x00005, 1, 1, 0x0, 0xf, 0x0, 0x7f10, 0x0⟩,
   ⟨0x00006, 1, 1, 0x0, 0x0, 0x0, 0x7f, 0x5c⟩,
   ⟨0x00008, 1, 1, 0x0, 0x0, 0x0, 0xfffffffff, 0x0⟩,
   ⟨0x00009, 1, 1, 0x0, 0x0, 0x0, 0x80fffffff, 0x0⟩,
   ⟨0x00010, 1, 1, 0x1ff000, 0x0, 0x0, 0x0, 0x0⟩,
   ⟨0x00011, 1, 1, 0x1, 0x0, 0x0, 0x0, 0x0⟩,
   ⟨0x00012, 1, 1, 0x0, 0x0, 0x0, 0x3ff, 0x0⟩,
   ⟨0x00013, 1, 1, 0x3ff, 0x0, 0x0, 0x0, 0x0⟩,
   ⟨0x00014, 1, 1, 0x0, 0x0, 0xffff, 0x30000, 0x0⟩,
   ⟨0x00015, 1, 1, 0x0, 0x7ff, 0x0, 0x0, 0x0⟩,
   ⟨0x00016, 1, 1, 0x7ff, 0x0, 0x0, 0x0, 0x0⟩,
   ⟨0x00017, 1, 1, 0x7ff, 0x0, 0x0, 0x0, 0x0⟩,
   ⟨0x00018, 1, 1, 0x7ff, 0x0, 0x0, 0x0, 0x0⟩,
   ⟨0x0001c, 4, 1, 0x0, 0x0, 0x0, 0xfffffffff, 0x0⟩]

/-! ### PWR (R85 and R106) -/

def Reg.pwrGovCfg : Nat := 0x01000
def Reg.pwrGovStatus : Nat := 0x01001
def Reg.pwrMonCfg : Nat := 0x01002
def Reg.pwrRailOk : Nat := 0x01003
def Reg.pwrBankV0 : Nat := 0x01004
def Reg.pwrBankV1 : Nat := 0x01005
def Reg.pwrRailV (i : Nat) : Nat := 0x01010 + i
def Reg.pwrTemp (i : Nat) : Nat := 0x01030 + i
def Reg.pwrRgnEst (i : Nat) : Nat := 0x01040 + i
def Reg.pwrModeReq : Nat := 0x010f0
def Reg.pwrRetainCfg : Nat := 0x010f1
def Reg.pwrWakeTimer : Nat := 0x010f2
def Reg.pwrResetCause : Nat := 0x010f3
def Reg.pwrBootStatus : Nat := 0x010f4

def Fam.pwr : List Fam :=
  [⟨0x01000, 1, 1, 0xfffff3f, 0x0, 0x0, 0x0, 0x804⟩,
   ⟨0x01001, 1, 1, 0x0, 0x0, 0x1ff80, 0x7f, 0x0⟩,
   ⟨0x01002, 1, 1, 0xfff03f, 0x0, 0x0, 0x0, 0x3⟩,
   ⟨0x01003, 1, 1, 0x0, 0x0, 0x0, 0x3fffff, 0x0⟩,
   ⟨0x01004, 1, 1, 0x0, 0x0, 0x0, 0xfffffffff, 0x0⟩,
   ⟨0x01005, 1, 1, 0x0, 0x0, 0x0, 0x1ff, 0x0⟩,
   ⟨0x01010, 22, 1, 0x0, 0x0, 0x0, 0xfff, 0x0⟩,
   ⟨0x01030, 8, 1, 0x0, 0x0, 0x0, 0xfff, 0x0⟩,
   ⟨0x01040, 64, 1, 0x0, 0x0, 0x0, 0xfff, 0x19⟩,
   ⟨0x010f0, 1, 1, 0x0, 0x0, 0x0, 0x0, 0x0⟩,
   ⟨0x010f1, 1, 1, 0xfffff007f, 0x0, 0x0, 0x0, 0x0⟩,
   ⟨0x010f2, 1, 1, 0xffffffff, 0x0, 0x0, 0x0, 0x0⟩,
   ⟨0x010f3, 1, 1, 0x0, 0x0, 0x0, 0x1ff0f, 0x0⟩,
   ⟨0x010f4, 1, 1, 0x0, 0x0, 0x0, 0xffff01ff, 0x0⟩]

/-! ### CLK (R105) -/

def Reg.clkRoot : Nat := 0x02000
def Reg.clkGcl (i : Nat) : Nat := 0x02010 + i
def Reg.clkGclMoving : Nat := 0x02020

def Fam.clk : List Fam :=
  [⟨0x02000, 1, 1, 0x0, 0x0, 0xffff0, 0xe, 0x8⟩,
   ⟨0x02010, 16, 1, 0x83fffefff, 0x0, 0x0, 0x0, 0x0⟩,
   ⟨0x02020, 1, 1, 0x0, 0x0, 0x0, 0xffff, 0x0⟩]

/-! ### PIN (R417) -/

def Reg.pinCfg (i : Nat) : Nat := 0x03000 + i
def Reg.pinGpio (i : Nat) : Nat := 0x03300 + i
def Reg.pinClaim (i : Nat) : Nat := 0x03600 + i
def Reg.pinDly (i : Nat) : Nat := 0x03900 + i
def Reg.pinIn (i : Nat) : Nat := 0x03c00 + i
def Reg.pinEdge (i : Nat) : Nat := 0x03c20 + i
def Reg.pinSer (i : Nat) : Nat := 0x03d00 + i

def Fam.pin : List Fam :=
  [⟨0x03000, 720, 1, 0xfffc7c000, 0x0, 0x0, 0x383fe0, 0xc000000⟩,
   ⟨0x03300, 720, 1, 0x1c3, 0x20, 0x0, 0xc10, 0x0⟩,
   ⟨0x03600, 720, 1, 0x0, 0x100, 0x0, 0xff00ff, 0x0⟩,
   ⟨0x03900, 720, 1, 0x3ff, 0x0, 0x0, 0x400, 0x0⟩,
   ⟨0x03c00, 30, 1, 0x0, 0x0, 0x0, 0xffffff, 0x0⟩,
   ⟨0x03c20, 30, 1, 0x0, 0xffffff, 0x0, 0x0, 0x0⟩,
   ⟨0x03d00, 360, 1, 0x0, 0x2, 0x0, 0x1, 0x0⟩]

/-! ### CFG (R201 and R219) -/

def Reg.cfgCmd : Nat := 0x10000
def Reg.cfgStatus : Nat := 0x10001
def Reg.cfgSrcEn : Nat := 0x10002
def Reg.cfgFaw : Nat := 0x10003
def Reg.cfgDeckle (i : Nat) : Nat := 0x10004 + i
def Reg.cfgWords : Nat := 0x10007
def Reg.cfgActiveId : Nat := 0x10008
def Reg.cfgShadowId : Nat := 0x10009
def Reg.cfgRdata : Nat := 0x1000a
def Reg.cfgRdataStatus : Nat := 0x1000b
def Reg.cfgSwapCmd : Nat := 0x10020
def Reg.cfgSwapSet0 : Nat := 0x10021
def Reg.cfgSwapSet1 : Nat := 0x10022
def Reg.cfgSwapTLo : Nat := 0x10023
def Reg.cfgSwapTHi : Nat := 0x10024
def Reg.cfgSwapStatus : Nat := 0x10025
def Reg.cfgSwapEdgeLo : Nat := 0x10026
def Reg.cfgSwapEdgeHi : Nat := 0x10027
def Reg.cfgShState (i : Nat) : Nat := 0x10030 + i
def Reg.cfgRingState : Nat := 0x10038
def Reg.cfgRingShId : Nat := 0x10039
def Reg.cfgRact (i : Nat) : Nat := 0x10040 + i
def Reg.cfgRsh (i : Nat) : Nat := 0x10080 + i
def Reg.cfgSdata (i : Nat) : Nat := 0x11000 + i

def Fam.cfg : List Fam :=
  [⟨0x10000, 1, 1, 0x0, 0x0, 0x0, 0x0, 0x0⟩,
   ⟨0x10001, 1, 1, 0x0, 0x0, 0x0, 0xfff000077, 0x0⟩,
   ⟨0x10002, 1, 1, 0x7, 0x0, 0x0, 0x0, 0x0⟩,
   ⟨0x10003, 1, 1, 0x0, 0x0, 0x0, 0xfffffffff, 0x0⟩,
   ⟨0x10004, 3, 1, 0x0, 0x0, 0x0, 0xfffffffff, 0x0⟩,
   ⟨0x10007, 1, 1, 0x0, 0x0, 0x0, 0x1ffffff, 0x0⟩,
   ⟨0x10008, 1, 1, 0x0, 0x0, 0x0, 0xffffffff, 0x0⟩,
   ⟨0x10009, 1, 1, 0x0, 0x0, 0x0, 0xfffffffff, 0x0⟩,
   ⟨0x1000a, 1, 1, 0x0, 0x0, 0xfffffffff, 0x0, 0x0⟩,
   ⟨0x1000b, 1, 1, 0x0, 0x0, 0x0, 0x3ff, 0x1⟩,
   ⟨0x10020, 1, 1, 0x0, 0x0, 0x0, 0x0, 0x0⟩,
   ⟨0x10021, 1, 1, 0xfffffffff, 0x0, 0x0, 0x0, 0x0⟩,
   ⟨0x10022, 1, 1, 0xfffffff, 0x0, 0x0, 0x0, 0x0⟩,
   ⟨0x10023, 1, 1, 0xfffffffff, 0x0, 0x0, 0x0, 0x0⟩,
   ⟨0x10024, 1, 1, 0xfffffff, 0x0, 0x0, 0x0, 0x0⟩,
   ⟨0x10025, 1, 1, 0x0, 0x100, 0x0, 0xfffff1e77, 0x0⟩,
   ⟨0x10026, 1, 1, 0x0, 0x0, 0x0, 0xfffffffff, 0x0⟩,
   ⟨0x10027, 1, 1, 0x0, 0x0, 0x0, 0x80fffffff, 0x0⟩,
   ⟨0x10030, 8, 1, 0x0, 0x0, 0x0, 0xffffffff, 0x0⟩,
   ⟨0x10038, 1, 1, 0x0, 0x0, 0x0, 0x7, 0x0⟩,
   ⟨0x10039, 1, 1, 0x0, 0x0, 0x0, 0xeffffffff, 0x0⟩,
   ⟨0x10040, 64, 1, 0x0, 0x0, 0x0, 0xeffffffff, 0x0⟩,
   ⟨0x10080, 64, 1, 0x0, 0x0, 0x0, 0xeffffffff, 0x0⟩,
   ⟨0x11000, 4096, 1, 0x0, 0x0, 0x0, 0x0, 0x0⟩]

/-! ### CAL (R234) -/

def Reg.calCmd : Nat := 0x18000
def Reg.calStatus : Nat := 0x18001
def Reg.calCfg : Nat := 0x18002
def Reg.calPassTime : Nat := 0x18003
def Reg.calPassCount : Nat := 0x18004
def Reg.calCntMismatch : Nat := 0x18005
def Reg.calCntTmr : Nat := 0x18006
def Reg.calCntRing : Nat := 0x18007
def Reg.calLastMm : Nat := 0x18008
def Reg.calPos (i : Nat) : Nat := 0x18040 + i

def Fam.cal : List Fam :=
  [⟨0x18000, 1, 1, 0x0, 0x0, 0x0, 0x0, 0x0⟩,
   ⟨0x18001, 1, 1, 0x0, 0x20, 0x0, 0xfff0000d1, 0x0⟩,
   ⟨0x18002, 1, 1, 0xff, 0x0, 0x0, 0x0, 0x32⟩,
   ⟨0x18003, 1, 1, 0x0, 0x0, 0x0, 0xfffff, 0x0⟩,
   ⟨0x18004, 1, 1, 0x0, 0x0, 0x0, 0xfffffffff, 0x0⟩,
   ⟨0x18005, 1, 1, 0x0, 0x0, 0xfffffffff, 0x0, 0x0⟩,
   ⟨0x18006, 1, 1, 0x0, 0x0, 0xfffffffff, 0x0, 0x0⟩,
   ⟨0x18007, 1, 1, 0x0, 0x0, 0xfffffffff, 0x0, 0x0⟩,
   ⟨0x18008, 1, 1, 0x0, 0x0, 0x0, 0xfffffffff, 0x0⟩,
   ⟨0x18040, 65, 1, 0x0, 0x0, 0x0, 0xfffffffff, 0x0⟩]

/-! ### FLC (R397) -/

def Reg.flcCtrl : Nat := 0x20000
def Reg.flcStatus : Nat := 0x20001
def Reg.flcBankStatus : Nat := 0x20002
def Reg.flcRingBase : Nat := 0x20003
def Reg.flcDescWr : Nat := 0x20004
def Reg.flcDescRd : Nat := 0x20005
def Reg.flcCmplWr : Nat := 0x20006
def Reg.flcCmplRd : Nat := 0x20007
def Reg.flcXcfg : Nat := 0x20008
def Reg.flcXipStatus : Nat := 0x20009
def Reg.flcXo (i : Nat) : Nat := 0x2000a + i
def Reg.flcWearCfg : Nat := 0x20010
def Reg.flcWearStatus : Nat := 0x20011
def Reg.flcWearCount : Nat := 0x20012
def Reg.flcJrnlStatus : Nat := 0x20013
def Reg.flcJrnlSeq : Nat := 0x20014
def Reg.flcBootJrnl : Nat := 0x20015
def Reg.flcRecov : Nat := 0x20016
def Reg.flcCntCorr (i : Nat) : Nat := 0x20020 + i
def Reg.flcCntErase : Nat := 0x20022

def Fam.flc : List Fam :=
  [⟨0x20000, 1, 1, 0xf3, 0x0, 0x0, 0x0, 0x0⟩,
   ⟨0x20001, 1, 1, 0x0, 0x0, 0x0, 0xc003f07ff, 0x0⟩,
   ⟨0x20002, 1, 1, 0x0, 0x0, 0x0, 0xffffffff, 0x0⟩,
   ⟨0x20003, 1, 1, 0x1ffe00, 0x0, 0x0, 0x0, 0x0⟩,
   ⟨0x20004, 1, 1, 0x3f, 0x40, 0x0, 0x0, 0x0⟩,
   ⟨0x20005, 1, 1, 0x0, 0x0, 0x0, 0x3f, 0x0⟩,
   ⟨0x20006, 1, 1, 0x0, 0x0, 0x0, 0x3f, 0x0⟩,
   ⟨0x20007, 1, 1, 0x3f, 0x0, 0x0, 0x0, 0x0⟩,
   ⟨0x20008, 1, 1, 0x1, 0x0, 0x0, 0x0, 0x0⟩,
   ⟨0x20009, 1, 1, 0x0, 0x0, 0x0, 0xc00000000, 0x0⟩,
   ⟨0x2000a, 4, 1, 0x0, 0x0, 0x0, 0x803ffffff, 0x0⟩,
   ⟨0x20010, 1, 1, 0xffff, 0x0, 0x0, 0x0, 0x64⟩,
   ⟨0x20011, 1, 1, 0x0, 0x0, 0x0, 0x3ffffff, 0x2dde000⟩,
   ⟨0x20012, 1, 1, 0x0, 0x0, 0x0, 0xfffffffff, 0x0⟩,
   ⟨0x20013, 1, 1, 0x0, 0x0, 0x0, 0x8000000ff, 0x1⟩,
   ⟨0x20014, 1, 1, 0x0, 0x0, 0x0, 0xffffffff, 0x0⟩,
   ⟨0x20015, 1, 1, 0x0, 0x0, 0x0, 0xcffffffff, 0x0⟩,
   ⟨0x20016, 1, 1, 0x0, 0x0, 0xffff01, 0x0, 0x1⟩,
   ⟨0x20020, 2, 1, 0x0, 0x0, 0xfffffffff, 0x0, 0x0⟩,
   ⟨0x20022, 1, 1, 0x0, 0x0, 0x0, 0xfffffffff, 0x0⟩]

/-! ### SCR (R368) -/

def Reg.scrBeaterCtrl : Nat := 0x30000
def Reg.scrBeaterStatus : Nat := 0x30001
def Reg.scrBeaterXcfg : Nat := 0x30002
def Reg.scrBeaterFail : Nat := 0x30003
def Reg.scrBankClaim (i : Nat) : Nat := 0x30010 + i
def Reg.scrBankCfg (i : Nat) : Nat := 0x30020 + i
def Reg.scrBankHandover (i : Nat) : Nat := 0x30030 + i
def Reg.scrBankRepair (i : Nat) : Nat := 0x30040 + i
def Reg.scrConflict (i : Nat) : Nat := 0x30050 + i
def Reg.scrEccCorr : Nat := 0x30060
def Reg.scrEccUncorr : Nat := 0x30061
def Reg.scrEccLast : Nat := 0x30062
def Reg.scrIrqThresh : Nat := 0x30080
def Reg.scrIrqTake : Nat := 0x30081
def Reg.scrIrqDone : Nat := 0x30082
def Reg.scrIrqPend (i : Nat) : Nat := 0x30084 + i
def Reg.scrIrqEn (i : Nat) : Nat := 0x30088 + i
def Reg.scrIrqPrio (i : Nat) : Nat := 0x30100 + i
def Reg.scrSerCtrl (i : Nat) : Nat := 0x30200 + 16 * i
def Reg.scrSerStatus (i : Nat) : Nat := 0x30201 + 16 * i
def Reg.scrUartCfg (i : Nat) : Nat := 0x30202 + 16 * i
def Reg.scrSpiCfg (i : Nat) : Nat := 0x30222 + 16 * i
def Reg.scrI2cCfg (i : Nat) : Nat := 0x30242 + 16 * i
def Reg.scrSerTx (i : Nat) : Nat := 0x30203 + 16 * i
def Reg.scrSerRx (i : Nat) : Nat := 0x30204 + 16 * i
def Reg.scrSerClaim (i : Nat) : Nat := 0x30205 + 16 * i
def Reg.scrTmrCtrl (i : Nat) : Nat := 0x30300 + 8 * i
def Reg.scrTmrStatus (i : Nat) : Nat := 0x30301 + 8 * i
def Reg.scrTmrCfg (i : Nat) : Nat := 0x30302 + 8 * i
def Reg.scrTmrCount (i : Nat) : Nat := 0x30303 + 8 * i
def Reg.scrTmrCompare (i : Nat) : Nat := 0x30304 + 8 * i
def Reg.scrTmrCmpB (i : Nat) : Nat := 0x30305 + 8 * i
def Reg.scrTmrClaim (i : Nat) : Nat := 0x30306 + 8 * i

def Fam.scr : List Fam :=
  [⟨0x30000, 1, 1, 0xffff07f3, 0x0, 0x0, 0x0, 0x0⟩,
   ⟨0x30001, 1, 1, 0x0, 0x0, 0x0, 0xfe00007ff, 0x0⟩,
   ⟨0x30002, 1, 1, 0x1, 0x0, 0x0, 0x0, 0x0⟩,
   ⟨0x30003, 1, 1, 0x0, 0x0, 0x0, 0xfffffffff, 0x0⟩,
   ⟨0x30010, 16, 1, 0x0, 0x100, 0x0, 0xff00ff, 0x0⟩,
   ⟨0x30020, 16, 1, 0x1, 0x0, 0x0, 0x2, 0x0⟩,
   ⟨0x30030, 16, 1, 0x0, 0x0, 0x0, 0x0, 0x0⟩,
   ⟨0x30040, 16, 1, 0x0, 0x0, 0x0, 0xfcfffffff, 0x0⟩,
   ⟨0x30050, 16, 1, 0x0, 0x0, 0xfffffffff, 0x0, 0x0⟩,
   ⟨0x30060, 1, 1, 0x0, 0x0, 0xfffffffff, 0x0, 0x0⟩,
   ⟨0x30061, 1, 1, 0x0, 0x0, 0xfffffffff, 0x0, 0x0⟩,
   ⟨0x30062, 1, 1, 0x0, 0x0, 0x0, 0x81fffffff, 0x0⟩,
   ⟨0x30080, 1, 1, 0x7, 0x0, 0x0, 0x0, 0x0⟩,
   ⟨0x30081, 1, 1, 0x0, 0x0, 0x7f, 0x0, 0x0⟩,
   ⟨0x30082, 1, 1, 0x0, 0x0, 0x0, 0x0, 0x0⟩,
   ⟨0x30084, 4, 1, 0x0, 0x0, 0x0, 0xffffffff, 0x0⟩,
   ⟨0x30088, 4, 1, 0xffffffff, 0x0, 0x0, 0x0, 0x0⟩,
   ⟨0x30100, 128, 1, 0x7, 0x0, 0x0, 0x0, 0x0⟩,
   ⟨0x30200, 6, 16, 0xfff00f3, 0x0, 0x0, 0x0, 0x0⟩,
   ⟨0x30201, 6, 16, 0x0, 0x0, 0x0, 0x3fff07ff, 0x20000000⟩,
   ⟨0x30202, 2, 16, 0xfffff, 0x0, 0x0, 0x0, 0xd80⟩,
   ⟨0x30222, 2, 16, 0x7fffff, 0x0, 0x0, 0x0, 0x0⟩,
   ⟨0x30242, 2, 16, 0x3, 0x0, 0x0, 0x0, 0x0⟩,
   ⟨0x30203, 6, 16, 0x0, 0x0, 0x0, 0x0, 0x0⟩,
   ⟨0x30204, 6, 16, 0x0, 0x0, 0xfffffffff, 0x0, 0x0⟩,
   ⟨0x30205, 6, 16, 0x0, 0x100, 0x0, 0xff00ff, 0x0⟩,
   ⟨0x30300, 16, 8, 0xf3, 0x0, 0x0, 0x0, 0x0⟩,
   ⟨0x30301, 16, 8, 0x0, 0x0, 0x0, 0x7ff, 0x0⟩,
   ⟨0x30302, 16, 8, 0x1ff, 0x0, 0x0, 0x0, 0x0⟩,
   ⟨0x30303, 16, 8, 0xffffffff, 0x0, 0x0, 0x0, 0x0⟩,
   ⟨0x30304, 16, 8, 0xffffffff, 0x0, 0x0, 0x0, 0x0⟩,
   ⟨0x30305, 16, 8, 0xffffffff, 0x0, 0x0, 0x0, 0x0⟩,
   ⟨0x30306, 16, 8, 0x0, 0x100, 0x0, 0xff00ff, 0x0⟩]

/-! ### RHX (R289) -/

def Reg.rhxCtrl : Nat := 0x40000
def Reg.rhxStatus : Nat := 0x40001
def Reg.rhxCfg : Nat := 0x40002
def Reg.rhxAlloc (i : Nat) : Nat := 0x40010 + i
def Reg.rhxAllocStatus : Nat := 0x4001a
def Reg.rhxAgeCfg : Nat := 0x40020
def Reg.rhxAgeCmd : Nat := 0x40021
def Reg.rhxAgeStatus : Nat := 0x40022
def Reg.rhxWcSegEn : Nat := 0x40030
def Reg.rhxWcData (i : Nat) : Nat := 0x40031 + i
def Reg.rhxWcCmd : Nat := 0x40038
def Reg.rhxWcStatus : Nat := 0x40039
def Reg.rhxKinsKey (i : Nat) : Nat := 0x40040 + i
def Reg.rhxKinsCtl : Nat := 0x40043
def Reg.rhxKinsStatus : Nat := 0x40044
def Reg.rhxCmdReq (i : Nat) : Nat := 0x40100 + i
def Reg.rhxCmdRsp (i : Nat) : Nat := 0x40104 + i
def Reg.rhxCmdStatus : Nat := 0x40108
def Reg.rhxCnt (i : Nat) : Nat := 0x40200 + i
def Reg.rhxOccupancy : Nat := 0x40210

def Fam.rhx : List Fam :=
  [⟨0x40000, 1, 1, 0xf3, 0x0, 0x0, 0x0, 0x0⟩,
   ⟨0x40001, 1, 1, 0x0, 0x0, 0x0, 0x3fff07ff, 0x0⟩,
   ⟨0x40002, 1, 1, 0x0, 0x0, 0x0, 0x3, 0x0⟩,
   ⟨0x40010, 10, 1, 0x1ff, 0x0, 0x0, 0x1ff0000, 0x0⟩,
   ⟨0x4001a, 1, 1, 0x0, 0x400, 0x0, 0x3ff, 0x0⟩,
   ⟨0x40020, 1, 1, 0x8003fffff, 0x0, 0x0, 0x0, 0x0⟩,
   ⟨0x40021, 1, 1, 0x0, 0x0, 0x0, 0x0, 0x0⟩,
   ⟨0x40022, 1, 1, 0x0, 0x0, 0x0, 0xfffffffff, 0x0⟩,
   ⟨0x40030, 1, 1, 0xffff, 0x0, 0x0, 0x0, 0x0⟩,
   ⟨0x40031, 7, 1, 0xfffffffff, 0x0, 0x0, 0x0, 0x0⟩,
   ⟨0x40038, 1, 1, 0x0, 0x0, 0x0, 0x0, 0x0⟩,
   ⟨0x40039, 1, 1, 0x0, 0x2, 0x0, 0x1, 0x0⟩,
   ⟨0x40040, 3, 1, 0xfffffffff, 0x0, 0x0, 0x0, 0x0⟩,
   ⟨0x40043, 1, 1, 0x0, 0x0, 0x0, 0x0, 0x0⟩,
   ⟨0x40044, 1, 1, 0x0, 0x100, 0x0, 0xbf, 0x0⟩,
   ⟨0x40100, 4, 1, 0x0, 0x0, 0x0, 0x0, 0x0⟩,
   ⟨0x40104, 4, 1, 0x0, 0x0, 0x0, 0xfffffffff, 0x0⟩,
   ⟨0x40108, 1, 1, 0x0, 0x10000, 0x0, 0xffff, 0x1⟩,
   ⟨0x40200, 9, 1, 0x0, 0x0, 0xfffffffff, 0x0, 0x0⟩,
   ⟨0x40210, 1, 1, 0x0, 0x0, 0x0, 0xfffffff, 0x0⟩]

/-! ### MSH (R340) -/

def Reg.mshCmd : Nat := 0x50000
def Reg.mshNodeStatus : Nat := 0x50001
def Reg.mshNodeStatus2 : Nat := 0x50002
def Reg.mshNodeCfg : Nat := 0x50003
def Reg.mshCntDrop : Nat := 0x50004
def Reg.mshCntStDrop : Nat := 0x50005
def Reg.mshPCtrl (i : Nat) : Nat := 0x50010 + 2 * i
def Reg.mshPStatus (i : Nat) : Nat := 0x50011 + 2 * i
def Reg.mshPTrainFail (i : Nat) : Nat := 0x50020 + 4 * i
def Reg.mshPReplay (i : Nat) : Nat := 0x50021 + 4 * i
def Reg.mshPLerr (i : Nat) : Nat := 0x50022 + 4 * i
def Reg.mshPAsym (i : Nat) : Nat := 0x50023 + 4 * i
def Reg.mshTimeStatus : Nat := 0x50040
def Reg.mshTimeSetLo : Nat := 0x50042
def Reg.mshTimeSetHi : Nat := 0x50043
def Reg.mshRraCfg : Nat := 0x50050
def Reg.mshRraNode : Nat := 0x50051
def Reg.mshRraAddr : Nat := 0x50052
def Reg.mshRraWdata : Nat := 0x50053
def Reg.mshRraCmd : Nat := 0x50054
def Reg.mshRraStatus : Nat := 0x50055
def Reg.mshRraRdata : Nat := 0x50056
def Reg.mshPushCmd : Nat := 0x50060
def Reg.mshPushStatus : Nat := 0x50061
def Reg.mshPushWords : Nat := 0x50062
def Reg.mshPushRb : Nat := 0x50063
def Reg.mshNht (i : Nat) : Nat := 0x50400 + i

def Fam.msh : List Fam :=
  [⟨0x50000, 1, 1, 0x0, 0x0, 0x0, 0x0, 0x0⟩,
   ⟨0x50001, 1, 1, 0x0, 0x0, 0x0, 0xffffff07f, 0x0⟩,
   ⟨0x50002, 1, 1, 0x0, 0x0, 0x0, 0x7ffffff, 0x0⟩,
   ⟨0x50003, 1, 1, 0xffffff1, 0x0, 0x0, 0x0, 0x8003e80⟩,
   ⟨0x50004, 1, 1, 0x0, 0x0, 0xfffffffff, 0x0, 0x0⟩,
   ⟨0x50005, 1, 1, 0x0, 0x0, 0xfffffffff, 0x0, 0x0⟩,
   ⟨0x50010, 8, 2, 0xf3, 0x0, 0x0, 0x0, 0x0⟩,
   ⟨0x50011, 8, 2, 0x0, 0x0, 0x0, 0xffff807ff, 0x0⟩,
   ⟨0x50020, 8, 4, 0x0, 0x0, 0xfffffffff, 0x0, 0x0⟩,
   ⟨0x50021, 8, 4, 0x0, 0x0, 0xfffffffff, 0x0, 0x0⟩,
   ⟨0x50022, 8, 4, 0x0, 0x0, 0xfffffffff, 0x0, 0x0⟩,
   ⟨0x50023, 8, 4, 0xffff, 0x0, 0x0, 0x0, 0x0⟩,
   ⟨0x50040, 1, 1, 0x0, 0x100000000, 0x0, 0xeffffffff, 0x0⟩,
   ⟨0x50042, 1, 1, 0x0, 0x0, 0x0, 0x0, 0x0⟩,
   ⟨0x50043, 1, 1, 0x0, 0x0, 0x0, 0x0, 0x0⟩,
   ⟨0x50050, 1, 1, 0x3, 0x0, 0x0, 0x0, 0x0⟩,
   ⟨0x50051, 1, 1, 0x3ff, 0x0, 0x0, 0x0, 0x0⟩,
   ⟨0x50052, 1, 1, 0xffffff, 0x0, 0x0, 0x0, 0x0⟩,
   ⟨0x50053, 1, 1, 0xfffffffff, 0x0, 0x0, 0x0, 0x0⟩,
   ⟨0x50054, 1, 1, 0x0, 0x0, 0x0, 0x0, 0x0⟩,
   ⟨0x50055, 1, 1, 0x0, 0x100, 0x0, 0xff, 0x0⟩,
   ⟨0x50056, 1, 1, 0x0, 0x0, 0x0, 0xfffffffff, 0x0⟩,
   ⟨0x50060, 1, 1, 0x0, 0x0, 0x0, 0x0, 0x0⟩,
   ⟨0x50061, 1, 1, 0x0, 0x100000, 0x0, 0xfffe00000, 0x0⟩,
   ⟨0x50062, 1, 1, 0x0, 0x0, 0x0, 0x1ffffff, 0x0⟩,
   ⟨0x50063, 1, 1, 0x0, 0x0, 0x1ffffff, 0x0, 0x0⟩,
   ⟨0x50400, 1024, 1, 0x0, 0x0, 0x0, 0xfff80ffff, 0x0⟩]

/-! ### DBG (R439) -/

def Reg.dbgPolicy : Nat := 0x60000
def Reg.dbgStatus : Nat := 0x60001
def Reg.dbgAuthCmd : Nat := 0x60002
def Reg.dbgChal (i : Nat) : Nat := 0x60010 + i
def Reg.dbgResp (i : Nat) : Nat := 0x60018 + i
def Reg.dbgLockWin : Nat := 0x60020
def Reg.dbgTraceCtrl : Nat := 0x60030
def Reg.dbgTraceData : Nat := 0x60031

def Fam.dbg : List Fam :=
  [⟨0x60000, 1, 1, 0x0, 0x0, 0x0, 0x3f, 0x0⟩,
   ⟨0x60001, 1, 1, 0x0, 0x400, 0x0, 0x3ff, 0x0⟩,
   ⟨0x60002, 1, 1, 0x0, 0x0, 0x0, 0x0, 0x0⟩,
   ⟨0x60010, 8, 1, 0x0, 0x0, 0x0, 0xffffffff, 0x0⟩,
   ⟨0x60018, 8, 1, 0x0, 0x0, 0x0, 0x0, 0x0⟩,
   ⟨0x60020, 1, 1, 0xffff, 0x0, 0x0, 0x0, 0x40⟩,
   ⟨0x60030, 1, 1, 0xff01, 0x0, 0x0, 0xff0000, 0x0⟩,
   ⟨0x60031, 1, 1, 0x0, 0x0, 0x0, 0xfffffffff, 0x0⟩]

/-! ### WDT (R440) -/

def Reg.wdtCtrl : Nat := 0x68000
def Reg.wdtStatus : Nat := 0x68001
def Reg.wdtCfg : Nat := 0x68002
def Reg.wdtXcfg : Nat := 0x68003
def Reg.wdtKick : Nat := 0x68004
def Reg.wdtRemain : Nat := 0x68005

def Fam.wdt : List Fam :=
  [⟨0x68000, 1, 1, 0xf3, 0x0, 0x0, 0x100, 0x0⟩,
   ⟨0x68001, 1, 1, 0x0, 0x0, 0x0, 0x7ff, 0x0⟩,
   ⟨0x68002, 1, 1, 0xffffffff, 0x0, 0x0, 0x0, 0x0⟩,
   ⟨0x68003, 1, 1, 0x1ffff, 0x0, 0x0, 0x0, 0x14⟩,
   ⟨0x68004, 1, 1, 0x0, 0x0, 0x0, 0x0, 0x0⟩,
   ⟨0x68005, 1, 1, 0x0, 0x0, 0x0, 0xfffffff, 0x0⟩]

/-! ### SVC (R457) -/

def Reg.svcCfg : Nat := 0x70000
def Reg.svcStatus : Nat := 0x70001
def Reg.svcTestLast : Nat := 0x70002
def Reg.svcTestDetail : Nat := 0x70003
def Reg.svcCntLines : Nat := 0x70004
def Reg.svcCntReject : Nat := 0x70005

def Fam.svc : List Fam :=
  [⟨0x70000, 1, 1, 0x3ffff, 0x0, 0x0, 0x0, 0x30d90⟩,
   ⟨0x70001, 1, 1, 0x0, 0x20, 0x0, 0xf1f, 0x0⟩,
   ⟨0x70002, 1, 1, 0x0, 0x0, 0x0, 0xfffffff03, 0x0⟩,
   ⟨0x70003, 1, 1, 0x0, 0x0, 0x0, 0xfffffffff, 0x0⟩,
   ⟨0x70004, 1, 1, 0x0, 0x0, 0xfffffffff, 0x0, 0x0⟩,
   ⟨0x70005, 1, 1, 0x0, 0x0, 0xfffffffff, 0x0, 0x0⟩]

/-! ### SEC (R202) -/

def Reg.secPolicy : Nat := 0x78000
def Reg.secRoll : Nat := 0x78001
def Reg.secRollAdv : Nat := 0x78002
def Reg.secKrCtrl : Nat := 0x78003
def Reg.secKrData : Nat := 0x78004
def Reg.secPkh (i : Nat) : Nat := 0x78010 + i

def Fam.sec : List Fam :=
  [⟨0x78000, 1, 1, 0x0, 0x0, 0x0, 0x1f, 0x0⟩,
   ⟨0x78001, 1, 1, 0x0, 0x20000, 0x0, 0x1ffff, 0x0⟩,
   ⟨0x78002, 1, 1, 0x0, 0x0, 0x0, 0x0, 0x0⟩,
   ⟨0x78003, 1, 1, 0x0, 0x4, 0x0, 0x2, 0x0⟩,
   ⟨0x78004, 1, 1, 0x0, 0x0, 0x0, 0x0, 0x0⟩,
   ⟨0x78010, 12, 1, 0x0, 0x0, 0x0, 0xffffffff, 0x0⟩]

/-! ### RGN (R148) -/

def Reg.rgnCmd (n : Nat) : Nat := 524288 + 0x2000 * n
def Reg.rgnStatus (n : Nat) : Nat := 524289 + 0x2000 * n
def Reg.rgnAttr (n : Nat) : Nat := 524290 + 0x2000 * n
def Reg.rgnLog (n : Nat) : Nat := 524292 + 0x2000 * n
def Reg.rgnLogLost (n : Nat) : Nat := 524293 + 0x2000 * n
def Reg.rgnCntSbe (n : Nat) : Nat := 524296 + 0x2000 * n
def Reg.rgnCntParity (n : Nat) : Nat := 524297 + 0x2000 * n
def Reg.rgnCntRepair (n : Nat) : Nat := 524298 + 0x2000 * n
def Reg.rgnCntCont (n i : Nat) : Nat := 524299 + 0x2000 * n + i
def Reg.rgnContRows (n i : Nat) : Nat := 524301 + 0x2000 * n + i
def Reg.rgnFence (n : Nat) : Nat := 524304 + 0x2000 * n

def Fam.rgn : List Fam :=
  [⟨0x00000, 1, 1, 0x0, 0x0, 0x0, 0x0, 0x0⟩,
   ⟨0x00001, 1, 1, 0x0, 0x40, 0x0, 0x3fbf, 0x0⟩,
   ⟨0x00002, 1, 1, 0x0, 0x0, 0x0, 0xff3f, 0x0⟩,
   ⟨0x00004, 1, 1, 0x0, 0x0, 0xfffffff81, 0x0, 0x1⟩,
   ⟨0x00005, 1, 1, 0x0, 0x0, 0xffff, 0x0, 0x0⟩,
   ⟨0x00008, 1, 1, 0x0, 0x0, 0xfffffffff, 0x0, 0x0⟩,
   ⟨0x00009, 1, 1, 0x0, 0x0, 0xfffffffff, 0x0, 0x0⟩,
   ⟨0x0000a, 1, 1, 0x0, 0x0, 0xfffffffff, 0x0, 0x0⟩,
   ⟨0x0000b, 2, 1, 0x0, 0x0, 0xffffffff, 0x0, 0x0⟩,
   ⟨0x0000d, 2, 1, 0x0, 0xffffffff, 0x0, 0x0, 0x0⟩,
   ⟨0x00010, 1, 1, 0x0, 0x0, 0x0, 0xff, 0x0⟩]

/-- The families of the block that holds address `a`, and the address to look for in them (R42). -/
def Fam.ofAddr (a : Nat) : List Fam × Nat :=
  if a < 0x1000 then (Fam.sys, a) else if a < 0x2000 then (Fam.pwr, a) else if a < 0x3000 then (Fam.clk, a)
  else if a < 0x4000 then (Fam.pin, a) else if a < 0x10000 then ([], a) else if a < 0x18000 then (Fam.cfg, a)
  else if a < 0x20000 then (Fam.cal, a) else if a < 0x30000 then (Fam.flc, a) else if a < 0x40000 then (Fam.scr, a)
  else if a < 0x50000 then (Fam.rhx, a) else if a < 0x60000 then (Fam.msh, a) else if a < 0x68000 then (Fam.dbg, a)
  else if a < 0x70000 then (Fam.wdt, a) else if a < 0x78000 then (Fam.svc, a) else if a < 0x80000 then (Fam.sec, a)
  else if a < 0x100000 then (Fam.rgn, (a - 0x80000) % 0x2000) else ([], a)

/-- The register family at word address `a`, if any register answers there. -/
def Fam.at? (a : Nat) : Option Fam := (Fam.ofAddr a).1.find? (fun f => f.has (Fam.ofAddr a).2)

/-- What register `a` holds at reset. -/
def regDefault (a : Nat) : Word :=
  match Fam.at? a with
  | some f => BitVec.ofNat 36 f.rst
  | none => 0

end Sys2Proof.Machine
end

