-- ==== Sys2Proof/Config.lean ====
section
/-! DEFINITION. What an implementation fixes and the free values: constants without a body, so no proof can see what
they are. Fuses (R57, R189, R202, R427, R428), layouts of image fields the spec names and does not place (R175),
and values the spec leaves open. -/

namespace Sys2Proof.Config

/-- True for speed grade 2, false for 1 (R1). -/
opaque fuseGrade2 : Bool
/-- True for temperature grade E, false for C (R1). -/
opaque fuseGradeE : Bool
/-- SYS.ID.STEPPING (R57). -/
opaque stepping : BitVec 4
/-- The Watermark (R57). -/
opaque watermark : BitVec 64
/-- Thermometer fuses blown when the part reaches the user (R189). -/
opaque fuseRollback : BitVec 8
/-- SEC.POLICY bits 4:0 (R202). -/
opaque fuseSecPolicy : BitVec 5
/-- SHA-384 of the public key, SEC.PKH0 to PKH11 (R202). -/
opaque fusePkh : BitVec 384
/-- The eFuse image key (R188). -/
opaque fuseKey : BitVec 256
/-- DBG.POLICY bits 5:0 (R439). -/
opaque fuseDbgPolicy : BitVec 6
/-- The fused debug key (R428). -/
opaque fuseDbgKey : BitVec 256
/-- FLC.XIP_STATUS.XO_DEBUG (R387). -/
opaque fuseXoDebug : Bool
/-- SCR.BANKn_REPAIR as the factory left it (R366, R368). -/
opaque fuseRepair : Nat → BitVec 36

/-- Fields of image frames whose place the spec does not give: the field's number, an index, and the words of
the frames that hold it (R175, R17, R24, R89, R94, R106, R133, R137, R148, R295). -/
opaque layout : Nat → Nat → List Word → Nat

/-- A free bit: the n-th drawn. -/
opaque freeBit : Nat → Bool
/-- What a pad shows that nothing drives, or that carries a wave: the n-th drawn, pin. -/
opaque freePad : Nat → Nat → Bool
/-- A free 36-bit value: the n-th drawn. -/
opaque freeWord : Nat → Word
/-- Whether an nRST pulse from 100 ns to 1 us is taken: the n-th drawn (R82). -/
opaque nrstTaken : Nat → Bool
/-- Random words of a challenge's nonce: the n-th drawn (R428). -/
opaque nonce : Nat → BitVec 32
/-- What SECDED makes of three or more wrong bits: none, uncorrectable; some, the word it returns as corrected. -/
opaque secdedMulti : BitVec 36 → BitVec 43 → Option Word
/-- A flash word differs between a normal and a margin read: the n-th drawn, flash address, direction (R377). -/
opaque flashWeak : Nat → Nat → Bool → Bool
/-- A flash word whose write was cut short or failed: the n-th drawn, flash address (R395, R379). -/
opaque flashCut : Nat → Nat → Word × BitVec 43
/-- Contents of a scratchpad word that nothing has written since its contents were lost: epoch, offset (R81). -/
opaque scratchInit : Nat → Nat → Word × BitVec 43
/-- Whether the design in a region implements registers: region, identity of its image (R28). -/
opaque userRegs : Nat → Word → Bool
/-- What the design in a region answers to a read of its user registers: address, n-th drawn (R28). -/
opaque userWindow : Nat → Nat → Word
/-- Voltages, in mV, that the rails show: rail, n-th drawn (R106). -/
opaque railMv : Nat → Nat → BitVec 12

end Sys2Proof.Config
end

