-- ==== Sys2Proof/Machine/Store.lean ====
section
/-! DEFINITION. Sparse stores in one canonical form: keys strictly rising, no entry equal to what an unlisted key
reads as. Every bank of like things (registers, memories, regions, pins) is held in one. -/

namespace Sys2Proof.Machine

/-- A sparse map from natural keys; what an unlisted key reads as is a function of the key, given with each operation. -/
abbrev Store (α : Type) := List (Nat × α)

/-- What key `k` holds. -/
def Store.get {α : Type} (d : Nat → α) : Store α → Nat → α
  | [], k => d k
  | (j, v) :: m, k => if k = j then v else Store.get d m k

/-- Insert or replace without looking at the default. -/
def Store.put {α : Type} : Store α → Nat → α → Store α
  | [], k, v => [(k, v)]
  | (j, w) :: m, k, v =>
    if k = j then (k, v) :: m else if k < j then (k, v) :: (j, w) :: m else (j, w) :: Store.put m k v

/-- Remove a key. -/
def Store.del {α : Type} (m : Store α) (k : Nat) : Store α := m.filter (fun e => e.1 != k)

/-- Write `v` at `k`; writing what an unlisted key reads as removes the entry. -/
def Store.set {α : Type} [DecidableEq α] (d : Nat → α) (m : Store α) (k : Nat) (v : α) : Store α :=
  if v = d k then Store.del m k else Store.put m k v

/-- The canonical form, with keys at least `lo`. -/
def Store.wfFrom {α : Type} [DecidableEq α] (d : Nat → α) : Nat → Store α → Bool
  | _, [] => true
  | lo, (j, v) :: m => decide (lo ≤ j) && !decide (v = d j) && Store.wfFrom d (j + 1) m

/-- The canonical form. -/
abbrev Store.wf {α : Type} [DecidableEq α] (d : Nat → α) (m : Store α) : Bool := Store.wfFrom d 0 m

/-- Keep the entries whose key satisfies `p`. -/
def Store.keep {α : Type} (p : Nat → Bool) (m : Store α) : Store α := m.filter (fun e => p e.1)

/-- Change the value at `k` by `f`. -/
def Store.upd {α : Type} [DecidableEq α] (d : Nat → α) (m : Store α) (k : Nat) (f : α → α) : Store α :=
  Store.set d m k (f (Store.get d m k))

end Sys2Proof.Machine
end

