-- ==== Sys2Proof/Machine/State.lean ====
section
/-! DEFINITION. The state of the part as plain data: every register of the register space by its word address,
and every piece of state the spec gives the part behind its registers; the reasons a step can stop; the state after reset. -/

namespace Sys2Proof.Machine

/-- Why a step could fault. No command of this part faults: an access that the part refuses is answered
on its bus and leaves a state (R28, R42, R348), so this type has no constructor; an empty type is safe. -/
inductive Fault where
  deriving DecidableEq, Repr

/-- Why a step could be refused. -/
inductive Refusal where
  /-- Raised by `exec` for a command that has no meaning yet; no meaning raises it. Safe: the machine stops. -/
  | notModelled (mnemonic : String)
  deriving DecidableEq, Repr

/-- The six modes with the codes of SYS.MODE.MODE (R57, R58). -/
inductive Mode where
  | inert | boot | run | retain | service | failsafe
  deriving DecidableEq, Repr

/-- A word of a memory with SECDED (R19): the data bits as they stand, and the set of the 43 stored bits
(36 data, 7 check) that differ from the codeword last written. -/
structure Cell where
  data : Word := 0
  err : BitVec 43 := 0
  deriving DecidableEq, Repr

/-- How far RETAIN entry or exit has gone (R60, R78, R79). -/
inductive RetainPhase where
  /-- Neither entering nor leaving. -/
  | idle
  /-- R78 steps 1 to 9. -/
  | entering
  /-- R79 step 2 done, VCCRAM not yet in its run window. -/
  | exitWaitRam
  /-- R79 steps 4 to 6: memories awake, soft-start not ended. -/
  | exitRamp
  deriving DecidableEq, Repr

/-- The sources of a wake, with the codes of E009 (R86). -/
inductive WakeSrc where
  | register | pin | timer
  deriving DecidableEq, Repr

/-- Power, clock, reset and start-up state behind PWR, CLK and SYS.MODE. -/
structure Boot where
  /-- VCCSVC is below 2.9 V: power-on reset is held (R95). -/
  porHeld : Bool := false
  /-- POWER_GOOD (R67). -/
  powerGood : Bool := false
  /-- nRST is low (R82). -/
  nrstLow : Bool := false
  /-- nSAFE stood low when the part last looked at it (R61, R65). -/
  nsafeLow : Bool := false
  /-- The level of SVC_MODE when last seen (R76, R447). -/
  svcModePin : Bool := false
  /-- Time zero of the boot sequence has passed (R67). -/
  timeZero : Bool := false
  /-- SYS.TIME at time zero (R67, R85 RELEASE_US). -/
  t0 : BitVec 64 := 0
  /-- Edges pass on the fabric clocks: a soft-start of all regions has been granted and nothing has stopped them since (R101). -/
  fabricOn : Bool := false
  /-- A SERVICE EXIT is under way (R76). -/
  exitRun : Bool := false
  /-- The context store was power-gated in RETAIN and is not yet cleared (R78). -/
  ctxLost : Bool := false
  /-- The root PLL has locked since the last reset (R62, R93). -/
  lockedOnce : Bool := false
  /-- The present period on the backup oscillator began with a loss of REFCLK or of lock (R92). -/
  backupByLoss : Bool := false
  /-- The safe-level store holds a map (R75, R409 row 1). -/
  safeLoaded : Bool := false
  /-- The safe-level store: nine bits for each pin (R74). -/
  safeMap : Store (BitVec 9) := []
  /-- Banks in the order in which step 6c enables them (R74, R75). -/
  bankOrder : List (Fin 15) := []
  /-- Banks whose outputs are enabled, counted in that order (R69). -/
  banksOn : Nat := 0
  /-- Regions whose boot power-up pulse has ended (R102). -/
  pulsed : Nat := 0
  /-- Step 6a has passed, or the held release of SERVICE (R69, R76). -/
  released : Bool := false
  /-- Step 6a itself has passed: fences are open, flip-flops are not held at preload (R71, R109, R136). -/
  opened : Bool := false
  /-- A verified boot block names the slot; its word 3 and execute-only ranges are in force (R393). -/
  twinOk : Bool := false
  /-- The boot block fell back to its second twin (R68). -/
  twinFellBack : Bool := false
  /-- The boot stream's COMMIT was accepted and its body ended: step 5 may end (R195). -/
  imageLoaded : Bool := false
  /-- The re-boot-to-SERVICE option (R58). -/
  toService : Bool := false
  /-- Requester of a soft reset whose E007 the next global release raises (R83). -/
  softBy : Option Req := none
  /-- RETAIN entry and exit (R78, R79). -/
  retain : RetainPhase := .idle
  /-- A wake event that arrived during entry (R60). -/
  heldWake : Option WakeSrc := none
  /-- A SERVICE command that arrived during entry (R60). -/
  heldService : Bool := false
  /-- RETAIN is emulated under a debugger (R433). -/
  emu : Bool := false
  /-- The VCCRAM monitor uses the retention window (R78, R95). -/
  ramRetWindow : Bool := false
  /-- HEALTH code of the trigger that entered the present FAILSAFE (R61). -/
  fsHealth : BitVec 4 := 0
  /-- The owner of a live locked sequence on PWR.MODE_REQ (R432). -/
  seqMode : Option Req := none
  /-- The owner of a live locked sequence on WDT.KICK (R432). -/
  seqKick : Option Req := none
  /-- Consecutive samples of each sensor outside the trip window (R103). -/
  tripCnt : Store Nat := []
  /-- Consecutive samples of each sensor above TEMP_WARN (R103). -/
  warnCnt : Store Nat := []
  /-- E105 was raised for the present crossing (R103). -/
  warned : Store Bool := []
  /-- Trigger 3 was raised for the present crossing (R103). -/
  tripped : Store Bool := []
  /-- Each fabric line's phase target and the step it has reached are equal, or the line moves (R90). -/
  phaseAt : Store (BitVec 12) := []
  /-- Normal interconnect requests promoted to urgent: target, master and the CK_SYS cycles within which each is granted (R25, R26). -/
  promoted : List (Nat × Fin 15 × Nat) := []
  /-- Interconnect weight of each master of R24, where segment 79 gives one. -/
  weights : Store (BitVec 4) := []
  /-- Fabric master ports on which the image allows urgent requests (R24). -/
  urgent : BitVec 8 := 0
  deriving DecidableEq, Repr

/-- The load events of R99, in the order in which R100 serves one CK_SVC cycle. -/
inductive GovKind where
  | exit | entry | chipSwap | regionSwap | regionWake | bootPulse | engineStart | meshPort
  deriving DecidableEq, Repr

/-- A request to the governor, or the ramp it was granted (R99, R100). -/
structure GovReq where
  kind : GovKind
  /-- Region or port. -/
  ix : Nat := 0
  /-- Step in 0.1 A. -/
  di : Nat := 0
  /-- SYS.TIME at which the request was entered (R100). -/
  came : BitVec 64 := 0
  /-- Slope of the ramp under way, as a fraction of 1 A per microsecond; 0/1 before the grant. -/
  num : Nat := 0
  den : Nat := 1
  deriving DecidableEq, Repr

/-- The governor (R99 to R102). -/
structure Gov where
  queue : List GovReq := []
  ramps : List GovReq := []
  deriving DecidableEq, Repr

/-- A queued in-band interrupt (R54). -/
structure Ibi where
  cls : BitVec 4
  code : Code
  index : BitVec 16
  deriving DecidableEq, Repr

/-- The I3C target (R34 to R41). -/
structure Hif where
  /-- INT and HJ as ENEC and DISEC leave them. -/
  intEn : Bool := true
  hjEn : Bool := true
  mwl : BitVec 16 := 1024
  mrl : BitVec 16 := 1024
  /-- The word address in force for reads (R39). -/
  ptr : Addr := 0
  /-- The address that the last HDR-DDR command 0x10 set (R41). -/
  ddrPtr : Addr := 0
  /-- In HDR-DDR (R41). -/
  hdr : Bool := false
  /-- The bus was found active at wake-up and no address is held (R37). -/
  hotJoin : Bool := false
  /-- Hot-join requests sent (R37). -/
  hotJoins : Nat := 0
  ibiQ : List Ibi := []
  /-- Whether the last addressed transfer or CCC was acknowledged. -/
  ack : Bool := false
  /-- The bytes that the part last sent on the bus. -/
  out : List Byte := []
  deriving DecidableEq, Repr

/-- The event unit (R53 to R57) and SYS.TIME (R335). -/
structure Evt where
  /-- Sequence number of the next event. -/
  seq : BitVec 16 := 0
  /-- The service buffer, oldest record first. -/
  buf : List Quad := []
  /-- Events were dropped since the last stored record. -/
  ovf : Bool := false
  /-- The newest record stored. -/
  newest : Option Quad := none
  /-- The most recent code that ERR LAST reports (R448). -/
  lastErr : Code := 0
  /-- The code of the newest event, stored or dropped: the one that a refused command of the service port reports (R13). -/
  raised : Code := 0
  /-- The 64-bit nanosecond counter (R335). -/
  time : BitVec 64 := 0
  /-- The counter's fraction, in units of 2^-32 ns (R335). -/
  frac : BitVec 32 := 0
  /-- The counter follows mesh time. -/
  meshTime : Bool := false
  /-- The TIME_HI latch of each requester (R57). -/
  timeLatch : Store Word := []
  /-- The SWAP_EDGE latch of each requester (R219). -/
  edgeLatch : Store Word := []
  deriving DecidableEq, Repr

/-- What the last access on the register space or the interconnect returned. -/
structure Resp where
  who : Req := 0
  data : Word := 0
  /-- A bus error response (R28, R348). -/
  err : Bool := false
  /-- The words of a scratchpad beat after its first (R354). -/
  more : List Word := []
  deriving DecidableEq, Repr

/-- A queued repair (R227, R228). -/
structure Repair where
  /-- Lane: region, or 64 for the ring. -/
  lane : Nat
  /-- Key of the word in the plane store. -/
  key : Nat
  /-- Word supplied by a flash fetch, when it authenticated. -/
  fetched : Option Word := none
  /-- Cause of a failed fetch, as E405; 0 none. -/
  failed : BitVec 6 := 0
  /-- The word has been written and waits for its re-read: KIND 3 or 4 of the repair, 0 while nothing has been written (R227). -/
  wrote : BitVec 3 := 0
  /-- A repair from the shadow has been re-read and was not clean (R227). -/
  tried : Bool := false
  deriving DecidableEq, Repr

/-- A hardened word, held in triple (R136). -/
structure Triple where
  c0 : Word := 0
  c1 : Word := 0
  c2 : Word := 0
  deriving DecidableEq, Repr

/-- A region's state behind its registers and its configuration words. -/
structure Region where
  /-- Error log, oldest entry first (R143). -/
  log : List Word := []
  /-- Physical plane that is active (R203: roles are exchanged, bits do not move). -/
  role : Bool := false
  /-- Cells whose golden MODE is 10 or 11, by cell index, for physical planes 0 and 1 (R226). -/
  gold0 : Store Bool := []
  gold1 : Store Bool := []
  /-- Golden map copies that disagree: plane, cell index, copy (R226). -/
  goldBad : List (Bool × Nat × Fin 3) := []
  /-- Clock spines gated by quarantine, reset, swap or re-preload (R145, R208). -/
  gated : Bool := false
  /-- Fence values staged at the COMMIT of physical planes 0 and 1: the 16 Pass words of each of the four edges (R136, R208). -/
  fence0 : List Triple := []
  fence1 : List Triple := []
  /-- Held for re-preload (R210). -/
  repre : Bool := false
  /-- A soft-start of the region is awaited before the swap ends (R211). -/
  awaiting : Bool := false
  /-- A MIRROR copy of this region is running (R204). -/
  mirroring : Bool := false
  deriving DecidableEq, Repr

/-- One port of a RAM36 (R152, R153). -/
structure RamPort where
  dout : Word := 0
  /-- Parity mismatch on the data on DOUT. -/
  perr : Bool := false
  /-- Words on their way to DOUT with their parity mismatch, oldest first: output register and cascade (R153, R161). -/
  pipe : List (Word × Bool) := []
  /-- The word that the array gave the port last, with its parity mismatch. -/
  last : Word × Bool := (0, false)
  deriving DecidableEq, Repr

/-- One RAM36 block's registers (R152, R159, R165). -/
structure Ram36 where
  a : RamPort := {}
  b : RamPort := {}
  coll : Bool := false
  lost : Bool := false
  /-- Sticky parity flag. -/
  ppar : Bool := false
  /-- FIFO read pointer and count. -/
  rd : Nat := 0
  cnt : Nat := 0
  ovf : Bool := false
  udf : Bool := false
  /-- Writes that the read side does not yet see, and reads that the write side does not yet see: edges of that side to come (R159). -/
  farW : List Nat := []
  farR : List Nat := []
  /-- Edges of each side until a FIFO_RST completes there (R160). -/
  rstW : Nat := 0
  rstR : Nat := 0
  deriving DecidableEq, Repr

/-- One MAC36 block's registers (R167 to R171). -/
structure Mac36 where
  p : BitVec 96 := 0
  ovf : Bool := false
  ovfS : Bool := false
  preOvf : Bool := false
  areg : Word := 0
  breg : Word := 0
  breg2 : Word := 0
  creg : BitVec 96 := 0
  dreg : Word := 0
  prereg : Word := 0
  /-- Operands held at the two multiplier stages. -/
  m1a : Word := 0
  m1b : Word := 0
  m2a : Word := 0
  m2b : Word := 0
  deriving DecidableEq, Repr

/-- The fabric: configuration planes and user state (R107 to R173). -/
structure Fabric where
  /-- Configuration words of both physical planes, by `cfgKey`. -/
  cfg : Store Cell := []
  /-- Ring plane that is active (segments 64 to 88 and 127). -/
  ringRole : Bool := false
  ffA : Store Bool := []
  ffB : Store Bool := []
  /-- A cell's parity bit disagrees with its 64 stored bits (R118). -/
  parErr : Store Bool := []
  /-- Sticky PERR flags (R119). -/
  perr : Store Bool := []
  /-- What the routing presented to each Quire last (R126). -/
  ins : Store QuireIn := []
  /-- Register stations that hold 1 (R132), by `stationKey`. -/
  stations : Store Bool := []
  /-- Pass words' two stages of 36 channels (R134), by `passKey`. -/
  pass : Store Word := []
  /-- What each bus carried at its last sample edge (R139), by 2n + bus. -/
  bus : Store Word := []
  /-- RAM36 content words (R151). -/
  ram : Store Word := []
  /-- Lanes of a content word whose hidden parity bit disagrees (R165). -/
  ramPar : Store (BitVec 4) := []
  ram36 : Store Ram36 := []
  mac : Store Mac36 := []
  deriving DecidableEq, Repr

/-- Where the loader stands in a stream (CFG.STATUS.STATE, R201). -/
inductive LdState where
  | idle | header | verify | body | fcmd | commit
  deriving DecidableEq, Repr

/-- What an FCMD does (R184). -/
inductive Fcmd where
  | copy | clear
  deriving DecidableEq, Repr

/-- The packet under way in the body (R180). -/
structure Pkt where
  type : BitVec 4 := 0
  code : BitVec 8 := 0
  left : Nat := 0
  /-- Words of the packet taken so far, for packets acted on when whole. -/
  buf : List Word := []
  deriving DecidableEq, Repr

/-- What the part records of a verified slot header (R195, R229). -/
structure SlotRec where
  hash : BitVec 384 := 0
  iv : BitVec 64 := 0
  enc : Bool := false
  /-- Header length H in words. -/
  hlen : Nat := 0
  bodyLen : Nat := 0
  rollV : BitVec 8 := 0
  valid : Bool := false
  imageId : BitVec 32 := 0
  deriving DecidableEq, Repr

/-- The stream loader (R179 to R201). -/
structure Loader where
  st : LdState := .idle
  src : BitVec 3 := 0
  owner : Req := 0
  /-- The load writes the active plane: boot, or the reload of this region (R193). -/
  reload : Option (Fin 64) := none
  /-- Slot that a flash stream comes from. -/
  slot : Option (Fin 4) := none
  /-- Header or segment words received and not yet acted on. -/
  inbuf : List Word := []
  hlen : Nat := 0
  digest : BitVec 384 := 0
  length : Nat := 0
  segNo : Nat := 0
  /-- Body words acted on. -/
  wordIx : Nat := 0
  imageId : BitVec 32 := 0
  baseId : BitVec 32 := 0
  full : Bool := false
  enc : Bool := false
  iv : BitVec 64 := 0
  rollV : BitVec 8 := 0
  faw : Word := 0
  fmask : BitVec 32 := BitVec.allOnes 32
  /-- The FAW has run past the last frame it may reach (R177). -/
  past : Bool := false
  fcmd : Option Fcmd := none
  pkt : Option Pkt := none
  /-- Plaintext words that follow a running FCMD or a waiting readback (R184). -/
  waiting : List Word := []
  crc : BitVec 32 := BitVec.allOnes 32
  crcSeen : Bool := false
  committed : Bool := false
  commitOk : Bool := false
  /-- DESYNC was reached; the rest of the body is only checked against its tags (R182). -/
  ended : Bool := false
  /-- Segments whose shadow the stream made UNCOMMITTED (R195); 64 stands for the ring. -/
  touched : List Nat := []
  /-- Words of a readback packet not yet returned (R193). -/
  rbLeft : Nat := 0
  /-- Words of that packet already returned. -/
  rbDone : Nat := 0
  /-- A word that waited for room in the repair queue and has been queued: key of that word (R228, R230). -/
  rbQueued : Option Nat := none
  /-- The readback waits at its word for room in the repair queue (R228). -/
  rbFull : Bool := false
  /-- The frame bus's uncorrectable flag beside the last word returned (R124, R193, R230). -/
  unc : Bool := false
  /-- The readback FIFO of CFG.RDATA (R201). -/
  rdata : List Word := []
  /-- Readback words on the CAP output or the mesh reply (R199). -/
  capOut : List Word := []
  slotRec : Store SlotRec := []
  deriving DecidableEq, Repr

/-- The security store: key RAM and thermometer fuses (R202, R189). -/
structure Sec where
  /-- Staged key words since the last LOAD or ZEROIZE (R202). -/
  krWords : List (BitVec 32) := []
  /-- The battery-backed key RAM (R202). -/
  keyRam : BitVec 256 := 0
  /-- VALID: the key RAM holds a key (R202). -/
  keyValid : Bool := false
  /-- Thermometer fuses blown (R189). -/
  rollCount : BitVec 8 := Config.fuseRollback
  /-- Target of the fuses being blown (R202). -/
  rollTarget : Option (BitVec 8) := none
  deriving DecidableEq, Repr

/-- A participant's latest vote (R214). -/
structure Vote where
  ready : Bool := false
  nul : Bool := false
  deriving DecidableEq, Repr

/-- Plane swap state behind CFG.SWAP_STATUS (R206 to R216). -/
structure Swap where
  /-- Regions of an accepted region swap, or all for a chip or mesh swap. -/
  regions : BitVec 64 := 0
  ring : Bool := false
  /-- Regions exchanged at the last edge. -/
  exchanged : Nat := 0
  ringEx : Bool := false
  t : BitVec 64 := 0
  coord : BitVec 10 := 0
  participants : List (BitVec 10) := []
  votes : List (Nat × Vote) := []
  /-- GO was received or sent. -/
  go : Bool := false
  edgeTime : BitVec 64 := 0
  edgeMesh : Bool := false
  /-- Active identity of the ring (R203). -/
  ringAct : Word := 0
  /-- MIRROR commands whose copies run, oldest first: the regions whose copies each began (R204). -/
  mirrors : List (BitVec 64) := []
  deriving DecidableEq, Repr

/-- One copy of one Calender engine's state in one lane (R223). -/
structure CalCopy where
  pos : BitVec 18 := 0
  pass : BitVec 16 := 0
  count : BitVec 18 := 0
  crc : BitVec 32 := BitVec.allOnes 32
  /-- The range registers: the frame of the lane's sequence that is read now (R220, R222). -/
  range : BitVec 11 := 0
  deriving DecidableEq, Repr

/-- Three copies, voted on every read (R223). -/
structure Tri where
  c0 : CalCopy := {}
  c1 : CalCopy := {}
  c2 : CalCopy := {}
  deriving DecidableEq, Repr

/-- One scrub lane (R220 to R224). -/
structure Lane where
  a : Tri := {}
  b : Tri := {}
  /-- Both engines' states at the start of the present frame. -/
  a0 : CalCopy := {}
  b0 : CalCopy := {}
  /-- Reads of the present frame, modulo 128: engine A reads at even ones, engine B at odd ones (R223). -/
  beat : BitVec 7 := 0
  /-- The scrub waits at this word because the repair queue is full (R228). -/
  stalled : Bool := false
  /-- The lane has ended a pass that began within the present full chip pass (R221). -/
  ended : Bool := false
  /-- The pass under way began within the present full chip pass. -/
  fresh : Bool := true
  deriving DecidableEq, Repr

/-- The Calender (R220 to R234). -/
structure Cal where
  lanes : Store Lane := []
  /-- Queued repairs in the order of detection (R228). -/
  queue : List Repair := []
  /-- Times of the mismatches of the last 10 ms (R225). -/
  mmTimes : List (BitVec 64) := []
  /-- E40D was raised in this full chip pass (R223). -/
  tmrRaised : Bool := false
  /-- Ring words found uncorrectable by the engine while the ring's queue was full (R228, R261). -/
  late : List Nat := []
  /-- TEST CAL will show a mismatch of this engine at the next frame boundary of region 0: false A, true B (R453). -/
  inject : Option Bool := none
  passStart : BitVec 64 := 0
  deriving DecidableEq, Repr

/-- How far an engine operation has gone (R247, R250, R252). -/
inductive OpPhase where
  | accepted | admitted | done | remote
  deriving DecidableEq, Repr

/-- An engine operation in its slot (R247). -/
structure Op where
  id : Nat
  /-- Requester number of R244. -/
  rq : Fin 10
  /-- Requester ID of the operation's origin (R282). -/
  who : Req
  /-- For MESH: source node, source requester, source tag (R244). -/
  node : BitVec 10 := 0
  sreq : BitVec 4 := 0
  stag : BitVec 6 := 0
  req : Quad
  phase : OpPhase := .accepted
  /-- Number of its admission, in order (R250). -/
  adm : Nat := 0
  /-- Context whose lock place it holds (R251), and the number of that place. -/
  ctx : Option Nat := none
  place : Nat := 0
  /-- DATA0 and HITSRC of its lookup, once that has ended (R272). -/
  hit : Word := 0
  hitSrc : BitVec 2 := 0
  /-- The program as the program store held it at acceptance (R208). -/
  prog : List Cell := []
  /-- The ring's active plane at acceptance (R208, R261). -/
  plane : Bool := false
  /-- Result fields before the response is formed: status and response words. -/
  status : BitVec 6 := 0
  rsp : Quad := ⟨0, 0, 0, 0⟩
  /-- Issued by RHX.KINS_CTL: its response goes to KINS_STATUS (R289). -/
  kins : Bool := false
  /-- Staged third key word of a KINS operation (R289). -/
  key2 : Word := 0
  /-- Its port has got another host: the response is discarded (R212). -/
  drop : Bool := false
  deriving DecidableEq, Repr

/-- The aging sweep (R271, R286). -/
structure Sweep where
  running : Bool := false
  paused : Bool := false
  pos : Nat := 0
  done : Nat := 0
  deriving DecidableEq, Repr

/-- The Rhorax engine (R235 to R289). -/
structure Engine where
  ctx8 : Bool := false
  seed : BitVec 64 := 0
  ctx : Store Cell := []
  poison : Store Bool := []
  key : Store Cell := []
  stash : Store Cell := []
  wc : Store Cell := []
  slots : List Op := []
  nextId : Nat := 0
  /-- Last requester admitted (R250). -/
  rr : Fin 10 := 9
  /-- Slots each requester holds (R248). -/
  held : Store Nat := []
  /-- Credits of discarded responses that return when the port's region is released (R84). -/
  back : Store Nat := []
  /-- Host of a port: 1 + region, 0 none, by 8 x kind + k, kinds 0 engine port, 1 fabric master port, 2 STREAM interface (R17);
  24 the configuration access port (R199). -/
  hosts : Store Nat := []
  /-- Fabric global line of a port, by the same number (R30). -/
  lines : Store Nat := []
  /-- Requesters that admit nothing, each with a context for which it waits (R252). -/
  lockHold : List (Nat × Nat) := []
  /-- MESH requests that wait for a slot: node, source requester, tag, request (R249). -/
  waitQ : List (BitVec 10 × BitVec 4 × BitVec 6 × Quad) := []
  /-- The response that the fabric took last. -/
  out : Quad := ⟨0, 0, 0, 0⟩
  /-- Responses waiting per requester, oldest first (R245, R289). -/
  rspQ : Store (List Quad) := []
  /-- Per-master staging of CMD_REQ0 to 2 (R289). -/
  stage : Store Quad := []
  /-- The on-engine event buffer: code, source, detail (R282). -/
  evBuf : List (Code × Req × Word) := []
  evLost : Nat := 0
  sweep : Sweep := {}
  /-- Remote operations that ended in TIMEOUT and whose response may still come: requester, tag and target node (R249). -/
  late : List (Nat × Nat × Nat) := []
  /-- CTX8 and the seed are fixed until the next reset (R240, R284). -/
  fixed : Bool := false
  deriving DecidableEq, Repr

/-- One mesh port behind its registers (R290 to R303). -/
structure Port where
  /-- A governor grant has been given and calibration is awaited (R294). -/
  granted : Bool := false
  /-- Next SEQ to send, oldest unacknowledged SEQ, next SEQ expected. -/
  txSeq : BitVec 12 := 0
  txAck : BitVec 12 := 0
  rxSeq : BitVec 12 := 0
  /-- Packets sent and not acknowledged, oldest first. -/
  replay : List Packet := []
  /-- Packets queued for the wire. -/
  txq : List Packet := []
  /-- Packets accepted from the link and not yet routed (R301, R302). -/
  rxq : List Packet := []
  /-- STREAM has the next turn against REQ (R320). -/
  altStream : Bool := false
  /-- The ACK sent last: SEQ, and true for NAK. -/
  lastAck : Option (BitVec 12 × Bool) := none
  /-- Link words put on the wire last: those of a packet, an ACK word, a CREDIT word; 0 while there is none (R300). -/
  txWords : List Word := []
  ackWord : Word := 0
  creditWord : Word := 0
  /-- When ENABLE = 0 began to stop the port (R294). -/
  stopAt : BitVec 64 := 0
  /-- Units sent per VC, and units the neighbour has freed per VC (R301). -/
  sent : Store (BitVec 12) := []
  freedFar : Store (BitVec 12) := []
  /-- Units this receiver has freed per VC. -/
  freed : Store (BitVec 12) := []
  /-- Words are discarded until RSTART (R302). -/
  discard : Bool := false
  /-- Replays in a row without ACK progress; replays in the present millisecond. -/
  replays : Nat := 0
  replaysMs : Nat := 0
  msStart : BitVec 64 := 0
  e604At : Option (BitVec 64) := none
  /-- Consecutive training failures since the port started or its last loss. -/
  fails : Nat := 0
  /-- In electrical idle after a failed attempt (R298). -/
  idle : Bool := false
  /-- Trains as a test (R454). -/
  test : Bool := false
  nbrWmark : BitVec 64 := 0
  nbrRoot : BitVec 64 := 0
  nbrState : BitVec 3 := 0
  nbrPrio : BitVec 8 := 128
  nbrDepth : BitVec 7 := 0
  heard : Bool := false
  refused : Bool := false
  /-- The port's frame changed at a swap: it retrains after the soft-start (R208). -/
  retrain : Bool := false
  deriving DecidableEq, Repr

/-- The discovery controller (R303 to R316). -/
structure Disc where
  /-- Highest EPOCH seen. -/
  epoch : BitVec 16 := 0
  /-- The candidate, and the distance to it. -/
  candPrio : BitVec 8 := 0
  candWmark : BitVec 64 := 0
  dist : BitVec 7 := 0
  parent : Option (Fin 8) := none
  /-- The last ELECT of this discovery from each port: PRIO, Watermark, DIST. -/
  elects : List (Fin 8 × BitVec 8 × BitVec 64 × BitVec 7) := []
  /-- Ports whose ECHO has come, the entries they carried, and ports taken as absent (R316). -/
  children : List (Fin 8) := []
  entries : List (Fin 8 × EchoEntry) := []
  absent : List (Fin 8) := []
  echoed : Bool := false
  isRoot : Bool := false
  depth : BitVec 7 := 0
  rootWmark : BitVec 64 := 0
  /-- Root of the previous READY. -/
  prevRoot : Option (BitVec 64) := none
  doneFrom : List (Fin 8) := []
  doneSent : Bool := false
  /-- Watermarks and addresses that the root has assigned. -/
  assigned : List AssignEntry := []
  /-- The newest LSA of each node. -/
  lsas : List Lsa := []
  count : Nat := 0
  diam : BitVec 7 := 0
  /-- The next-hop table stands as the LSAs have it. -/
  installed : Bool := false
  refusedSet : List (BitVec 10) := []
  /-- This node joins a ready mesh and has its address (R311). -/
  joining : Bool := false
  /-- Ports from which a JOIN went on toward the root, oldest first. -/
  joinFrom : List (Fin 8) := []
  /-- Address kept across resets and asked for again (R81, R307). -/
  lastAddr : Option (BitVec 10) := none
  /-- Departed nodes whose addresses are reserved, and when each departed (R314). -/
  reserved : List AssignEntry := []
  departed : List (BitVec 10 × BitVec 64) := []
  deriving DecidableEq, Repr

/-- A STREAM interface (R333, R334). -/
structure St where
  tx : List Quad := []
  txDest : BitVec 13 := 0
  /-- Next SEQ by destination (13 bits), and destinations already started. -/
  seqTo : Store (BitVec 8) := []
  started : Store Bool := []
  /-- Expected SEQ by source (13 bits). -/
  expect : Store (BitVec 8) := []
  /-- Received transfers: data, source, last, gap. -/
  rx : List (Quad × BitVec 13 × Bool × Bool) := []
  /-- The transfer last handed to the fabric. -/
  out : Option (Quad × BitVec 13 × Bool × Bool) := none
  deriving DecidableEq, Repr

/-- The mesh (R290 to R340). -/
structure Mesh where
  ports : Store Port := []
  disc : Disc := {}
  /-- Flood keys remembered: SRC, SVC, low byte, time (R321). -/
  seen : List (BitVec 10 × BitVec 5 × BitVec 8 × BitVec 64) := []
  /-- Packets delivered to local units and not consumed by a command of their own. -/
  inbox : List Packet := []
  /-- A remote access waits for its response (R324). -/
  rraWrite : Bool := false
  /-- Image push: destination, offset of the next word, words unacknowledged (R329). -/
  pushDest : BitVec 10 := 0
  pushSlot : Fin 4 := 0
  pushTotal : Nat := 0
  pushAcked : Nat := 0
  /-- Node whose push this part's loader takes, and words consumed since the last IMG_ACK (R330). -/
  pushFrom : BitVec 10 := 0
  pushTaken : Nat := 0
  /-- The count that the last IMG_ACK carried. -/
  pushAckAt : Nat := 0
  st : Store St := []
  /-- Mesh time: t1 of the last request, consecutive good and missed exchanges (R335, R336). -/
  t1 : BitVec 64 := 0
  good : Nat := 0
  missed : Nat := 0
  /-- The first exchange after READY, a new source or a root change is still to come. -/
  firstEx : Bool := true
  /-- Rate correction in parts per million. -/
  rate : Int := 0
  timeSetLo : Word := 0
  /-- Transmitter preset of each port, used in its training (R295). -/
  presets : Store Word := []
  deriving DecidableEq, Repr

/-- The Vatman core (R341 to R348). -/
structure Core where
  running : Bool := false
  halted : Bool := false
  wfi : Bool := false
  /-- Stopped fetching after a double fault (R385). -/
  stopped : Bool := false
  pc : BitVec 32 := 0x20000000
  gpr : Store (BitVec 32) := []
  /-- CSRs by number; every CSR is zero when the core leaves reset (R341). -/
  csr : Store (BitVec 32) := []
  staging : BitVec 4 := 0
  latchNib : BitVec 4 := 0
  latchAddr : Addr := 0
  latchValid : Bool := false
  /-- Scratchpad word that LR reserved (R347). -/
  resv : Option (Fin 2097152) := none
  /-- What the core's last load, LR, SC or AMO returned to it. -/
  data : BitVec 32 := 0
  /-- Exception that the core's last access raised and that it has not yet taken: mcause and mtval (R341, R344, R348). -/
  exc : Option (BitVec 32 × BitVec 32) := none
  deriving DecidableEq, Repr

/-- A UART, SPI or I2C controller's buffers (R352, R353). -/
structure Serial where
  tx : List Word := []
  rx : List Word := []
  /-- Writes to TX dropped (R353 OVF). -/
  ovf : Nat := 0
  /-- The next entry stored carries OVF_BEFORE. -/
  ovfBefore : Bool := false
  deriving DecidableEq, Repr

/-- A timer's registers behind CFG, COUNT, COMPARE, CMP_B (R352). -/
structure Timer where
  /-- Prescaler phase. -/
  phase : Nat := 0
  pinLevel : Bool := false
  deriving DecidableEq, Repr

/-- The Beater (R360 to R366). -/
structure Beater where
  running : Bool := false
  destruct : Bool := false
  ss : Bool := false
  repair : Bool := false
  /-- Banks of the run. -/
  banks : BitVec 16 := 0
  /-- Banks not yet done: a destructive run holds them. -/
  active : BitVec 16 := 0
  /-- Banks whose preserving run yielded and waits for 256 idle cycles (R365). -/
  waiting : BitVec 16 := 0
  /-- The run is the service port's MARCH test (R453). -/
  fromSvc : Bool := false
  /-- Who cleared ENABLE while the start was under way (R46, R362). -/
  stopBy : Req := 0
  deriving DecidableEq, Repr

/-- The scratchpad, interrupts and core peripherals (R349 to R368). -/
structure Scr where
  /-- Scratchpad words; none: a word whose contents are undefined, or zero in a bank of `zeroed` (R358). -/
  mem : Store (Option Cell) := []
  /-- Banks that a destructive run has written to zero since their contents were last lost. -/
  zeroed : BitVec 16 := 0
  /-- Which undefined contents the words without an entry have: the model's own field. -/
  epoch : Nat := 0
  /-- Sources in service (R350). -/
  inService : List Nat := []
  /-- Levels of the fabric interrupt inputs 64 to 127 (R349). -/
  fabricIrq : BitVec 64 := 0
  serial : Store Serial := []
  tmr : Store Timer := []
  beater : Beater := {}
  deriving DecidableEq, Repr

/-- A descriptor the controller has fetched (R380). -/
structure Desc where
  d : Quad
  /-- Dispatched to its bank. -/
  active : Bool := false
  /-- Its operation has ended with this status. -/
  result : Option (BitVec 4) := none
  bank : Fin 16 := 0
  sector : BitVec 9 := 0
  pages : Nat := 0
  detail : Word := 0
  deriving DecidableEq, Repr

/-- An erased flash word: all 43 bits 1, read without error (R369). -/
def flashErased : Cell := { data := BitVec.allOnes 36 }

/-- The CHECKPOINT that the factory leaves in J0 (R373, R389): JSEQ 0, gap 5,871, start 0, no queued sector. -/
def factoryJournal : Store Cell :=
  [(0x2480000, { data := 0x500000000 }), (0x2480001, { data := 0x2DDE000 }), (0x2480002, {}), (0x2480003, { data := 0x702954C4 })]

/-- The flash array and its controller (R369 to R397). -/
structure Flash where
  /-- Words by flash address; an unlisted word is erased. The factory has initialised J0: page 0 holds a CHECKPOINT (R373, R390). -/
  mem : Store Cell := factoryJournal
  descs : List Desc := []
  /-- A gap move under way: from, to (R388). -/
  move : Option (Nat × Nat) := none
  /-- The recovery queue: bank and sector ids, 13 bits (R392). -/
  recov : List (BitVec 13) := []
  /-- Recovery reports not yet read (R397). -/
  reports : List Word := []
  /-- Twin in use: false A, true B. -/
  twin : Bool := false
  /-- An entry of the boot journal is in force (R394). -/
  bootEntry : Bool := false
  /-- The four page buffers of the execute-in-place unit: a page of the array and the words read from it, oldest first (R381, log 109). -/
  xip : List (Nat × List Cell) := []
  deriving DecidableEq, Repr

/-- A function switch under way (R411). -/
inductive SwStage where
  | none | parked | masked
  deriving DecidableEq, Repr

/-- A pin behind its registers (R398 to R417). -/
structure Pin where
  /-- The stage of the switch and the function connected. -/
  stage : SwStage := .none
  conn : BitVec 2 := 0
  /-- A FUNC written during the switch (R413). -/
  heldFunc : Option (BitVec 2) := none
  /-- What drove the pin at the start of the switch: the level, or none (R412). -/
  atSwitch : Option Bool := none
  /-- What drove the pin in the cycle before RETAIN (R409). -/
  atRetain : Option Bool := none
  /-- PARK as the switch under way took it (R413). -/
  parkNow : BitVec 2 := 0
  /-- SLEEP_LEVEL and SLEEP_PULL in force until the next entry to RETAIN (R413). -/
  sleepHeld : Option (BitVec 4) := none
  /-- Level that something outside drives on the pad; none: nothing outside drives it. -/
  pad : Option Bool := none
  /-- The last level that anything drove on the pad; none: never driven (R404, keeper). -/
  keeper : Option Bool := none
  /-- Edge detectors masked after an override (R410). -/
  masked : Bool := false
  /-- FUNC before TEST, and what the service port drives (R451). -/
  before : Option (BitVec 2) := none
  /-- 0 undriven, 1 high, 2 low, 3 square wave. -/
  testDrive : BitVec 2 := 0
  /-- When the square wave began. -/
  testAt : BitVec 64 := 0
  /-- The cell's output registers D0 and D1 and its output enable (R401). -/
  fabOut : Bool := false
  fabOut1 : Bool := false
  fabOe : Bool := false
  /-- The cell's input registers Q0 and Q1 (R401). -/
  q0 : Bool := false
  q1 : Bool := false
  /-- The word that a transmit serialiser sends, or that a receive one shows the fabric (R403). -/
  word : BitVec 16 := 0
  /-- The pair's receive aligner lost lock and has not locked again (R403). -/
  lostLock : Bool := false
  /-- Not allowed for input at the bank voltage: stays at its safe level (R399). -/
  barred : Bool := false
  /-- Tap that the delay line has reached (R402). -/
  tapAt : BitVec 9 := 0
  /-- Image words 2 and 3 (R405). -/
  img2 : Word := 0
  img3 : Word := 0
  deriving DecidableEq, Repr

/-- Debug: TAP, DTM, debug module, authentication (R420 to R433). -/
structure Debug where
  /-- The debug access level in force; none: DBG.POLICY.FLOOR (R427). -/
  level : Option (BitVec 2) := none
  ir : BitVec 8 := 0x01
  boundary : BitVec 2160 := 0
  /-- The data register that the last scan captured. -/
  capture : BitVec 2160 := 0
  /-- The data that DBGREG read last, and whether its last access was refused (R425). -/
  dbgData : Word := 0
  dbgErr : Bool := false
  /-- What the access that is still pending will report: the data of the last read, and ERR; an Update-DR met it (R425). -/
  dbgNext : Option (Word × Bool) := none
  dbgOver : Bool := false
  /-- The last DMI access: its address, and the data that it returned. -/
  dmiAddr : BitVec 7 := 0
  dmiData : BitVec 32 := 0
  /-- sbcs: sbreadonaddr, sbreadondata, sbautoincrement, sbaccess; sbaddress0. -/
  sbOnAddr : Bool := false
  sbOnData : Bool := false
  sbInc : Bool := false
  sbAccess : BitVec 3 := 2
  sbAddr : BitVec 32 := 0
  /-- dmstatus: resumeack and havereset. -/
  resumeack : Bool := false
  havereset : Bool := false
  /-- A debugger has set dmcontrol.dmactive. -/
  dmactive : Bool := false
  haltOnReset : Bool := false
  /-- The system bus's own staging nibble (R424). -/
  sbStaging : BitVec 4 := 0
  sbLatchNib : BitVec 4 := 0
  sbLatchAddr : Addr := 0
  sbLatchValid : Bool := false
  sbData : BitVec 32 := 0
  sberror : BitVec 3 := 0
  cmderr : BitVec 3 := 0
  data0 : BitVec 32 := 0
  /-- Challenge words of DBG.CHAL and the requested level. -/
  chal : List (BitVec 32) := []
  resp : Store (BitVec 32) := []
  /-- Challenges issued since power-on (R428). -/
  issued : BitVec 32 := 0
  svcChal : List (BitVec 32) := []
  svcChalValid : Bool := false
  trace : Store Word := []
  deriving DecidableEq, Repr

/-- The watchdog's count (R434 to R437). -/
structure Wdt where
  count : Nat := 0
  /-- CK_SVC cycles counted since the last reload. -/
  since : Nat := 0
  /-- The next refresh is never an early refresh (R436). -/
  graced : Bool := false
  deriving DecidableEq, Repr

/-- A value in a service-port reply (R444, R446). -/
inductive SvcVal where
  | text (s : String)
  | dec (n : Int)
  /-- A decimal number in so many digits. -/
  | num (digits : Nat) (n : Nat)
  /-- A number in so many hex digits. -/
  | hex (digits : Nat) (n : Nat)
  | code (c : Code)
  deriving DecidableEq, Repr

/-- A service-port reply (R444). -/
inductive Reply where
  | none
  | ok (vals : List SvcVal)
  | er (c : Code)
  deriving DecidableEq, Repr

/-- A line of the service port, as the part understands it (R443, R446). -/
inductive SvcLine where
  | id
  | mode
  | health
  | fs
  | errLast
  | evtLast
  | evtK (k : Nat)
  | i3c
  | boot
  | pwr
  | temp
  | calStat
  | rgn (n : Fin 64)
  | rgnAll
  | img
  | swap
  | rhx
  | mesh
  | meshTime
  | wdt
  | rd (addr : Addr) (peek : Bool)
  | wr (addr : Addr) (v : Word)
  | spRd (off : Fin 2097152)
  | spWr (off : Fin 2097152) (v : Word)
  | pin (pin : Fin 720)
  | pinHigh (pin : Fin 720)
  | pinLow (pin : Fin 720)
  | pinZ (pin : Fin 720)
  | pinSquare (pin : Fin 720)
  | pinRelease (pin : Fin 720)
  | auth
  | authResponse (r : List (BitVec 32))
  | logout
  | service (pinHigh : Bool)
  | serviceExit
  | wake
  | reboot (toService nsafe : Bool)
  | baud (n : Nat)
  | invalidLine (reason : BitVec 4)
  | testFlash (bank : Fin 16)
  | testMeshLoop (p : Fin 8)
  | testMesh (p : Fin 8)
  | march (bank : Fin 16) (ss preserve repair : Bool)
  | testEngine
  | testCal
  | testUart (k : Fin 2)
  | testSpi (k : Fin 2)
  | testI2c (k : Fin 2)
  | testTmr (k : Fin 16)
  | testWdt
  | testClk
  deriving DecidableEq, Repr

/-- A self-test under way: id and argument of R453. -/
structure TestRun where
  id : BitVec 8
  arg : BitVec 8
  deriving DecidableEq, Repr

/-- The service port (R441 to R458). -/
structure Svc where
  reply : Reply := .none
  /-- Replies sent in all. -/
  replies : Nat := 0
  /-- The last reply was followed by the prompt (R443). -/
  prompt : Bool := false
  test : Option TestRun := none
  /-- The last self-test failed and HEALTH shows 7 (R452). -/
  testFailed : Bool := false
  /-- Lines that wait while a self-test runs or RETAIN entry holds a SERVICE command, oldest first (R444). -/
  waiting : List SvcLine := []
  deriving DecidableEq, Repr

/-- The state of the part. -/
structure State where
  /-- Commands waiting, first in first out: the model's own field. -/
  pending : List Instr := []
  mode : Mode := .inert
  /-- Every stored register field, by word address; an unlisted register holds its reset value. -/
  regs : Store Word := []
  /-- State that a held function returns to, by function number (R46). -/
  fnHeld : Store (BitVec 3) := []
  boot : Boot := {}
  gov : Gov := {}
  hif : Hif := {}
  evt : Evt := {}
  resp : Resp := {}
  rgn : Store Region := []
  fab : Fabric := {}
  ld : Loader := {}
  sec : Sec := {}
  swap : Swap := {}
  cal : Cal := {}
  eng : Engine := {}
  mesh : Mesh := {}
  core : Core := {}
  scr : Scr := {}
  flash : Flash := {}
  pin : Store Pin := []
  dbg : Debug := {}
  wdt : Wdt := {}
  svc : Svc := {}
  /-- How many free values have been drawn: the model's own field. -/
  free : Nat := 0
  deriving DecidableEq, Repr

/-- The part right after power-on reset has been released, before POWER_GOOD (R81). -/
def State.reset : State := {}

end Sys2Proof.Machine
end

