-- ==== Sys2Proof/Machine/Ops.lean ====
section
/-! DEFINITION. The shared operations over registers and memories: fields, counters, free values, the event unit (R53 to
R57), the scratchpad's raw words, governor requests (R99), the function lifecycle (R44 to R48), claims (R49 to R51). -/

namespace Sys2Proof.Machine

/-! ### Fields of words -/

/-- Bits `hi` to `lo` of a value, as a number. -/
def fld {n : Nat} (w : BitVec n) (hi lo : Nat) : Nat := (w.toNat >>> lo) % 2 ^ (hi + 1 - lo)

/-- The mask of bits `hi` to `lo`. -/
def mskN (hi lo : Nat) : Nat := (2 ^ (hi + 1 - lo) - 1) <<< lo

/-- The word with bits `hi` to `lo` replaced by `v`. -/
def setFld (w : Word) (hi lo v : Nat) : Word :=
  BitVec.ofNat 36 ((w.toNat &&& ((2 ^ 36 - 1) ^^^ mskN hi lo)) ||| ((v <<< lo) &&& mskN hi lo))

/-- Bit `i` of a number, 0 or 1. -/
def bitN (n i : Nat) : Nat := (n >>> i) % 2

/-- Number to word. -/
def wd (n : Nat) : Word := BitVec.ofNat 36 n

/-- A counter's next value, saturating. -/
def satInc (v max : Nat) : Nat := if v < max then v + 1 else max

/-- A field of `b` bits read in two's complement. -/
def sgn (v b : Nat) : Int := if v < 2 ^ (b - 1) then (v : Int) else (v : Int) - (2 ^ b : Nat)

/-- An integer cut to `b` bits. -/
def unsgn (v : Int) (b : Nat) : Nat := (v % ((2 ^ b : Nat) : Int)).toNat

/-- How many bits of a value are 1. -/
def popcount {n : Nat} (w : BitVec n) : Nat := (List.range n).foldl (fun c i => if w.getLsbD i then c + 1 else c) 0

/-! ### Registers -/

def State.reg (s : State) (a : Nat) : Word := Store.get regDefault s.regs a

def State.setReg (s : State) (a : Nat) (v : Word) : State := { s with regs := Store.set regDefault s.regs a v }

def State.getF (s : State) (a hi lo : Nat) : Nat := fld (s.reg a) hi lo

def State.setF (s : State) (a hi lo v : Nat) : State := s.setReg a (setFld (s.reg a) hi lo v)

def State.getB (s : State) (a i : Nat) : Bool := s.getF a i i == 1

def State.setB (s : State) (a i : Nat) (b : Bool) : State := s.setF a i i b.toNat

/-- Count one in a counter field, saturating (the counters of the register tables). -/
def State.count (s : State) (a hi lo : Nat) : State := s.setF a hi lo (satInc (s.getF a hi lo) (2 ^ (hi + 1 - lo) - 1))

/-! ### Free values -/

/-- Draw the next free value's number. -/
def State.draw (s : State) : State := { s with free := s.free + 1 }

/-! ### Banks of like things -/

def State.rg (s : State) (n : Nat) : Region := Store.get (fun _ => {}) s.rgn n

def State.setRg (s : State) (n : Nat) (r : Region) : State := { s with rgn := Store.set (fun _ => {}) s.rgn n r }

def State.pn (s : State) (i : Nat) : Pin := Store.get (fun _ => {}) s.pin i

def State.setPn (s : State) (i : Nat) (p : Pin) : State := { s with pin := Store.set (fun _ => {}) s.pin i p }

/-- Apply an operation for each of a list's members, in order. -/
def forAll {α : Type} (l : List α) (f : α → State → State) (s : State) : State := l.foldl (fun s x => f x s) s

/-! ### Requester IDs (R50) -/

def rqCore : Req := 0x01
def rqI3c : Req := 0x02
def rqSvc : Req := 0x03
def rqDbg : Req := 0x04
def rqMesh : Req := 0x05
def rqEvt : Req := 0x06

/-- The IDs of R50's table. -/
def knownReq (r : Nat) : Bool :=
  (decide (1 ≤ r) && decide (r ≤ 6)) || (decide (0x10 ≤ r) && decide (r ≤ 0x17)) ||
  (decide (0x20 ≤ r) && decide (r ≤ 0x25)) || (decide (0x40 ≤ r) && decide (r ≤ 0x7f))

/-! ### Modes -/

/-- Codes of SYS.MODE.MODE (R57). -/
def Mode.code : Mode → Nat
  | .inert => 0
  | .boot => 1
  | .run => 2
  | .retain => 3
  | .service => 4
  | .failsafe => 5

/-! ### The scratchpad's words -/

/-- The bank of a scratchpad offset (R354). -/
def scrBank (off : Nat) : Nat := off / 131072

/-- An access to a bank under a preserving run makes the Beater yield: it waits for 256 idle cycles (R365). -/
def beaterYield (off : Nat) (s : State) : State :=
  let b := s.scr.beater
  if b.running && !b.destruct && b.active.getLsbD (scrBank off) then
    State.setB { s with scr := { s.scr with beater := { b with waiting := b.waiting ||| (1 <<< scrBank off) } } }
      Reg.scrBeaterStatus 29 true
  else s

/-- Store a word; a reservation on it is lost (R347). -/
def scrSet (off : Nat) (c : Cell) (s : State) : State :=
  { s with scr := { s.scr with mem := Store.set (fun _ => none) s.scr.mem off (some c) },
           core := { s.core with resv := if s.core.resv.map Fin.val = some off then none else s.core.resv } }

/-- Store a whole word with good check bits (R358). -/
def scrPut (off : Nat) (v : Word) (s : State) : State := scrSet off { data := v } (beaterYield off s)

/-! ### The event unit -/

/-- The class digit of a code (R11). -/
def codeClass (c : Code) : Nat := c.toNat >>> 8

/-- The codes that ERR LAST skips (R448). -/
def isProgress (c : Code) : Bool :=
  [0x001, 0x008, 0x009, 0x106, 0x20E, 0x301, 0x303, 0x306, 0x408, 0x601, 0x605, 0x606, 0x609, 0x707, 0x708, 0x70A,
   0x70C, 0x805, 0x905, 0xA01].contains c.toNat || (decide (0x5C0 ≤ c.toNat) && decide (c.toNat ≤ 0x5CF))

/-- Set the pending bit of a core interrupt source (R350). -/
def irqPulse (src : Nat) (s : State) : State := s.setB (Reg.scrIrqPend (src / 32)) (src % 32) true

/-- The event record of R53. -/
def evtRecord (s : State) (code : Code) (src : Req) (detail : Nat) : Quad :=
  ⟨wd (code.toNat <<< 24 ||| src.toNat <<< 16 ||| s.evt.seq.toNat),
   wd (s.evt.time.toNat % 2 ^ 36),
   wd (s.evt.ovf.toNat <<< 35 ||| s.evt.meshTime.toNat <<< 34 ||| s.evt.time.toNat >>> 36),
   wd detail⟩

/-- 1,023 unread records (R55). -/
def ringFull (s : State) : Bool :=
  (s.getF Reg.sysEvtWr 9 0 + 1024 - s.getF Reg.sysEvtRd 9 0) % 1024 == 1023

/-- The ring can be written (R54); a destructive Beater run that holds its bank keeps it from being written (R363). -/
def ringWritable (s : State) : Bool :=
  s.getB Reg.sysEvtCtrl 0 && s.mode != .failsafe && s.mode != .retain && !ringFull s &&
  !(s.scr.beater.destruct && s.scr.beater.active.getLsbD (scrBank (s.reg Reg.sysEvtBase).toNat))

/-- Write a record at EVT_WR, which then advances (R54). -/
def ringWrite (q : Quad) (s : State) : State :=
  let b := (s.reg Reg.sysEvtBase).toNat + 4 * s.getF Reg.sysEvtWr 9 0
  let s := scrPut (b + 3) q.w3 (scrPut (b + 2) q.w2 (scrPut (b + 1) q.w1 (scrPut b q.w0 s)))
  s.setF Reg.sysEvtWr 9 0 (s.getF Reg.sysEvtWr 9 0 + 1)

/-- Write the oldest record of the service buffer to the ring, if it can be written (R55). -/
def drainOne (s : State) : State :=
  match s.evt.buf with
  | [] => s
  | q :: qs => if ringWritable s then ringWrite q { s with evt := { s.evt with buf := qs } } else s

/-- Drain the service buffer as far as the ring can be written. -/
def drainAll (s : State) : State := forAll s.evt.buf (fun _ => drainOne) s

/-- The event reaches EVT_PEND, the IBI queue and the core (R54, R55). -/
def evtDeliver (code : Code) (ix : Nat) (s : State) : State :=
  let c := codeClass code
  let s := s.setB Reg.sysEvtPend c true
  let s := if s.getB Reg.sysEvtIbiMask c && s.hif.intEn then
      (if s.hif.ibiQ.length < 8 then
        { s with hif := { s.hif with ibiQ := s.hif.ibiQ ++ [⟨BitVec.ofNat 4 c, code, BitVec.ofNat 16 ix⟩] } }
      else s.setB Reg.sysHifStatus 3 true)
    else s
  if s.getB Reg.sysEvtIrqMask c then irqPulse (1 + c) s else s

/-- A stored event also becomes the newest record, and ERR LAST's code unless R448 skips it. -/
def evtStored (q : Quad) (code : Code) (s : State) : State :=
  { s with evt := { s.evt with ovf := false, newest := some q, lastErr := if isProgress code then s.evt.lastErr else code } }

/-- Store, buffer or drop an event (R54, R55). -/
def evtStore (code : Code) (src : Req) (detail : Nat) (s : State) : State :=
  let q := evtRecord s code src detail
  let s := { s with evt := { s.evt with seq := s.evt.seq + 1, raised := code } }
  if ringWritable s then
    evtDeliver code (s.getF Reg.sysEvtWr 9 0) (evtStored q code (ringWrite q s))
  else if s.evt.buf.length < 16 then
    evtDeliver code 0xFFFF (evtStored q code { s with evt := { s.evt with buf := s.evt.buf ++ [q] } })
  else
    State.count { s with evt := { s.evt with ovf := true } } Reg.sysEvtStatus 15 0

/-- The LAST_ERR field of the unit whose class the code has (R201, R219, R234). -/
def lastErrField (code : Code) (s : State) : State :=
  if codeClass code = 2 then s.setF Reg.cfgStatus 35 24 code.toNat
  else if codeClass code = 3 then s.setF Reg.cfgSwapStatus 35 24 code.toNat
  else if codeClass code = 4 then s.setF Reg.calStatus 35 24 code.toNat
  else s

/-- Raise an event: records held in the service buffer go to the ring first, as soon as it can be written (R55). -/
def raise (code : Code) (src : Req) (detail : Nat) (s : State) : State :=
  evtStore code src detail (drainAll (lastErrField code s))

/-! ### Governor requests (R99) -/

/-- The order of the kinds among requests of one CK_SVC cycle (R100). -/
def GovKind.rank : GovKind → Nat
  | .exit => 0
  | .entry => 1
  | .chipSwap => 2
  | .regionSwap => 3
  | .regionWake => 4
  | .bootPulse => 5
  | .engineStart => 6
  | .meshPort => 7

/-- `r` goes before `x`: both arrived in one CK_SVC cycle, and R100's order of kinds, regions and ports puts it first. Requests
entered at one SYS.TIME are of one cycle (DESIGN CHOICE: log entry 92). -/
def GovReq.before (r x : GovReq) : Bool :=
  x.came == r.came && (decide (r.kind.rank < x.kind.rank) || (r.kind == x.kind && decide (r.ix < x.ix)))

/-- Arrival order, with the order of R100 within a cycle. -/
def govInsert (r : GovReq) : List GovReq → List GovReq
  | [] => [r]
  | x :: xs => if r.before x then r :: x :: xs else x :: govInsert r xs

/-- Enter a request; each requester holds at most one (R106). -/
def govAsk (k : GovKind) (ix di : Nat) (s : State) : State :=
  if s.gov.queue.any (fun r => decide (r.kind = k) && r.ix == ix) then s
  else { s with gov := { s.gov with queue := govInsert { kind := k, ix := ix, di := di, came := s.evt.time } s.gov.queue } }

/-- A request or a ramp of a kind stands. -/
def govHas (k : GovKind) (s : State) : Bool := (s.gov.queue ++ s.gov.ramps).any (fun r => decide (r.kind = k))

/-- Sum of the region estimates over a set, capped at 200 A, in 0.1 A (R99). -/
def estSum (p : Nat → Bool) (s : State) : Nat :=
  min 2000 ((List.range 64).foldl (fun a n => if p n then a + s.getF (Reg.pwrRgnEst n) 11 0 else a) 0)

/-! ### Functions (R44 to R48) -/

def fnCtrl : Func → Nat
  | .rhx => Reg.rhxCtrl
  | .flc => Reg.flcCtrl
  | .wdt => Reg.wdtCtrl
  | .beater => Reg.scrBeaterCtrl
  | .mesh p => Reg.mshPCtrl p.val
  | .serial k => Reg.scrSerCtrl k.val
  | .tmr k => Reg.scrTmrCtrl k.val

/-- STATUS stands one word above CTRL (R44). -/
def fnStat (f : Func) : Nat := fnCtrl f + 1

/-- A number for each function. -/
def fnIx : Func → Nat
  | .rhx => 0
  | .flc => 1
  | .wdt => 2
  | .beater => 3
  | .mesh p => 4 + p.val
  | .serial k => 12 + k.val
  | .tmr k => 18 + k.val

/-- STATE codes of R45. -/
def fnOff : Nat := 0
def fnStarting : Nat := 1
def fnOn : Nat := 2
def fnStopping : Nat := 3
def fnFault : Nat := 4
def fnHeld : Nat := 5

def State.fn (s : State) (f : Func) : Nat := s.getF (fnStat f) 2 0

def State.setFn (s : State) (f : Func) (st : Nat) : State := s.setF (fnStat f) 2 0 st

def State.fnEn (s : State) (f : Func) : Bool := s.getB (fnCtrl f) 0

/-- PEND: ENABLE differs from the direction of the transition under way (R45). -/
def fnPend (s : State) (f : Func) : Bool :=
  (s.fn f == fnStarting && !s.fnEn f) || (s.fn f == fnStopping && s.fnEn f)

/-- A fault named in the function's chapter: STARTING or ON goes to FAULT (R46). -/
def fnFaultNow (f : Func) (s : State) : State :=
  if s.fn f = fnStarting ∨ s.fn f = fnOn then s.setFn f fnFault else s

/-- The functions that modes hold (R31): the Rhorax engine and the mesh ports. -/
def heldFuncs : List Func := .rhx :: (List.finRange 8).map Func.mesh

/-- A mode holds a function that is not OFF (R46). -/
def fnHold (m : Mode) (f : Func) (s : State) : State :=
  if s.fn f = fnOff then s
  else
    let s := if s.fn f = fnHeld then s
      else { s with fnHeld := Store.set (fun _ => 0) s.fnHeld (fnIx f) (BitVec.ofNat 3 (s.fn f)) }
    (s.setFn f fnHeld).setF (fnStat f) 10 8 m.code

/-- The watchdog's count from TIMEOUT, in CK_SVC cycles (R434, R435). -/
def wdtLoad (s : State) : State :=
  { s with wdt := { s.wdt with count := 2500 * max 1 (s.getF Reg.wdtCfg 31 16), since := 0 } }

/-- A start: one that waits for the governor enters its request (R99, R267, R294); the watchdog's loads the count (R434). -/
def fnStartHard (f : Func) (s : State) : State :=
  match f with
  | .rhx => govAsk .engineStart 0 250 (s.setFn f fnStarting)
  | .mesh p => govAsk .meshPort p.val 5 (s.setFn f fnStarting)
  | .wdt => wdtLoad (s.setFn f fnStarting)
  | _ => s.setFn f fnStarting

/-- The mode releases a function: the state before HELD, then as ENABLE directs (R46). -/
def fnRelease (f : Func) (s : State) : State :=
  let s := if s.fn f = fnHeld then
      State.setF (State.setFn { s with fnHeld := Store.set (fun _ => 0) s.fnHeld (fnIx f) 0 } f
        (Store.get (fun _ => 0) s.fnHeld (fnIx f)).toNat) (fnStat f) 10 8 0
    else s
  if s.fn f = fnOff ∧ s.fnEn f then fnStartHard f s
  else if (s.fn f = fnOn ∨ s.fn f = fnFault) ∧ ¬ s.fnEn f then s.setFn f fnStopping
  else s

/-! ### Claims (R49 to R51) -/

/-- The kinds of E901 (R418): 1 pin, 2 timer channel, 3 scratchpad bank, 4 shared RAM36 FIFO, 5 transfer buffer. -/
structure ClaimRes where
  kind : Nat
  index : Nat
  deriving DecidableEq, Repr

/-- The refused claim or release: CONFLICT, REFUSED_ID and E901 (R51, R418). -/
def claimRefuse (a : Nat) (res : ClaimRes) (who : Req) (s : State) : State :=
  raise 0x901 who (res.kind <<< 32 ||| s.getF a 7 0 <<< 24 ||| who.toNat <<< 16 ||| res.index)
    ((s.setB a 8 true).setF a 23 16 who.toNat)

/-- Grant a claim of the ID `id`, or refuse it; the claim is written by `who` (R50, R51). -/
def claimGrant (a : Nat) (res : ClaimRes) (who : Req) (id : Nat) (s : State) : State :=
  if s.getF a 7 0 = 0 ∧ knownReq id then s.setF a 7 0 id else claimRefuse a res who s

/-- A release that names `id` (R51). -/
def claimRelease (a : Nat) (res : ClaimRes) (who : Req) (id : Nat) (s : State) : State :=
  if id = s.getF a 7 0 then s.setF a 7 0 0 else claimRefuse a res who s

/-- A write of a CLAIM register: CONFLICT's W1C, then the claim, the release, or neither (R51). -/
def claimWrite (a : Nat) (res : ClaimRes) (who : Req) (v : Word) (s : State) : State :=
  let s := if v.getLsbD 8 then s.setB a 8 false else s
  if v.getLsbD 35 then claimRelease a res who (fld v 7 0) s
  else if fld v 7 0 = 0 then s
  else claimGrant a res who (fld v 7 0) s

end Sys2Proof.Machine
end

