-- ==== Sys2Proof/Machine/MeshNet.lean ====
section
/-! DEFINITION. What every unit that sends on the mesh shares: the ports' queues and credits (R301, R302, R320), the router
(R318 to R322), and the end of a link (R313). -/

namespace Sys2Proof.Machine

/-! ### Packets (R318, R319) -/

def vcReq : Nat := 0
def vcRsp : Nat := 1
def vcCtl : Nat := 2
def vcStream : Nat := 3

/-- The VC that a service uses, where the table of R319 has the service. -/
def svcVc (svc : Nat) : Option Nat :=
  if svc = 1 ∨ svc = 3 then some vcReq
  else if svc = 2 ∨ svc = 4 ∨ svc = 6 ∨ svc = 7 ∨ svc = 8 then some vcRsp
  else if svc = 5 ∨ svc = 9 then some vcStream
  else if (10 ≤ svc ∧ svc ≤ 14) ∨ (16 ≤ svc ∧ svc ≤ 26) then some vcCtl
  else none

/-- The packet header word (R318). -/
def pktHeader (k : Packet) : Word :=
  wd (k.dest.toNat <<< 26 ||| k.src.toNat <<< 16 ||| k.svc.toNat <<< 11 ||| k.route.toNat <<< 9 ||| k.down.toNat <<< 8 |||
    k.hops.toNat <<< 1)

/-- Credit units that a packet needs (R301). -/
def pktUnits (k : Packet) : Nat := (k.payload.length + 6) / 4

/-- Credit units of a VC's receive buffer (R301). -/
def vcUnits (vc : Nat) : Nat := if vc = 2 then 64 else if vc = 3 then 512 else 256

/-! ### Node and ports -/

def State.port (s : State) (p : Nat) : Port := Store.get (fun _ => {}) s.mesh.ports p

def State.setPort (s : State) (p : Nat) (q : Port) : State :=
  { s with mesh := { s.mesh with ports := Store.set (fun _ => {}) s.mesh.ports p q } }

/-- LINK of a port (R297). -/
def State.link (s : State) (p : Nat) : Nat := s.getF (Reg.mshPStatus p) 21 19

def State.setLink (s : State) (p : Nat) (l : Nat) : State := s.setF (Reg.mshPStatus p) 21 19 l

def linkActive : Nat := 6

/-- Some link is ACTIVE. -/
def anyLink (s : State) : Bool := (List.range 8).any (fun p => s.link p == linkActive)

/-- MSTATE of MSH.NODE_STATUS (R340): a node whose every link is down is alone, or unaddressed where it holds no address (R310). -/
def State.mstate (s : State) : Nat :=
  let m := s.getF Reg.mshNodeStatus 35 33
  if (m = 1 ∨ m = 2) ∧ !anyLink s then (if s.getB Reg.mshNodeStatus 32 then 4 else 0) else m

/-- ADDR_VALID and ADDR of MSH.NODE_STATUS (R340). -/
def State.addrValid (s : State) : Bool := s.getB Reg.mshNodeStatus 32

def State.addr (s : State) : Nat := s.getF Reg.mshNodeStatus 31 22

/-- The packet can start: units for its VC, and room in the replay buffer (R301, R302). -/
def portCan (q : Port) (k : Packet) : Bool :=
  decide ((Store.get (fun _ => 0) q.sent k.vc.toNat - Store.get (fun _ => 0) q.freedFar k.vc.toNat).toNat + pktUnits k ≤
    vcUnits k.vc.toNat) &&
  decide (q.replay.length < 2047) &&
  decide ((q.replay.map (fun r => r.payload.length + 3)).sum + k.payload.length + 3 ≤ 8192)

/-- The oldest queued packet of a VC that can start. -/
def portPickVc (q : Port) (vc : Nat) : Option Packet :=
  match q.txq.find? (fun k => k.vc.toNat == vc) with
  | some k => if portCan q k then some k else none
  | none => none

/-- Output arbitration: CTL, then RSP, then REQ and STREAM in turn (R320). -/
def portPick (q : Port) : Option Packet :=
  match portPickVc q vcCtl with
  | some k => some k
  | none =>
    match portPickVc q vcRsp with
    | some k => some k
    | none =>
      match portPickVc q (if q.altStream then vcStream else vcReq) with
      | some k => some k
      | none => portPickVc q (if q.altStream then vcReq else vcStream)

/-! ### Link words (R300) -/

/-- CRC-8 of bits 35:8 of a link word: polynomial x^8 + x^2 + x + 1, initial value 0xFF, most significant bit first. -/
def linkCrc8 (w : Word) : Nat :=
  (List.range 28).foldl (fun c i =>
    let top := (c >>> 7) % 2 != (w.getLsbD (35 - i)).toNat
    (c * 2) % 256 ^^^ (if top then 7 else 0)) 255

/-- A link word that carries its CRC-8 in bits 7:0. -/
def withCrc8 (v : Nat) : Word := wd (v ||| linkCrc8 (wd v))

def ackOf (seq : BitVec 12) (nak : Bool) : Word := withCrc8 (2 <<< 32 ||| seq.toNat <<< 20 ||| nak.toNat <<< 19)

def creditOf (vc : Nat) (count : BitVec 12) : Word := withCrc8 (3 <<< 32 ||| vc <<< 30 ||| count.toNat <<< 18)

/-- The CRC of the words of a packet, each fed as five bytes (R185). -/
def packetCrc (ws : List Word) : BitVec 32 := Crypto.crc32c (ws.flatMap (fun w => Crypto.beBytes 5 w.toNat))

/-- L0, header, payload and CRC word of a packet that takes a SEQ. -/
def packetWords (seq : BitVec 12) (k : Packet) : List Word :=
  let ws := wd (1 <<< 32 ||| k.vc.toNat <<< 30 ||| seq.toNat <<< 18 ||| k.payload.length <<< 11) :: pktHeader k :: k.payload
  ws ++ [wd (packetCrc ws).toNat]

/-- Remove the first packet equal to `k`. -/
def dropPacket (k : Packet) (l : List Packet) : List Packet := l.erase k

/-- Start one packet on the wire: it takes the next SEQ and stays in the replay buffer (R302). -/
def portStart1 (q : Port) : Port :=
  match portPick q with
  | none => q
  | some k =>
    { q with txq := dropPacket k q.txq, replay := q.replay ++ [k], txSeq := q.txSeq + 1, txWords := packetWords q.txSeq k,
             sent := Store.upd (fun _ => 0) q.sent k.vc.toNat (fun c => c + BitVec.ofNat 12 (pktUnits k)),
             altStream := if k.vc.toNat = vcReq then true else if k.vc.toNat = vcStream then false else q.altStream }

/-- Start every packet that can start. -/
def portFlush (q : Port) : Port := (List.range q.txq.length).foldl (fun q _ => portStart1 q) q

/-- Send a packet on a port whose link is ACTIVE; on any other it is lost. -/
def portSend (p : Nat) (k : Packet) (s : State) : State :=
  if s.link p = linkActive then s.setPort p (portFlush { s.port p with txq := (s.port p).txq ++ [k] }) else s

/-! ### The router (R321, R322) -/

/-- A packet reaches the local unit named by SVC. -/
def meshDeliver (k : Packet) (s : State) : State := { s with mesh := { s.mesh with inbox := s.mesh.inbox ++ [k] } }

/-- The command of a service takes its packet from those delivered to the local units. -/
def inboxTake (svc : Nat) (s : State) : State :=
  match s.mesh.inbox.find? (fun k => k.svc.toNat == svc) with
  | some k => { s with mesh := { s.mesh with inbox := s.mesh.inbox.erase k } }
  | none => s

/-- A dropped packet counts in MSH.CNT_DROP (R319, R322). -/
def meshDrop (s : State) : State := s.count Reg.mshCntDrop 35 0

/-- The flood key of a packet (R321). -/
def floodKey (k : Packet) : BitVec 10 × BitVec 5 × BitVec 8 :=
  (k.src, k.svc, BitVec.ofNat 8 (k.payload.headD 0).toNat)

/-- The key was seen in the last millisecond (R321). -/
def floodSeen (k : Packet) (s : State) : Bool :=
  s.mesh.seen.any (fun e => (e.1, e.2.1, e.2.2.1) == floodKey k && decide ((s.evt.time - e.2.2.2).toNat < 1000000))

/-- Ports on which a flood goes out: ACTIVE, not the arrival port, not to a refused node (R321, R309). -/
def floodPorts (src : Option Nat) (s : State) : List Nat :=
  (List.range 8).filter (fun p => s.link p == linkActive && src != some p && !(s.port p).refused)

def meshFlood (src : Option Nat) (k : Packet) (s : State) : State :=
  if floodSeen k s then s
  else
    let key := floodKey k
    let live := s.mesh.seen.filter (fun e => decide ((s.evt.time - e.2.2.2).toNat < 1000000))
    let s := { s with mesh := { s.mesh with seen := (key.1, key.2.1, key.2.2, s.evt.time) :: live } }
    forAll (floodPorts src s) (fun p => portSend p k) (meshDeliver k s)

/-- Unicast by the next-hop table (R322, R315). -/
def meshUnicast (k : Packet) (s : State) : State :=
  if s.addrValid ∧ k.dest.toNat = s.addr then meshDeliver k s
  else
    let a := Reg.mshNht k.dest.toNat
    let det := fun (c : Nat) => c <<< 12 ||| k.vc.toNat <<< 10 ||| k.dest.toNat
    if s.getF a 35 34 ≠ 2 then raise 0x60C 0 (det 1) (meshDrop s)
    else if s.getB a 30 ∧ k.down then raise 0x60C 0 (det 2) (meshDrop s)
    else portSend (s.getF a 33 31)
      { k with down := k.down || !s.getB a 30, hops := if k.hops.toNat < 127 then k.hops + 1 else k.hops } s

/-- What the router does with a packet; `src` is the arrival port, none for a local unit's packet (R319, R322). -/
def meshRoute (src : Option Nat) (k : Packet) (s : State) : State :=
  if svcVc k.svc.toNat ≠ some k.vc.toNat ∨ k.route.toNat = 3 then meshDrop s
  else if s.mstate ≠ 2 ∧ k.vc.toNat ≠ vcCtl then meshDrop s
  else if k.route.toNat = 1 then meshDeliver k s
  else if k.route.toNat = 2 then meshFlood src k s
  else meshUnicast k s

/-- A packet that a local unit sends. -/
def meshPkt (dest svc vc route : Nat) (payload : List Word) (s : State) : Packet :=
  { dest := BitVec.ofNat 10 dest, src := if s.addrValid then BitVec.ofNat 10 s.addr else 0, svc := BitVec.ofNat 5 svc,
    vc := BitVec.ofNat 2 vc, route := BitVec.ofNat 2 route, down := false, hops := 0, payload := payload }

/-- Unicast send of a local unit. -/
def meshSend (dest svc vc : Nat) (payload : List Word) (s : State) : State :=
  meshRoute none (meshPkt dest svc vc 0 payload s) s

/-- Link-local send on one port. -/
def meshSendLink (p svc : Nat) (payload : List Word) (s : State) : State :=
  portSend p (meshPkt 0 svc vcCtl 1 payload s) s

/-! ### The end of a link (R313) -/

/-- The port drops its buffers and its neighbour; E603 if the link was ACTIVE. `l` is the LINK state it goes to. -/
def linkEnd (p cause l : Nat) (s : State) : State :=
  let nbr := if s.getB (Reg.mshPStatus p) 25 then s.getF (Reg.mshPStatus p) 35 26 else 0
  let was := s.link p
  let s := s.setReg (Reg.mshPStatus p) (setFld (setFld (s.reg (Reg.mshPStatus p)) 35 22 0) 21 19 l)
  let s := s.setPort p {}
  if was = linkActive then raise 0x603 0 (nbr <<< 7 ||| cause <<< 4 ||| p) s else s

/-- A result code for the node whose push this part's loader took (R330). -/
def pushResult (code : Code) (s : State) : State :=
  meshSend s.mesh.pushFrom.toNat 7 vcRsp [wd code.toNat] s

end Sys2Proof.Machine
end

