-- ==== Sys2Proof/Machine/Flags.lean ====
section
/-! DEFINITION. The levels and flags that the part computes from its state: HEALTH (R456), DONE (R73), nIRQ (R54),
the levels of the interrupt sources (R349, R353), MEIP (R350). -/

namespace Sys2Proof.Machine

/-- Any region is quarantined. -/
def anyQuar (s : State) : Bool := (List.range 64).any (fun n => s.getB (Reg.rgnStatus n) 0)

/-- No valid image (R68). -/
def noImage (s : State) : Bool := s.getB Reg.pwrBootStatus 7

/-- The code that HEALTH drives (R456, R61, R68, R232, R452). -/
def healthCode (s : State) : Nat :=
  match s.mode with
  | .inert => if noImage s then 15 else 0
  | .boot => 1
  | .run => if s.getB Reg.calStatus 5 || anyQuar s then 3 else 2
  | .retain => 4
  | .service => if noImage s then 15 else if s.svc.test.isSome then 6 else if s.svc.testFailed then 7 else 5
  | .failsafe => s.boot.fsHealth.toNat

/-- Root-clocked functions stop while the root is absent in SERVICE (R93). -/
def rootStopped (s : State) : Bool := s.mode == .service && !s.getB Reg.clkRoot 1

/-- DONE is released (R73). -/
def doneReleased (s : State) : Bool := s.mode == .run || s.mode == .retain

/-- nIRQ is driven low (R54). -/
def nirqLow (s : State) : Bool := (s.reg Reg.sysEvtPend &&& s.reg Reg.sysNirqMask) != 0

/-- Classes with unread events, capped at 15 (R34 GETSTATUS): the EVT_PEND bits. -/
def pendClasses (s : State) : Nat := min 15 (popcount (s.reg Reg.sysEvtPend))

/-! ### Interrupt levels -/

/-- Entries of a UART, SPI or I2C controller's buffers. -/
def State.ser (s : State) (k : Nat) : Serial := Store.get (fun _ => {}) s.scr.serial k

def State.setSer (s : State) (k : Nat) (v : Serial) : State :=
  { s with scr := { s.scr with serial := Store.set (fun _ => {}) s.scr.serial k v } }

/-- An RX entry of controller `k` carries an error flag: PARITY_ERR or FRAME_ERR of a UART, NACKED of an I2C (R353, R368). -/
def rxErr (k : Nat) (e : Word) : Bool :=
  if k < 2 then e.getLsbD 8 || e.getLsbD 9 || e.getLsbD 10 else if 4 ≤ k then e.getLsbD 8 else false

/-- The level of a controller's source (R353). -/
def serLevel (s : State) (k : Nat) : Bool :=
  let c := Reg.scrSerCtrl k
  decide (s.getF c 21 16 ≤ (s.ser k).rx.length) || decide (s.getF c 27 22 ≤ 64 - (s.ser k).tx.length) ||
  (s.ser k).rx.any (rxErr k)

/-- Responses that wait for a requester of R244 (R245, R289): the command window is number 9. -/
def State.rspQ (s : State) (rq : Nat) : List Quad := Store.get (fun _ => []) s.eng.rspQ rq

/-- A level source is pending while its level is high (R349). -/
def irqLevel (s : State) (src : Nat) : Bool :=
  if src = 17 then !(s.rspQ 9).isEmpty
  else if 20 ≤ src ∧ src ≤ 25 then serLevel s (src - 20)
  else if 64 ≤ src then s.scr.fabricIrq.getLsbD (src - 64)
  else false

/-- A level source of R349. -/
def irqIsLevel (src : Nat) : Bool := src == 17 || (decide (20 ≤ src) && decide (src ≤ 25)) || decide (64 ≤ src)

def irqPending (s : State) (src : Nat) : Bool :=
  if irqIsLevel src then irqLevel s src else s.getB (Reg.scrIrqPend (src / 32)) (src % 32)

/-- The source is offered (R350). -/
def irqOffered (s : State) (src : Nat) : Bool :=
  irqPending s src && s.getB (Reg.scrIrqEn (src / 32)) (src % 32) && !s.scr.inService.contains src &&
  decide (s.getF Reg.scrIrqThresh 2 0 < s.getF (Reg.scrIrqPrio src) 2 0)

/-- The offered source of highest priority, the lowest-numbered among equals; 0 when none is (R350). -/
def irqBest (s : State) : Nat :=
  (List.range 128).foldl (fun b n =>
    if irqOffered s n && (b == 0 || decide (s.getF (Reg.scrIrqPrio b) 2 0 < s.getF (Reg.scrIrqPrio n) 2 0)) then n else b) 0

/-- mip.MEIP (R350). -/
def meip (s : State) : Bool := irqBest s != 0

end Sys2Proof.Machine
end

