-- ==== Sys2Proof/Machine/PinDrive.lean ====
section
/-! DEFINITION. What drives a pin (R409), its level (R404, R407), and what a change of rows leaves behind (R410). -/

namespace Sys2Proof.Machine

/-- What the part does to a pad: drives a level, drives a signal that moves on its own, or leaves it with a pull. -/
inductive PadDrive where
  | out (b : Bool)
  | wave
  | z (pull : Nat)
  deriving DecidableEq, Repr

/-- The complement on the N side of a pair. -/
def PadDrive.compl : PadDrive → PadDrive
  | .out b => .out (!b)
  | d => d

/-- The level driven, if any: what hold last keeps (R409, R412). -/
def PadDrive.level : PadDrive → Option Bool
  | .out b => some b
  | _ => none

/-! ### Fields -/

/-- STD of a pin (R399). -/
def pinStd (s : State) (i : Nat) : Nat := s.getF (Reg.pinCfg i) 21 19

/-- The odd pin of a pair whose even pin has a differential standard. -/
def pinOddDiff (s : State) (i : Nat) : Bool := i % 2 == 1 && pinStd s (i - 1) != 0

/-- The pin whose settings act on pin `i` (R399). -/
def pinBase (s : State) (i : Nat) : Nat := if pinOddDiff s i then i - 1 else i

/-- Fields FUNC, PARK, TPARK, SLEEP_LEVEL, SLEEP_PULL, DRIVE, SLEW and PULL. -/
def pinSharedMask : Nat := mskN 35 22 ||| mskN 18 14

/-- PIN.CFGi as it reads: an odd pin of a differential pair shows the even pin's shared fields (R399). -/
def pinCfgRead (s : State) (i : Nat) : Word :=
  if pinOddDiff s i then
    wd ((s.reg (Reg.pinCfg i)).toNat &&& ((2 ^ 36 - 1) ^^^ pinSharedMask) ||| (s.reg (Reg.pinCfg (i - 1))).toNat &&& pinSharedMask)
  else s.reg (Reg.pinCfg i)

/-- OWNER of a pin; an odd pin of a differential pair mirrors the even one (R399). -/
def pinOwner (s : State) (i : Nat) : Nat := s.getF (Reg.pinClaim (pinBase s i)) 7 0

/-- Voltage code of a pin's bank: three bits for each bank in PWR.BANK_V0 and BANK_V1 (R94, R106). -/
def bankCode (s : State) (bb : Nat) : Nat :=
  if bb < 12 then s.getF Reg.pwrBankV0 (3 * bb + 2) (3 * bb) else s.getF Reg.pwrBankV1 (3 * (bb - 12) + 2) (3 * (bb - 12))

/-- Standards allowed for output and for input at a bank's voltage code: 1 1.2 V, 2 1.5 V, 3 1.8 V, 4 2.5 V, 5 3.3 V (R399, R106). -/
def stdOut (std code : Nat) : Bool :=
  match std with
  | 0 => true
  | 1 => code == 3 || code == 4
  | 2 => code == 1 || code == 3
  | 3 => code == 3
  | _ => false

def stdIn (std code : Nat) : Bool :=
  match std with
  | 0 => true
  | 1 => code == 3 || code == 4 || code == 5
  | 2 => code == 1 || code == 3 || code == 4 || code == 5
  | 3 => code == 2 || code == 3 || code == 4 || code == 5
  | _ => false

/-- Input-only: the output driver stays off in the pin's standard (R399). -/
def pinInOnly (s : State) (i : Nat) : Bool := !stdOut (pinStd s (pinBase s i)) (bankCode s (i / 48))

/-! ### Safe, sleep and function drive -/

def safeEntry (s : State) (i : Nat) : Nat := (Store.get (fun _ => 0) s.boot.safeMap i).toNat

def levelDrive (lvl pull : Nat) : PadDrive := if lvl = 0 then .out false else if lvl = 1 then .out true else .z pull

/-- The SAFE level of a pin (R74, R75). -/
def safeDrive (s : State) (i : Nat) : PadDrive :=
  if i % 2 = 1 ∧ bitN (safeEntry s (i - 1)) 2 = 1 then
    (levelDrive (safeEntry s (i - 1) / 128 % 4) (safeEntry s i / 32 % 4)).compl
  else levelDrive (safeEntry s i / 128 % 4) (safeEntry s i / 32 % 4)

/-- PULL of a pin. -/
def pinPull (s : State) (i : Nat) : Nat := s.getF (Reg.pinCfg (pinBase s i)) 15 14

/-- SLEEP_LEVEL and SLEEP_PULL in force (R413). -/
def pinSleep (s : State) (i : Nat) : Nat :=
  match (s.pn i).sleepHeld with
  | some v => v.toNat
  | none => s.getF (Reg.pinCfg i) 25 22

/-- The SLEEP state (R409). -/
def sleepDrive (s : State) (i : Nat) : PadDrive :=
  let v := pinSleep s i
  if v / 4 = 3 then
    match (s.pn i).atRetain with
    | some b => .out b
    | none => .z (pinPull s i)
  else levelDrive (v / 4) (v % 4)

/-- The peripheral at a pin of bank B14, and its signal there (R408): 0 the first pin of a controller. -/
def periphOf (i : Nat) : Option (Func × Nat) :=
  if i < 672 then none
  else
    let n := i - 672
    if n < 2 then some (.serial 0, n)
    else if n < 4 then some (.serial 1, n - 2)
    else if n < 11 then some (.serial 2, n - 4)
    else if n < 18 then some (.serial 3, n - 11)
    else if n < 20 then some (.serial 4, n - 18)
    else if n < 22 then some (.serial 5, n - 20)
    else if h : n - 22 < 16 then some (.tmr ⟨n - 22, h⟩, 0)
    else none

def State.tmrSt (s : State) (k : Nat) : Timer := Store.get (fun _ => {}) s.scr.tmr k

/-- What a peripheral drives on its pin between transfers; during one the pin carries the transfer (R408, R352). -/
def periphDrive (s : State) (i : Nat) : PadDrive :=
  match periphOf i with
  | some (.serial k, j) =>
    let busy := !(s.ser k.val).tx.isEmpty
    if k.val < 2 then (if j = 1 then .z (pinPull s i) else if busy then .wave else .out true)
    else if k.val < 4 then
      (if j = 2 then .z (pinPull s i) else if busy then .wave else if 3 ≤ j then .out true
       else if j = 0 then .out (s.getB (Reg.scrSpiCfg (k.val - 2)) 17) else .wave)
    else (if busy then .wave else .z (pinPull s i))
  | some (.tmr k, _) =>
    if s.getF (Reg.scrTmrCfg k.val) 1 0 = 3 then .z (pinPull s i) else .out (s.tmrSt k.val).pinLevel
  | _ => .z (pinPull s i)

/-- What the pin's connected function drives (R407, R451). -/
def funcDrive (s : State) (i : Nat) : PadDrive :=
  let p := s.pn i
  let z := PadDrive.z (pinPull s i)
  match p.conn.toNat with
  | 0 => if pinInOnly s i then z else if s.getB (Reg.pinGpio i) 1 then .out (s.getB (Reg.pinGpio i) 0) else z
  | 1 =>
    if pinInOnly s i then z
    else if s.getB (Reg.pinCfg i) 12 then (if p.img3.getLsbD 4 then z else .wave)
    else if !p.fabOe then z
    else if fld p.img2 7 6 = 2 ∧ p.fabOut ≠ p.fabOut1 then .wave
    else .out p.fabOut
  | 2 => periphDrive s i
  | _ =>
    match p.testDrive.toNat with
    | 0 => z
    | 1 => .out true
    | 2 => .out false
    | _ => .out ((s.evt.time - p.testAt).toNat / 500000000 % 2 == 0)

/-- What the pin has during TPARK (R412). -/
def parkDrive (s : State) (i : Nat) : PadDrive :=
  let p := s.pn i
  match p.parkNow.toNat with
  | 1 => match p.atSwitch with | some b => .out b | none => .z (pinPull s i)
  | 2 => .z (pinPull s i)
  | _ => safeDrive s i

/-! ### The order of R409 -/

/-- A boundary instruction that controls pins is in force (R421, R423): EXTEST, CLAMP, HIGHZ. -/
def boundaryHeld (s : State) : Bool := s.dbg.ir == 0x00 || s.dbg.ir == 0x03 || s.dbg.ir == 0x04

def boundaryDrive (s : State) (i : Nat) : PadDrive :=
  if s.dbg.ir = 0x04 then .z (pinPull s i)
  else if pinInOnly s i then .z (pinPull s i)
  else if s.dbg.boundary.getLsbD (3 * i + 2) then .out (s.dbg.boundary.getLsbD (3 * i + 1)) else .z (pinPull s i)

/-- Step 6c has enabled the pin's bank (R69). -/
def bankOn (s : State) (bb : Nat) : Bool := ((s.boot.bankOrder.take s.boot.banksOn).map Fin.val).contains bb

/-- The owning region is quarantined or in region reset (R409 row 8). -/
def ownerDown (s : State) (i : Nat) : Bool :=
  let o := pinOwner s i
  decide (0x40 ≤ o) && decide (o < 0x80) &&
  (s.getB (Reg.rgnStatus (o - 0x40)) 0 || s.getB (Reg.rgnStatus (o - 0x40)) 4)

/-- A pin of the controller under TEST I2C: the safe levels of row 6 yield to it (R453). -/
def i2cTested (s : State) (i : Nat) : Bool :=
  match s.svc.test, periphOf i with
  | some t, some (.serial k, _) => t.id == 8 && k.val == 4 + t.arg.toNat % 2
  | _, _ => false

/-- The first row of R409 whose condition holds; 12: a pin under TEST I2C. -/
def pinRow (s : State) (i : Nat) : Nat :=
  let b := pinBase s i
  let p := s.pn b
  if !s.boot.safeLoaded || noImage s then 1
  else if s.mode = .failsafe then 2
  else if boundaryHeld s then 3
  else if s.mode = .inert ∨ (s.mode = .boot ∧ !bankOn s (i / 48)) then 4
  else if s.mode = .service ∧ p.conn = 3 ∧ p.stage ≠ .parked then 5
  else if s.mode = .service then (if i2cTested s i then 12 else 6)
  else if s.mode = .retain ∧ s.getB Reg.pwrRetainCfg 6 ∧ s.getF Reg.pwrRetainCfg 35 26 = i then 7
  else if ownerDown s i then 8
  else if s.mode = .retain then 9
  else if p.stage = .parked then 10
  else 11

/-- What drives a pin (R409). -/
def pinDrive (s : State) (i : Nat) : PadDrive :=
  let b := pinBase s i
  let side := fun (d : PadDrive) => if b = i then d else d.compl
  let r := pinRow s i
  if r = 1 then .z 1
  else if r ≠ 2 ∧ (s.pn b).barred then safeDrive s i
  else match r with
    | 2 | 4 | 6 | 8 => safeDrive s i
    | 3 => boundaryDrive s i
    | 12 => periphDrive s i
    | 7 => .out (s.boot.retain == .idle)
    | 9 => side (sleepDrive s b)
    | 10 => if (s.pn b).parkNow.toNat = 1 ∨ (s.pn b).parkNow.toNat = 2 then side (parkDrive s b) else safeDrive s i
    | _ => side (funcDrive s b)

/-- The synchronised level of a pad (R404, R407): of a pad that nothing drives, or that carries a wave, a free bit. -/
def pinLevel (s : State) (i : Nat) : Bool :=
  match pinDrive s i with
  | .out b => b
  | .wave => Config.freePad s.free i
  | .z pull =>
    match (s.pn i).pad with
    | some b => b
    | none =>
      if pull = 2 then true else if pull = 1 then false
      else if pull = 3 then (match (s.pn i).keeper with | some b => b | none => Config.freePad s.free i)
      else Config.freePad s.free i

/-- A switch of the pin is under way (R411). -/
def pinSwitching (s : State) (i : Nat) : Bool := (s.pn (pinBase s i)).stage != .none

/-- The pin is at its safe level under R409. -/
def pinSafeForced (s : State) (i : Nat) : Bool :=
  let r := pinRow s i
  r == 2 || r == 4 || r == 6 || r == 8 || (r != 1 && (s.pn (pinBase s i)).barred)

/-- PIN.GPIOi as it reads (R419). -/
def pinGpioRead (s : State) (i : Nat) : Word :=
  wd ((s.reg (Reg.pinGpio i)).toNat &&& 0x1E3 ||| (pinLevel s i).toNat <<< 4 ||| (pinSwitching s i).toNat <<< 10 |||
    (pinSafeForced s i).toNat <<< 11)

/-! ### What a change leaves behind -/

/-- The level last seen on a driven pad (R404): what a keeper holds. -/
def keeperOf (s : State) (i : Nat) : Option Bool :=
  match (pinDrive s i).level with
  | some b => some b
  | none => match (s.pn i).pad with
    | some b => some b
    | none => (s.pn i).keeper

/-- An override of rows 2 to 9. -/
def rowOver (r : Nat) : Bool := decide (2 ≤ r) && decide (r ≤ 9)

/-- Pin `i` after the part went from `old` to `new`: the keeper's level, the mask that the end of an override leaves
(R410), and what hold last keeps in RETAIN (R409). -/
def pinTrack (old new : State) (i : Nat) (p : Pin) : Pin :=
  { p with
    keeper := match (pinDrive new i).level with
      | some b => some b
      | none => keeperOf old i,
    masked := p.masked || (rowOver (pinRow old i) && !rowOver (pinRow new i)),
    atRetain := if new.mode = .retain ∧ old.mode ≠ .retain then (pinDrive old i).level else p.atRetain,
    sleepHeld := if new.mode = .retain ∧ old.mode ≠ .retain then none else p.sleepHeld }

/-- Bring the pins along with a change of state from `old`. -/
def pinsFrom (old : State) (s : State) : State :=
  { s with pin := (List.range 720).foldl (fun m i => Store.upd (fun _ => {}) m i (pinTrack old s i)) s.pin }

/-- Bring one pin, and the other of its pair, along with a change of state from `old`. -/
def pinAt (i : Nat) (old : State) (s : State) : State :=
  { s with pin := [i, i - i % 2 + (1 - i % 2)].foldl (fun m j => Store.upd (fun _ => {}) m j (pinTrack old s j)) s.pin }

/-- FAILSAFE and the resets abandon every switch (R413). -/
def pinsAbandon (s : State) : State :=
  { s with pin := s.pin.map (fun e => (e.1, { e.2 with stage := .none, heldFunc := none })) }

end Sys2Proof.Machine
end

