-- ==== Sys2Proof/Machine/Modes.lean ====
section
/-! DEFINITION. The mode controller: what a change of mode does (R58 to R60), FAILSAFE (R61 to R66), the resets (R81 to R83),
the region error log (R143) and quarantine (R144 to R146). -/

namespace Sys2Proof.Machine

/-! ### What a mode change ends -/

/-- The loader returns to its sync search (R199). -/
def ldIdle (l : Loader) : Loader :=
  { l with st := .idle, src := 0, owner := 0, reload := none, slot := none, inbuf := [], fcmd := none, pkt := none,
           waiting := [], rbLeft := 0 }

/-- Discard the stream in progress with E212; cause 1 ABORT packet, 2 CFG.CMD, 3 mode change or reset (R197, R200). A pushing
node gets IMG_RESULT (R330). -/
def streamDiscard (cause : Nat) (s : State) : State :=
  if s.ld.st = .idle then s
  else
    let mesh := s.ld.src.toNat = 3
    let s := raise 0x212 0 (cause <<< 3 ||| s.ld.src.toNat) s
    let s := if mesh then pushResult 0x212 s else s
    { s with ld := ldIdle s.ld }

/-- The lowest bank in a set. -/
def lowBank (b : BitVec 16) : Nat := ((List.range 16).find? (fun i => b.getLsbD i)).getD 0

/-- The contents of a set of banks become undefined: words without an entry take values of a new epoch (R362, R364). -/
def scrForget (banks : BitVec 16) (s : State) : State :=
  { s with scr := { s.scr with mem := Store.keep (fun off => !banks.getLsbD (scrBank off)) s.scr.mem,
                               zeroed := s.scr.zeroed &&& ~~~banks, epoch := s.free },
           free := s.free + 1 }

/-- BANKn_CFG.BEATER: banks held by a destructive run (R368). -/
def beaterHeld (s : State) : BitVec 16 := if s.scr.beater.destruct then s.scr.beater.active else 0

/-- Abort the Beater's run with E807: a preserving run leaves its words as they were, a destructive one leaves its banks undefined;
cause 2 ENABLE cleared, 3 mode change or reset; the Beater then stops (R46, R362). -/
def beaterAbort (who : Req) (cause : Nat) (s : State) : State :=
  if !s.scr.beater.running then s
  else
    let low := lowBank s.scr.beater.active
    let s := if s.scr.beater.destruct then scrForget s.scr.beater.active s else s
    let s := { s with scr := { s.scr with beater := {} } }
    let s := (s.setF Reg.scrBeaterStatus 31 30 3).setF Reg.scrBeaterStatus 29 29 0
    let s := (s.setB Reg.scrBeaterCtrl 0 false).setFn .beater fnStopping
    raise 0x807 0 (cause <<< 12 ||| who.toNat <<< 4 ||| low) s

/-- A port's lanes go idle because the part itself stops them: the link ends without an event of its own (R296). A grant that the port holds
while it is STARTING stays (R46, R294). -/
def linkIdle (p l : Nat) (s : State) : State :=
  (s.setReg (Reg.mshPStatus p) (setFld (setFld (s.reg (Reg.mshPStatus p)) 35 22 0) 21 19 l)).setPort p { granted := (s.port p).granted }

/-- A push of this node that is under way ends in STATE `st`, which pulses source 19 (R332, R349). -/
def pushEnd (st : Nat) (s : State) : State :=
  if s.getF Reg.mshPushStatus 23 21 = 1 ∨ s.getF Reg.mshPushStatus 23 21 = 2 then irqPulse 19 (s.setF Reg.mshPushStatus 23 21 st) else s

/-- The service port's reply, followed by the prompt while ECHO is 1 (R443). -/
def svcReply (r : Reply) (s : State) : State :=
  { s with svc := { s.svc with reply := r, replies := s.svc.replies + 1, prompt := s.getB Reg.svcCfg 16 } }

/-- "ER E000" with its reason (R444). -/
def svcReject (reason : Nat) (s : State) : State :=
  svcReply (.er 0) ((s.setF Reg.svcStatus 11 8 reason).count Reg.svcCntReject 35 0)

/-- The end of a self-test: TEST_LAST, TEST_DETAIL, RESULT (R452, R457). -/
def testRecord (result : Nat) (code : Code) (detail : Word) (s : State) : State :=
  match s.svc.test with
  | none => s
  | some t =>
    let s := s.setReg Reg.svcTestLast (wd (code.toNat <<< 24 ||| t.id.toNat <<< 16 ||| t.arg.toNat <<< 8 ||| result))
    let s := s.setReg Reg.svcTestDetail detail
    let s := s.setF Reg.svcStatus 4 3 result
    let t' := { s with svc := { s.svc with test := none }, cal := { s.cal with inject := none } }
    if t.id = 8 then pinsFrom s t' else t'

/-- A running test is abandoned with "OK ABORTED" (R455). -/
def testAbandon (s : State) : State :=
  match s.svc.test with
  | none => s
  | some _ => svcReply (.ok [.text "ABORTED"]) (testRecord 3 0 0 s)

/-- The Calender stops and its repair queues empty (R230). -/
def calStop (s : State) : State :=
  State.setB { s with cal := { s.cal with queue := [], late := [] } } Reg.calStatus 0 false

/-- A swap not yet performed is abandoned; one that is performed stands (R212). -/
def swapDrop (s : State) : State :=
  ((s.setF Reg.cfgSwapStatus 2 0 0).setF Reg.cfgSwapStatus 6 4 0).setB Reg.cfgSwapStatus 11 false

/-! ### Flash writes cut short (R395) -/

/-- What the flash die holds at an address. -/
def State.setFa (s : State) (fa : Nat) (c : Cell) : State :=
  { s with flash := { s.flash with mem := Store.set (fun _ => flashErased) s.flash.mem fa c } }

/-- Page buffers over `n` words from `lo`, which the controller writes, no longer hold what the array does: they are empty
(R381, log 109). -/
def xipDrop (lo n : Nat) (s : State) : State :=
  { s with flash := { s.flash with xip := s.flash.xip.filter (fun b => decide (b.1 * 128 + 128 ≤ lo ∨ lo + n ≤ b.1 * 128)) } }

/-- Words whose program or erase was cut short or failed hold what the die left there. -/
def flashCutAt (lo n : Nat) (s : State) : State :=
  let k := s.free
  forAll (List.range n) (fun i s => s.setFa (lo + i)
    { data := (Config.flashCut k (lo + i)).1, err := (Config.flashCut k (lo + i)).2 }) (xipDrop lo n s.draw)

/-- First word of a sector, by bank and sector id. -/
def sectorFa (id : Nat) : Nat := id * 32768

/-- A descriptor's sector id: bank and sector as descriptor ADDR has them (R376). -/
def Desc.id (d : Desc) : Nat := d.bank.val * 512 + d.sector.toNat

def Desc.op (d : Desc) : Nat := fld d.d.w0 35 32
def Desc.count (d : Desc) : Nat := fld d.d.w0 8 0
def Desc.page (d : Desc) : Nat := fld d.d.w1 7 0

/-- What a write under way leaves when it stops at once. -/
def descCut (d : Desc) (s : State) : State :=
  if d.active ∧ d.result.isNone then
    if d.op = 2 then flashCutAt (sectorFa d.id + 128 * d.page) (128 * d.count) s
    else if d.op = 3 then flashCutAt (sectorFa d.id) 32768 s
    else s
  else s

/-- Sector id of a physical index of the data window (R373). -/
def windowSector (q : Nat) : Nat := (q % 16) * 512 + 145 + q / 16

/-- The controller stops; a write under way is cut short (R395). -/
def flashStop (s : State) : State :=
  let s := forAll s.flash.descs descCut s
  let s := match s.flash.move with
    | some m => flashCutAt (sectorFa (windowSector m.2)) 32768 s
    | none => s
  { s with flash := { s.flash with descs := [], move := none } }

/-! ### Modes -/

/-- Every mesh lane goes idle (R31, R296). -/
def lanesIdle (s : State) : State :=
  forAll (List.range 8) (fun p => linkIdle p 0) { s with eng := { s.eng with waitQ := [] } }

/-- After SERVICE or a resume at least GRACE remains, and the next refresh is never an early one (R436). -/
def wdtGrace (s : State) : State :=
  let g := 2500 * max 1 (s.getF Reg.wdtXcfg 16 1)
  { s with wdt := { s.wdt with count := max g s.wdt.count, graced := true } }

/-- A mode releases the functions it held; a port that is ON again trains (R46, R79, R296). An engine whose context store is
not yet cleared after RETAIN stays held (R78). -/
def releaseAll (old : Mode) (s : State) : State :=
  let fs := if s.boot.ctxLost then heldFuncs.filter (· ≠ .rhx) else heldFuncs
  let s := if old = .service then fnRelease .wdt s else s
  let s := if old = .service ∧ s.fn .wdt ≠ fnOff then wdtGrace s else s
  forAll (List.range 8) (fun p s => if s.fn (.mesh (Fin.ofNat 8 p)) = fnOn then s.setLink p 1 else s)
    (forAll fs fnRelease s)

/-- The functions and the lanes as the new mode has them (R31). -/
def modeFuncs (old m : Mode) (s : State) : State :=
  match m with
  | .retain => lanesIdle (forAll heldFuncs (fnHold m) s)
  | .service | .failsafe => lanesIdle (forAll (.wdt :: heldFuncs) (fnHold m) s)
  | .run => releaseAll old s
  | .inert | .boot => s

/-- Change the mode: E001, then what the new mode holds or releases, then a stream or a push in progress (R58, R46, R197, R332). Cause: 0 request,
1 fail-safe trigger, 2 wake, 3 reset, 4 boot progress (R86). -/
def setMode (m : Mode) (cause : Nat) (s : State) : State :=
  if m = s.mode then s
  else
    let old := s.mode
    let s := pinsFrom s { s with mode := m, svc := if old = .service then { s.svc with testFailed := false } else s.svc }
    let s := modeFuncs old m (raise 0x001 0 (cause <<< 8 ||| old.code <<< 4 ||| m.code) s)
    match m with
    | .retain | .service | .failsafe => pushEnd 5 (streamDiscard 3 s)
    | _ => s

/-- A refused mode request (R58, R86). -/
def modeRefuse (req reason : Nat) (svc : Bool) (s : State) : State :=
  raise 0x003 0 (svc.toNat <<< 12 ||| reason <<< 8 ||| req) s

/-! ### FAILSAFE -/

/-- What FAILSAFE stops, in the mode FAILSAFE but before its events (R63, R31). -/
def fsHalt (health : Nat) (s : State) : State :=
  let s := { s with
    mode := .failsafe,
    boot := { s.boot with fsHealth := BitVec.ofNat 4 health, retain := .idle, heldWake := none, heldService := false,
                          ramRetWindow := false, emu := false, fabricOn := false, exitRun := false },
    gov := {},
    core := { s.core with running := false },
    svc := { s.svc with testFailed := false } }
  swapDrop (calStop (pinsAbandon (flashStop s)))

/-- FS_CAUSE keeps the first trigger's code until power-on or nRST (R57, R81). -/
def fsLatch (code : Code) (health : Nat) (s : State) : State :=
  if s.getF Reg.sysFsCause 11 0 = 0 then s.setReg Reg.sysFsCause (wd (health <<< 12 ||| code.toNat)) else s

/-- A fail-safe trigger: `first` are events that come before the trigger's own (R22). The events of one CK_SVC cycle are
recorded in FAILSAFE, so in the service buffer (R22, R54). A SERVICE command that RETAIN entry holds is answered (R455). In FAILSAFE a
trigger is only an event (R61); while nRST is low the part stays in INERT (R82), so there too (DEDUCED: log entry 93). -/
def failsafeWith (code : Code) (health detail : Nat) (first : State → State) (s : State) : State :=
  if s.mode = .failsafe ∨ s.boot.nrstLow then raise code 0 detail (first s)
  else
    let old := s.mode
    let s := if s.boot.heldService then svcReject 4 s else s
    let s := fsLatch code health (raise code 0 detail (first (pinsFrom s (fsHalt health s))))
    let s := raise 0x001 0 (1 <<< 8 ||| old.code <<< 4 ||| 5) s
    let s := lanesIdle (forAll (.wdt :: heldFuncs) (fnHold .failsafe) s)
    pushEnd 5 (testAbandon (beaterAbort 0 3 (streamDiscard 3 s)))

def failsafe (code : Code) (health detail : Nat) (s : State) : State := failsafeWith code health detail id s

/-! ### Resets (R81) -/

inductive RstKind where
  | power | nrst | soft
  deriving DecidableEq, Repr

/-- Copy the masked bits of a register from one state into another. -/
def keepBits (src : State) (a mask : Nat) (s : State) : State :=
  s.setReg a (wd ((s.reg a).toNat &&& ((2 ^ 36 - 1) ^^^ mask) ||| (src.reg a).toNat &&& mask))

/-- What the journal in flash gives the FLC registers, which a reset therefore keeps (R397). -/
def journalRegs : List Nat := [Reg.flcWearStatus, Reg.flcJrnlStatus, Reg.flcJrnlSeq, Reg.flcBootJrnl]

/-- What power-on alone clears: soft repairs (R366), and the counts of erases and gap moves since power-on (R388, R397). -/
def powerRegs : List Nat := Reg.flcCntErase :: Reg.flcWearCount :: (List.range 16).map Reg.scrBankRepair

/-- The bits of such a register: of FLC.WEAR_COUNT the field MOVES, since SINCE restarts at every reset (R388). -/
def powerMask (a : Nat) : Nat := if a = Reg.flcWearCount then 0xFFFFF0000 else 2 ^ 36 - 1

/-- Registers and bits that a reset keeps (R81, R366, R429). -/
def keepRegs (k : RstKind) (src s : State) : State :=
  let s := forAll journalRegs (fun a => keepBits src a (2 ^ 36 - 1)) s
  let s := if k = .power then s else keepBits src Reg.pwrRailOk (2 ^ 36 - 1) s
  let s := match k with
    | .power => s
    | _ => forAll powerRegs (fun a => keepBits src a (powerMask a)) s
  match k with
  | .soft => keepBits src Reg.sysFsCause 0xFFFF (keepBits src Reg.sysHifStatus 0x7F10
      (keepBits src Reg.pwrResetCause 0x1FF0F (keepBits src Reg.dbgStatus 0x1E0 s)))
  | _ => s

/-- What stands at the pads is outside the part; a keeper loses its level with power-on (R404). -/
def keepPads (k : RstKind) (src : State) : Store Pin :=
  (List.range 720).foldl (fun m i => Store.set (fun _ => {}) m i
    { pad := (src.pn i).pad, keeper := if k = .power then none else keeperOf src i }) []

/-- The state behind the registers that a reset keeps (R81). What stands at the pins nRST, nSAFE and SVC_MODE is outside the part.
nRST and a soft reset end a pending hot-join request, as a reset of the I3C target does: R37 names only an address and DISEC as
its end, and R81 is silent (DESIGN CHOICE: log entry 94). -/
def keepState (k : RstKind) (src : State) : State :=
  let z : State := State.reset
  { z with
    pending := src.pending,
    free := (flashStop src).free + 1,
    sec := { src.sec with krWords := [], rollTarget := none },
    flash := { z.flash with mem := (flashStop src).flash.mem },
    scr := { z.scr with
      mem := if k = .power then [] else (scrForget (beaterHeld src) src).scr.mem,
      zeroed := if k = .power then 0 else src.scr.zeroed &&& ~~~beaterHeld src,
      epoch := if k = .power ∨ beaterHeld src ≠ 0 then src.free else src.scr.epoch },
    boot := { z.boot with
      svcModePin := src.boot.svcModePin,
      nrstLow := src.boot.nrstLow,
      nsafeLow := src.boot.nsafeLow,
      powerGood := k != .power && src.boot.powerGood && src.getF Reg.pwrRailOk 21 0 == 0x3FFFFF - 0x40 + 0x40 * src.getF Reg.pwrRailOk 6 6,
      safeMap := if k = .power then [] else src.boot.safeMap,
      safeLoaded := k != .power && src.boot.safeLoaded,
      bankOrder := if k = .power then [] else src.boot.bankOrder },
    pin := keepPads k src,
    mesh := { z.mesh with disc := { z.mesh.disc with lastAddr := if k = .power then none else src.mesh.disc.lastAddr } },
    dbg := { z.dbg with
      issued := if k = .power then 0 else src.dbg.issued,
      level := if k = .soft then src.dbg.level else none,
      dmactive := k == .soft && src.dbg.dmactive,
      sbOnAddr := k == .soft && src.dbg.sbOnAddr,
      sbOnData := k == .soft && src.dbg.sbOnData,
      sbInc := k == .soft && src.dbg.sbInc,
      sbAccess := if k = .soft then src.dbg.sbAccess else 2,
      sbAddr := if k = .soft then src.dbg.sbAddr else 0,
      sbData := if k = .soft then src.dbg.sbData else 0,
      sberror := if k = .soft then src.dbg.sberror else 0,
      cmderr := if k = .soft then src.dbg.cmderr else 0,
      data0 := if k = .soft then src.dbg.data0 else 0,
      haltOnReset := k != .power && src.dbg.haltOnReset,
      ir := if k = .power then z.dbg.ir else src.dbg.ir } }

/-- Reset the part: everything but what R81 keeps; a stream in progress is discarded with E212, cause 3 (R197), and a run
of the Beater aborted with E807, cause 3 (R362); INERT; E001 where the mode
changed (R58, R81). -/
def resetTo (k : RstKind) (s : State) : State :=
  let t := keepRegs k s (keepState k s)
  let t := if s.ld.st = .idle then t else raise 0x212 0 (3 <<< 3 ||| s.ld.src.toNat) t
  let t := if s.scr.beater.running then raise 0x807 0 (3 <<< 12 ||| lowBank s.scr.beater.active) t else t
  if s.mode = .inert then t else raise 0x001 0 (3 <<< 8 ||| s.mode.code <<< 4) t

/-- Sample SVC_MODE into SYS.MODE.SVC_STRAP (R76). -/
def sampleStrap (level : Bool) (s : State) : State :=
  State.setB { s with boot := { s.boot with svcModePin := level } } Reg.sysMode 8 level

/-- Trigger 4 fires as soon as it is armed, while nSAFE is still low (R61, R62, R65). -/
def nsafeRearm (s : State) : State :=
  if s.boot.nsafeLow ∧ s.boot.powerGood ∧ ¬ s.boot.nrstLow then failsafe 0x002 13 0 s else s

/-- A soft reset, or the authenticated re-boot, which is the same reset (R58, R83, R85). -/
def softReset (who : Req) (cause : Nat) (toService : Bool) (s : State) : State :=
  let t := resetTo .soft s
  let zero := t.boot.powerGood && !t.boot.nrstLow
  let t := { t with boot := { t.boot with softBy := some who, toService := toService, timeZero := zero } }
  nsafeRearm (sampleStrap t.boot.svcModePin
    (t.setReg Reg.pwrResetCause (wd (toService.toNat <<< 16 ||| (if cause = 2 then who.toNat else 0) <<< 8 ||| cause))))

/-! ### Region error log and quarantine -/

/-- A log entry (R148). -/
def logEntry (kind col row bit word plane : Nat) : Nat :=
  kind <<< 32 ||| col <<< 27 ||| row <<< 22 ||| bit <<< 16 ||| word <<< 8 ||| plane <<< 7

/-- Write a log entry, and send it as the class 4 event of its KIND (R143, R233). -/
def logWrite (n : Nat) (entry : Nat) (code : Code) (s : State) : State :=
  let s := if (s.rg n).log.length < 32 then s.setRg n { s.rg n with log := (s.rg n).log ++ [wd entry] }
    else s.count (Reg.rgnLogLost n) 15 0
  raise code (BitVec.ofNat 8 (0x40 + n)) (entry ||| n <<< 1) s

/-- Quarantine is in force: registers, fences, clocks, ports, and the region's repairs dropped (R145, R230). -/
def quarSet (n cause : Nat) (s : State) : State :=
  let s := pinsFrom s (s.setF (Reg.rgnStatus n) 3 0 (cause <<< 1 ||| 1))
  let s := s.setRg n { s.rg n with gated := true }
  { s with cal := { s.cal with queue := s.cal.queue.filter (fun r => r.lane != n) } }

/-- Quarantine a region and escalate as R146 decides. -/
def quarantine (n cause : Nat) (s : State) : State :=
  if s.getB (Reg.rgnStatus n) 0 then s
  else
    let s := quarSet n cause s
    let crit := s.getB (Reg.rgnAttr n) 0
    let esc := s.getB (Reg.rgnAttr n) 1
    let entry := logWrite n (7 <<< 32 ||| cause <<< 8) 0x407
    if crit ∧ cause ≠ 3 then failsafeWith 0x40B 11 n entry s
    else if crit ∨ esc then failsafeWith 0x40C 11 (cause <<< 8 ||| n) entry s
    else entry s

end Sys2Proof.Machine
end

