-- ==== Sys2Proof/Machine/Operands.lean ====
section
/-! DEFINITION. The forms in which a command names things: a register access with its mode gate (R28, R42, R43) and requester
limits, a word of a configuration plane (R120, R174, R175, R176), a pin's requester (R414); and the SECDED check (R19). -/

namespace Sys2Proof.Machine

/-! ### Register accesses -/

/-- A bus error response; the access has no effect (R28, R348). -/
def busErr (s : State) : State := { s with resp := { s.resp with err := true } }

/-- The access of `who` returns `w`. -/
def answer (w : Word) (s : State) : State := { s with resp := { s.resp with data := w } }

/-- The response of an access before it has been served. -/
def begin (who : Req) (s : State) : State := { s with resp := { who := who, data := 0, err := false, more := [] } }

/-- The speed grade: 1 or 2, no other value exists (R1). -/
def speedGrade : Nat := if Config.fuseGrade2 then 2 else 1

/-- Service-domain blocks: SYS, PWR, CLK, SVC, WDT, SEC (R43). -/
def isService (a : Nat) : Bool :=
  decide (a < 0x3000) || (decide (0x68000 ≤ a) && decide (a < 0x80000))

def isPin (a : Nat) : Bool := decide (0x3000 ≤ a) && decide (a < 0x4000)

def isCfg (a : Nat) : Bool := decide (0x10000 ≤ a) && decide (a < 0x18000)

def isUser (a : Nat) : Bool := decide (0x100000 ≤ a) && decide (a < 0x200000)

/-- DBG registers that answer reads in every mode (R43). -/
def dbgReads (a : Nat) : Bool :=
  a == Reg.dbgPolicy || a == Reg.dbgStatus || a == Reg.dbgAuthCmd || (decide (0x60010 ≤ a) && decide (a < 0x60020))

/-- DBG registers that accept writes in every mode (R43). -/
def dbgWrites (a : Nat) : Bool := a == Reg.dbgAuthCmd || (decide (0x60018 ≤ a) && decide (a < 0x60020))

/-- Modes in which every block answers (R43). -/
def allAnswer (s : State) : Bool :=
  s.mode == .run || s.mode == .service || (s.mode == .boot && s.boot.released)

/-- The block answers a read (R43). -/
def answersRead (s : State) (a : Nat) : Bool :=
  !s.boot.porHeld &&
  (isService a || dbgReads a || allAnswer s ||
    match s.mode with
    | .failsafe => !isUser a
    | .boot => isPin a || isCfg a
    | _ => isPin a)

/-- The block accepts a write (R43). -/
def answersWrite (s : State) (a : Nat) : Bool :=
  !s.boot.porHeld &&
  (dbgWrites a || allAnswer s ||
    match s.mode with
    | .failsafe => decide (a < 0x1000) || (decide (0x60000 ≤ a) && decide (a < 0x80000))
    | .boot => isService a || isPin a || a == Reg.cfgSwapStatus
    | _ => isService a || isPin a)

/-- A read of `who` has no side effect: it carries peek, as every debug read does (R7). -/
def peeks (who : Req) (peek : Bool) : Bool := peek || who == rqDbg

/-- Edges reach a region's blocks: the fabric clocks run, the region's spines are not gated (R101, R145). -/
def clocksOn (s : State) (n : Nat) : Bool := s.boot.fabricOn && !(s.rg n).gated

/-- Fabric global line `g` runs: EN of CLK.GCLg (R89). -/
def lineRuns (s : State) (g : Nat) : Bool := s.getB (Reg.clkGcl g) 35

/-- The part has passed step 6a and the region is neither quarantined nor in reset: its outputs are not fenced (R136). -/
def rgnFenced (s : State) (n : Nat) : Bool :=
  s.getB (Reg.rgnStatus n) 0 || s.getB (Reg.rgnStatus n) 4 || !s.boot.opened

/-- The neighbour in direction `d`: 0 north, 1 east, 2 south, 3 west. -/
def rgnNext (n d : Nat) : Option Nat :=
  match d with
  | 0 => if n / 8 < 7 then some (n + 8) else none
  | 1 => if n % 8 < 7 then some (n + 1) else none
  | 2 => if 0 < n / 8 then some (n - 8) else none
  | _ => if 0 < n % 8 then some (n - 1) else none

/-- The region that hosts a port: kind 0 engine port, 1 fabric master port, 2 STREAM interface (R17), 3 the configuration access
port, number 0 (R199). -/
def hostOf (s : State) (kind k : Nat) : Option Nat :=
  match Store.get (fun _ => 0) s.eng.hosts (8 * kind + k) with
  | 0 => none
  | n + 1 => some n

/-! ### The cells of routed pins (R401, R403) -/

/-- The image routes the pin, and to this region (R419). -/
def padOf (s : State) (i n : Nat) : Bool := s.getB (Reg.pinCfg i) 11 && s.getF (Reg.pinCfg i) 10 5 == n

/-- The cell's output registers, or its serialiser's word, at their preload (R401, R403). -/
def padPreload (i : Nat) (s : State) : State :=
  let p := s.pn i
  let w := BitVec.ofNat 16 (fld p.img3 23 8)
  s.setPn i { p with fabOut := p.img2.getLsbD 9, fabOut1 := p.img2.getLsbD 10, fabOe := p.img2.getLsbD 11,
                     word := if p.img3.getLsbD 5 then w else w &&& 0xFF }

/-- The pins of a region at their preload (R117, R401). -/
def padsPreload (n : Nat) (s : State) : State := forAll ((s.pin.map Prod.fst).filter (fun i => padOf s i n)) padPreload s

/-- The fabric global line on which a port's fabric side runs (R30). -/
def portLine (s : State) (kind k : Nat) : Nat := Store.get (fun _ => 0) s.eng.lines (8 * kind + k)

/-- A region's ports see edges: its clocks run, it has passed step 6a and is neither quarantined nor in reset (R71, R84, R101, R145). -/
def fabricClocked (s : State) (n : Nat) : Bool := clocksOn s n && !rgnFenced s n

/-- A region's masters and ports act: they see edges, and RETAIN entry or exit does not hold requests back (R78, R79). -/
def fabricLive (s : State) (n : Nat) : Bool := fabricClocked s n && decide (s.boot.retain = .idle)

/-- A hard port takes a request: the image assigns it, its host is live and its line runs; otherwise it is held idle (R17, R30). -/
def portLive (s : State) (kind k : Nat) : Bool :=
  match hostOf s kind k with
  | some n => fabricLive s n && lineRuns s (portLine s kind k)
  | none => false

/-- A hard port delivers to its host, which RETAIN entry still clocks until its ramp-down ends (R30, R78). -/
def portClocked (s : State) (kind k : Nat) : Bool :=
  match hostOf s kind k with
  | some n => fabricClocked s n && lineRuns s (portLine s kind k)
  | none => false

/-- A master of the fabric asks: a fabric master port that is not held idle, or the user master of a region that is live. -/
def fabricAsks (s : State) (who : Req) : Bool :=
  let w := who.toNat
  if 0x10 ≤ w ∧ w < 0x18 then portLive s 1 (w - 0x10)
  else if 0x40 ≤ w ∧ w < 0x80 then fabricLive s (w - 0x40)
  else true

/-- The interconnect serves the master: in FAILSAFE only service and debug and the I3C target (R28). -/
def served (s : State) (who : Req) : Bool :=
  (s.mode != .failsafe || who == rqI3c || who == rqSvc || who == rqDbg) && fabricAsks s who

/-- An I3C access to a block that does not answer (R43). -/
def unavail (who : Req) (s : State) : State := if who = rqI3c then s.setB Reg.sysHifStatus 2 true else s

/-- A write access: served by `op` where the block accepts it. -/
def gateW (who : Req) (a : Nat) (op : State → State) (s : State) : State :=
  let s := begin who s
  if !served s who then s else if answersWrite s a then op s else unavail who s

/-- A read access: served by `op`, which sets the answer. -/
def gateR (who : Req) (a : Nat) (op : State → State) (s : State) : State :=
  let s := begin who s
  if !served s who then s else if answersRead s a then op s else unavail who s

/-! ### Debug level and owner rights -/

/-- The debug level held: 0 NONE, 1 OBSERVE, 2 FULL (R427, R439). -/
def dbgLevel (s : State) : Nat :=
  match s.dbg.level with
  | some l => l.toNat
  | none => Config.fuseDbgPolicy.toNat % 4

/-- A debugger is attached (R433). -/
def attached (s : State) : Bool := dbgLevel s == 2 && s.dbg.dmactive

/-- The requester may write a pin's registers (R414). -/
def pinWho (s : State) (i : Nat) (who : Req) : Bool :=
  pinOwner s i == 0 || pinOwner s i == who.toNat || (who == rqSvc && s.mode == .service) || (who == rqDbg && dbgLevel s == 2)

/-! ### SECDED (R19) -/

/-- What a check of a word finds. -/
inductive Chk where
  | good (w : Word)
  | corrected (w : Word)
  | bad
  deriving DecidableEq, Repr

/-- SECDED over a word, of which the bits of `mask` are left out of the check and taken as 0 (R122). One wrong bit is
corrected, two are found; of three or more the code promises nothing. -/
def secded (mask : Word) (c : Cell) : Chk :=
  let e := c.err &&& ~~~(mask.zeroExtend 43)
  let fixed := c.data ^^^ e.truncate 36
  match popcount e with
  | 0 => .good c.data
  | 1 => .corrected fixed
  | 2 => .bad
  | _ => match Config.secdedMulti c.data e with | some w => .corrected w | none => .bad

/-- A word with no mask. -/
def Cell.chk (c : Cell) : Chk := secded 0 c

/-- The word that a check gives, 0 when it is uncorrectable. -/
def Chk.word : Chk → Word
  | .good w => w
  | .corrected w => w
  | .bad => 0

/-- Flip one of the 43 stored bits. -/
def Cell.flip (c : Cell) (b : Nat) : Cell :=
  { data := if b < 36 then c.data ^^^ (1 <<< b) else c.data, err := c.err ^^^ (1 <<< b) }

/-! ### Words of the configuration planes -/

/-- Key of a word: physical plane, segment, column, minor, frame word. -/
def cfgKey (plane : Bool) (seg col minor word : Nat) : Nat :=
  plane.toNat <<< 28 ||| seg <<< 21 ||| col <<< 16 ||| minor <<< 7 ||| word

def keyPlane (k : Nat) : Bool := k >>> 28 == 1
def keySeg (k : Nat) : Nat := (k >>> 21) % 128
def keyCol (k : Nat) : Nat := (k >>> 16) % 32
def keyMinor (k : Nat) : Nat := (k >>> 7) % 512
def keyWord (k : Nat) : Nat := k % 128

/-- The physical plane that is active for a segment: one role for each region, one for the ring (R203). -/
def activeOf (s : State) (seg : Nat) : Bool := if seg < 64 then (s.rg seg).role else s.fab.ringRole

/-- The physical plane that a plane field names: 0 active, 1 shadow. -/
def physOf (s : State) (seg : Nat) (shadow : Bool) : Bool := activeOf s seg != shadow

def State.cfgCell (s : State) (k : Nat) : Cell := Store.get (fun _ => {}) s.fab.cfg k

def State.setCfg (s : State) (k : Nat) (c : Cell) : State :=
  { s with fab := { s.fab with cfg := Store.set (fun _ => {}) s.fab.cfg k c } }

def isLogicCol (c : Nat) : Bool := decide (c < 28) && c != 6 && c != 13 && c != 20

def isRamCol (c : Nat) : Bool := c == 6 || c == 20

/-- Configuration minors of a column of a region (R174). -/
def cfgMinors (c : Nat) : Nat := if isLogicCol c then 64 else 16

/-- Columns and configuration minors of a segment (R175); none where the segment does not exist. -/
def segMinors (seg col : Nat) : Nat :=
  if seg < 64 then (if col < 29 then cfgMinors col else 0)
  else if col ≠ 0 then 0
  else if seg < 79 then 2
  else if seg = 79 ∨ seg = 127 then 4
  else if seg < 88 then 1
  else if seg = 88 then 34
  else 0

/-- Minors of a segment's column with the content minors of RAM36 (R174). -/
def allMinors (seg col : Nat) : Nat := if seg < 64 ∧ isRamCol col then 272 else segMinors seg col

/-- The frame exists and the FAW's reserved bits are zero (R176). -/
def fawOk (faw : Word) : Bool :=
  decide (fld faw 35 34 < 2) && fld faw 12 0 == 0 && decide (fld faw 21 13 < allMinors (fld faw 33 27) (fld faw 26 22))

/-- A block's number in the whole part: a Quire, a RAM36 or a row of MAC36. -/
def blkKey (n col row : Nat) : Nat := (n * 29 + col) * 32 + row

/-! ### Golden mode maps (R18, R226) -/

/-- Index of a cell in a region. -/
def cellIx (col row cell : Nat) : Nat := (col * 32 + row) * 36 + cell

/-- The vote of a golden map bit's three copies, of which some may disagree. -/
def goldBit (r : Region) (plane : Bool) (ix : Nat) : Bool :=
  let v := Store.get (fun _ => false) (if plane then r.gold1 else r.gold0) ix
  if 2 ≤ (r.goldBad.filter (fun e => e.1 == plane && e.2.1 == ix)).length then !v else v

/-- The mask of user-owned cells of a Quire in a plane, for configuration words 0 to 63 (R122). -/
def quireMask (s : State) (n : Nat) (plane : Bool) (col row : Nat) : Word :=
  (List.range 36).foldl (fun m k => if goldBit (s.rg n) plane (cellIx col row k) then m ||| (1 <<< k) else m) 0

/-- The mask under which the word of key `k` is checked. -/
def keyMask (s : State) (k : Nat) : Word :=
  if keySeg k < 64 ∧ isLogicCol (keyCol k) ∧ keyMinor k < 16 then quireMask s (keySeg k) (keyPlane k) (keyCol k) (keyWord k / 4)
  else 0

/-- A masked check of a configuration word (R122). -/
def cfgChk (s : State) (k : Nat) : Chk := secded (keyMask s k) (s.cfgCell k)

/-- The word of a frame in the active plane, as the logic uses it. -/
def actWord (s : State) (seg col minor word : Nat) : Word := (s.cfgCell (cfgKey (activeOf s seg) seg col minor word)).data

/-- Configuration word `w` of the Quire at a position, in the active plane (R120). -/
def quireWord (s : State) (n col row w : Nat) : Word := actWord s n col (w / 4) (4 * row + w % 4)

/-- Configuration word `w` of a hard block: four words for each row in each minor, as for a Quire. -/
def blockWord (s : State) (n col row w : Nat) : Word := actWord s n col (w / 4) (4 * row + w % 4)

/-- Configuration bit `w` of a cell (R120). -/
def cellBit (s : State) (n col row cell w : Nat) : Bool := (quireWord s n col row w).getLsbD cell

/-! ### Image fields whose place the spec does not give (R175) -/

/-- The words of a frame of a physical plane. -/
def frameWords (s : State) (plane : Bool) (seg col minor : Nat) : List Word :=
  (List.range 128).map (fun w => (s.cfgCell (cfgKey plane seg col minor w)).data)

/-- The words of consecutive minors. -/
def minorWords (s : State) (plane : Bool) (seg col lo n : Nat) : List Word :=
  (List.range n).flatMap (fun m => frameWords s plane seg col (lo + m))

/-- A field of frames, cut to its width: the place is a constant of the part that the spec does not give (log entry 7). -/
def lay (field ix width : Nat) (ws : List Word) : Nat := Config.layout field ix ws % 2 ^ width

def layBusMode : Nat := 0
def layBusMask : Nat := 1
def layAttr : Nat := 2
def layWeight : Nat := 3
def layStatic : Nat := 4
def layGcl : Nat := 5
def layBankV : Nat := 6
def layEst : Nat := 7
def layPortEn : Nat := 8
def layHost : Nat := 9
def layUrgent : Nat := 10
def layRootPrio : Nat := 11
/-- A Quire's clock line: 3:0 fabric global line, 4 inverted edge, 5 selected (R126, R127). -/
def layQuireClk : Nat := 12
/-- A register station: 0 enabled, 1 clock line of its Quire, 2 INIT (R131, R132). -/
def layStation : Nat := 13
/-- A Pass word: 3:0 fabric global line, 4 THRU (R134). -/
def layPass : Nat := 14
/-- Fence values of a Pass word (R136). -/
def layFence : Nat := 15
/-- IDLE values of a bus (R137). -/
def layBusIdle : Nat := 16
/-- A bus driver site: 4:0 column of its Quire, 5 QA outputs instead of O6 (R137). -/
def layBusSite : Nat := 17
/-- The fabric global line of a hard port (R30). -/
def layPortLine : Nat := 18
/-- The transmitter preset of a mesh port (R295). -/
def layPreset : Nat := 19

end Sys2Proof.Machine
end

