-- ==== Sys2Proof/Machine/I3c.lean ====
section
/-! DEFINITION. The I3C target's common command codes, addressing, hot-join and in-band interrupts (R34 to R37, R41, R54, R55). -/

namespace Sys2Proof.Machine

/-! ### Shared operations -/

/-- The target is acknowledged, or not, and puts bytes on the bus. -/
def hifAck (ok : Bool) (out : List Byte) (s : State) : State := { s with hif := { s.hif with ack := ok, out := out } }

/-- The target hears SDR command codes: power-on reset is not held, and the bus is not in HDR-DDR (R34, R41). -/
def hifHears (s : State) : Bool := !s.boot.porHeld && !s.hif.hdr

def daValid (s : State) : Bool := s.getB Reg.sysHifStatus 4

def dynAddr (s : State) : Nat := s.getF Reg.sysHifStatus 14 8

def staticAddr (s : State) : Nat := s.getF Reg.sysStaticAddr 6 0

/-- A dynamic address is given; hot-join ends (R36, R37). -/
def daSet (addr : BitVec 7) (s : State) : State :=
  State.setB (State.setF { s with hif := { s.hif with hotJoin := false } } Reg.sysHifStatus 14 8 addr.toNat) Reg.sysHifStatus 4 true

/-- Bytes of a 16-bit value. -/
def be16 (v : BitVec 16) : List Byte := [BitVec.ofNat 8 (v.toNat / 256), BitVec.ofNat 8 v.toNat]

/-- The provisional ID (R35). -/
def pidBytes : List Byte :=
  let pid := 0x0395 <<< 33 ||| 1 <<< 32 ||| Config.watermark.toNat % 2 ^ 32
  (List.range 6).map (fun i => BitVec.ofNat 8 (pid >>> (8 * (5 - i))))

def bcr : Byte := 0x26
def dcr : Byte := 0xC4

/-- A broadcast command that the target takes. -/
def cccB (op : State → State) (s : State) : State := if hifHears s then hifAck true [] (op s) else s

/-- A direct command at the dynamic address: without one the target does not answer it (R36). -/
def cccD (out : State → List Byte) (s : State) : State :=
  if hifHears s then (if daValid s then hifAck true (out s) s else hifAck false [] s) else s

/-- A length within 8 to 65,535 is taken (R34). -/
def mwlOk (len : BitVec 16) : Bool := decide (8 ≤ len.toNat)

/-! ### Commands -/

def execI3cEnec (int hj : Bool) (s : State) : Host.Outcome State Fault Refusal :=
  .next (cccB (fun s => { s with hif := { s.hif with intEn := s.hif.intEn || int, hjEn := s.hif.hjEn || hj } }) s)

/-- A DISEC that clears HJ ends a hot-join (R37). -/
def execI3cDisec (int hj : Bool) (s : State) : Host.Outcome State Fault Refusal :=
  .next (cccB (fun s => { s with hif := { s.hif with
    intEn := s.hif.intEn && !int, hjEn := s.hif.hjEn && !hj, hotJoin := s.hif.hotJoin && !hj } }) s)

def execI3cRstdaa (s : State) : Host.Outcome State Fault Refusal :=
  .next (cccB (fun s => (s.setF Reg.sysHifStatus 14 8 0).setB Reg.sysHifStatus 4 false) s)

/-- Assignment by arbitration on the 48-bit provisional ID; only a target without a dynamic address takes part (R35, R36). -/
def execI3cEntdaa (addr : BitVec 7) (won : Bool) (s : State) : Host.Outcome State Fault Refusal :=
  .next (if hifHears s then
      (if daValid s then hifAck false [] s
       else if won then hifAck true (pidBytes ++ [bcr, dcr]) (daSet addr s) else hifAck false pidBytes s)
    else s)

def execI3cSetdasa (static addr : BitVec 7) (s : State) : Host.Outcome State Fault Refusal :=
  .next (if hifHears s then
      (if !daValid s && static.toNat == staticAddr s then hifAck true [] (daSet addr s) else hifAck false [] s)
    else s)

def execI3cSetnewda (addr : BitVec 7) (s : State) : Host.Outcome State Fault Refusal :=
  .next (if hifHears s then (if daValid s then hifAck true [] (daSet addr s) else hifAck false [] s) else s)

def execI3cSetmwl (len : BitVec 16) (s : State) : Host.Outcome State Fault Refusal :=
  .next (cccB (fun s => if mwlOk len then { s with hif := { s.hif with mwl := len } } else s) s)

def execI3cSetmrl (len : BitVec 16) (s : State) : Host.Outcome State Fault Refusal :=
  .next (cccB (fun s => if mwlOk len then { s with hif := { s.hif with mrl := len } } else s) s)

def execI3cGetmwl (s : State) : Host.Outcome State Fault Refusal := .next (cccD (fun s => be16 s.hif.mwl) s)

/-- GETMRL also returns the IBI payload size, 5 (R34). -/
def execI3cGetmrl (s : State) : Host.Outcome State Fault Refusal := .next (cccD (fun s => be16 s.hif.mrl ++ [5]) s)

def execI3cGetpid (s : State) : Host.Outcome State Fault Refusal := .next (cccD (fun _ => pidBytes) s)

def execI3cGetbcr (s : State) : Host.Outcome State Fault Refusal := .next (cccD (fun _ => [bcr]) s)

def execI3cGetdcr (s : State) : Host.Outcome State Fault Refusal := .next (cccD (fun _ => [dcr]) s)

/-- Bits 3:0 of the second byte; the other bits are zero (PRESUMED, log entry 13). -/
def execI3cGetstatus (s : State) : Host.Outcome State Fault Refusal :=
  .next (cccD (fun s => [0, BitVec.ofNat 8 (pendClasses s)]) s)

/-- SDR at 12.5 MHz with no turnaround limit: both bytes zero in the standard's coding (PRESUMED, log entry 13). -/
def execI3cGetmxds (s : State) : Host.Outcome State Fault Refusal := .next (cccD (fun _ => [0x00, 0x00]) s)

/-- HDR-DDR is the only HDR mode: bit 0 of the first byte in the standard's coding (PRESUMED, log entry 13). -/
def execI3cGetcaps (s : State) : Host.Outcome State Fault Refusal := .next (cccD (fun _ => [0x01, 0x01, 0x00, 0x00]) s)

/-- Action 0x01 puts the target's own settings and queue at their reset values, a pending hot-join request among them (DESIGN CHOICE: log
entry 94); a dynamic address holds until RSTDAA (R36, log entry 14). Other actions than 0x00 and 0x01 are refused. -/
def execI3cRstact (action : BitVec 8) (s : State) : Host.Outcome State Fault Refusal :=
  .next (if hifHears s then
      (if action = 0 then hifAck true [] s
       else if action = 1 then hifAck true [] { s with hif := {} }
       else hifAck false [] s)
    else s)

def execI3cEnthdr0 (s : State) : Host.Outcome State Fault Refusal :=
  .next (cccB (fun s => { s with hif := { s.hif with hdr := true } }) s)

/-- A direct command code outside the table is not acknowledged; a broadcast one is ignored (R34). -/
def execI3cUnknownCcc (direct : Bool) (code : BitVec 8) (s : State) : Host.Outcome State Fault Refusal :=
  .next (match code with
    | _ => if direct && hifHears s then hifAck false [] s else s)

def execHdrExitPattern (s : State) : Host.Outcome State Fault Refusal :=
  .next { s with hif := { s.hif with hdr := false } }

/-- At a bus-idle condition, a target that has found the bus active and has no address asks to join (R37). -/
def execHotJoinRequest (s : State) : Host.Outcome State Fault Refusal :=
  .next (if s.hif.hotJoin && s.hif.hjEn && !daValid s && !s.boot.porHeld then
      { s with hif := { s.hif with hotJoins := s.hif.hotJoins + 1 } }
    else s)

/-- The payload of an in-band interrupt (R54). -/
def ibiBytes (i : Ibi) : List Byte :=
  [BitVec.ofNat 8 (0xA0 + i.cls.toNat), BitVec.ofNat 8 (i.code.toNat / 256), BitVec.ofNat 8 i.code.toNat,
   BitVec.ofNat 8 (i.index.toNat / 256), BitVec.ofNat 8 i.index.toNat]

/-- The oldest queued interrupt is sent, or not acknowledged and kept for the next bus-idle condition (R54, R55). -/
def execIbiSend (acked : Bool) (s : State) : Host.Outcome State Fault Refusal :=
  .next (match s.hif.ibiQ with
    | [] => s
    | i :: rest =>
      if daValid s && s.hif.intEn && hifHears s then
        (if acked then { s with hif := { s.hif with ibiQ := rest, out := ibiBytes i, ack := true } }
         else { s with hif := { s.hif with ack := false } })
      else s)

end Sys2Proof.Machine
end

