-- ==== Sys2Proof/Machine/Pins.lean ====
section
/-! DEFINITION. Pins: ownership (R414), function switches (R411 to R413), GPIO edges (R407), delay lines (R402), serialisers
(R403), and the end of an override (R410). -/

namespace Sys2Proof.Machine

/-! ### Shared operations -/

/-- A refused pin write: E902 with its cause (R418). -/
def pinRefuse (i : Nat) (who : Req) (cause : Nat) (s : State) : State :=
  raise 0x902 0 (cause <<< 18 ||| who.toNat <<< 10 ||| i) s

/-- Serve a pin write for the owner; from any other requester it is a bus error and E902 (R414). -/
def pinOwned (i : Nat) (who : Req) (op : State → State) (s : State) : State :=
  if pinWho s i who then pinAt i s (op s) else busErr (pinRefuse i who 1 s)

/-- FUNC of a pin: the function connected, or the one that the switch under way leads to. -/
def pinFunc (s : State) (i : Nat) : Nat := s.getF (Reg.pinCfg i) 35 34

/-- Begin a function switch at t0 (R411). -/
def swStart (i f : Nat) (s : State) : State :=
  let p := s.pn i
  let lvl := (pinDrive s i).level
  let park := BitVec.ofNat 2 (s.getF (Reg.pinCfg i) 33 32)
  let p' : Pin := { p with stage := .parked, atSwitch := lvl, heldFunc := none, parkNow := park }
  pinAt i s ((s.setPn i p').setF (Reg.pinCfg i) 35 34 f)

/-- A change of function: a switch, or a value held for the end of the one under way (R411, R413). -/
def funcSet (i f : Nat) (s : State) : State :=
  if (s.pn i).stage ≠ .none then s.setPn i { s.pn i with heldFunc := some (BitVec.ofNat 2 f) }
  else if f = (s.pn i).conn.toNat then s
  else swStart i f s

/-- The FUNC that a register write carries (R407): what repeats the connected function while no switch runs changes nothing. -/
def funcWrite (i f : Nat) (who : Req) (s : State) : State :=
  if (s.pn i).stage = .none ∧ f = (s.pn i).conn.toNat then s
  else if 2 ≤ f then pinRefuse i who 3 s
  else if f = 1 ∧ ¬ s.getB (Reg.pinCfg i) 11 then pinRefuse i who 2 s
  else funcSet i f s

/-- The SLEEP fields in force stay through RETAIN when they are written during a switch (R413). -/
def sleepKeep (i : Nat) (s : State) : State :=
  if (s.pn i).stage ≠ .none ∧ s.mode = .retain ∧ (s.pn i).sleepHeld = none then
    s.setPn i { s.pn i with sleepHeld := some (BitVec.ofNat 4 (s.getF (Reg.pinCfg i) 25 22)) }
  else s

/-- A write of PIN.CFGi (R407, R411, R413, R414, R419). -/
def opPinCfg (i : Nat) (who : Req) (v : Word) (s : State) : State :=
  pinOwned i who (fun s =>
    if pinOddDiff s i then s
    else
      let s := sleepKeep i s
      let a := Reg.pinCfg i
      let s := s.setReg a (setFld (setFld (s.reg a) 33 22 (fld v 33 22)) 18 14 (fld v 18 14))
      funcWrite i (fld v 35 34) who s) s

/-- A write of PIN.GPIOi (R407, R419). -/
def opPinGpio (i : Nat) (who : Req) (v : Word) (s : State) : State :=
  pinOwned i who (fun s =>
    if pinOddDiff s i then s
    else
      let a := Reg.pinGpio i
      let s := s.setReg a (setFld (setFld (s.reg a) 8 6 (fld v 8 6)) 1 0 (fld v 1 0))
      if v.getLsbD 5 then s.setB a 5 false else s) s

/-- A write of PIN.DLYi (R402); a receive serialiser drives its own delay line (R403). -/
def opPinDly (i : Nat) (who : Req) (v : Word) (s : State) : State :=
  pinOwned i who (fun s =>
    let serRx := s.getB (Reg.pinCfg (i - i % 2)) 12 && (s.pn (i - i % 2)).img3.getLsbD 4
    if pinOddDiff s i || serRx then s
    else
      let a := Reg.pinDly i
      let s := s.setF a 9 0 (fld v 9 0)
      s.setB a 10 (fld v 8 0 != (s.pn i).tapAt.toNat)) s

/-- A write of PIN.EDGE_LO or EDGE_HI: each bit clears its pin's EDGE, unless the pin is another's (R414, R419). -/
def opPinEdge (ix : Nat) (who : Req) (v : Word) (s : State) : State :=
  forAll ((List.range 24).filter (fun j => v.getLsbD j)) (fun j s =>
    let i := 48 * (ix / 2) + 24 * (ix % 2) + j
    if pinWho s i who then s.setB (Reg.pinGpio i) 5 false else pinRefuse i who 1 s) s

/-- The pin's claim, with the pin as the resource (R49, R414); an odd pin of a differential pair is claimed through its even pin. -/
def opPinClaim (i : Nat) (who : Req) (v : Word) (s : State) : State :=
  if pinOddDiff s i then s else claimWrite (Reg.pinClaim i) ⟨1, i⟩ who v s

/-- IN of 24 pins (R419). -/
def pinInRead (s : State) (ix : Nat) : Word :=
  wd ((List.range 24).foldl (fun w j => w ||| (pinLevel s (48 * (ix / 2) + 24 * (ix % 2) + j)).toNat <<< j) 0)

/-- EDGE of 24 pins (R419). -/
def pinEdgeRead (s : State) (ix : Nat) : Word :=
  wd ((List.range 24).foldl (fun w j => w ||| s.getF (Reg.pinGpio (48 * (ix / 2) + 24 * (ix % 2) + j)) 5 5 <<< j) 0)

/-- The end of TPARK: the new source is connected (R411). -/
def opParkEnd (i : Nat) (s : State) : State :=
  if (s.pn i).stage = .parked then
    pinAt i s (s.setPn i { s.pn i with stage := .masked, conn := BitVec.ofNat 2 (pinFunc s i), testAt := s.evt.time })
  else s

/-- The end of the masked interval; a held function starts its own switch (R411, R413). -/
def opUnmask (i : Nat) (s : State) : State :=
  if (s.pn i).stage = .masked then
    let h := (s.pn i).heldFunc
    let s := s.setPn i { s.pn i with stage := .none, heldFunc := none }
    match h with
    | some f => if f = (s.pn i).conn then s else swStart i f.toNat s
    | none => s
  else s

/-- GPIO edge detection works on the pin (R407, R410). -/
def gpioDetects (s : State) (i : Nat) : Bool :=
  let p := s.pn i
  p.conn == 0 && p.stage == .none && !p.masked && pinRow s i == 11 && !p.barred && !pinOddDiff s i

/-- An edge that EDGE_MODE selects (R419). -/
def edgeWanted (mode : Nat) (rising : Bool) : Bool :=
  if rising then mode % 2 == 1 else 2 ≤ mode

/-- The level outside the pad moves, and the detector sees it (R407). -/
def opGpioEdge (i : Nat) (rising : Bool) (s : State) : State :=
  let s := s.setPn i { s.pn i with pad := some rising, keeper := match (pinDrive s i).level with
    | some b => some b
    | none => some rising }
  if gpioDetects s i ∧ edgeWanted (s.getF (Reg.pinGpio i) 8 7) rising then
    let s := s.setB (Reg.pinGpio i) 5 true
    if s.getB (Reg.pinGpio i) 6 then raise 0x905 0 (rising.toNat <<< 10 ||| i) s else s
  else s

/-- A receive pair of the image (R403). -/
def serRxPair (s : State) (pair : Nat) : Bool := s.getB (Reg.pinCfg (2 * pair)) 12 && (s.pn (2 * pair)).img3.getLsbD 4

/-- The aligner locks, or loses lock (R403). -/
def opSerLock (pair : Nat) (locked : Bool) (s : State) : State :=
  let a := Reg.pinSer pair
  let p := s.pn (2 * pair)
  if !serRxPair s pair || s.getB a 0 == locked then s
  else if locked then
    let s := State.setB (s.setPn (2 * pair) { p with lostLock := false }) a 0 true
    if p.lostLock then raise 0x904 0 pair s else s
  else raise 0x904 0 (1 <<< 9 ||| pair)
    (((s.setPn (2 * pair) { p with lostLock := true }).setB a 0 false).setB a 1 true)

/-- The delay line reaches TAPS (R402). -/
def opDelayDone (i : Nat) (s : State) : State :=
  State.setB (s.setPn i { s.pn i with tapAt := BitVec.ofNat 9 (s.getF (Reg.pinDly i) 8 0) }) (Reg.pinDly i) 10 false

/-- One CK_SVC cycle of a delay line: one tap (R402). -/
def delayStep (i : Nat) (s : State) : State :=
  let want := s.getF (Reg.pinDly i) 8 0
  let at' := (s.pn i).tapAt.toNat
  let next := if at' < want then at' + 1 else if want < at' then at' - 1 else at'
  State.setB (s.setPn i { s.pn i with tapAt := BitVec.ofNat 9 next }) (Reg.pinDly i) 10 (next != want)

/-! ### Pins of a peripheral (R351, R408, R416) -/

/-- The pins that a peripheral uses (R408, R416). -/
def periphPins (f : Func) : List Nat :=
  match f with
  | .serial k =>
    if k.val < 2 then [672 + 2 * k.val, 673 + 2 * k.val]
    else if k.val < 4 then (List.range 7).map (fun j => 676 + 7 * (k.val - 2) + j)
    else [690 + 2 * (k.val - 4), 691 + 2 * (k.val - 4)]
  | .tmr k => [694 + k.val]
  | _ => []

/-- The ID under which a peripheral claims (R50, R416). -/
def periphId (s : State) (f : Func) : Nat :=
  match f with
  | .serial k => 0x20 + k.val
  | .tmr k => let o := s.getF (Reg.scrTmrClaim k.val) 7 0; if o = 0 then 1 else o
  | _ => 0

/-- A peripheral claims one pin; a grant switches it to PERIPH (R416). -/
def periphClaim1 (id i : Nat) (s : State) : State :=
  let s' := claimGrant (Reg.pinClaim i) ⟨1, i⟩ (BitVec.ofNat 8 id) id s
  if s.getF (Reg.pinClaim i) 7 0 = 0 ∧ knownReq id then funcSet i 2 s' else s'

/-- A peripheral lets one of its pins go: it returns to GPIO with OE 0 through a switch (R413). -/
def periphDrop1 (i : Nat) (s : State) : State :=
  if pinFunc s i = 2 ∨ (s.pn i).heldFunc = some 2 then
    funcSet i 0 ((s.setF (Reg.pinClaim i) 7 0 0).setB (Reg.pinGpio i) 1 false)
  else s

/-- A start claims the peripheral's pins; a refused claim gives back the pins taken and is a fault (R351, R413). -/
def periphClaim (f : Func) (s : State) : State :=
  let id := periphId s f
  let pins := periphPins f
  let ok := pins.all (fun i => s.getF (Reg.pinClaim i) 7 0 == 0)
  let s := forAll pins (periphClaim1 id) s
  if ok then s else fnFaultNow f (forAll pins periphDrop1 s)

/-- A stop releases the pins (R351). -/
def periphRelease (f : Func) (s : State) : State := forAll (periphPins f) periphDrop1 s

/-- A function switch of every pin the peripheral uses has ended (R413). -/
def periphSettled (f : Func) (s : State) : Bool := (periphPins f).all (fun i => (s.pn i).stage == .none)

/-! ### Commands -/

def execPinCfgWrite (who : Req) (pin : Fin 720) (v : Word) (s : State) : Host.Outcome State Fault Refusal :=
  .next (gateW who (Reg.pinCfg pin.val) (opPinCfg pin.val who v) s)

def execParkEnd (pin : Fin 720) (s : State) : Host.Outcome State Fault Refusal := .next (opParkEnd pin.val s)

def execSwitchUnmask (pin : Fin 720) (s : State) : Host.Outcome State Fault Refusal := .next (opUnmask pin.val s)

def execGpioWrite (who : Req) (pin : Fin 720) (v : Word) (s : State) : Host.Outcome State Fault Refusal :=
  .next (gateW who (Reg.pinGpio pin.val) (opPinGpio pin.val who v) s)

def execGpioEdge (pin : Fin 720) (rising : Bool) (s : State) : Host.Outcome State Fault Refusal :=
  .next (opGpioEdge pin.val rising s)

def execPinDlyWrite (who : Req) (pin : Fin 720) (v : Word) (s : State) : Host.Outcome State Fault Refusal :=
  .next (gateW who (Reg.pinDly pin.val) (opPinDly pin.val who v) s)

def execSerialiserLock (pair : Fin 360) (locked : Bool) (s : State) : Host.Outcome State Fault Refusal :=
  .next (opSerLock pair.val locked s)

def execDelayMoveComplete (pin : Fin 720) (s : State) : Host.Outcome State Fault Refusal := .next (opDelayDone pin.val s)

/-- Two CK_SVC cycles after an override ends the detectors are unmasked (R410). -/
def execOverrideMaskEnd (pin : Fin 720) (s : State) : Host.Outcome State Fault Refusal :=
  .next (s.setPn pin.val { s.pn pin.val with masked := false })

end Sys2Proof.Machine
end

