-- ==== Sys2Proof/Machine/Scratch.lean ====
section
/-! DEFINITION. The scratchpad: ownership of its banks (R356, R357), accesses and merges with SECDED (R358); the interrupt
controller (R350); the core's serial controllers and timers (R351 to R353). -/

namespace Sys2Proof.Machine

/-! ### Words -/

/-- The stored word at an offset: where nothing is listed, zero in a bank that a destructive run zeroed, undefined otherwise. -/
def scrCell (s : State) (off : Nat) : Cell :=
  match Store.get (fun _ => none) s.scr.mem off with
  | some c => c
  | none =>
    if s.scr.zeroed.getLsbD (scrBank off) then {}
    else { data := (Config.scratchInit s.scr.epoch off).1, err := (Config.scratchInit s.scr.epoch off).2 }

/-- The lowest wrong bit of a stored word. -/
def errBit (c : Cell) : Nat := ((List.range 43).find? (fun i => c.err.getLsbD i)).getD 0

/-- A corrected single-bit error: written back, counted, reported (R358). -/
def scrCorrected (off : Nat) (who : Req) (bit : Nat) (w : Word) (s : State) : State :=
  let s := scrSet off { data := w } s
  let s := s.count Reg.scrEccCorr 35 0
  raise 0x802 0 (bit <<< 21 ||| off) (s.setReg Reg.scrEccLast (wd (who.toNat <<< 21 ||| off)))

/-- An uncorrectable word: a bus error, counted and recorded; the word stays as it is (R358). -/
def scrBad (off : Nat) (who : Req) (s : State) : State :=
  let s := s.count Reg.scrEccUncorr 35 0
  busErr (raise 0x803 0 (who.toNat <<< 21 ||| off) (s.setReg Reg.scrEccLast (wd (1 <<< 35 ||| who.toNat <<< 21 ||| off))))

/-- A read of a word that the requester may read: `k` goes on with the word (R358). -/
def scrFetch (off : Nat) (who : Req) (k : Word → State → State) (s : State) : State :=
  let s := beaterYield off s
  match (scrCell s off).chk with
  | .good w => k w s
  | .corrected w => k w (scrCorrected off who (errBit (scrCell s off)) w s)
  | .bad => scrBad off who s

/-! ### Ownership -/

/-- OWNER of a bank. -/
def bankOwner (s : State) (b : Nat) : Nat := s.getF (Reg.scrBankClaim b) 7 0

/-- The owner, or any master while the bank is unowned. -/
def bankMine (s : State) (b : Nat) (who : Req) : Bool := bankOwner s b == 0 || bankOwner s b == who.toNat

/-- How a bank serves an access: 0 served, 1 not the owner, 2 under a destructive run (R356). -/
def bankServes (s : State) (who : Req) (off : Nat) (write : Bool) : Nat :=
  let b := scrBank off
  if (beaterHeld s).getLsbD b then 2
  else if who = 0 ∨ who = rqEvt ∨ (who = rqDbg ∧ dbgLevel s = 2) ∨ bankMine s b who then 0
  else if ¬ write ∧ s.getB (Reg.scrBankCfg b) 0 then 0
  else 1

/-- An ownership fault: E804 and a bus error; a read returns zero (R356, R364). -/
def scrFault (who : Req) (off : Nat) (write : Bool) (cause : Nat) (s : State) : State :=
  busErr (raise 0x804 0 (cause <<< 30 ||| write.toNat <<< 29 ||| who.toNat <<< 21 ||| off) s)

/-- With ABORT_ON_ACCESS the first access to a bank under a destructive run aborts that bank's test; the other banks go on (R364). -/
def beaterDropBank (who : Req) (b : Nat) (s : State) : State :=
  let one : BitVec 16 := 1 <<< b
  let s := scrForget one s
  let left := s.scr.beater.active &&& ~~~one
  let s := { s with scr := { s.scr with beater := { s.scr.beater with active := left } } }
  let s := raise 0x807 0 (1 <<< 12 ||| who.toNat <<< 4 ||| b) s
  if left = 0 then
    let s := { s with scr := { s.scr with beater := {} } }
    ((s.setF Reg.scrBeaterStatus 31 30 3).setB Reg.scrBeaterCtrl 0 false).setFn .beater fnStopping
  else s

/-- Serve an access by `op`, or refuse it (R356, R364). -/
def scrGate (who : Req) (off : Nat) (write : Bool) (op : State → State) (s : State) : State :=
  match bankServes s who off write with
  | 0 => op s
  | 1 => scrFault who off write 1 s
  | _ =>
    if s.getB Reg.scrBeaterXcfg 0 then
      let s := beaterDropBank who (scrBank off) s
      if bankServes s who off write = 0 then op s else scrFault who off write 1 s
    else scrFault who off write 2 s

/-- A read of a whole word. -/
def scrRead (who : Req) (off : Nat) (s : State) : State := scrGate who off false (scrFetch off who answer) s

/-- A write of a whole word stores new check bits (R358). -/
def scrWrite (who : Req) (off : Nat) (v : Word) (s : State) : State := scrGate who off true (scrPut off v) s

/-- A partial write: merged with the stored word by `f`; the old word is answered (R358). -/
def scrMerge (who : Req) (off : Nat) (f : Word → Word) (s : State) : State :=
  scrGate who off true (scrFetch off who (fun w s => answer w (scrPut off (f w) s))) s

/-- A hard unit reads a structure of its own (R356): an uncorrectable word gives it no value. -/
def unitRead (off : Nat) (s : State) : Word × State :=
  let t := scrRead 0 off (begin 0 s)
  let t' := { t with resp := s.resp }
  if t.resp.err ∧ bankServes t 0 off false = 0 then (Config.freeWord t.free, t'.draw) else (t.resp.data, t')

/-- A hard unit writes a structure of its own (R356). -/
def unitWrite (off : Nat) (v : Word) (s : State) : State := { scrWrite 0 off v (begin 0 s) with resp := s.resp }

/-- The scratchpad is awake and the requester is served (R28, R31, R359). -/
def scrUp (s : State) (who : Req) : Bool := (allAnswer s || s.mode == .failsafe) && served s who

def opScratch (who : Req) (off : Nat) (write : Option Word) (s : State) : State :=
  let s := begin who s
  if scrUp s who then
    match write with
    | some v => scrWrite who off v s
    | none => scrRead who off s
  else s

/-- A further word of a read beat; an uncorrectable one reads zero with the beat's bus error (R354, R358). -/
def beatWord (who : Req) (off : Nat) (s : State) : State :=
  let t := scrFetch off who answer { s with resp := { s.resp with data := 0 } }
  { t with resp := { t.resp with data := s.resp.data, more := s.resp.more ++ [t.resp.data] } }

/-- The further words of a beat, which reaches only words of one aligned group of four (R354). -/
def beatRest (off : Nat) (more : List Word) : List (Word × Nat) := (more.take (3 - off % 4)).zipIdx (off + 1)

/-- One beat: the word at `off` and up to three that follow it in its group, whole and without another access between them (R27, R354);
of a read only the number of further words counts. -/
def opBeat (who : Req) (off : Nat) (write : Option Word) (more : List Word) (s : State) : State :=
  let s := begin who s
  if scrUp s who then
    match write with
    | some v => scrGate who off true (fun s => forAll (beatRest off more) (fun e => scrPut e.2 e.1) (scrPut off v s)) s
    | none => scrGate who off false (fun s => forAll (beatRest off more) (fun e => beatWord who e.2) (scrFetch off who answer s)) s
  else s

/-- The number m of a master's SCR.CONFLICTm (R368). -/
def conflictIx (who : Req) : Option Nat :=
  let w := who.toNat
  if 0x10 ≤ w ∧ w < 0x18 then some (w - 0x10 + 4)
  else match w with
    | 1 => some 0
    | 2 => some 13
    | 3 => some 14
    | 4 => some 14
    | 5 => some 12
    | 6 => some 15
    | _ => none

/-- Cycles that a beat waited for a busy sub-bank are counted for its master (R355). -/
def beatWaited (who : Req) (waits : Nat) (s : State) : State :=
  match conflictIx who with
  | some m => s.setF (Reg.scrConflict m) 35 0 (min (s.getF (Reg.scrConflict m) 35 0 + waits) (2 ^ 36 - 1))
  | none => s

/-! ### Bank registers (R357) -/

/-- Every change of owner clears SHARED_READ (R357). -/
def bankClaim (b : Nat) (op : State → State) (s : State) : State :=
  let t := op s
  if bankOwner t b = bankOwner s b then t else t.setB (Reg.scrBankCfg b) 0 false

def opBankClaim (b : Nat) (who : Req) (v : Word) (s : State) : State :=
  bankClaim b (claimWrite (Reg.scrBankClaim b) ⟨3, b⟩ who v) s

/-- A handover by the owner; to 0x00 it releases the bank (R357). -/
def opHandover (b : Nat) (who : Req) (v : Word) (s : State) : State :=
  let id := fld v 7 0
  bankClaim b (fun s =>
    if bankOwner s b = who.toNat ∧ who ≠ 0 ∧ (id = 0 ∨ knownReq id) then s.setF (Reg.scrBankClaim b) 7 0 id
    else claimRefuse (Reg.scrBankClaim b) ⟨3, b⟩ who s) s

/-- SHARED_READ is the owner's (R357). -/
def opBankCfg (b : Nat) (who : Req) (v : Word) (s : State) : State :=
  if bankMine s b who then s.setB (Reg.scrBankCfg b) 0 (v.getLsbD 0)
  else busErr (raise 0x804 0 (1 <<< 32 ||| 1 <<< 30 ||| 1 <<< 29 ||| who.toNat <<< 21 ||| b * 131072) s)

/-- BANKn_CFG as it reads: bit 1 is BEATER (R368). -/
def bankCfgRead (s : State) (b : Nat) : Word :=
  wd (s.getF (Reg.scrBankCfg b) 0 0 ||| ((beaterHeld s).getLsbD b).toNat <<< 1)

/-! ### Interrupts (R350) -/

/-- A read of IRQ_TAKE. -/
def opIrqTake (peek : Bool) (s : State) : State :=
  let n := irqBest s
  let s := answer (wd n) s
  if peek ∨ n = 0 then s
  else
    let s := { s with scr := { s.scr with inService := s.scr.inService ++ [n] } }
    if irqIsLevel n then s else s.setB (Reg.scrIrqPend (n / 32)) (n % 32) false

def opIrqDone (v : Word) (s : State) : State :=
  { s with scr := { s.scr with inService := s.scr.inService.filter (· ≠ fld v 6 0) } }

/-- SCR.IRQ_PEND as it reads: a level source is pending while its level is high. -/
def irqPendRead (s : State) (k : Nat) : Word :=
  wd ((List.range 32).foldl (fun w i => w ||| (irqPending s (32 * k + i)).toNat <<< i) 0)

/-! ### Serial controllers and timers (R351 to R353) -/

/-- A peripheral's registers answer its owner, and every master while it is unowned (R351). -/
def periphMine (claim : Nat) (who : Req) (s : State) : Bool := s.getF claim 7 0 == 0 || s.getF claim 7 0 == who.toNat

def periphOwned (claim : Nat) (who : Req) (op : State → State) (s : State) : State :=
  if periphMine claim who s then op s else busErr s

/-- The data bits of a TX entry (R368). -/
def serTxMask (k : Nat) : Nat := if k < 2 then 0xFF else if k < 4 then 0x1FFFFFFFF else 0xFFF

/-- A write of TX: queued, or dropped and counted when the buffer is full (R353). -/
def opSerTx (k : Nat) (who : Req) (v : Word) (s : State) : State :=
  periphOwned (Reg.scrSerClaim k) who (fun s =>
    let p := s.ser k
    if p.tx.length < 64 then s.setSer k { p with tx := p.tx ++ [wd (v.toNat &&& serTxMask k)] }
    else s.setSer k { p with ovf := p.ovf + 1 }) s

/-- EMPTY of an RX read (R368). -/
def serEmpty (k : Nat) : Word := if 2 ≤ k ∧ k < 4 then wd (1 <<< 35) else wd (1 <<< 11)

/-- A read of RX pops one entry. -/
def opSerRx (k : Nat) (who : Req) (peek : Bool) (s : State) : State :=
  periphOwned (Reg.scrSerClaim k) who (fun s =>
    match (s.ser k).rx with
    | [] => answer (serEmpty k) s
    | e :: rest => if peek then answer e s else answer e (s.setSer k { s.ser k with rx := rest })) s

/-- Store an RX entry; a full buffer drops it, and the next entry stored carries OVF_BEFORE, which a UART's entries have a bit for (R353). -/
def serStore (k : Nat) (e : Nat) (s : State) : State :=
  let p := s.ser k
  if p.rx.length < 64 then
    s.setSer k { p with rx := p.rx ++ [wd (e ||| (if p.ovfBefore ∧ k < 2 then 1 <<< 10 else 0))], ovfBefore := false }
  else s.setSer k { p with ovfBefore := true }

/-- STATUS of a controller: TX_FREE and RX_COUNT (R368). -/
def serStatRead (s : State) (k : Nat) : Word :=
  setFld (setFld (s.reg (Reg.scrSerStatus k)) 29 23 (64 - (s.ser k).tx.length)) 22 16 (s.ser k).rx.length

/-- SPI word width, or a byte. -/
def serWidth (s : State) (k : Nat) : Nat :=
  if 2 ≤ k ∧ k < 4 then
    (match s.getF (Reg.scrSpiCfg (k - 2)) 22 21 with
     | 1 => 16
     | 2 => 32
     | _ => 8)
  else 8

/-- The transfer of one TX entry ends; SPI and I2C store an RX entry for it (R352, R353, R368). A UART in LOOP receives its own byte. -/
def opTransferEnd (k : Nat) (rx : BitVec 32) (nacked : Bool) (s : State) : State :=
  let p := s.ser k
  match p.tx with
  | [] => s
  | e :: rest =>
    if s.fn (.serial (Fin.ofNat 6 k)) ≠ fnOn ∨ rootStopped s then s
    else
      let s := s.setSer k { p with tx := rest }
      if k < 2 then
        (if s.getB (Reg.scrUartCfg k) 0 then serStore k (e.toNat % 256) s else s)
      else if k < 4 then serStore k (rx.toNat % 2 ^ serWidth s k) s
      else serStore k (rx.toNat % 256 ||| nacked.toNat <<< 8) s

def State.setTmr (s : State) (k : Nat) (t : Timer) : State :=
  { s with scr := { s.scr with tmr := Store.set (fun _ => {}) s.scr.tmr k t } }

def tmrMode (s : State) (k : Nat) : Nat := s.getF (Reg.scrTmrCfg k) 1 0

/-- The level that a timer's pin has (R352): one-shot high until the match, PWM high while COUNT is below CMP_B. -/
def tmrPin (k : Nat) (b : Bool) (s : State) : State :=
  if s.getB (Reg.scrTmrCfg k) 8 then s.setTmr k { s.tmrSt k with pinLevel := b } else s

/-- COUNT reaches COMPARE (R352). -/
def opTimerMatch (k : Nat) (s : State) : State :=
  let f := Func.tmr (Fin.ofNat 16 k)
  if s.fn f ≠ fnOn ∨ rootStopped s then s
  else
    let irqEn := s.getB (Reg.scrTmrCfg k) 7
    let irq := fun s => if irqEn then irqPulse (32 + k) s else s
    match tmrMode s k with
    | 0 => periphRelease f (tmrPin k false (irq ((s.setB (Reg.scrTmrCtrl k) 0 false).setFn f fnOff)))
    | 1 => tmrPin k (!(s.tmrSt k).pinLevel) (irq (s.setReg (Reg.scrTmrCount k) 0))
    | 2 => irq (tmrPin k (decide (0 < s.getF (Reg.scrTmrCmpB k) 31 0)) (s.setReg (Reg.scrTmrCount k) 0))
    | _ => s.setReg (Reg.scrTmrCount k) 0

/-- A rising edge at the pin in capture mode copies COUNT into CMP_B (R352); the input is masked during a switch or after an
override (R410, R412). -/
def opTimerCapture (k : Nat) (s : State) : State :=
  let p := s.pn (694 + k)
  if s.fn (.tmr (Fin.ofNat 16 k)) = fnOn ∧ ¬ rootStopped s ∧ tmrMode s k = 3 ∧ s.getB (Reg.scrTmrCfg k) 8 ∧ p.conn = 2 ∧ p.stage = .none ∧ ¬ p.masked
      ∧ pinRow s (694 + k) = 11 then
    let s := s.setReg (Reg.scrTmrCmpB k) (s.reg (Reg.scrTmrCount k))
    if s.getB (Reg.scrTmrCfg k) 7 then irqPulse (32 + k) s else s
  else s

/-- A byte arrives at a UART's pin (R353). -/
def opUartByte (k : Nat) (data : Byte) (parityErr frameErr : Bool) (s : State) : State :=
  let p := s.pn (673 + 2 * k)
  if s.fn (.serial (Fin.ofNat 6 k)) = fnOn ∧ ¬ rootStopped s ∧ ¬ s.getB (Reg.scrUartCfg k) 0 ∧ p.stage = .none ∧ ¬ p.masked
      ∧ pinRow s (673 + 2 * k) = 11 then
    serStore k (data.toNat ||| parityErr.toNat <<< 8 ||| frameErr.toNat <<< 9) s
  else s

/-! ### Commands -/

/-- A beat of a master, which waited for busy sub-banks as it says (R354, R355). -/
def execScratchpadAccess (who : Req) (off : Fin 2097152) (b : Beat) (s : State) : Host.Outcome State Fault Refusal :=
  .next (opBeat who off.val b.write b.more (if b.waits = 0 ∨ !scrUp s who then s else beatWaited who b.waits s))

/-- An access to a bank under a preserving run is served once the Beater has yielded (R365). -/
def execBeaterYield (who : Req) (off : Fin 2097152) (write : Option Word) (s : State) : Host.Outcome State Fault Refusal :=
  .next (opScratch who off.val write s)

/-- An access to a bank under a destructive run (R364). -/
def execBeaterAbortOnAccess (who : Req) (off : Fin 2097152) (write : Option Word) (s : State) : Host.Outcome State Fault Refusal :=
  .next (opScratch who off.val write s)

def execIrqTake (who : Req) (peek : Bool) (s : State) : Host.Outcome State Fault Refusal :=
  .next (gateR who Reg.scrIrqTake (opIrqTake (peeks who peek)) s)

def execIrqDone (who : Req) (v : Word) (s : State) : Host.Outcome State Fault Refusal :=
  .next (gateW who Reg.scrIrqDone (opIrqDone v) s)

def execBankHandover (who : Req) (bank : Fin 16) (v : Word) (s : State) : Host.Outcome State Fault Refusal :=
  .next (gateW who (Reg.scrBankHandover bank.val) (opHandover bank.val who v) s)

def execBankCfgWrite (who : Req) (bank : Fin 16) (v : Word) (s : State) : Host.Outcome State Fault Refusal :=
  .next (gateW who (Reg.scrBankCfg bank.val) (opBankCfg bank.val who v) s)

def execUartTx (who : Req) (k : Fin 2) (v : Word) (s : State) : Host.Outcome State Fault Refusal :=
  .next (gateW who (Reg.scrSerTx k.val) (opSerTx k.val who v) s)

def execUartRxRead (who : Req) (k : Fin 2) (peek : Bool) (s : State) : Host.Outcome State Fault Refusal :=
  .next (gateR who (Reg.scrSerRx k.val) (opSerRx k.val who (peeks who peek)) s)

def execUartByteReceived (k : Fin 2) (data : Byte) (parityErr frameErr : Bool) (s : State) : Host.Outcome State Fault Refusal :=
  .next (opUartByte k.val data parityErr frameErr s)

def execSpiTx (who : Req) (k : Fin 2) (v : Word) (s : State) : Host.Outcome State Fault Refusal :=
  .next (gateW who (Reg.scrSerTx (k.val + 2)) (opSerTx (k.val + 2) who v) s)

def execI2cTx (who : Req) (k : Fin 2) (v : Word) (s : State) : Host.Outcome State Fault Refusal :=
  .next (gateW who (Reg.scrSerTx (k.val + 4)) (opSerTx (k.val + 4) who v) s)

def execPeripheralTransferComplete (k : Fin 6) (rx : BitVec 32) (nacked : Bool) (s : State) : Host.Outcome State Fault Refusal :=
  .next (opTransferEnd k.val rx nacked s)

def execTimerMatch (k : Fin 16) (s : State) : Host.Outcome State Fault Refusal := .next (opTimerMatch k.val s)

def execTimerCapture (k : Fin 16) (s : State) : Host.Outcome State Fault Refusal := .next (opTimerCapture k.val s)

end Sys2Proof.Machine
end

