-- ==== Sys2Proof/Machine/Beater.lean ====
section
/-! DEFINITION. The Beater: runs, refusals, soft repair, results (R360 to R367). -/

namespace Sys2Proof.Machine

/-- The bank in a set. -/
def bankBit (b : Nat) : BitVec 16 := 1 <<< b

/-- Why a request is refused (R363); 0: it is not. -/
def beaterReason (s : State) (banks : BitVec 16) (destruct : Bool) : Nat :=
  if banks = 0 then 1
  else if destruct ∧ s.getB Reg.sysEvtCtrl 0 ∧ banks.getLsbD (scrBank (s.reg Reg.sysEvtBase).toNat) then 2
  else if destruct ∧ s.fn .flc ≠ fnOff ∧ banks.getLsbD (scrBank (s.reg Reg.flcRingBase).toNat) then 3
  else 0

/-- A run starts: its banks are held from now on, and STATE goes over STARTING to ON (R46, R361, R362). A run that the start-up settings or
MARCH ask for has ENABLE set by the part, which clears it at the run's end (DEDUCED: log entry 100). -/
def beaterRun (banks : BitVec 16) (ss destruct repair fromSvc : Bool) (s : State) : State :=
  let s := { s with scr := { s.scr with beater :=
    { running := true, destruct := destruct, ss := ss, repair := repair, banks := banks, active := banks, fromSvc := fromSvc } } }
  let s := (s.setReg Reg.scrBeaterFail 0).setF Reg.scrBeaterStatus 31 29 0
  (s.setB Reg.scrBeaterCtrl 0 true).setFn .beater fnStarting

/-- ENABLE = 1 asks for a run over BANKS; a refused request leaves the Beater OFF (R362, R363). -/
def beaterStart (s : State) : State :=
  let banks := BitVec.ofNat 16 (s.getF Reg.scrBeaterCtrl 31 16)
  let destruct := s.getB Reg.scrBeaterCtrl 9
  let r := beaterReason s banks destruct
  if r = 0 then beaterRun banks (s.getB Reg.scrBeaterCtrl 8) destruct (s.getB Reg.scrBeaterCtrl 10) false s
  else raise 0x808 0 r (s.setB Reg.scrBeaterCtrl 0 false)

/-- BEATER_STATUS.BANK shows the lowest bank still in progress (R368). -/
def beaterStatRead (s : State) : Word :=
  setFld (s.reg Reg.scrBeaterStatus) 35 32 (lowBank s.scr.beater.active)

/-- Map a row of a bank onto the next free spare, if there is one (R366). -/
def spareTake (b row : Nat) (s : State) : State :=
  let a := Reg.scrBankRepair b
  let n := s.getF a 35 33
  (s.setF a (7 * n + 6) (7 * n) row).setF a 35 33 (n + 1)

/-- One failure of the run: bank, word in bank, bit. -/
abbrev BFail := Fin 16 × Fin 131072 × Fin 43

def BFail.row (f : BFail) : Nat := f.2.1.val / 1024

/-- A later failure of the same row: the spare that the row was mapped onto failed too. -/
def failsAgain (f : BFail) (rest : List BFail) : Bool := rest.any (fun g => g.1 == f.1 && g.row == f.row)

/-- The first failure and the number of failing rows (R368). -/
def beaterFail (f : BFail) (repaired : Bool) (s : State) : State :=
  let a := Reg.scrBeaterFail
  let n := s.getF a 7 0
  let s := if n = 0 then
      s.setReg a (wd (f.1.val <<< 32 ||| f.2.1.val <<< 15 ||| f.2.2.val <<< 9 ||| repaired.toNat <<< 8))
    else s
  s.setF a 7 0 (satInc n 255)

/-- Detail of E806 (R367). -/
def failDetail (f : BFail) (repaired : Bool) : Nat :=
  repaired.toNat <<< 27 ||| f.2.2.val <<< 21 ||| f.2.1.val <<< 4 ||| f.1.val

def failEvent (f : BFail) (repaired : Bool) (s : State) : State := raise 0x806 0 (failDetail f repaired) s

/-- The failures in order: a destructive run with REPAIR maps each failing row onto a spare, and onto the next one when that spare
fails; a row that finds no spare left ends with E809; without repair every failure is reported (R366). The first failure that is
reported as one is kept: its code and detail. -/
def beaterFails (repair : Bool) : List BFail → Option (Nat × Nat) × State → Option (Nat × Nat) × State
  | [], r => r
  | f :: rest, (ok, s) =>
    if repair then
      if s.getF (Reg.scrBankRepair f.1.val) 35 33 < 4 then
        let s := spareTake f.1.val f.row s
        if failsAgain f rest then beaterFails repair rest (ok, s)
        else beaterFails repair rest (ok, failEvent f true (beaterFail f true s))
      else beaterFails repair rest (some (ok.getD (0x809, f.row <<< 4 ||| f.1.val)),
        raise 0x809 0 (f.row <<< 4 ||| f.1.val) (beaterFail f false s))
    else beaterFails repair rest (some (ok.getD (0x806, failDetail f false)), failEvent f false (beaterFail f false s))

/-- The end of a run: banks of a destructive run are zero with valid check bits, ENABLE is cleared, STATE goes over STOPPING to OFF, E805 if every
bank passed (R361, R362). `fails` is what the march found: each failing word of a row, and after a mapping of its spare. -/
def beaterEnd (fails : List BFail) (s : State) : Option (Nat × Nat) × State :=
  let b := s.scr.beater
  let r := beaterFails (b.repair && b.destruct) (fails.filter (fun f => b.active.getLsbD f.1.val)) (none, s)
  let s := r.2
  let s := if b.destruct then
      { s with scr := { s.scr with mem := Store.keep (fun off => !b.active.getLsbD (scrBank off)) s.scr.mem,
                                   zeroed := s.scr.zeroed ||| b.active } }
    else s
  let s := { s with scr := { s.scr with beater := {} } }
  let s := (s.setF Reg.scrBeaterStatus 31 30 (if r.1.isNone then 1 else 2)).setF Reg.scrBeaterStatus 29 29 0
  let s := (s.setB Reg.scrBeaterCtrl 0 false).setFn .beater fnStopping
  (r.1, if r.1.isNone then raise 0x805 0 b.banks.toNat s else s)

/-- A write of BEATER_CTRL: the run's settings are those held when ENABLE is set; clearing ENABLE aborts, after a start under way has
ended (R46, R362). -/
def beaterCtrl (who : Req) (enable : Bool) (s : State) : State :=
  if enable then (if s.fn .beater = fnOff then beaterStart s else s)
  else if s.fn .beater = fnStarting then { s with scr := { s.scr with beater := { s.scr.beater with stopBy := who } } }
  else beaterAbort who 2 s

/-- Settings written, then what ENABLE asks for; PROFILE 0 is the only profile, so no write changes PROFILE (R47). -/
def opBeaterCtrl (who : Req) (v : Word) (s : State) : State :=
  let keep := (s.reg Reg.scrBeaterCtrl).toNat &&& 0xF0
  beaterCtrl who (v.getLsbD 0) (s.setReg Reg.scrBeaterCtrl (wd (v.toNat &&& 0xFFFF0703 ||| keep)))

/-! ### Commands -/

def execBeaterStart (who : Req) (v : Word) (s : State) : Host.Outcome State Fault Refusal :=
  .next (gateW who Reg.scrBeaterCtrl (opBeaterCtrl who (v ||| 1)) s)

def execBeaterAbort (who : Req) (v : Word) (s : State) : Host.Outcome State Fault Refusal :=
  .next (gateW who Reg.scrBeaterCtrl (opBeaterCtrl who (v &&& ~~~(1 : Word))) s)

/-- The banks under a preserving run have been idle for 256 CK_SYS cycles: the blocks are saved again and restarted (R365). -/
def execBeaterBlockRestart (s : State) : Host.Outcome State Fault Refusal :=
  .next (State.setB { s with scr := { s.scr with beater := { s.scr.beater with waiting := 0 } } } Reg.scrBeaterStatus 29 false)

end Sys2Proof.Machine
end

