-- ==== Sys2Proof/Machine/EngineMem.lean ====
section
/-! DEFINITION. The stores of the Rhorax engine: contexts, key table and stash, wildcard table with their SECDED words (R236 to R243,
R261 to R263), the placement of keys (R242), the event buffer (R282), preload (R183, R265). -/

namespace Sys2Proof.Machine

open Crypto

/-! ### Events (R282, R287) -/

/-- Everything in the on-engine event buffer goes to the event unit, oldest first; the event path is a master that FAILSAFE does not serve
(R24, R28). The buffer drains with each CK_SVC cycle (DESIGN CHOICE: log entry 107). -/
def engDrain (s : State) : State :=
  if s.mode = .failsafe then s
  else forAll s.eng.evBuf (fun e => raise e.1 e.2.1 e.2.2.toNat) { s with eng := { s.eng with evBuf := [] } }

/-- An engine event enters the 64-entry buffer, or is dropped and counted (R282). -/
def engEvent (code : Code) (src : Req) (detail : Nat) (s : State) : State :=
  if s.eng.evBuf.length < 64 then { s with eng := { s.eng with evBuf := s.eng.evBuf ++ [(code, src, wd detail)] } }
  else State.count { s with eng := { s.eng with evLost := s.eng.evLost + 1 } } (Reg.rhxCnt 7) 35 0

/-! ### Words -/

def engCells (m : EngMem) (e : Engine) : Store Cell :=
  match m with
  | .context => e.ctx
  | .key => e.key
  | .stash => e.stash
  | .wildcard => e.wc

def State.engCell (s : State) (m : EngMem) (ix : Nat) : Cell := Store.get (fun _ => {}) (engCells m s.eng) ix

def State.setEng (s : State) (m : EngMem) (ix : Nat) (c : Cell) : State :=
  let put := fun (t : Store Cell) => Store.set (fun _ => {}) t ix c
  match m with
  | .context => { s with eng := { s.eng with ctx := put s.eng.ctx } }
  | .key => { s with eng := { s.eng with key := put s.eng.key } }
  | .stash => { s with eng := { s.eng with stash := put s.eng.stash } }
  | .wildcard => { s with eng := { s.eng with wc := put s.eng.wc } }

/-- A read with SECDED: a corrected word is written back and counted (R261); none when it is uncorrectable. -/
def engRead (m : EngMem) (ix : Nat) (s : State) : Option Word × State :=
  match (s.engCell m ix).chk with
  | .good w => (some w, s)
  | .corrected w => (some w, (s.setEng m ix { data := w }).count (Reg.rhxCnt 1) 35 0)
  | .bad => (none, s)

/-- Read `n` words from `ix` on: none for the uncorrectable ones. -/
def engReads (m : EngMem) : Nat → Nat → State → List (Option Word) × State
  | _, 0, s => ([], s)
  | ix, n + 1, s =>
    let r := engRead m ix s
    let t := engReads m (ix + 1) n r.2
    (r.1 :: t.1, t.2)

def engPuts (m : EngMem) (ix : Nat) (ws : List Word) (s : State) : State :=
  forAll ws.zipIdx (fun w s => s.setEng m (ix + w.2) { data := w.1 }) s

/-! ### Contexts (R236, R237, R263) -/

/-- Words of a context. -/
def ctxSize (s : State) : Nat := if s.eng.ctx8 then 8 else 4

/-- Contexts in the store. -/
def ctxCount (s : State) : Nat := if s.eng.ctx8 then 524288 else 1048576

def isPoisoned (s : State) (c : Nat) : Bool := Store.get (fun _ => false) s.eng.poison c

def setPoison (c : Nat) (b : Bool) (s : State) : State :=
  { s with eng := { s.eng with poison := Store.set (fun _ => false) s.eng.poison c b } }

/-- Poison a context whose word is uncorrectable (R261, R263): E502. -/
def ctxPoison (c word : Nat) (patrol : Bool) (s : State) : State :=
  if isPoisoned s c then s
  else engEvent 0x502 rqEvt (patrol.toNat <<< 23 ||| word <<< 20 ||| c) ((setPoison c true s).count (Reg.rhxCnt 2) 35 0)

/-- The words of a context, or none after an uncorrectable one has poisoned it. -/
def ctxWords (c : Nat) (s : State) : Option (List Word) × State :=
  let r := engReads .context (ctxSize s * c) (ctxSize s) s
  match r.1.findIdx? Option.isNone with
  | some i => (none, ctxPoison c i false r.2)
  | none => (some (r.1.map (fun w => w.getD 0)), r.2)

/-! ### Key entries (R239 to R242) -/

/-- Where an entry lies: bucket slots 0 to 1,048,575, then stash entries. -/
def stashBase : Nat := 1048576

def locMem (loc : Nat) : EngMem × Nat := if loc < stashBase then (.key, 4 * loc) else (.stash, 4 * (loc - stashBase))

/-- Write an entry with check bits. -/
def entPut (loc : Nat) (e : Quad) (s : State) : State := engPuts (locMem loc).1 (locMem loc).2 [e.w0, e.w1, e.w2, e.w3] s

/-- An entry as it stands, once its words have been checked. -/
def entGet (s : State) (loc : Nat) : Quad :=
  let w := fun i => (s.engCell (locMem loc).1 ((locMem loc).2 + i)).chk.word
  ⟨w 0, w 1, w 2, w 3⟩

def entValid (e : Quad) : Bool := e.w3.getLsbD 35
def entClass (e : Quad) : Nat := fld e.w3 27 24
def entCtx (e : Quad) : Nat := fld e.w3 19 0
def entAge (e : Quad) : Nat := fld e.w3 33 28
def entPinned (e : Quad) : Bool := e.w3.getLsbD 34

/-- The detail of E503 for a place. -/
def locDetail (loc : Nat) : Nat :=
  if loc < stashBase then (loc % 4) <<< 18 ||| loc / 4 else 1 <<< 20 ||| (loc - stashBase)

/-- Invalidate an entry with an uncorrectable word (R262): E503. -/
def entDrop (loc : Nat) (s : State) : State :=
  engEvent 0x503 rqEvt (locDetail loc) ((entPut loc ⟨0, 0, 0, 0⟩ s).count (Reg.rhxCnt 3) 35 0)

/-- Read an entry: corrected, or invalidated (R261). -/
def entCheck (loc : Nat) (s : State) : State :=
  let r := engReads (locMem loc).1 (locMem loc).2 4 s
  if r.1.any Option.isNone then entDrop loc r.2 else r.2

def bucketCheck (b : Nat) (s : State) : State := forAll (List.range 4) (fun i => entCheck (4 * b + i)) s

def stashCheck (s : State) : State := forAll (List.range 64) (fun i => entCheck (stashBase + i)) s

/-- The 14 bytes of a key that are hashed (R240). -/
def keyBytes (cls : Nat) (key : BitVec 108) : List Byte := beBytes 14 (cls * 2 ^ 108 + key.toNat)

def hashWith (seed : BitVec 32) (cls : Nat) (key : BitVec 108) : Nat := fld (~~~(crc32cRun seed (keyBytes cls key))) 17 0

/-- The two candidate buckets (R240). -/
def buckets (s : State) (cls : Nat) (key : BitVec 108) : Nat × Nat :=
  let h0 := hashWith (s.eng.seed.truncate 32) cls key
  let h1 := hashWith (BitVec.ofNat 32 (s.eng.seed.toNat >>> 32)) cls key
  (h0, if h1 = h0 then h1 ^^^ 1 else h1)

def entKey (e : Quad) : BitVec 108 := BitVec.ofNat 108 (e.w0.toNat ||| e.w1.toNat <<< 36 ||| e.w2.toNat <<< 72)

def entMatch (e : Quad) (cls : Nat) (key : BitVec 108) : Bool := entValid e && entClass e == cls && entKey e == key

/-- Places that a keyed operation compares: both buckets and the stash (R241). -/
def keyPlaces (s : State) (cls : Nat) (key : BitVec 108) : List Nat :=
  let h := buckets s cls key
  (List.range 4).map (fun i => 4 * h.1 + i) ++ (List.range 4).map (fun i => 4 * h.2 + i) ++ (List.range 64).map (stashBase + ·)

/-- The place of a key, once every place that is compared has been read. -/
def keyFind (cls : Nat) (key : BitVec 108) (s : State) : Option Nat × State :=
  let s := forAll (keyPlaces s cls key) entCheck s
  ((keyPlaces s cls key).find? (fun l => entMatch (entGet s l) cls key), s)

/-- The lowest free slot of a bucket. -/
def freeSlot (s : State) (b : Nat) : Option Nat :=
  ((List.range 4).map (fun i => 4 * b + i)).find? (fun l => !entValid (entGet s l))

/-- The other candidate bucket of the entry at a place. -/
def otherBucket (s : State) (loc : Nat) : Nat :=
  let e := entGet s loc
  let h := buckets s (entClass e) (entKey e)
  if h.1 = loc / 4 then h.2 else h.1

/-- The displacement path from a bucket: places of the victims, first one first, and the free slot at its end; at most 32 moves. -/
def findPath (cur i : Nat) : Nat → State → Option (List Nat × Nat) × State
  | 0, s => (none, s)
  | n + 1, s =>
    let v := 4 * cur + (i - 1) % 4
    let o := otherBucket s v
    let s := bucketCheck o s
    match freeSlot s o with
    | some f => (some ([v], f), s)
    | none =>
      match findPath o (i + 1) n s with
      | (some (vs, f), s) => (some (v :: vs, f), s)
      | (none, s) => (none, s)

/-- Apply a path from its far end (R242 step 4). -/
def pathApply (e : Quad) : List Nat → Nat → State → State
  | [], f, s => entPut f e s
  | v :: vs, f, s =>
    let rec back : Nat → List Nat → State → State
      | _, [], s => s
      | dst, u :: us, s => back u us (entPut dst (entGet s u) s)
    entPut v e (back f ((v :: vs).reverse) s)

/-- Steps 2 to 4 of R242: the state with the entry placed, if a place was found. -/
def bucketPlace (e : Quad) (s : State) : Option State × State :=
  let h := buckets s (entClass e) (entKey e)
  let s := bucketCheck h.2 (bucketCheck h.1 s)
  match freeSlot s h.1 with
  | some f => (some (entPut f e s), s)
  | none =>
    match freeSlot s h.2 with
    | some f => (some (entPut f e s), s)
    | none =>
      match findPath h.1 1 32 s with
      | (some (vs, f), s) => (some (pathApply e vs f s), s)
      | (none, s) => (none, s)

/-- The lowest free stash entry. -/
def freeStash (s : State) : Option Nat := ((List.range 64).map (stashBase + ·)).find? (fun l => !entValid (entGet s l))

/-- Steps 2 to 6 of R242: whether the entry was placed. -/
def keyPlace (e : Quad) (s : State) : Bool × State :=
  match bucketPlace e s with
  | (some t, _) => (true, t)
  | (none, s) =>
    let s := stashCheck s
    match freeStash s with
    | some f => (true, entPut f e s)
    | none => (false, s)

/-- Free a place; the words keep their key. -/
def entFree (loc : Nat) (s : State) : State :=
  let e := entGet s loc
  entPut loc { e with w3 := setFld e.w3 35 35 0 } s

/-! ### Wildcard entries (R243) -/

def wcIx (i : Nat) : Nat := 7 * i

def wcGet (s : State) (i : Nat) : List Word := (List.range 7).map (fun k => (s.engCell .wildcard (wcIx i + k)).chk.word)

/-- Read a wildcard entry: corrected, or invalidated with E504 (R261, R262). -/
def wcCheck (i : Nat) (s : State) : State :=
  let r := engReads .wildcard (wcIx i) 7 s
  if r.1.any Option.isNone then
    engEvent 0x504 rqEvt i ((engPuts .wildcard (wcIx i) (List.replicate 7 0) r.2).count (Reg.rhxCnt 3) 35 0)
  else r.2

/-! ### Clearing and preload (R183, R265) -/

/-- The stores are cleared (R265). -/
def engClear (s : State) : State := { s with eng := { s.eng with ctx := [], poison := [], key := [], stash := [], wc := [] } }

/-- CTX8 and the seed are taken from segment 88 of the active plane when it is loaded at boot, and stay until the next reset (R235, R240,
R284). -/
def engSettings (s : State) : State :=
  let w := fun i => actWord s 88 0 0 i
  if s.eng.fixed then s
  else { s with eng := { s.eng with
      fixed := true,
      ctx8 := (w 0).getLsbD 0,
      seed := BitVec.ofNat 64 (fld (w 1) 31 0 <<< 32 ||| fld (w 2) 31 0) ^^^ Config.watermark } }

/-- KEYLOAD of one entry: placed as an INSERT would; a present key takes the entry's word 3; a dropped one raises E505. -/
def keyLoad1 (e : Quad) (s : State) : State :=
  let r := keyFind (entClass e) (entKey e) s
  match r.1 with
  | some l => entPut l { entGet r.2 l with w3 := e.w3 } r.2
  | none =>
    match keyPlace e r.2 with
    | (true, t) => t
    | (false, t) => engEvent 0x505 rqEvt (entClass e <<< 20 ||| entCtx e) t

/-- Words of one entry of a preload packet: 0 context, 1 key, 2 wildcard. -/
def preSize (kind : Nat) (ctx8 : Bool) : Nat :=
  match kind with
  | 0 => if ctx8 then 8 else 4
  | 1 => 4
  | _ => 7

/-- Entries of a preload table. -/
def preLimit (kind : Nat) (ctx8 : Bool) : Nat :=
  match kind with
  | 0 => if ctx8 then 524288 else 1048576
  | 1 => 1048576
  | _ => 8192

/-- Write one preload entry at an index; a context that the patrol has poisoned since the clearing stays so (R263). -/
def prePut (kind ix : Nat) (e : List Word) (s : State) : State :=
  match kind with
  | 0 => engPuts .context (preSize 0 s.eng.ctx8 * ix) e s
  | 1 => keyLoad1 ⟨e.getD 0 0, e.getD 1 0, e.getD 2 0, e.getD 3 0⟩ s
  | _ => engPuts .wildcard (wcIx ix) e s

/-- One record of a preload packet: FILL, START, COUNT and the words of its entries. -/
structure PreRec where
  fill : Bool
  start : Nat
  count : Nat
  words : List Word
  deriving DecidableEq, Repr

/-- The records of a packet; an error where one is cut short (true), or runs past its table or has FILL outside CTXLOAD (false)
(R180, R183). -/
def preRecs (kind : Nat) (ctx8 : Bool) : Nat → List Word → Except Bool (List PreRec)
  | _, [] => .ok []
  | 0, _ :: _ => .error true
  | n + 1, w0 :: ws =>
    let fill := w0.getLsbD 31
    let start := fld w0 19 0
    let count := fld (ws.headD 0) 20 0
    let len := preSize kind ctx8 * (if fill then 1 else count)
    let rest := ws.drop 1
    if ws.isEmpty then .error true
    else if count = 0 ∨ 1048576 < count ∨ preLimit kind ctx8 < start + count ∨ (fill ∧ kind ≠ 0) then .error false
    else if rest.length < len then .error true
    else (preRecs kind ctx8 n (rest.drop len)).map (fun l => ⟨fill, start, count, rest.take len⟩ :: l)

def preApply (kind : Nat) (r : PreRec) (s : State) : State :=
  let n := preSize kind s.eng.ctx8
  forAll (List.range r.count) (fun i =>
    prePut kind (r.start + i) ((r.words.drop (if r.fill then 0 else n * i)).take n)) s

/-! ### Requests (R268) -/

def reqOp (q : Quad) : Nat := fld q.w0 35 32
def reqTag (q : Quad) : Nat := fld q.w0 31 26
def reqClass (q : Quad) : Nat := fld q.w0 25 22
def reqProg (q : Quad) : Nat := fld q.w0 21 14
def reqWc (q : Quad) : Nat := fld q.w0 13 12
def reqK3 (q : Quad) : Bool := q.w0.getLsbD 11

def isCtxOp (op : Nat) : Bool := op == 4 || op == 5 || op == 6
def isKeyed (op : Nat) : Bool := op == 1 || op == 2 || op == 3 || op == 7

/-- NODE of a keyed header or of a reference (R238, R268); the others are served locally. -/
def reqNode (q : Quad) : Option Nat :=
  if isKeyed (reqOp q) then some (fld q.w0 9 0) else if isCtxOp (reqOp q) then some (fld q.w1 29 20) else none

/-- This node's own address for that rule (R269). -/
def ownNode (s : State) : Nat := if s.addrValid then s.addr else 0

/-! ### Responses (R272) -/

/-- What an operation ends with. -/
structure Res where
  st : Nat := 0
  ctx : Nat := 0
  pres : Nat := 0
  hit : Nat := 0
  place : Nat := 0
  moves : Nat := 0
  d0 : Word := 0
  d1 : Word := 0
  deriving DecidableEq, Repr

def stMiss : Nat := 1
def stExists : Nat := 2
def stFull : Nat := 3
def stPoison : Nat := 4
def stTimeout : Nat := 5
def stBadIndex : Nat := 6
def stBadReq : Nat := 7
def stProgErr : Nat := 8
def stOff : Nat := 9
def stNoRoute : Nat := 10
def stEngFault : Nat := 11

def resQuad (s : State) (q : Quad) (r : Res) : Quad :=
  ⟨wd (reqOp q <<< 32 ||| reqTag q <<< 26 ||| r.st <<< 20 ||| r.ctx),
   wd (r.pres <<< 28 ||| r.hit <<< 26 ||| ownNode s <<< 16 ||| r.place <<< 6 ||| r.moves), r.d0, r.d1⟩

/-- While the engine is not ON the mesh path answers every waiting request at once with OFF (R267, R288). -/
def waitOff (s : State) : State :=
  forAll s.eng.waitQ (fun e s =>
    let r := resQuad s e.2.2.2 { st := stOff }
    meshSend e.1.toNat 4 vcRsp [wd (e.2.1.toNat <<< 6 ||| e.2.2.1.toNat), r.w0, r.w1, r.w2, r.w3] s)
    { s with eng := { s.eng with waitQ := [] } }

end Sys2Proof.Machine
end

