-- ==== Sys2Proof/Machine/Power.lean ====
section
/-! DEFINITION. Power, clocks, resets and RETAIN: the supply and clock monitors (R92 to R95), temperature (R103), PWR.MODE_REQ
with its locked sequence (R77, R79, R83, R432), RETAIN entry and exit (R78, R79), the governor's grants (R99, R100),
the fabric global clock lines (R89, R90). -/

namespace Sys2Proof.Machine

/-! ### Monitors -/

/-- The root is absent: no root PLL lock (R93). -/
def rootAbsent (s : State) : Bool := !s.getB Reg.clkRoot 1

/-- Modes in which a loss of REFCLK or of lock is fail-safe trigger 2 (R62). -/
def rootModes (s : State) : Bool := s.mode == .boot || s.mode == .run || s.mode == .retain

/-- The service domain runs on the backup oscillator, from a loss on (R92, R93). -/
def toBackup (s : State) : State :=
  State.setB { s with boot := { s.boot with backupByLoss := s.boot.backupByLoss || !s.getB Reg.clkRoot 3 } } Reg.clkRoot 3 true

/-- A loss of REFCLK (E102) or of root PLL lock (E103): it counts only after a first lock (R93). -/
def rootLoss (code : Code) (s : State) : State :=
  if !s.boot.lockedOnce then s
  else
    let s := s.count Reg.clkRoot 19 4
    if rootModes s then failsafe code 9 1 (toBackup s) else raise code 0 0 (toBackup s)

/-- The warning threshold in degrees, two's complement; before it is first written, the grade's (R103). -/
def tempWarn (s : State) : Int :=
  if s.getB Reg.pwrMonCfg 24 then sgn (s.getF Reg.pwrMonCfg 23 16) 8 else if Config.fuseGradeE then 105 else 95

/-- A reading is outside the trip window, in quarter degrees (R103). -/
def tempTrips (t : Int) : Bool :=
  if Config.fuseGradeE then decide (t < -180) || decide (460 < t) else decide (t < -20) || decide (420 < t)

/-- Consecutive samples, 100 us apart, after which a reading has stayed outside for longer than the filter time (R103): n + 2 samples
span n + 1 intervals, and the filter time is exceeded with the first sample after it. R103 gives the times only, and no count of samples
(DESIGN CHOICE: log entry 95). -/
def tempNeed (s : State) : Nat := 10 * (s.getF Reg.pwrMonCfg 15 12 + 1) + 2

/-- One sensor's reading (R103): each crossing fires once, when its count has reached the filter's, whatever the filter was before. -/
def tempSensor (i : Nat) (r : BitVec 12) (s : State) : State :=
  let t := sgn r.toNat 12
  let s := s.setReg (Reg.pwrTemp i) (wd r.toNat)
  if !s.boot.powerGood then s
  else
    let trip := if tempTrips t then Store.get (fun _ => 0) s.boot.tripCnt i + 1 else 0
    let warn := if 4 * tempWarn s < t then Store.get (fun _ => 0) s.boot.warnCnt i + 1 else 0
    let was := Store.get (fun _ => false) s.boot.warned i
    let fire := decide (tempNeed s ≤ warn) && !was
    let hot := Store.get (fun _ => false) s.boot.tripped i
    let trips := decide (tempNeed s ≤ trip) && !hot
    let s := { s with boot := { s.boot with
      tripped := Store.set (fun _ => false) s.boot.tripped i (if trip = 0 then false else hot || trips),
      tripCnt := Store.set (fun _ => 0) s.boot.tripCnt i trip,
      warnCnt := Store.set (fun _ => 0) s.boot.warnCnt i warn,
      warned := Store.set (fun _ => false) s.boot.warned i (if warn = 0 then false else was || fire) } }
    let s := if fire then raise 0x105 0 (r.toNat <<< 3 ||| i) s else s
    if trips then failsafe 0x104 10 (r.toNat <<< 3 ||| i) s else s

/-! ### The governor (R99, R100) -/

/-- The event codes of E109 (R104). -/
def GovKind.code : GovKind → Nat
  | .bootPulse => 0
  | .regionWake => 1
  | .regionSwap => 2
  | .chipSwap => 3
  | .exit => 4
  | .entry => 5
  | .engineStart => 6
  | .meshPort => 7

/-- S in A per microsecond. -/
def govS (s : State) : Nat := s.getF Reg.pwrGovCfg 5 0

/-- The ramp that a granted request becomes: its slope is the smaller of S and the step over SOFTSTART (R100). -/
def govRamp (s : State) (r : GovReq) : GovReq :=
  let q := max 1 (s.getF Reg.pwrGovCfg 15 8)
  if r.kind = .bootPulse ∨ govS s * (10 * q) < 4 * r.di then { r with num := govS s, den := 1 }
  else { r with num := 4 * r.di, den := 10 * q }

/-- The sum of slopes as a fraction. -/
def slopeSum (l : List GovReq) : Nat × Nat := l.foldl (fun a r => (a.1 * r.den + r.num * a.2, a.2 * r.den)) (0, 1)

/-- The oldest request fits under S with the ramps under way (R100). -/
def govFits (s : State) (r : GovReq) : Bool :=
  let t := slopeSum (govRamp s r :: s.gov.ramps)
  decide (t.1 ≤ govS s * t.2)

/-- A grant's wait is recorded, and reported above WARN_US (R104, R106). -/
def govWait (r : GovReq) (us : Nat) (s : State) : State :=
  let w := min us 1023
  let s := s.setF Reg.pwrGovStatus 16 7 (max w (s.getF Reg.pwrGovStatus 16 7))
  let lim := s.getF Reg.pwrGovCfg 27 16
  if lim ≠ 0 ∧ lim < us then raise 0x109 0 (r.ix <<< 14 ||| w <<< 4 ||| r.kind.code) s else s

/-- Edges pass from the start of a soft-start's ramp on (R101); a port may go on to calibration (R294). -/
def grantAct (r : GovReq) (s : State) : State :=
  match r.kind with
  | .exit => { s with boot := { s.boot with fabricOn := true } }
  | .regionSwap => s.setRg r.ix { s.rg r.ix with gated := false }
  | .regionWake => s.setRg r.ix { s.rg r.ix with gated := false }
  | .chipSwap => forAll (List.range 64) (fun n s =>
      if (s.rg n).awaiting ∧ ¬ (s.rg n).repre then s.setRg n { s.rg n with gated := false } else s) s
  | .meshPort => s.setPort r.ix { s.port r.ix with granted := true }
  | _ => s

/-- RETAIN's ramp-down begins at t1: the engine's last operation has completed and its responses are delivered to the fabric, which is
still clocked (R78 steps 3 and 5). -/
def rampMayBegin (s : State) (r : GovReq) : Bool :=
  decide (r.kind ≠ .entry) || decide (s.boot.retain ≠ .entering) ||
  (s.eng.slots.isEmpty && (List.range 8).all (fun k => (hostOf s 0 k).isNone || (s.rspQ k).isEmpty))

def opGrant (us : Nat) (s : State) : State :=
  match s.gov.queue with
  | [] => s
  | r :: rest =>
    if govFits s r && rampMayBegin s r then
      grantAct r (govWait r us { s with gov := { queue := rest, ramps := s.gov.ramps ++ [govRamp s r] } })
    else s

/-- Remove every request and ramp of a kind. -/
def govDrop (k : GovKind) (s : State) : State :=
  { s with gov := { queue := s.gov.queue.filter (fun r => decide (r.kind ≠ k)),
                    ramps := s.gov.ramps.filter (fun r => decide (r.kind ≠ k)) } }

/-- A write of PWR.GOV_CFG: a SLEW outside 1 to 32 leaves the field (R106). -/
def opGovCfg (v : Word) (s : State) : State :=
  let slew := fld v 5 0
  let w := setFld (setFld (s.reg Reg.pwrGovCfg) 27 16 (fld v 27 16)) 15 8 (fld v 15 8)
  s.setReg Reg.pwrGovCfg (if 1 ≤ slew ∧ slew ≤ 32 then setFld w 5 0 slew else w)

/-- A write of PWR.MON_CFG; bit 24 of the stored word marks a TEMP_WARN that has been written (R106). -/
def opMonCfg (v : Word) (s : State) : State :=
  s.setReg Reg.pwrMonCfg (wd (v.toNat &&& 0xFFF03F ||| 1 <<< 24))

/-! ### Wake and RETAIN (R78, R79) -/

def WakeSrc.code : WakeSrc → Nat
  | .register => 0
  | .pin => 1
  | .timer => 2

/-- Memories, core clock and Calender run again, and the fabric's soft-start is asked for (R79 steps 4 to 6). -/
def wakeRamp (s : State) : State :=
  let s := { s with boot := { s.boot with retain := .exitRamp }, core := { s.core with running := true } }
  govAsk .exit 0 (estSum (fun _ => true) s) (s.setB Reg.calStatus 0 true)

/-- The exit sequence starts (R79). -/
def wakeStart (src : WakeSrc) (s : State) : State :=
  let s := raise 0x009 0 src.code s
  if s.getB Reg.pwrRetainCfg 6 ∧ ¬ s.boot.emu then
    pinAt (s.getF Reg.pwrRetainCfg 35 26) s { s with boot := { s.boot with retain := .exitWaitRam, ramRetWindow := false } }
  else pinAt (s.getF Reg.pwrRetainCfg 35 26) s (wakeRamp s)

/-- A wake event: it starts the exit, is held while entry is under way, or finds the exit under way (R60, R79). -/
def wakeEvent (src : WakeSrc) (s : State) : State :=
  if s.boot.retain = .entering then
    { s with boot := { s.boot with heldWake := some (s.boot.heldWake.getD src) } }
  else if s.mode = .retain ∧ s.boot.retain = .idle then wakeStart src s
  else s

/-- SERVICE is entered from RUN or RETAIN: the pins go safe at once, core and Calender run (R31), and the fabric clocks, where edges
pass, ask for their ramp-down; they stop at its end (R76, R99, R101). -/
def enterService (s : State) : State :=
  let s := { s with boot := { s.boot with retain := .idle, heldWake := none, heldService := false, ramRetWindow := false,
                                          emu := false },
                    core := { s.core with running := true } }
  let s := setMode .service 0 (s.setB Reg.calStatus 0 true)
  let s := govDrop .exit s
  if s.boot.fabricOn then govAsk .entry 0 (estSum (fun _ => true) s) s else s

/-- R78 steps 6 to 10. -/
def retainEnd (s : State) : State :=
  let emu := s.boot.emu
  let pinEn := s.getB Reg.pwrRetainCfg 6
  let keep := s.getB Reg.pwrRetainCfg 0
  let s := forAll (List.range 8) (fun p s => if s.link p = linkActive then meshSendLink p 0x1A [] s else s) s
  let s := { s with boot := { s.boot with retain := .idle, fabricOn := false, ctxLost := s.boot.ctxLost || (!keep && !emu),
                                          ramRetWindow := pinEn && !emu },
                    core := { s.core with running := false } }
  setMode .retain 0 (s.setB Reg.calStatus 0 false)

/-- Operations in flight and queued repairs have ended, and so has the granted ramp-down (R78 steps 3 and 5, R99, R230). -/
def retainMayEnd (s : State) : Bool := s.eng.slots.isEmpty && s.cal.queue.isEmpty && !govHas .entry s

/-- The end of RETAIN entry (R78); what entry held acts now (R60). -/
def opRetainEntry (s : State) : State :=
  if s.boot.retain ≠ .entering ∨ !retainMayEnd s then s
  else
    let s := retainEnd s
    if s.boot.heldService then svcReply (.ok []) (enterService s)
    else match s.boot.heldWake with
      | some src => wakeStart src { s with boot := { s.boot with heldWake := none } }
      | none => s

/-- The context store that RETAIN lost is cleared, and the engine is no longer held for it (R78). -/
def opCtxClear (s : State) : State :=
  if s.boot.ctxLost ∧ (s.boot.retain = .exitRamp ∨ s.mode = .run ∨ s.mode = .service) then
    let s := { s with boot := { s.boot with ctxLost := false }, eng := { s.eng with ctx := [], poison := [] } }
    if s.mode = .run then fnRelease .rhx s else s
  else s

/-! ### PWR.MODE_REQ -/

/-- EA06: a locked sequence of `m` on register `a` is cancelled (R432, R438). -/
def seqCancelled (a : Nat) (m : Req) (cause : Nat) (s : State) : State :=
  raise 0xA06 rqDbg (cause <<< 32 ||| m.toNat <<< 24 ||| a) s

/-- Any write that does not complete a live sequence cancels it, its own master's too, unless it restarts it (R83). R432 raises EA06 for
each cancelled sequence; of its causes 2, "other write", is taken for a write of the sequence's own master (DEDUCED: log entry 30). -/
def seqEnd (a : Nat) (live : Option Req) (who : Req) (first : Bool) (s : State) : State :=
  match live with
  | some m => if m = who ∧ first then s else seqCancelled a m (if who = rqDbg then 3 else 2) s
  | none => s

/-- What a write of `who` does to a live sequence that it does not complete (R432). -/
def seqOther (a : Nat) (live : Option Req) (who : Req) (s : State) : State :=
  match live with
  | some m => if m = who then s else seqCancelled a m (if who = rqDbg then 3 else 2) s
  | none => s

/-- The sequence that is live after a write: the writer's own with a first write, none after a second write; a write of its own that is neither leaves
it (R432). -/
def seqAfter (live : Option Req) (who : Req) (first second : Bool) : Option Req :=
  if first then some who else if !second && live == some who then live else none

/-- Descriptors are outstanding, or the controller moves or erases on its own (R77). -/
def flashBusy (s : State) : Bool :=
  s.getF Reg.flcDescWr 5 0 != s.getF Reg.flcCmplWr 5 0 || s.flash.move.isSome

/-- A swap is scheduled or committed and not yet performed (R77, R206). -/
def swapPending (s : State) : Bool := s.getF Reg.cfgSwapStatus 2 0 == 1 || s.getF Reg.cfgSwapStatus 2 0 == 2

/-- The reason to refuse a RETAIN request, if there is one (R77, R86). The spec does not say which reason E003 reports when several
apply: the model takes 1, then 5, 2, 3, 4 (DESIGN CHOICE: log entry 96). -/
def retainReason (s : State) (key : Nat) : Option Nat :=
  if s.mode ≠ .run ∨ s.boot.retain ≠ .idle then some 1
  else if key ≠ 0x6D1 then some 5
  else if flashBusy s then some 2
  else if swapPending s then some 3
  else if s.scr.beater.running then some 4
  else none

/-- RETAIN entry begins: the loader's stream ends with the mode change (R78, R197), the clocks ramp down; with a debugger attached
it is emulated (R433). -/
def retainAccept (s : State) : State :=
  let s := { s with boot := { s.boot with retain := .entering, emu := attached s } }
  govAsk .entry 0 (estSum (fun _ => true) s) s

/-- Who may wake the part through the register (R79). -/
def wakeAllowed (s : State) (who : Req) : Bool := who == rqSvc || (who == rqI3c && s.getB Reg.pwrRetainCfg 1)

/-- A write of PWR.MODE_REQ. An undefined REQ is refused with E003 (R85); the spec names no reason for it, and the model gives
reason 1 whatever the key (DESIGN CHOICE: log entry 97). -/
def opModeReq (who : Req) (v : Word) (s : State) : State :=
  let req := fld v 3 0
  let key := fld v 35 24
  let live := s.boot.seqMode
  let first := decide (req = 3) && decide (key = 0x6D1)
  let second := decide (req = 3) && decide (key = 0x92E) && decide (live = some who)
  let s := if second then s else seqEnd Reg.pwrModeReq live who first s
  let s := { s with boot := { s.boot with seqMode := if first then some who else none } }
  if second then softReset who 2 false s
  else if req = 3 then
    (if key = 0x6D1 then s else if key = 0x92E then modeRefuse 3 6 false s else modeRefuse 3 5 false s)
  else if req = 1 then
    (match retainReason s key with
     | some r => modeRefuse 1 r false s
     | none => retainAccept s)
  else if req = 2 then
    (if s.mode ≠ .retain ∧ s.boot.retain ≠ .entering then modeRefuse 2 1 false s
     else if wakeAllowed s who then wakeEvent .register s else modeRefuse 2 8 false s)
  else modeRefuse req 1 false s

/-! ### Fabric global clock lines (R89, R90) -/

/-- A write of CLK.GCLn: a line already on its way to an earlier PHASE is moving until its edges have reached the new one (R90). -/
def opGcl (n : Nat) (v : Word) (s : State) : State :=
  let a := Reg.clkGcl n
  let old := s.reg a
  let fixed := s.boot.released
  let s := if fixed ∧ fld v 35 35 ≠ fld old 35 35 then raise 0x108 0 n s else s
  let s := if fixed ∧ fld v 29 13 ≠ fld old 29 13 then raise 0x108 0 (1 <<< 4 ||| n) s else s
  let w := if fixed then setFld old 11 0 (fld v 11 0) else wd (v.toNat &&& 0x83FFFEFFF)
  let per := 64 * fld w 29 13
  let at' := (Store.get (fun _ => 0) s.boot.phaseAt n).toNat
  let differs := if per = 0 then fld w 11 0 != at' else fld w 11 0 % per != at' % per
  let moving := s.getB Reg.clkGclMoving n || differs
  (s.setReg a w).setB Reg.clkGclMoving n moving

/-! ### Commands -/

/-- VCCSVC below 2.9 V holds the part in power-on reset (R81, R95). -/
def powerFail (s : State) : State :=
  let t := resetTo .power s
  { t with boot := { t.boot with porHeld := true } }

def execPowerOnReset (s : State) : Host.Outcome State Fault Refusal := .next (powerFail s)

def execPowerOnResetRelease (pins : ResetPins) (busActive : Bool) (s : State) : Host.Outcome State Fault Refusal :=
  .next (if s.boot.porHeld then
      sampleStrap pins.svcMode { s with boot := { s.boot with porHeld := false, nsafeLow := pins.nsafe }, hif := { s.hif with hotJoin := busActive } }
    else s)

/-- Time zero is the later of POWER_GOOD and the rising edge of nRST (R67). -/
def timeZeroAt (s : State) : State :=
  if s.boot.powerGood && !s.boot.nrstLow && !s.boot.timeZero then
    { s with boot := { s.boot with timeZero := true, t0 := s.evt.time } }
  else s

/-- POWER_GOOD: triggers 1, 3 and 4 are armed; a part held by nSAFE low goes to FAILSAFE (R62, R65, R67). nSAFE is as it last stood
(DESIGN CHOICE: log entry 114). -/
def execPowerGood (s : State) : Host.Outcome State Fault Refusal :=
  .next (if s.boot.porHeld then s
    else
      let s := s.setF Reg.pwrRailOk 21 0 (0x3FFFFF - 0x40 + 0x40 * s.getF Reg.pwrRailOk 6 6)
      nsafeRearm (timeZeroAt { s with boot := { s.boot with powerGood := true } }))

/-- nRST low: at least 1 us is a reset, less than 100 ns is ignored, between them it is one or the other (R82). -/
def execNrstAssert (ns : Nat) (s : State) : Host.Outcome State Fault Refusal :=
  .next (if s.boot.porHeld ∨ ns < 100 then s
    else
      let took := decide (1000 ≤ ns) || Config.nrstTaken s.free
      let s := if ns < 1000 then s.draw else s
      if took then
        let t := resetTo .nrst s
        State.setReg { t with boot := { t.boot with nrstLow := true } } Reg.pwrResetCause 1
      else s)

def execNrstRelease (pins : ResetPins) (s : State) : Host.Outcome State Fault Refusal :=
  .next (if s.boot.nrstLow then
      nsafeRearm (timeZeroAt (sampleStrap pins.svcMode { s with boot := { s.boot with nrstLow := false, nsafeLow := pins.nsafe } }))
    else s)

def execRootPllLock (s : State) : Host.Outcome State Fault Refusal :=
  .next (if s.boot.porHeld then s
    else State.setF { s with boot := { s.boot with lockedOnce := true } } Reg.clkRoot 2 1 3)

/-- Back on root/128; E106 when a loss had begun the period (R92). -/
def execSvcClockReturnToRoot (s : State) : Host.Outcome State Fault Refusal :=
  .next (if s.getB Reg.clkRoot 3 && s.getB Reg.clkRoot 1 then
      let by' := s.boot.backupByLoss
      let s := State.setB { s with boot := { s.boot with backupByLoss := false } } Reg.clkRoot 3 false
      if by' then raise 0x106 0 0 s else s
    else s)

def execRefclkLost (s : State) : Host.Outcome State Fault Refusal :=
  .next (if s.boot.porHeld then s else rootLoss 0x102 (s.setF Reg.clkRoot 2 1 0))

def execPllLockLost (s : State) : Host.Outcome State Fault Refusal :=
  .next (if s.boot.porHeld then s else rootLoss 0x103 (s.setB Reg.clkRoot 1 false))

/-- Lowest and highest reading, in mV, of a bank's rail: 5% about its voltage; the wide window while no code is set, which a code the
table does not define leaves in force (R94, R95; DEDUCED: log entry 98). -/
def bankWindow (code : Nat) : Nat × Nat :=
  match code with
  | 1 => (1140, 1260)
  | 2 => (1425, 1575)
  | 3 => (1710, 1890)
  | 4 => (2375, 2625)
  | 5 => (3135, 3465)
  | _ => (1080, 3630)

/-- A rail's window in mV; VCCRAM's switches with RETAIN (R94, R95). -/
def railWindow (s : State) (rail : Nat) : Nat × Nat :=
  match rail with
  | 0 => (684, 756)
  | 1 => if s.boot.ramRetWindow then (520, 600) else (760, 840)
  | 2 => (1710, 1890)
  | 3 => (855, 945)
  | 4 => (1710, 1890)
  | 5 => (3135, 3465)
  | 6 => (1100, 3800)
  | _ => bankWindow (bankCode s (rail - 7))

/-- The reading lies in the rail's window. -/
def railInside (s : State) (rail mv : Nat) : Bool := decide ((railWindow s rail).1 ≤ mv) && decide (mv ≤ (railWindow s rail).2)

/-- The supply filter time in microseconds (R106). -/
def supplyFilter (s : State) : Nat := s.getF Reg.pwrMonCfg 5 0 + 1

/-- A monitor's reading that has stood for `us` microseconds: longer than the filter time it sets the rail's bit of PWR.RAIL_OK. Outside
the window, VBATT raises E107 only, VCCSVC below 2.9 V for 1 us is the power-on reset and no trigger, every other rail is trigger 1 from
POWER_GOOD on (R62, R81, R95, R106). -/
def execSupplyOutOfWindow (rail : Fin 22) (us : Nat) (mv : BitVec 12) (s : State) : Host.Outcome State Fault Refusal :=
  .next (if s.boot.porHeld then s
    else if rail.val = 5 ∧ mv.toNat < 2900 ∧ 1 ≤ us then powerFail s
    else if us ≤ supplyFilter s then s
    else if railInside s rail.val mv.toNat then s.setB Reg.pwrRailOk rail.val true
    else
      let above := decide ((railWindow s rail.val).2 < mv.toNat)
      let s := s.setB Reg.pwrRailOk rail.val false
      if rail.val = 6 then raise 0x107 0 mv.toNat s
      else if s.boot.powerGood then failsafe 0x101 8 (mv.toNat <<< 6 ||| above.toNat <<< 5 ||| rail.val) s
      else s)

/-- The key RAM is lost with VBATT (R202). -/
def execVbattKeyLost (s : State) : Host.Outcome State Fault Refusal :=
  .next (State.setB { s with sec := { s.sec with keyRam := 0, keyValid := false } } Reg.secKrCtrl 2 true)

def execTemperatureSample (readings : List (BitVec 12)) (s : State) : Host.Outcome State Fault Refusal :=
  .next (if s.boot.porHeld then s else forAll ((readings.take 8).zipIdx) (fun e => tempSensor e.2 e.1) s)

/-- nSAFE low: trigger 4, armed from POWER_GOOD; before it the level stands and fires there (R61, R62, R65). -/
def execNsafeAssert (s : State) : Host.Outcome State Fault Refusal :=
  let s := { s with boot := { s.boot with nsafeLow := true } }
  .next (if s.boot.powerGood then failsafe 0x002 13 0 s else s)

def execSoftResetFirstWrite (who : Req) (s : State) : Host.Outcome State Fault Refusal :=
  .next (gateW who Reg.pwrModeReq (opModeReq who (wd (0x6D1 <<< 24 ||| 3))) s)

def execSoftResetSecondWrite (who : Req) (s : State) : Host.Outcome State Fault Refusal :=
  .next (gateW who Reg.pwrModeReq (opModeReq who (wd (0x92E <<< 24 ||| 3))) s)

/-- The window of a locked sequence ends without its second write (R432). -/
def execLockedSequenceExpired (reg : SeqReg) (s : State) : Host.Outcome State Fault Refusal :=
  .next (match reg with
    | .modeReq => match s.boot.seqMode with
      | some m => seqCancelled Reg.pwrModeReq m 1 { s with boot := { s.boot with seqMode := none } }
      | none => s
    | .wdtKick => match s.boot.seqKick with
      | some m => seqCancelled Reg.wdtKick m 1 { s with boot := { s.boot with seqKick := none } }
      | none => s)

def execRetainRequest (who : Req) (s : State) : Host.Outcome State Fault Refusal :=
  .next (gateW who Reg.pwrModeReq (opModeReq who (wd (0x6D1 <<< 24 ||| 1))) s)

def execRetainEntryComplete (s : State) : Host.Outcome State Fault Refusal := .next (opRetainEntry s)

def execWakeRequest (who : Req) (s : State) : Host.Outcome State Fault Refusal :=
  .next (gateW who Reg.pwrModeReq (opModeReq who 2) s)

/-- The selected edge on the wake pin, unless its detector is masked (R79, R85, R410, R412). -/
def execWakePinEdge (rising : Bool) (s : State) : Host.Outcome State Fault Refusal :=
  let i := s.getF Reg.pwrRetainCfg 25 16
  let e := s.getF Reg.pwrRetainCfg 5 4
  let p := s.pn i
  let s := s.setPn i { p with pad := some rising }
  .next (if s.getB Reg.pwrRetainCfg 2 ∧ p.stage = .none ∧ ¬ p.masked ∧ (2 ≤ e ∨ (e = 0 ∧ rising) ∨ (e = 1 ∧ ¬ rising)) then
      wakeEvent .pin s
    else s)

/-- The timer counts from the end of RETAIN entry; a COUNT of 0 never expires (R85). -/
def execWakeTimerExpiry (s : State) : Host.Outcome State Fault Refusal :=
  .next (if s.mode = .retain ∧ s.getB Reg.pwrRetainCfg 3 ∧ s.getF Reg.pwrWakeTimer 31 0 ≠ 0 then wakeEvent .timer s else s)

/-- VCCRAM not in its run window 10 ms after step 2: trigger 1 (R79). The reading is a free value. -/
def execVccramWakeTimeout (s : State) : Host.Outcome State Fault Refusal :=
  .next (if s.boot.retain = .exitWaitRam then
      failsafe 0x101 8 ((Config.railMv 1 s.free).toNat <<< 6 ||| 1) (s.draw.setB Reg.pwrRailOk 1 false)
    else s)

def execVccramRunWindowEntry (s : State) : Host.Outcome State Fault Refusal :=
  .next (if s.boot.retain = .exitWaitRam then wakeRamp s else s)

def execContextStoreWakeClear (s : State) : Host.Outcome State Fault Refusal := .next (opCtxClear s)

/-- The default weight of a row of R24's table: core, flash controller, configuration controller, spill and event path, FM0 to FM7,
mesh, I3C target, service and debug. -/
def defWeight (m : Nat) : Nat := if m < 3 ∨ m = 12 then 4 else if m = 3 then 2 else 1

/-- A master's weight: the image's, or the default where it gives none (R24). -/
def weightOf (s : State) (m : Nat) : Nat :=
  match (Store.get (fun _ => 0) s.boot.weights m).toNat with
  | 0 => defWeight m
  | w => w

/-- The sum W of the weights of all masters (R26). -/
def weightSum (s : State) : Nat := ((List.range 15).map (weightOf s)).sum

/-- A master's request is urgent from the start (R24): `raised` says that a completion record is written, a repair frame fetched, URGENT
asserted, or that the request comes from the CTL virtual channel. -/
def asksUrgent (s : State) (m : Nat) (raised : Bool) : Bool :=
  if m = 1 ∨ m = 2 ∨ m = 12 then raised
  else if m = 3 then decide (48 ≤ s.eng.evBuf.length)
  else if 4 ≤ m ∧ m < 12 then raised && s.boot.urgent.getLsbD (m - 4)
  else m == 14

/-- A normal request that has waited 256 CK_SYS cycles becomes urgent, and is granted within W - w more (R25, R26). -/
def execRequestPromotedUrgent (target : Nat) (a : Asker) (s : State) : Host.Outcome State Fault Refusal :=
  .next (if asksUrgent s a.master.val a.raised ∨ s.boot.promoted.any (fun e => e.1 == target && e.2.1 == a.master) then s
    else
      let e := (target, a.master, weightSum s - weightOf s a.master.val)
      { s with boot := { s.boot with promoted := s.boot.promoted ++ [e] } })

def execGovernorGrant (waitUs : Nat) (s : State) : Host.Outcome State Fault Refusal := .next (opGrant waitUs s)

def execClockLineWrite (who : Req) (line : Fin 16) (v : Word) (s : State) : Host.Outcome State Fault Refusal :=
  .next (gateW who (Reg.clkGcl line.val) (opGcl line.val v) s)

/-- The line's edges have reached PHASE (R90). -/
def execPhaseMoveComplete (line : Fin 16) (s : State) : Host.Outcome State Fault Refusal :=
  .next (State.setB { s with boot := { s.boot with
      phaseAt := Store.set (fun _ => 0) s.boot.phaseAt line.val (BitVec.ofNat 12 (s.getF (Reg.clkGcl line.val) 11 0)) } }
    Reg.clkGclMoving line.val false)

end Sys2Proof.Machine
end

