-- ==== Sys2Proof/Machine/Functions.lean ====
section
/-! DEFINITION. The function lifecycle (R44 to R48) with each function's own start and stop, and the registers of the event unit
and of SYS.TIME (R54 to R57). -/

namespace Sys2Proof.Machine

/-! ### Start and stop -/

/-- A mode holds the function, so that a start waits for its end (R31, R46): the engine and the mesh ports run in RUN only, the
watchdog is held in SERVICE and FAILSAFE (R434). -/
def modeHolds (s : State) (f : Func) : Bool :=
  match f with
  | .rhx => s.mode != .run
  | .mesh _ => s.mode != .run
  | .wdt => s.mode == .service || s.mode == .failsafe
  | _ => false

/-- OFF, ENABLE = 1: STARTING, with what the function's chapter adds. A timer counts up from 0 (R352). -/
def fnStart (f : Func) (s : State) : State :=
  if modeHolds s f then s
  else match f with
    | .serial _ => periphClaim f (s.setFn f fnStarting)
    | .beater => beaterStart s
    | .tmr k =>
      let s := s.setReg (Reg.scrTmrCount k.val) 0
      let s := s.setFn f fnStarting
      if s.getB (Reg.scrTmrCfg k.val) 8 then periphClaim f s else s
    | _ => fnStartHard f s

/-- ON or FAULT, ENABLE = 0: STOPPING; a peripheral releases its pins (R351), the Beater's run is aborted (R362),
a mesh port sends BYE and empties its replay buffer (R294, R313). -/
def fnStop (f : Func) (s : State) : State :=
  let s := s.setFn f fnStopping
  match f with
  | .serial _ => periphRelease f s
  | .tmr _ => periphRelease f s
  | .beater => beaterAbort s.scr.beater.stopBy 2 s
  | .rhx => waitOff s
  | .mesh p =>
    let s := if s.link p.val = linkActive then meshSendLink p.val 0x1A [] s else s
    s.setPort p.val { s.port p.val with stopAt := s.evt.time }
  | _ => s

/-- What ENABLE, as it stands, asks of the present STATE (R46). -/
def fnDirect (f : Func) (s : State) : State :=
  if s.fnEn f then (if s.fn f = fnOff then fnStart f s else s)
  else if s.fn f = fnOn ∨ s.fn f = fnFault then fnStop f s else s

/-- The pin level with which a timer starts (R352). -/
def tmrBegin (k : Nat) (s : State) : State :=
  match tmrMode s k with
  | 0 => tmrPin k true s
  | 2 => tmrPin k (decide (0 < s.getF (Reg.scrTmrCmpB k) 31 0)) s
  | _ => tmrPin k false s

/-- The start may complete: its grant is given, its pins have switched (R99, R267, R294, R413). -/
def startReady (f : Func) (s : State) : Bool :=
  match f with
  | .rhx => !s.gov.queue.any (fun r => decide (r.kind = GovKind.engineStart))
  | .mesh p => (s.port p.val).granted
  | .serial _ => periphSettled f s
  | .tmr _ => periphSettled f s
  | _ => true

/-- What a function has when it goes ON. -/
def fnBegin (f : Func) (s : State) : State :=
  match f with
  | .rhx => govDrop .engineStart s
  | .mesh p =>
    let s := { s with gov := { s.gov with ramps := s.gov.ramps.filter (fun r => !(decide (r.kind = GovKind.meshPort) && r.ix == p.val)) } }
    (s.setPort p.val { s.port p.val with granted := false }).setLink p.val 1
  | .tmr k => tmrBegin k.val s
  | _ => s

/-- The function's clock runs: all but the watchdog are clocked from the root, which may be absent in SERVICE (R93). -/
def fnClocked (f : Func) (s : State) : Bool := f == .wdt || !rootStopped s

/-- The start completes without fault: ON, or STOPPING if ENABLE is 0 by now (R46). -/
def opStartDone (f : Func) (s : State) : State :=
  if s.fn f = fnStarting ∧ startReady f s ∧ fnClocked f s then
    if s.fnEn f then (fnBegin f s).setFn f fnOn else fnStop f s
  else s

/-- The stop may complete: the engine's operations are complete and their responses delivered (R267); a mesh port's replay buffer is empty,
or 10 us have passed (R294). -/
def stopReady (f : Func) (s : State) : Bool :=
  match f with
  | .rhx => s.eng.slots.isEmpty && s.eng.rspQ.isEmpty
  | .flc => s.flash.descs.isEmpty
  | .mesh p => (s.port p.val).replay.isEmpty || decide (10000 ≤ (s.evt.time - (s.port p.val).stopAt).toNat)
  | _ => true

/-- What a function leaves when it goes OFF: a port's lanes are idle (R294). -/
def fnEnd (f : Func) (s : State) : State :=
  match f with
  | .mesh p => (linkIdle p.val 0 s).setPort p.val {}
  | _ => s

/-- The stop completes: OFF, and STARTING again if ENABLE is 1 (R46). -/
def opStopDone (f : Func) (s : State) : State :=
  if s.fn f = fnStopping ∧ stopReady f s ∧ fnClocked f s then
    let s := (fnEnd f s).setFn f fnOff
    if s.fnEn f then fnStart f s else s
  else s

/-! ### CTRL and expert registers -/

/-- Profiles that a function's chapter defines: 0 alone, for every function of this part. -/
def profileDefined (_ : Func) (p : Nat) : Bool := p == 0

/-- A PROFILE write loads the expert registers with the profile's values, while STATE is OFF (R47). -/
def profileLoad (f : Func) (p : Nat) (s : State) : State :=
  if p ≠ s.getF (fnCtrl f) 7 4 ∧ profileDefined f p ∧ s.fn f = fnOff then
    let s := (s.setF (fnCtrl f) 7 4 p).setF (fnStat f) 7 4 p
    match f with
    | .flc => s.setReg Reg.flcXcfg (regDefault Reg.flcXcfg)
    | .wdt => s.setReg Reg.wdtXcfg (regDefault Reg.wdtXcfg)
    | .beater => s.setReg Reg.scrBeaterXcfg (regDefault Reg.scrBeaterXcfg)
    | _ => s
  else s

/-- LOCK of the watchdog is set (R434). -/
def wdtLocked (s : State) : Bool := s.getB Reg.wdtCtrl 8

/-- Store EXPERT, ENABLE and the function bits of a CTRL write. -/
def ctrlStore (f : Func) (v : Word) (s : State) : State :=
  let a := fnCtrl f
  match f with
  | .wdt =>
    let en := if wdtLocked s ∧ ¬ v.getLsbD 0 then s.getF a 0 0 else fld v 0 0
    let s := (s.setF a 1 1 (fld v 1 1)).setF a 0 0 en
    if v.getLsbD 8 then s.setB a 8 true else s
  | .serial _ => ((s.setF a 27 16 (fld v 27 16)).setF a 1 0 (fld v 1 0))
  | _ => s.setF a 1 0 (fld v 1 0)

/-- A CTRL write: PROFILE, then the other fields, then the direction that ENABLE asks for (R46, R47). -/
def ctrlWrite (f : Func) (v : Word) (s : State) : State := fnDirect f (ctrlStore f v (profileLoad f (fld v 7 4) s))

/-- A CTRL write of a function by a requester: a peripheral's answers its owner only (R351). -/
def opCtrl (f : Func) (who : Req) (v : Word) (s : State) : State :=
  match f with
  | .beater => opBeaterCtrl who v s
  | .serial k => periphOwned (Reg.scrSerClaim k.val) who (ctrlWrite f v) s
  | .tmr k => periphOwned (Reg.scrTmrClaim k.val) who (ctrlWrite f v) s
  | _ => ctrlWrite f v s

/-- An expert register: its function, and whether its fields are live (R48). -/
def expertOf (a : Nat) : Option (Func × Bool) :=
  if a = Reg.flcXcfg then some (.flc, true)
  else if a = Reg.wdtXcfg then some (.wdt, false)
  else if a = Reg.scrBeaterXcfg then some (.beater, false)
  else none

/-- An expert write (R48); the watchdog's is ignored once it is locked (R434). -/
def opExpert (a : Nat) (v : Word) (s : State) : State :=
  match expertOf a with
  | none => s
  | some (f, live) =>
    if ¬ s.getB (fnCtrl f) 1 ∨ (s.fn f ≠ fnOff ∧ ¬ live) ∨ (f = .wdt ∧ wdtLocked s) then s
    else
      let w := match f with
        | .wdt => wd (fld v 16 0)
        | _ => wd (fld v 0 0)
      (s.setReg a w).setF (fnStat f) 7 4 0xF

/-- STATUS as it reads: the stored fields with PEND (R45). -/
def statRead (f : Func) (s : State) : Word := setFld (s.reg (fnStat f)) 3 3 (fnPend s f).toNat

/-! ### Events and time (R54 to R57) -/

def opEvtCtrl (v : Word) (s : State) : State :=
  let s := s.setF Reg.sysEvtCtrl 0 0 (fld v 0 0)
  if v.getLsbD 0 then (s.setReg Reg.sysEvtWr 0).setReg Reg.sysEvtRd 0 else s

def opEvtRd (v : Word) (s : State) : State := s.setReg Reg.sysEvtRd (wd (fld v 9 0))

/-- Word `i` of the oldest record in the service buffer. -/
def evtPopWord (s : State) (i : Nat) : Word :=
  match s.evt.buf with
  | [] => 0
  | q :: _ => match i with
    | 0 => q.w0
    | 1 => q.w1
    | 2 => q.w2
    | _ => q.w3

/-- A read of EVT_POP3 removes the record (R57). -/
def opEvtPop (peek : Bool) (s : State) : State :=
  let s := answer (evtPopWord s 3) s
  if peek then s else { s with evt := { s.evt with buf := s.evt.buf.drop 1 } }

/-- A 64-bit time's upper word: MESHTIME in bit 35, time bits 63:36 below (R57). -/
def timeHi (t : BitVec 64) (mesh : Bool) : Word := wd (mesh.toNat <<< 35 ||| t.toNat >>> 36)

/-- A read of TIME_LO latches the upper bits for the reading master (R57). -/
def opTimeLo (who : Req) (s : State) : State :=
  answer (wd s.evt.time.toNat) { s with evt := { s.evt with
    timeLatch := Store.set (fun _ => 0) s.evt.timeLatch who.toNat (timeHi s.evt.time s.evt.meshTime) } }

/-- EVT_STATUS as it reads (R57). -/
def evtStatRead (s : State) : Word :=
  wd (s.getF Reg.sysEvtStatus 15 0 ||| (ringFull s).toNat <<< 16 ||| s.evt.buf.isEmpty.toNat <<< 17)

/-! ### Commands -/

def execEventRingEnable (who : Req) (v : Word) (s : State) : Host.Outcome State Fault Refusal :=
  .next (gateW who Reg.sysEvtCtrl (opEvtCtrl v) s)

def execEventReadAdvance (who : Req) (v : Word) (s : State) : Host.Outcome State Fault Refusal :=
  .next (gateW who Reg.sysEvtRd (opEvtRd v) s)

def execServiceBufferDrain (s : State) : Host.Outcome State Fault Refusal := .next (drainOne s)

def execEventPop (who : Req) (peek : Bool) (s : State) : Host.Outcome State Fault Refusal :=
  .next (gateR who (Reg.sysEvtPop 3) (opEvtPop (peeks who peek)) s)

def execTimeRead (who : Req) (s : State) : Host.Outcome State Fault Refusal :=
  .next (gateR who Reg.sysTimeLo (opTimeLo who) s)

/-- A CTRL write with ENABLE = 1. -/
def execCtrlEnable (who : Req) (f : Func) (v : Word) (s : State) : Host.Outcome State Fault Refusal :=
  .next (gateW who (fnCtrl f) (opCtrl f who (v ||| 1)) s)

/-- A CTRL write with ENABLE = 0. -/
def execCtrlDisable (who : Req) (f : Func) (v : Word) (s : State) : Host.Outcome State Fault Refusal :=
  .next (gateW who (fnCtrl f) (opCtrl f who (v &&& ~~~(1 : Word))) s)

def execProfileWrite (who : Req) (f : Func) (v : Word) (s : State) : Host.Outcome State Fault Refusal :=
  .next (gateW who (fnCtrl f) (opCtrl f who v) s)

def execExpertWrite (who : Req) (addr : Addr) (v : Word) (s : State) : Host.Outcome State Fault Refusal :=
  .next (gateW who addr.toNat (opExpert addr.toNat v) s)

def execFunctionStartComplete (f : Func) (s : State) : Host.Outcome State Fault Refusal := .next (opStartDone f s)

def execWdtLock (who : Req) (v : Word) (s : State) : Host.Outcome State Fault Refusal :=
  .next (gateW who Reg.wdtCtrl (opCtrl .wdt who (v ||| wd (1 <<< 8))) s)

end Sys2Proof.Machine
end

