-- ==== Sys2Proof/Machine/Fabric.lean ====
section
/-! DEFINITION. User state of the fabric: Quires, their wires and Pass channels (R107 to R136), RAM36 blocks and FIFOs (R151 to R166),
MAC36 blocks (R167 to R173), buses (R137 to R140). -/

namespace Sys2Proof.Machine

/-! ### Cells -/

/-- A cell's place by numbers: region, column, row, cell. -/
structure CellPos where
  n : Nat
  col : Nat
  row : Nat
  k : Nat
  deriving DecidableEq, Repr

def cellPos (c : CellAddr) : CellPos := ⟨c.region.val, c.col.val, c.row.val, c.cell.val⟩

/-- A cell's number in its region, and in the whole part. -/
def CellPos.ix (c : CellPos) : Nat := cellIx c.col c.row c.k
def CellPos.key (c : CellPos) : Nat := c.n * 33408 + c.ix

/-- What a cell sees of its Quire's inputs (R107): LUT index, AX, BX, the CE and SR lines that it selects, WE, and its carry C_k. -/
structure CellIn where
  idx : Nat
  ax : Bool
  bx : Bool
  ce : Bool
  sr : Bool
  we : Bool
  carry : Bool
  deriving DecidableEq, Repr

/-- Configuration bits `hi` to `lo` of a cell in the active plane (R120). -/
def cellBits (s : State) (c : CellPos) (hi lo : Nat) : Nat :=
  (List.range (hi + 1 - lo)).foldl (fun v i => v ||| (cellBit s c.n c.col c.row c.k (lo + i)).toNat <<< i) 0

/-- The live LUT bits L[63:0]. -/
def cellL (s : State) (c : CellPos) : Nat := cellBits s c 63 0

/-- MODE of a cell as its live bits have it (R121). -/
def cellMode (s : State) (c : CellPos) : Nat := cellBits s c 69 68

/-- The key of LUT bit `j`. -/
def lutKey (s : State) (c : CellPos) (j : Nat) : Nat := cfgKey (activeOf s c.n) c.n c.col (j / 4) (4 * c.row + j % 4)

/-- The cell is user-owned in the golden map of its active plane (R18, R122). -/
def userOwned (s : State) (c : CellPos) : Bool := goldBit (s.rg c.n) (activeOf s c.n) c.ix

/-- Write LUT bit `j`. A user write moves the stored bit and no check bit (R122); where the golden map does not have the cell as
user-owned, a bit that changes is a wrong bit of its word (R121). -/
def cellPutL (c : CellPos) (j : Nat) (b : Bool) (s : State) : State :=
  let k := lutKey s c j
  let w := s.cfgCell k
  if w.data.getLsbD c.k = b then s
  else s.setCfg k (if userOwned s c then { w with data := w.data ^^^ (1 <<< c.k) } else w.flip c.k)

def lutO6 (s : State) (c : CellPos) (i : CellIn) : Bool :=
  let l := cellL s c
  if cellMode s c = 1 then bitN l (32 + i.idx % 32) == 1 else bitN l i.idx == 1

def lutO5 (s : State) (c : CellPos) (i : CellIn) : Bool :=
  let l := cellL s c
  match cellMode s c with
  | 2 => false
  | 3 => bitN l 63 == 1
  | _ => bitN l (i.idx % 32) == 1

/-- The carry sum S_k (R110): a cell in MODE 10 or 11 gives 0. -/
def cellSum (s : State) (c : CellPos) (i : CellIn) : Bool :=
  if 2 ≤ cellMode s c then false else lutO6 s c i != i.carry

/-- The carry out C_(k+1) (R110): passed on in MODE 10 and 11 and without carry enable, else by P_k = O6 and G_k. -/
def cellCarry (s : State) (c : CellPos) (i : CellIn) : Bool :=
  if 2 ≤ cellMode s c ∨ cellBits s c 72 72 = 0 ∨ lutO6 s c i then i.carry
  else if cellMode s c = 1 then lutO5 s c i else i.ax

/-- Cell `c` of a Quire under the inputs `i`, with carry `cy` arriving (R107, R108, R121). -/
def cellIn (s : State) (i : QuireIn) (we cy : Bool) (c : CellPos) : CellIn :=
  let b := fun (w : Word) => (w.getLsbD c.k).toNat
  { idx := 32 * b i.a6 + 16 * b i.a5 + 8 * b i.a4 + 4 * b i.a3 + 2 * b i.a2 + b i.a1,
    ax := i.ax.getLsbD c.k, bx := i.bx.getLsbD c.k,
    ce := cellBits s c 78 78 == 1 || i.ce.getLsbD (cellBits s c 77 76),
    sr := cellBits s c 83 83 == 1 && i.sr.getLsbD (cellBits s c 79 79),
    we := we, carry := cy }

/-- C_k of the first `k` cells of a Quire, from its C_0. -/
def carryAt (s : State) (n col row : Nat) (i : QuireIn) (c0 : Bool) : Nat → Bool
  | 0 => c0
  | k + 1 => cellCarry s ⟨n, col, row, k⟩ (cellIn s i false (carryAt s n col row i c0 k) ⟨n, col, row, k⟩)

/-- C_0 by CIN_SEL of cell 0 (R111). -/
def carryIn (s : State) (n col row : Nat) (i : QuireIn) (cin : Bool) : Bool :=
  match cellBits s ⟨n, col, row, 0⟩ 71 70 with
  | 0 => false
  | 1 => true
  | 2 => i.ax.getLsbD 0
  | _ => cin

/-- What the routing presented to a Quire last (R126). -/
def State.quireIn (s : State) (n col row : Nat) : QuireIn := Store.get (fun _ => {}) s.fab.ins (blkKey n col row)

/-- COUT of the Quire below row `r`: its C_36, under the inputs that stand there; the Quire in row 00 reads 0 (R111). -/
def carryBelow (s : State) (n col : Nat) : Nat → Bool
  | 0 => false
  | r + 1 => let i := s.quireIn n col r
             carryAt s n col r i (carryIn s n col r i (carryBelow s n col r)) 36

/-- C_k of a Quire's cell under the inputs `i`. -/
def cellCin (s : State) (i : QuireIn) (c : CellPos) : Bool :=
  carryAt s c.n c.col c.row i (carryIn s c.n c.col c.row i (carryBelow s c.n c.col c.row)) c.k

/-- A cell with all its inputs. -/
def cellSees (s : State) (i : QuireIn) (we : Bool) (c : CellPos) : CellIn := cellIn s i we (cellCin s i c) c

/-- D_A and D_B (R109, R121): DA_SEL 11 acts as 00; in LUT-RAM mode FFB takes BX only (R113). -/
def cellDA (s : State) (c : CellPos) (i : CellIn) : Bool :=
  match cellBits s c 81 80 with
  | 1 => cellSum s c i
  | 2 => i.ax
  | _ => lutO6 s c i

def cellDB (s : State) (c : CellPos) (i : CellIn) : Bool :=
  if cellBits s c 82 82 = 1 ∨ cellMode s c = 2 then i.bx else lutO5 s c i

/-- Store both flip-flops. -/
def ffPut (c : CellPos) (a b : Bool) (s : State) : State :=
  { s with fab := { s.fab with
    ffA := Store.set (fun _ => false) s.fab.ffA c.key a, ffB := Store.set (fun _ => false) s.fab.ffB c.key b } }

/-- SRVAL into both flip-flops. -/
def ffSet (old : State) (c : CellPos) (s : State) : State := ffPut c (cellBits old c 66 66 == 1) (cellBits old c 67 67 == 1) s

/-- The flip-flops at an edge (R109). -/
def cellFF (old : State) (c : CellPos) (i : CellIn) (s : State) : State :=
  if i.sr then ffSet old c s else if i.ce then ffPut c (cellDA old c i) (cellDB old c i) s else s

/-- A parity mismatch that a user read finds: every one is counted (R143), the first sets PERR and is logged (R119). -/
def cellParity (c : CellPos) (s : State) : State :=
  if !Store.get (fun _ => false) s.fab.parErr c.key then s
  else
    let s := s.count (Reg.rgnCntParity c.n) 35 0
    if Store.get (fun _ => false) s.fab.perr c.key then s
    else logWrite c.n (logEntry 6 c.col c.row c.k 0 0) 0x406
      { s with fab := { s.fab with perr := Store.set (fun _ => false) s.fab.perr c.key true } }

/-- The edge acts on the cell's 64 bits: a write in MODE 10, a shift in MODE 11 (R113, R115). -/
def cellActs (s : State) (c : CellPos) (i : CellIn) : Bool :=
  i.ce && !i.sr && ((i.we && cellMode s c == 2) || cellMode s c == 3)

/-- The edge reads user bits: it writes or shifts, or FFA captures O6 (R118). -/
def cellReads (s : State) (c : CellPos) (i : CellIn) : Bool :=
  decide (2 ≤ cellMode s c) &&
    (cellActs s c i || (i.ce && !i.sr && cellBits s c 81 80 != 1 && cellBits s c 81 80 != 2))

/-- The data input of a shifting cell: AX, or L[63] of the cell before it in a cascade (R115). Where that cell is not in MODE 11 the
cascade is broken and the cell takes AX (DESIGN CHOICE, log entry 84). -/
def shiftIn (s : State) (c : CellPos) (i : CellIn) : Bool :=
  let p : CellPos := { c with k := c.k - 1 }
  if c.k ≠ 0 ∧ cellBits s c 73 73 = 1 ∧ cellMode s p = 3 then bitN (cellL s p) 63 == 1 else i.ax

/-- The LUT bits after the edge: a write stores AX at idx, and with correct parity clears PERR (R113, R119); a shift moves all 64 (R115). -/
def cellMem (old : State) (c : CellPos) (i : CellIn) (s : State) : State :=
  if ¬ cellActs old c i then s
  else if cellMode old c = 2 then
    let s := cellPutL c i.idx i.ax s
    if Store.get (fun _ => false) s.fab.parErr c.key then s
    else { s with fab := { s.fab with perr := Store.set (fun _ => false) s.fab.perr c.key false } }
  else
    forAll (List.range 64) (fun j s => cellPutL c j (if j = 0 then shiftIn old c i else bitN (cellL old c) (j - 1) == 1) s) s

/-- One edge of a cell's clock: what it does follows from the state `old` before the edge, in which every cell is read. -/
def cellEdge (old : State) (c : CellPos) (i : CellIn) (s : State) : State :=
  cellMem old c i (cellFF old c i (if cellReads old c i then cellParity c s else s))

/-! ### Wires, stations and Pass channels -/

/-- Where wire `w` of a Quire ends: at its length, or at the last Quire position in the region (R128, R129). -/
def wireEnd (col row w : Nat) : Nat × Nat :=
  let len := if w % 6 < 4 then 4 else 12
  match w / 6 with
  | 0 => (col, min (row + len) 31)
  | 1 => (min (col + len) 27, row)
  | 2 => (col, row - len)
  | _ => (col - len, row)

def stationKey (n col row w : Nat) : Nat := blkKey n col row * 24 + w

/-- The words that hold a Quire's routing selections, ROUTE of its cells (R121). -/
def routeWords (s : State) (n col row : Nat) : List Word := (List.range 172).map (fun w => quireWord s n col row (84 + w))

/-- A station's image fields, from the Quire in which its wire ends. -/
def stationCfg (s : State) (n col row w : Nat) : Nat :=
  lay layStation (stationKey n col row w) 3 (routeWords s n (wireEnd col row w).1 (wireEnd col row w).2)

/-- The wire carries a station and the image enables it; one that ends at a hard column has no Quire to belong to (R131, log entry 85). -/
def stationOn (s : State) (n col row w : Nat) : Bool :=
  isLogicCol (wireEnd col row w).1 && (stationCfg s n col row w).testBit 0

/-- What the far end of a wire carries: the station's value, or with no station what its Quire drives now (R131). -/
def wireFar (s : State) (n col row w : Nat) : Bool :=
  if stationOn s n col row w then Store.get (fun _ => false) s.fab.stations (stationKey n col row w)
  else (s.quireIn n col row).wires.getLsbD w

/-- The wires of length 4 and 12 that end at a Quire: column, row and number of each. -/
def wiresTo (col row : Nat) : List (Nat × Nat × Nat) :=
  (((List.range 28).filter isLogicCol).map (fun c => (c, row)) ++ ((List.range 32).filter (· != row)).map (fun r => (col, r))).flatMap
    (fun q => ((List.range 24).filter (fun w => wireEnd q.1 q.2 w == (col, row))).map (fun w => (q.1, q.2, w)))

/-- Clock line `l` of a Quire is the fabric global line `g` at this edge; a line that the image leaves unselected is gated off (R126, R127). -/
def quireLine (s : State) (n col row : Nat) (g : Nat) (rising : Bool) (l : Nat) : Bool :=
  let f := lay layQuireClk (row * 2 + l) 6 (routeWords s n col row)
  f.testBit 5 && f % 16 == g && (f.testBit 4 != rising)

/-- The stations of the Quire whose line moves sample their wires (R131, R132). -/
def stationEdge (old : State) (n col row g : Nat) (rising : Bool) (s : State) : State :=
  forAll (wiresTo col row) (fun q s =>
    if stationOn old n q.1 q.2.1 q.2.2 && quireLine old n col row g rising ((stationCfg old n q.1 q.2.1 q.2.2).testBit 1).toNat then
      let v := (old.quireIn n q.1 q.2.1).wires.getLsbD q.2.2
      { s with fab := { s.fab with stations := Store.set (fun _ => false) s.fab.stations (stationKey n q.1 q.2.1 q.2.2) v } }
    else s) s

/-- Pass stage 1 (in the sending region) or 2 (in the receiving one) of the word that leaves region `n` in direction `d`. -/
def passKey (n d w stage : Nat) : Nat := ((n * 4 + d) * 16 + w) * 2 + (stage - 1)

def State.passReg (s : State) (n d w stage : Nat) : Word := Store.get (fun _ => 0) s.fab.pass (passKey n d w stage)

/-- A Pass word's image fields (R134). -/
def passCfg (s : State) (n d w : Nat) : Nat := lay layPass (d * 16 + w) 5 (minorWords s (activeOf s n) n 28 0 4)

/-- Vote of a hardened word. -/
def Triple.vote (t : Triple) : Word := (t.c0 &&& t.c1) ||| (t.c1 &&& t.c2) ||| (t.c0 &&& t.c2)

/-- The fence value of a Pass word that leaves region `n`, of its active plane's COMMIT (R136, R208). -/
def fenceWord (s : State) (n d w : Nat) : Word :=
  ((if activeOf s n then (s.rg n).fence1 else (s.rg n).fence0).getD (d * 16 + w) {}).vote

/-- What stage 2's fence multiplexer gives in the receiving region (R136). -/
def passOut (s : State) (n d w : Nat) : Word := if rgnFenced s n then fenceWord s n d w else s.passReg n d w 2

/-- Channels `lo` to `lo + cnt - 1` of a stage; a stage in a region whose clocks stand still holds (R134, R145). -/
def passPut (at_ n d w stage lo cnt : Nat) (v : Word) (s : State) : State :=
  if ¬ clocksOn s at_ then s
  else
    let new := setFld (s.passReg n d w stage) (lo + cnt - 1) lo (fld v (lo + cnt - 1) lo)
    { s with fab := { s.fab with pass := Store.set (fun _ => 0) s.fab.pass (passKey n d w stage) new } }

/-- A word's crossing at an edge of its line, and every crossing that takes it on in THRU, all from the state `old` (R134, R135). -/
def passShift (old : State) (g d w lo cnt : Nat) : Nat → Nat → Word → State → State
  | 0, _, _, s => s
  | fuel + 1, n, v, s =>
    if passCfg old n d w % 16 ≠ g then s
    else match rgnNext n d with
      | none => s
      | some m =>
        let s := passPut m n d w 2 lo cnt (old.passReg n d w 1) (passPut n n d w 1 lo cnt v s)
        if (passCfg old m d w).testBit 4 then passShift old g d w lo cnt fuel m (passOut old n d w) s else s

/-- The Pass words that attach to an edge Quire: direction, word, first channel, channels (R133). -/
def passAttach (col row : Nat) : List (Nat × Nat × Nat × Nat) :=
  let ns := if col < 6 then [col] else if isLogicCol col ∧ 7 ≤ col ∧ col ≤ 12 then [col - 1] else if 14 ≤ col ∧ col ≤ 17 then [col - 2] else []
  (if row = 31 then ns.map (fun w => (0, w, 0, 36)) else []) ++
  (if col = 27 then [(1, row / 2, 18 * (row % 2), 18)] else []) ++
  (if row = 0 then ns.map (fun w => (2, w, 0, 36)) else []) ++
  (if col = 0 then [(3, row / 2, 18 * (row % 2), 18)] else [])

/-- The Pass channels that leave from a Quire, at a rising edge of their line; a word in THRU takes nothing from the fabric (R134). -/
def passEdge (old : State) (n col row g : Nat) (i : QuireIn) (s : State) : State :=
  forAll (passAttach col row) (fun a s =>
    if (passCfg old n a.1 a.2.1).testBit 4 ∧ (rgnNext n ((a.1 + 2) % 4)).isSome then s
    else
      let v := if a.1 % 2 = 0 then i.passNS else wd (i.passEW.toNat <<< a.2.2.1)
      passShift old g a.1 a.2.1 a.2.2.1 a.2.2.2 8 n v s) s

/-! ### An edge at a Quire -/

/-- Flip-flops, stations and blocks of a region are held at preload: before step 6a, and during a region reset (R109, R117). -/
def heldPreload (s : State) (n : Nat) : Bool := !s.boot.opened || s.getB (Reg.rgnStatus n) 4

/-- An asserted asynchronous SR acts at once, without an edge (R109). -/
def srAsync (n col row : Nat) (i : QuireIn) (s : State) : State :=
  if heldPreload s n ∨ (s.rg n).gated ∨ s.mode = .retain then s
  else forAll (List.range 36) (fun k u =>
    let c : CellPos := ⟨n, col, row, k⟩
    if cellBits s c 74 74 = 1 ∧ (cellIn s i false false c).sr then ffSet s c u else u) s

/-- Every cell of the Quire whose clock line moves (R127). -/
def quireEdge (old : State) (n col row g : Nat) (rising we : Bool) (i : QuireIn) (s : State) : State :=
  forAll (List.range 36) (fun k s =>
    let c : CellPos := ⟨n, col, row, k⟩
    if quireLine old n col row g rising (cellBits old c 75 75) then cellEdge old c (cellSees old i we c) s else s) s

/-- The routing presents `i` to a Quire and the fabric global line `g` has an edge there (R107 to R136). -/
def opQuire (n col row g : Nat) (rising we : Bool) (i : QuireIn) (s : State) : State :=
  if ¬ isLogicCol col then s
  else
    let s := srAsync n col row i { s with fab := { s.fab with ins := Store.set (fun _ => {}) s.fab.ins (blkKey n col row) i } }
    if ¬ clocksOn s n ∨ ¬ lineRuns s g then s
    else
      let t := stationEdge s n col row g rising (quireEdge s n col row g rising we i s)
      if rising then passEdge s n col row g i t else t

/-! ### RAM36 -/

def State.ram (s : State) (n col row : Nat) : Ram36 := Store.get (fun _ => {}) s.fab.ram36 (blkKey n col row)

def State.setRam (s : State) (n col row : Nat) (r : Ram36) : State :=
  { s with fab := { s.fab with ram36 := Store.set (fun _ => {}) s.fab.ram36 (blkKey n col row) r } }

/-- A field of a RAM36's settings in the active plane (R166). -/
def ramCfg (s : State) (n col row w hi lo : Nat) : Nat := fld (blockWord s n col row w) hi lo

/-- Blocks of a cascade group (R161). -/
def cascSize (s : State) (n col row : Nat) : Nat := 2 ^ ramCfg s n col row 0 21 20

/-- The base row of the group that a block is in: its settings are the group's (R161). -/
def cascBase (s : State) (n col row : Nat) : Nat := row - row % cascSize s n col row

/-- The number of words between a block and the next in the content store. -/
def ramKey (n col row w : Nat) : Nat := blkKey n col row * 1024 + w

def ramWord (s : State) (n col row w : Nat) : Word := Store.get (fun _ => 0) s.fab.ram (ramKey n col row w)

/-- Lanes whose hidden parity disagrees (R165). -/
def ramBad (s : State) (n col row w : Nat) : BitVec 4 := Store.get (fun _ => 0) s.fab.ramPar (ramKey n col row w)

/-- CLK_A and CLK_B (R166). -/
def ramClk (s : State) (n col base : Nat) (portB : Bool) : Nat := if portB then ramCfg s n col base 0 19 16 else ramCfg s n col base 0 15 12

/-- Edges reach a port: the block exists, its region's clocks run, and so does the line that the port names (R149, R166). -/
def portRuns (s : State) (n col base : Nat) (portB : Bool) : Bool :=
  isRamCol col && clocksOn s n && lineRuns s (ramClk s n col base portB)

/-- Where a port address leads in a width: physical word, first lane, number of lanes (R151). -/
def portWord (width addr : Nat) : Nat × Nat × Nat :=
  match width with
  | 1 => (addr % 2048 / 2, 2 * (addr % 2), 2)
  | 2 => (addr % 4096 / 4, addr % 4, 1)
  | _ => (addr % 1024, 0, 4)

/-- The member of the group that ADDR[14:12] selects (R161). -/
def memberRow (s : State) (n col base addr : Nat) : Nat := base + addr / 4096 % cascSize s n col base

/-- Lanes that a write enables: WE by lane in the full width, WE[0] otherwise (R151). -/
def laneSet (first cnt : Nat) (we : BitVec 4) : List Nat :=
  if cnt = 4 then (List.range 4).filter (fun i => we.getLsbD i)
  else if we.getLsbD 0 then (List.range cnt).map (fun i => first + i) else []

/-- Store lanes of a word; a lane's hidden parity is written with it (R165). -/
def ramPut (n col row w first : Nat) (lanes : List Nat) (din : Word) (s : State) : State :=
  let v := lanes.foldl (fun v i => setFld v (9 * i + 8) (9 * i) (fld din (9 * (i - first) + 8) (9 * (i - first)))) (ramWord s n col row w)
  let bad := lanes.foldl (fun b i => b &&& ~~~((1 : BitVec 4) <<< i)) (ramBad s n col row w)
  { s with fab := { s.fab with
    ram := Store.set (fun _ => 0) s.fab.ram (ramKey n col row w) v,
    ramPar := Store.set (fun _ => 0) s.fab.ramPar (ramKey n col row w) bad } }

/-- What a read returns in a width. -/
def ramGet (s : State) (n col row w first cnt : Nat) : Word :=
  wd (fld (ramWord s n col row w) (9 * (first + cnt) - 1) (9 * first))

/-- A read finds a parity mismatch (R165): every one is counted (R143), the first of the block is logged. -/
def ramParity (n col row : Nat) (lanes : List Nat) (s : State) : State :=
  match lanes with
  | [] => s
  | l :: _ =>
    let s := s.count (Reg.rgnCntParity n) 35 0
    let r := s.ram n col row
    if r.ppar then s else logWrite n (logEntry 6 col row l 0 0) 0x406 (s.setRam n col row { r with ppar := true })

/-- One edge at which the array gives a port the word `w`: it enters the cascade's stages and the output register, of which there are
`depth`; what they held longer leaves (R153, R161). With OREG = 0 there is no register, and OCE and ORST act on nothing (log entry 86). -/
def portPush (depth : Nat) (oreg oce orst : Bool) (init : Word) (w : Word × Bool) (p : RamPort) : RamPort :=
  let q := p.pipe ++ [w]
  let p := { p with last := w, pipe := q.drop (q.length - depth) }
  if oreg && orst then { p with dout := init, perr := false }
  else if oreg && !oce then p
  else match q[q.length - depth - 1]? with
    | some h => if depth < q.length then { p with dout := h.1, perr := h.2 } else p
    | none => p

/-- Stages between the array and DOUT: the output register, and the cascade's (R153, R161). -/
def ramDepth (s : State) (n col base : Nat) (portB : Bool) : Nat :=
  ramCfg s n col base 0 (if portB then 11 else 10) (if portB then 11 else 10) +
  (match cascSize s n col base with | 1 => 0 | 8 => 2 | _ => 1)

def Ram36.port (r : Ram36) (portB : Bool) : RamPort := if portB then r.b else r.a

def Ram36.setPort (r : Ram36) (portB : Bool) (p : RamPort) : Ram36 := if portB then { r with b := p } else { r with a := p }

/-- A word read from the array goes to a port of the group's base. -/
def ramOut (n col base : Nat) (portB oce orst : Bool) (w : Word × Bool) (s : State) : State :=
  let oreg := ramCfg s n col base 0 (if portB then 11 else 10) (if portB then 11 else 10) == 1
  let init := blockWord s n col base (if portB then 2 else 1)
  let r := s.ram n col base
  s.setRam n col base (r.setPort portB (portPush (ramDepth s n col base portB) oreg oce orst init w (r.port portB)))

/-- WIDTH of a port. -/
def ramWidth (s : State) (n col base : Nat) (portB : Bool) : Nat := ramCfg s n col base 0 (if portB then 3 else 1) (if portB then 2 else 0)

/-- Read a physical word's lanes for a port, with the parity check (R153, R165). -/
def ramReadAt (n col base row w first cnt : Nat) (portB oce orst : Bool) (s : State) : State :=
  let lanes := ((List.range cnt).map (fun i => first + i)).filter (fun i => (ramBad s n col row w).getLsbD i)
  let bad := ramCfg s n col base 0 26 26 == 1 && !lanes.isEmpty
  let v := ramGet s n col row w first cnt
  let s := ramOut n col base portB oce orst (v, bad) s
  if bad then ramParity n col row lanes s else s

/-- An edge of port B ends the cycle in which LOST stands (R155). -/
def lostClear (n col base : Nat) (portB : Bool) (s : State) : State :=
  if portB then s.setRam n col base { s.ram n col base with lost := false } else s

/-- What one port asks at an edge: member row, physical word, first lane, lanes read, lanes written, data. -/
structure PortAct where
  row : Nat
  word : Nat
  first : Nat
  cnt : Nat
  lanes : List Nat
  din : Word
  deriving DecidableEq, Repr

def portAct (s : State) (n col base : Nat) (portB : Bool) (w : PortIn) : PortAct :=
  let p := portWord (ramWidth s n col base portB) w.addr.toNat
  { row := memberRow s n col base w.addr.toNat, word := p.1, first := p.2.1, cnt := p.2.2,
    lanes := laneSet p.2.1 p.2.2 w.we, din := w.din }

/-- The port's own output at an edge: the old word when read-first; when no-change the array gives what it gave last, and DOUT takes no
new word; a port with no lane enabled reads (R153). -/
def portShow (n col base : Nat) (portB : Bool) (w : PortIn) (a : PortAct) (s : State) : State :=
  if ¬ a.lanes.isEmpty ∧ ramCfg s n col base 0 (if portB then 9 else 8) (if portB then 9 else 8) = 1 then
    ramOut n col base portB w.oce w.orst ((s.ram n col base).port portB).last s
  else ramReadAt n col base a.row a.word a.first a.cnt portB w.oce w.orst s

/-- Store what one port writes. -/
def portStore (n col : Nat) (a : PortAct) (s : State) : State :=
  if a.lanes.isEmpty then s else ramPut n col a.row a.word a.first a.lanes a.din s

/-- The collision flag rises with E801 (R157, R367). In a cascade group the flags are those of the base, whose ports the group's are, and
E801 names its row (DESIGN CHOICE, log entry 87). -/
def collRaise (n col base : Nat) (s : State) : State :=
  let r := s.ram n col base
  let s' := s.setRam n col base { r with coll := true, lost := true }
  if r.coll then s'
  else raise 0x801 (BitVec.ofNat 8 (0x40 + n)) (base <<< 7 ||| (if col = 20 then 1 else 0) <<< 6 ||| n) s'

/-- A port that is enabled at an edge that reaches it; an edge with EN = 0 moves nothing of the port, words on their way to DOUT among
it (R152; DESIGN CHOICE, log entry 86). -/
def portAsk (s : State) (n col base : Nat) (portB : Bool) (w : Option PortIn) : Option (PortIn × PortAct) :=
  match w with
  | some i => if portRuns s n col base portB && i.en then some (i, portAct s n col base portB i) else none
  | none => none

/-- An edge of one port, or the same edge of both: reads see the words before it, then the writes with the collision rule (R152 to R155). -/
def opRam (n col row : Nat) (a b : Option PortIn) (s : State) : State :=
  let base := cascBase s n col row
  if ramCfg s n col base 0 5 4 = 1 then s
  else
    let pa := portAsk s n col base false a
    let pb := portAsk s n col base true b
    let s := if b.isSome && portRuns s n col base true then lostClear n col base true s else s
    let s := match pa with
      | some x => portShow n col base false x.1 x.2 s
      | none => s
    let s := match pb with
      | some y => portShow n col base true y.1 y.2 s
      | none => s
    match pa, pb with
    | some x, some y =>
      let coll := x.2.row == y.2.row && x.2.word == y.2.word && x.2.lanes.any (fun l => y.2.lanes.contains l)
      match ramCfg s n col base 0 7 6 with
      | 1 => portStore n col y.2 (portStore n col x.2 s)
      | 2 => if coll then collRaise n col base (portStore n col x.2 s) else portStore n col x.2 (portStore n col y.2 s)
      | _ => portStore n col x.2 (portStore n col y.2 s)
    | some x, none => portStore n col x.2 s
    | none, some y => portStore n col y.2 s
    | none, none => s

/-- A port's edge with no write enable. -/
def opRamRead (n col row : Nat) (portB : Bool) (addr : BitVec 15) (en oce orst : Bool) (s : State) : State :=
  let i : PortIn := ⟨addr, 0, en, 0, oce, orst⟩
  if portB then opRam n col row none (some i) s else opRam n col row (some i) none s

/-- COLL_CLR sampled at 1 at an edge of port A (R157). -/
def opCollClr (n col row : Nat) (s : State) : State :=
  let base := cascBase s n col row
  if portRuns s n col base false then s.setRam n col base { s.ram n col base with coll := false } else s

/-! ### FIFOs -/

def isFifo (s : State) (n col base : Nat) : Bool := isRamCol col && ramCfg s n col base 0 5 4 == 1

/-- Entries of one block in a width (R151). -/
def widthDepth (width : Nat) : Nat := match width with | 1 => 2048 | 2 => 4096 | _ => 1024

/-- Capacity: the depth times the cascade group (R158). -/
def fifoCap (s : State) (n col base : Nat) : Nat := widthDepth (ramWidth s n col base false) * cascSize s n col base

/-- Where entry `e` of the store lies: member row, physical word, first lane, lanes. -/
def fifoAt (s : State) (n col base e : Nat) : Nat × Nat × Nat × Nat :=
  let width := ramWidth s n col base false
  let p := portWord width (e % widthDepth width)
  (base + e / widthDepth width, p.1, p.2.1, p.2.2)

/-- The side that the chip interconnect has (R162): 0 none, 1 read, 2 write. -/
def fifoShared (s : State) (n col base : Nat) : Nat :=
  if ramCfg s n col base 0 22 22 = 0 then 0 else 1 + ramCfg s n col base 0 25 25

/-- The synchronising delay in edges of the flag's own clock, for a flag of the read side and of the write side (R159, R162). Where both
sides have one line, the read side's command of an edge comes before the write side's, whose edge then still falls within the cycle
(log entry 89). -/
def fifoDelayR (s : State) (n col base : Nat) : Nat :=
  if fifoShared s n col base = 0 ∧ ramClk s n col base false = ramClk s n col base true then 1 else 4
def fifoDelayW (s : State) (n col base : Nat) : Nat := if fifoDelayR s n col base = 1 then 2 else 4

/-- A FIFO_RST has not completed on both sides (R160). -/
def Ram36.inReset (r : Ram36) : Bool := r.rstW != 0 || r.rstR != 0

/-- Entries as the write side and the read side see them: each side's own operations at once, the far side's after the delay (R159). -/
def Ram36.cntW (r : Ram36) : Nat := r.cnt + r.farR.length
def Ram36.cntR (r : Ram36) : Nat := r.cnt - r.farW.length

/-- FULL and EMPTY (R159, R160). -/
def fifoFull (s : State) (n col base : Nat) : Bool :=
  (s.ram n col base).inReset || decide (fifoCap s n col base ≤ (s.ram n col base).cntW)
def fifoEmpty (s : State) (n col base : Nat) : Bool := (s.ram n col base).inReset || (s.ram n col base).cntR == 0

/-- An edge of the write side's clock: reads come into its view, and a FIFO_RST comes nearer its end (R159, R160). -/
def Ram36.edgeW (r : Ram36) : Ram36 := { r with farR := (r.farR.map (· - 1)).filter (· != 0), rstW := r.rstW - 1 }
def Ram36.edgeR (r : Ram36) : Ram36 := { r with farW := (r.farW.map (· - 1)).filter (· != 0), rstR := r.rstR - 1 }

def fifoEdgeW (n col base : Nat) (s : State) : State := s.setRam n col base (s.ram n col base).edgeW

def fifoEdgeR (n col base : Nat) (s : State) : State := s.setRam n col base (s.ram n col base).edgeR

/-- A push: stored, or dropped with OVF when full; ignored while a reset completes (R159, R160). -/
def fifoPush (n col base : Nat) (din : Word) (s : State) : State :=
  let r := s.ram n col base
  if r.inReset then s
  else if fifoFull s n col base then s.setRam n col base { r with ovf := true }
  else
    let p := fifoAt s n col base ((r.rd + r.cnt) % fifoCap s n col base)
    let d := fifoDelayR s n col base
    let s := ramPut n col p.1 p.2.1 p.2.2.1 ((List.range p.2.2.2).map (fun i => p.2.2.1 + i)) din s
    s.setRam n col base { s.ram n col base with cnt := r.cnt + 1, farW := r.farW ++ [d] }

/-- Move the read pointer past the head. -/
def fifoDrop (n col base : Nat) (s : State) : State :=
  let r := s.ram n col base
  s.setRam n col base
    { r with rd := (r.rd + 1) % fifoCap s n col base, cnt := r.cnt - 1, farR := r.farR ++ [fifoDelayW s n col base] }

/-- An edge of port A of a FIFO whose write side is the fabric's. -/
def opFifoWrite (n col row : Nat) (en : Bool) (din : Word) (s : State) : State :=
  let base := cascBase s n col row
  if ¬ portRuns s n col base false ∨ ¬ isFifo s n col base ∨ fifoShared s n col base = 2 then s
  else fifoEdgeW n col base (if en then fifoPush n col base din s else s)

/-- A read presents the head as a port B read does, or sets UDF when empty (R158, R159). -/
def fifoPop (n col base : Nat) (oce orst : Bool) (s : State) : State :=
  let r := s.ram n col base
  if r.inReset then s
  else if fifoEmpty s n col base then s.setRam n col base { r with udf := true }
  else
    let p := fifoAt s n col base r.rd
    fifoDrop n col base (ramReadAt n col base p.1 p.2.1 p.2.2.1 p.2.2.2 true oce orst s)

/-- An edge of port B of a FIFO whose read side is the fabric's. -/
def opFifoRead (n col row : Nat) (en oce orst : Bool) (s : State) : State :=
  let base := cascBase s n col row
  if ¬ portRuns s n col base true ∨ ¬ isFifo s n col base ∨ fifoShared s n col base = 1 then s
  else fifoEdgeR n col base (if en then fifoPop n col base oce orst s else s)

/-- FIFO_RST sampled at 1 on both sides: the FIFO is empty, OVF and UDF clear, and the reset completes on each side after the delay (R160). -/
def fifoReset (n col base : Nat) (s : State) : State :=
  s.setRam n col base { s.ram n col base with
    rd := 0, cnt := 0, ovf := false, udf := false, farW := [], farR := [], rstW := fifoDelayR s n col base, rstR := fifoDelayR s n col base }

def opFifoRst (n col row : Nat) (s : State) : State :=
  let base := cascBase s n col row
  if isFifo s n col base ∧ clocksOn s n ∧ (portRuns s n col base false ∨ fifoShared s n col base = 2) ∧
      (portRuns s n col base true ∨ fifoShared s n col base = 1) then fifoReset n col base s
  else s

/-- A region's shared FIFO k (R162). Of two blocks that the image gives one index the lowest row answers, C06 before C20 (DESIGN CHOICE,
log entry 88). -/
def sharedFifo (s : State) (n k : Nat) : Option (Nat × Nat) :=
  ((List.range 32).flatMap (fun r => [(6, r), (20, r)])).find? (fun p =>
    cascBase s n p.1 p.2 == p.2 && isFifo s n p.1 p.2 && ramCfg s n p.1 p.2 0 22 22 == 1 && ramCfg s n p.1 p.2 0 24 23 == k)

/-- Window offset of a shared FIFO's registers (R162). -/
def fifoAddr (n k : Nat) : Nat := 0x100000 + 0x4000 * n + 0x3FF0 + 4 * k

/-- OWNER of a shared FIFO, in its CLAIM register (R49, R163). -/
def fifoOwner (s : State) (n k : Nat) : Nat := s.getF (fifoAddr n k + 2) 7 0

/-- The shared side's clock, CK_SYS, moves on by one edge (R162). -/
def fifoEdgeShared (n col base : Nat) (s : State) : State :=
  if fifoShared s n col base = 1 then fifoEdgeR n col base s else fifoEdgeW n col base s

/-- The FIFO's registers answer: the region is not quarantined (R28), the FIFO is unowned or the requester owns it (R163). An access takes
an edge of CK_SYS. -/
def fifoFor (n k : Nat) (who : Req) (op : Nat × Nat → State → State) (s : State) : State :=
  if s.getB (Reg.rgnStatus n) 0 then busErr s
  else match sharedFifo s n k with
    | none => s
    | some p =>
      if fifoOwner s n k = 0 ∨ fifoOwner s n k = who.toNat then fifoEdgeShared n p.1 p.2 (op p s) else busErr s

/-- A read of DATA on the read side pops the head; an empty FIFO reads zero and sets UDF (R163). -/
def fifoData (n : Nat) (peek : Bool) (p : Nat × Nat) (s : State) : State :=
  let r := s.ram n p.1 p.2
  if fifoShared s n p.1 p.2 ≠ 1 ∨ r.inReset then s
  else if fifoEmpty s n p.1 p.2 then (if peek then s else s.setRam n p.1 p.2 { r with udf := true })
  else
    let q := fifoAt s n p.1 p.2 r.rd
    let s := answer (ramGet s n p.1 q.1 q.2.1 q.2.2.1 q.2.2.2) s
    if peek then s
    else
      let lanes := ((List.range q.2.2.2).map (fun i => q.2.2.1 + i)).filter (fun i => (ramBad s n p.1 q.1 q.2.1).getLsbD i)
      fifoDrop n p.1 p.2 (if ramCfg s n p.1 p.2 0 26 26 = 1 then ramParity n p.1 q.1 lanes s else s)

def opFifoDataRead (n k : Nat) (who : Req) (peek : Bool) (s : State) : State := fifoFor n k who (fifoData n (peeks who peek)) s

def opFifoDataWrite (n k : Nat) (who : Req) (v : Word) (s : State) : State :=
  fifoFor n k who (fun p s => if fifoShared s n p.1 p.2 = 2 then fifoPush n p.1 p.2 v s else s) s

/-- FLAGS as it reads, COUNT as the shared side sees it (R163). -/
def fifoFlags (s : State) (n : Nat) (p : Nat × Nat) : Word :=
  let r := s.ram n p.1 p.2
  let cnt := if fifoShared s n p.1 p.2 = 1 then r.cntR else r.cntW
  wd (cnt <<< 16 ||| r.udf.toNat <<< 5 ||| r.ovf.toNat <<< 4 |||
    (decide (fld (blockWord s n p.1 p.2 4) 15 0 ≤ r.cntW)).toNat <<< 3 ||| (fifoFull s n p.1 p.2).toNat <<< 2 |||
    (decide (r.cntR ≤ fld (blockWord s n p.1 p.2 3) 15 0)).toNat <<< 1 ||| (fifoEmpty s n p.1 p.2).toNat)

/-- A write of FLAGS clears OVF and UDF (R163). -/
def opFifoFlags (n k : Nat) (who : Req) (v : Word) (s : State) : State :=
  fifoFor n k who (fun p s =>
    let r := s.ram n p.1 p.2
    s.setRam n p.1 p.2 { r with udf := r.udf && !v.getLsbD 5, ovf := r.ovf && !v.getLsbD 4 }) s

/-- More than four CK_SYS edges pass in one CK_SVC cycle: the shared sides see everything (R162). -/
def tickFifos (s : State) : State :=
  let wake := fun (e : Nat × Ram36) =>
    let n := e.1 / 928
    let col := e.1 / 32 % 29
    match fifoShared s n col (e.1 % 32) with
    | 1 => { e.2 with farW := [], rstR := 0 }
    | 2 => { e.2 with farR := [], rstW := 0 }
    | _ => e.2
  { s with fab := { s.fab with ram36 := s.fab.ram36.foldl (fun m e => Store.set (fun _ => {}) m e.1 (wake e)) [] } }

/-! ### MAC36 -/

def macKey (n row : Nat) (second : Bool) : Nat := (n * 32 + row) * 2 + second.toNat

def State.mac36 (s : State) (k : Nat) : Mac36 := Store.get (fun _ => {}) s.fab.mac k

def State.setMac (s : State) (k : Nat) (m : Mac36) : State := { s with fab := { s.fab with mac := Store.set (fun _ => {}) s.fab.mac k m } }

/-- Settings word 0 of a MAC36 (R150, R173). -/
def macCfg (s : State) (n row : Nat) (second : Bool) : Word := blockWord s n 13 row (if second then 32 else 0)

/-- An operand read by its own signedness. -/
def macVal (signed : Bool) (v w : Nat) : Int := if signed then sgn v w else (v : Int)

/-- The accumulator after an edge, for one lane of `w` bits (R168, R169): the value stored and whether it overflowed. -/
def macLane (w : Nat) (signed sat : Bool) (op : Nat) (p pcin c : Nat) (m : Int) : Nat × Bool :=
  let rd := fun (v : Nat) => macVal signed v w
  let r : Int := match op with
    | 0 => m
    | 1 => rd p + m
    | 2 => rd p - m
    | 3 => rd pcin + m
    | 4 => rd c + m
    | 5 => rd c - m
    | 6 => rd pcin - m
    | _ => 0
  let lo : Int := if signed then -((2 ^ (w - 1) : Nat) : Int) else 0
  let hi : Int := if signed then ((2 ^ (w - 1) : Nat) : Int) - 1 else ((2 ^ w : Nat) : Int) - 1
  let ov := decide (r < lo) || decide (hi < r)
  (if ov ∧ sat then unsgn (if r < lo then lo else hi) w else unsgn r w, ov)

/-- Lanes of a block: count, operand width, accumulator width (R170). -/
def macLanes (split : Nat) : Nat × Nat × Nat := match split with | 1 => (2, 18, 48) | 2 => (4, 9, 24) | _ => (1, 36, 96)

/-- All lanes of P after an edge, and whether any overflowed (R170). -/
def macNext (cfg : Word) (op : Nat) (p pcin c : BitVec 96) (a b : Word) : BitVec 96 × Bool :=
  let l := macLanes (fld cfg 1 0)
  let sa := cfg.getLsbD 2
  let sb := cfg.getLsbD 3
  let cut := fun (v : BitVec 96) (i : Nat) => fld v (l.2.2 * i + l.2.2 - 1) (l.2.2 * i)
  let lane := fun (i : Nat) =>
    macLane l.2.2 (sa || sb) (cfg.getLsbD 6) op (cut p i) (cut pcin i) (cut c i)
      (macVal sa (fld a (l.2.1 * i + l.2.1 - 1) (l.2.1 * i)) l.2.1 * macVal sb (fld b (l.2.1 * i + l.2.1 - 1) (l.2.1 * i)) l.2.1)
  let rs := (List.range l.1).map lane
  (BitVec.ofNat 96 ((rs.zipIdx).foldl (fun v e => v ||| e.1.1 <<< (l.2.2 * e.2)) 0), rs.any (fun r => r.2))

/-- PCIN: P of the block before, or 0 (R172). -/
def macPcin (s : State) (n row : Nat) (second : Bool) : BitVec 96 :=
  if ¬ (macCfg s n row second).getLsbD 19 then 0
  else if second then (s.mac36 (macKey n row false)).p
  else if row = 0 then 0
  else (s.mac36 (macKey n (row - 1) true)).p

/-- The pre-adder: result modulo 2^36 and whether it wrapped (R167); not used in split modes (R170). Whether it wrapped is read with A and D
both as SIGNED_A has them (DESIGN CHOICE, log entry 90). -/
def macPre (cfg : Word) (a d : Word) : Word × Bool :=
  if ¬ cfg.getLsbD 4 ∨ fld cfg 1 0 = 1 ∨ fld cfg 1 0 = 2 then (a, false)
  else
    let sa := cfg.getLsbD 2
    let x := macVal sa a.toNat 36
    let y := macVal sa d.toNat 36
    let r := if cfg.getLsbD 5 then x - y else x + y
    let lo : Int := if sa then -((2 ^ 35 : Nat) : Int) else 0
    let hi : Int := if sa then ((2 ^ 35 : Nat) : Int) - 1 else ((2 ^ 36 : Nat) : Int) - 1
    (wd (unsgn r 36), decide (r < lo) || decide (hi < r))

/-- A block's pipeline registers after an edge (R171). -/
def macPipe (cfg : Word) (m : Mac36) (i : MacIn) : Mac36 :=
  let b1 := if cfg.getLsbD 13 then m.breg else i.b
  let pre := macPre cfg (if cfg.getLsbD 12 then m.areg else i.a) (if cfg.getLsbD 15 then m.dreg else i.d)
  { m with
    areg := i.a, breg := i.b, creg := i.c, dreg := i.d, prereg := pre.1, breg2 := b1,
    m1a := if cfg.getLsbD 16 then m.prereg else pre.1, m1b := if cfg.getLsbD 16 then m.breg2 else b1,
    m2a := m.m1a, m2b := m.m1b, preOvf := pre.2 }

/-- What reaches the accumulator: the two multiplier operands and C, through the registers that the image enables (R171). -/
def macFeed (cfg : Word) (m : Mac36) (i : MacIn) : Word × Word × BitVec 96 :=
  let b1 := if cfg.getLsbD 13 then m.breg else i.b
  let pre := macPre cfg (if cfg.getLsbD 12 then m.areg else i.a) (if cfg.getLsbD 15 then m.dreg else i.d)
  let a2 := if cfg.getLsbD 16 then m.prereg else pre.1
  let b2 := if cfg.getLsbD 16 then m.breg2 else b1
  (if cfg.getLsbD 17 then m.m2a else a2, if cfg.getLsbD 17 then m.m2b else b2, if cfg.getLsbD 14 then m.creg else i.c)

/-- One edge of a MAC36's clock: its enabled pipeline registers advance, and P takes what OPMODE selects (R168, R171). With PREG = 0 P
shows what the registers give after the edge, one cycle earlier (DESIGN CHOICE, log entry 91). -/
def opMac (n row : Nat) (second : Bool) (i : MacIn) (s : State) : State :=
  let cfg := macCfg s n row second
  if ¬ clocksOn s n ∨ ¬ lineRuns s (fld cfg 11 8) then s
  else
    let k := macKey n row second
    let m := s.mac36 k
    let u := macPipe cfg m i
    let f := macFeed cfg (if cfg.getLsbD 18 then m else u) i
    let r := macNext cfg i.opmode.toNat m.p (macPcin s n row second) f.2.2 f.1 f.2.1
    s.setMac k { u with
      p := if i.rstP then 0 else if i.ce then r.1 else m.p,
      ovf := !i.rstP && i.ce && r.2,
      ovfS := !i.rstP && (m.ovfS || (i.ce && r.2)) }

/-! ### Buses -/

/-- A driver site's MODE: 0 OFF, 1 STATIC, 2 DYNAMIC, and its line mask, from minors 8 and 9 of C28 (R137, R174). -/
def busMode (ws : List Word) (bus : Bool) (row : Nat) : Nat := lay layBusMode (bus.toNat * 32 + row) 2 ws
def busMask (ws : List Word) (bus : Bool) (row : Nat) : BitVec 36 := BitVec.ofNat 36 (lay layBusMask (bus.toNat * 32 + row) 36 ws)

/-- Lines that have a static driver. -/
def busStatic (ws : List Word) (bus : Bool) : BitVec 36 :=
  (List.range 32).foldl (fun m r => if busMode ws bus r = 1 then m ||| busMask ws bus r else m) 0

/-- Rows masked on at least one line, lowest first: the lines already taken are those of static drivers and of lower asserting rows (R139). -/
def busMasked (ws : List Word) (bus : Bool) (den : BitVec 32) : List Nat :=
  ((List.range 32).foldl (fun (a : BitVec 36 × List Nat) r =>
    if busMode ws bus r = 2 ∧ den.getLsbD r then
      (a.1 ||| busMask ws bus r, if a.1 &&& busMask ws bus r = 0 then a.2 else a.2 ++ [r])
    else a) (busStatic ws bus, [])).2

/-- The words of a bus's settings (R137, R174). -/
def busWords (s : State) (n : Nat) : List Word := minorWords s (activeOf s n) n 28 8 2

/-- What a row's driver site offers: the 36 QA or O6 outputs of the Quire on which the image places it, O6 under the inputs that stand
there (R137). -/
def busData (s : State) (n : Nat) (bus : Bool) (row : Nat) : Word :=
  let f := lay layBusSite (bus.toNat * 32 + row) 6 (busWords s n)
  let bit := fun (k : Nat) =>
    let c : CellPos := ⟨n, f % 32, row, k⟩
    if f.testBit 5 then Store.get (fun _ => false) s.fab.ffA c.key else lutO6 s c (cellSees s (s.quireIn n (f % 32) row) false c)
  wd ((List.range 36).foldl (fun v k => v ||| (bit k).toNat <<< k) 0)

/-- The row whose data bit line `l` carries: its static driver, else the lowest row that asserts on it (R139). -/
def busWinner (ws : List Word) (bus : Bool) (den : BitVec 32) (l : Nat) : Option Nat :=
  let on := fun (mode r : Nat) => busMode ws bus r == mode && (busMask ws bus r).getLsbD l
  match (List.range 32).find? (on 1) with
  | some r => some r
  | none => (List.range 32).find? (fun r => on 2 r && den.getLsbD r)

/-- What the 36 lines of a bus carry: IDLE where no row drives (R137, R139). -/
def busLines (s : State) (n : Nat) (bus : Bool) (den : BitVec 32) : Word :=
  let ws := busWords s n
  let idle := lay layBusIdle bus.toNat 36 ws
  wd ((List.range 36).foldl (fun v l => v ||| (match busWinner ws bus den l with
    | some r => ((busData s n bus r).getLsbD l).toNat
    | none => bitN idle l) <<< l) 0)

/-- The sample clock of a bus, as RGN.ATTR shows it (R137, R148). -/
def busClk (s : State) (n : Nat) (bus : Bool) : Nat := if bus then s.getF (Reg.rgnAttr n) 15 12 else s.getF (Reg.rgnAttr n) 11 8

/-- The sample edge of a bus (R139, R140). -/
def opContention (n : Nat) (bus : Bool) (den : BitVec 32) (s : State) : State :=
  if ¬ clocksOn s n ∨ ¬ lineRuns s (busClk s n bus) then s
  else
    let rows := busMasked (busWords s n) bus den
    let a := Reg.rgnCntCont n bus.toNat
    let s := { s with fab := { s.fab with bus := Store.set (fun _ => 0) s.fab.bus (2 * n + bus.toNat) (busLines s n bus den) } }
    let s := s.setF a 31 0 (min (2 ^ 32 - 1) (s.getF a 31 0 + rows.length))
    forAll rows (fun r s => s.setB (Reg.rgnContRows n bus.toNat) r true) s

/-! ### Commands -/

def execLutramWrite (e : QuireEdge) (i : QuireIn) (s : State) : Host.Outcome State Fault Refusal :=
  .next (opQuire e.q.region.val e.q.col.val e.q.row.val e.line.val e.rising true i s)

def execCellShift (e : QuireEdge) (i : QuireIn) (s : State) : Host.Outcome State Fault Refusal :=
  .next (opQuire e.q.region.val e.q.col.val e.q.row.val e.line.val e.rising false i s)

def execRam36Write (blk : BlkAddr) (a b : Option PortIn) (s : State) : Host.Outcome State Fault Refusal :=
  .next (opRam blk.region.val blk.col.val blk.row.val a b s)

def execRam36Read (blk : BlkAddr) (portB : Bool) (port : PortAt) (oce orst : Bool) (s : State) : Host.Outcome State Fault Refusal :=
  .next (opRamRead blk.region.val blk.col.val blk.row.val portB port.addr port.en oce orst s)

def execRam36CollClr (blk : BlkAddr) (s : State) : Host.Outcome State Fault Refusal :=
  .next (opCollClr blk.region.val blk.col.val blk.row.val s)

def execFifoWrite (blk : BlkAddr) (i : FifoIn) (s : State) : Host.Outcome State Fault Refusal :=
  .next (opFifoWrite blk.region.val blk.col.val blk.row.val i.en i.din s)

def execFifoRead (e : FifoEdge) (s : State) : Host.Outcome State Fault Refusal :=
  .next (opFifoRead e.blk.region.val e.blk.col.val e.blk.row.val e.en e.oce e.orst s)

def execFifoRst (blk : BlkAddr) (s : State) : Host.Outcome State Fault Refusal :=
  .next (opFifoRst blk.region.val blk.col.val blk.row.val s)

def execSharedFifoDataRead (who : Req) (region : Fin 64) (k : Fin 4) (peek : Bool) (s : State) : Host.Outcome State Fault Refusal :=
  .next (gateR who (fifoAddr region.val k.val) (opFifoDataRead region.val k.val who peek) s)

def execSharedFifoDataWrite (who : Req) (region : Fin 64) (k : Fin 4) (v : Word) (s : State) : Host.Outcome State Fault Refusal :=
  .next (gateW who (fifoAddr region.val k.val) (opFifoDataWrite region.val k.val who v) s)

def execMac36Accumulate (blk : BlkAddr) (second : Bool) (i : MacIn) (s : State) : Host.Outcome State Fault Refusal :=
  .next (if blk.col.val = 13 then opMac blk.region.val blk.row.val second i s else s)

def execBusContentionCount (region : Fin 64) (bus : Bool) (den : BitVec 32) (s : State) : Host.Outcome State Fault Refusal :=
  .next (opContention region.val bus den s)

end Sys2Proof.Machine
end

