-- ==== Sys2Proof/Machine/Furnish.lean ====
section
/-! DEFINITION. Furnish programs (R274 to R282): the instruction set, the run of a program on a context buffer. -/

namespace Sys2Proof.Machine

/-! ### Instruction fields (R276) -/

def furOp (w : Word) : Nat := fld w 35 30
def furD (w : Word) : Nat := fld w 29 27
def furA (w : Word) : Nat := fld w 26 24
def furI (w : Word) : Bool := w.getLsbD 23
def furB (w : Word) : Nat := fld w 22 20
def furImm (w : Word) : Nat := fld w 19 0

/-- Bits of an instruction that R277 does not name: they must be zero. None: an illegal opcode (R279). -/
def furUnnamed (w : Word) : Option Nat :=
  let op := furOp w
  if 1 ≤ op ∧ op ≤ 0x11 then some (if furI w then 0x700000 else 0xFFFFF)
  else match op with
    | 0x12 => some 0x7F00000
    | 0x18 => some 0x7FFFFF8
    | 0x19 => some 0x38FFFFF8
    | 0x20 => some 0x3FFFFFF0
    | 0x21 => some 0x38FFFFF0
    | 0x22 => some 0x38FFFFF0
    | 0x23 => some 0x388FFFF0
    | 0x24 => some 0x388FFFF0
    | 0x25 => some 0x388FFFF0
    | 0x26 => some 0x388FFFF0
    | 0x28 => some 0xFFFFF8
    | 0x29 => some 0xFFFF80
    | 0x2A => some 0x7FFFFFE
    | 0x2B => some 0x38FFFFF0
    | 0x3F => some 0x3FFFFF00
    | _ => none

/-! ### Arithmetic (R277) -/

def bool36 (b : Bool) : Word := if b then 1 else 0

/-- The ALU instructions 0x01 to 0x11. -/
def furAlu (op : Nat) (a b : Word) : Word :=
  match op with
  | 0x01 => a + b
  | 0x02 => a - b
  | 0x03 => wd (min (a.toNat + b.toNat) (2 ^ 36 - 1))
  | 0x04 => wd (a.toNat - b.toNat)
  | 0x05 => a &&& b
  | 0x06 => a ||| b
  | 0x07 => a ^^^ b
  | 0x08 => a <<< fld b 5 0
  | 0x09 => a >>> fld b 5 0
  | 0x0A => a.sshiftRight (fld b 5 0)
  | 0x0B => if a.toNat < b.toNat then a else b
  | 0x0C => if a.toNat < b.toNat then b else a
  | 0x0D => if a.toInt < b.toInt then a else b
  | 0x0E => if a.toInt < b.toInt then b else a
  | 0x0F => bool36 (a == b)
  | 0x10 => bool36 (decide (a.toNat < b.toNat))
  | 0x11 => bool36 (decide (a.toInt < b.toInt))
  | _ => 0

/-- Whether a branch is taken. -/
def furTaken (op : Nat) (a b : Word) : Bool :=
  match op with
  | 0x20 => true
  | 0x21 => a == 0
  | 0x22 => a != 0
  | 0x23 => a == b
  | 0x24 => a != b
  | 0x25 => decide (a.toNat < b.toNat)
  | 0x26 => decide (a.toInt < b.toInt)
  | _ => false

/-- TBUCKET (R280): the new token count and the decision. -/
def tbucket (c last prm x now : Word) : Word × Bool :=
  let el := (now - last).toNat
  let cap := fld prm 35 18 * 16 * 2 ^ 14
  let tok := if 2 ^ 35 ≤ el then cap else min (c.toNat + min el (2 ^ 26) * fld prm 17 0) cap
  if x.toNat * 2 ^ 14 ≤ tok then (wd (tok - x.toNat * 2 ^ 14), true) else (wd tok, false)

/-- The bits of history words, bit j of the history being bit j mod 36 of word j / 36 (R281). -/
def histNat (ws : List Word) : Nat := ws.foldr (fun w a => a * 2 ^ 36 + w.toNat) 0

def histWords (n h : Nat) : List Word := (List.range h).map (fun i => wd (n >>> (36 * i)))

/-- SEQWIN (R281): the new state word, the new history, XD's code; none of the words change where the second part is none. -/
def seqwin (st : Word) (hist : List Word) (x : Word) (take : Bool) : Option (Word × List Word) × Nat :=
  let w := fld st 35 26 + 1
  let hh := 36 * hist.length
  let s := fld x 15 0
  let d := sgn ((s + 65536 - fld st 15 0) % 65536) 16
  let st' := setFld (setFld st 15 0 s) 25 25 1
  let n := histNat hist
  if !st.getLsbD 25 then (some (st', histWords 1 hist.length), 0x5)
  else if d = 0 then (none, 0x0)
  else if 0 < d ∧ d < w then (some (setFld st 15 0 s, histWords ((n <<< d.toNat ||| 1) % 2 ^ hh) hist.length), 0x3)
  else if d < 0 ∧ -(w : Int) < d then
    let j := (-d).toNat
    if j < hh then
      (if bitN n j = 1 then (none, 0x0) else (some (st, histWords (n ||| 1 <<< j) hist.length), 0x7))
    else (none, 0x8)
  else if take then (some (st', histWords 1 hist.length), 0xD)
  else (none, 0xA)

/-! ### Running a program (R274, R275, R279) -/

/-- Registers, context buffer, whether an instruction changed it, and the events that EMIT raised: code and XA. -/
structure Fur where
  x : List Word := List.replicate 8 0
  c : List Word
  changed : Bool := false
  emits : List (Nat × Word) := []
  deriving DecidableEq, Repr

/-- How an instruction ends: at the next one, at RET, or with PROG_ERR and its cause. -/
inductive FurEnd where
  | at (pc : Nat)
  | ret (pres : Nat)
  | err (cause : Nat)
  deriving DecidableEq, Repr

def Fur.get (f : Fur) (i : Nat) : Word := f.x.getD i 0

def Fur.put (f : Fur) (i : Nat) (v : Word) : Fur := { f with x := f.x.set i v }

/-- Replace context words from `k` on. -/
def Fur.store (f : Fur) (k : Nat) (ws : List Word) : Fur :=
  { f with c := ws.zipIdx.foldl (fun c w => c.set (k + w.2) w.1) f.c, changed := true }

/-- One instruction that R279 does not stop for its opcode or an unnamed field; `t` is the engine time, `mesh` its MESHTIME. -/
def furExec (w : Word) (pc : Nat) (t : BitVec 64) (mesh : Bool) (f : Fur) : Fur × FurEnd :=
  let op := furOp w
  let imm := furImm w
  let a := f.get (furA w)
  let k := imm % 8
  let next := fun (f : Fur) => (f, FurEnd.at (pc + 1))
  if op ≤ 0x11 then
    next (f.put (furD w) (furAlu op a (if furI w then BitVec.signExtend 36 (BitVec.ofNat 20 imm) else f.get (furB w))))
  else if op = 0x12 then next (f.put (furD w) (wd (imm <<< 16)))
  else if op = 0x18 then (if f.c.length ≤ k then (f, .err 4) else next (f.put (furD w) (f.c.getD k 0)))
  else if op = 0x19 then (if f.c.length ≤ k then (f, .err 4) else next (f.store k [a]))
  else if op ≤ 0x26 then
    let off := imm % 16
    if off = 0 ∨ 15 < pc + off then (f, .err 3)
    else if furTaken op a (f.get (furB w)) then (f, .at (pc + off))
    else next f
  else if op = 0x28 then
    if f.c.length < k + 3 then (f, .err 4)
    else
      let now := wd t.toNat
      let r := tbucket (f.c.getD k 0) (f.c.getD (k + 1) 0) (f.c.getD (k + 2) 0) a now
      next ((f.store k [r.1, now]).put (furD w) (bool36 r.2))
  else if op = 0x29 then
    let h := (imm / 8) % 8
    if f.c.length < k + 1 + h then (f, .err 4)
    else
      let r := seqwin (f.c.getD k 0) ((f.c.drop (k + 1)).take h) a (decide (64 ≤ imm))
      next ((match r.1 with | some p => f.store k (p.1 :: p.2) | none => f).put (furD w) (wd r.2))
  else if op = 0x2A then
    next (f.put (furD w) (if imm = 0 then wd t.toNat else wd (mesh.toNat <<< 35 ||| t.toNat >>> 36)))
  else if op = 0x2B then next { f with emits := f.emits ++ [(0x5C0 + imm, a)] }
  else (f, .ret imm)

/-- One instruction (R279). -/
def furStep (w : Word) (pc : Nat) (t : BitVec 64) (mesh : Bool) (f : Fur) : Fur × FurEnd :=
  match furUnnamed w with
  | none => (f, .err 1)
  | some m => if w.toNat &&& m ≠ 0 then (f, .err 2) else furExec w pc t mesh f

/-- Run from instruction `pc`: the result of RET, or the cause and index of a program error. After instruction 15 without a branch
it ends as RET with result 0. -/
def furRun (prog : List Word) (t : BitVec 64) (mesh : Bool) : Nat → Nat → Fur → Fur × Except (Nat × Nat) Nat
  | 0, _, f => (f, .ok 0)
  | n + 1, pc, f =>
    match furStep (prog.getD pc 0) pc t mesh f with
    | (f, .at p) => if 15 < p then (f, .ok 0) else furRun prog t mesh n p f
    | (f, .ret v) => (f, .ok v)
    | (f, .err c) => (f, .error (c, pc))

end Sys2Proof.Machine
end

