-- ==== Sys2Proof/Machine/Engine.lean ====
section
/-! DEFINITION. The Rhorax engine's operations (R244 to R256, R268 to R273), aging (R286), FAULT (R288) and the RHX registers (R289). -/

namespace Sys2Proof.Machine

/-! ### Requesters, slots and credits (R244 to R249) -/

def rqMeshNo : Nat := 8
def rqCmdNo : Nat := 9

def State.setRspQ (s : State) (rq : Nat) (l : List Quad) : State :=
  { s with eng := { s.eng with rspQ := Store.set (fun _ => []) s.eng.rspQ rq l } }

def rqBack (s : State) (rq : Nat) : Nat := Store.get (fun _ => 0) s.eng.back rq

def setBack (rq n : Nat) (s : State) : State := { s with eng := { s.eng with back := Store.set (fun _ => 0) s.eng.back rq n } }

/-- Operations of a requester that hold a slot. -/
def rqOps (s : State) (rq : Nat) : List Op := s.eng.slots.filter (fun o => o.rq.val == rq && !o.drop)

/-- Credits in use: operations, responses not taken, and those that return at a region's release (R84, R247). -/
def rqUsed (s : State) (rq : Nat) : Nat := (rqOps s rq).length + (s.rspQ rq).length + rqBack s rq

def rqHeld (s : State) (rq : Nat) : Nat := Store.get (fun _ => 0) s.eng.held rq

def rqCredits (s : State) (rq : Nat) : Nat := rqHeld s rq - rqUsed s rq

def rqAlloc (s : State) (rq : Nat) : Nat := s.getF (Reg.rhxAlloc rq) 8 0

/-- Unallocated slots, of which there are none before global release (R247, R248, R289). -/
def slotsFree (s : State) : Nat := if s.boot.released then 512 - ((List.range 10).map (rqHeld s)).sum else 0

def setHeld (rq n : Nat) (s : State) : State := { s with eng := { s.eng with held := Store.set (fun _ => 0) s.eng.held rq n } }

/-- Slots above an allocation return as they become free, and go to the lowest-numbered requester that is short of its own (R248). -/
def rebalance (s : State) : State :=
  let s := forAll (List.range 10) (fun r s => setHeld r (min (rqHeld s r) (max (rqAlloc s r) (rqUsed s r))) s) s
  forAll (List.range 10) (fun r s => setHeld r (rqHeld s r + min (slotsFree s) (rqAlloc s r - rqHeld s r)) s) s

/-- The limit of an allocation (R248). -/
def allocLimit (rq : Nat) : Nat := if rq = rqMeshNo then 256 else 64

/-- The allocations that an image gives: each within its limit and the sum within 512, which R247 says it never exceeds; of words beyond
that the model takes what is left, in the order of the requesters (DESIGN CHOICE: log entry 105). -/
def allocGiven (w : Nat → Word) : List Nat :=
  (List.range 10).foldl (fun l n => l ++ [min (min (fld (w (3 + n)) 8 0) (allocLimit n)) (512 - l.sum)]) []

/-- The allocations of global release (R247). -/
def allocLoad (s : State) : State :=
  let w := fun i => actWord s 88 0 0 i
  let given := (w 0).getLsbD 1
  let hosted := fun k => (hostOf s 0 k).isSome
  let r := 512 - 64 * ((List.range 8).filter hosted).length
  let dflt := fun n => if n < 8 then (if hosted n then 64 else 0) else if n = 8 then min r 256 else min (r - min r 256) 64
  forAll (List.range 10) (fun n s =>
    let v := if given then (allocGiven w).getD n 0 else dflt n
    setHeld n v (s.setF (Reg.rhxAlloc n) 8 0 v)) s

/-! ### What a request names (R268, R273) -/

def opRemote (s : State) (o : Op) : Bool := match reqNode o.req with | some n => n != ownNode s | none => false

/-- The key of a keyed operation. -/
def opKey (o : Op) : BitVec 108 :=
  let q := o.req
  let k3 := if o.kins then o.key2.toNat else if reqOp q ≠ 2 ∧ reqK3 q then q.w3.toNat else 0
  BitVec.ofNat 108 (q.w1.toNat ||| q.w2.toNat <<< 36 ||| k3 <<< 72)

/-- The index that an INSERT or a context operation names. -/
def opIndex (o : Op) : Option Nat :=
  if reqOp o.req = 2 then some (fld o.req.w3 19 0) else if isCtxOp (reqOp o.req) then some (fld o.req.w1 19 0) else none

/-- Header bits that may be 1 beside OP and TAG. -/
def hdrFields (op : Nat) : Nat :=
  match op with
  | 1 => 0x3C03BFF
  | 2 => 0x3C007FF
  | 3 => 0x3C00BFF
  | 4 => 0x3F00000
  | 5 => 0x3FFFC00
  | 6 => 0x03FC000
  | 7 => 0x3FFFBFF
  | 9 => 0xF
  | _ => 0

/-- SEL of a CTX_WRITE for word `i`. -/
def selOf (q : Quad) (i : Nat) : Nat := fld q.w0 (11 + 2 * i) (10 + 2 * i)

/-- SEL or RD names a word beyond the context size; the serving node's size counts. -/
def selBad (s : State) (q : Quad) : Bool :=
  !s.eng.ctx8 &&
    ((reqOp q == 4 && (decide (4 ≤ fld q.w0 25 23) || decide (4 ≤ fld q.w0 22 20))) ||
     (reqOp q == 5 && (List.range 4).any (fun i => selOf q (4 + i) != 0)))

/-- BAD_REQ (R273). An operation of KINS has its third key word apart. -/
def opBad (s : State) (o : Op) : Bool :=
  let q := o.req
  let op := reqOp q
  let k3 := reqK3 q
  if o.kins then false
  else
    !(decide (1 ≤ op) && decide (op ≤ 9)) || (q.w0.toNat % 2 ^ 26) &&& ((2 ^ 26 - 1) ^^^ hdrFields op) != 0 ||
    ((op == 1 || op == 7) && reqWc q == 3) ||
    ((op == 1 || op == 3) && !k3 && q.w3 != 0) ||
    (op == 2 && fld q.w3 35 20 != 0) ||
    (isCtxOp op && fld q.w1 35 31 != 0) ||
    (op == 4 && (q.w2 != 0 || q.w3 != 0)) ||
    ((op == 8 || op == 9) && (q.w1 != 0 || q.w2 != 0 || q.w3 != 0)) ||
    (op == 9 && o.rq.val == rqMeshNo) ||
    (!opRemote s o && selBad s q)

/-! ### Acceptance (R245, R246) -/

/-- The program of an operation, as the program store holds it now (R208, R284). -/
def progKey (plane : Bool) (p i : Nat) : Nat := cfgKey plane 88 0 (2 + p / 8) (16 * (p % 8) + i)

def progCells (s : State) (p : Nat) : List Cell := (List.range 16).map (fun i => s.cfgCell (progKey s.fab.ringRole p i))

/-- An operation takes a slot. -/
def opAccept (o : Op) (s : State) : State :=
  let op := reqOp o.req
  let o := { o with id := s.eng.nextId, plane := s.fab.ringRole, prog := if op = 6 ∨ op = 7 then progCells s (reqProg o.req) else [] }
  { s with eng := { s.eng with slots := s.eng.slots ++ [o], nextId := s.eng.nextId + 1 } }

/-- The tag is outstanding on its port. -/
def tagBusy (s : State) (rq tag : Nat) : Bool :=
  (rqOps s rq).any (fun o => !o.kins && reqTag o.req == tag) || (s.rspQ rq).any (fun r => reqTag r == tag)

/-- A request with a credit: accepted, or discarded for its tag with E501 (R246). -/
def opOffer (rq : Fin 10) (who : Req) (q : Quad) (s : State) : State :=
  if tagBusy s rq.val (reqTag q) then engEvent 0x501 who (reqTag q <<< 4 ||| rq.val) s
  else opAccept { id := 0, rq := rq, who := who, req := q } s

/-- The engine serves requests; under a self-test they wait (R455). -/
def engOn (s : State) : Bool := s.fn .rhx == fnOn && s.mode != .service

/-- Operations of a requester that wait in its FIFO. -/
def rqWaiting (s : State) (rq : Nat) : List Op := s.eng.slots.filter (fun o => o.rq.val == rq && decide (o.phase = .accepted))

/-- Operations that wait for a context behind the one that has it (R252). -/
def ctxWaiting (s : State) (c : Nat) : Nat :=
  (s.eng.slots.filter (fun o => o.ctx == some c && decide (o.phase = .admitted))).length - 1

/-- The requester is under lock backpressure (R252). -/
def lockHeld (s : State) (rq : Nat) : Bool :=
  s.eng.lockHold.any (fun e => e.1 == rq && decide (8 < ctxWaiting s e.2))

/-- REQ_READY of an engine port at an edge of its line (R245). -/
def portReady (s : State) (k : Nat) : Bool :=
  match hostOf s 0 k with
  | some _ => engOn s && portLive s 0 k && rqCredits s k != 0 && decide ((rqWaiting s k).length < 4) && !lockHeld s k
  | none => false

def opPortRequest (k : Fin 8) (q : Quad) (s : State) : State :=
  match hostOf s 0 k.val with
  | some n => if portReady s k.val then opOffer ⟨k.val, by omega⟩ (BitVec.ofNat 8 (0x40 + n)) q s else s
  | none => s

/-- A request from the mesh that has a slot (R249). -/
def meshTake (node : BitVec 10) (sreq : BitVec 4) (stag : BitVec 6) (q : Quad) (s : State) : State :=
  opAccept { id := 0, rq := 8, who := rqMesh, node := node, sreq := sreq, stag := stag, req := q } s

/-- The oldest MESH request that waits for a slot takes a free one (R249). -/
def waitTake (s : State) : State :=
  match s.eng.waitQ with
  | (n, r, t, q) :: rest =>
    if rqCredits s rqMeshNo = 0 ∨ ¬ engOn s then s else meshTake n r t q { s with eng := { s.eng with waitQ := rest } }
  | [] => s

/-- Slots have become free: allocations, then the MESH requests that wait for one (R248, R249). -/
def slotFreed (s : State) : State :=
  let s := rebalance s
  forAll s.eng.waitQ (fun _ => waitTake) s

/-! ### Operations in their slots -/

def State.opAt (s : State) (id : Nat) : Option Op := s.eng.slots.find? (fun o => o.id == id)

def setOp (o : Op) (s : State) : State :=
  { s with eng := { s.eng with slots := s.eng.slots.map (fun p => if p.id = o.id then o else p) } }

/-- Requesters held for a context go on once eight or fewer operations wait for it (R252). -/
def lockRelease (s : State) : State :=
  { s with eng := { s.eng with lockHold := s.eng.lockHold.filter (fun e => decide (8 < ctxWaiting s e.2)) } }

/-- The operation has its result; its lock place is given up. -/
def opEnd (o : Op) (r : Res) (s : State) : State :=
  lockRelease (setOp { o with phase := .done, status := BitVec.ofNat 6 r.st, rsp := resQuad s o.req r } s)

/-! ### The sweep's control (R271) -/

/-- The sweep as FN directs it (R271). -/
def ageFn (fn : Nat) (s : State) : State :=
  let w := s.eng.sweep
  let put := fun (w : Sweep) => { s with eng := { s.eng with sweep := w } }
  match fn with
  | 1 => put { w with running := true, paused := false, pos := 0 }
  | 2 => put { w with paused := true }
  | 3 => put { w with paused := false }
  | _ => s

/-- RHX.AGE_STATUS (R289). -/
def ageStatus (s : State) : Word := wd ((s.eng.sweep.done % 2 ^ 16) <<< 20 ||| s.eng.sweep.paused.toNat <<< 19 ||| s.eng.sweep.pos)

/-- AGE_SCAN; an FN that R271 does not name leaves the sweep. -/
def runAge (o : Op) (s : State) : State :=
  let s := ageFn (fld o.req.w0 3 0) s
  opEnd o { d0 := wd s.eng.sweep.pos, d1 := wd s.eng.sweep.done } s

/-! ### Admission and order (R250 to R256) -/

/-- The operation takes its place for a context; as ninth or later waiting it stops its requester (R251, R252). -/
def takePlace (o : Op) (c : Nat) (s : State) : State :=
  let n := (s.eng.slots.filter (fun p => p.ctx == some c && decide (p.phase = .admitted))).length
  let s := setOp { o with phase := .admitted, ctx := some c, place := s.eng.nextId } { s with eng := { s.eng with nextId := s.eng.nextId + 1 } }
  if 9 ≤ n then { s with eng := { s.eng with lockHold := s.eng.lockHold ++ [(o.rq.val, c)] } } else s

/-- The operation admitted next: round robin after the last requester admitted, in acceptance order within one (R250). -/
def nextAdmit (s : State) : Option Op :=
  ((List.range 10).map (fun i => (s.eng.rr.val + 1 + i) % 10)).findSome? (fun r =>
    if lockHeld s r then none else (rqWaiting s r).head?)

/-- An operation for another node goes into the mesh (R327). -/
def opSend (o : Op) (node : Nat) (s : State) : State :=
  meshSend node 3 vcReq [wd (o.rq.val <<< 6 ||| reqTag o.req), o.req.w0, o.req.w1, o.req.w2, o.req.w3]
    (setOp { o with phase := .remote } s)

/-- What admission decides at once: malformed, remote, without a route, or an index beyond the store (R236, R269, R273). -/
def opBegin (o : Op) (s : State) : State :=
  if opBad s o then opEnd o { st := stBadReq } s
  else if reqOp o.req = 9 ∧ 4 ≤ fld o.req.w0 3 0 then runAge o s
  else if opRemote s o then
    let node := (reqNode o.req).getD 0
    if s.getF (Reg.mshNht node) 35 34 = 2 then opSend o node s else opEnd o { st := stNoRoute } s
  else match opIndex o with
    | some c =>
      if ctxCount s ≤ c then opEnd o { st := stBadIndex } s
      else if isCtxOp (reqOp o.req) then takePlace o c s
      else setOp { o with phase := .admitted } s
    | none => setOp { o with phase := .admitted } s

/-- The engine executes: ON, or STOPPING until its operations are complete, in RUN (R31, R46, R267). -/
def engRuns (s : State) : Bool := (s.fn .rhx == fnOn || s.fn .rhx == fnStopping) && s.mode == .run

/-- Admit one operation. -/
def opAdmission (s : State) : State :=
  if ¬ engRuns s then s
  else match nextAdmit s with
    | none => s
    | some o =>
      let o := { o with adm := s.eng.nextId }
      opBegin o (setOp o { s with eng := { s.eng with rr := o.rq, nextId := s.eng.nextId + 1 } })

/-- No operation has the context before this one (R252). -/
def ctxTurn (s : State) (o : Op) : Bool :=
  !s.eng.slots.any (fun p => p.ctx == o.ctx && decide (p.phase = .admitted) && decide (p.place < o.place))

def isWrite (op : Nat) : Bool := op == 2 || op == 3

/-- No operation on the same key stands in the way: a change before this one, or one before a change (R256), or the lookup of an earlier
LOOKUP_RUN, whose place in the lock order comes first (R253). -/
def keyTurn (s : State) (o : Op) : Bool :=
  !s.eng.slots.any (fun p => decide (p.phase = .admitted) && p.ctx.isNone && isKeyed (reqOp p.req) && decide (p.adm < o.adm) &&
    (isWrite (reqOp p.req) || isWrite (reqOp o.req) || (reqOp p.req == 7 && reqOp o.req == 7)) && opKey p == opKey o && reqClass p.req == reqClass o.req)

/-- Apply `f` to an admitted operation with code `op`. -/
def opRun (id op : Nat) (f : Op → State → State) (s : State) : State :=
  match s.opAt id with
  | some o => if engRuns s ∧ o.phase = .admitted ∧ reqOp o.req = op then f o s else s
  | none => s

/-! ### Keyed operations -/

/-- A bucket or stash hit sets the entry's AGE to 0 (R286). -/
def ageZero (loc : Nat) (s : State) : State :=
  let e := entGet s loc
  entPut loc { e with w3 := setFld e.w3 33 28 0 } s

/-- HITSRC and DATA1 of an entry's place (R272). -/
def hitOf (loc : Nat) : Nat × Word := (if loc < stashBase then 1 else 2, wd (locDetail loc))

/-- The wildcard entry that wins (R285). -/
def wcMatch (s : State) (cls : Nat) (key : BitVec 108) (i : Nat) : Bool :=
  let e := wcGet s i
  let k := fun (a : Nat) => (e.getD a 0).toNat ||| (e.getD (a + 1) 0).toNat <<< 36 ||| (e.getD (a + 2) 0).toNat <<< 72
  (e.getD 6 0).getLsbD 35 && fld (e.getD 6 0) 34 31 == cls && (key.toNat ^^^ k 0) &&& k 3 == 0 && s.getB Reg.rhxWcSegEn (i / 512)

/-- Wildcard entries with a word that is not zero. -/
def wcUsed (s : State) : List Nat := (s.eng.wc.map (fun e => e.1 / 7)).dedup

def wcFind (cls : Nat) (key : BitVec 108) (s : State) : Option Nat × State :=
  let s := forAll (wcUsed s) wcCheck s
  let prio := fun i => fld ((wcGet s i).getD 6 0) 30 20
  (((wcUsed s).filter (wcMatch s cls key)).foldl (fun b i =>
    match b with
    | none => some i
    | some j => if prio j < prio i then some i else b) none, s)

/-- What a lookup found: CTX, HITSRC, DATA0 and DATA1. -/
structure Found where
  ctx : Nat
  src : Nat
  d0 : Word
  d1 : Word
  deriving DecidableEq, Repr

/-- Search the tables that WC selects (R268, R285). -/
def opFind (o : Op) (s : State) : Option Found × State :=
  let cls := reqClass o.req
  let key := opKey o
  let r := if reqWc o.req = 2 then (none, s) else keyFind cls key s
  match r.1 with
  | some l =>
    let e := entGet r.2 l
    (some ⟨entCtx e, (hitOf l).1, e.w3, (hitOf l).2⟩, ageZero l r.2)
  | none =>
    if reqWc o.req = 0 then (none, r.2)
    else
      let w := wcFind cls key r.2
      match w.1 with
      | some i =>
        let d := (wcGet w.2 i).getD 6 0
        (some ⟨fld d 19 0, 3, d, wd i⟩, w.2)
      | none => (none, w.2)

def runLookup (o : Op) (s : State) : State :=
  if !keyTurn s o then s
  else match opFind o s with
    | (some f, t) => opEnd o { ctx := f.ctx, hit := f.src, d0 := f.d0, d1 := f.d1 } t
    | (none, t) => opEnd o { st := stMiss } t

/-- PLACE and MOVES of an INSERT that steps 2 to 5 of R242 place. -/
def placeOf (e : Quad) (s : State) : Nat × Nat :=
  let h := buckets s (entClass e) (entKey e)
  let s := bucketCheck h.2 (bucketCheck h.1 s)
  if (freeSlot s h.1).isSome then (0, 0)
  else if (freeSlot s h.2).isSome then (1, 0)
  else match (findPath h.1 1 32 s).1 with
    | some p => (2, p.1.length)
    | none => (3, 0)

/-- The entry that an INSERT places. -/
def insEntry (o : Op) : Quad :=
  let k := (opKey o).toNat
  ⟨wd k, wd (k >>> 36), wd (k >>> 72),
   wd (1 <<< 35 ||| fld o.req.w0 10 10 <<< 34 ||| reqClass o.req <<< 24 ||| fld o.req.w3 19 0)⟩

def runInsert (o : Op) (s : State) : State :=
  if !keyTurn s o then s
  else
    let r := keyFind (reqClass o.req) (opKey o) s
    match r.1 with
    | some l => opEnd o { st := stExists, hit := (hitOf l).1 } (ageZero l r.2)
    | none =>
      let p := placeOf (insEntry o) r.2
      match keyPlace (insEntry o) r.2 with
      | (true, t) => opEnd o { place := p.1, moves := p.2 } t
      | (false, t) => opEnd o { st := stFull } t

def runDelete (o : Op) (s : State) : State :=
  if !keyTurn s o then s
  else
    let r := keyFind (reqClass o.req) (opKey o) s
    match r.1 with
    | some l => opEnd o { ctx := entCtx (entGet r.2 l), hit := (hitOf l).1 } (entFree l r.2)
    | none => opEnd o { st := stMiss } r.2

/-! ### Context operations -/

def ctxPut (c : Nat) (ws : List Word) (s : State) : State := engPuts .context (ctxSize s * c) ws s

/-- Give the operation's context words to `k`; POISON where the context is poisoned or a word of it is uncorrectable (R263). -/
def withCtx (o : Op) (r : Res) (k : List Word → State → State) (s : State) : State :=
  let c := o.ctx.getD 0
  if isPoisoned s c then opEnd o { r with st := stPoison, ctx := c } s
  else match ctxWords c s with
    | (some ws, t) => k ws t
    | (none, t) => opEnd o { r with st := stPoison, ctx := c } t

def runCtxRead (o : Op) (s : State) : State :=
  if !ctxTurn s o then s
  else withCtx o {} (fun ws => opEnd o { ctx := o.ctx.getD 0, d0 := ws.getD (fld o.req.w0 25 23) 0, d1 := ws.getD (fld o.req.w0 22 20) 0 }) s

/-- The words that a CTX_WRITE leaves (R270). -/
def selApply (q : Quad) (ws : List Word) : List Word :=
  ws.zipIdx.map (fun w => match selOf q w.2 with | 0 => w.1 | 1 => q.w2 | 2 => q.w3 | _ => 0)

def runCtxWrite (o : Op) (s : State) : State :=
  if !ctxTurn s o then s
  else
    let c := o.ctx.getD 0
    if (List.range (ctxSize s)).all (fun i => selOf o.req i != 0) then
      opEnd o { ctx := c } (setPoison c false (ctxPut c (selApply o.req (List.replicate (ctxSize s) 0)) s))
    else withCtx o {} (fun ws s => opEnd o { ctx := c } (ctxPut c (selApply o.req ws) s)) s

/-! ### Programs -/

/-- Queue a word for repair; whether the lane's repair and queue had room (R227, R228). -/
def repairAdd (lane key : Nat) (s : State) : Bool × State :=
  if s.cal.queue.any (fun r => r.lane == lane && r.key == key) then (true, s)
  else if 4 ≤ (s.cal.queue.filter (fun r => r.lane == lane)).length then (false, s)
  else (true, { s with cal := { s.cal with queue := s.cal.queue ++ [{ lane := lane, key := key }] } })

/-- A ring word that the engine found uncorrectable goes to ring repair as soon as the queue has room (R228, R261). -/
def repairRing (key : Nat) (s : State) : State :=
  let r := repairAdd 64 key s
  if r.1 ∨ s.cal.late.contains key then r.2 else { s with cal := { s.cal with late := s.cal.late ++ [key] } }

/-- An entry has freed: a ring word that waits takes it. -/
def repairLate (s : State) : State :=
  match s.cal.late with
  | [] => s
  | k :: rest =>
    let r := repairAdd 64 k s
    if r.1 then { r.2 with cal := { r.2.cal with late := rest } } else s

/-- The operation's reference carries QUIET (R269). -/
def opQuiet (o : Op) : Bool := isCtxOp (reqOp o.req) && o.req.w1.getLsbD 30

/-- Run the operation's program on a context (R274, R275, R279, R282). -/
def runProg (o : Op) (r : Res) (x0 x1 : Word) (ws : List Word) (s : State) : State :=
  let c := o.ctx.getD 0
  let p := reqProg o.req
  let bad := (o.prog.map Cell.chk).findIdx? (fun k => decide (k = .bad))
  match bad with
  | some i => opEnd o { r with st := stPoison, ctx := c } (repairRing (progKey o.plane p i) s)
  | none =>
    let f : Fur := { x := [x0, x1] ++ List.replicate 6 0, c := ws }
    let e := furRun (o.prog.map (fun k => k.chk.word)) s.evt.time s.evt.meshTime 17 0 f
    let s := if opQuiet o then s else forAll e.1.emits (fun m => engEvent (BitVec.ofNat 12 m.1) o.who m.2.toNat) s
    match e.2 with
    | .ok v => opEnd o { r with ctx := c, pres := v, d0 := e.1.get 6, d1 := e.1.get 7 } (if e.1.changed then ctxPut c e.1.c s else s)
    | .error (cause, i) =>
      opEnd o { r with st := stProgErr, ctx := c } (engEvent 0x508 o.who (o.rq.val <<< 16 ||| cause <<< 12 ||| i <<< 8 ||| p) s)

def runCtxRun (o : Op) (s : State) : State :=
  if !ctxTurn s o then s else withCtx o {} (runProg o {} o.req.w2 o.req.w3) s

/-- The part of LOOKUP_RUN that follows its lookup, once it has the context. -/
def runLookupRun2 (o : Op) (s : State) : State :=
  if !ctxTurn s o then s
  else
    let r : Res := { hit := o.hitSrc.toNat }
    withCtx o r (runProg o r (if reqK3 o.req then 0 else o.req.w3) o.hit) s

/-- LOOKUP_RUN: its lookup ends and it takes its place; then it runs when it has the context (R251). -/
def runLookupRun (o : Op) (s : State) : State :=
  if o.ctx.isSome then runLookupRun2 o s
  else if !keyTurn s o then s
  else match opFind o s with
    | (none, t) => opEnd o { st := stMiss } t
    | (some f, t) =>
      if ctxCount t ≤ f.ctx then opEnd o { st := stBadIndex, hit := f.src } t
      else
        let t := takePlace { o with hit := f.d0, hitSrc := BitVec.ofNat 2 f.src } f.ctx t
        match t.opAt o.id with
        | some o => runLookupRun2 o t
        | none => t

/-! ### FENCE, and AGE_SCAN where it is driven -/

/-- Operations of one requester; for MESH its source node and source requester together (R255). -/
def sameRq (a b : Op) : Bool := a.rq == b.rq && a.node == b.node && a.sreq == b.sreq

def runFence (o : Op) (s : State) : State :=
  if s.eng.slots.any (fun p => sameRq p o && decide (p.phase ≠ .accepted) && decide (p.adm < o.adm)) then s else opEnd o {} s

/-- An AGE_SCAN operation, or a write of RHX.AGE_CMD (R271, R289). -/
def opAge (slot : Option Nat) (who : Req) (fn : Nat) (s : State) : State :=
  match slot with
  | some id => opRun id 9 (fun o s => if fld o.req.w0 3 0 = fn then runAge o s else s) s
  | none => gateW who Reg.rhxAgeCmd (ageFn fn) s

/-! ### Completion -/

/-- The host of an engine port is quarantined or resetting: responses are discarded and their credits held back (R84, R145). -/
def hostDown (s : State) (rq : Nat) : Bool :=
  match hostOf s 0 rq with
  | some n => decide (rq < 8) && (s.getB (Reg.rgnStatus n) 0 || s.getB (Reg.rgnStatus n) 4)
  | none => decide (rq < 8)

/-- Count what the completion shows (R289). -/
def opCount (o : Op) (s : State) : State :=
  let s := s.count (Reg.rhxCnt 0) 35 0
  let s := if o.status.toNat = stTimeout then s.count (Reg.rhxCnt 5) 35 0 else s
  if o.status.toNat = stProgErr then s.count (Reg.rhxCnt 6) 35 0 else s

/-- Deliver a response to its requester. -/
def opDeliver (o : Op) (s : State) : State :=
  if o.kins then (s.setF Reg.rhxKinsStatus 5 0 o.status.toNat).setB Reg.rhxKinsStatus 7 false
  else if o.drop then s
  else if o.rq.val = rqMeshNo then
    meshSend o.node.toNat 4 vcRsp [wd (o.sreq.toNat <<< 6 ||| o.stag.toNat), o.rsp.w0, o.rsp.w1, o.rsp.w2, o.rsp.w3] s
  else if hostDown s o.rq.val then setBack o.rq.val (rqBack s o.rq.val + 1) s
  else s.setRspQ o.rq.val (s.rspQ o.rq.val ++ [o.rsp])

/-- Of one requester's operations on one context, the earlier in lock order completes first (R252). -/
def opFirst (s : State) (o : Op) : Bool :=
  o.ctx.isNone || !s.eng.slots.any (fun p => p.rq == o.rq && p.ctx == o.ctx && decide (p.place < o.place))

def opComplete (id : Nat) (s : State) : State :=
  match s.opAt id with
  | some o =>
    if o.phase = .done ∧ opFirst s o ∧ s.mode = .run then
      slotFreed (opDeliver o (opCount o { s with eng := { s.eng with slots := s.eng.slots.filter (fun p => p.id != id) } }))
    else s
  | none => s

/-- What tells the response of a remote operation: requester, tag and target node (R244, R272). -/
def lateKey (o : Op) : Nat × Nat × Nat := (o.rq.val, reqTag o.req, (reqNode o.req).getD 0)

/-- A remote operation that has waited for 100 us (R249). -/
def opTimeout (id : Nat) (s : State) : State :=
  match s.opAt id with
  | some o => if o.phase = .remote then opEnd o { st := stTimeout } { s with eng := { s.eng with late := s.eng.late ++ [lateKey o] } } else s
  | none => s

/-- A response that arrives after TIMEOUT (R249). -/
def lateDiscard (s : State) : State :=
  match s.eng.late with
  | [] => s
  | _ :: rest => State.count { s with eng := { s.eng with late := rest } } (Reg.rhxCnt 8) 35 0

/-- The fabric takes a port's oldest response; its credit returns (R245). -/
def portTake (k : Nat) (s : State) : State :=
  match s.rspQ k with
  | q :: rest =>
    if portClocked s 0 k then
      let s := s.setRspQ k rest
      slotFreed { s with eng := { s.eng with out := q } }
    else s
  | [] => s

/-- A region reset discards what waits at the ports that the region hosts (R84). -/
def portDiscard (n : Nat) (s : State) : State :=
  forAll (List.range 8) (fun k s =>
    if hostOf s 0 k = some n then setBack k (rqBack s k + (s.rspQ k).length) (s.setRspQ k []) else s) s

/-- At the region's release the credits return (R84, R147). -/
def portRelease (n : Nat) (s : State) : State :=
  slotFreed (forAll (List.range 8) (fun k s => if hostOf s 0 k = some n then setBack k 0 s else s) s)

/-- A port whose host changes starts with full credits at the new host (R212). -/
def portMoved (k : Nat) (s : State) : State :=
  let s := setBack k 0 (s.setRspQ k [])
  slotFreed { s with eng := { s.eng with slots := s.eng.slots.map (fun o => if o.rq.val = k then { o with drop := true } else o) } }

/-! ### Stash, patrol, aging, FAULT -/

/-- The write unit tries the lowest stash entry (R242). -/
def opStashDrain (s : State) : State :=
  let s := stashCheck s
  match ((List.range 64).map (stashBase + ·)).find? (fun l => entValid (entGet s l)) with
  | none => s
  | some l =>
    match bucketPlace (entGet s l) s with
    | (some t, _) => entFree l t
    | (none, t) => t

/-- One patrol read (R264). -/
def opPatrol (m : EngMem) (ix : Nat) (s : State) : State :=
  match m with
  | .context =>
    let r := engRead .context ix s
    if ix < ctxSize s * ctxCount s ∧ r.1.isNone then ctxPoison (ix / ctxSize s) (ix % ctxSize s) true r.2 else r.2
  | .key => if ix / 4 < stashBase then entCheck (ix / 4) s else s
  | .stash => if ix / 4 < 64 then entCheck (stashBase + ix / 4) s else s
  | .wildcard => if ix / 7 < 8192 then wcCheck (ix / 7) s else s

/-- A new sweep starts each period while EN = 1 (R286). -/
def opSweepStart (s : State) : State :=
  if s.getB Reg.rhxAgeCfg 35 ∧ engOn s then { s with eng := { s.eng with sweep := { s.eng.sweep with running := true, pos := 0 } } } else s

/-- The sweep comes to one entry (R286). -/
def ageEntry (loc : Nat) (s : State) : State :=
  let s := entCheck loc s
  let e := entGet s loc
  if !entValid e ∨ entPinned e then s
  else if entAge e + 1 < max 1 (s.getF Reg.rhxAgeCfg 21 16) then entPut loc { e with w3 := setFld e.w3 33 28 (entAge e + 1) } s
  else
    let s := (entFree loc s).count (Reg.rhxCnt 4) 35 0
    engEvent 0x506 rqEvt ((decide (stashBase ≤ loc)).toNat <<< 24 ||| entClass e <<< 20 ||| entCtx e) s

/-- The sweep visits the next bucket or stash entry. -/
def opSweepVisit (s : State) : State :=
  let w := s.eng.sweep
  if !w.running ∨ w.paused ∨ !engOn s then s
  else
    let s := if w.pos < 262144 then forAll (List.range 4) (fun i => ageEntry (4 * w.pos + i)) s else ageEntry (stashBase + w.pos - 262144) s
    let w := if w.pos + 1 < 262208 then { w with pos := w.pos + 1 } else { w with pos := 0, running := false, done := w.done + 1 }
    { s with eng := { s.eng with sweep := w } }

/-- A vote finds no two copies equal (R288): FAULT, E509, and the operations in flight complete with ENG_FAULT, a malformed one with BAD_REQ,
which stands above it (R273). -/
def opVoteFail (credit : Bool) (s : State) : State :=
  if s.fn .rhx = fnOff ∨ s.fn .rhx = fnFault then s
  else
    let c := if credit then 2 else 1
    let s := engEvent 0x509 rqEvt c ((fnFaultNow .rhx s).setF Reg.rhxStatus 29 26 c)
    waitOff (forAll s.eng.slots (fun o s =>
      if o.phase = .done then s else opEnd o { st := if opBad s o then stBadReq else stEngFault } s) s)

/-- E50A, once the buffer has room (R282). -/
def opLossReport (s : State) : State :=
  if s.eng.evLost = 0 ∨ 64 ≤ s.eng.evBuf.length then s
  else engEvent 0x50A rqEvt (s.eng.evLost % 2 ^ 16) { s with eng := { s.eng with evLost := 0 } }

/-! ### Registers (R289) -/

/-- A write of RHX.ALLOCn (R248). -/
def opAlloc (n : Nat) (who : Req) (v : Word) (s : State) : State :=
  let a := fld v 8 0
  let sum := (((List.range 10).filter (· ≠ n)).map (rqAlloc s)).sum + a
  if a ≤ allocLimit n ∧ sum ≤ 512 then slotFreed (s.setF (Reg.rhxAlloc n) 8 0 a)
  else engEvent 0x507 who ((decide (a ≤ allocLimit n)).toNat <<< 13 ||| a <<< 4 ||| n) (s.setB Reg.rhxAllocStatus 10 true)

def opWcSegEn (v : Word) (s : State) : State := s.setReg Reg.rhxWcSegEn (wd (fld v 15 0))

/-- RHX.WC_CMD: the staged words and an entry (R285, R289). The command takes effect at once, and BUSY reads 1 until the CK_SVC cycle that
follows, which is longer than its 16 CK_ENG cycles (DESIGN CHOICE: log entry 108). -/
def opWcCmd (v : Word) (s : State) : State :=
  let i := fld v 12 0
  if !v.getLsbD 35 then s
  else if s.getB Reg.rhxWcStatus 0 then s.setB Reg.rhxWcStatus 1 true
  else
    let s := s.setB Reg.rhxWcStatus 0 true
    if v.getLsbD 34 then
      let s := wcCheck i s
      forAll ((wcGet s i).zipIdx) (fun w s => s.setReg (Reg.rhxWcData w.2) w.1) s
    else engPuts .wildcard (wcIx i) ((List.range 7).map (fun k => s.reg (Reg.rhxWcData k))) s

/-- RHX.KINS_CTL (R289). -/
def opKins (who : Req) (v : Word) (s : State) : State :=
  if !v.getLsbD 35 then s
  else if s.getB Reg.rhxKinsStatus 7 ∨ rqCredits s rqCmdNo = 0 ∨ !engOn s then s.setB Reg.rhxKinsStatus 8 true
  else
    let del := v.getLsbD 34
    let w0 := wd ((if del then 3 else 2) <<< 32 ||| fld v 27 24 <<< 22 ||| (if del then 0 else fld v 33 33 <<< 10) ||| ownNode s)
    let q : Quad := ⟨w0, s.reg (Reg.rhxKinsKey 0), s.reg (Reg.rhxKinsKey 1), wd (if del then 0 else fld v 19 0)⟩
    opAccept { id := 0, rq := 9, who := who, req := q, kins := true, key2 := s.reg (Reg.rhxKinsKey 2) } (s.setB Reg.rhxKinsStatus 7 true)

/-- A write of RHX.CMD_REQi: the master's own staging; REQ3 submits (R289). -/
def opCmdReq (i : Nat) (who : Req) (v : Word) (s : State) : State :=
  let q := Store.get (fun _ => ⟨0, 0, 0, 0⟩) s.eng.stage who.toNat
  let q : Quad := match i with | 0 => { q with w0 := v } | 1 => { q with w1 := v } | 2 => { q with w2 := v } | _ => { q with w3 := v }
  let s := { s with eng := { s.eng with stage := Store.set (fun _ => ⟨0, 0, 0, 0⟩) s.eng.stage who.toNat q } }
  if i ≠ 3 then s
  else if engOn s ∧ rqCredits s rqCmdNo ≠ 0 then opOffer 9 who q s
  else s.setB Reg.rhxCmdStatus 16 true

/-- Word `i` of the oldest response in the command window. -/
def cmdRspWord (s : State) (i : Nat) : Word :=
  match s.rspQ rqCmdNo with
  | [] => 0
  | q :: _ => match i with | 0 => q.w0 | 1 => q.w1 | 2 => q.w2 | _ => q.w3

/-- A read of RHX.CMD_RSP3 removes the response and returns the credit. -/
def opCmdPop (peek : Bool) (s : State) : State :=
  let s := answer (cmdRspWord s 3) s
  if peek ∨ (s.rspQ rqCmdNo).isEmpty then s else slotFreed (s.setRspQ rqCmdNo ((s.rspQ rqCmdNo).drop 1))

/-- Registers of the block that show state: RHX.STATUS, ALLOCn, ALLOC_STATUS, AGE_STATUS, CMD_STATUS, OCCUPANCY. -/
def inFlight (s : State) : Nat := s.eng.slots.length + ((List.range 10).map (fun r => (s.rspQ r).length)).sum

def allocRead (s : State) (n : Nat) : Word := wd (rqHeld s n <<< 16 ||| rqAlloc s n)

def allocStatus (s : State) : Word := setFld (s.reg Reg.rhxAllocStatus) 9 0 (slotsFree s)

def cmdStatus (s : State) : Word :=
  let n := (s.rspQ rqCmdNo).length
  wd ((s.getB Reg.rhxCmdStatus 16).toNat <<< 16 ||| n <<< 8 ||| rqCredits s rqCmdNo <<< 1 ||| (n == 0).toNat)

def occupancy (s : State) : Word :=
  let count := fun (st : Store Cell) => (st.filter (fun e => e.1 % 4 == 3 && e.2.chk.word.getLsbD 35)).length
  wd (count s.eng.stash <<< 21 ||| count s.eng.key)

/-! ### Commands -/

def execEngineRequestAccept (port : Fin 8) (req : Quad) (s : State) : Host.Outcome State Fault Refusal := .next (opPortRequest port req s)

def execEngineResponseTaken (port : Fin 8) (s : State) : Host.Outcome State Fault Refusal := .next (portTake port.val s)

def execEngineAdmission (s : State) : Host.Outcome State Fault Refusal := .next (opAdmission s)

def execLookup (slot : Nat) (s : State) : Host.Outcome State Fault Refusal := .next (opRun slot 1 runLookup s)

def execInsert (slot : Nat) (s : State) : Host.Outcome State Fault Refusal := .next (opRun slot 2 runInsert s)

def execDelete (slot : Nat) (s : State) : Host.Outcome State Fault Refusal := .next (opRun slot 3 runDelete s)

def execCtxRead (slot : Nat) (s : State) : Host.Outcome State Fault Refusal := .next (opRun slot 4 runCtxRead s)

def execCtxWrite (slot : Nat) (s : State) : Host.Outcome State Fault Refusal := .next (opRun slot 5 runCtxWrite s)

def execCtxRun (slot : Nat) (s : State) : Host.Outcome State Fault Refusal := .next (opRun slot 6 runCtxRun s)

def execLookupRun (slot : Nat) (s : State) : Host.Outcome State Fault Refusal := .next (opRun slot 7 runLookupRun s)

def execFence (slot : Nat) (s : State) : Host.Outcome State Fault Refusal := .next (opRun slot 8 runFence s)

def execAgeScanReport (slot : Option Nat) (who : Req) (s : State) : Host.Outcome State Fault Refusal := .next (opAge slot who 0 s)

def execAgeScanStart (slot : Option Nat) (who : Req) (s : State) : Host.Outcome State Fault Refusal := .next (opAge slot who 1 s)

def execAgeScanPause (slot : Option Nat) (who : Req) (s : State) : Host.Outcome State Fault Refusal := .next (opAge slot who 2 s)

def execAgeScanResume (slot : Option Nat) (who : Req) (s : State) : Host.Outcome State Fault Refusal := .next (opAge slot who 3 s)

def execOperationComplete (slot : Nat) (s : State) : Host.Outcome State Fault Refusal := .next (opComplete slot s)

def execRemoteOperationTimeout (slot : Nat) (s : State) : Host.Outcome State Fault Refusal := .next (opTimeout slot s)

def execLateResponseDiscard (s : State) : Host.Outcome State Fault Refusal := .next (lateDiscard s)

def execStashDrain (s : State) : Host.Outcome State Fault Refusal := .next (opStashDrain s)

def execEnginePatrol (m : EngMem) (ix : Nat) (s : State) : Host.Outcome State Fault Refusal := .next (opPatrol m ix s)

def execAgingSweepStart (s : State) : Host.Outcome State Fault Refusal := .next (opSweepStart s)

def execAgingVisit (s : State) : Host.Outcome State Fault Refusal := .next (opSweepVisit s)

def execEngineVoteFailure (credit : Bool) (s : State) : Host.Outcome State Fault Refusal := .next (opVoteFail credit s)

def execEngineEventLossReport (s : State) : Host.Outcome State Fault Refusal := .next (opLossReport s)

def execAllocWrite (who : Req) (n : Fin 10) (v : Word) (s : State) : Host.Outcome State Fault Refusal :=
  .next (gateW who (Reg.rhxAlloc n.val) (opAlloc n.val who v) s)

def execWcSegEnWrite (who : Req) (v : Word) (s : State) : Host.Outcome State Fault Refusal :=
  .next (gateW who Reg.rhxWcSegEn (opWcSegEn v) s)

/-- GO with READ 0. -/
def execWcEntryWrite (who : Req) (v : Word) (s : State) : Host.Outcome State Fault Refusal :=
  .next (gateW who Reg.rhxWcCmd (opWcCmd (setFld v 34 34 0)) s)

/-- GO with READ 1. -/
def execWcEntryRead (who : Req) (v : Word) (s : State) : Host.Outcome State Fault Refusal :=
  .next (gateW who Reg.rhxWcCmd (opWcCmd (setFld v 34 34 1)) s)

/-- GO with DELETE 0. -/
def execKinsInsert (who : Req) (v : Word) (s : State) : Host.Outcome State Fault Refusal :=
  .next (gateW who Reg.rhxKinsCtl (opKins who (setFld v 34 34 0)) s)

/-- GO with DELETE 1. -/
def execKinsDelete (who : Req) (v : Word) (s : State) : Host.Outcome State Fault Refusal :=
  .next (gateW who Reg.rhxKinsCtl (opKins who (setFld v 34 34 1)) s)

/-- A write of CMD_REQ3. -/
def execCmdSubmit (who : Req) (v : Word) (s : State) : Host.Outcome State Fault Refusal :=
  .next (gateW who (Reg.rhxCmdReq 3) (opCmdReq 3 who v) s)

def execCmdResponsePop (who : Req) (peek : Bool) (s : State) : Host.Outcome State Fault Refusal :=
  .next (gateR who (Reg.rhxCmdRsp 3) (opCmdPop (peeks who peek)) s)

end Sys2Proof.Machine
end

