-- ==== Sys2Proof/Machine/Ring.lean ====
section
/-! DEFINITION. What the ring's active frames set: the pins (R399, R405, R406, R415, R417), the system segment (R24, R35, R89, R175),
the mesh ports and node (R295), the engine (R235, R284). -/

namespace Sys2Proof.Machine

/-! ### Pins (R405, R406) -/

/-- Image word `j` of a pin. -/
def pinImg (s : State) (i j : Nat) : Word :=
  let nn := i % 48
  actWord s (64 + i / 48) 0 (nn / 24) (5 * (nn % 24) + j)

/-- The voltage codes of the banks (R406). -/
def bankCodesLoad (s : State) : State :=
  let code := fun bb => fld (actWord s (64 + bb) 0 0 120) 2 0
  let pack := fun lo n => wd ((List.range n).foldl (fun v i => v ||| code (lo + i) <<< (3 * i)) 0)
  (s.setReg Reg.pwrBankV0 (pack 0 12)).setReg Reg.pwrBankV1 (pack 12 3)

/-- The check of a pin's standard against its bank's voltage (R399). -/
def pinStdCheck (i : Nat) (s : State) : State :=
  let b := pinBase s i
  let std := pinStd s b
  let code := bankCode s (i / 48)
  let barred := !stdIn std code
  let tx := s.getB (Reg.pinCfg b) 12 && !(s.pn b).img3.getLsbD 4
  let s := s.setPn i { s.pn i with barred := barred }
  if i = b ∧ (barred ∨ (tx ∧ pinInOnly s i)) then raise 0x903 0 (code <<< 13 ||| std <<< 10 ||| i) s else s

/-- The registers that words 1 to 3 give a pin, ownership apart. -/
def pinRegs (i : Nat) (s : State) : State :=
  let w := pinImg s i 1
  let s := s.setReg (Reg.pinGpio i) (setFld (setFld (setFld (s.reg (Reg.pinGpio i)) 8 7 (fld w 11 10)) 6 6 (fld w 12 12)) 1 0 (fld w 9 8))
  let s := s.setF (Reg.pinDly i) 9 0 (fld w 22 13)
  s.setPn i { s.pn i with img2 := pinImg s i 2, img3 := pinImg s i 3 }

/-- A pin at global release: registers, static owner, I/O registers at their preload (R117, R405, R415). -/
def pinRelease (i : Nat) (s : State) : State :=
  let s := pinRegs i (s.setReg (Reg.pinCfg i) (pinImg s i 0))
  let s := s.setF (Reg.pinClaim i) 7 0 (fld (pinImg s i 1) 7 0)
  padPreload i (s.setPn i { s.pn i with conn := BitVec.ofNat 2 (s.getF (Reg.pinCfg i) 35 34), tapAt := BitVec.ofNat 9 (s.getF (Reg.pinDly i) 8 0) })

/-- A function switch that starts at a swap edge finds the pin as it was driven before the edge (R412, R413). -/
def pinSwitch (old : State) (i f : Nat) (s : State) : State :=
  let t := funcSet i f s
  if (s.pn i).stage = .none ∧ (t.pn i).stage ≠ .none then t.setPn i { t.pn i with atSwitch := (pinDrive old i).level } else t

/-- A pin at a swap that exchanges the ring (R208, R413, R417): an owner that is no region keeps the pin and its function. -/
def pinExchange (old : State) (i : Nat) (s : State) : State :=
  let owner := s.getF (Reg.pinClaim i) 7 0
  let free := decide (owner = 0 ∨ 0x40 ≤ owner)
  let w0 := pinImg s i 0
  let s := s.setReg (Reg.pinCfg i) (setFld w0 35 34 (s.getF (Reg.pinCfg i) 35 34))
  let s := pinRegs i s
  let s := s.setB (Reg.pinDly i) 10 (s.getF (Reg.pinDly i) 8 0 != (s.pn i).tapAt.toNat)
  if free then pinSwitch old i (fld w0 35 34) (s.setF (Reg.pinClaim i) 7 0 (fld (pinImg s i 1) 7 0))
  else if fld w0 35 34 = 1 then
    let r := 0x40 + fld w0 10 5
    raise 0x901 (BitVec.ofNat 8 r) (1 <<< 32 ||| owner <<< 24 ||| r <<< 16 ||| i) s
  else s

/-! ### The system segment -/

def sysWords (s : State) : List Word := minorWords s s.fab.ringRole 79 0 0 4

/-- Weights, urgency, static address, region estimates, hosting with each port's line, and the CAP host (R17, R24, R30, R35, R99,
R175, R199). -/
def sysLoad (s : State) : State :=
  let ws := sysWords s
  let a := lay layStatic 0 7 ws
  let s := s.setReg Reg.sysStaticAddr (wd (if 0x08 ≤ a ∧ a ≤ 0x77 then a else 0x5C))
  let s := forAll (List.range 64) (fun n s =>
    let e := lay layEst n 12 ws
    s.setReg (Reg.pwrRgnEst n) (wd (if e = 0 then 25 else e))) s
  let weights := (List.range 15).foldl (fun m i => Store.set (fun _ => 0) m i (BitVec.ofNat 4 (lay layWeight i 4 ws))) s.boot.weights
  let urgent := BitVec.ofNat 8 ((List.range 8).foldl (fun v k => v ||| lay layUrgent k 1 ws <<< k) 0)
  let host := fun i => match lay layHost i 2 ws with
    | 1 => 25 + i % 8
    | 2 => 33 + i % 8
    | _ => 0
  let hosts := (List.range 25).foldl (fun m i => Store.set (fun _ => 0) m i (host i)) s.eng.hosts
  let lines := (List.range 24).foldl (fun m i => Store.set (fun _ => 0) m i (lay layPortLine i 4 ws)) s.eng.lines
  { s with boot := { s.boot with weights := weights, urgent := urgent }, eng := { s.eng with hosts := hosts, lines := lines } }

/-- EN and N of a clock line (R89); PHASE too at global release. -/
def gclLoad (phase : Bool) (n : Nat) (s : State) : State :=
  let w := wd (lay layGcl n 36 (sysWords s) &&& 0x83FFFEFFF)
  let a := Reg.clkGcl n
  if phase then
    let at' := Store.set (fun _ => 0) s.boot.phaseAt n (BitVec.ofNat 12 (fld w 11 0))
    State.setB (State.setReg { s with boot := { s.boot with phaseAt := at' } } a w) Reg.clkGclMoving n false
  else (s.setF a 35 35 (fld w 35 35)).setF a 29 13 (fld w 29 13)

/-! ### Segments 80 to 88 -/

/-- ENABLE and transmitter preset of the mesh ports, and the node settings (R295). -/
def meshLoad (s : State) : State :=
  let ws := fun p => frameWords s s.fab.ringRole (80 + p) 0 0
  let presets := (List.range 8).foldl (fun m p => Store.set (fun _ => 0) m p (wd (lay layPreset p 36 (ws p)))) []
  let s := forAll (List.range 8) (fun p s => s.setB (Reg.mshPCtrl p) 0 (lay layPortEn p 1 (ws p) == 1))
    { s with mesh := { s.mesh with presets := presets } }
  let w := fun i => actWord s 80 0 0 i
  s.setReg Reg.mshNodeCfg (wd (fld (w 120) 7 0 <<< 20 ||| fld (w 121) 15 0 <<< 4 ||| fld (w 122) 0 0))

/-- Words 13 and 14 of the engine's settings (R284). -/
def rhxLoad (s : State) : State :=
  let w := actWord s 88 0 0 13
  (s.setReg Reg.rhxAgeCfg (wd (w.toNat &&& 0x8003FFFFF))).setReg Reg.rhxWcSegEn (wd (fld (actWord s 88 0 0 14) 15 0))

/-- A mesh port's frame differs between the planes. -/
def portFrameDiffers (s : State) (p : Nat) : Bool := frameWords s false (80 + p) 0 0 != frameWords s true (80 + p) 0 0

/-! ### The ring at global release and at a swap -/

/-- Image settings and static ownership (R52, R69 step 6a). -/
def ringRelease (s : State) : State :=
  let s := forAll (List.range 16) (gclLoad true) (sysLoad (bankCodesLoad s))
  let s := forAll (List.range 720) pinStdCheck (forAll (List.range 720) pinRelease s)
  let s := rhxLoad (meshLoad s)
  allocLoad (s.setReg Reg.rhxCfg (wd (fld (actWord s 88 0 0 0) 1 1 <<< 1 ||| s.eng.ctx8.toNat)))

/-- Data for the old host of a STREAM interface is discarded when the host changes (R212). -/
def stMoved (k : Nat) (s : State) : State :=
  { s with mesh := { s.mesh with st := Store.upd (fun _ => {}) s.mesh.st k (fun t => { t with tx := [], rx := [], out := none }) } }

/-- The ring's roles have been exchanged (R208, R212); `old` is the state before the edge. -/
def ringExchange (old : State) (s : State) : State :=
  let s := forAll (List.range 16) (gclLoad false) (sysLoad (bankCodesLoad s))
  let s := forAll (List.range 720) pinStdCheck (forAll (List.range 720) (pinExchange old) s)
  let s := forAll ((List.range 8).filter (fun k => hostOf old 0 k != hostOf s 0 k)) portMoved s
  let s := forAll ((List.range 8).filter (fun k => hostOf old 2 k != hostOf s 2 k)) stMoved s
  rhxLoad s

end Sys2Proof.Machine
end

