-- ==== Sys2Proof/Machine/Vatman.lean ====
section
/-! DEFINITION. The Vatman core's own commands: traps (R346, R385), waits and halts (R341), its accesses to the scratchpad
ranges (R343, R344), atomics (R347), the staging nibble (R345). -/

namespace Sys2Proof.Machine

/-! ### CSRs (R341, R346; the standard's fields, log entry 15) -/

def csrMstatus : Nat := 0x300
def csrMie : Nat := 0x304
def csrMtvec : Nat := 0x305
def csrMepc : Nat := 0x341
def csrMcause : Nat := 0x342
def csrMtval : Nat := 0x343
def csrMip : Nat := 0x344
def csrMstage : Nat := 0x7C0
def csrMstagea : Nat := 0x7C1
def csrDcsr : Nat := 0x7B0

/-- The debug trace: taken traps and MRET, kind and target (R439); branches and jumps are no commands of this part. -/
def traceRec (kind : Nat) (target : BitVec 32) (s : State) : State :=
  if s.getB Reg.dbgTraceCtrl 0 then
    let n := s.getF Reg.dbgTraceCtrl 23 16
    State.setF { s with dbg := { s.dbg with trace := Store.set (fun _ => 0) s.dbg.trace n (wd (kind <<< 32 ||| target.toNat)) } } Reg.dbgTraceCtrl 23 16 (n + 1)
  else s

def State.csr (s : State) (n : Nat) : BitVec 32 := Store.get (fun _ => 0) s.core.csr n

def State.setCsr (s : State) (n : Nat) (v : BitVec 32) : State :=
  { s with core := { s.core with csr := Store.set (fun _ => 0) s.core.csr n v } }

/-- mip: MEIP follows the interrupt controller (R350). -/
def mipNow (s : State) : BitVec 32 := (s.csr csrMip &&& ~~~(0x800 : BitVec 32)) ||| (if meip s then 0x800 else 0)

/-- An enabled interrupt is pending. -/
def irqWaits (s : State) : Bool := (mipNow s &&& s.csr csrMie) != 0

/-- The core is released from reset, not halted, not stopped, and its clock is present (R385, R93). -/
def coreUp (s : State) : Bool := s.core.running && !s.core.halted && !s.core.stopped && !rootStopped s

/-- The core fetches and executes: it is up and does not wait (R341). -/
def coreRuns (s : State) : Bool := coreUp s && !s.core.wfi

/-! ### Traps -/

/-- IN_FAULT of FLC.XIP_STATUS (R385). -/
def inFault (s : State) : Bool := s.getB Reg.flcXipStatus 35

/-- An instruction, load or store access fault. -/
def accessFault (cause : Nat) : Bool := cause == 1 || cause == 5 || cause == 7

/-- The staging nibble and the latch go to mstage and mstagea, and the live ones are cleared (R346). -/
def stageSave (s : State) : State :=
  let c := s.core
  let s := s.setCsr csrMstage (BitVec.ofNat 32 (c.latchValid.toNat <<< 8 ||| c.latchNib.toNat <<< 4 ||| c.staging.toNat))
  let s := s.setCsr csrMstagea (BitVec.ofNat 32 c.latchAddr.toNat)
  { s with core := { s.core with staging := 0, latchNib := 0, latchAddr := 0, latchValid := false } }

/-- MRET copies both CSRs back (R346). -/
def stageRestore (s : State) : State :=
  let m := s.csr csrMstage
  { s with core := { s.core with
    staging := BitVec.ofNat 4 (fld m 3 0), latchNib := BitVec.ofNat 4 (fld m 7 4), latchValid := m.getLsbD 8,
    latchAddr := BitVec.ofNat 24 (fld (s.csr csrMstagea) 23 0) } }

/-- The handler's address: mtvec direct or vectored (R341). -/
def trapPc (s : State) (interrupt : Bool) (cause : Nat) : BitVec 32 :=
  let v := s.csr csrMtvec
  let base := v &&& ~~~(3 : BitVec 32)
  if interrupt ∧ v.getLsbD 0 then base + BitVec.ofNat 32 (4 * cause) else base

/-- Interrupts are masked in a handler: MPIE takes MIE, MIE is 0, MPP is machine mode. -/
def mstatusTrap (m : BitVec 32) : BitVec 32 :=
  (m &&& ~~~(0x1888 : BitVec 32)) ||| (if m.getLsbD 3 then 0x80 else 0) ||| 0x1800

/-- MRET: MIE takes MPIE, MPIE is 1. -/
def mstatusRet (m : BitVec 32) : BitVec 32 :=
  (m &&& ~~~(0x88 : BitVec 32)) ||| (if m.getLsbD 7 then 0x8 else 0) ||| 0x80

/-- Trap entry: mepc, mcause, mtval, mstatus and the pc; the staging state is saved; a reservation is lost; IN_FAULT is set by
an access fault (R346, R347, R385). -/
def trapTake (interrupt : Bool) (cause : Nat) (pc tval : BitVec 32) (s : State) : State :=
  let s := stageSave s
  let s := s.setCsr csrMepc pc
  let s := s.setCsr csrMcause (BitVec.ofNat 32 (interrupt.toNat <<< 31 ||| cause % 2 ^ 31))
  let s := s.setCsr csrMtval tval
  let s := s.setCsr csrMstatus (mstatusTrap (s.csr csrMstatus))
  let s := { s with core := { s.core with pc := trapPc s interrupt cause, resv := none, wfi := false, exc := none } }
  let s := traceRec 3 s.core.pc s
  if ¬ interrupt ∧ accessFault cause then s.setB Reg.flcXipStatus 35 true else s

/-- Enter debug halt; RUN_ON_HALT 0 freezes the watchdog with it (R431, R436). -/
def coreHalt (s : State) : State := { s with core := { s.core with halted := true, wfi := false } }

/-- Debug halt with its cause in dcsr: 1 EBREAK, 3 halt request, 5 halt on reset (R424, the debug specification's fields). -/
def coreHaltFor (cause : Nat) (s : State) : State := coreHalt (s.setCsr csrDcsr (BitVec.ofNat 32 (0x40000003 ||| cause <<< 6)))

/-- A double fault: E70B; the core halts for an attached debugger, or else stops fetching and the watchdog expires with cause 3
(R385, R435). -/
def doubleFaultTake (mcause : Nat) (pc : BitVec 32) (s : State) : State :=
  let s := raise 0x70B 0 (mcause <<< 32 ||| pc.toNat) s
  if attached s then coreHaltFor 3 { s with core := { s.core with pc := pc, exc := none } }
  else failsafe 0xA05 12 3 { s with core := { s.core with stopped := true, exc := none } }

/-- A trap, or a double fault where an access fault meets IN_FAULT (R385). -/
def opTrap (interrupt : Bool) (cause : Nat) (pc tval : BitVec 32) (s : State) : State :=
  if ¬ interrupt ∧ accessFault cause ∧ inFault s then doubleFaultTake cause pc s
  else trapTake interrupt cause pc tval s

/-! ### Accesses -/

def widthBytes : Width → Nat
  | .byte => 1
  | .half => 2
  | .word => 4

/-- An access raises an exception: mcause and mtval, to be taken by the trap (R341, R344, R348). -/
def coreExc (cause : Nat) (addr : BitVec 32) (s : State) : State :=
  { s with core := { s.core with exc := some (BitVec.ofNat 32 cause, addr) } }

/-- The scratchpad ranges of R343: 0 words, 1 the upper-nibble alias, 2 bit-set, 3 bit-clear. -/
def scrRange (addr : BitVec 32) : Option Nat :=
  let a := addr.toNat
  if 0x10000000 ≤ a ∧ a < 0x10800000 then some 0
  else if 0x18000000 ≤ a ∧ a < 0x18800000 then some 1
  else if 0x60000000 ≤ a ∧ a < 0x60800000 then some 2
  else if 0x70000000 ≤ a ∧ a < 0x70800000 then some 3
  else none

/-- Scratchpad word of an address in a range. -/
def scrOff (addr : BitVec 32) : Nat := addr.toNat / 4 % 2097152

def aligned (addr : BitVec 32) (w : Width) : Bool := addr.toNat % widthBytes w == 0

/-- The lanes that an access addresses, shifted down (R344). -/
def laneGet (v : BitVec 32) (addr : BitVec 32) (w : Width) : BitVec 32 :=
  BitVec.ofNat 32 ((v.toNat >>> (8 * (addr.toNat % 4))) % 2 ^ (8 * widthBytes w))

/-- The word with the addressed bytes replaced. -/
def lanePut (v : BitVec 32) (addr : BitVec 32) (w : Width) (d : BitVec 32) : BitVec 32 :=
  let sh := 8 * (addr.toNat % 4)
  let m := (2 ^ (8 * widthBytes w) - 1) <<< sh
  BitVec.ofNat 32 ((v.toNat &&& ((2 ^ 32 - 1) ^^^ m)) ||| ((d.toNat <<< sh) &&& m))

/-- Bits 31:0 of a word. -/
def low32 (w : Word) : BitVec 32 := w.truncate 32

/-- A word with its bits 31:0 replaced. -/
def withLow (w : Word) (v : BitVec 32) : Word := setFld w 31 0 v.toNat

/-- What the core does with the answer of an access: data, or the access fault of a bus error (R348). -/
def coreAnswer (cause : Nat) (addr : BitVec 32) (f : Word → BitVec 32) (s : State) : State :=
  if s.resp.err then coreExc cause addr s
  else { s with core := { s.core with data := f s.resp.data } }

/-- A load or fetch (R344). A fetch comes from scratchpad words whose bits 35:32 are zero. -/
def opScrLoad (addr : BitVec 32) (w : Width) (fetch : Bool) (s : State) : State :=
  let fc := if fetch then 1 else 5
  if !coreRuns s then s
  else if !fetch && !aligned addr w then coreExc 4 addr s
  else match scrRange addr with
    | none => coreExc fc addr s
    | some r =>
      if fetch ∧ r ≠ 0 then coreExc 1 addr s
      else
        let s := scrRead rqCore (scrOff addr) (begin rqCore s)
        if fetch ∧ ¬ s.resp.err ∧ fld s.resp.data 35 32 ≠ 0 then coreExc 1 addr s
        else coreAnswer fc addr (fun d => if r = 1 then laneGet (BitVec.ofNat 32 (fld d 35 32)) addr w else laneGet (low32 d) addr w) s

/-- A store by merge at the memory; a bus error is a store access fault (R344, R348). -/
def coreMerge (addr : BitVec 32) (f : Word → Word) (s : State) : State :=
  let s := scrMerge rqCore (scrOff addr) f (begin rqCore s)
  if s.resp.err then coreExc 7 addr s else s

/-- A store to the scratchpad words or their nibble alias (R344). -/
def opScrStore (addr : BitVec 32) (w : Width) (data : BitVec 32) (s : State) : State :=
  if !coreRuns s then s
  else if !aligned addr w then coreExc 6 addr s
  else match scrRange addr with
    | some 0 => coreMerge addr (fun d => withLow d (lanePut (low32 d) addr w data)) s
    | some 1 => coreMerge addr (fun d => if addr.toNat % 4 = 0 then setFld d 35 32 (fld data 3 0) else d) s
    | some 2 => coreMerge addr (fun d => withLow d (low32 d ||| lanePut 0 addr w data)) s
    | some 3 => coreMerge addr (fun d => withLow d (low32 d &&& ~~~(lanePut 0 addr w data))) s
    | _ => coreExc 7 addr s

/-- LR and SC work on the scratchpad words only (R347). -/
def opLr (addr : BitVec 32) (s : State) : State :=
  if !coreRuns s then s
  else if !aligned addr .word then coreExc 4 addr s
  else match scrRange addr with
    | some 0 =>
      let s := coreAnswer 5 addr low32 (scrRead rqCore (scrOff addr) (begin rqCore s))
      if s.resp.err then s else { s with core := { s.core with resv := some (Fin.ofNat 2097152 (scrOff addr)) } }
    | _ => coreExc 7 addr s

/-- SC stores only while the reservation on its word holds; it returns 0, or 1 when it does not store (R347). -/
def opSc (addr : BitVec 32) (data : BitVec 32) (s : State) : State :=
  if !coreRuns s then s
  else if !aligned addr .word then coreExc 6 addr s
  else match scrRange addr with
    | some 0 =>
      if s.core.resv.map Fin.val = some (scrOff addr) then
        let s := coreMerge addr (fun d => withLow d data) s
        { s with core := { s.core with resv := none, data := if s.resp.err then s.core.data else 0 } }
      else { s with core := { s.core with resv := none, data := 1 } }
    | _ => coreExc 7 addr s

/-- The arithmetic of an AMO. -/
def amoOp (op : AmoOp) (a b : BitVec 32) : BitVec 32 :=
  match op with
  | .swap => b
  | .add => a + b
  | .xor => a ^^^ b
  | .and => a &&& b
  | .or => a ||| b
  | .min => if a.slt b then a else b
  | .max => if a.slt b then b else a
  | .minu => if a.ult b then a else b
  | .maxu => if a.ult b then b else a

def opAmo (op : AmoOp) (addr : BitVec 32) (data : BitVec 32) (s : State) : State :=
  if !coreRuns s then s
  else if !aligned addr .word then coreExc 6 addr s
  else match scrRange addr with
    | some 0 =>
      coreAnswer 7 addr low32 (scrMerge rqCore (scrOff addr) (fun d => withLow d (amoOp op (low32 d) data)) (begin rqCore s))
    | _ => coreExc 7 addr s

/-- The register space's upper-nibble alias (R343). -/
def nibbleRange (addr : BitVec 32) : Bool := decide (0x50000000 ≤ addr.toNat) && decide (addr.toNat < 0x54000000)

def regRange (addr : BitVec 32) : Bool := decide (0x40000000 ≤ addr.toNat) && decide (addr.toNat < 0x44000000)

/-- Register word address of an address in the register-space ranges. -/
def coreReg (addr : BitVec 32) : Nat := addr.toNat / 4 % 16777216

/-! ### Commands -/

def execTrapEntry (interrupt : Bool) (cause : BitVec 31) (pc tval : BitVec 32) (s : State) : Host.Outcome State Fault Refusal :=
  .next (if coreUp s then opTrap interrupt cause.toNat pc tval s else s)

/-- MRET restores pc, mstatus and the staging state, and clears IN_FAULT (R346, R385). -/
def execMret (s : State) : Host.Outcome State Fault Refusal :=
  .next (if coreRuns s then
      let s := stageRestore s
      let s := traceRec 4 (s.csr csrMepc) { s with core := { s.core with pc := s.csr csrMepc } }
      (s.setCsr csrMstatus (mstatusRet (s.csr csrMstatus))).setB Reg.flcXipStatus 35 false
    else s)

/-- An access fault while IN_FAULT is 1 (R385). -/
def execDoubleFault (mcause : BitVec 4) (pc : BitVec 32) (s : State) : Host.Outcome State Fault Refusal :=
  .next (if coreUp s ∧ inFault s ∧ accessFault mcause.toNat then
      doubleFaultTake mcause.toNat pc s
    else s)

/-- WFI stops the core clock until an enabled interrupt is pending or a debug halt is requested (R341). -/
def execWfi (pc : BitVec 32) (s : State) : Host.Outcome State Fault Refusal :=
  .next (if coreRuns s then { s with core := { s.core with pc := pc, wfi := !irqWaits s } } else s)

/-- EBREAK: debug halt for an attached debugger, otherwise the breakpoint exception; whether mtval then holds the address or zero
is open (R341, log entry 15). -/
def execEbreak (pc : BitVec 32) (s : State) : Host.Outcome State Fault Refusal :=
  .next (if coreRuns s then
      (if attached s then coreHaltFor 1 { s with core := { s.core with pc := pc } }
       else trapTake false 3 pc (if Config.freeBit s.free then pc else 0) s.draw)
    else s)

/-- A pending enabled interrupt ends a wait, and is taken while mstatus.MIE is 1 (R341, R350). -/
def execCoreInterrupt (pc : BitVec 32) (s : State) : Host.Outcome State Fault Refusal :=
  .next (if coreUp s ∧ meip s ∧ (s.csr csrMie).getLsbD 11 then
      (if (s.csr csrMstatus).getLsbD 3 then trapTake true 11 pc 0 s
       else { s with core := { s.core with wfi := false } })
    else s)

def execScratchpadLoad (addr : BitVec 32) (w : Width) (fetch : Bool) (s : State) : Host.Outcome State Fault Refusal :=
  .next (opScrLoad addr w fetch s)

def execScratchpadStore (addr : BitVec 32) (w : Width) (data : BitVec 32) (s : State) : Host.Outcome State Fault Refusal :=
  .next (opScrStore addr w data s)

/-- A store to the bit-set alias (R347); an address outside it is the other access that its range names. -/
def execScratchpadBitSet (addr : BitVec 32) (data : BitVec 32) (s : State) : Host.Outcome State Fault Refusal :=
  .next (opScrStore addr .word data s)

/-- A store to the bit-clear alias (R347). -/
def execScratchpadBitClear (addr : BitVec 32) (data : BitVec 32) (s : State) : Host.Outcome State Fault Refusal :=
  .next (opScrStore addr .word data s)

def execLr (addr : BitVec 32) (s : State) : Host.Outcome State Fault Refusal := .next (opLr addr s)

def execSc (addr : BitVec 32) (data : BitVec 32) (s : State) : Host.Outcome State Fault Refusal := .next (opSc addr data s)

def execAmo (op : AmoOp) (addr : BitVec 32) (data : BitVec 32) (s : State) : Host.Outcome State Fault Refusal :=
  .next (opAmo op addr data s)

/-- A write of the nibble alias loads the staging nibble and does not reach the register (R345). -/
def execNibbleWrite (addr : BitVec 32) (data : BitVec 32) (s : State) : Host.Outcome State Fault Refusal :=
  .next (if !coreRuns s then s
    else if !aligned addr .word then coreExc 6 addr s
    else if nibbleRange addr then { s with core := { s.core with staging := BitVec.ofNat 4 data.toNat } }
    else coreExc 7 addr s)

end Sys2Proof.Machine
end

