-- ==== Sys2Proof/Machine/Flash.lean ====
section
/-! DEFINITION. The flash array and its controller: the array and its layout (R369 to R374), descriptors and completions (R375 to
R380), what the array does while it works (R382 to R384), execute in place (R386, R387), wear levelling (R388), the erase
journal and recovery (R389 to R392), boot blocks and the boot journal (R393, R394). -/

namespace Sys2Proof.Machine

open Crypto

/-! ### The array -/

def State.fa (s : State) (a : Nat) : Cell := Store.get (fun _ => flashErased) s.flash.mem a

/-- A read of a word by `who`, 0 for an internal reader: corrected and uncorrectable words are counted, the latter with E702 (R374). -/
def cellRd (who : Nat) (a : Nat) (c : Cell) (s : State) : Chk × State :=
  match c.chk with
  | .good w => (.good w, s)
  | .corrected w => (.corrected w, s.count (Reg.flcCntCorr 0) 35 0)
  | .bad => (.bad, raise 0x702 0 (who <<< 28 ||| a) (s.count (Reg.flcCntCorr 1) 35 0))

def flashRd (who : Nat) (a : Nat) (s : State) : Chk × State := cellRd who a (s.fa a) s

/-- Read words in order. -/
def flashRds : List Nat → State → List Chk × State
  | [], s => ([], s)
  | a :: l, s =>
    let r := flashRd 0 a s
    let t := flashRds l r.2
    (r.1 :: t.1, t.2)

/-- Places of a sector's words (R369). -/
def sectorOffs : List Nat := List.range 32768

/-- The words of a page. -/
def pageFas (id page : Nat) : List Nat := (List.range 128).map (fun i => sectorFa id + 128 * page + i)

/-- What an internal reader takes from a word: an uncorrectable one as it stands, for its own check to find (R374). -/
def rawWord (s : State) (a : Nat) : Word :=
  match (s.fa a).chk with
  | .good w => w
  | .corrected w => w
  | .bad => (s.fa a).data

/-- Words that an internal reader reads. -/
def flashWords (as : List Nat) (s : State) : List Word × State := (as.map (rawWord s), (flashRds as s).2)

/-- Flash address of word `i` of an image slot (R372). -/
def slotFa (slot i : Nat) : Nat :=
  let p := i / 128
  sectorFa ((p % 16) * 512 + 36 * slot + p / 16 / 256) + 128 * (p / 16 % 256) + i % 128

def slotWords (slot lo n : Nat) (s : State) : List Word × State :=
  flashWords ((List.range n).map (fun i => slotFa slot (lo + i))) s

def wearGap (s : State) : Nat := s.getF Reg.flcWearStatus 25 13
def wearStart (s : State) : Nat := s.getF Reg.flcWearStatus 12 0

/-- Sector id of a logical sector of the data window (R373). -/
def logicalId (s : State) (l : Nat) : Nat :=
  let q := (l + wearStart s) % 5871
  windowSector (if wearGap s ≤ q then q + 1 else q)

def bankOf (id : Nat) : Nat := id / 512

/-- Erase a sector; erases are counted (R397). -/
def sectorWipe (id : Nat) (s : State) : State :=
  let s := xipDrop (sectorFa id) 32768 s
  State.count { s with flash := { s.flash with mem := Store.keep (fun a => a / 32768 != id) s.flash.mem } } Reg.flcCntErase 35 0

def flashPut (a : Nat) (ws : List Word) (s : State) : State :=
  forAll ws.zipIdx (fun w s => s.setFa (a + w.2) { data := w.1 }) (xipDrop a ws.length s)

/-! ### The erase journal (R389 to R391) -/

def crcWord (ws : List Word) : Word := (crc32c (ws.flatMap (fun w => beBytes 5 w.toNat))).zeroExtend 36

/-- Sector ids of J0 and J1 (R371). -/
def jrnlId (second : Bool) : Nat := (if second then 10 else 2) * 512 + 144

def jrnlCur (s : State) : Bool := s.getB Reg.flcJrnlStatus 35
def jrnlBank (s : State) : Nat := bankOf (jrnlId (jrnlCur s))

/-- The words of a record. -/
def jrnlRecord (kind seq : Nat) (w1 w2 : Word) (q : List Word) : List Word :=
  let h := [wd (kind <<< 32 ||| seq), w1, w2]
  h ++ [crcWord (h ++ q)] ++ q

/-- Program a record at the next free page with the next JSEQ. -/
def jrnlPut (kind : Nat) (w1 w2 : Word) (q : List Word) (s : State) : State :=
  let seq := (s.getF Reg.flcJrnlSeq 31 0 + 1) % 2 ^ 32
  let page := s.getF Reg.flcJrnlStatus 7 0
  let s := flashPut (sectorFa (jrnlId (jrnlCur s)) + 128 * page) (jrnlRecord kind seq w1 w2 q) s
  (s.setF Reg.flcJrnlSeq 31 0 seq).setF Reg.flcJrnlStatus 7 0 (page + 1)

def wearWord (s : State) : Word := s.reg Reg.flcWearStatus

/-- Switch to the other journal sector: erased, and a CHECKPOINT as its page 0 (R390). -/
def jrnlSwitch (s : State) : State :=
  let other := !jrnlCur s
  let q := s.flash.recov.map (fun id => wd (id.toNat <<< 8))
  let s := (sectorWipe (jrnlId other) s).setReg Reg.flcJrnlStatus (wd (other.toNat <<< 35))
  let s := jrnlPut 5 (wearWord s) (wd q.length) q s
  raise 0x70A 0 (s.getF Reg.flcJrnlSeq 31 0 <<< 1 ||| other.toNat) s

/-- Before an operation of `n` records would leave fewer than 4 free pages, the controller switches sectors (R390). -/
def jrnlRoom (n : Nat) (s : State) : State := if 256 < s.getF Reg.flcJrnlStatus 7 0 + n + 4 then jrnlSwitch s else s

/-- A record as the scan reads it: kind, JSEQ, words 1 and 2, queue (R389). -/
structure JRec where
  kind : Nat
  seq : Nat
  w1 : Word
  w2 : Word
  q : List Word
  deriving DecidableEq, Repr

def jrnlParse (ws : List Word) : Option JRec :=
  let w := fun i => ws.getD i 0
  let kind := fld (w 0) 35 32
  let q := if kind = 5 then (ws.drop 4).take (fld (w 2) 5 0) else []
  if 1 ≤ kind ∧ kind ≤ 5 ∧ w 3 = crcWord ([w 0, w 1, w 2] ++ q) then
    some ⟨kind, fld (w 0) 31 0, w 1, w 2, q⟩
  else none

/-- Records of a journal sector from page 0 up to the first blank page, with each page's number; a page whose CRC fails is skipped. -/
def jrnlScan (id : Nat) : Nat → Nat → State → List JRec × Nat × State
  | 0, page, s => ([], page, s)
  | n + 1, page, s =>
    let r := flashWords (pageFas id page) s
    if r.1.all (fun w => w == BitVec.allOnes 36) then ([], page, r.2)
    else
      let t := jrnlScan id n (page + 1) r.2
      ((jrnlParse r.1).toList ++ t.1, t.2.1, t.2.2)

/-- JSEQ of a sector whose page 0 holds a valid CHECKPOINT (R390). -/
def jrnlHead (second : Bool) (s : State) : Option Nat :=
  match jrnlParse ((pageFas (jrnlId second) 0).map (rawWord s)) with
  | some r => if r.kind = 5 then some r.seq else none
  | none => none

/-- The current journal sector: the one with the higher JSEQ (R390). -/
def jrnlChoose (s : State) : Bool :=
  match jrnlHead false s, jrnlHead true s with
  | some a, some b => decide (a < b)
  | none, some _ => true
  | _, none => false

/-- Queue a sector for re-erase with E706, at most 32 (R391, R392). -/
def recovAdd (id cause : Nat) (s : State) : State :=
  if s.flash.recov.contains (BitVec.ofNat 13 id) ∨ 32 ≤ s.flash.recov.length then s
  else
    let s := { s with flash := { s.flash with recov := s.flash.recov ++ [BitVec.ofNat 13 id],
                                              reports := s.flash.reports ++ [wd (cause <<< 21 ||| id <<< 8)] } }
    raise 0x706 0 (cause <<< 21 ||| id <<< 8) s

def recovDrop (id : Nat) (s : State) : State :=
  { s with flash := { s.flash with recov := s.flash.recov.filter (fun x => x.toNat != id) } }

/-- What the records of the scan say: the recovery queue as it grows, sectors whose erase is open, the open move. -/
structure JScan where
  queue : List Nat := []
  opened : List Nat := []
  move : Option (Nat × Nat) := none
  wear : Option Word := none
  deriving DecidableEq, Repr

def jrnlStep (a : JScan) (r : JRec) : JScan :=
  let id := fld r.w1 20 8
  match r.kind with
  | 1 => { a with opened := a.opened.filter (· ≠ id) ++ [id] }
  | 2 => { a with opened := a.opened.filter (· ≠ id), queue := a.queue.filter (· ≠ id) }
  | 3 => { a with move := some (id, fld r.w2 20 8) }
  | 4 => { a with move := none, wear := some r.w1 }
  | _ => { queue := r.q.map (fun w => fld w 20 8), opened := [], move := none, wear := some r.w1 }

/-- The records of a journal sector that name an ended erase, newest last. -/
def jrnlErased (s : State) : List Nat :=
  (((jrnlScan (jrnlId (jrnlCur s)) 256 0 s).1.filter (fun r => r.kind == 2)).map (fun r => fld r.w1 20 8))

/-- Boot step 1: gap, start and the recovery queue are read from the current journal sector (R391). A MOVE record's sectors are
physical indices' places. -/
def jrnlBoot (s : State) : State :=
  let cur := jrnlChoose s
  let r := jrnlScan (jrnlId cur) 256 0 s
  let a := r.1.foldl jrnlStep {}
  let s := r.2.2
  let s := s.setReg Reg.flcJrnlStatus (wd (cur.toNat <<< 35 ||| r.2.1 % 256))
  let s := s.setF Reg.flcJrnlSeq 31 0 ((r.1.getLast?.map JRec.seq).getD 0)
  let s := match a.wear with
    | some w => s.setReg Reg.flcWearStatus (w &&& 0x3ffffff)
    | none => s
  let s := { s with flash := { s.flash with recov := a.queue.map (BitVec.ofNat 13) } }
  let s := forAll a.opened (fun id => recovAdd id 1) s
  match a.move with
  | some m => (recovAdd m.2 2 s).setB Reg.flcStatus 35 true
  | none => s

/-! ### Boot blocks and the boot journal (R393, R394) -/

/-- SHA-384 of the PUBKEY words matches the fused hash (R186). -/
def pubkeyOk (key : List Word) : Bool := sha384 (key.flatMap (fun w => beBytes 4 (w.toNat % 2 ^ 32))) == beBytes 48 Config.fusePkh.toNat

/-- A number in 32-bit words, most significant first. -/
def words32 (ws : List Word) : Nat := ws.foldl (fun a w => a * 2 ^ 32 + w.toNat % 2 ^ 32) 0

/-- SIGN verifies under PUBKEY over a digest (R186). -/
def signOk (key sig : List Word) (digest : Nat) : Bool :=
  ecdsaVerify (words32 (key.take 12), words32 (key.drop 12)) digest (words32 (sig.take 12)) (words32 (sig.drop 12))

/-- SHA-384 of words fed as five bytes each (R185). -/
def sha384w (ws : List Word) : Nat := beNat (sha384 (ws.flatMap (fun w => beBytes 5 w.toNat)))

def twinId (b : Bool) : Nat := (if b then 8 else 0) * 512 + 144

/-- The 239 words of a twin. -/
def twinWords (b : Bool) (s : State) : List Word × State :=
  flashWords ((List.range 239).map (fun i => sectorFa (twinId b) + i)) s

/-- A boot block is valid: 0; otherwise the cause of E709: 1 signature, 2 key hash, 3 format (R393). -/
def bootBlockChk (ws : List Word) : Nat :=
  let key := (ws.drop 191).take 24
  if ws.getD 0 0 ≠ 0xB100100EF ∨ ws.getD 8 0 ≠ 0x5AF0100B7 then 3
  else if !pubkeyOk key then 2
  else if !signOk key ((ws.drop 215).take 24) (sha384w (ws.take 215)) then 1
  else 0

/-- Sector id of a boot journal slot (R371). -/
def bootSlotId (second : Bool) : Nat := (if second then 9 else 1) * 512 + 144

/-- A boot journal slot's entry: SEQ and TWIN (R394). -/
def bootEntry (second : Bool) (s : State) : Option (Nat × Bool) :=
  let w := fun i => rawWord s (sectorFa (bootSlotId second) + i)
  if w 0 = 0xB0A000000 ∧ w 3 = crcWord [w 0, w 1, w 2] then some (fld (w 1) 31 0, (w 2).getLsbD 0) else none

/-- The slot that holds the entry in force, with the entry (R68, R394). -/
def bootForce (s : State) : Option (Bool × Nat × Bool) :=
  match bootEntry false s, bootEntry true s with
  | some a, some b => if a.1 < b.1 then some (true, b) else some (false, a)
  | some a, none => some (false, a)
  | none, some b => some (true, b)
  | none, none => none

/-- FLC.BOOT_JRNL as the journal has it. -/
def bootJrnlShow (s : State) : State :=
  let both := (bootEntry false s).isSome && (bootEntry true s).isSome
  match bootForce s with
  | some (_, seq, twin) =>
    State.setReg { s with flash := { s.flash with bootEntry := true } } Reg.flcBootJrnl
      (wd (twin.toNat <<< 35 ||| both.toNat <<< 34 ||| seq))
  | none => State.setReg { s with flash := { s.flash with bootEntry := false } } Reg.flcBootJrnl 0

/-! ### Busy banks -/

/-- The controller works: CK_SYS runs, and the part is not in FAILSAFE (R31, R63, R395). -/
def flcWorks (s : State) : Bool := allAnswer s && !rootStopped s

/-- An operation in progress in a bank, by the descriptors that have been dispatched. -/
def Desc.runs (d : Desc) : Bool := d.active && d.result.isNone

/-- A bank is busy with a write (R382). -/
def bankBusy (s : State) (b : Nat) : Bool :=
  s.flash.descs.any (fun d => d.runs && d.bank.val == b && (d.op == 2 || d.op == 3 || d.op == 7)) ||
  match s.flash.move with
  | some m => bankOf (windowSector m.1) == b || bankOf (windowSector m.2) == b
  | none => false

/-- TEST FLASH runs on the bank (R453, R455). -/
def bankTested (s : State) (b : Nat) : Bool :=
  match s.svc.test with
  | some t => t.id == 1 && t.arg.toNat == b
  | none => false

/-- A bank has an operation in progress (R380). -/
def bankTaken (s : State) (b : Nat) : Bool :=
  bankBusy s b || bankTested s b || s.flash.descs.any (fun d => d.runs && d.bank.val == b)

/-- The core has fetched from the bank within 256 CK_SYS cycles (R383). -/
def bankFetched (s : State) (b : Nat) : Bool := s.getB Reg.flcBankStatus b

/-- FLC.BANK_STATUS as it reads. -/
def bankStatus (s : State) : Word :=
  wd ((List.range 16).foldl (fun a b => a ||| (bankBusy s b).toNat <<< (16 + b)) (s.getF Reg.flcBankStatus 15 0))

/-! ### Descriptors -/

/-- Outstanding indices before and after a write of DESC_WR (R375). -/
def opDescWr (v : Word) (s : State) : State :=
  let s := if v.getLsbD 6 then s.setB Reg.flcDescWr 6 false else s
  let rd := s.getF Reg.flcCmplRd 5 0
  let new := fld v 5 0
  if (s.getF Reg.flcDescWr 5 0 + 64 - rd) % 64 ≤ (new + 64 - rd) % 64 then s.setF Reg.flcDescWr 5 0 new
  else s.setB Reg.flcDescWr 6 true

def opCmplRd (v : Word) (s : State) : State := s.setF Reg.flcCmplRd 5 0 (fld v 5 0)

/-- RING_BASE is written only while STATE is OFF (R397). -/
def opRingBase (v : Word) (s : State) : State :=
  if s.fn .flc = fnOff then s.setReg Reg.flcRingBase (v &&& 0x1ffe00) else s

def ringBase (s : State) : Nat := (s.reg Reg.flcRingBase).toNat

/-- Fetch the descriptor at DESC_RD (R375, R380). -/
def opDescFetch (s : State) : State :=
  let rd := s.getF Reg.flcDescRd 5 0
  if flcWorks s ∧ s.fn .flc = fnOn ∧ s.flash.descs.length < 16 ∧ rd ≠ s.getF Reg.flcDescWr 5 0 ∧
      (rd + 64 - s.getF Reg.flcCmplRd 5 0) % 64 < 63 then
    let b := ringBase s + 4 * rd
    let r0 := unitRead b s
    let r1 := unitRead (b + 1) r0.2
    let r2 := unitRead (b + 2) r1.2
    let r3 := unitRead (b + 3) r2.2
    let s := r3.2
    State.setF { s with flash := { s.flash with descs := s.flash.descs ++ [{ d := ⟨r0.1, r1.1, r2.1, r3.1⟩ }] } }
      Reg.flcDescRd 5 0 (rd + 1)
  else s

/-- BAD_DESC (R379). -/
def descBad (s : State) (d : Desc) : Bool :=
  let none0 := d.op == 3 || d.op == 7
  d.op == 0 || decide (7 < d.op) || fld d.d.w0 21 9 != 0 || fld d.d.w1 35 21 != 0 || fld d.d.w2 35 21 != 0 || fld d.d.w3 35 1 != 0 ||
  (if none0 then d.count != 0 else d.count == 0 || decide (256 < d.count)) ||
  (d.d.w0.getLsbD 23 && !s.getB Reg.flcXcfg 0) || (d.op == 7 && d.d.w3.getLsbD 0 == s.flash.twin)

/-- The slot that SWAP_BOOT writes: the one that does not hold the entry in force, or slot 0 (R394). -/
def swapSlot (s : State) : Bool := match bootForce s with | some (b, _, _) => !b | none => false

/-- The sector that a descriptor names, by the mapping now in force (R376, R380). -/
def descSector (s : State) (d : Desc) : Nat :=
  if d.op = 7 then bootSlotId (swapSlot s)
  else if d.d.w0.getLsbD 22 then logicalId s (fld d.d.w1 20 8) else fld d.d.w1 20 8

/-- BAD_ADDR (R379). -/
def descAddrBad (d : Desc) : Bool :=
  let a := fld d.d.w1 20 8
  if d.op = 7 then false
  else
    (if d.d.w0.getLsbD 22 then decide (5870 < a)
     else decide (145 ≤ a % 512) || (a % 512 == 144 && a / 512 != 0 && a / 512 != 8)) ||
    decide (256 < d.page + d.count) || (d.op != 3 && decide (2097152 < fld d.d.w2 20 0 + 128 * d.count))

/-- An identity with SLOT_VALID = 1 names the slot (R379). -/
def slotNamed (s : State) (slot : Nat) : Bool :=
  (Reg.cfgRingShId :: (List.range 64).flatMap (fun n => [Reg.cfgRact n, Reg.cfgRsh n])).any
    (fun a => s.getB a 35 && s.getF a 34 33 == slot)

/-- SLOT_IN_USE (R379). -/
def descInUse (s : State) (d : Desc) (id : Nat) : Bool :=
  (d.op == 2 || d.op == 3) && !d.d.w0.getLsbD 22 &&
  (if id % 512 < 144 then slotNamed s (id % 512 / 36) else id == twinId s.flash.twin)

/-- A logical sector lies in an execute-only range (R387). -/
def isXo (s : State) (l : Nat) : Bool :=
  (List.range 4).any (fun i => s.getB (Reg.flcXo i) 35 && decide (s.getF (Reg.flcXo i) 25 13 ≤ l) &&
    decide (l < s.getF (Reg.flcXo i) 25 13 + s.getF (Reg.flcXo i) 12 0))

def isQueued (s : State) (id : Nat) : Bool := s.flash.recov.contains (BitVec.ofNat 13 id)

/-- The status that a descriptor gets without running, top row of the table first (R379, R384); 0 when it runs. -/
def descRefused (s : State) (d : Desc) : Nat :=
  let id := descSector s d
  if descBad s d then 2
  else if descAddrBad d then 3
  else if descInUse s d id then 4
  else if (d.op == 1 || d.op == 4 || d.op == 6) && d.d.w0.getLsbD 22 && isXo s (fld d.d.w1 20 8) then 5
  else if d.op ≠ 3 ∧ d.op ≠ 7 ∧ isQueued s id then 6
  else if (d.op == 2 || d.op == 3 || d.op == 7) && !d.d.w0.getLsbD 23 &&
      (bankFetched s (bankOf id) || (d.op == 3 && bankFetched s (jrnlBank s))) then 1
  else 0

/-- The descriptor waits: its bank is taken or an earlier one waits for it, its sector is being moved, or it is an ERASE while other
sectors are queued for recovery or while the journal bank is taken (R380, R388, R392). -/
def descWaits (s : State) (k : Nat) (d : Desc) : Bool :=
  let id := descSector s d
  bankTaken s (bankOf id) ||
  (s.flash.descs.take k).any (fun e => !e.active && e.result.isNone && !descBad s e && bankOf (descSector s e) == bankOf id) ||
  (match s.flash.move with | some m => d.d.w0.getLsbD 22 && id == windowSector m.1 | none => false) ||
  (d.op == 3 && ((!s.flash.recov.isEmpty && !isQueued s id) || bankTaken s (jrnlBank s)))

def descSet (k : Nat) (d : Desc) (s : State) : State := { s with flash := { s.flash with descs := s.flash.descs.set k d } }

/-- Dispatch a fetched descriptor, or give it the status with which it does not run; an ERASE programs ERASE_START first (R380, R384,
R389). While the function stops, a descriptor that has not started is ABORTED, or has a status that stands higher in the table (R375,
R379). -/
def opDescDispatch (k : Nat) (s : State) : State :=
  match s.flash.descs[k]? with
  | none => s
  | some d =>
    if d.active ∨ d.result.isSome ∨ !flcWorks s then s
    else if s.fn .flc ≠ fnOn ∧ s.fn .flc ≠ fnStopping then s
    else
      let id := descSector s d
      let at' : Desc := { d with bank := Fin.ofNat 16 (bankOf id), sector := BitVec.ofNat 9 (id % 512) }
      let refused := descRefused s d
      if s.fn .flc = fnStopping then
        descSet k { (if descBad s d then d else at') with result := some (if refused = 0 then 0xE else BitVec.ofNat 4 refused) } s
      else if descBad s d then descSet k { d with result := some 2 } s
      else if descWaits s k d then s
      else if refused ≠ 0 then descSet k { at' with result := some (BitVec.ofNat 4 refused) } s
      else
        let s := descSet k { at' with active := true } s
        if d.op = 3 then jrnlPut 1 (wd (id <<< 8)) 0 [] (jrnlRoom 2 s) else s

/-- How an operation over pages has gone: status, pages done, detail, words corrected. -/
structure PageRun where
  st : Nat := 0
  pages : Nat := 0
  detail : Nat := 0
  fixed : Nat := 0
  deriving DecidableEq, Repr

/-- One page: it ends the operation with a status and the first failing word, or is done with so many words corrected. -/
def pageDone (r : PageRun) (page st word fixed : Nat) : PageRun :=
  if st = 0 then { r with pages := r.pages + 1, fixed := r.fixed + fixed }
  else { r with st := st, detail := page <<< 7 ||| word }

/-- Pages in order, until one ends the operation. -/
def pageLoop (f : Nat → State → Nat × Nat × Nat × State) (page : Nat) : Nat → PageRun × State → PageRun × State
  | 0, r => r
  | n + 1, (r, s) =>
    let o := f page s
    let r' := pageDone r page o.1 o.2.1 o.2.2.1
    if o.1 = 0 then pageLoop f (page + 1) n (r', o.2.2.2) else (r', o.2.2.2)

def firstIx {α : Type} (p : α → Bool) (l : List α) : Option Nat := l.findIdx? p

def Chk.isBad : Chk → Bool
  | .bad => true
  | _ => false

def Chk.isFixed : Chk → Bool
  | .corrected _ => true
  | _ => false

/-- Read a page, and end with UNCORR at an uncorrectable word; otherwise go on with its words. -/
def onPage (id page : Nat) (g : List Word → State → Nat × Nat × State) (s : State) : Nat × Nat × Nat × State :=
  let r := flashRds (pageFas id page) s
  let fixed := (r.1.filter Chk.isFixed).length
  match firstIx Chk.isBad r.1 with
  | some i => (9, i, fixed, r.2)
  | none => let o := g (r.1.map Chk.word) r.2; (o.1, o.2.1, fixed, o.2.2)

/-- The buffer words of page `j` of a descriptor. -/
def bufWords (d : Desc) (j : Nat) (s : State) : List Word × State :=
  (List.range 128).foldl (fun a i => let r := unitRead (fld d.d.w2 20 0 + 128 * j + i) a.2; (a.1 ++ [r.1], r.2)) ([], s)

/-- READ (R377): a page with an uncorrectable word leaves its part of the buffer with no stated words. -/
def runRead (d : Desc) (page : Nat) (s : State) : Nat × Nat × Nat × State :=
  let b := fld d.d.w2 20 0 + 128 * (page - d.page)
  let put := fun (ws : List Word) (s : State) => forAll ws.zipIdx (fun w => unitWrite (b + w.2) w.1) s
  let o := onPage d.id page (fun ws s => (0, 0, put ws s)) s
  if o.1 = 9 then
    let n := o.2.2.2.free
    (9, o.2.1, o.2.2.1, put ((List.range 128).map (fun i => Config.freeWord (n + i))) { o.2.2.2 with free := n + 128 })
  else o

/-- PROGRAM (R377): a page that is not blank ends the operation; `failAt` is the page at which the die reports a failure. -/
def runProgram (d : Desc) (failAt : Option Nat) (page : Nat) (s : State) : Nat × Nat × Nat × State :=
  onPage d.id page (fun ws s =>
    match firstIx (fun w => w != BitVec.allOnes 36) ws with
    | some i => (7, i, s)
    | none =>
      let b := bufWords d (page - d.page) s
      if failAt = some page then
        (0xA, 0, raise 0x701 0 (d.id <<< 8 ||| page) (flashCutAt (sectorFa d.id + 128 * page) 128 b.2))
      else (0, 0, flashPut (sectorFa d.id + 128 * page) b.1 b.2)) s

/-- VERIFY (R377). -/
def runVerify (d : Desc) (page : Nat) (s : State) : Nat × Nat × Nat × State :=
  onPage d.id page (fun ws s =>
    let b := bufWords d (page - d.page) s
    match firstIx (fun p => p.1 != p.2) (ws.zip b.1) with
    | some i => (8, i, b.2)
    | none => (0, 0, b.2)) s

/-- BLANK (R377). -/
def runBlank (d : Desc) (page : Nat) (s : State) : Nat × Nat × Nat × State :=
  onPage d.id page (fun ws s =>
    match firstIx (fun w => w != BitVec.allOnes 36) ws with
    | some i => (7, i, s)
    | none => (0, 0, s)) s

/-- A word of a page is weak under a moved reference: the first one, if any (R377). -/
def weakWord (id page : Nat) (dir : Bool) (s : State) : Option Nat :=
  firstIx (fun a => Config.flashWeak s.free a dir) (pageFas id page)

/-- MARGIN_READ (R377): E703 for the first weak word. -/
def runMargin (d : Desc) (page : Nat) (s : State) : Nat × Nat × Nat × State :=
  let dir := d.d.w3.getLsbD 0
  onPage d.id page (fun _ s =>
    match weakWord d.id page dir s with
    | some i => (0xC, i, raise 0x703 0 (dir.toNat <<< 28 ||| (sectorFa d.id + 128 * page + i)) s.draw)
    | none => (0, 0, s.draw)) s

/-- Run an operation of the descriptor at `k`, if it has been dispatched with that OP. -/
def descRun (k op : Nat) (f : Desc → State → Desc × State) (s : State) : State :=
  match s.flash.descs[k]? with
  | none => s
  | some d =>
    if d.runs ∧ d.op = op ∧ flcWorks s then
      let r := f d s
      descSet k r.1 r.2
    else s

/-- The result of an operation over pages (R378): DETAIL is the first failing word, or the words corrected. -/
def pagesEnd (d : Desc) (r : PageRun × State) : Desc × State :=
  ({ d with result := some (BitVec.ofNat 4 r.1.st), pages := r.1.pages,
            detail := wd (if r.1.st = 0 then r.1.fixed % 65536 else if r.1.st = 0xA then 0 else r.1.detail) }, r.2)

def descPages (f : Desc → Nat → State → Nat × Nat × Nat × State) (d : Desc) (s : State) : Desc × State :=
  pagesEnd d (pageLoop (f d) d.page d.count ({}, s))

/-- ERASE_DONE, and what the end of an erase adds: a window erase counts toward a gap move (R388), a queued sector leaves the
queue with E70C (R392). -/
def eraseDone (id : Nat) (window : Bool) (s : State) : State :=
  let s := jrnlPut 2 (wd (id <<< 8)) 0 [] (jrnlRoom 1 s)
  let s := if isQueued s id then raise 0x70C 0 (id <<< 8) (recovDrop id s) else s
  if window then
    let n := s.getF Reg.flcWearCount 15 0 + 1
    let g := s.getF Reg.flcWearCfg 15 0
    if g ≠ 0 ∧ g ≤ n then (s.setF Reg.flcWearCount 15 0 0).setB Reg.flcStatus 35 true else s.setF Reg.flcWearCount 15 0 n
  else s

/-- ERASE (R389): a failure that the die reports leaves no ERASE_DONE. -/
def runErase (dieOk : Bool) (d : Desc) (s : State) : Desc × State :=
  if dieOk then ({ d with result := some 0 }, eraseDone d.id (d.d.w0.getLsbD 22) (sectorWipe d.id s))
  else ({ d with result := some 0xB }, raise 0x701 0 (1 <<< 24 ||| d.id <<< 8) (flashCutAt (sectorFa d.id) 32768 s))

/-- SWAP_BOOT (R394). -/
def runSwapBoot (d : Desc) (s : State) : Desc × State :=
  let twin := d.d.w3.getLsbD 0
  let r := twinWords twin s
  let cause := bootBlockChk r.1
  if cause ≠ 0 then ({ d with result := some 0xD }, raise 0x709 0 (cause <<< 1 ||| twin.toNat) r.2)
  else
    let seq := match bootForce s with | some (_, n, _) => (n + 1) % 2 ^ 32 | none => 1
    let h : List Word := [0xB0A000000, wd seq, wd twin.toNat]
    let s := bootJrnlShow (flashPut (sectorFa d.id) (h ++ [crcWord h]) (sectorWipe d.id r.2))
    ({ d with result := some 0, detail := wd seq }, raise 0x708 0 (seq <<< 1 ||| twin.toNat) s)

/-- The completion record (R378), and core interrupt source 16 (R375). Descriptors of one bank complete in fetch order (R380). -/
def opDescComplete (k : Nat) (s : State) : State :=
  match s.flash.descs[k]? with
  | none => s
  | some d =>
    match d.result with
    | none => s
    | some st =>
      if (s.flash.descs.take k).any (fun e => (e.active || e.result.isSome) && e.bank == d.bank) ∨ !flcWorks s then s
      else
        let n := s.getF Reg.flcCmplWr 5 0
        let b := ringBase s + 256 + 2 * n
        let s := unitWrite b (wd (fld d.d.w0 35 24 <<< 24 ||| st.toNat <<< 20 ||| d.bank.val <<< 16 ||| d.pages % 512)) s
        let s := unitWrite (b + 1) d.detail s
        let s := { s with flash := { s.flash with descs := s.flash.descs.eraseIdx k } }
        irqPulse 16 (s.setF Reg.flcCmplWr 5 0 (n + 1))

/-! ### Gap moves and recovery -/

/-- The physical indices of the next gap move (R388). -/
def movePlan (s : State) : Nat × Nat := if 0 < wearGap s then (wearGap s - 1, wearGap s) else (5871, 0)

/-- Neither taken nor fetched from. -/
def bankQuiet (s : State) (b : Nat) : Bool := !bankTaken s b && !bankFetched s b

/-- A pending move starts (R388). -/
def opGapMove (s : State) : State :=
  let m := movePlan s
  if flcWorks s ∧ s.getB Reg.flcStatus 35 ∧ s.flash.move.isNone ∧ s.flash.recov.isEmpty ∧
      bankQuiet s (bankOf (windowSector m.2)) ∧ bankQuiet s (jrnlBank s) ∧ !bankTaken s (bankOf (windowSector m.1)) then
    let s := jrnlRoom 4 s
    let s := jrnlPut 3 (wd (windowSector m.1 <<< 8)) (wd (windowSector m.2 <<< 8)) [] s
    State.setB { s with flash := { s.flash with move := some m } } Reg.flcStatus 35 false
  else s

/-- Copy a sector's words; an uncorrectable one gives the copy no stated contents. -/
def sectorCopy (src dst : Nat) (s : State) : State :=
  let k := s.free
  forAll (sectorOffs) (fun i s =>
    let r := flashRd 0 (sectorFa src + i) s
    match r.1 with
    | .good w => r.2.setFa (sectorFa dst + i) { data := w }
    | .corrected w => r.2.setFa (sectorFa dst + i) { data := w }
    | .bad => r.2.setFa (sectorFa dst + i) { data := (Config.flashCut k (sectorFa dst + i)).1, err := (Config.flashCut k (sectorFa dst + i)).2 })
    s.draw

/-- The move ends: the copy, MOVE_DONE with the new mapping, and the erase of the source (R388). -/
def opGapMoveDone (s : State) : State :=
  match s.flash.move with
  | none => s
  | some m =>
    if !flcWorks s then s
    else
      let src := windowSector m.1
      let s := sectorCopy src (windowSector m.2) s
      let s := if 0 < wearGap s then s.setF Reg.flcWearStatus 25 13 (wearGap s - 1)
        else (s.setF Reg.flcWearStatus 25 13 5871).setF Reg.flcWearStatus 12 0 ((wearStart s + 1) % 5871)
      let s := jrnlPut 4 (wearWord s) 0 [] s
      let s := eraseDone src false (sectorWipe src (jrnlPut 1 (wd (src <<< 8)) 0 [] s))
      let s := State.setF { s with flash := { s.flash with move := none } } Reg.flcWearCount 35 16 (s.getF Reg.flcWearCount 35 16 + 1)
      raise 0x707 0 (wearWord s).toNat s

/-- The checks after global release: the gap is blank, the sectors of the last 8 ERASE_DONE records are not weak (R391). -/
def opRecoveryCheck (s : State) : State :=
  if !flcWorks s then s
  else
    let gap := windowSector (wearGap s)
    let bad := (flashWords ((sectorOffs).map (fun i => sectorFa gap + i)) s)
    let s := if bad.1.any (fun w => w != BitVec.allOnes 36) ∧ s.flash.move.isNone then recovAdd gap 3 bad.2 else bad.2
    let last := (jrnlErased s).reverse.take 8
    forAll last (fun id s =>
      if (List.range 256).any (fun p => (weakWord id p false s).isSome) then recovAdd id 4 s.draw else s.draw) s

/-- The controller re-erases the oldest queued sector (R392). -/
def opRecoveryErase (s : State) : State :=
  match s.flash.recov with
  | [] => s
  | q :: _ =>
    let id := q.toNat
    if flcWorks s ∧ bankQuiet s (bankOf id) ∧ bankQuiet s (jrnlBank s) then
      eraseDone id false (sectorWipe id (jrnlPut 1 (wd (id <<< 8)) 0 [] (jrnlRoom 2 s)))
    else s

/-- A read of FLC.RECOV pops one report (R397). -/
def opRecovRead (peek : Bool) (s : State) : State :=
  match s.flash.reports with
  | [] => answer 1 s
  | w :: ws => answer w (if peek then s else { s with flash := { s.flash with reports := ws } })

/-! ### Execute in place (R382 to R387) -/

/-- Who makes an access of the window. -/
def xipWho : XipKind → Req
  | .debug => rqDbg
  | _ => rqCore

/-- An execute-only range refuses the access (R387). -/
def xipXo (s : State) (l : Nat) (k : XipKind) : Bool :=
  isXo s l && match k with
    | .fetch => false
    | .load => true
    | .debug => !(dbgLevel s == 2 && Config.fuseXoDebug)

/-- What the execute-in-place unit's buffers hold at a flash address (R381). -/
def xipHit (a : Nat) (s : State) : Option Cell :=
  (s.flash.xip.find? (fun b => b.1 == a / 128)).map (fun b => b.2.getD (a % 128) flashErased)

/-- Read the page of a flash address into a buffer: the oldest of four gives way (R381, log 109). -/
def xipFill (a : Nat) (s : State) : State :=
  let kept := s.flash.xip.drop (s.flash.xip.length - 3)
  let page := (List.range 128).map (fun i => s.fa (a / 128 * 128 + i))
  { s with flash := { s.flash with xip := kept ++ [(a / 128, page)] } }

/-- An access of word `w` of the data window: E705 and E704 for its refusals (R382, R387, R392); a fetch marks the bank (R383). A
word of a page that the unit holds is answered from its buffer, whatever the bank does (R381). -/
def xipAccess (w : Nat) (k : XipKind) (s : State) : State :=
  let l := w / 32768
  let id := logicalId s l
  let a := sectorFa id + w % 32768
  let det := (xipWho k).toNat <<< 28 ||| a
  if xipXo s l k then busErr (raise 0x705 0 det s)
  else if isQueued s id ∨ ((xipHit a s).isNone ∧ bankBusy s (bankOf id)) then busErr (raise 0x704 0 det s)
  else
    let s := match k with | .fetch => s.setB Reg.flcBankStatus (bankOf id) true | _ => s
    let s := if (xipHit a s).isSome then s else xipFill a s
    let r := cellRd (xipWho k).toNat a ((xipHit a s).getD flashErased) s
    if r.1.isBad then busErr r.2 else answer r.1.word r.2

def xipRange (addr : BitVec 32) : Bool := addr.toNat / 2 ^ 28 == 2

/-- A fetch or load of the core, or a read by debug (R386): the core takes bits 31:0 or the access fault; it executes
no parcel whose word has bits 35:32 set (R344). -/
def opXip (addr : BitVec 32) (k : XipKind) (s : State) : State :=
  let go := xipAccess (addr.toNat / 4 % 2 ^ 26) k
  match k with
  | .debug => if dbgLevel s = 2 ∧ allAnswer s then go (begin rqDbg s) else begin rqDbg s
  | .fetch => if !coreRuns s then s else if !xipRange addr then coreExc 1 addr s
    else
      let s := go (begin rqCore s)
      if ¬ s.resp.err ∧ fld s.resp.data 35 32 ≠ 0 then coreExc 1 addr s else coreAnswer 1 addr low32 s
  | .load => if !coreRuns s then s else if !xipRange addr then coreExc 5 addr s
    else coreAnswer 5 addr low32 (go (begin rqCore s))

/-! ### Commands -/

def execDescWrWrite (who : Req) (v : Word) (s : State) : Host.Outcome State Fault Refusal :=
  .next (gateW who Reg.flcDescWr (opDescWr v) s)

def execCmplRdWrite (who : Req) (v : Word) (s : State) : Host.Outcome State Fault Refusal :=
  .next (gateW who Reg.flcCmplRd (opCmplRd v) s)

def execDescriptorFetch (s : State) : Host.Outcome State Fault Refusal := .next (opDescFetch s)

def execDescriptorDispatch (k : Nat) (s : State) : Host.Outcome State Fault Refusal := .next (opDescDispatch k s)

def execFlashRead (k : Nat) (s : State) : Host.Outcome State Fault Refusal := .next (descRun k 1 (descPages runRead) s)

/-- The page at which the die reports a failure is not stated. -/
def execFlashProgram (k : Nat) (dieOk : Bool) (s : State) : Host.Outcome State Fault Refusal :=
  .next (descRun k 2 (fun d s =>
    if dieOk then descPages (fun d => runProgram d none) d s
    else descPages (fun d => runProgram d (some (d.page + (Config.freeWord s.free).toNat % max 1 d.count))) d s.draw) s)

def execFlashErase (k : Nat) (dieOk : Bool) (s : State) : Host.Outcome State Fault Refusal := .next (descRun k 3 (runErase dieOk) s)

def execFlashVerify (k : Nat) (s : State) : Host.Outcome State Fault Refusal := .next (descRun k 4 (descPages runVerify) s)

def execFlashBlank (k : Nat) (s : State) : Host.Outcome State Fault Refusal := .next (descRun k 5 (descPages runBlank) s)

def execMarginRead (k : Nat) (s : State) : Host.Outcome State Fault Refusal := .next (descRun k 6 (descPages runMargin) s)

def execSwapBoot (k : Nat) (s : State) : Host.Outcome State Fault Refusal := .next (descRun k 7 runSwapBoot s)

def execDescriptorComplete (k : Nat) (s : State) : Host.Outcome State Fault Refusal := .next (opDescComplete k s)

def execGapMove (s : State) : Host.Outcome State Fault Refusal := .next (opGapMove s)

def execGapMoveComplete (s : State) : Host.Outcome State Fault Refusal := .next (opGapMoveDone s)

def execRecoveryCheck (s : State) : Host.Outcome State Fault Refusal := .next (opRecoveryCheck s)

def execRecoveryErase (s : State) : Host.Outcome State Fault Refusal := .next (opRecoveryErase s)

/-- 256 CK_SYS cycles without a fetch from the bank (R383). -/
def execFetchedExpiry (bank : Fin 16) (s : State) : Host.Outcome State Fault Refusal := .next (s.setB Reg.flcBankStatus bank.val false)

def execFlcRecovRead (who : Req) (peek : Bool) (s : State) : Host.Outcome State Fault Refusal :=
  .next (gateR who Reg.flcRecov (opRecovRead (peeks who peek)) s)

def execXipFetch (addr : BitVec 32) (kind : XipKind) (s : State) : Host.Outcome State Fault Refusal := .next (opXip addr kind s)

end Sys2Proof.Machine
end

