-- ==== Sys2Proof/Machine/Image.lean ====
section
/-! DEFINITION. Stream headers and images: the header's packets and checks (R179 to R182, R186 to R190), tag segments (R187), frames of
an image slot (R229), and what follows from a plane's words: golden mode map (R226), fence values (R136), preload (R117, R164). -/

namespace Sys2Proof.Machine

open Crypto

/-- The sync word (R179). -/
def syncWord : Word := 0x5A3C9E01F

/-! ### Packets -/

def pktType (w : Word) : Nat := fld w 35 32
def pktCode (w : Word) : Nat := fld w 31 24
def pktCount (w : Word) : Nat := fld w 23 0

/-- A type and code of R180 to R182. -/
def pktKnown (t c : Nat) : Bool :=
  match t with
  | 1 => decide (1 ≤ c) && decide (c ≤ 0xC)
  | 2 => c == 0
  | 3 => c == 0
  | 4 => c == 0
  | 5 => [0x20, 0x21, 0x30, 0x31, 0x40, 0x41, 0x42].contains c
  | _ => false

/-- The packet stands in the header (R181, R182). -/
def pktHeaderOnly (t c : Nat) : Bool :=
  (t == 1 && [4, 5, 6, 7, 8, 9, 0xB].contains c) || (t == 5 && (c == 0x30 || c == 0x31))

/-- COUNT that a type and code can have (R180). -/
def pktCountOk (t c n : Nat) : Bool :=
  match t with
  | 1 => n == (if c = 7 ∨ c = 8 then 3 else 1)
  | 2 => n != 0 && n % 128 == 0
  | 5 => if c = 0x20 ∨ c = 0x21 then n == 0 else if c = 0x30 ∨ c = 0x31 then n == 24 else true
  | _ => true

/-- Reserved bits of a stream register's data word (R181). -/
def pktReserved (c : Nat) : Nat :=
  match c with
  | 2 => 0xFFFFFFFF0
  | 3 => 0xF00000000
  | 5 => 0xFF0000000
  | 6 => 0xFFC000000
  | 0xA => 0xF00000000
  | 0xC => 0xFFFFFFFF0
  | _ => 0

/-! ### Headers -/

/-- Words of a header, once the SIGN packet has ended within the words received (R179). -/
def hdrLen (ws : List Word) : Nat → Nat → Option Nat
  | 0, _ => none
  | n + 1, i =>
    match ws[i]? with
    | none => none
    | some w =>
      let e := i + 1 + pktCount w
      if ws.length < e then none
      else if pktType w = 5 ∧ pktCode w = 0x31 then some e
      else hdrLen ws n e

/-- A header's packets: index of the header word, type, code, data words. -/
def hdrPkts (ws : List Word) : Nat → Nat → List (Nat × Nat × Nat × List Word)
  | 0, _ => []
  | n + 1, i =>
    match ws[i]? with
    | none => []
    | some w => (i, pktType w, pktCode w, (ws.drop (i + 1)).take (pktCount w)) :: hdrPkts ws n (i + 1 + pktCount w)

/-- Cause and word of the first packet that a header cannot hold (R180 to R182). -/
def hdrFormat : List (Nat × Nat × Nat × List Word) → Option (Nat × Nat)
  | [] => none
  | (i, t, c, d) :: rest =>
    if t = 0 ∨ 5 < t then some (1, i)
    else if !pktKnown t c then some (2, i)
    else if t ≠ 4 ∧ !pktHeaderOnly t c then some (5, i)
    else if !pktCountOk t c d.length then some (9, i)
    else if t = 1 ∧ ((d.headD 0).toNat &&& pktReserved c) ≠ 0 then some (3, i + 1)
    else hdrFormat rest

/-- The union of the bits written to one of DECKLE0 to DECKLE2 (R191). -/
def hdrDeckle (ps : List (Nat × Nat × Nat × List Word)) (c : Nat) : Word :=
  ps.foldl (fun w p => if p.2.1 = 1 ∧ p.2.2.1 = c then w ||| p.2.2.2.headD 0 else w) 0

/-- Data of a stream register as the header leaves it: each register is cleared at the sync word (R181). -/
def hdrReg (ps : List (Nat × Nat × Nat × List Word)) (t c : Nat) : List Word :=
  match (ps.filter (fun p => p.2.1 == t && p.2.2.1 == c)).getLast? with
  | some p => p.2.2.2
  | none => []

/-- What a verified header says. -/
structure Hdr where
  imageId : BitVec 32
  baseId : BitVec 32
  full : Bool
  enc : Bool
  iv : BitVec 64
  rollV : BitVec 8
  length : Nat
  deckle : Word × Word × Word
  digest : BitVec 384
  hlen : Nat
  deriving DecidableEq, Repr

/-- A Deckle set that holds all 64 regions and every ring segment (R178). -/
def deckleFull (d : Word × Word × Word) : Bool :=
  d.1.toNat == 2 ^ 36 - 1 && d.2.1.toNat % 2 ^ 28 == 2 ^ 28 - 1 && d.2.2.toNat % 2 ^ 26 == 2 ^ 26 - 1

def secBit (i : Nat) : Bool := Config.fuseSecPolicy.getLsbD i

/-- IDCHK (R190): the cause of E207. -/
def idchk (s : State) (full : Bool) (id : List Word) : Option Nat :=
  let base := fld (id.getD 2 0) 31 0
  if fld (id.getD 0 0) 35 20 ≠ 0x1840 then some 0
  else if Config.stepping.toNat < fld (id.getD 0 0) 11 8 then some 1
  else if (base ≠ 0 ∧ full) ∨ (base = 0 ∧ !full) then some 3
  else if !full ∧ base ≠ s.getF Reg.cfgActiveId 31 0 then some 2
  else none

/-- The key source (R188): the cause of E209. -/
def keysel (s : State) (enc : Bool) : Option Nat :=
  if !enc ∧ !secBit 1 then some 1
  else if secBit 0 ∧ !s.sec.keyValid then some 0
  else if !secBit 0 ∧ !secBit 4 then some 2
  else none

/-- The checks of a header in the loader's order, up to the Deckle set (R186 to R190): the code and its detail without SRC. -/
def hdrCheck (s : State) (ws : List Word) : Except (Nat × Nat) Hdr :=
  let ps := hdrPkts ws 256 1
  let key := hdrReg ps 5 0x30
  let sig := hdrReg ps 5 0x31
  let digest := sha384w (ws.take (ws.length - 24))
  let len := fld ((hdrReg ps 1 0xB).headD 0) 23 0
  let id := hdrReg ps 1 7
  let ks := hdrReg ps 1 8
  let deckle := (hdrDeckle ps 4, hdrDeckle ps 5, hdrDeckle ps 6)
  let full := deckleFull deckle
  let v := fld ((hdrReg ps 1 9).headD 0) 7 0
  let enc := (ks.headD 0).getLsbD 0
  match hdrFormat ps with
  | some (cause, w) => .error (0x201, cause <<< 28 ||| w <<< 3)
  | none =>
    if !pubkeyOk key then .error (0x204, 1 <<< 28)
    else if !signOk key sig digest then .error (0x204, 0)
    else if len = 0 ∨ len % 32 ≠ 0 then .error (0x201, 8 <<< 28)
    else match idchk s full id with
    | some c => .error (0x207, c <<< 28)
    | none =>
      if v < s.sec.rollCount.toNat then .error (0x208, s.sec.rollCount.toNat <<< 11 ||| v <<< 3)
      else match keysel s enc with
      | some c => .error (0x209, c <<< 28)
      | none => .ok {
          imageId := BitVec.ofNat 32 (id.getD 1 0).toNat, baseId := BitVec.ofNat 32 (id.getD 2 0).toNat, full := full,
          enc := enc, iv := BitVec.ofNat 64 (fld (ks.getD 1 0) 31 0 <<< 32 ||| fld (ks.getD 2 0) 31 0),
          rollV := BitVec.ofNat 8 v, length := len, deckle := deckle, digest := BitVec.ofNat 384 digest, hlen := ws.length }

/-! ### Tag segments (R187) -/

/-- Words packed as a continuous big-endian bit string, two words in nine bytes. -/
def pack36 (ws : List Word) : List Byte :=
  (chunks 2 ws.length ws).flatMap (fun p => beBytes 9 ((p.getD 0 0).toNat * 2 ^ 36 + (p.getD 1 0).toNat))

def unpack36 (b : List Byte) : List Word :=
  (chunks 9 b.length b).flatMap (fun p => [wd (beNat p / 2 ^ 36), wd (beNat p)])

/-- The image key that the fuse KEYSRC selects (R188). -/
def imageKey (s : State) : List Byte := beBytes 32 (if secBit 0 then s.sec.keyRam.toNat else Config.fuseKey.toNat)

/-- Decrypt and authenticate a tag segment with its four tag words. -/
def segOpen (s : State) (iv : BitVec 64) (digest : BitVec 384) (enc : Bool) (seg : Nat) (words tags : List Word) : Option (List Word) :=
  (gcmOpen (imageKey s) (beBytes 12 (iv.toNat * 2 ^ 32 + seg)) (beBytes 48 digest.toNat) (pack36 words)
    (tags.flatMap (fun w => beBytes 4 (w.toNat % 2 ^ 32))) enc).map unpack36

/-- Words of tag segment `k` of a body of `len` words (R179). -/
def segWords (len k : Nat) : Nat := min 4096 (len - 4096 * k)

/-! ### Images in flash (R229) -/

/-- Body words of a region in a full image, and where column `c` begins among them. -/
def regionWords : Nat := 278557

def colStart (c : Nat) : Nat := (List.range c).foldl (fun a k => a + 1 + 128 * allMinors 0 k) 0

/-- Ring frames before a segment's minor, in ascending order. -/
def ringFrame (seg minor : Nat) : Nat :=
  (if seg = 127 then 76 else (List.range (seg - 64)).foldl (fun a k => a + segMinors (64 + k) 0) 0) + minor

/-- Body offset of frame word 0 in a full image. The ring frames are taken as one frame-write packet behind each FAW packet. -/
def frameOffset (seg col minor : Nat) : Nat :=
  if seg < 64 then 3 + regionWords * seg + colStart col + 128 * minor
  else 2 + regionWords * 64 + (if seg = 127 then 6 else 3) + 128 * ringFrame seg minor

def State.slotRec (s : State) (slot : Nat) : SlotRec := Store.get (fun _ => {}) s.ld.slotRec slot

def setSlotRec (slot : Nat) (r : SlotRec) (s : State) : State :=
  { s with ld := { s.ld with slotRec := Store.set (fun _ => {}) s.ld.slotRec slot r } }

def Hdr.record (h : Hdr) : SlotRec :=
  { hash := h.digest, iv := h.iv, enc := h.enc, hlen := h.hlen, bodyLen := h.length, rollV := h.rollV, valid := true, imageId := h.imageId }

/-- Read and verify the header of a slot. -/
def slotHeader (slot : Nat) (s : State) : Except (Nat × Nat) Hdr × State :=
  let r := slotWords slot 0 256 s
  if r.1.headD 0 ≠ syncWord then (.error (0x213, 0), r.2)
  else match hdrLen r.1 256 1 with
    | none => (.error (0x201, 7 <<< 28 ||| 255 <<< 3), r.2)
    | some h => (hdrCheck r.2 (r.1.take h), r.2)

/-- Fetch, decrypt and check a tag segment of a slot whose header is recorded. -/
def slotSegment (slot k : Nat) (s : State) : Option (List Word) × State :=
  let c := s.slotRec slot
  let n := segWords c.bodyLen k
  let r := slotWords slot (c.hlen + 4100 * k) (n + 4) s
  (if c.valid ∧ 0 < n then segOpen r.2 c.iv c.hash c.enc k (r.1.take n) (r.1.drop n) else none, r.2)

/-- The plaintext of consecutive segments. -/
def slotSegments (slot : Nat) : Nat → Nat → State → Option (List Word) × State
  | _, 0, s => (some [], s)
  | k, n + 1, s =>
    match slotSegment slot k s with
    | (none, s) => (none, s)
    | (some ws, s) =>
      let r := slotSegments slot (k + 1) n s
      (r.1.map (ws ++ ·), r.2)

/-- Body words `b` to `b + n - 1` of a slot's image. -/
def slotBody (slot b n : Nat) (s : State) : Option (List Word) × State :=
  let k := b / 4096
  let r := slotSegments slot k ((b + n - 1) / 4096 + 1 - k) s
  (r.1.map (fun ws => (ws.drop (b - 4096 * k)).take n), r.2)

/-- A frame of a slot's image. -/
def slotFrame (slot seg col minor : Nat) (s : State) : Option (List Word) × State :=
  slotBody slot (frameOffset seg col minor) 128 s

/-! ### What follows from a plane's words -/

/-- The golden mode map of a region's plane, from the MODE bits that it holds (R226): a cell is user-owned when bit 69 is 1. -/
def goldDerive (n : Nat) (plane : Bool) (s : State) : State :=
  let bit := fun (col row cell : Nat) => (s.cfgCell (cfgKey plane n col 17 (4 * row + 1))).data.getLsbD cell
  let m := ((List.range 28).filter isLogicCol).foldl (fun m col => (List.range 32).foldl (fun m row =>
    (List.range 36).foldl (fun m cell =>
      if bit col row cell then Store.set (fun _ => false) m (cellIx col row cell) true else m) m) m) []
  let r := s.rg n
  let r := { r with goldBad := r.goldBad.filter (fun e => e.1 != plane) }
  s.setRg n (if plane then { r with gold1 := m } else { r with gold0 := m })

/-- Stage a region's fence values, in triple, from the edge frames of a plane (R136, R174). -/
def fenceStage (n : Nat) (plane : Bool) (s : State) : State :=
  let ws := (List.range 64).map (fun i => let v := wd (lay layFence i 36 (minorWords s plane n 28 4 4)); (⟨v, v, v⟩ : Triple))
  s.setRg n (if plane then { s.rg n with fence1 := ws } else { s.rg n with fence0 := ws })

/-- RGN.ATTR as the active plane's fields have it (R148, R208). -/
def attrLoad (n : Nat) (s : State) : State :=
  s.setReg (Reg.rgnAttr n) (wd (lay layAttr n 16 (minorWords s (activeOf s n) n 28 10 6) &&& 0xFF3F))

/-- The words of a configuration plane of a region copied to the other plane, check bits included (R184). -/
def segCopy (n : Nat) (dst : Bool) (s : State) : State :=
  let mine := fun (k : Nat) (p : Bool) => keySeg k == n && keyPlane k == p
  let kept := Store.keep (fun k => !mine k dst) s.fab.cfg
  let add := s.fab.cfg.filter (fun e => mine e.1 (!dst))
  let cfg := add.foldl (fun m e => Store.set (fun _ => {}) m (e.1 % 2 ^ 28 ||| dst.toNat <<< 28) e.2) kept
  { s with fab := { s.fab with cfg := cfg } }

/-- Zero words with matching check bits in a plane of a segment (R184). -/
def segClear (n : Nat) (plane : Bool) (s : State) : State :=
  { s with fab := { s.fab with cfg := Store.keep (fun k => !(keySeg k == n && keyPlane k == plane)) s.fab.cfg } }

/-- The enabled stations of a region whose INIT is 1, by `stationKey` (R132). -/
def stationInit (s : State) (n : Nat) : List Nat :=
  ((List.range 28).filter isLogicCol).flatMap (fun col => (List.range 32).flatMap (fun row =>
    ((List.range 24).filter (fun w => stationOn s n col row w && (stationCfg s n col row w).testBit 2)).map (fun w => stationKey n col row w)))

/-- Flip-flops and stations at INIT, cells with correct parity and no PERR, and blocks at their preload state (R117, R164); contents of RAM36 are
given separately. -/
def regionPreload (n : Nat) (s : State) : State :=
  let base := n * 33408
  let mine := fun k => decide (base ≤ k) && decide (k < base + 33408)
  let blk := fun k => decide (n * 928 ≤ k) && decide (k < (n + 1) * 928)
  let init := fun (w : Nat) (m : Store Bool) =>
    ((List.range 28).filter isLogicCol).foldl (fun m col => (List.range 32).foldl (fun m row => (List.range 36).foldl (fun m cell =>
      if cellBit s n col row cell w then Store.set (fun _ => false) m (base + cellIx col row cell) true else m) m) m)
      (Store.keep (fun k => !mine k) m)
  let rams := [6, 20].foldl (fun m col => (List.range 32).foldl (fun m row =>
    Store.set (fun _ => {}) m (blkKey n col row)
      { a := { dout := blockWord s n col row 1 }, b := { dout := blockWord s n col row 2 } }) m)
    (Store.keep (fun k => !blk k) s.fab.ram36)
  { s with fab := { s.fab with
      ffA := init 64 s.fab.ffA, ffB := init 65 s.fab.ffB,
      stations := (stationInit s n).foldl (fun m k => Store.set (fun _ => false) m k true)
        (Store.keep (fun k => !blk (k / 24)) s.fab.stations),
      parErr := Store.keep (fun k => !mine k) s.fab.parErr, perr := Store.keep (fun k => !mine k) s.fab.perr,
      ramPar := Store.keep (fun k => !blk (k / 1024)) s.fab.ramPar, ram36 := rams,
      mac := Store.keep (fun k => !(decide (n * 64 ≤ k) && decide (k < (n + 1) * 64))) s.fab.mac } }

/-- Content words of a frame of a RAM36 column (R150). -/
def contentFrame (n col minor : Nat) (ws : List Word) (s : State) : State :=
  let ram := ws.zipIdx.foldl (fun m w =>
    Store.set (fun _ => 0) m (ramKey n col (w.2 / 4) (4 * (minor - 16) + w.2 % 4)) w.1) s.fab.ram
  { s with fab := { s.fab with ram := ram } }

/-- The content frames of a region from a slot; none when a read fails its checks (R210). -/
def contentLoad (slot n : Nat) (s : State) : Bool × State :=
  [6, 20].foldl (fun r col => (List.range 256).foldl (fun r m =>
    if !r.1 then r
    else match slotFrame slot n col (16 + m) r.2 with
      | (some ws, t) => (true, contentFrame n col (16 + m) ws t)
      | (none, t) => (false, t)) r) (true, s)

end Sys2Proof.Machine
end

