-- ==== Sys2Proof/Machine/Planes.lean ====
section
/-! DEFINITION. Shadow states and identities (R203, R204), the states of a swap (R206), and the vote of a mesh swap's participant (R214). -/

namespace Sys2Proof.Machine

/-! ### Shadow states (R203) -/

def shEmpty : Nat := 0
def shUncommitted : Nat := 1
def shCommitted : Nat := 2
def shPrevious : Nat := 3
def shMirror : Nat := 4
def shMirroring : Nat := 5

/-- Shadow state of a region; 64 stands for the ring. -/
def State.sh (s : State) (n : Nat) : Nat :=
  if n < 64 then s.getF (Reg.cfgShState (n / 8)) (4 * (n % 8) + 3) (4 * (n % 8)) else s.getF Reg.cfgRingState 2 0

/-- RGN.STATUS.MIRROR reads 1 exactly while the shadow state is MIRROR (R204). -/
def State.setSh (s : State) (n v : Nat) : State :=
  if n < 64 then (s.setF (Reg.cfgShState (n / 8)) (4 * (n % 8) + 3) (4 * (n % 8)) v).setB (Reg.rgnStatus n) 7 (v == shMirror)
  else s.setF Reg.cfgRingState 2 0 v

/-- The lane of a segment: its region, or 64 for the ring. -/
def laneOf (seg : Nat) : Nat := if seg < 64 then seg else 64

/-- The register with the shadow identity of a lane. -/
def rshReg (lane : Nat) : Nat := if lane < 64 then Reg.cfgRsh lane else Reg.cfgRingShId

/-- The active ring frames are copied into the ring's shadow (R205). -/
def ringCopy (s : State) : State :=
  let dst := !s.fab.ringRole
  let mine := fun (k : Nat) (p : Bool) => decide (64 ≤ keySeg k) && keyPlane k == p
  let kept := Store.keep (fun k => !mine k dst) s.fab.cfg
  let add := s.fab.cfg.filter (fun e => mine e.1 (!dst))
  let cfg := add.foldl (fun m e => Store.set (fun _ => {}) m (e.1 % 2 ^ 28 ||| dst.toNat <<< 28) e.2) kept
  { s with fab := { s.fab with cfg := cfg } }

/-- The load writes the active plane: in BOOT (R193). -/
def booting (s : State) : Bool := s.mode == .boot

/-! ### Triplicated state (R223, R226) -/

/-- Rewritten copies are counted; the first in a full chip pass raises E40D: bit 0 for Calender state, bit 1 for a golden map. The table gives
no lane number for the ring. -/
def tmrCount (n lane : Nat) (golden : Bool) (s : State) : State :=
  if n = 0 then s
  else
    let s := (forAll (List.range n) (fun _ s => s.count Reg.calCntTmr 35 0) s).setB Reg.calStatus 5 true
    if s.cal.tmrRaised then s
    else
      let at6 := if lane < 64 then lane else (Config.freeWord s.free).toNat % 64
      let s := if lane < 64 then s else s.draw
      raise 0x40D 0 (at6 <<< 2 ||| (if golden then 2 else 1)) { s with cal := { s.cal with tmrRaised := true } }

/-- Rewrite the map copies of a cell in a plane from their vote: whether a copy disagreed. -/
def goldCell (n : Nat) (plane : Bool) (ix : Nat) (s : State) : Bool × State :=
  let g := s.rg n
  let bad := (g.goldBad.filter (fun e => e.1 == plane && e.2.1 == ix)).length
  if bad = 0 then (false, s)
  else
    let v := goldBit g plane ix
    let g := { g with goldBad := g.goldBad.filter (fun e => !(e.1 == plane && e.2.1 == ix)) }
    let g := if plane then { g with gold1 := Store.set (fun _ => false) g.gold1 ix v }
      else { g with gold0 := Store.set (fun _ => false) g.gold0 ix v }
    (bad != 3, s.setRg n g)

/-- A read of the map for some cells of a plane votes them, and rewrites and counts the copies that disagree (R226). -/
def goldVote (n : Nat) (plane : Bool) (cells : List Nat) (s : State) : State :=
  let r := cells.foldl (fun r ix => let t := goldCell n plane ix r.2; (r.1 + t.1.toNat, t.2)) (0, s)
  tmrCount r.1 n true r.2

/-- A read of the map under the mask of a configuration word (R122, R226). -/
def goldRead (key : Nat) (s : State) : State :=
  if keySeg key < 64 ∧ isLogicCol (keyCol key) ∧ keyMinor key < 16 then
    goldVote (keySeg key) (keyPlane key) ((List.range 36).map (cellIx (keyCol key) (keyWord key / 4))) s
  else s

/-- A read of a whole map of a region: the cells at which a copy may disagree. -/
def goldAll (n : Nat) (plane : Bool) (s : State) : State :=
  goldVote n plane ((((s.rg n).goldBad.filter (fun e => e.1 == plane)).map (fun e => e.2.1)).dedup) s

/-! ### Swap states (R206) -/

def swIdle : Nat := 0
def swScheduled : Nat := 1
def swCommitted : Nat := 2
def swSoftstart : Nat := 3
def swRepreload : Nat := 4

/-- CFG.SWAP_STATUS.STATE. -/
def State.swState (s : State) : Nat := s.getF Reg.cfgSwapStatus 2 0

def State.setSw (s : State) (v : Nat) : State := s.setF Reg.cfgSwapStatus 2 0 v

/-- The shadow holds a configuration that a swap exchanges. -/
def shLive (s : State) (lane : Nat) : Bool := s.sh lane == shCommitted || s.sh lane == shPrevious

/-- The shadow is being written. -/
def shBusy (s : State) (lane : Nat) : Bool := s.sh lane == shUncommitted || s.sh lane == shMirroring

/-- The identity of a lane's shadow. -/
def State.rsh (s : State) (lane : Nat) : Word := s.reg (rshReg lane)

/-- RGN.ATTR.REPRELOAD of the region's plane (R148, R210). -/
def planeRepre (s : State) (n : Nat) (plane : Bool) : Bool := (lay layAttr n 16 (minorWords s plane n 28 10 6)).testBit 2

/-- Reason 7 of R206: the first region of a set whose incoming plane re-preloads and whose shadow identity names no slot. -/
def noSlotFor (s : State) (regions : List Nat) : Option Nat :=
  regions.find? (fun n => planeRepre s n (!activeOf s n) && !(s.rsh n).getLsbD 35)

/-- The regions that a chip or mesh swap exchanges (R208). -/
def chipSet (s : State) : List Nat := (List.range 64).filter (shLive s)

/-- The first lane that is UNCOMMITTED or MIRRORING: reason 4 of a chip swap. -/
def chipBusy (s : State) : Option Nat := (List.range 65).find? (shBusy s)

/-! ### Votes (R214) -/

/-- The vote of this node: READY as a chip swap would pass R206 other than reasons 3 and C; NULL when nothing would be exchanged. -/
def voteOf (s : State) : Vote :=
  let ready := s.mode == .run && (chipBusy s).isNone && (noSlotFor s (chipSet s)).isNone
  { ready := ready, nul := ready && (List.range 65).all (fun n => s.sh n == shEmpty || s.sh n == shMirror) }

def coordBit (s : State) : Bool := s.getB Reg.cfgSwapStatus 11

def swapId (s : State) : Nat := s.getF Reg.cfgSwapStatus 23 16

/-- A VOTE to the coordinator of a swap (R338). -/
def voteTo (coord id : Nat) (v : Vote) (s : State) : State :=
  meshSend coord 0x0C vcCtl [wd (v.nul.toNat <<< 9 ||| v.ready.toNat <<< 8 ||| id)] s

/-- Record a node's vote; a later one replaces an earlier one. -/
def voteNote (node : Nat) (v : Vote) (s : State) : State :=
  { s with swap := { s.swap with votes := Store.put s.swap.votes node v } }

/-- Send this node's vote: VOTE and NULL_VOTE show it; the coordinator keeps its own. -/
def voteSend (s : State) : State :=
  let v := voteOf s
  let s := (s.setB Reg.cfgSwapStatus 9 v.ready).setB Reg.cfgSwapStatus 10 v.nul
  if coordBit s then voteNote s.addr v s else voteTo s.swap.coord.toNat (swapId s) v s

/-- While a mesh swap is scheduled, a vote that no longer holds is replaced. -/
def voteUpdate (s : State) : State :=
  if s.swState ≠ swScheduled then s
  else
    let v := voteOf s
    if v.ready = s.getB Reg.cfgSwapStatus 9 ∧ v.nul = s.getB Reg.cfgSwapStatus 10 then s else voteSend s

end Sys2Proof.Machine
end

