-- ==== Sys2Proof/Machine/Stream.lean ====
section
/-! DEFINITION. The stream loader: sources and ownership (R197 to R199), header and tag segments (R186 to R191), the packets of the
body (R176 to R185, R192 to R194), COMMIT (R195), and the registers of CFG and SEC that go with it (R201, R202). -/

namespace Sys2Proof.Machine

open Crypto

/-! ### Shadow writes (R193, R203, R205) -/

/-- A stream write or FCMD reaches a shadow (R193, R203, R205). -/
def shadowTouch (lane : Nat) (s : State) : State :=
  let s := if s.ld.touched.contains lane then s else { s with ld := { s.ld with touched := s.ld.touched ++ [lane] } }
  if s.sh lane = shUncommitted then s
  else
    let s := if lane < 64 then s.setRg lane { s.rg lane with mirroring := false } else ringCopy s
    s.setSh lane shUncommitted

/-! ### The loader -/

/-- A class 2 refusal: in BOOT every one but E20C and E212 is fail-safe trigger 6 (R196). -/
def cls2 (code : Code) (detail : Nat) (s : State) : State :=
  if booting s ∧ code ≠ 0x20C ∧ code ≠ 0x212 then failsafe code 11 detail (lastErrField code s) else raise code 0 detail s

/-- A refusal ends the stream (R192, R197): the code, and in BOOT fail-safe trigger 6 (R196). -/
def ldRefuseAs (code : Code) (detail : Nat) (s : State) : State :=
  let mesh := s.ld.src = 3
  let t := cls2 code detail { s with ld := ldIdle s.ld }
  if mesh then pushResult code t else t

def ldRefuse (code : Code) (detail : Nat) (s : State) : State := ldRefuseAs code (detail ||| s.ld.src.toNat) s

/-- The WORD field of an event detail (R200). -/
def wordDet (ix : Nat) : Nat := (ix % 2 ^ 25) <<< 3

def e201 (cause ix : Nat) (s : State) : State := ldRefuse 0x201 (cause <<< 28 ||| wordDet ix) s

/-- A stream's registers at its sync word (R181, R199, R201). -/
def ldStart (src : BitVec 3) (who : Req) (slot : Option (Fin 4)) (s : State) : State :=
  let l : Loader := { st := .header, src := src, owner := who, slot := slot, inbuf := [syncWord], rdata := s.ld.rdata,
                      slotRec := s.ld.slotRec }
  let s := { s with ld := l, mesh := if src = 3 then { s.mesh with pushTaken := 1, pushAckAt := 0 } else s.mesh }
  forAll [Reg.cfgDeckle 0, Reg.cfgDeckle 1, Reg.cfgDeckle 2, Reg.cfgWords] (fun a s => s.setReg a 0)
    (s.setB Reg.cfgShadowId 35 false)

/-- The segment is in the Deckle set (R191). -/
def inDeckle (s : State) (seg : Nat) : Bool :=
  if seg < 36 then s.getB (Reg.cfgDeckle 0) seg
  else if seg < 64 then s.getB (Reg.cfgDeckle 1) (seg - 36)
  else if seg ≤ 88 then s.getB (Reg.cfgDeckle 2) (seg - 64)
  else seg == 127 && s.getB (Reg.cfgDeckle 2) 25

/-- The lowest region of a Deckle set that holds a committed swap not yet performed (R191). -/
def deckleSwap (s : State) (d : Word × Word × Word) : Option Nat :=
  if s.getF Reg.cfgSwapStatus 2 0 ≠ 2 then none
  else (List.range 64).find? (fun n => s.swap.regions.getLsbD n && (if n < 36 then d.1.getLsbD n else d.2.1.getLsbD (n - 36)))

/-- A verified header is taken (R191): the Deckle set is fixed, the body begins; that of the boot slot is recorded (R229). -/
def hdrTake (h : Hdr) (rest : List Word) (s : State) : State :=
  if h.deckle.1 = 0 ∧ h.deckle.2.1 = 0 ∧ h.deckle.2.2 = 0 then ldRefuse 0x206 0 s
  else match deckleSwap s h.deckle with
  | some n => ldRefuse 0x206 (n <<< 29 ||| 1 <<< 28) s
  | none =>
    let l := { s.ld with
      st := .body, inbuf := rest, hlen := h.hlen, digest := h.digest, length := h.length, imageId := h.imageId, baseId := h.baseId,
      full := h.full, enc := h.enc, iv := h.iv, rollV := h.rollV }
    let s := match s.ld.slot with
      | some k => if booting s then setSlotRec k.val h.record s else s
      | none => s
    let l := { l with slotRec := s.ld.slotRec }
    ((({ s with ld := l }).setReg (Reg.cfgDeckle 0) h.deckle.1).setReg (Reg.cfgDeckle 1) h.deckle.2.1).setReg (Reg.cfgDeckle 2) h.deckle.2.2

/-- Check a header that has been received whole (R186 to R191). -/
def hdrAct (n : Nat) (s : State) : State :=
  match hdrCheck s (s.ld.inbuf.take n) with
  | .error e => ldRefuse (BitVec.ofNat 12 e.1) e.2 s
  | .ok h => hdrTake h (s.ld.inbuf.drop n) s

/-! ### Frames (R177, R184, R192 to R194) -/

def fawSeg (w : Word) : Nat := fld w 33 27
def fawCol (w : Word) : Nat := fld w 26 22
def fawMinor (w : Word) : Nat := fld w 21 13

def fawOf (plane seg col minor : Nat) : Word := wd (plane <<< 34 ||| seg <<< 27 ||| col <<< 22 ||| minor <<< 13)

/-- The FAW after a frame, and whether it has run past the last frame it may reach (R177). -/
def fawNext (w : Word) : Word × Bool :=
  let seg := fawSeg w
  let col := fawCol w
  let plane := fld w 35 34
  if fawMinor w + 1 < allMinors seg col then (fawOf plane seg col (fawMinor w + 1), false)
  else if 0 < allMinors seg (col + 1) then (fawOf plane seg (col + 1) 0, false)
  else if seg < 63 ∨ (64 ≤ seg ∧ seg < 88) then (fawOf plane (seg + 1) 0 0, false)
  else (w, true)

/-- Move the loader's FAW past a frame. -/
def ldAdvance (s : State) : State :=
  let r := fawNext s.ld.faw
  { s with ld := { s.ld with faw := r.1, past := r.2 } }

/-- A content frame (R174). -/
def isContent (seg col minor : Nat) : Bool := decide (seg < 64) && isRamCol col && decide (16 ≤ minor)

/-- Checks before a frame: its address, the Deckle set, its plane (R177, R192, R193). -/
def frameCheck (ix : Nat) (s : State) : Option (State) :=
  let w := s.ld.faw
  if s.ld.past then some (e201 4 ix s)
  else if !inDeckle s (fawSeg w) then some (ldRefuse 0x205 (fawSeg w <<< 28 ||| wordDet ix) s)
  else if !booting s ∧ fld w 35 34 = 0 then some (ldRefuse 0x20B (wordDet ix) s)
  else none

/-- Store word `j` of the frame at the FAW, where FMASK reaches its row (R184); in RUN no content frame is written (R194). -/
def frameWord (j : Nat) (v : Word) (s : State) : State :=
  let w := s.ld.faw
  let seg := fawSeg w
  let col := fawCol w
  let minor := fawMinor w
  if !s.ld.fmask.getLsbD (j / 4) then s
  else if isContent seg col minor then
    (if booting s then
      { s with fab := { s.fab with ram := Store.set (fun _ => 0) s.fab.ram (ramKey seg col (j / 4) (4 * (minor - 16) + j % 4)) v } }
     else s)
  else s.setCfg (cfgKey (physOf s seg (!booting s)) seg col minor j) { data := v }

/-- Minor 0 of segment 88 is loaded at boot: the engine's settings are fixed (R240). -/
def frameLoaded (w : Word) (s : State) : State := if booting s ∧ fawSeg w = 88 ∧ fawMinor w = 0 then engSettings s else s

/-- One data word of a frame write. -/
def frameData (p : Pkt) (v : Word) (s : State) : State :=
  let j := (128 - p.left % 128) % 128
  match (if j = 0 then frameCheck s.ld.wordIx s else none) with
  | some t => t
  | none =>
    let w := s.ld.faw
    let s := if j = 0 ∧ !booting s ∧ !isContent (fawSeg w) (fawCol w) (fawMinor w) then shadowTouch (laneOf (fawSeg w)) s else s
    let s := frameWord j v s
    if j = 127 then ldAdvance (frameLoaded w s) else s

/-- FCMD (R184): checked, then it runs until FCMD_COMPLETE. -/
def fcmdAct (v : Word) (at' : Nat) (s : State) : State :=
  let w := s.ld.faw
  if fld v 3 0 ≠ 1 ∧ fld v 3 0 ≠ 2 then e201 2 (at' + 1) s
  else if 64 ≤ fawSeg w then e201 0xA at' s
  else if s.mode ≠ .run then e201 5 at' s
  else if !inDeckle s (fawSeg w) then ldRefuse 0x205 (fawSeg w <<< 28 ||| wordDet at') s
  else if fld w 35 34 = 0 then ldRefuse 0x20B (wordDet at') s
  else
    let s := shadowTouch (fawSeg w) s
    { s with ld := { s.ld with st := .fcmd, fcmd := some (if fld v 3 0 = 1 then Fcmd.copy else Fcmd.clear) } }

/-! ### COMMIT (R195) -/

/-- Rows of a line's static drivers on a bus, lowest first (R137, R138). -/
def staticRows (ws : List Word) (bus : Bool) (line : Nat) : List Nat :=
  (List.range 32).filter (fun r => busMode ws bus r == 1 && (busMask ws bus r).getLsbD line)

/-- The first line of a region with two static drivers: bus, line and the two rows. -/
def busClash (ws : List Word) : Option (Bool × Nat × Nat × Nat) :=
  (([false, true].flatMap (fun b => (List.range 36).map (fun l => (b, l)))).findSome? (fun p =>
    match staticRows ws p.1 p.2 with
    | r1 :: r2 :: _ => some (p.1, p.2, r1, r2)
    | _ => none))

/-- A clash over the regions of the set, as the detail of E20A. R138 and R200 name one clash and two rows, and not which where there are
more: the model takes the lowest region, then BUS0 before BUS1, then the lowest line, and its two lowest rows, the lower one in 17:13
(DESIGN CHOICE: log entry 99). -/
def commitClash (s : State) : Option Nat :=
  ((List.range 64).filter (inDeckle s)).findSome? (fun n =>
    (busClash (minorWords s (physOf s n (!booting s)) n 28 8 2)).map (fun c =>
      c.2.2.2 <<< 18 ||| c.2.2.1 <<< 13 ||| c.2.1 <<< 7 ||| c.1.toNat <<< 6 ||| n))

/-- Identity word of an image: SLOT_VALID, SLOT, IMAGE_ID (R203). -/
def identWord (valid : Bool) (slot : Nat) (id : BitVec 32) : Word := wd (valid.toNat <<< 35 ||| slot <<< 33 ||| id.toNat)

/-- What an accepted COMMIT does (R195); at boot it completes step 4b, which PWR.BOOT_STATUS.STEP shows as 4 (R85). -/
def commitAccept (v : Word) (s : State) : State :=
  let l := s.ld
  let valid := v.getLsbD 1
  let slot := fld v 3 2
  let s := { s with ld := { l with committed := true, commitOk := true } }
  let s := s.setReg Reg.cfgShadowId (wd (1 <<< 35 ||| valid.toNat <<< 34 ||| slot <<< 32 ||| l.imageId.toNat))
  let s := if booting s then
      (fun s => if s.boot.released then s else s.setF Reg.pwrBootStatus 3 0 4) <|
      forAll (List.range 64) (fun n s => if inDeckle s n then fenceStage n (activeOf s n) (goldDerive n (activeOf s n) s) else s) s
    else
      forAll l.touched (fun n s =>
        let s := (s.setSh n shCommitted).setReg (rshReg n) (identWord valid slot l.imageId)
        if n < 64 then fenceStage n (!activeOf s n) (goldDerive n (!activeOf s n) s) else s) s
  raise 0x20E 0 (l.imageId.toNat <<< 4 ||| l.src.toNat) s

/-- The stream's own header as a slot record, where the stream comes from the slot that COMMIT names. -/
def ldRecord (l : Loader) : SlotRec :=
  { hash := l.digest, iv := l.iv, enc := l.enc, hlen := l.hlen, bodyLen := l.length, rollV := l.rollV, valid := true, imageId := l.imageId }

/-- COMMIT (R195): the refusals in order, then the slot header where SLOT_VALID is 1. -/
def commitAct (v : Word) (s : State) : State :=
  let no := fun (c : Nat) (s : State) => ldRefuse 0x20D (c <<< 28) s
  if !v.getLsbD 0 then no 2 s
  else if !s.ld.crcSeen then no 4 s
  else match commitClash s with
  | some d => ldRefuseAs 0x20A d s
  | none =>
    let slot := fld v 3 2
    if !v.getLsbD 1 then commitAccept v s
    else if s.ld.slot.map Fin.val = some slot then
      (if s.ld.full then commitAccept v (setSlotRec slot (ldRecord s.ld) s) else no 3 s)
    else
      let r := slotHeader slot s
      match r.1 with
      | .ok h => if h.full ∧ h.imageId = s.ld.imageId then commitAccept v (setSlotRec slot h.record r.2) else no 3 r.2
      | .error _ => no 3 r.2

/-! ### Packets of the body -/

/-- Preload (R183, R194, R265): checked in RUN, applied in BOOT. -/
def preAct (kind : Nat) (ws : List Word) (at' : Nat) (s : State) : State :=
  let s := if booting s then engSettings s else s
  match preRecs kind s.eng.ctx8 ws.length ws with
  | .error true => e201 9 at' s
  | .error false => ldRefuse 0x211 (wordDet at') s
  | .ok rs => if booting s then forAll rs (preApply kind) s else s

/-- A packet whose words have all arrived; `at'` is the index of its header word. -/
def pktAct (p : Pkt) (at' : Nat) (s : State) : State :=
  let v := p.buf.headD 0
  if p.type = 1 ∧ (v.toNat &&& pktReserved p.code.toNat) ≠ 0 then e201 3 (at' + 1) s
  else match p.type.toNat, p.code.toNat with
  | 1, 1 => if fld v 35 34 < 2 ∧ fld v 12 0 = 0 then
      (if fawOk v then { s with ld := { s.ld with faw := v, past := false } } else e201 4 (at' + 1) s)
    else e201 3 (at' + 1) s
  | 1, 2 => fcmdAct v at' s
  | 1, 3 => { s with ld := { s.ld with fmask := BitVec.ofNat 32 v.toNat } }
  | 1, 0xA =>
    let crc := ~~~s.ld.crc
    let s := { s with ld := { s.ld with crc := BitVec.allOnes 32 } }
    if crc.toNat = v.toNat then { s with ld := { s.ld with crcSeen := true } } else ldRefuse 0x202 (wordDet at') s
  | 1, 0xC => commitAct v s
  | 5, 0x20 => { s with ld := { s.ld with ended := true } }
  | 5, 0x21 => streamDiscard 1 s
  | 5, 0x40 => preAct 0 p.buf at' s
  | 5, 0x41 => preAct 1 p.buf at' s
  | 5, 0x42 => preAct 2 p.buf at' s
  | _, _ => s

/-- A packet header (R180 to R182, R195, R199). -/
def pktHead (w : Word) (s : State) : State :=
  let t := pktType w
  let c := pktCode w
  let n := pktCount w
  let ix := s.ld.wordIx
  if t = 0 ∨ 5 < t then e201 1 ix s
  else if !pktKnown t c then e201 2 ix s
  else if pktHeaderOnly t c ∨ (s.ld.committed ∧ t ≠ 4 ∧ !(t == 5 && c == 0x20)) then e201 5 ix s
  else if !pktCountOk t c n then e201 9 ix s
  else if t ≠ 3 ∧ s.ld.length < ix + 1 + n then e201 6 ix s
  else if t = 3 then
    (if secBit 2 ∨ dbgLevel s = 2 then { s with ld := { s.ld with rbLeft := n, rbDone := 0 } } else ldRefuse 0x20F 0 s)
  else
    let p : Pkt := { type := BitVec.ofNat 4 t, code := BitVec.ofNat 8 c, left := n }
    if n = 0 then pktAct p ix s else { s with ld := { s.ld with pkt := some p } }

/-- A data word of the packet under way. -/
def pktData (p : Pkt) (w : Word) (s : State) : State :=
  let q : Pkt := { p with left := p.left - 1, buf := if p.type = 2 ∨ p.type = 4 then [] else p.buf ++ [w] }
  let s := { s with ld := { s.ld with pkt := if q.left = 0 then none else some q } }
  if p.type = 2 then frameData p w s
  else if q.left = 0 then pktAct q (s.ld.wordIx - q.buf.length) s
  else s

/-- One body word of a tag segment that has checked (R185). After DESYNC the words only count. -/
def ldWord (w : Word) (s : State) : State :=
  if s.ld.ended then { s with ld := { s.ld with wordIx := s.ld.wordIx + 1 } }
  else
    let data := match s.ld.pkt with | some p => p.type == 1 && p.code == 0xA | none => false
    let s := if data then s else { s with ld := { s.ld with crc := crc32cRun s.ld.crc (beBytes 5 w.toNat) } }
    let s := match s.ld.pkt with
      | some p => pktData p w s
      | none => pktHead w s
    { s with ld := { s.ld with wordIx := s.ld.wordIx + 1 } }

/-- The next word begins a frame of a region whose power-up pulse has not ended (R69 step 4b, R102). -/
def pulseWait (s : State) : Bool :=
  booting s && decide (fawSeg s.ld.faw < 64) && decide (s.boot.pulsed ≤ fawSeg s.ld.faw) &&
  match s.ld.pkt with
  | some p => p.type == 2 && p.left % 128 == 0
  | none => false

/-- The loader cannot take a packet's words: an FCMD runs, a readback returns words, or a region waits for its pulse (R102, R184, R199). -/
def ldHeld (s : State) : Bool := s.ld.fcmd.isSome || s.ld.rbLeft != 0 || pulseWait s

/-- Act on words in order; words that meet a held loader wait. -/
def ldWords : List Word → State → State
  | [], s => s
  | w :: ws, s =>
    if s.ld.st = .idle then s
    else if ldHeld s then { s with ld := { s.ld with waiting := w :: ws } }
    else ldWords ws (ldWord w s)

/-- The end of the body: the stream needs an accepted COMMIT (R195, R200). In BOOT the image is loaded. -/
def ldComplete (s : State) : State :=
  if !s.ld.commitOk then ldRefuse 0x20D (1 <<< 28) s
  else
    let mesh := s.ld.src = 3
    let s := if booting s ∧ ¬ s.boot.released then
        State.setF { s with boot := { s.boot with imageLoaded := true } } Reg.pwrBootStatus 3 0 5
      else s
    let s := { s with ld := ldIdle s.ld }
    if mesh then pushResult 0x20E s else s

/-- Take the next tag segment from the words received: E203, or its packets are acted on (R187). -/
def segAct (s : State) : State :=
  let n := segWords s.ld.length s.ld.segNo
  let k := s.ld.segNo
  match segOpen s s.ld.iv s.ld.digest s.ld.enc k (s.ld.inbuf.take n) ((s.ld.inbuf.drop n).take 4) with
  | none => ldRefuse 0x203 (wordDet (4096 * k)) s
  | some ws => ldWords ws { s with ld := { s.ld with inbuf := s.ld.inbuf.drop (n + 4), segNo := k + 1 } }

/-- Go on as far as the words received allow. -/
def ldPump : Nat → State → State
  | 0, s => s
  | fuel + 1, s =>
    match s.ld.st with
    | .idle => s
    | .header =>
      (match hdrLen s.ld.inbuf 256 1 with
       | some n => if n ≤ 256 then ldPump fuel (hdrAct n s) else e201 7 255 s
       | none => if 256 ≤ s.ld.inbuf.length then e201 7 255 s else s)
    | _ =>
      if ldHeld s then s
      else if !s.ld.waiting.isEmpty then ldPump fuel (ldWords s.ld.waiting { s with ld := { s.ld with waiting := [] } })
      else
        let n := segWords s.ld.length s.ld.segNo
        if n = 0 then ldComplete s
        else if s.ld.inbuf.length < n + 4 then s
        else ldPump fuel (segAct s)

/-- CFG.WORDS: body words received (R201). -/
def ldCount (s : State) : State :=
  if s.ld.st = .idle ∨ s.ld.st = .header then s
  else
    let wire := 4100 * s.ld.segNo + s.ld.inbuf.length
    s.setReg Reg.cfgWords (wd (min s.ld.length (4096 * (wire / 4100) + min 4096 (wire % 4100))))

/-- IMG_ACK after every 1,024 words that the loader consumes of a push; a stalled loader consumes none (R330). -/
def pushAck (s : State) : State :=
  let used := s.mesh.pushTaken - (if ldHeld s then s.ld.inbuf.length + s.ld.waiting.length else 0)
  if s.ld.st ≠ .idle ∧ s.ld.src = 3 ∧ s.mesh.pushAckAt / 1024 < used / 1024 then
    meshSend s.mesh.pushFrom.toNat 6 vcRsp [wd used] { s with mesh := { s.mesh with pushAckAt := used } }
  else s

/-- Words reach a loader that their source owns. Its segment count is noted before it acts, since a refusal ends the stream. -/
def ldPush (ws : List Word) (s : State) : State :=
  let s := { s with ld := { s.ld with inbuf := s.ld.inbuf ++ ws } }
  let s := if s.ld.src = 3 then { s with mesh := { s.mesh with pushTaken := s.mesh.pushTaken + ws.length } } else s
  pushAck (voteUpdate (ldCount (ldPump (s.ld.inbuf.length + 8) (ldCount s))))

/-- Go on after an FCMD or a readback has ended. -/
def ldResume (s : State) : State := pushAck <| voteUpdate (ldCount (ldPump (s.ld.inbuf.length + s.ld.waiting.length + 8) s))

/-! ### Sources (R197 to R199) -/

/-- The source is enabled (R198). -/
def srcEnabled (s : State) (src : BitVec 3) : Bool :=
  match src.toNat with
  | 1 => true
  | 2 => s.getB Reg.cfgSrcEn 0
  | 3 => s.getB Reg.cfgSrcEn 1
  | 4 => s.getB Reg.cfgSrcEn 2
  | _ => false

/-- A refused word: E20C (R197, R200). -/
def srcRefuse (src : BitVec 3) (s : State) : State :=
  raise 0x20C 0 ((!srcEnabled s src).toNat <<< 6 ||| (if s.ld.st = .idle then 0 else s.ld.src.toNat) <<< 3 ||| src.toNat) s

/-- The loader is owned by someone else than this source and requester (R199). -/
def ownedElse (s : State) (src : BitVec 3) (who : Req) : Bool :=
  s.ld.st != .idle && (s.ld.src != src || (src == 4 && s.ld.owner != who))

/-- The CAP is held idle unless the image assigns it a host, which is live: it presents no word (R17, R199). -/
def capHeld (s : State) (src : BitVec 3) : Bool :=
  src == 2 && match hostOf s 3 0 with | some n => !fabricLive s n | none => true

/-- Words of a source: to the loader it owns, or, from a sync word on, to an idle one; others are ignored or refused (R197, R199). -/
def ldOffer (src : BitVec 3) (who : Req) (ws : List Word) (s : State) : State :=
  if capHeld s src then s
  else if s.ld.st = .idle then
    match ws.dropWhile (· ≠ syncWord) with
    | [] => s
    | _ :: rest => if srcEnabled s src then ldPush rest (ldStart src who none s) else srcRefuse src s
  else if ownedElse s src who ∨ !srcEnabled s src then srcRefuse src s
  else ldPush ws s

/-- Words that a flash stream takes from its slot next: the header, or the next tag segment. -/
def slotNext (s : State) : List Word × State :=
  match s.ld.slot with
  | none => ([], s)
  | some k =>
    if s.ld.st = .header then
      let r := slotWords k.val 1 255 s
      ((match hdrLen (syncWord :: r.1) 256 1 with | some n => r.1.take (n - 1) | none => r.1), r.2)
    else
      let n := segWords s.ld.length s.ld.segNo
      if n = 0 then ([], s) else slotWords k.val (s.ld.hlen + 4100 * s.ld.segNo) (n + 4) s

/-- The words of STREAM_HEADER and TAG_SEGMENT: those of the command, or for a flash stream those that stand in its slot. -/
def ldDeliver (ws : List Word) (s : State) : State :=
  if s.ld.st = .idle then s
  else if s.ld.src = 1 then let r := slotNext s; ldPush r.1 r.2
  else ldPush (if s.ld.st = .header ∧ ws.head? = some syncWord then ws.drop 1 else ws) s

/-- The slot that the verified boot block names. -/
def bootSlot (s : State) : Fin 4 := Fin.ofNat 4 (s.getF Reg.pwrBootStatus 5 4)

/-- LOAD_SLOT (R201). -/
def loadSlot (slot : Fin 4) (s : State) : State :=
  if s.ld.st ≠ .idle then srcRefuse 1 s
  else
    let r := slotWords slot.val 0 1 s
    let w := r.1.headD 0
    if w = syncWord then ldStart 1 0 (some slot) r.2
    else cls2 0x213 ((decide (w ≠ BitVec.allOnes 36)).toNat <<< 30 ||| slot.val <<< 28 ||| 1) r.2

/-- A sync word of a source; in BOOT the flash presents the slot that the boot block names (R69 step 4a). -/
def streamSync (src : BitVec 3) (who : Req) (s : State) : State :=
  if src = 1 then (if booting s ∧ s.ld.st = .idle ∧ !s.boot.imageLoaded then ldStart 1 0 (some (bootSlot s)) s else s)
  else ldOffer src who [syncWord] s

/-- A write of CFG.CMD (R201). -/
def opCfgCmd (v : Word) (s : State) : State :=
  match fld v 3 0 with
  | 1 => loadSlot (Fin.ofNat 4 (fld v 5 4)) s
  | 2 => streamDiscard 2 s
  | _ => s

/-- A read of CFG.RDATA pops the readback FIFO (R201). -/
def opRdata (peek : Bool) (s : State) : State :=
  match s.ld.rdata with
  | [] => answer 0 s
  | w :: ws => answer w (if peek then s else { s with ld := { s.ld with rdata := ws } })

/-- An FCMD operation has run to its end (R184). -/
def fcmdDone (s : State) : State :=
  match s.ld.fcmd with
  | none => s
  | some f =>
    let n := fawSeg s.ld.faw
    let s := match f with
      | .copy => segCopy n (!activeOf s n) s
      | .clear => segClear n (!activeOf s n) s
    ldResume { s with ld := { s.ld with st := .body, fcmd := none } }

/-! ### SEC (R202) -/

/-- Writes of SEC.ROLL_ADV, KR_CTRL and KR_DATA that are accepted (R202). -/
def secWho (s : State) (who : Req) : Bool := (s.mode == .run && who == rqCore) || (s.mode == .service && who == rqSvc)

def secKey (v : Word) : Bool := fld v 35 24 == 0x6D1

def opRollAdv (who : Req) (v : Word) (s : State) : State :=
  if !secWho s who then s
  else if !secKey v ∨ fld v 7 0 ≤ s.sec.rollCount.toNat ∨ s.getF Reg.secRoll 15 8 < fld v 7 0 ∨ s.sec.rollTarget.isSome then
    s.setB Reg.secRoll 17 true
  else { s with sec := { s.sec with rollTarget := some (BitVec.ofNat 8 (fld v 7 0)) } }

/-- SEC.KR_CTRL: VBATT_LOST is W1C; LOAD and ZEROIZE need the key; ZEROIZE with LOAD leaves no words to load. -/
def opKrCtrl (who : Req) (v : Word) (s : State) : State :=
  if !secWho s who then s
  else
    let s := if v.getLsbD 2 then s.setB Reg.secKrCtrl 2 false else s
    let s := if v.getLsbD 5 ∧ secKey v then { s with sec := { s.sec with keyRam := 0, keyValid := false, krWords := [] } } else s
    if v.getLsbD 4 ∧ secKey v ∧ s.sec.krWords.length = 8 then
      { s with sec := { s.sec with keyRam := BitVec.ofNat 256 (s.sec.krWords.foldl (fun a w => a * 2 ^ 32 + w.toNat) 0),
                                   keyValid := true, krWords := [] } }
    else s

/-- A key word beyond the eighth still counts: LOAD is refused unless exactly eight have been written. -/
def opKrData (who : Req) (v : Word) (s : State) : State :=
  if secWho s who then { s with sec := { s.sec with krWords := (s.sec.krWords ++ [BitVec.ofNat 32 v.toNat]).take 9 } } else s

/-! ### Commands -/

def execStreamSync (src : BitVec 3) (who : Req) (s : State) : Host.Outcome State Fault Refusal := .next (streamSync src who s)

/-- A word of a source that is not enabled, or that does not own the loader (R197, R199). -/
def execStreamWordRefused (src : BitVec 3) (who : Req) (s : State) : Host.Outcome State Fault Refusal :=
  .next (if !capHeld s src ∧ (ownedElse s src who ∨ !srcEnabled s src) then srcRefuse src s else s)

def execStreamHeader (words : List Word) (s : State) : Host.Outcome State Fault Refusal :=
  .next (if s.ld.st = .header then ldDeliver words s else s)

def execTagSegment (words : List Word) (s : State) : Host.Outcome State Fault Refusal :=
  .next (if s.ld.st = .header then s else ldDeliver words s)

def execFcmdComplete (s : State) : Host.Outcome State Fault Refusal := .next (fcmdDone s)

/-- The index of the word that is awaited: in the header, counted there; in the body, CFG.WORDS (R200). -/
def ldAwaited (s : State) : Nat := if s.ld.st = .header then s.ld.inbuf.length else (s.reg Reg.cfgWords).toNat

/-- No word has arrived for 100 ms (R197). -/
def execStreamStallTimeout (s : State) : Host.Outcome State Fault Refusal :=
  .next (if s.ld.st = .idle then s else ldRefuse 0x210 (wordDet (ldAwaited s)) s)

def execLoadSlot (who : Req) (v : Word) (s : State) : Host.Outcome State Fault Refusal := .next (gateW who Reg.cfgCmd (opCfgCmd v) s)

def execCfgAbort (who : Req) (v : Word) (s : State) : Host.Outcome State Fault Refusal := .next (gateW who Reg.cfgCmd (opCfgCmd v) s)

def execSdataWrite (who : Req) (v : Word) (s : State) : Host.Outcome State Fault Refusal :=
  .next (gateW who (Reg.cfgSdata 0) (ldOffer 4 who [v]) s)

def execRdataRead (who : Req) (peek : Bool) (s : State) : Host.Outcome State Fault Refusal :=
  .next (gateR who Reg.cfgRdata (opRdata (peeks who peek)) s)

def execRollAdv (who : Req) (v : Word) (s : State) : Host.Outcome State Fault Refusal :=
  .next (gateW who Reg.secRollAdv (opRollAdv who v) s)

/-- The fuses are blown (R202). -/
def execRollAdvComplete (s : State) : Host.Outcome State Fault Refusal :=
  .next (match s.sec.rollTarget with
    | some t => { s with sec := { s.sec with rollCount := t, rollTarget := none } }
    | none => s)

def execKeyLoad (who : Req) (v : Word) (s : State) : Host.Outcome State Fault Refusal :=
  .next (gateW who Reg.secKrCtrl (opKrCtrl who v) s)

def execZeroize (who : Req) (v : Word) (s : State) : Host.Outcome State Fault Refusal :=
  .next (gateW who Reg.secKrCtrl (opKrCtrl who v) s)

def execKrDataWrite (who : Req) (v : Word) (s : State) : Host.Outcome State Fault Refusal :=
  .next (gateW who Reg.secKrData (opKrData who v) s)

end Sys2Proof.Machine
end

