-- ==== Sys2Proof/Machine/SwapOps.lean ====
section
/-! DEFINITION. Plane swap: requests (R206), the swap edge (R207 to R209), re-preload and soft-start (R210, R211), MIRROR (R204), mesh swap
(R213 to R216, R338, R339). -/

namespace Sys2Proof.Machine

/-! ### Requests (R206) -/

/-- Bit n: region n of CFG.SWAP_SET0 and SWAP_SET1. -/
def swapSet (s : State) : BitVec 64 :=
  BitVec.ofNat 64 ((s.reg Reg.cfgSwapSet0).toNat ||| fld (s.reg Reg.cfgSwapSet1) 27 0 <<< 36)

def setRegions (m : BitVec 64) : List Nat := (List.range 64).filter (fun n => m.getLsbD n)

def maskOf (l : List Nat) : BitVec 64 := l.foldl (fun m n => m ||| (1 <<< n)) 0

def identImg (w : Word) : Nat := fld w 31 0

/-- Reason 5: the first named region whose swap group is not named whole. -/
def groupSplit (s : State) (named : List Nat) : Option Nat :=
  named.find? (fun n => (chipSet s).any (fun m => identImg (s.rsh m) == identImg (s.rsh n) && !named.contains m))

/-- Reason 6: the first named region whose swap group includes the ring. -/
def groupRing (s : State) (named : List Nat) : Option Nat :=
  named.find? (fun n => shLive s 64 && identImg (s.rsh 64) == identImg (s.rsh n))

/-- Reason 8: the first named region that is resetting, or that a stream's Deckle set holds. -/
def namedBusy (s : State) (named : List Nat) : Option Nat :=
  named.find? (fun n => s.getB (Reg.rgnStatus n) 4 || (s.ld.st != .idle && inDeckle s n))

/-- The first of a list of reasons that applies, with the region concerned. -/
def firstReason (l : List (Nat × Option Nat)) : Option (Nat × Nat) := l.findSome? (fun r => r.2.map (fun n => (r.1, n)))

def swapT (s : State) : BitVec 64 := BitVec.ofNat 64 ((s.reg Reg.cfgSwapTLo).toNat ||| fld (s.reg Reg.cfgSwapTHi) 27 0 <<< 36)

/-- Reason 9: T is not between 200 us and 10 s after mesh time. -/
def tBad (s : State) : Bool :=
  let t := (swapT s).toNat
  let now := s.evt.time.toNat
  decide (t < now + 200000) || decide (now + 10000000000 < t)

/-- The ring has no region number: 0 stands in the event. -/
def laneRegion (n : Nat) : Nat := if n < 64 then n else 0

def flag (b : Bool) : Option Nat := if b then some 0 else none

/-- The lowest reason to refuse a request, and the first region concerned. -/
def swapRefusal (s : State) (op key : Nat) : Option (Nat × Nat) :=
  let named := setRegions (swapSet s)
  let inRun := (1, flag (s.mode != .run))
  let keyed := [inRun, (2, flag (key != 0x6D1)), (3, flag (s.swState != swIdle))]
  match op with
  | 1 => firstReason (keyed ++ [(4, named.find? (fun n => !shLive s n)), (5, groupSplit s named), (6, groupRing s named),
      (7, noSlotFor s named), (8, namedBusy s named), (0xD, flag named.isEmpty)])
  | 2 => firstReason (keyed ++ [(4, (chipBusy s).map laneRegion), (7, noSlotFor s (chipSet s)),
      (0xC, flag ((chipSet s).isEmpty && !shLive s 64))])
  | 3 => firstReason (keyed ++ [(7, noSlotFor s (chipSet s)), (9, flag (tBad s)), (0xA, flag (s.mstate != 2 || !s.addrValid))])
  | 4 => firstReason [inRun, (0xB, flag (!(coordBit s && s.swState == swScheduled && !s.swap.go)))]
  | _ => firstReason (keyed ++ [(8, namedBusy s named), (0xD, flag named.isEmpty)])

/-- E302 (R206, R218). -/
def swapRefuse (op reason region : Nat) (s : State) : State :=
  raise 0x302 0 (region <<< 12 ||| reason <<< 8 ||| op) (s.setB Reg.cfgSwapStatus 8 true)

def setScope (v : Nat) (s : State) : State := s.setF Reg.cfgSwapStatus 6 4 v

/-- A region or chip swap is committed as it is accepted. -/
def swapCommit (scope : Nat) (regions : BitVec 64) (ring : Bool) (s : State) : State :=
  setScope scope (State.setSw { s with swap := { s.swap with regions := regions, ring := ring } } swCommitted)

/-! ### Mesh swap -/

/-- The time from which GO and ABORT packets travel: floods of CTL (R338). -/
def swapFlood (svc : Nat) (payload : List Word) (s : State) : State :=
  meshRoute none (meshPkt 0 svc vcCtl 2 payload s) s

/-- SCHEDULED, with the swap's ID, time and coordinator (R213): E303, and the first vote. -/
def swapArm (id coord : Nat) (t : BitVec 64) (mine : Bool) (s : State) : State :=
  let s := { s with swap := { s.swap with t := t, coord := BitVec.ofNat 10 coord, votes := [], go := false, participants := [] } }
  let s := setScope 3 ((s.setF Reg.cfgSwapStatus 23 16 id).setSw swScheduled)
  let s := s.setF Reg.cfgSwapStatus 11 9 (if mine then 4 else 0)
  voteSend (raise 0x303 0 (coord <<< 8 ||| id) s)

/-- The nodes of the next-hop table at arming (R338). -/
def meshNodes (s : State) : List (BitVec 10) :=
  ((List.range 1024).filter (fun n => s.getF (Reg.mshNht n) 35 34 == 1 || s.getF (Reg.mshNht n) 35 34 == 2)).map (BitVec.ofNat 10)

/-- A mesh swap is armed here: this node coordinates. SWAP_ID is a free value. -/
def meshArm (s : State) : State :=
  let id := (Config.freeWord s.free).toNat % 256
  let t := swapT s
  let s := swapFlood 0xB [wd (s.addr <<< 8 ||| id), wd t.toNat, wd (t.toNat >>> 36)] s.draw
  let nodes := meshNodes s
  let s := swapArm id s.addr t true s
  { s with swap := { s.swap with participants := nodes } }

/-- The mesh swap ends without an exchange: IDLE and E304 (R216). -/
def swapAbort (cause node : Nat) (s : State) : State :=
  let s := setScope 0 ((s.setSw swIdle).setB Reg.cfgSwapStatus 11 false)
  raise 0x304 0 (node <<< 12 ||| cause <<< 8 ||| swapId s) s

/-- The coordinator floods ABORT with its cause. -/
def coordAbort (cause node : Nat) (s : State) : State :=
  swapAbort cause node (swapFlood 0xE [wd (cause <<< 8 ||| swapId s)] s)

/-- COMMITTED, on GO (R215). -/
def swapGo (s : State) : State :=
  let s := { s with swap := { s.swap with go := true } }
  State.setSw { s with swap := { s.swap with regions := maskOf (chipSet s), ring := shLive s 64 } } swCommitted

/-- The latest vote of a node. -/
def voteIn (s : State) (n : BitVec 10) : Option Vote := (s.swap.votes.find? (fun v => v.1 == n.toNat)).map Prod.snd

/-- The coordinator's decision at the deadline (R215, R218). -/
def opDeadline (s : State) : State :=
  if !coordBit s ∨ s.swState ≠ swScheduled then s
  else match s.swap.participants.find? (fun n => (voteIn s n).isNone) with
    | some n => coordAbort 1 n.toNat s
    | none =>
      match s.swap.participants.find? (fun n => !((voteIn s n).getD {}).ready) with
      | some n => coordAbort 2 n.toNat s
      | none => swapGo (swapFlood 0xD [wd (swapId s)] s)

/-- SWAP_AT at a node (R213, R339). -/
def opSwapAt (id coord : Nat) (t : BitVec 64) (s : State) : State :=
  if s.mode ≠ .run then s
  else if s.swState = swIdle then swapArm id coord t false s
  else if s.swState = swScheduled ∧ swapId s = id ∧ s.swap.coord.toNat = coord then s
  else voteTo coord id {} s

def opVote (node id : Nat) (v : Vote) (s : State) : State :=
  if coordBit s ∧ s.swState = swScheduled ∧ swapId s = id then voteNote node v s else s

def opGo (id : Nat) (s : State) : State := if s.swState = swScheduled ∧ swapId s = id ∧ !coordBit s then swapGo s else s

/-- ABORT as the coordinator's message carries it; the node concerned stands in the coordinator's own E304. -/
def opAbort (id cause : Nat) (s : State) : State :=
  if s.swState = swScheduled ∧ swapId s = id ∧ !coordBit s then swapAbort cause 0 s else s

/-- T is reached with neither GO nor ABORT (R216). -/
def opNoDecision (s : State) : State :=
  if s.swState ≠ swScheduled then s
  else if s.getB Reg.cfgSwapStatus 9 then failsafe 0x305 14 (swapId s) s
  else swapAbort 5 0 s

/-! ### MIRROR (R204) -/

/-- MIRROR begins the copy of every named region that is not being copied already; such a region's copy goes on for the command that
began it, and one that a stream has abandoned is no longer an earlier command's. -/
def opMirror (s : State) : State :=
  let new := (setRegions (swapSet s)).filter (fun n => s.sh n != shMirroring)
  let s := forAll new (fun n s =>
    State.setRg ((s.setSh n shMirroring).setReg (Reg.cfgRsh n) (s.reg (Reg.cfgRact n))) n { s.rg n with mirroring := true }) s
  voteUpdate { s with swap := { s.swap with mirrors := s.swap.mirrors.map (fun m => m &&& ~~~maskOf new) ++ [maskOf new] } }

/-- A region's copy ends: the active words, golden map and staged fences stand in the shadow too (R204, R226). -/
def mirrorEnd (n : Nat) (s : State) : State :=
  let act := activeOf s n
  let s := segCopy n (!act) (goldAll n act s)
  let r := s.rg n
  let r := { r with mirroring := false, goldBad := r.goldBad.filter (fun e => e.1 == act) }
  let r := if act then { r with gold0 := r.gold1, fence0 := r.fence1 } else { r with gold1 := r.gold0, fence1 := r.fence0 }
  (s.setRg n r).setSh n shMirror

/-- The last copy of the oldest command ends: E306 with the regions that it copied. -/
def opMirrorDone (s : State) : State :=
  match s.swap.mirrors with
  | [] => s
  | m :: rest =>
    let done := (setRegions m).filter (fun n => (s.rg n).mirroring && s.sh n == shMirroring)
    let s := forAll done mirrorEnd { s with swap := { s.swap with mirrors := rest } }
    voteUpdate (raise 0x306 0 done.length s)

/-- A write of CFG.SWAP_CMD (R206, R219). -/
def opSwapCmd (v : Word) (s : State) : State :=
  let op := fld v 3 0
  if op = 0 ∨ 5 < op then s
  else match swapRefusal s op (fld v 35 24) with
    | some r => swapRefuse op r.1 r.2 s
    | none =>
      match op with
      | 1 => swapCommit 1 (swapSet s) false s
      | 2 => swapCommit 2 (maskOf (chipSet s)) (shLive s 64) s
      | 3 => meshArm s
      | 4 => coordAbort 3 0 s
      | _ => opMirror s

/-! ### The swap edge (R208) -/

/-- The Quires of a region: logic column and row (R10). -/
def quireList : List (Nat × Nat) := ((List.range 28).filter isLogicCol).flatMap (fun c => (List.range 32).map (fun r => (c, r)))

/-- A live LUT word of a Quire, from the outgoing into the incoming plane where `m` has a 1. -/
def lutWordCarry (n : Nat) (inc : Bool) (q : Nat × Nat) (m : Word) (w : Nat) (s : State) : State :=
  let key := fun (p : Bool) => cfgKey p n q.1 (w / 4) (4 * q.2 + w % 4)
  let new := s.cfgCell (key inc)
  s.setCfg (key inc) { new with data := (new.data &&& ~~~m) ||| ((s.cfgCell (key (!inc))).data &&& m) }

/-- The live LUT bits of a Quire's cells that both golden maps give to the user. -/
def quireCarry (n : Nat) (inc : Bool) (q : Nat × Nat) (s : State) : State :=
  let m := quireMask s n inc q.1 q.2 &&& quireMask s n (!inc) q.1 q.2
  if m = 0 then s else forAll (List.range 64) (lutWordCarry n inc q m) s

/-- The live LUT bits of cells that both golden maps give to the user, copied from the outgoing into the incoming plane; the parity of
every other cell is recomputed. -/
def lutCarry (n : Nat) (s : State) : State :=
  let inc := activeOf s n
  let s := goldAll n (!inc) (goldAll n inc s)
  let s := forAll quireList (quireCarry n inc) s
  let mine := fun (k : Nat) => decide (n * 33408 ≤ k) && decide (k < (n + 1) * 33408)
  let both := fun (k : Nat) => goldBit (s.rg n) inc (k - n * 33408) && goldBit (s.rg n) (!inc) (k - n * 33408)
  { s with fab := { s.fab with parErr := Store.keep (fun k => !mine k || both k) s.fab.parErr } }

/-- RAM36 FIFOs whose MODE, WIDTH or CASC differ between the planes are emptied. -/
def fifoCarry (n : Nat) (s : State) : State :=
  let inc := activeOf s n
  let cfg := fun (p : Bool) (c r : Nat) => (s.cfgCell (cfgKey p n c 0 (4 * r))).data
  forAll ([6, 20].flatMap (fun c => (List.range 32).map (fun r => (c, r)))) (fun q s =>
    let a := cfg inc q.1 q.2
    let b := cfg (!inc) q.1 q.2
    if fld a 5 0 = fld b 5 0 ∧ fld a 21 20 = fld b 21 20 then s
    else s.setRam n q.1 q.2 { s.ram n q.1 q.2 with rd := 0, cnt := 0, ovf := false, udf := false }) s

def maj {n : Nat} (a b c : BitVec n) : BitVec n := (a &&& b) ||| (a &&& c) ||| (b &&& c)

/-- The vote of three copies (R223). -/
def Tri.vote (t : Tri) : CalCopy :=
  { pos := maj t.c0.pos t.c1.pos t.c2.pos, pass := maj t.c0.pass t.c1.pass t.c2.pass,
    count := maj t.c0.count t.c1.count t.c2.count, crc := maj t.c0.crc t.c1.crc t.c2.crc,
    range := maj t.c0.range t.c1.range t.c2.range }

/-- Copies that disagree with the vote. -/
def Tri.odd (t : Tri) : Nat :=
  (decide (t.c0 ≠ t.vote)).toNat + (decide (t.c1 ≠ t.vote)).toNat + (decide (t.c2 ≠ t.vote)).toNat

def triOf (c : CalCopy) : Tri := { c0 := c, c1 := c, c2 := c }

def State.lane (s : State) (l : Nat) : Lane := Store.get (fun _ => {}) s.cal.lanes l

def State.setLane (s : State) (l : Nat) (x : Lane) : State :=
  { s with cal := { s.cal with lanes := Store.set (fun _ => {}) s.cal.lanes l x } }

/-- A read of both engines' states in a lane: each is voted, and copies that disagree are rewritten and counted (R223). -/
def laneVote (lane : Nat) (s : State) : State :=
  let l := s.lane lane
  tmrCount (l.a.odd + l.b.odd) lane false (s.setLane lane { l with a := triOf l.a.vote, b := triOf l.b.vote })

/-- A lane starts again at word 0 in a new pass (R212, R221, R224). -/
def laneRestart (lane : Nat) (s : State) : State :=
  let s := laneVote lane s
  let l := s.lane lane
  let a : CalCopy := { pass := l.a.vote.pass + 1 }
  let b : CalCopy := { pass := l.b.vote.pass + 1 }
  s.setLane lane { l with a := triOf a, b := triOf b, a0 := a, b0 := b, beat := 0, stalled := false, fresh := true }

/-- Exchange the roles of a lane's planes and its identities (R203, R208, R209). -/
def laneExchange (lane : Nat) (s : State) : State :=
  let inc := s.rsh lane
  if lane < 64 then
    let s := s.setRg lane { s.rg lane with role := !(s.rg lane).role, gated := true, awaiting := !s.getB (Reg.rgnStatus lane) 0 }
    let s := (s.setReg (Reg.cfgRsh lane) (s.reg (Reg.cfgRact lane))).setReg (Reg.cfgRact lane) inc
    laneRestart lane (s.setSh lane shPrevious)
  else
    let s := { s with fab := { s.fab with ringRole := !s.fab.ringRole } }
    let s := s.setReg Reg.cfgRingShId s.swap.ringAct
    laneRestart 64 (State.setSh { s with swap := { s.swap with ringAct := inc } } 64 shPrevious)

/-- What the exchange of a region means for its user state. -/
def regionExchange (n : Nat) (s : State) : State :=
  let s := attrLoad n (laneExchange n s)
  if s.getB (Reg.rgnAttr n) 2 then s.setRg n { s.rg n with repre := true } else fifoCarry n (lutCarry n s)

/-- SEC.ROLL.ACTIVE_V: V of the active full image (R202). -/
def activeV (slot : Nat) (s : State) : State := s.setF Reg.secRoll 15 8 (s.slotRec slot).rollV.toNat

/-- R209: the identity goes beyond the exchanged regions, the ring's among them, when all incoming identities agree and name a slot: flash repair
of the ring reads that slot from then on. -/
def identApply (regions : List Nat) (ring : Bool) (s : State) : State :=
  let ids := regions.map (fun n => s.reg (Reg.cfgRact n)) ++ (if ring then [s.swap.ringAct] else [])
  match ids with
  | [] => s
  | x :: rest =>
    if x.getLsbD 35 ∧ rest.all (· == x) then
      let s := State.setF { s with swap := { s.swap with ringAct := x } } Reg.cfgActiveId 31 0 (identImg x)
      activeV (fld x 34 33) (forAll ((List.range 64).filter (fun n => !regions.contains n)) (fun n s => s.setReg (Reg.cfgRact n) x) s)
    else s

/-- E301, and IDLE (R211). -/
def swapEnd (s : State) : State :=
  let scope := s.getF Reg.cfgSwapStatus 6 4
  let s := setScope 0 ((s.setSw swIdle).setB Reg.cfgSwapStatus 11 false)
  let s := forAll ((List.range 8).filter (fun p => (s.port p).retrain)) (fun p s => linkIdle p (if s.fn (.mesh (Fin.ofNat 8 p)) = fnOn then 1 else 0) s) s
  raise 0x301 0 (s.swap.exchanged <<< 3 ||| s.swap.ringEx.toNat <<< 2 ||| scope) s

/-- The swap ends when no exchanged region is awaited. -/
def swapCheck (s : State) : State :=
  if (s.swState = swSoftstart ∨ s.swState = swRepreload) ∧ (List.range 64).all (fun n => !(s.rg n).awaiting) then swapEnd s else s

/-- Governor requests of the scope (R211). -/
def swapAsk (scope : Nat) (regions : List Nat) (s : State) : State :=
  let now := regions.filter (fun n => (s.rg n).awaiting && !(s.rg n).repre)
  if scope = 1 then forAll now (fun n s => govAsk .regionSwap n (s.getF (Reg.pwrRgnEst n) 11 0) s) s
  else if now.isEmpty then s
  else govAsk .chipSwap 0 (estSum (fun n => now.contains n) s) s

/-- The swap edge. The pins are compared with what they drove before it. -/
def opSwapEdge (s : State) : State :=
  if s.swState ≠ swCommitted ∨ s.mode ≠ .run then s
  else
    let old := s
    let scope := s.getF Reg.cfgSwapStatus 6 4
    let regions := if scope = 1 then setRegions s.swap.regions else chipSet s
    let ring := decide (scope ≠ 1) && shLive s 64
    let s := { s with swap := { s.swap with edgeTime := s.evt.time, edgeMesh := s.evt.meshTime, exchanged := regions.length, ringEx := ring } }
    let s := s.setReg Reg.cfgSwapEdgeLo (wd s.evt.time.toNat)
    let s := forAll regions regionExchange s
    let s := if ring then laneExchange 64 s else s
    let s := if ring then
        forAll ((List.range 8).filter (portFrameDiffers s)) (fun p s => s.setPort p { s.port p with retrain := true }) (ringExchange old s)
      else s
    let s := identApply regions ring s
    let held := regions.any (fun n => (s.rg n).repre && (s.rg n).awaiting)
    let s := swapAsk scope regions (s.setSw (if held then swRepreload else swSoftstart))
    pinsFrom old (swapCheck s)

/-- A region's hold for re-preload ends (R210). -/
def opRepreload (n : Nat) (s : State) : State :=
  if !(s.rg n).repre then s
  else
    let id := s.reg (Reg.cfgRact n)
    let r := if id.getLsbD 35 then contentLoad (fld id 34 33) n s else (false, s)
    let s := if r.1 then padsPreload n (regionPreload n r.2) else raise 0x307 0 n (fifoCarry n (lutCarry n { r.2 with fab := s.fab }))
    let s := laneRestart n (s.setRg n { s.rg n with repre := false })
    let s := if (s.rg n).awaiting then govAsk .regionSwap n (s.getF (Reg.pwrRgnEst n) 11 0) s else s
    if s.swState = swRepreload ∧ (List.range 64).all (fun m => !((s.rg m).repre && (s.rg m).awaiting)) then s.setSw swSoftstart else s

/-- An exchanged region runs at full rate (R211). -/
def swapFullRate (regions : List Nat) (s : State) : State :=
  swapCheck (forAll regions (fun n s => s.setRg n { s.rg n with awaiting := false }) s)

/-- CFG.SWAP_STATUS with MIXED as it reads (R209, R219). -/
def swapStatusRead (s : State) : Word :=
  let r := s.reg (Reg.cfgRact 0)
  let same := r.getLsbD 35 && (List.range 64).all (fun n => s.reg (Reg.cfgRact n) == r)
  setFld (s.reg Reg.cfgSwapStatus) 12 12 (!same).toNat

/-- A read of CFG.SWAP_EDGE_LO latches the upper bits for the reading master (R219). -/
def opEdgeLo (who : Req) (s : State) : State :=
  answer (s.reg Reg.cfgSwapEdgeLo) { s with evt := { s.evt with
    edgeLatch := Store.set (fun _ => 0) s.evt.edgeLatch who.toNat (timeHi s.swap.edgeTime s.swap.edgeMesh) } }

/-! ### Commands -/

def swapCmd (who : Req) (v : Word) (op : Nat) (s : State) : State := gateW who Reg.cfgSwapCmd (opSwapCmd (setFld v 3 0 op)) s

def execRegionSwap (who : Req) (v : Word) (s : State) : Host.Outcome State Fault Refusal := .next (swapCmd who v 1 s)

def execChipSwap (who : Req) (v : Word) (s : State) : Host.Outcome State Fault Refusal := .next (swapCmd who v 2 s)

def execMeshSwap (who : Req) (v : Word) (s : State) : Host.Outcome State Fault Refusal := .next (swapCmd who v 3 s)

def execMeshCancel (who : Req) (v : Word) (s : State) : Host.Outcome State Fault Refusal := .next (swapCmd who v 4 s)

def execMirror (who : Req) (v : Word) (s : State) : Host.Outcome State Fault Refusal := .next (swapCmd who v 5 s)

def execMirrorComplete (s : State) : Host.Outcome State Fault Refusal := .next (opMirrorDone s)

def execSwapEdge (s : State) : Host.Outcome State Fault Refusal := .next (opSwapEdge s)

def execRepreloadComplete (region : Fin 64) (s : State) : Host.Outcome State Fault Refusal := .next (opRepreload region.val s)

def execSwapAtReceived (id : BitVec 8) (coord : BitVec 10) (t : BitVec 64) (s : State) : Host.Outcome State Fault Refusal :=
  .next (opSwapAt id.toNat coord.toNat t (inboxTake 0x0B s))

def execVoteReceived (node : BitVec 10) (id : BitVec 8) (ready null : Bool) (s : State) : Host.Outcome State Fault Refusal :=
  .next (opVote node.toNat id.toNat { ready := ready, nul := null } (inboxTake 0x0C s))

def execMeshSwapDeadline (s : State) : Host.Outcome State Fault Refusal := .next (opDeadline s)

def execGoReceived (id : BitVec 8) (s : State) : Host.Outcome State Fault Refusal := .next (opGo id.toNat (inboxTake 0x0D s))

def execAbortReceived (id : BitVec 8) (cause : BitVec 4) (s : State) : Host.Outcome State Fault Refusal :=
  .next (opAbort id.toNat cause.toNat (inboxTake 0x0E s))

def execMeshSwapNoDecision (s : State) : Host.Outcome State Fault Refusal := .next (opNoDecision s)

def execSwapEdgeRead (who : Req) (s : State) : Host.Outcome State Fault Refusal :=
  .next (gateR who Reg.cfgSwapEdgeLo (opEdgeLo who) s)

end Sys2Proof.Machine
end

