-- ==== Sys2Proof/Machine/Boot.lean ====
section
/-! DEFINITION. The boot sequence: boot block and slot (R68, R74, R75, R393), global release (R69 step 6a), the ends of soft-starts
(R101), the bank enables of step 6c, and SERVICE's held release (R76). -/

namespace Sys2Proof.Machine

/-! ### The boot block -/

/-- Entry of pin `i` in the safe map, which begins at word 8 of the boot block (R74). -/
def mapEntry (ws : List Word) (i : Nat) : Nat := fld (ws.getD (9 + i / 4) 0) (9 * (i % 4) + 8) (9 * (i % 4))

/-- Position `p` of the bank order (R74). -/
def mapOrder (ws : List Word) (p : Nat) : Nat := fld (ws.getD (189 + p / 9) 0) (4 * (p % 9) + 3) (4 * (p % 9))

/-- The bank order names each of the 15 banks exactly once (R75). -/
def orderOk (ws : List Word) : Bool :=
  (List.range 15).all (fun b => ((List.range 15).filter (fun p => mapOrder ws p == b)).length == 1)

def orderOf (ws : List Word) : List (Fin 15) :=
  if orderOk ws then (List.range 15).map (fun p => Fin.ofNat 15 (mapOrder ws p)) else List.finRange 15

/-- Copy the safe map into the I/O ring's safe-level store (R75). -/
def safeMapLoad (ws : List Word) (s : State) : State :=
  let m := (List.range 720).foldl (fun m i => Store.set (fun _ => 0) m i (BitVec.ofNat 9 (mapEntry ws i))) []
  let t := { s with boot := { s.boot with safeMap := m, safeLoaded := true, bankOrder := orderOf ws } }
  let t := pinsFrom s t
  if orderOk ws then t else raise 0x006 0 0 t

/-- Step 3: GOV_CFG bits 15:0, the execute-only ranges, the twin and the slot in use (R99, R387, R393). -/
def blockApply (twin : Bool) (ws : List Word) (s : State) : State :=
  let s := { s with flash := { s.flash with twin := twin }, boot := { s.boot with twinOk := true } }
  let g := ws.getD 3 0
  let s := opGovCfg (setFld (s.reg Reg.pwrGovCfg) 15 0 (fld g 15 0)) s
  let s := forAll (List.range 4) (fun k s => s.setReg (Reg.flcXo k) (wd ((ws.getD (4 + k) 0).toNat &&& 0x803FFFFFF))) s
  (s.setB Reg.pwrBootStatus 6 twin).setF Reg.pwrBootStatus 5 4 (fld (ws.getD 1 0) 1 0)

/-- The twin that the boot journal names, or twin A with E00A (R68). -/
def twinNamed (s : State) : Bool × State :=
  match bootForce s with
  | some (_, _, t) => (t, s)
  | none => (false, raise 0x00A 0 0 s)

/-- A twin, if it is valid (R393). -/
def twinTry (b : Bool) (s : State) : Option (List Word) × State :=
  let r := twinWords b s
  (if bootBlockChk r.1 = 0 then some r.1 else none, r.2)

/-- The verified boot block: the named twin, or the other with E004 (R68). -/
def twinPick (s : State) : Option (Bool × List Word) × State :=
  let n := twinNamed s
  let a := twinTry n.1 n.2
  match a.1 with
  | some ws => (some (n.1, ws), a.2)
  | none =>
    let s := raise 0x004 0 n.1.toNat { a.2 with boot := { a.2.boot with twinFellBack := true }, flash := { a.2.flash with twin := !n.1 } }
    let b := twinTry (!n.1) s
    (b.1.map (fun ws => (!n.1, ws)), b.2)

/-- The core leaves reset; with halt-on-reset it halts for its debugger (R424). -/
def coreStart (s : State) : State :=
  let s := { s with core := { s.core with running := true }, dbg := { s.dbg with havereset := true } }
  if s.dbg.haltOnReset && attached s then coreHaltFor 5 s else s

/-- The Calender starts (R70). -/
def calStart (s : State) : State :=
  State.setB { s with cal := { s.cal with passStart := s.evt.time } } Reg.calStatus 0 true

/-- SERVICE from INERT: the core and the Calender run (R31, R58). -/
def serviceCold (cause : Nat) (s : State) : State := calStart (coreStart (setMode .service cause s))

/-- No valid image (R68): E005; SERVICE where the strap asks for it (R58). -/
def noImageHere (detail : Nat) (s : State) : State :=
  let s := raise 0x005 0 detail (s.setB Reg.pwrBootStatus 7 true)
  if s.mode = .inert ∧ s.getB Reg.sysMode 8 then serviceCold 4 s else s

/-- The header's first word is present in the slot: anything but an erased or absent one (R68). -/
def slotPresent (slot : Nat) (s : State) : Bool × State :=
  let r := slotWords slot 0 1 s
  (r.1.headD 0 == syncWord, r.2)

/-- BOOT is entered, step 3 done: the engine's memories clear, and the 64 power-up pulses are asked for (R69, R102). -/
def bootEnter (s : State) : State :=
  let s := setMode .boot 4 (s.setF Reg.pwrBootStatus 3 0 3)
  engClear (forAll (List.range 64) (fun n s => govAsk .bootPulse n 140 s) s)

/-- Boot steps 1 to 3, in INERT with the root PLL locked; in FAILSAFE the boot block is verified for its safe map alone (R62, R67). -/
def opBootBlock (s : State) : State :=
  let inert := decide (s.mode = .inert) && s.boot.timeZero && s.getB Reg.clkRoot 1 && !noImage s
  let fs := decide (s.mode = .failsafe) && s.boot.powerGood && !s.boot.twinOk && !noImage s
  if !inert && !fs then s
  else
    let s := (bootJrnlShow (jrnlBoot s)).setF Reg.pwrBootStatus 3 0 1
    let r := twinPick s
    match r.1 with
    | none => noImageHere 1 r.2
    | some (twin, ws) =>
      let s := r.2.setF Reg.pwrBootStatus 3 0 2
      let slot := fld (ws.getD 1 0) 1 0
      if fs then safeMapLoad ws (blockApply twin ws s)
      else
        let p := slotPresent slot s
        if p.1 then bootEnter (safeMapLoad ws (blockApply twin ws p.2))
        else noImageHere (slot <<< 4 ||| 2) ((p.2.setB Reg.pwrBootStatus 6 twin).setF Reg.pwrBootStatus 5 4 slot)

/-! ### Global release (R69 step 6a, R76) -/

/-- The active identity of the whole part is that of the boot image (R203). -/
def identRelease (s : State) : State :=
  let sh := s.reg Reg.cfgShadowId
  let id := identWord (sh.getLsbD 34) (fld sh 33 32) (BitVec.ofNat 32 (fld sh 31 0))
  let s := s.setReg Reg.cfgActiveId (wd (fld sh 31 0))
  let s := forAll (List.range 64) (fun n s => s.setReg (Reg.cfgRact n) id) s
  State.setF { s with swap := { s.swap with ringAct := id } } Reg.secRoll 15 8 s.ld.rollV.toNat

/-- What both forms of global release do: static ownership and image settings, preload, core and Calender (R52, R69, R76). -/
def releaseBoth (s : State) : State :=
  let s := forAll (List.range 64) (fun n s => attrLoad n (regionPreload n s)) (ringRelease (engSettings s))
  let s := identRelease s
  calStart (coreStart { s with boot := { s.boot with released := true } })

/-- E007 for the soft reset that led here (R83). -/
def resetNote (s : State) : State :=
  match s.boot.softBy with
  | some who => raise 0x007 0 (s.boot.toService.toNat <<< 8 ||| who.toNat) { s with boot := { s.boot with softBy := none } }
  | none => s

/-- The start-up run that word 0 of minor 3 of segment 127 asks for (R362). -/
def beaterBoot (s : State) : State :=
  let w := actWord s 127 0 3 0
  let banks := BitVec.ofNat 16 (fld w 15 0)
  if banks = 0 ∨ s.scr.beater.running then s else beaterRun banks (w.getLsbD 16) true (w.getLsbD 17) false s

/-- Step 6a: the flip-flops leave preload, fences and hard ports open, and the clocks' soft-start is asked for (R69, R71, R100). -/
def releaseRun (s : State) : State :=
  let s := beaterBoot (resetNote s)
  let s := { s with boot := { s.boot with opened := true } }
  govAsk .exit 0 (estSum (fun _ => true) s) ((s.setF Reg.pwrBootStatus 3 0 6).setB Reg.pwrBootStatus 8 false)

/-- Boot ends in SERVICE (R58). -/
def bootToService (s : State) : Bool := s.getB Reg.sysMode 8 || s.boot.toService

/-- The end of boot step 5, or the held release's step 6a under SERVICE EXIT (R76). -/
def opGlobalRelease (s : State) : State :=
  if s.mode = .boot ∧ s.boot.imageLoaded ∧ ¬ s.boot.released then
    if bootToService s then setMode .service 4 ((releaseBoth s).setB Reg.pwrBootStatus 8 true)
    else releaseRun (releaseBoth s)
  else if s.mode = .service ∧ s.boot.exitRun ∧ s.getB Reg.pwrBootStatus 8 then releaseRun s
  else s

/-! ### Soft-starts (R101) -/

/-- No fabric soft-start of all regions is waited for. -/
def exitEnded (s : State) : Bool := s.boot.fabricOn && !govHas .exit s

/-- RUN begins: what BOOT, RETAIN or SERVICE held off returns to the design (R58, R76, R79). -/
def runBegin (cause : Nat) (s : State) : State :=
  setMode .run cause { s with boot := { s.boot with retain := .idle, emu := false, exitRun := false } }

/-- The fabric of all regions has reached its full rate. -/
def exitDone (s : State) : State :=
  match s.mode with
  | .retain => if s.boot.retain = .exitRamp then runBegin 2 s else s
  | .service => if s.boot.exitRun ∧ 15 ≤ s.boot.banksOn then runBegin 0 s else s
  | _ => s

/-- The fabric's ramp-down ends: edges stop, unless a soft-start has been granted since (R76, R78 step 5, R101). -/
def entryDone (s : State) : State :=
  if s.gov.ramps.any (fun r => decide (r.kind = GovKind.exit)) then s
  else { s with boot := { s.boot with fabricOn := false } }

/-- A region's power-up pulse ends: the region may receive frames, and words that waited for it go on (R102). -/
def pulseDone (s : State) : State := ldResume { s with boot := { s.boot with pulsed := s.boot.pulsed + 1 } }

/-- The end of a ramp (R101). -/
def rampEnd (r : GovReq) (s : State) : State :=
  match r.kind with
  | .exit => exitDone s
  | .entry => entryDone s
  | .bootPulse => pulseDone s
  | .regionSwap => swapFullRate [r.ix] s
  | .regionWake => swapFullRate [r.ix] s
  | .chipSwap => swapFullRate ((List.range 64).filter (fun n => (s.rg n).awaiting && !(s.rg n).gated)) s
  | _ => s

def opSoftstart (k : Nat) (s : State) : State :=
  match s.gov.ramps[k]? with
  | none => s
  | some r => rampEnd r { s with gov := { s.gov with ramps := s.gov.ramps.eraseIdx k } }

/-! ### Step 6c (R69) -/

/-- Microseconds since time zero. -/
def releaseUs (s : State) : Nat := (s.evt.time - s.boot.t0).toNat / 1000 % 65536

/-- The 15th bank: step 7, RELEASE_US, RUN (R69, R85). -/
def bootEnd (s : State) : State :=
  let s := (s.setF Reg.pwrBootStatus 3 0 7).setF Reg.pwrBootStatus 31 16 (releaseUs s)
  runBegin (if s.mode = .boot then 4 else 0) s

/-- The next bank in safe-map order enables its outputs. -/
def opBankEnable (s : State) : State :=
  if s.boot.released ∧ exitEnded s ∧ s.boot.banksOn < 15 ∧ (s.mode = .boot ∨ (s.mode = .service ∧ s.boot.exitRun)) then
    let t := { s with boot := { s.boot with banksOn := s.boot.banksOn + 1 } }
    if t.boot.banksOn = 15 then bootEnd (pinsFrom s t) else pinsFrom s t
  else s

/-- The granted power-up pulse ends (R102); a pulse occupies S for its whole length, so one at a time is under way. -/
def opBootPulse (s : State) : State :=
  match s.gov.ramps.find? (fun r => decide (r.kind = GovKind.bootPulse)) with
  | some r => rampEnd r { s with gov := { s.gov with ramps := s.gov.ramps.erase r } }
  | none => s

/-! ### Commands -/

def execBootRegionPowerUp (s : State) : Host.Outcome State Fault Refusal := .next (opBootPulse s)

def execBootBlockSelect (s : State) : Host.Outcome State Fault Refusal := .next (opBootBlock s)

def execGlobalRelease (s : State) : Host.Outcome State Fault Refusal := .next (opGlobalRelease s)

def execBankOutputEnable (s : State) : Host.Outcome State Fault Refusal := .next (opBankEnable s)

def execSoftstartComplete (ramp : Nat) (s : State) : Host.Outcome State Fault Refusal := .next (opSoftstart ramp s)

end Sys2Proof.Machine
end

