-- ==== Sys2Proof/Machine/Region.lean ====
section
/-! DEFINITION. The region controller: RGN.CMD (R148), region reset and its release (R84, R209), quarantine by command (R144 to R147),
the error log's read port (R143), the fence register (R136, R148). -/

namespace Sys2Proof.Machine

/-! ### Quarantine and the swap (R206, R211) -/

/-- Requests and ramps of a region, which a quarantine or a region reset ends. -/
def rgnGovDrop (n : Nat) (s : State) : State :=
  let keep := fun (r : GovReq) => !((decide (r.kind = .regionSwap) || decide (r.kind = .regionWake)) && r.ix == n)
  { s with gov := { queue := s.gov.queue.filter keep, ramps := s.gov.ramps.filter keep } }

/-- Quarantine a region; a swap does not wait for it (R211). -/
def rgnQuarantine (n cause : Nat) (s : State) : State :=
  let s := rgnGovDrop n s
  swapCheck (quarantine n cause (s.setRg n { s.rg n with awaiting := false }))

/-! ### Region reset (R84) -/

/-- The reset begins: outputs fenced, ports idle, clocks gated; the region's repairs are dropped (R230). -/
def rgnResetStart (n : Nat) (s : State) : State :=
  let old := s
  let s := rgnGovDrop n (s.setB (Reg.rgnStatus n) 4 true)
  let s := s.setRg n { s.rg n with gated := true, repre := false, awaiting := false }
  let s := { s with cal := { s.cal with queue := s.cal.queue.filter (fun r => r.lane != n) } }
  swapCheck (pinsFrom old (portDiscard n s))

/-- The slot that the reset reads: that of the active identity, or the boot slot (R209). -/
def rgnSlot (s : State) (n : Nat) : Nat :=
  if (s.reg (Reg.cfgRact n)).getLsbD 35 then s.getF (Reg.cfgRact n) 34 33 else (bootSlot s).val

/-- The header of a slot that is not on record is read and verified first (R229). -/
def slotKnown (slot : Nat) (s : State) : Bool × State :=
  if (s.slotRec slot).valid then (true, s)
  else
    let r := slotHeader slot s
    match r.1 with
    | .ok h => (true, setSlotRec slot h.record r.2)
    | .error _ => (false, r.2)

/-- Store one frame of a region's active plane, or its RAM36 contents (R193, R194). The load never writes bits 63:0 of the cells that the
golden map of the plane marks as user-owned (R125). -/
def frameStore (n col minor : Nat) (ws : List Word) (s : State) : State :=
  if isContent n col minor then contentFrame n col minor ws s
  else
    let plane := activeOf s n
    forAll ws.zipIdx (fun w s =>
      let key := cfgKey plane n col minor w.2
      let s := goldRead key s
      let m := keyMask s key
      s.setCfg key { data := ((s.cfgCell key).data &&& m) ||| (w.1 &&& ~~~m) }) s

/-- A frame of LUT bits: configuration bits 63:0 of a logic column's cells (R117, R120). -/
def isLutFrame (col minor : Nat) : Bool := isLogicCol col && decide (minor < 16)

/-- The frames of a region from a slot, up to the first that fails its checks, with the frames of LUT bits among them. -/
def rgnReload (slot n : Nat) (s : State) : Bool × List (Nat × Nat × List Word) × State :=
  let frames := (List.range 29).flatMap (fun c => (List.range (allMinors n c)).map (fun m => (c, m)))
  frames.foldl (fun r f =>
    if !r.1 then r
    else match slotFrame slot n f.1 f.2 r.2.2 with
      | (some ws, t) => (true, if isLutFrame f.1 f.2 then r.2.1 ++ [(f.1, f.2, ws)] else r.2.1, frameStore n f.1 f.2 ws t)
      | (none, t) => (false, r.2.1, t)) (true, [], s)

/-- Preload gives every LUT bit of the region its value of the image (R117). -/
def lutPreload (n : Nat) (frames : List (Nat × Nat × List Word)) (s : State) : State :=
  forAll frames (fun f s => forAll f.2.2.zipIdx (fun w s => s.setCfg (cfgKey (activeOf s n) n f.1 f.2.1 w.2) { data := w.1 }) s) s

/-- After release from region reset a STREAM interface of the region starts every sequence anew (R334). -/
def stFirst (n : Nat) (s : State) : State :=
  forAll ((List.range 8).filter (fun k => hostOf s 2 k == some n)) (fun k s =>
    { s with mesh := { s.mesh with st := Store.upd (fun _ => {}) s.mesh.st k (fun t => { t with started := [] }) } }) s

/-- The reload has succeeded: golden map, fences, preload, release under a region-wake token. -/
def rgnReleased (n slot : Nat) (s : State) : State :=
  let old := s
  let fallback := !(s.reg (Reg.cfgRact n)).getLsbD 35
  let s := if fallback then s.setReg (Reg.cfgRact n) (identWord true slot (s.slotRec slot).imageId) else s
  let s := padsPreload n <| regionPreload n (attrLoad n (fenceStage n (activeOf s n) (goldDerive n (activeOf s n) s)))
  let s := (s.setB (Reg.rgnStatus n) 4 false).setF (Reg.rgnStatus n) 3 0 0
  let s := stFirst n (portRelease n (laneRestart n (pinsFrom old s)))
  let s := logWrite n (8 <<< 32) 0x408 (raise 0x008 0 n s)
  govAsk .regionWake n (s.getF (Reg.pwrRgnEst n) 11 0) s

/-- The reload has failed: the earlier quarantine ends and a new one begins (R84, R144). -/
def rgnResetFailed (n : Nat) (s : State) : State :=
  let s := (s.setB (Reg.rgnStatus n) 4 false).setF (Reg.rgnStatus n) 3 0 0
  rgnQuarantine n 2 (raise 0x008 0 (1 <<< 8 ||| n) s)

/-- The reset of a region ends. -/
def opRgnRelease (n : Nat) (s : State) : State :=
  if !s.getB (Reg.rgnStatus n) 4 then s
  else
    let slot := rgnSlot s n
    let k := slotKnown slot s
    let r := if k.1 then rgnReload slot n k.2 else (false, [], k.2)
    if r.1 then rgnReleased n slot (lutPreload n r.2.1 r.2.2) else rgnResetFailed n r.2.2

/-! ### RGN.CMD (R148) -/

/-- A swap of the region is scheduled or committed and not yet performed. -/
def rgnSwapDue (s : State) (n : Nat) : Bool :=
  s.swState == swScheduled || (s.swState == swCommitted && s.swap.regions.getLsbD n)

/-- LOG_ACK clears PERR in the region's cells, and the parity flags of its RAM36 (R119, R165). -/
def logAck (n : Nat) (s : State) : State :=
  let cell := fun (k : Nat) => decide (n * 33408 ≤ k) && decide (k < (n + 1) * 33408)
  let blk := fun (k : Nat) => decide (n * 928 ≤ k) && decide (k < (n + 1) * 928)
  let ram := s.fab.ram36.foldl (fun m e => Store.set (fun _ => {}) m e.1 (if blk e.1 then { e.2 with ppar := false } else e.2)) []
  { s with fab := { s.fab with perr := Store.keep (fun k => !cell k) s.fab.perr, ram36 := ram } }

/-- A write of RGN.CMD. -/
def opRgnCmd (n : Nat) (v : Word) (s : State) : State :=
  let s := if v.getLsbD 2 then logAck n s else s
  if !v.getLsbD 0 ∧ !v.getLsbD 1 then s
  else if fld v 35 24 ≠ 0x6D1 ∨ s.mode ≠ .run ∨ rgnSwapDue s n ∨ s.getB (Reg.rgnStatus n) 4 then s.setB (Reg.rgnStatus n) 6 true
  else if v.getLsbD 0 then rgnResetStart n s
  else rgnQuarantine n 3 s

/-! ### Reads -/

/-- A read of RGN.LOG pops the oldest entry, or answers EMPTY (R143, R148). -/
def opRgnLog (n : Nat) (peek : Bool) (s : State) : State :=
  match (s.rg n).log with
  | [] => answer 1 s
  | w :: ws => answer w (if peek then s else s.setRg n { s.rg n with log := ws })

/-- RGN.STATUS as it reads. -/
def rgnStatus (s : State) (n : Nat) : Word :=
  setFld (setFld (s.reg (Reg.rgnStatus n)) 13 8 (s.rg n).log.length) 5 5 (inDeckle s n).toNat

/-- RGN.FENCE as it reads (R148). -/
def rgnFence (s : State) (n : Nat) : Word :=
  wd ((List.range 4).foldl (fun v d =>
    match rgnNext n d with
    | none => v
    | some m => v ||| (rgnFenced s n).toNat <<< (4 + d) ||| (rgnFenced s m).toNat <<< d) 0)

/-! ### Commands -/

def execRegionReset (who : Req) (region : Fin 64) (v : Word) (s : State) : Host.Outcome State Fault Refusal :=
  .next (gateW who (Reg.rgnCmd region.val) (opRgnCmd region.val v) s)

def execRegionResetRelease (region : Fin 64) (s : State) : Host.Outcome State Fault Refusal := .next (opRgnRelease region.val s)

def execRegionQuarantineCommand (who : Req) (region : Fin 64) (v : Word) (s : State) : Host.Outcome State Fault Refusal :=
  .next (gateW who (Reg.rgnCmd region.val) (opRgnCmd region.val v) s)

def execLogAck (who : Req) (region : Fin 64) (v : Word) (s : State) : Host.Outcome State Fault Refusal :=
  .next (gateW who (Reg.rgnCmd region.val) (opRgnCmd region.val v) s)

def execRegionLogRead (who : Req) (region : Fin 64) (peek : Bool) (s : State) : Host.Outcome State Fault Refusal :=
  .next (gateR who (Reg.rgnLog region.val) (opRgnLog region.val (peeks who peek)) s)

end Sys2Proof.Machine
end

