-- ==== Sys2Proof/Machine/Calender.lean ====
section
/-! DEFINITION. The Calender: scrub order (R220 to R222), the two engines in triplicate (R223 to R225), repair of double-bit errors
(R227 to R230), readback reads (R124, R193, R199), and the registers of CAL (R234). -/

namespace Sys2Proof.Machine

open Crypto

/-! ### Positions (R220, R222) -/

/-- Words of a lane's pass. -/
def laneLen (lane : Nat) : Nat := if lane < 64 then 212992 else 10240

/-- Column and minor of a region's configuration frame `f`, counted from column `c`. -/
def frameColMinor : Nat → Nat → Nat → Nat × Nat
  | 0, c, f => (c, f)
  | n + 1, c, f => if f < cfgMinors c then (c, f) else frameColMinor n (c + 1) (f - cfgMinors c)

/-- Segment and minor of ring frame `f`, counted from segment `seg`. -/
def ringSegMinor : Nat → Nat → Nat → Nat × Nat
  | 0, _, f => (127, f)
  | n + 1, seg, f => if f < segMinors seg 0 then (seg, f) else ringSegMinor n (seg + 1) (f - segMinors seg 0)

/-- Segment, column and minor of frame `f` of a lane's pass. -/
def laneFrame (lane f : Nat) : Nat × Nat × Nat :=
  if lane < 64 then let c := frameColMinor 28 0 f; (lane, c.1, c.2)
  else let r := ringSegMinor 25 64 f; (r.1, 0, r.2)

/-- Key of word `w` of frame `f` of a lane's pass, in the active plane. -/
def posKey (s : State) (lane f w : Nat) : Nat :=
  let g := laneFrame lane f
  cfgKey (activeOf s g.1) g.1 g.2.1 g.2.2 w

/-! ### Log entries of configuration words (R148, R233) -/

/-- The entry's plane bit: 1 for a word that is in the shadow. -/
def keyShadow (s : State) (key : Nat) : Nat := (keyPlane key != activeOf s (keySeg key)).toNat

/-- Report a finding about a word: a region's log entry, or the ring's event alone. -/
def wordReport (kind bit key : Nat) (code : Code) (s : State) : State :=
  let seg := keySeg key
  let s := s.setB Reg.calStatus 5 true
  if seg < 64 then
    logWrite seg (logEntry kind (keyCol key) (keyWord key / 4) bit (4 * keyMinor key + keyWord key % 4) (keyShadow s key)) code s
  else
    let ix := if seg = 127 then 25 else seg - 64
    raise code 0 (kind <<< 32 ||| keyMinor key <<< 22 ||| bit <<< 16 ||| keyWord key <<< 8 ||| ix <<< 1 ||| 1) s

/-- The wrong bit that a correction names: the lowest of the word, check bits above the data bits. -/
def wrongBit (c : Cell) (mask w : Word) : Nat :=
  let e := c.err &&& ~~~(mask.zeroExtend 43)
  match (List.range 36).find? (fun i => (c.data ^^^ w).getLsbD i) with
  | some i => i
  | none => ((List.range 43).find? (fun i => e.getLsbD i)).getD 0

/-- Correct a word in place, count and report it. -/
def wordCorrect (kind key : Nat) (w : Word) (code : Code) (s : State) : State :=
  let c := s.cfgCell key
  let bit := wrongBit c (keyMask s key) w
  let s := s.setCfg key { data := w }
  let s := if keySeg key < 64 then s.count (Reg.rgnCntSbe (keySeg key)) 35 0 else s.count Reg.calCntRing 35 0
  wordReport kind bit key code s

/-! ### Scrub reads (R220 to R225) -/

/-- The lane does not scrub: quarantine, region reset, re-preload (R221, R210). -/
def laneHeld (s : State) (lane : Nat) : Bool :=
  decide (lane < 64) && (s.getB (Reg.rgnStatus lane) 0 || s.getB (Reg.rgnStatus lane) 4 || (s.rg lane).repre)

/-- Read one word with masked SECDED (R122): false when the repair queue has no room for it (R228). -/
def scrubWord (lane key : Nat) (s : State) : Bool × State :=
  let s := goldRead key s
  match cfgChk s key with
  | .good _ => (true, s)
  | .corrected w => (true, wordCorrect 1 key w 0x401 s)
  | .bad => repairAdd lane key s

/-- A full chip pass ends at the first CK_CFG cycle by which the ring and every region not held has ended a pass that began within it
(R221). -/
def chipPass (s : State) : State :=
  if (List.range 65).all (fun l => (s.lane l).ended || laneHeld s l) then
    let s := forAll (List.range 65) (fun l s =>
      s.setLane l { s.lane l with ended := false, fresh := (s.lane l).b.vote.count == 0 && (s.lane l).a.vote.count == 0 }) s
    let s := s.setF Reg.calPassTime 19 0 (min (2 ^ 20 - 1) ((s.evt.time - s.cal.passStart).toNat / 1000))
    let s := s.setReg Reg.calPassCount (s.reg Reg.calPassCount + 1)
    { s with cal := { s.cal with passStart := s.evt.time, tmrRaised := false } }
  else s

/-- A lane's pass has ended. -/
def passEnd (lane : Nat) (s : State) : State :=
  let l := s.lane lane
  laneRestart lane (s.setLane lane { l with ended := l.ended || l.fresh })

/-- Mismatches of the last 10 ms (R225). -/
def mmRecent (s : State) : List (BitVec 64) := s.cal.mmTimes.filter (fun t => decide ((s.evt.time - t).toNat < 10000000))

/-- Resolve a mismatch of the signatures `a` and `b` (R224): the laggard takes the other's state at the start of the frame, or both
start again. The answer is the event's detail and the two positions. -/
def mmResolve (lane : Nat) (a b : CalCopy) (s : State) : (Nat × Nat) × State :=
  let l := s.lane lane
  let both := decide (a.count = b.count)
  let lagB := decide (b.count < a.count)
  let det := (if lane < 64 then lane else 63 ||| 1 <<< 6) ||| (!both && lagB).toNat <<< 7 ||| both.toNat <<< 8
  let c := if lagB then l.a0 else l.b0
  ((det, ((b.pos.toNat + 1) % 2 ^ 18) <<< 18 ||| a.pos.toNat),
    if both then laneRestart lane s else s.setLane lane { l with a := triOf c, b := triOf c, a0 := c, b0 := c, beat := 0 })

/-- Count a mismatch, and raise E409 or, at the third within 10 ms, E40A (R225). Mismatches of one CK_CFG cycle are one; the part reports
that of the lowest lane (DESIGN CHOICE: log entry 102). -/
def mmReport (r : Nat × Nat) (s : State) : State :=
  let s := State.count (s.setReg Reg.calLastMm (wd r.2)) Reg.calCntMismatch 35 0
  let times := mmRecent s ++ [s.evt.time]
  let s := { s with cal := { s.cal with mmTimes := times } }
  if 3 ≤ times.length then failsafe 0x40A 11 r.1 s else raise 0x409 0 r.1 (s.setB Reg.calStatus 5 true)

/-- A mismatch that TEST CAL injects raises no E409 and is not counted toward trigger 8 (R453); it counts in CAL.CNT_MISMATCH (DESIGN CHOICE:
log entry 103). -/
def mmInjected (r : Nat × Nat) (s : State) : State := State.count (s.setReg Reg.calLastMm (wd r.2)) Reg.calCntMismatch 35 0

/-- What the other engine is shown of an engine's progress: the pass number, the position, the word count and the address CRC (R224). -/
def CalCopy.shown (c : CalCopy) : CalCopy := { c with range := 0 }

/-- The signatures are compared at a frame boundary (R224), where TEST CAL shows one engine a word behind (R453). The answer is a mismatch
to report. -/
def frameEnd (lane : Nat) (s : State) : Option (Nat × Nat) × State :=
  let s := laneVote lane s
  let l := s.lane lane
  let a := l.a.vote
  let b := l.b.vote
  if a.shown ≠ b.shown then
    let r := mmResolve lane a b s
    (some r.1, r.2)
  else match (if lane = 0 then s.cal.inject else none) with
    | some e =>
      let back := fun (c : CalCopy) => { c with count := c.count - 1 }
      let r := mmResolve lane (if e then a else back a) (if e then back b else b) s
      let s := mmInjected r.1 r.2
      (none, { s with cal := { s.cal with inject := if e then none else some true } })
    | none =>
      let s := s.setLane lane { l with a0 := a, b0 := b }
      (none, if laneLen lane ≤ 2 * b.count.toNat then passEnd lane s else s)

/-- An engine's state after a read of its present frame: its next position is two words on. -/
def copyNext (lane : Nat) (c : CalCopy) : CalCopy :=
  let f := laneFrame lane c.range.toNat
  let faw := fawOf 0 f.1 f.2.1 f.2.2
  let pos := c.pos + 2
  { c with pos := pos, count := c.count + 1, crc := crc32cRun c.crc (beBytes 5 (faw.toNat)),
           range := if pos.toNat % 128 = 0 then c.range + 1 else c.range }

/-- TEST CAL runs both engines over region 0, whatever the mode has stopped (R225, R453). -/
def calRuns (s : State) (lane : Nat) : Bool :=
  s.getB Reg.calStatus 0 ||
  match s.svc.test with
  | some t => t.id == 6 && lane == 0
  | none => false

/-- The lane's repair in progress. -/
def laneRepair (s : State) (lane : Nat) : Option Repair := s.cal.queue.find? (fun r => r.lane == lane)

/-- The scrub read of a lane: engine A at even positions, engine B at odd ones (R223). The answer is a mismatch to report. -/
def laneScrub (lane : Nat) (s : State) : Option (Nat × Nat) × State :=
  let s := laneVote lane s
  let l := s.lane lane
  let engB := l.beat.getLsbD 0
  let c := (if engB then l.b else l.a).vote
  let r := scrubWord lane (posKey s lane c.range.toNat ((c.pos.toNat + engB.toNat) % 128)) s
  let s := r.2
  if !r.1 then (none, s.setLane lane { s.lane lane with stalled := true })
  else
    let n := triOf (copyNext lane c)
    let l := { l with stalled := false, beat := l.beat + 1 }
    let s := s.setLane lane (if engB then { l with b := n } else { l with a := n })
    if l.beat = 0 then frameEnd lane s else (none, s)

/-! ### Repair (R227, R228) -/

/-- The identity of the plane that a word stands in (R203, R212). -/
def keyIdent (s : State) (key : Nat) : Word :=
  let lane := laneOf (keySeg key)
  if keyShadow s key = 0 then (if lane < 64 then s.reg (Reg.cfgRact lane) else s.swap.ringAct) else s.rsh lane

def otherPlane (key : Nat) : Nat := key ^^^ (1 <<< 28)

/-- What a MIRROR shadow offers for a word. -/
def mirrorWord (s : State) (key : Nat) : Option Word :=
  if keySeg key < 64 ∧ keyShadow s key = 0 ∧ s.sh (keySeg key) = shMirror then
    match cfgChk s (otherPlane key) with
    | .good w => some w
    | .corrected w => some w
    | .bad => none
  else none

/-- A single wrong bit of the shadow word is corrected in place. -/
def mirrorFix (key : Nat) (s : State) : State :=
  match cfgChk s (otherPlane key) with
  | .corrected w => s.setCfg (otherPlane key) { data := w }
  | _ => s

/-- Write a repaired word; the bits of user-owned cells stay (R227). -/
def repairWrite (key : Nat) (v : Word) (s : State) : State :=
  let s := goldRead key s
  let m := keyMask s key
  let d := ((s.cfgCell key).data &&& m) ||| (v &&& ~~~m)
  let s := s.setCfg key { data := d }
  if keySeg key < 64 ∧ (s.rg (keySeg key)).mirroring ∧ keyShadow s key = 0 then s.setCfg (otherPlane key) { data := d } else s

/-- An entry has ended: it frees, for a ring word that waits for one (R228). -/
def repairDone (e : Repair) (s : State) : State :=
  repairLate { s with cal := { s.cal with queue := s.cal.queue.filter (fun r => !(r.lane == e.lane && r.key == e.key)) } }

/-- The word that the shadow offers for an entry whose shadow branch is not behind it. -/
def repairShadow (s : State) (e : Repair) : Option Word := if e.tried then none else mirrorWord s e.key

/-- The entry waits for a flash fetch. -/
def needsFlash (s : State) (e : Repair) : Bool :=
  (repairShadow s e).isNone && (keyIdent s e.key).getLsbD 35 && e.fetched.isNone && e.failed == 0 && e.wrote == 0

/-- A repair that has failed: E405, then quarantine, or trigger 7 for the ring (R227, R231). -/
def repairFail (e : Repair) (cause : Nat) (s : State) : State :=
  let s := repairDone e s
  if e.lane < 64 then
    rgnQuarantine e.lane 1 (wordReport 5 cause e.key 0x405 (s.count (Reg.rgnCntRepair e.lane) 35 24))
  else failsafeWith 0x40B 11 (1 <<< 6) (wordReport 5 cause e.key 0x405) s

/-- Change the entry of a queue. -/
def repairSet (e f : Repair) (s : State) : State :=
  { s with cal := { s.cal with queue := s.cal.queue.map (fun r => if r = e then f else r) } }

/-- The re-read of a repaired word is clean: the repair has ended, from the shadow or from flash (R227). -/
def repairClean (e : Repair) (s : State) : State :=
  let s := repairDone e s
  if e.wrote = 3 then wordReport 3 0 e.key 0x403 (s.count (Reg.rgnCntRepair e.lane) 11 0)
  else
    let s := if e.lane < 64 then s.count (Reg.rgnCntRepair e.lane) 23 12 else s.count Reg.calCntRing 35 0
    wordReport 4 (fld (keyIdent s e.key) 34 33 <<< 4) e.key 0x404 s

/-- The re-read of the word just written (R227): with any error it is not clean (DEDUCED: log entry 56), so the flash branch follows the
shadow's, and after that the repair has failed. -/
def repairReread (e : Repair) (s : State) : State :=
  let s := goldRead e.key s
  match cfgChk s e.key with
  | .good _ => repairClean e s
  | _ => if e.wrote = 3 then repairSet e { e with wrote := 0, tried := true } s else repairFail e 4 s

/-- One step of the repair in progress in a lane (R227): the write from the shadow or from the frame fetched, the re-read, or the failure. A
region without a flash source fails with cause 3, or with cause 4 where the re-read after the shadow's word was not clean (DESIGN CHOICE: log
entry 104). -/
def opRepair (lane : Nat) (s : State) : State :=
  match laneRepair s lane with
  | none => s
  | some e =>
    if e.wrote ≠ 0 then repairReread e s
    else match repairShadow s e with
      | some v => repairSet e { e with wrote := 3 } (repairWrite e.key v (mirrorFix e.key s))
      | none =>
        if !(keyIdent s e.key).getLsbD 35 then repairFail e (if e.tried then 4 else 3) s
        else match e.fetched with
          | some v => repairSet e { e with wrote := 4 } (repairWrite e.key v s)
          | none => if e.failed = 0 then s else repairFail e e.failed.toNat s

/-- The entry that the flash serves now: the first in the order of detection that is its lane's repair and waits for a fetch (R228). -/
def fetchNext (s : State) : Option Repair :=
  s.cal.queue.find? (fun e => needsFlash s e && laneRepair s e.lane == some e)

/-- A bank that holds a page of the tag segments of a frame is busy: the fetch waits for it (R228, R372). -/
def fetchWaits (s : State) (slot key : Nat) : Bool :=
  let b := frameOffset (keySeg key) (keyCol key) (keyMinor key)
  let first := 4100 * (b / 4096)
  let last := 4100 * ((b + 127) / 4096) + 4099
  (List.range 66).any (fun i =>
    let w := (s.slotRec slot).hlen + min last (first + 128 * i)
    bankBusy s (w / 128 % 16))

/-- The fetch of a lane's word (R229). -/
def opRepairFetch (lane : Nat) (s : State) : State :=
  match fetchNext s with
  | none => s
  | some e =>
    let slot := fld (keyIdent s e.key) 34 33
    if e.lane ≠ lane ∨ fetchWaits s slot e.key then s
    else
      let r := slotFrame slot (keySeg e.key) (keyCol e.key) (keyMinor e.key) s
      match r.1 with
      | some ws => repairSet e { e with fetched := some (ws.getD (keyWord e.key) 0) } r.2
      | none => repairSet e { e with failed := 1 } r.2

def opRepairTimeout (lane : Nat) (s : State) : State :=
  match laneRepair s lane with
  | none => s
  | some e => if needsFlash s e then repairSet e { e with failed := 2 } s else s

/-! ### One CK_CFG cycle (R220, R227) -/

/-- What a lane reads in its read slot: the re-read of a repair comes in place of a scrub read (R227). -/
def laneRead (lane : Nat) (s : State) : Option (Nat × Nat) × State :=
  if !calRuns s lane ∨ laneHeld s lane then (none, s)
  else match (laneRepair s lane).filter (fun e => e.wrote != 0) with
    | some e => (none, repairReread e s)
    | none => laneScrub lane s

/-- The scrub reads of one CK_CFG cycle: the mismatches found in it count as one (R224). -/
def opScrub (lanes : List Nat) (s : State) : State :=
  let r := lanes.foldl (fun r l => let t := laneRead l r.2; (r.1 <|> t.1, t.2)) (none, s)
  match r.1 with
  | some m => chipPass (mmReport m r.2)
  | none => chipPass r.2

/-! ### Readback (R124, R193, R199, R230) -/

/-- Hand a readback word to the source's return path (R199). -/
def readbackOut (w : Word) (s : State) : State :=
  match s.ld.src.toNat with
  | 1 => if booting s then s else { s with ld := { s.ld with rdata := s.ld.rdata ++ [w] } }
  | 4 => { s with ld := { s.ld with rdata := s.ld.rdata ++ [w] } }
  | 2 => { s with ld := { s.ld with capOut := s.ld.capOut ++ [w] } }
  | _ => meshSend s.mesh.pushFrom.toNat 8 vcRsp [w] s

/-- The return path has room. -/
def readbackRoom (s : State) : Bool :=
  decide (s.ld.rdata.length < 512) || !(s.ld.src.toNat == 4 || (s.ld.src.toNat == 1 && !booting s))

/-- A word returned, with the frame bus's uncorrectable flag. -/
def rbGive (w : Word) (unc : Bool) (s : State) : Option Word × State :=
  (some w, { s with ld := { s.ld with unc := unc, rbQueued := none, rbFull := false } })

/-- What the read of a word gives: none while it waits. A double-bit error of the active plane is handed to repair, and the stored word is
returned at once with the flag (R124); where the queue was full the word waits for room, then for its repair (R228, R230). -/
def readbackWord (key : Nat) (s : State) : Option Word × State :=
  let lane := laneOf (keySeg key)
  let s := goldRead key s
  if s.cal.queue.any (fun r => r.lane == lane && r.key / 128 == key / 128) then (none, s)
  else match cfgChk s key with
  | .good w => rbGive w false s
  | .corrected w => rbGive w false (wordCorrect 2 key w 0x402 s)
  | .bad =>
    let w := (s.cfgCell key).data
    if keyShadow s key = 1 ∨ s.ld.rbQueued = some key then rbGive w true s
    else
      let r := repairAdd lane key s
      if !r.1 then (none, { s with ld := { s.ld with rbFull := true } })
      else if s.ld.rbFull then (none, { r.2 with ld := { s.ld with rbFull := false, rbQueued := some key } })
      else rbGive w true r.2

/-- One word has been returned: the FAW moves at the frame's end, the stream goes on at the packet's end. -/
def readbackStep (j : Nat) (s : State) : State :=
  let s := { s with ld := { s.ld with rbLeft := s.ld.rbLeft - 1, rbDone := s.ld.rbDone + 1 } }
  let s := if j = 127 then ldAdvance s else s
  if s.ld.rbLeft = 0 then ldResume s else s

/-- One readback read of the packet under way. -/
def opReadback (s : State) : State :=
  if s.ld.rbLeft = 0 then s
  else
    let w := s.ld.faw
    let seg := fawSeg w
    let j := s.ld.rbDone % 128
    if j = 0 ∧ s.ld.past then e201 4 (s.ld.wordIx - 1) s
    else if j = 0 ∧ !inDeckle s seg then ldRefuse 0x205 (seg <<< 28 ||| wordDet (s.ld.wordIx - 1)) s
    else if !readbackRoom s then s
    else if isContent seg (fawCol w) (fawMinor w) then readbackStep j (readbackOut 0 s)
    else
      let plane := if booting s then activeOf s seg else physOf s seg (fld w 35 34 == 1)
      let r := readbackWord (cfgKey plane seg (fawCol w) (fawMinor w) j) s
      match r.1 with
      | some v => readbackStep j (readbackOut v r.2)
      | none => r.2

/-! ### Registers (R234) -/

/-- A write of CAL.CMD. -/
def opCalCmd (v : Word) (s : State) : State :=
  if fld v 35 24 = 0x6D1 ∧ v.getLsbD 0 then forAll (List.range 65) laneRestart s else s

/-- CAL.STATUS as it reads. -/
def calStatus (s : State) : Word :=
  setFld (setFld (s.reg Reg.calStatus) 7 6 (min 2 (mmRecent s).length)) 4 4 (fetchNext s).isSome.toNat

/-- CAL.POS of a lane. -/
def calPos (s : State) (lane : Nat) : Word :=
  let l := s.lane lane
  let a := l.a.vote
  let b := l.b.vote
  let pos := if l.beat.getLsbD 0 then b.pos.toNat + 1 else a.pos.toNat
  let hold := if lane < 64 ∧ s.getB (Reg.rgnStatus lane) 0 then 1 else if laneHeld s lane then 2 else if l.stalled then 3 else 0
  wd (a.pass.toNat <<< 20 ||| hold <<< 18 ||| pos % 2 ^ 18)

/-! ### Commands -/

def execScrubRead (lanes : List (Fin 65)) (s : State) : Host.Outcome State Fault Refusal := .next (opScrub (lanes.map Fin.val) s)

def execDoubleBitRepair (lane : Fin 65) (s : State) : Host.Outcome State Fault Refusal := .next (opRepair lane.val s)

def execRepairFetch (lane : Fin 65) (s : State) : Host.Outcome State Fault Refusal := .next (opRepairFetch lane.val s)

def execRepairFetchTimeout (lane : Fin 65) (s : State) : Host.Outcome State Fault Refusal := .next (opRepairTimeout lane.val s)

def execReadbackRead (s : State) : Host.Outcome State Fault Refusal := .next (opReadback s)

def execCalRestart (who : Req) (v : Word) (s : State) : Host.Outcome State Fault Refusal :=
  .next (gateW who Reg.calCmd (opCalCmd v) s)

end Sys2Proof.Machine
end

