-- ==== Sys2Proof/Machine/Disc.lean ====
section
/-! DEFINITION. The discovery controller: its messages (R303), the phases of a discovery (R304 to R309), routes (R308, R314), joining and
leaving (R310 to R314), and what happens at once (R316). -/

namespace Sys2Proof.Machine

open Crypto

/-! ### Messages (R303, R319) -/

/-- Fields of a width each, packed from bit 35 of the first word down. -/
def packMsg (fs : List (Nat × Nat)) : List Word :=
  let bits := (fs.map Prod.snd).sum
  let v := fs.foldl (fun a f => a * 2 ^ f.2 + f.1 % 2 ^ f.2) 0
  let n := (bits + 35) / 36
  (List.range n).map (fun i => wd ((v <<< (36 * n - bits)) >>> (36 * (n - 1 - i))))

/-- A discovery message on one link; one of more than 64 words goes as several packets. -/
def msgSend (p svc : Nat) (fs : List (Nat × Nat)) (s : State) : State :=
  let ws := packMsg fs
  if ws.isEmpty then meshSendLink p svc [] s
  else forAll (chunks 64 ws.length ws) (fun c => meshSendLink p svc c) s

/-- Ports on which discovery goes on: ACTIVE, and not a port that trains as a test. -/
def discPorts (s : State) : List Nat := (List.range 8).filter (fun p => s.link p == linkActive && !(s.port p).test)

/-- Ports with discovery messages other than HELLO (R309). -/
def msgPorts (s : State) : List Nat := (discPorts s).filter (fun p => !(s.port p).refused)

def nodePrio (s : State) : Nat := s.getF Reg.mshNodeCfg 27 20

/-- The fields of HELLO. A node without an address that asks for its last one names it with ADDR_VALID = 0. -/
def helloFields (s : State) (p : Nat) : List (Nat × Nat) :=
  let asked := if s.getB Reg.mshNodeCfg 0 then (s.mesh.disc.lastAddr.getD 0).toNat else 0
  [(Config.watermark.toNat, 64), (nodePrio s, 8), (s.addrValid.toNat, 1), (if s.addrValid then s.addr else asked, 10), (p, 3), (s.mstate, 3),
   (s.getF Reg.mshNodeStatus2 15 0, 16), (s.mesh.disc.rootWmark.toNat, 64), (s.mesh.disc.depth.toNat, 7)]

def helloTo (p : Nat) (s : State) : State := msgSend p 0x10 (helloFields s p) s

def linkFields (l : LsaLink) : List (Nat × Nat) := [(l.port.toNat, 3), (l.nbr.toNat, 10), (l.nbrPort.toNat, 3)]

def lsaFields (l : Lsa) : List (Nat × Nat) :=
  [(l.epoch.toNat, 16), (l.addr.toNat, 10), (l.depth.toNat, 7), (l.links.length, 4)] ++ l.links.flatMap linkFields

def echoFields (e : EchoEntry) : List (Nat × Nat) :=
  [(e.wmark.toNat, 64), (e.prio.toNat, 8), (e.reqValid.toNat, 1), (e.reqAddr.toNat, 10), (e.depth.toNat, 7)]

def setDisc (d : Disc) (s : State) : State := { s with mesh := { s.mesh with disc := d } }

/-- The EPOCH of the discovery under way, or of the last one. -/
def nowEpoch (s : State) : BitVec 16 := BitVec.ofNat 16 (s.getF Reg.mshNodeStatus2 15 0)

/-- `a` comes after `b`, modulo 2^16 with a window of 2^15 (R303). -/
def epochAfter (a b : BitVec 16) : Bool := decide (0 < (a - b).toNat) && decide ((a - b).toNat < 2 ^ 15)

/-! ### The mesh as LSAs show it -/

def lsaFind (ls : List Lsa) (a : Nat) : Option Lsa := ls.find? (fun l => l.addr.toNat == a)

/-- Links of a node that both of its ends report. -/
def liveLinks (ls : List Lsa) (a : Nat) : List LsaLink :=
  match lsaFind ls a with
  | none => []
  | some n => n.links.filter (fun l => match lsaFind ls l.nbr.toNat with
    | none => false
    | some m => m.links.any (fun k => k.nbr.toNat == a && k.port == l.nbrPort && k.nbrPort == l.port))

/-- Order of R308: (DEPTH, address). -/
def nodeKey (ls : List Lsa) (a : Nat) : Nat := (match lsaFind ls a with | some l => l.depth.toNat | none => 127) * 1024 + a

/-- The hop from `a` to `b` goes up. -/
def hopUp (ls : List Lsa) (a b : Nat) : Bool := decide (nodeKey ls b < nodeKey ls a)

/-- One more hop of legal routes; a place is 2 x address, plus 1 once a hop has gone down. -/
def legalNext (ls : List Lsa) (places : List Nat) : List Nat :=
  places.flatMap (fun x => (liveLinks ls (x / 2)).filterMap (fun l =>
    let up := hopUp ls (x / 2) l.nbr.toNat
    if up ∧ x % 2 = 1 then none else some (2 * l.nbr.toNat + (!up).toNat)))

/-- One more hop of any path. -/
def anyNext (ls : List Lsa) (places : List Nat) : List Nat := places.flatMap (fun x => (liveLinks ls x).map (fun l => l.nbr.toNat))

/-- Breadth-first search: every place reached with its number of hops. -/
def reach (next : List Nat → List Nat) : Nat → Nat → List Nat → List Nat → List (Nat × Nat)
  | 0, _, _, _ => []
  | fuel + 1, d, front, seen =>
    if front.isEmpty then []
    else
      let n := ((next front).filter (fun x => !seen.contains x)).eraseDups
      front.map (fun x => (x, d)) ++ reach next fuel (d + 1) n (seen ++ n)

/-- Diameter of a mesh, over the shortest paths of its nodes. -/
def meshDiam (ls : List Lsa) : Nat :=
  ls.foldl (fun m l => (reach (anyNext ls) 1024 0 [l.addr.toNat] [l.addr.toNat]).foldl (fun m e => max m e.2) m) 0

/-- The node that is refused next: greatest DEPTH, then the highest address, which stands for the highest Watermark, since an LSA carries
none (R309). -/
def refuseNext (ls : List Lsa) : Option Lsa :=
  ls.foldl (fun b l => match b with
    | none => some l
    | some m => if m.depth.toNat * 1024 + m.addr.toNat < l.depth.toNat * 1024 + l.addr.toNat then some l else some m) none

/-- Nodes refused until the diameter of the rest is 64 or less, and the diameter each would make (R309). -/
def refuseAll : Nat → List Lsa → List (BitVec 10 × Nat)
  | 0, _ => []
  | fuel + 1, ls =>
    let d := meshDiam ls
    if d ≤ 64 then []
    else match refuseNext ls with
    | none => []
    | some r => (r.addr, d) :: refuseAll fuel (ls.filter (fun l => l.addr != r.addr))

/-- Hops of the legal routes that begin with a link of this node: port, whether it goes up, and places with their hops. -/
structure FirstHop where
  port : Nat
  up : Bool
  far : List (Nat × Nat)

def firstHops (ls : List Lsa) (me : Nat) : List FirstHop :=
  (liveLinks ls me).map (fun l =>
    let up := hopUp ls me l.nbr.toNat
    let start := 2 * l.nbr.toNat + (!up).toNat
    { port := l.port.toNat, up := up, far := reach (legalNext ls) 1024 1 [start] [start] })

def hopsTo (f : FirstHop) (a : Nat) : Option Nat := (f.far.find? (fun e => e.1 / 2 == a)).map Prod.snd

/-- The shortest legal route; ties go to the lower-numbered port (R308). -/
def bestRoute (fs : List FirstHop) (a : Nat) : Option (Nat × Nat × Bool) :=
  fs.foldl (fun b f => match hopsTo f a with
    | none => b
    | some h => match b with
      | none => some (h, f.port, f.up)
      | some m => if h < m.1 ∨ (h = m.1 ∧ f.port < m.2.1) then some (h, f.port, f.up) else b) none

def routeWord (r : Nat × Nat × Bool) : Word := wd (2 <<< 34 ||| r.2.1 <<< 31 ||| r.2.2.toNat <<< 30 ||| min r.1 127 <<< 23)

/-- The entry still begins a legal route of its length (R312, R314). -/
def routeHolds (fs : List FirstHop) (a : Nat) (w : Word) : Bool :=
  fld w 35 34 == 2 && fs.any (fun f => f.port == fld w 33 31 && f.up == w.getLsbD 30 && hopsTo f a == some (fld w 29 23))

/-! ### LSAs of this node -/

/-- This node's LSA as its links stand. -/
def ownLsa (s : State) : Lsa :=
  { epoch := nowEpoch s, addr := BitVec.ofNat 10 s.addr, depth := s.mesh.disc.depth,
    links := ((discPorts s).filter (fun p => s.getB (Reg.mshPStatus p) 25 && !(s.port p).refused)).map (fun p =>
      { port := BitVec.ofNat 3 p, nbr := BitVec.ofNat 10 (s.getF (Reg.mshPStatus p) 35 26), nbrPort := BitVec.ofNat 3 (s.getF (Reg.mshPStatus p) 24 22) }) }

/-- Keep an LSA in place of an older one of its node. -/
def lsaStore (l : Lsa) (s : State) : State :=
  setDisc { s.mesh.disc with lsas := l :: s.mesh.disc.lsas.filter (fun k => k.addr != l.addr) } s

def lsaFlood (except : Option Nat) (l : Lsa) (s : State) : State :=
  forAll ((msgPorts s).filter (fun p => except != some p)) (fun p => msgSend p 0x14 (lsaFields l)) s

/-- Flood this node's LSA if it has an address in this mesh and the LSA has changed (R303, R314). -/
def lsaRefresh (s : State) : State :=
  let l := ownLsa s
  if s.addrValid ∧ s.mesh.disc.count ≠ 0 ∧ (s.mstate = 1 ∨ s.mstate = 2) ∧ lsaFind s.mesh.disc.lsas s.addr ≠ some l then
    let s := lsaFlood none l (lsaStore l s)
    setDisc { s.mesh.disc with installed := false } s
  else s

/-! ### Election (R304, R305) -/

/-- Send the candidate on every link but the parent's. -/
def electFlood (s : State) : State :=
  let d := s.mesh.disc
  forAll ((msgPorts s).filter (fun p => d.parent.map Fin.val != some p)) (fun p =>
    msgSend p 0x11 [((nowEpoch s).toNat, 16), (d.candPrio.toNat, 8), (d.candWmark.toNat, 64), (d.dist.toNat, 7)]) s

/-- The node takes an EPOCH: it is its own candidate, and what an earlier discovery collected is dropped. -/
def epochTake (e : BitVec 16) (s : State) : State :=
  let d := s.mesh.disc
  let s := setDisc { d with
    epoch := if epochAfter e d.epoch then e else d.epoch,
    candPrio := BitVec.ofNat 8 (nodePrio s), candWmark := Config.watermark, dist := 0, parent := none, elects := [], children := [],
    entries := [], absent := [], echoed := false, isRoot := false, depth := 0, doneFrom := [], doneSent := false, assigned := [], lsas := [],
    count := 0, installed := false, refusedSet := [], joining := false, joinFrom := [] } s
  let s := (s.setF Reg.mshNodeStatus2 15 0 e.toNat).setF Reg.mshNodeStatus 35 33 1
  let s := forAll (List.range 8) (fun p s => if (s.port p).refused then s.setPort p { s.port p with refused := false } else s) s
  electFlood s

/-- Start a discovery: E605 with its cause (R304). A node that is alone starts none (R310). -/
def discStart (cause : Nat) (s : State) : State :=
  if (discPorts s).isEmpty then s
  else
    let e := s.mesh.disc.epoch + 1
    raise 0x605 0 (cause <<< 16 ||| e.toNat) (epochTake e s)

/-- A message of an EPOCH: a later one is taken, an earlier one is ignored (R304); whether it belongs to the discovery under way. -/
def epochMeet (e : BitVec 16) (s : State) : Bool × State :=
  if epochAfter e (nowEpoch s) then (true, epochTake e s) else (e == nowEpoch s && s.mstate == 1, s)

/-- Ports whose answer is awaited: no ELECT that names this candidate, no ECHO, not absent. A neighbour floods the candidate on every link
but its parent's, so an ELECT that names it comes from a node that is not a child. -/
def echoWaits (s : State) : List Nat :=
  let d := s.mesh.disc
  (msgPorts s).filter (fun p =>
    d.parent.map Fin.val != some p && !d.children.any (fun c => c.val == p) && !d.absent.any (fun c => c.val == p) &&
    !d.elects.any (fun e => e.1.val == p && e.2.1 == d.candPrio && e.2.2.1 == d.candWmark))

/-- This node's own entry. -/
def ownEntry (s : State) : EchoEntry :=
  { wmark := Config.watermark, prio := BitVec.ofNat 8 (nodePrio s), reqValid := s.getB Reg.mshNodeCfg 0 && s.mesh.disc.lastAddr.isSome,
    reqAddr := s.mesh.disc.lastAddr.getD 0, depth := s.mesh.disc.dist }

/-! ### Addresses (R307) -/

/-- The address is free, and not reserved for another Watermark. -/
def addrFree (given reserved : List AssignEntry) (w : BitVec 64) (a : BitVec 10) : Bool :=
  !given.any (fun e => e.addr == a) && !reserved.any (fun e => e.addr == a && e.wmark != w)

/-- The lowest free address that is not reserved. -/
def addrLowest (given reserved : List AssignEntry) : Option (BitVec 10) :=
  ((List.range 1024).map (BitVec.ofNat 10)).find? (fun a => !given.any (fun e => e.addr == a) && !reserved.any (fun e => e.addr == a))

/-- Step 1: requests in ascending (PRIO, Watermark) order. -/
def addrStep1 (reserved : List AssignEntry) (es : List EchoEntry) : List AssignEntry :=
  let key := fun (e : EchoEntry) => e.prio.toNat * 2 ^ 64 + e.wmark.toNat
  ((es.filter (fun e => e.reqValid)).mergeSort (fun a b => key a ≤ key b)).foldl (fun g e =>
    if addrFree g reserved e.wmark e.reqAddr then g ++ [{ wmark := e.wmark, addr := e.reqAddr }] else g) []

/-- Step 2: every other node in ascending (DEPTH, Watermark) order. -/
def addrAssign (reserved : List AssignEntry) (es : List EchoEntry) : List AssignEntry :=
  let given := addrStep1 reserved es
  let key := fun (e : EchoEntry) => e.depth.toNat * 2 ^ 64 + e.wmark.toNat
  ((es.filter (fun e => !given.any (fun g => g.wmark == e.wmark))).mergeSort (fun a b => key a ≤ key b)).foldl (fun g e =>
    match addrLowest g reserved with
    | some a => g ++ [{ wmark := e.wmark, addr := a }]
    | none => g) given

/-- The node takes an address; a request that is not honoured raises E607. -/
def addrTake (a : BitVec 10) (s : State) : State :=
  let e := ownEntry s
  let s := (s.setF Reg.mshNodeStatus 31 22 a.toNat).setB Reg.mshNodeStatus 32 true
  let s := setDisc { s.mesh.disc with lastAddr := some a } s
  if e.reqValid ∧ e.reqAddr ≠ a then raise 0x607 0 (a.toNat <<< 10 ||| e.reqAddr.toNat) s else s

/-- ASSIGN to each child: the entries of its subtree. -/
def assignDown (count : Nat) (given : List AssignEntry) (s : State) : State :=
  forAll s.mesh.disc.children (fun c s =>
    let sub := s.mesh.disc.entries.filterMap (fun e => if e.1 = c then given.find? (fun g => g.wmark == e.2.wmark) else none)
    msgSend c.val 0x13 ([((nowEpoch s).toNat, 16), (count, 11)] ++ sub.flatMap (fun g => [(g.wmark.toNat, 64), (g.addr.toNat, 10)])) s) s

/-- The address wave at a node: its own address, its children's, its LSA. -/
def addressed (count : Nat) (given : List AssignEntry) (s : State) : State :=
  match given.find? (fun g => g.wmark == Config.watermark) with
  | none => s
  | some g =>
    let d := s.mesh.disc
    let s := setDisc { d with count := count, depth := d.dist, rootWmark := d.candWmark } (addrTake g.addr s)
    lsaRefresh (assignDown count given s)

/-- The root has every entry. -/
def rootAssign (s : State) : State :=
  let d := s.mesh.disc
  let es := ownEntry s :: d.entries.map Prod.snd
  let given := addrAssign d.reserved es
  let kept := d.reserved.filter (fun r => !given.any (fun g => g.addr == r.addr))
  addressed es.length given (setDisc { d with isRoot := true, echoed := true, assigned := given, reserved := kept } s)

/-- Answer the parent once every child has answered; the candidate that every child has answered is the root. -/
def echoCheck (s : State) : State :=
  let d := s.mesh.disc
  if s.mstate ≠ 1 ∨ d.echoed ∨ !(echoWaits s).isEmpty then s
  else match d.parent with
  | some p =>
    let es := ownEntry s :: d.entries.map Prod.snd
    msgSend p.val 0x12 ([((nowEpoch s).toNat, 16), (es.length, 11)] ++ es.flatMap echoFields) (setDisc { d with echoed := true } s)
  | none => if (discPorts s).isEmpty then s else rootAssign s

/-- The parent's Watermark. -/
def parentWmark (s : State) : Nat :=
  match s.mesh.disc.parent with
  | some p => (s.port p.val).nbrWmark.toNat
  | none => 0

/-- An ELECT (R305): a better candidate, or the same nearer, is taken and flooded; the same as near goes to the lower Watermark. -/
def electTake (p : Fin 8) (prio : BitVec 8) (w : BitVec 64) (dist : BitVec 7) (s : State) : State :=
  let d := s.mesh.disc
  let s := setDisc { d with elects := (p, prio, w, dist) :: d.elects.filter (fun e => e.1 != p) } s
  let new := prio.toNat * 2 ^ 64 + w.toNat
  let old := d.candPrio.toNat * 2 ^ 64 + d.candWmark.toNat
  let better := decide (new < old) || (new == old && decide (dist.toNat + 1 < d.dist.toNat))
  let tie := new == old && dist.toNat + 1 == d.dist.toNat && !d.echoed && decide ((s.port p.val).nbrWmark.toNat < parentWmark s)
  if better then
    echoCheck (electFlood (setDisc { s.mesh.disc with
      candPrio := prio, candWmark := w, dist := dist + 1, parent := some p, children := [], entries := [], echoed := false } s))
  else if tie then echoCheck (electFlood (setDisc { s.mesh.disc with parent := some p } s))
  else echoCheck s

def opElect (p : Fin 8) (e : BitVec 16) (prio : BitVec 8) (w : BitVec 64) (dist : BitVec 7) (s : State) : State :=
  if s.link p.val ≠ linkActive then s
  else
    let r := epochMeet e s
    if r.1 then electTake p prio w dist r.2 else r.2

def opEcho (p : Fin 8) (e : BitVec 16) (es : List EchoEntry) (s : State) : State :=
  if s.link p.val ≠ linkActive then s
  else
    let r := epochMeet e s
    let s := r.2
    let d := s.mesh.disc
    if !r.1 ∨ d.children.contains p ∨ d.echoed then s
    else echoCheck (setDisc { d with children := d.children ++ [p], entries := d.entries ++ es.map (fun x => (p, x)) } s)

def opAssign (p : Fin 8) (e : BitVec 16) (count : BitVec 11) (given : List AssignEntry) (s : State) : State :=
  if s.link p.val ≠ linkActive then s
  else
    let r := epochMeet e s
    if r.1 ∧ r.2.mesh.disc.parent = some p ∧ r.2.mesh.disc.count = 0 then addressed count.toNat given r.2 else r.2

/-! ### Topology (R305, R314) -/

/-- A received LSA: one that is new or changed is kept and passed on; in a ready mesh the routes are recomputed. -/
def opLsa (p : Fin 8) (l : Lsa) (s : State) : State :=
  if s.link p.val ≠ linkActive then s
  else
    let s := if epochAfter l.epoch (nowEpoch s) then epochTake l.epoch s else s
    if l.epoch ≠ nowEpoch s ∨ lsaFind s.mesh.disc.lsas l.addr.toNat = some l ∨ (s.addrValid ∧ l.addr.toNat = s.addr ∧ s.mesh.disc.count ≠ 0) then s
    else
      let s := lsaFlood (some p.val) l (lsaStore l s)
      setDisc { s.mesh.disc with installed := false } s

/-! ### Ready (R306) -/

/-- The neighbour across the up link with the lowest (DEPTH, address) (R335). -/
def timeSource (s : State) : Option Nat :=
  let ls := s.mesh.disc.lsas
  let me := nodeKey ls s.addr
  let key := fun p => nodeKey ls (s.getF (Reg.mshPStatus p) 35 26)
  ((msgPorts s).filter (fun p => s.getB (Reg.mshPStatus p) 25 && decide (key p < me))).foldl (fun b p =>
    match b with
    | none => some p
    | some q => if key p < key q then some p else b) none

/-- At READY the root is the reference of mesh time; every other node takes its source (R335). -/
def timeReady (s : State) : State :=
  let root := s.mesh.disc.isRoot
  let s := (s.setB Reg.mshTimeStatus 33 root).setF Reg.mshTimeStatus 28 19 (s.getF Reg.mshNodeStatus 21 12)
  let s := match timeSource s with
    | some p => s.setF Reg.mshTimeStatus 31 29 p
    | none => s
  let s := if root then (s.setB Reg.mshTimeStatus 35 false).setB Reg.mshTimeStatus 34 false else s
  { s with mesh := { s.mesh with firstEx := true, good := 0, missed := 0 },
           evt := { s.evt with meshTime := root || s.getB Reg.mshTimeStatus 35 } }

/-- The node is ready: E606, and E60B where the root is not that of the previous READY (R306, R317). -/
def becomeReady (root count diam : Nat) (s : State) : State :=
  let d := s.mesh.disc
  let s := ((s.setF Reg.mshNodeStatus 35 33 2).setF Reg.mshNodeStatus 21 12 root).setF Reg.mshNodeStatus 6 0 diam
  let s := s.setF Reg.mshNodeStatus2 26 16 count
  let s := timeReady (setDisc { d with count := count, diam := BitVec.ofNat 7 diam, prevRoot := some d.rootWmark, joining := false } s)
  let s := raise 0x606 0 (d.isRoot.toNat <<< 27 ||| diam <<< 20 ||| (count - 1) <<< 10 ||| s.addr) s
  if d.prevRoot.isSome ∧ d.prevRoot ≠ some d.rootWmark then
    raise 0x60B 0 ((nowEpoch s).toNat <<< 10 ||| root) s
  else s

/-- READY down the tree. -/
def readyDown (root count diam : Nat) (s : State) : State :=
  forAll s.mesh.disc.children (fun c s =>
    msgSend c.val 0x16 [((nowEpoch s).toNat, 16), (root, 10), (count, 11), (diam, 7)] s) s

/-- DONE to the parent, or READY from the root, once the subtree has installed its tables (R305). -/
def doneCheck (s : State) : State :=
  let d := s.mesh.disc
  if s.mstate ≠ 1 ∨ !d.installed ∨ d.doneSent ∨ !d.children.all (fun c => d.doneFrom.contains c || d.absent.contains c) then s
  else
    let s := setDisc { d with doneSent := true } s
    match d.parent with
    | some p => msgSend p.val 0x15 [((nowEpoch s).toNat, 16), (d.diam.toNat, 7)] s
    | none => becomeReady s.addr d.count d.diam.toNat (readyDown s.addr d.count d.diam.toNat s)

def opDone (p : Fin 8) (e : BitVec 16) (s : State) : State :=
  if s.link p.val ≠ linkActive ∨ e ≠ nowEpoch s ∨ s.mstate ≠ 1 then s
  else doneCheck (setDisc { s.mesh.disc with doneFrom := p :: s.mesh.disc.doneFrom } s)

def opReady (p : Fin 8) (e : BitVec 16) (root : BitVec 10) (count : BitVec 11) (diam : BitVec 7) (s : State) : State :=
  if s.link p.val ≠ linkActive ∨ e ≠ nowEpoch s ∨ s.mstate ≠ 1 ∨ s.mesh.disc.parent ≠ some p ∨ !s.mesh.disc.installed then s
  else becomeReady root.toNat count.toNat diam.toNat (readyDown root.toNat count.toNat diam.toNat s)

/-! ### Routes (R308, R309, R314) -/

/-- The addresses of a mesh. -/
def meshAddrs : List Nat := List.range 1024

/-- The entry of address `a`: this node, the best route, or none; a reserved address keeps its entry (R314). -/
def tableEntry (fs : List FirstHop) (a : Nat) (s : State) : State :=
  if a = s.addr then s.setReg (Reg.mshNht a) (wd (1 <<< 34))
  else match bestRoute fs a with
  | some r => s.setReg (Reg.mshNht a) (routeWord r)
  | none => if s.mesh.disc.reserved.any (fun e => e.addr.toNat == a) then s else s.setReg (Reg.mshNht a) 0

/-- Entries of the whole table, from LSAs without the refused nodes. -/
def tableFull (ls : List Lsa) (s : State) : State := forAll meshAddrs (tableEntry (firstHops ls s.addr)) s

/-- Refused: the node releases its address (R309). -/
def nodeRefused (diam : Nat) (s : State) : State :=
  let s := ((s.setF Reg.mshNodeStatus 35 33 3).setB Reg.mshNodeStatus 32 false).setF Reg.mshNodeStatus 31 22 0
  let s := forAll meshAddrs (fun a s => s.setReg (Reg.mshNht a) 0) s
  raise 0x608 0 (1 <<< 7 ||| diam % 128) s

/-- Neighbours that are refused. -/
def refusedPorts (refused : List (BitVec 10)) (s : State) : State :=
  forAll (discPorts s) (fun p s =>
    if s.getB (Reg.mshPStatus p) 25 && refused.any (fun a => a.toNat == s.getF (Reg.mshPStatus p) 35 26) then
      s.setPort p { s.port p with refused := true } else s) s

/-- The table of a discovery, or of a node that joins. -/
def routesFirst (s : State) : State :=
  let d := s.mesh.disc
  let refused := if d.joining then [] else refuseAll 1024 d.lsas
  match refused.find? (fun r => r.1.toNat == s.addr) with
  | some r => nodeRefused r.2 s
  | none =>
    let gone := refused.map Prod.fst
    let ls := d.lsas.filter (fun l => !gone.contains l.addr)
    let s := tableFull ls (refusedPorts gone s)
    let diam := meshDiam ls
    let s := setDisc { s.mesh.disc with installed := true, diam := BitVec.ofNat 7 diam, refusedSet := gone } s
    if d.joining then
      let root := match d.lsas.find? (fun l => l.depth == 0) with | some l => l.addr.toNat | none => 0
      raise 0x609 0 s.addr (becomeReady root d.count diam s)
    else doneCheck s

/-- A node that no link reaches any more has departed: its address is reserved (R314). -/
def nodeDeparts (a : Nat) (s : State) : State :=
  let d := s.mesh.disc
  let hold := max 1 (s.getF Reg.mshNodeCfg 19 4)
  let e := d.assigned.find? (fun e => e.addr.toNat == a)
  let s := s.setReg (Reg.mshNht a) (wd (3 <<< 34 ||| hold))
  let back : AssignEntry := e.getD { wmark := 0, addr := BitVec.ofNat 10 a }
  let s := setDisc { d with
    reserved := d.reserved ++ [back],
    assigned := d.assigned.filter (fun e => e.addr.toNat != a), lsas := d.lsas.filter (fun l => l.addr.toNat != a),
    departed := (BitVec.ofNat 10 a, s.evt.time) :: d.departed.filter (fun e => e.1.toNat != a) } s
  if d.isRoot then raise 0x60A 0 a s else s

/-- An entry whose first hop still begins a legal route of its length is kept (R312). -/
def routeKeep (fs : List FirstHop) (a : Nat) (s : State) : State :=
  if routeHolds fs a (s.reg (Reg.mshNht a)) then s
  else match bestRoute fs a with
  | some r => s.setReg (Reg.mshNht a) (routeWord r)
  | none => s

/-- The routes that a change in a ready mesh concerns (R311, R312, R314). -/
def routesAgain (s : State) : State :=
  let ls := s.mesh.disc.lsas
  let fs := firstHops ls s.addr
  let known := meshAddrs.filter (fun a => a != s.addr && (s.getF (Reg.mshNht a) 35 34 == 2 || (lsaFind ls a).isSome))
  let gone := known.filter (fun a => (liveLinks ls a).isEmpty)
  let stay := known.filter (fun a => !(liveLinks ls a).isEmpty)
  let rootGone := gone.contains (s.getF Reg.mshNodeStatus 21 12)
  let cut := stay.any (fun a => (bestRoute fs a).isNone)
  let s := forAll stay (routeKeep fs) s
  let s := forAll (gone.filter (fun a => s.getF (Reg.mshNht a) 35 34 == 2)) nodeDeparts s
  let s := setDisc { s.mesh.disc with installed := true, count := s.mesh.disc.lsas.length } s
  let s := s.setF Reg.mshNodeStatus2 26 16 s.mesh.disc.lsas.length
  if rootGone ∨ cut then discStart 4 s else s

/-- The computation of routes ends (R305, R314). -/
def opRoutes (s : State) : State :=
  let d := s.mesh.disc
  if d.installed ∨ !s.addrValid then s
  else if s.mstate = 2 then routesAgain s
  else if s.mstate = 1 ∧ d.count ≠ 0 ∧ d.lsas.length = d.count then routesFirst s
  else s

/-! ### Joining and leaving (R311 to R314) -/

/-- The graph with a newcomer and its links, both ends. -/
def withNode (l : Lsa) (ls : List Lsa) : List Lsa :=
  l :: ls.map (fun m =>
    { m with links := m.links ++ (l.links.filter (fun k => k.nbr == m.addr)).map (fun k => { port := k.nbrPort, nbr := l.addr, nbrPort := k.port }) })

/-- Send a newcomer's answer toward it, and to the newcomer itself every LSA. -/
def joinReply (q svc : Nat) (fs : List (Nat × Nat)) (s : State) : State :=
  let fresh := (s.port q).nbrState != 2
  let s := msgSend q svc fs s
  if !fresh then s
  else if svc = 0x18 then forAll s.mesh.disc.lsas (fun l => msgSend q 0x14 (lsaFields l)) s
  else s.setPort q { s.port q with refused := true }

/-- The root serves a JOIN (R311). -/
def joinServe (q : Nat) (h : Hello) (req : Option (BitVec 10)) (links : List LsaLink) (s : State) : State :=
  let d := s.mesh.disc
  let asked := match req with
    | some a => if addrFree d.assigned d.reserved h.wmark a then some a else none
    | none => none
  match (match asked with | some a => some a | none => addrLowest d.assigned d.reserved) with
  | none => s
  | some a =>
    let depth := 1 + links.foldl (fun m l => match lsaFind d.lsas l.nbr.toNat with | some n => min m n.depth.toNat | none => m) 126
    let diam := meshDiam (withNode { epoch := nowEpoch s, addr := a, depth := BitVec.ofNat 7 depth, links := links } d.lsas)
    if 64 < diam then raise 0x608 0 (diam % 128) (joinReply q 0x19 [(diam, 7)] s)
    else
      let given := d.assigned.filter (fun e => e.wmark != h.wmark) ++ [{ wmark := h.wmark, addr := a }]
      let s := setDisc { d with assigned := given, reserved := d.reserved.filter (fun e => e.wmark != h.wmark && e.addr != a),
                                count := d.count + 1 } s
      let s := s.setF Reg.mshNodeStatus2 26 16 (d.count + 1)
      raise 0x609 0 a.toNat (joinReply q 0x18 [(a.toNat, 10), (d.rootWmark.toNat, 64), ((nowEpoch s).toNat, 16), (d.count + 1, 11)] s)

def joinFields (h : Hello) (links : List LsaLink) : List (Nat × Nat) :=
  [(h.wmark.toNat, 64), (h.prio.toNat, 8), (h.addrValid.toNat, 1), (h.addr.toNat, 10), (h.port.toNat, 3), (h.state.toNat, 3),
   (h.epoch.toNat, 16), (h.rootWmark.toNat, 64), (h.depth.toNat, 7), (links.length, 4)] ++ links.flatMap linkFields

/-- A JOIN at a ready node: the root serves it, another passes it toward the root; during a discovery it is dropped (R311, R316). The
address of the HELLO fields is the address that the newcomer asks for. -/
def joinAt (p : Nat) (h : Hello) (links : List LsaLink) (s : State) : State :=
  if s.mstate ≠ 2 then s
  else if s.mesh.disc.isRoot then joinServe p h (if h.addrValid ∨ h.addr ≠ 0 then some h.addr else none) links s
  else
    let s := setDisc { s.mesh.disc with joinFrom := s.mesh.disc.joinFrom ++ [Fin.ofNat 8 p] } s
    msgSend (s.getF (Reg.mshNht (s.getF Reg.mshNodeStatus 21 12)) 33 31) 0x17 (joinFields h links) s

def opJoin (p : Fin 8) (h : Hello) (links : List LsaLink) (s : State) : State :=
  if s.link p.val = linkActive then joinAt p.val h links s else s

/-- JOIN_ACK at the newcomer: address, then LSA, then routes once it has every LSA. A ready node passes it on. -/
def opJoinAck (p : Fin 8) (a : BitVec 10) (root : BitVec 64) (e : BitVec 16) (count : BitVec 11) (s : State) : State :=
  let d := s.mesh.disc
  if s.link p.val ≠ linkActive then s
  else if s.mstate = 2 then
    match d.joinFrom with
    | [] => s
    | q :: rest => joinReply q.val 0x18 [(a.toNat, 10), (root.toNat, 64), (e.toNat, 16), (count.toNat, 11)] (setDisc { d with joinFrom := rest } s)
  else if s.mstate = 1 then s
  else
    let near := (discPorts s).foldl (fun m q => if (s.port q).nbrState = 2 then min m (s.port q).nbrDepth.toNat else m) 126
    let s := (s.setF Reg.mshNodeStatus2 15 0 e.toNat).setF Reg.mshNodeStatus 35 33 1
    let s := setDisc { d with epoch := if epochAfter e d.epoch then e else d.epoch, count := count.toNat, depth := BitVec.ofNat 7 (near + 1),
                              rootWmark := root, parent := some p, children := [], entries := [], lsas := [], isRoot := false, echoed := true,
                              installed := false, joining := true } s
    lsaRefresh (addrTake a s)

/-- REFUSE at the newcomer, or passed on toward it. -/
def opRefuse (p : Fin 8) (diam : BitVec 7) (s : State) : State :=
  let d := s.mesh.disc
  if s.link p.val ≠ linkActive then s
  else if s.mstate = 2 then
    match d.joinFrom with
    | [] => s
    | q :: rest => joinReply q.val 0x19 [(diam.toNat, 7)] (setDisc { d with joinFrom := rest } s)
  else if s.mstate = 1 then s
  else nodeRefused diam.toNat s

/-- What the first HELLO on a link starts (R304, R311, R312). -/
def helloFirst (p : Fin 8) (h : Hello) (s : State) : State :=
  let d := s.mesh.disc
  let merge := h.rootWmark ≠ 0 ∧ d.rootWmark ≠ 0 ∧ h.rootWmark ≠ d.rootWmark
  let link : LsaLink := { port := h.port, nbr := BitVec.ofNat 10 s.addr, nbrPort := BitVec.ofNat 3 p.val }
  if s.mstate = 1 then (if h.state = 2 ∧ (merge ∨ !epochAfter (nowEpoch s) h.epoch) then discStart (if merge then 3 else 2) s else s)
  else if h.state = 1 ∨ h.state = 3 ∨ s.mstate = 3 then s
  else if merge then discStart 3 s
  else if s.mstate = 2 then (if h.state = 2 then s else joinAt p.val h [link] s)
  else if h.state = 2 then s
  else discStart 1 s

/-- A received HELLO (R303, R304). -/
def opHello (p : Fin 8) (h : Hello) (s : State) : State :=
  if s.link p.val ≠ linkActive ∨ (s.port p.val).test then s
  else
    let first := !(s.port p.val).heard
    let q := { s.port p.val with heard := true, nbrWmark := h.wmark, nbrPrio := h.prio, nbrState := h.state, nbrRoot := h.rootWmark,
                                 nbrDepth := h.depth, refused := h.state == 3 || ((s.port p.val).refused && !first) }
    let r := Reg.mshPStatus p.val
    let s := (s.setPort p.val q).setReg r (setFld (setFld (setFld (s.reg r) 35 26 (if h.addrValid then h.addr.toNat else 0)) 25 25 h.addrValid.toNat) 24 22 h.port.toNat)
    let s := setDisc { s.mesh.disc with epoch := if epochAfter h.epoch s.mesh.disc.epoch then h.epoch else s.mesh.disc.epoch } s
    let s := if first then helloFirst p h (helloTo p.val s) else s
    lsaRefresh s

/-- HELLO on every link; a change of this node's links that has not been flooded is flooded with it (R314). -/
def opHelloSend (s : State) : State := lsaRefresh (forAll (discPorts s) helloTo s)

/-- A port has become ACTIVE (R304 cause 2, R303). -/
def discActive (p : Nat) (s : State) : State :=
  let s := helloTo p s
  if s.mstate = 1 then discStart 2 s else s

/-- A link has ended (R314, R316). -/
def discLost (s : State) : State := lsaRefresh s

/-- A function's stop completes; each end of a link that a stopped port ended floods an LSA without it (R46, R314). -/
def opFnStopped (f : Func) (s : State) : State :=
  match f with
  | .mesh _ => discLost (opStopDone f s)
  | _ => opStopDone f s

/-- A node waiting on a lost or silent neighbour takes it as absent; a root that loses a child of its tree starts again (R316). -/
def opNbrTimeout (p : Fin 8) (s : State) : State :=
  let d := s.mesh.disc
  if s.mstate ≠ 1 then s
  else if d.isRoot ∧ d.children.contains p ∧ s.link p.val ≠ linkActive then discStart 4 s
  else doneCheck (echoCheck (setDisc { d with absent := p :: d.absent } s))

/-- A reservation lapses (R314). -/
def opHoldExpiry (a : BitVec 10) (s : State) : State :=
  let d := s.mesh.disc
  let s := setDisc { d with reserved := d.reserved.filter (fun e => e.addr != a), departed := d.departed.filter (fun e => e.1 != a) } s
  if s.getF (Reg.mshNht a.toNat) 35 34 = 3 then s.setReg (Reg.mshNht a.toNat) 0 else s

/-- A next-hop entry as it reads: HOLD of a departed node is what is left of ADDR_HOLD (R340). -/
def nhtRead (s : State) (a : Nat) : Word :=
  let w := s.reg (Reg.mshNht a)
  if fld w 35 34 ≠ 3 then w
  else match s.mesh.disc.departed.find? (fun e => e.1.toNat == a) with
  | none => w
  | some e => setFld w 15 0 (fld w 15 0 - (s.evt.time - e.2).toNat / 10000000)

/-- MSH.CMD (R340). -/
def opMshCmd (v : Word) (s : State) : State := if fld v 35 24 = 0x6D1 ∧ v.getLsbD 0 then discStart 5 s else s

/-! ### Commands -/

def execFunctionStopComplete (f : Func) (s : State) : Host.Outcome State Fault Refusal := .next (opFnStopped f s)

def execHelloSend (s : State) : Host.Outcome State Fault Refusal := .next (opHelloSend s)

def execHello (p : Fin 8) (h : Hello) (s : State) : Host.Outcome State Fault Refusal := .next (opHello p h (inboxTake 0x10 s))

def execResurvey (who : Req) (v : Word) (s : State) : Host.Outcome State Fault Refusal := .next (gateW who Reg.mshCmd (opMshCmd v) s)

def execElect (p : Fin 8) (epoch : BitVec 16) (prio : BitVec 8) (wmark : BitVec 64) (dist : BitVec 7) (s : State) :
    Host.Outcome State Fault Refusal := .next (opElect p epoch prio wmark dist (inboxTake 0x11 s))

def execEcho (p : Fin 8) (epoch : BitVec 16) (entries : List EchoEntry) (s : State) : Host.Outcome State Fault Refusal :=
  .next (opEcho p epoch entries (inboxTake 0x12 s))

def execAssign (p : Fin 8) (epoch : BitVec 16) (count : BitVec 11) (entries : List AssignEntry) (s : State) :
    Host.Outcome State Fault Refusal := .next (opAssign p epoch count entries (inboxTake 0x13 s))

def execLsa (p : Fin 8) (l : Lsa) (s : State) : Host.Outcome State Fault Refusal := .next (opLsa p l (inboxTake 0x14 s))

def execRouteComputationComplete (s : State) : Host.Outcome State Fault Refusal := .next (opRoutes s)

def execDone (p : Fin 8) (epoch : BitVec 16) (_diam : BitVec 7) (s : State) : Host.Outcome State Fault Refusal :=
  .next (opDone p epoch (inboxTake 0x15 s))

def execReady (p : Fin 8) (epoch : BitVec 16) (root : BitVec 10) (count : BitVec 11) (diam : BitVec 7) (s : State) :
    Host.Outcome State Fault Refusal := .next (opReady p epoch root count diam (inboxTake 0x16 s))

def execJoin (p : Fin 8) (h : Hello) (links : List LsaLink) (s : State) : Host.Outcome State Fault Refusal :=
  .next (opJoin p h links (inboxTake 0x17 s))

def execJoinAck (p : Fin 8) (addr : BitVec 10) (rootWmark : BitVec 64) (epoch : BitVec 16) (count : BitVec 11) (s : State) :
    Host.Outcome State Fault Refusal := .next (opJoinAck p addr rootWmark epoch count (inboxTake 0x18 s))

def execRefuse (p : Fin 8) (diam : BitVec 7) (s : State) : Host.Outcome State Fault Refusal := .next (opRefuse p diam (inboxTake 0x19 s))

def execDiscoveryNeighbourTimeout (p : Fin 8) (s : State) : Host.Outcome State Fault Refusal := .next (opNbrTimeout p s)

def execAddrHoldExpiry (addr : BitVec 10) (s : State) : Host.Outcome State Fault Refusal := .next (opHoldExpiry addr s)

end Sys2Proof.Machine
end

