-- ==== Sys2Proof/Machine/Links.lean ====
section
/-! DEFINITION. Mesh links: calibration and training (R294, R297, R298), link words, acknowledgement, credits and replay (R299 to R303), and
the loss of a link (R313). -/

namespace Sys2Proof.Machine

open Crypto

/-! ### Link words (R300) -/

/-- An ACK or CREDIT word that checks. -/
def linkWordOk (kind : Nat) (w : Word) : Bool := fld w 35 32 == kind && linkCrc8 w == fld w 7 0

/-- The packet of a frame of link words: L0, header, payload, CRC. -/
def packetOf (ws : List Word) : Packet :=
  let h := ws.getD 1 0
  { dest := BitVec.ofNat 10 (fld h 35 26), src := BitVec.ofNat 10 (fld h 25 16), svc := BitVec.ofNat 5 (fld h 15 11),
    vc := BitVec.ofNat 2 (fld (ws.getD 0 0) 31 30), route := BitVec.ofNat 2 (fld h 10 9), down := h.getLsbD 8,
    hops := BitVec.ofNat 7 (fld h 7 1), payload := (ws.drop 2).dropLast }

/-- LEN agrees with the words received. -/
def lenOk (ws : List Word) : Bool := ws.length == fld (ws.getD 0 0) 17 11 + 3 && decide (fld (ws.getD 0 0) 17 11 ≤ 64)

/-- The CRC word checks. -/
def packetCrcOk (ws : List Word) : Bool :=
  (packetCrc ws.dropLast).toNat == (ws.getLastD 0).toNat

/-! ### Training (R297, R298) -/

/-- The port trains: ON, or under a self-test. -/
def trains (s : State) (p : Nat) : Bool := s.fn (.mesh (Fin.ofNat 8 p)) == fnOn || (s.port p).test

/-- A training state is left for the next. -/
def trainNext (p l : Nat) (s : State) : State :=
  if trains s p ∧ s.link p = l ∧ !(s.port p).idle then s.setLink p (l + 1) else s

/-- Calibration of the receivers ends (R294); which receivers failed is not an operand. -/
def opCalibration (p : Fin 8) (ok : Bool) (s : State) : State :=
  if s.fn (.mesh p) ≠ fnStarting ∨ !(s.port p.val).granted then s
  else if ok then opStartDone (.mesh p) s
  else
    let lanes := (Config.freeWord s.free).toNat % 16
    let s := { s.draw with gov := { s.gov with ramps := s.gov.ramps.filter (fun r => !(decide (r.kind = GovKind.meshPort) && r.ix == p.val)) } }
    let s := fnFaultNow (.mesh p) (s.setPort p.val { s.port p.val with granted := false })
    raise 0x602 0 (lanes <<< 7 ||| s.link p.val <<< 4 ||| p.val) s

/-- The parameters are exchanged: the link layer starts afresh, E601 (R297). -/
def opParam (p : Fin 8) (nbrPort : BitVec 3) (w : BitVec 64) (s : State) : State :=
  let q := s.port p.val
  if !trains s p.val ∨ s.link p.val ≠ 5 ∨ q.idle then s
  else
    let s := s.setF Reg.mshNodeStatus 35 33 s.mstate
    let s := s.setPort p.val { nbrWmark := w, test := q.test }
    let s := (s.setLink p.val linkActive).setF (Reg.mshPStatus p.val) 24 22 nbrPort.toNat
    if q.test then s
    else discActive p.val (raise 0x601 0 (nbrPort.toNat <<< 3 ||| p.val) s)

/-- A training state has outrun twice its bound (R298). -/
def opTrainTimeout (p : Fin 8) (lanes : BitVec 4) (s : State) : State :=
  let q := s.port p.val
  let l := s.link p.val
  if !trains s p.val ∨ l < 1 ∨ 5 < l ∨ q.idle then s
  else
    let s := (s.count (Reg.mshPTrainFail p.val) 35 0).setLink p.val 0
    let s := s.setPort p.val { q with idle := true, fails := q.fails + 1 }
    if q.fails % 256 = 0 then raise 0x602 0 (1 <<< 11 ||| lanes.toNat <<< 7 ||| l <<< 4 ||| p.val) s else s

/-- After 1 ms in electrical idle the port returns to DETECT (R298). -/
def opTrainRetry (p : Fin 8) (s : State) : State :=
  if trains s p.val ∧ (s.port p.val).idle then (s.setPort p.val { s.port p.val with idle := false }).setLink p.val 1 else s

/-! ### Loss (R313) -/

/-- The link is lost: E603, back to DETECT, and the LSA without it. -/
def linkLost (p cause : Nat) (s : State) : State :=
  if s.link p ≠ linkActive then s
  else
    let q := s.port p
    let s := linkEnd p cause 1 s
    discLost (s.setPort p { s.port p with test := q.test })

/-! ### Replay (R302, R303) -/

/-- Replays within the present millisecond. -/
def replayCount (p : Nat) (s : State) : State :=
  let q := s.port p
  let now := decide ((s.evt.time - q.msStart).toNat < 1000000)
  let n := if now then q.replaysMs + 1 else 1
  let s := s.setPort p { q with replaysMs := n, msStart := if now then q.msStart else s.evt.time }
  let due : Bool := match q.e604At with | some t => decide (1000000 ≤ (s.evt.time - t).toNat) | none => true
  if 64 < n ∧ due then
    raise 0x604 0 (n <<< 3 ||| p) (s.setPort p { s.port p with e604At := some s.evt.time })
  else s

/-- Replay from the oldest unacknowledged packet; the eighth in a row without progress ends the link. Every packet sent again needs its
units again, since the receiver returned those of the one it discarded. -/
def replayStart (p : Nat) (s : State) : State :=
  let s := s.count (Reg.mshPReplay p) 35 0
  let q := s.port p
  if 8 ≤ q.replays + 1 then linkLost p 4 s
  else
    let sent := q.replay.foldl (fun m k => Store.upd (fun _ => 0) m k.vc.toNat (fun c => c + BitVec.ofNat 12 (pktUnits k))) q.sent
    let first := match q.replay with
      | k :: _ => packetWords q.txAck k
      | [] => q.txWords
    replayCount p (s.setPort p { q with replays := q.replays + 1, sent := sent, txWords := first })

/-- Word discarded by the link layer (R300). -/
def linkError (p : Nat) (s : State) : State := s.count (Reg.mshPLerr p) 35 0

/-- An ACK word; after a NAK of its own the receiver discards every word until RSTART (R302). -/
def opAck (p : Nat) (w : Word) (s : State) : State :=
  if s.link p ≠ linkActive ∨ (s.port p).discard then s
  else if !linkWordOk 2 w then linkError p s
  else
    let q := s.port p
    let n := BitVec.ofNat 12 (fld w 31 20)
    let k := (n - q.txAck).toNat
    let q := if k ≤ q.replay.length ∧ 0 < k then { q with replay := q.replay.drop k, txAck := n, replays := 0 } else q
    let s := s.setPort p (portFlush q)
    if w.getLsbD 19 then replayStart p s else s

/-- A CREDIT word, discarded as an ACK word would be. -/
def opCredit (p : Nat) (w : Word) (s : State) : State :=
  if s.link p ≠ linkActive ∨ (s.port p).discard then s
  else if !linkWordOk 3 w then linkError p s
  else
    let q := s.port p
    s.setPort p (portFlush { q with freedFar := Store.set (fun _ => 0) q.freedFar (fld w 31 30) (BitVec.ofNat 12 (fld w 29 18)) })

/-- 5 us without progress while packets are outstanding. -/
def opReplayTimeout (p : Nat) (s : State) : State :=
  if s.link p = linkActive ∧ (s.port p).replay ≠ [] then replayStart p s else s

/-! ### Reception (R302) -/

/-- Units of a VC that the receiver has freed, returned in a CREDIT word (R301). -/
def freeUnits (p vc n : Nat) (s : State) : State :=
  let q := s.port p
  let freed := Store.upd (fun _ => 0) q.freed vc (fun c => c + BitVec.ofNat 12 n)
  s.setPort p { q with freed := freed, creditWord := creditOf vc (Store.get (fun _ => 0) freed vc) }

/-- NAK with the expected SEQ; words are discarded until RSTART. The credits of a discarded packet return. -/
def rxNak (p : Nat) (ws : List Word) (s : State) : State :=
  let s := if lenOk ws then freeUnits p (fld (ws.getD 0 0) 31 30) ((ws.length + 3) / 4) s else s
  let q := s.port p
  s.setPort p { q with discard := true, lastAck := some (q.rxSeq, true), ackWord := ackOf q.rxSeq true }

/-- Words arrive on a link where a packet may start: an IDLE word that is not all zero is discarded and counted (R300); an ACK or
CREDIT word is taken as such. -/
def opReceive (p : Nat) (ws : List Word) (s : State) : State :=
  if s.link p ≠ linkActive then s
  else if (s.port p).discard then
    (if fld (ws.getD 0 0) 35 32 = 1 ∧ lenOk ws then freeUnits p (fld (ws.getD 0 0) 31 30) ((ws.length + 3) / 4) s else s)
  else if fld (ws.getD 0 0) 35 32 = 0 then (if ws.getD 0 0 = 0 then s else linkError p s)
  else if fld (ws.getD 0 0) 35 32 = 2 then opAck p (ws.getD 0 0) s
  else if fld (ws.getD 0 0) 35 32 = 3 then opCredit p (ws.getD 0 0) s
  else if fld (ws.getD 0 0) 35 32 ≠ 1 ∨ !lenOk ws ∨ !packetCrcOk ws then rxNak p ws (linkError p s)
  else if fld (ws.getD 0 0) 29 18 ≠ (s.port p).rxSeq.toNat then rxNak p ws s
  else
    let q := s.port p
    let q := { q with rxSeq := q.rxSeq + 1, rxq := q.rxq ++ [packetOf ws] }
    s.setPort p { q with lastAck := some (q.rxSeq, false), ackWord := ackOf q.rxSeq false }

/-- RSTART: acceptance goes on at the replayed packet. -/
def opRstart (p : Nat) (s : State) : State :=
  if s.link p = linkActive then s.setPort p { s.port p with discard := false } else s

/-- The router takes a packet: one that a link has accepted leaves its receive buffer, whose units are freed (R301, R322). -/
def opForward (p : Option (Fin 8)) (k : Packet) (s : State) : State :=
  match p with
  | none => meshRoute none k s
  | some q =>
    if !(s.port q.val).rxq.contains k then s
    else
      let s := s.setPort q.val { s.port q.val with rxq := (s.port q.val).rxq.erase k }
      meshRoute (some q.val) k (freeUnits q.val k.vc.toNat (pktUnits k) s)

/-! ### Commands -/

def execMeshPortCalibration (p : Fin 8) (ok : Bool) (s : State) : Host.Outcome State Fault Refusal := .next (opCalibration p ok s)

def execLinkSignalDetect (p : Fin 8) (s : State) : Host.Outcome State Fault Refusal := .next (trainNext p.val 1 s)

def execLinkCdrLock (p : Fin 8) (s : State) : Host.Outcome State Fault Refusal := .next (trainNext p.val 2 s)

def execLinkEqDone (p : Fin 8) (s : State) : Host.Outcome State Fault Refusal := .next (trainNext p.val 3 s)

def execLinkAlignDone (p : Fin 8) (s : State) : Host.Outcome State Fault Refusal := .next (trainNext p.val 4 s)

def execLinkParamConfirm (p : Fin 8) (nbrPort : BitVec 3) (nbrWmark : BitVec 64) (s : State) : Host.Outcome State Fault Refusal :=
  .next (opParam p nbrPort nbrWmark s)

def execLinkTrainingTimeout (p : Fin 8) (lanes : BitVec 4) (s : State) : Host.Outcome State Fault Refusal := .next (opTrainTimeout p lanes s)

def execLinkTrainingRetry (p : Fin 8) (s : State) : Host.Outcome State Fault Refusal := .next (opTrainRetry p s)

def execLinkPacketReceived (p : Fin 8) (words : List Word) (s : State) : Host.Outcome State Fault Refusal := .next (opReceive p.val words s)

def execAck (p : Fin 8) (w : Word) (s : State) : Host.Outcome State Fault Refusal := .next (opAck p.val w s)

def execCredit (p : Fin 8) (w : Word) (s : State) : Host.Outcome State Fault Refusal := .next (opCredit p.val w s)

def execRstart (p : Fin 8) (s : State) : Host.Outcome State Fault Refusal := .next (opRstart p.val s)

def execReplayTimeout (p : Fin 8) (s : State) : Host.Outcome State Fault Refusal := .next (opReplayTimeout p.val s)

def execLinkLoss (p : Fin 8) (cause : BitVec 3) (s : State) : Host.Outcome State Fault Refusal := .next (linkLost p.val cause.toNat s)

/-- A BYE from the neighbour is a loss with cause 5. -/
def execBye (p : Fin 8) (s : State) : Host.Outcome State Fault Refusal := .next (linkLost p.val 5 (inboxTake 0x1A s))

def execPacketForward (p : Option (Fin 8)) (pkt : Packet) (s : State) : Host.Outcome State Fault Refusal := .next (opForward p pkt s)

end Sys2Proof.Machine
end

