-- ==== Sys2Proof/Machine/Services.lean ====
section
/-! DEFINITION. The mesh services: remote register access at its origin (R324), remote engine operations (R327), image pushes (R329 to
R332), user STREAM channels (R333, R334), mesh time (R335, R336), and MSH.NODE_CFG (R295). -/

namespace Sys2Proof.Machine

/-! ### Remote register access (R324) -/

def rraEnd (result reason : Nat) (s : State) : State :=
  s.setReg Reg.mshRraStatus (setFld (s.reg Reg.mshRraStatus) 7 0 ((result % 8) <<< 4 ||| reason))

/-- The access completes, which pulses source 18 (R324, R349). -/
def rraDone (result reason : Nat) (s : State) : State := irqPulse 18 (rraEnd result reason s)

/-- A write of MSH.RRA_CMD. -/
def opRraCmd (v : Word) (s : State) : State :=
  if !v.getLsbD 35 then s
  else if s.getB Reg.mshRraStatus 7 then s.setB Reg.mshRraStatus 8 true
  else
    let write := v.getLsbD 34
    let node := s.getF Reg.mshRraNode 9 0
    let kind := s.getF (Reg.mshNht node) 35 34
    if s.mstate ≠ 2 then rraDone 4 0 s
    else if kind ≠ 1 ∧ kind ≠ 2 then rraDone 3 0 s
    else
      let s := (rraEnd 0 0 { s with mesh := { s.mesh with rraWrite := write } }).setB Reg.mshRraStatus 7 true
      let w := wd (write.toNat <<< 35 ||| s.getF Reg.mshRraAddr 23 0)
      meshSend node 1 vcReq (if write then [w, s.reg Reg.mshRraWdata] else [w]) s

/-- The response completes the access; one that comes while none is in progress is late and is discarded. RRA_RSP names no access, so one
that comes during another access is taken as that one's (DESIGN CHOICE: log entry 110). -/
def opRraRsp (result reason : BitVec 4) (data : Word) (s : State) : State :=
  if !s.getB Reg.mshRraStatus 7 then s
  else
    let s := if result = 0 ∧ !s.mesh.rraWrite then s.setReg Reg.mshRraRdata data else s
    rraDone result.toNat (if result = 1 then reason.toNat else 0) s

def opRraTimeout (s : State) : State := if s.getB Reg.mshRraStatus 7 then rraDone 2 0 s else s

/-! ### Remote engine operations (R327, R249) -/

/-- ENG_REQ: served as requester MESH; it waits for a slot, and an engine that is not ON answers OFF. -/
def opEngReq (src : BitVec 10) (sreq : BitVec 4) (stag : BitVec 6) (q : Quad) (s : State) : State :=
  if !engOn s then
    let r := resQuad s q { st := stOff }
    meshSend src.toNat 4 vcRsp [wd (sreq.toNat <<< 6 ||| stag.toNat), r.w0, r.w1, r.w2, r.w3] s
  else if rqCredits s rqMeshNo = 0 ∨ !s.eng.waitQ.isEmpty then
    { s with eng := { s.eng with waitQ := s.eng.waitQ ++ [(src, sreq, stag, q)] } }
  else meshTake src sreq stag q s

/-- ENG_RSP: one that comes after TIMEOUT is discarded and counted, also where its tag has been taken again: the response of the earlier
operation at that node is taken to come first (DESIGN CHOICE: log entry 106); any other is that of the waiting operation. -/
def opEngRsp (sreq : BitVec 4) (stag : BitVec 6) (rsp : Quad) (s : State) : State :=
  let k := (sreq.toNat, stag.toNat, fld rsp.w1 25 16)
  if s.eng.late.contains k then State.count { s with eng := { s.eng with late := s.eng.late.erase k } } (Reg.rhxCnt 8) 35 0
  else match s.eng.slots.find? (fun o => decide (o.phase = .remote) && o.rq.val == sreq.toNat && reqTag o.req == stag.toNat) with
  | some o => lockRelease (setOp { o with phase := .done, status := BitVec.ofNat 6 (fld rsp.w0 25 20), rsp := rsp } s)
  | none => s

/-! ### Image pushes (R329 to R332) -/

def pushState (s : State) : Nat := s.getF Reg.mshPushStatus 23 21

def pushRuns (s : State) : Bool := pushState s == 1 || pushState s == 2

/-- Words of a stream by its header: H + LENGTH + 4 x ceil(LENGTH / 4,096). -/
def pushWords (ws : List Word) : Option Nat :=
  (if ws.headD 0 = syncWord then hdrLen ws 256 1 else none).map (fun h =>
    let len := fld ((hdrReg (hdrPkts (ws.take h) 256 1) 1 0xB).headD 0) 23 0
    h + len + 4 * ((len + 4095) / 4096))

/-- The words to push, or a free number of them: of a slot without a header the rule names none. -/
def pushCount : Option Nat → State → Nat × State
  | some n, s => (n, s)
  | none, s => ((Config.freeWord s.free).toNat % 2 ^ 25, s.draw)

/-- Words of the stream in a slot. -/
def pushLength (slot : Nat) (s : State) : Nat × State :=
  let r := slotWords slot 0 256 s
  pushCount (pushWords r.1) r.2

/-- One IMG_DATA packet of up to 63 stream words, while at most 8,192 words stay unacknowledged. -/
def pushOne (s : State) : State :=
  let sent := (s.reg Reg.mshPushWords).toNat
  let n := min 63 (s.mesh.pushTotal - sent)
  if pushState s ≠ 1 ∨ n = 0 ∨ 8192 < sent + n - s.mesh.pushAcked then s
  else
    let r := slotWords s.mesh.pushSlot.val sent n s
    let s := r.2.setReg Reg.mshPushWords (wd (sent + n))
    let last := decide (sent + n = s.mesh.pushTotal)
    let s := if last then s.setF Reg.mshPushStatus 23 21 2 else s
    meshSend s.mesh.pushDest.toNat 5 vcStream (wd ((decide (sent = 0)).toNat <<< 35 ||| last.toNat <<< 34 ||| sent) :: r.1) s

/-- Send as far as the window allows. -/
def pushSend (s : State) : State := forAll (List.range 132) (fun _ => pushOne) s

def pushStart (slot : Fin 4) (dest : BitVec 10) (s : State) : State :=
  let r := pushLength slot.val s
  let s := (r.2.setReg Reg.mshPushWords 0).setReg Reg.mshPushStatus (setFld (setFld (r.2.reg Reg.mshPushStatus) 35 24 0) 23 21 1)
  pushSend { s with mesh := { s.mesh with pushDest := dest, pushSlot := slot, pushTotal := r.1, pushAcked := 0 } }

/-- ABORT: an IMG_DATA packet with ABORT, of the least length. -/
def pushAbort (s : State) : State :=
  if !pushRuns s then s
  else
    meshSend s.mesh.pushDest.toNat 5 vcStream [wd (1 <<< 33 ||| (s.reg Reg.mshPushWords).toNat), 0] (pushEnd 5 s)

/-- A write of MSH.PUSH_CMD. -/
def opPushCmd (v : Word) (s : State) : State :=
  let runs := pushRuns s
  let s := if v.getLsbD 34 then pushAbort s else s
  if !v.getLsbD 35 then s
  else if runs then s.setB Reg.mshPushStatus 20 true
  else pushStart (Fin.ofNat 4 (fld v 13 12)) (BitVec.ofNat 10 (fld v 9 0)) s

def opImgAck (n : BitVec 25) (s : State) : State :=
  if pushRuns s then pushSend { s with mesh := { s.mesh with pushAcked := n.toNat } } else s

def opImgResult (code : Code) (s : State) : State :=
  if pushRuns s then (pushEnd 3 s).setF Reg.mshPushStatus 35 24 code.toNat else s

/-- Readback words that the sender discards. -/
def opImgRb (n : Nat) (s : State) : State := s.setF Reg.mshPushRb 24 0 (min (2 ^ 25 - 1) (s.getF Reg.mshPushRb 24 0 + n))

def opPushTimeout (s : State) : State := pushEnd 4 s

/-- IMG_DATA at the target: source 3 of the loader; a node that does not get the loader is told E20C. -/
def opImgData (src : BitVec 10) (first abort : Bool) (ws : List Word) (s : State) : State :=
  let mine := s.ld.st != .idle && s.ld.src == 3 && s.mesh.pushFrom == src
  if abort then (if mine then streamDiscard 2 s else s)
  else if mine ∧ !first then ldOffer 3 rqMesh ws s
  else if s.ld.st ≠ .idle ∨ !srcEnabled s 3 then
    let s := srcRefuse 3 s
    if first then meshSend src.toNat 7 vcRsp [wd 0x20C] s else s
  else ldOffer 3 rqMesh ws { s with mesh := { s.mesh with pushFrom := src } }

/-! ### User STREAM channels (R333, R334) -/

def State.stx (s : State) (k : Nat) : St := Store.get (fun _ => {}) s.mesh.st k

def setStx (k : Nat) (t : St) (s : State) : State := { s with mesh := { s.mesh with st := Store.set (fun _ => {}) s.mesh.st k t } }

/-- The packet under way ends: it takes the SEQ of its destination, and FIRST if it is the first there. -/
def stSend (k : Nat) (s : State) : State :=
  let t := s.stx k
  let d := t.txDest.toNat
  let seq := Store.get (fun _ => 0) t.seqTo d
  let first := !Store.get (fun _ => false) t.started d
  let w := wd (first.toNat <<< 35 ||| k <<< 32 ||| (d % 8) <<< 29 ||| seq.toNat <<< 21)
  let s := setStx k { t with tx := [], seqTo := Store.set (fun _ => 0) t.seqTo d (seq + 1), started := Store.set (fun _ => false) t.started d true } s
  meshSend (d / 8) 9 vcStream (w :: t.tx.flatMap (fun q => [q.w0, q.w1, q.w2, q.w3])) s

/-- Words of an interface's transfers that its transmit buffer holds: those of the packet under way, and of packets that wait at the ports
for their start (R333). -/
def stTxWords (k : Nat) (s : State) : Nat :=
  let mine := fun (x : Packet) => x.svc.toNat == 9 && x.src.toNat == s.addr && fld (x.payload.headD 0) 34 32 == k
  4 * (s.stx k).tx.length +
    (((List.range 8).flatMap (fun p => (s.port p).txq.filter mine)).map (fun x => x.payload.length - 1)).sum

/-- A transfer from the fabric, where TX_READY is 1: the image hosts the interface, an edge of its line reaches the host, nothing holds
requests back, the mesh is ready, and the 2 KiW transmit buffer has room (R30, R78, R145, R212, R333). -/
def opStTx (k : Fin 8) (q : Quad) (dest : BitVec 13) (last : Bool) (s : State) : State :=
  if !portLive s 2 k.val ∨ s.mstate ≠ 2 ∨ 2048 < stTxWords k.val s + 4 then s
  else
    let t := s.stx k.val
    let t := { t with tx := t.tx ++ [q], txDest := if t.tx.isEmpty then dest else t.txDest }
    let s := setStx k.val t s
    if last ∨ 15 ≤ t.tx.length then stSend k.val s else s

/-- E60F, and the count of what is dropped. -/
def stLost (k : Nat) (src : BitVec 10) (dropped : Bool) (s : State) : State :=
  raise 0x60F 0 (src.toNat <<< 3 ||| k) (if dropped then s.count Reg.mshCntStDrop 35 0 else s)

/-- The transfers of a packet as the fabric will see them. -/
def stRx (from13 : BitVec 13) (gap : Bool) (ts : List Quad) : List (Quad × BitVec 13 × Bool × Bool) :=
  ts.zipIdx.map (fun e => (e.1, from13, e.2 + 1 == ts.length, gap && e.2 == 0))

/-- A USER packet (R334): it waits while the interface's buffer has no room. -/
def opUser (src : BitVec 10) (srcIf dstIf : BitVec 3) (first : Bool) (seq : BitVec 8) (ts : List Quad) (s : State) : State :=
  let k := dstIf.toNat
  let f := BitVec.ofNat 13 (src.toNat * 8 + srcIf.toNat)
  let t := s.stx k
  let ahead := (seq - Store.get (fun _ => 0) t.expect f.toNat).toNat
  let ex := Store.set (fun _ => 0) t.expect f.toNat (seq + 1)
  let old := !first && decide (128 ≤ ahead)
  let down := match hostOf s 2 k with | none => true | some n => s.getB (Reg.rgnStatus n) 0 || s.getB (Reg.rgnStatus n) 4
  if down then stLost k src true (inboxTake 9 (setStx k { t with expect := if old then t.expect else ex } s))
  else if old then stLost k src true (inboxTake 9 s)
  else if 512 < t.rx.length + ts.length then s
  else
    let gap := !first && ahead != 0
    let s := inboxTake 9 (setStx k { t with expect := ex, rx := t.rx ++ stRx f gap ts } s)
    if gap then stLost k src false s else s

/-- The fabric takes the oldest received transfer at an edge of the interface's line. -/
def opStRx (k : Fin 8) (s : State) : State :=
  match (s.stx k.val).rx with
  | x :: rest => if portClocked s 2 k.val then setStx k.val { s.stx k.val with rx := rest, out := some x } s else s
  | [] => s

/-! ### Mesh time (R335, R336) -/

def isRef (s : State) : Bool := s.getB Reg.mshTimeStatus 33

/-- SYS.TIME in units of 2^-8 ns. -/
def timeUnits (s : State) : BitVec 64 := s.evt.time <<< 8

def opTimeSend (seq : BitVec 8) (s : State) : State :=
  if s.mstate ≠ 2 ∨ isRef s then s
  else
    let s := { s with mesh := { s.mesh with t1 := timeUnits s } }
    meshSendLink (s.getF Reg.mshTimeStatus 31 29) 0x0A [wd seq.toNat] s

/-- The reply carries t2 and t3; the request is answered at the time it is marked. -/
def opTimeRequest (p : Fin 8) (seq : BitVec 8) (s : State) : State :=
  let t := (timeUnits s).toNat
  let lo := wd t
  let hi := wd (t >>> 36)
  meshSendLink p.val 0x0A [wd seq.toNat, lo, hi, lo, hi] s

/-- Lock lost: the counter runs at its last rate, and a time source is chosen again (R336). -/
def timeHoldover (s : State) : State :=
  let was := s.getB Reg.mshTimeStatus 35
  let s := match timeSource s with
    | some p => s.setF Reg.mshTimeStatus 31 29 p
    | none => s
  let s := { s with mesh := { s.mesh with firstEx := true, good := 0, missed := 0 } }
  if was then
    let s := (s.setB Reg.mshTimeStatus 35 false).setB Reg.mshTimeStatus 34 true
    raise 0x60E 0 (1 <<< 10 ||| s.getF Reg.mshTimeStatus 28 19) { s with evt := { s.evt with meshTime := false } }
  else s

/-- Half the delay difference of the source's link, in units of 2^-8 ns (R335). -/
def asymUnits (s : State) : Int := sgn (s.getF (Reg.mshPAsym (s.getF Reg.mshTimeStatus 31 29)) 15 0) 16 * 256 / 1000

/-- offset of R335, in units of 2^-8 ns. -/
def timeOffset (s : State) (t2 t3 t4 : BitVec 64) : Int :=
  ((t2 - s.mesh.t1).toInt - (t4 - t3).toInt) / 2 - asymUnits s

/-- OFFSET in 0.25 ns, two's complement, saturating. -/
def offsetField (o : Int) : Nat := unsgn (max (-(2 ^ 18)) (min (2 ^ 18 - 1) (o / 64))) 19

/-- The servo's rate within 200 ppm: its law is not given. -/
def timeSlew (s : State) : State :=
  { s.draw with mesh := { s.mesh with rate := ((Config.freeWord s.free).toNat % 401 : Nat) - 200 } }

def timeLock (s : State) : State :=
  if s.getB Reg.mshTimeStatus 35 then s
  else
    let s := (s.setB Reg.mshTimeStatus 35 true).setB Reg.mshTimeStatus 34 false
    raise 0x60E 0 (s.getF Reg.mshTimeStatus 28 19) { s with evt := { s.evt with meshTime := true } }

/-- A reply ends an exchange (R336). -/
def opTimeReply (t2 t3 t4 : BitVec 64) (s : State) : State :=
  if s.mstate ≠ 2 ∨ isRef s then s
  else
    let o := timeOffset s t2 t3 t4
    let first := s.mesh.firstEx
    let s := (State.setF { s with mesh := { s.mesh with firstEx := false, missed := 0 } } Reg.mshTimeStatus 18 0 (offsetField o))
    let s := if first ∧ 256000 < o.natAbs then
        { s with evt := { s.evt with time := s.evt.time + BitVec.ofInt 64 (o / 256) }, mesh := { s.mesh with good := 0 } }
      else
        let s := timeSlew s
        if 16 * 256 < o.natAbs ∧ s.getB Reg.mshTimeStatus 35 then timeHoldover s
        else if o.natAbs ≤ 512 then { s with mesh := { s.mesh with good := s.mesh.good + 1 } }
        else { s with mesh := { s.mesh with good := 0 } }
    if 100 ≤ s.mesh.good then timeLock s else s

/-- No reply to three exchanges in a row. -/
def opTimeMissed (s : State) : State := if s.mstate ≠ 2 ∨ isRef s then s else timeHoldover s

/-- A write of MSH.TIME_SET_HI. -/
def opTimeSet (v : Word) (s : State) : State :=
  if isRef s then
    { s with evt := { s.evt with time := BitVec.ofNat 64 (fld v 27 0 <<< 36 ||| s.mesh.timeSetLo.toNat) } }
  else s.setB Reg.mshTimeStatus 32 true

/-- A write of MSH.NODE_CFG (R295). -/
def opNodeCfg (v : Word) (s : State) : State :=
  if (List.range 8).all (fun p => s.fn (.mesh (Fin.ofNat 8 p)) == fnOff) then s.setReg Reg.mshNodeCfg (wd (v.toNat &&& 0xFFFFFF1)) else s

/-! ### Commands -/

def execRraRead (who : Req) (v : Word) (s : State) : Host.Outcome State Fault Refusal := .next (gateW who Reg.mshRraCmd (opRraCmd v) s)

def execRraWrite (who : Req) (v : Word) (s : State) : Host.Outcome State Fault Refusal := .next (gateW who Reg.mshRraCmd (opRraCmd v) s)

def execRraRsp (result reason : BitVec 4) (data : Word) (s : State) : Host.Outcome State Fault Refusal :=
  .next (opRraRsp result reason data (inboxTake 2 s))

def execRraTimeout (s : State) : Host.Outcome State Fault Refusal := .next (opRraTimeout s)

def execEngReq (src : BitVec 10) (sreq : BitVec 4) (stag : BitVec 6) (req : Quad) (s : State) : Host.Outcome State Fault Refusal :=
  .next (opEngReq src sreq stag req (inboxTake 3 s))

def execEngRsp (sreq : BitVec 4) (stag : BitVec 6) (rsp : Quad) (s : State) : Host.Outcome State Fault Refusal :=
  .next (opEngRsp sreq stag rsp (inboxTake 4 s))

def execImagePush (who : Req) (v : Word) (s : State) : Host.Outcome State Fault Refusal := .next (gateW who Reg.mshPushCmd (opPushCmd v) s)

def execImagePushAbort (who : Req) (v : Word) (s : State) : Host.Outcome State Fault Refusal :=
  .next (gateW who Reg.mshPushCmd (opPushCmd v) s)

def execImgData (src : BitVec 10) (first _last abort : Bool) (_off : BitVec 25) (words : List Word) (s : State) :
    Host.Outcome State Fault Refusal := .next (opImgData src first abort words (inboxTake 5 s))

def execImgAck (consumed : BitVec 25) (s : State) : Host.Outcome State Fault Refusal := .next (opImgAck consumed (inboxTake 6 s))

def execImgResult (code : Code) (s : State) : Host.Outcome State Fault Refusal := .next (opImgResult code (inboxTake 7 s))

def execImgRb (words : List Word) (s : State) : Host.Outcome State Fault Refusal := .next (opImgRb words.length (inboxTake 8 s))

def execPushTimeout (s : State) : Host.Outcome State Fault Refusal := .next (opPushTimeout s)

def execStreamTxTransfer (k : Fin 8) (data : Quad) (dest : BitVec 13) (last : Bool) (s : State) : Host.Outcome State Fault Refusal :=
  .next (opStTx k data dest last s)

def execUser (src : BitVec 10) (srcIf dstIf : BitVec 3) (first : Bool) (seq : BitVec 8) (data : List Quad) (s : State) :
    Host.Outcome State Fault Refusal := .next (opUser src srcIf dstIf first seq data s)

def execStreamRxTransfer (k : Fin 8) (s : State) : Host.Outcome State Fault Refusal := .next (opStRx k s)

def execTimeSyncSend (seq : BitVec 8) (s : State) : Host.Outcome State Fault Refusal := .next (opTimeSend seq s)

def execTimeSyncRequest (p : Fin 8) (seq : BitVec 8) (s : State) : Host.Outcome State Fault Refusal :=
  .next (opTimeRequest p seq (inboxTake 0x0A s))

def execTimeSyncReply (t2 t3 t4 : BitVec 64) (s : State) : Host.Outcome State Fault Refusal :=
  .next (opTimeReply t2 t3 t4 (inboxTake 0x0A s))

def execTimeSyncMissed (s : State) : Host.Outcome State Fault Refusal := .next (opTimeMissed s)

def execTimeSet (who : Req) (v : Word) (s : State) : Host.Outcome State Fault Refusal := .next (gateW who Reg.mshTimeSetHi (opTimeSet v) s)

def execNodeCfgWrite (who : Req) (v : Word) (s : State) : Host.Outcome State Fault Refusal := .next (gateW who Reg.mshNodeCfg (opNodeCfg v) s)

end Sys2Proof.Machine
end

