-- ==== Sys2Proof/Machine/Debug.lean ====
section
/-! DEFINITION. Debug and the watchdog: the TAP's instructions (R420 to R423), halt and resume (R431, R436), abstract commands (R424),
authentication (R426 to R429), detach (R433), the watchdog's refresh and expiry (R432, R434 to R437). -/

namespace Sys2Proof.Machine

open Crypto

/-! ### Refused debug accesses (R438) -/

/-- EA04: the JTAG instruction, the word address or zero, the level held. -/
def dbgRefuse (ir : Nat) (addr : Nat) (s : State) : State := raise 0xA04 rqDbg (dbgLevel s <<< 34 ||| addr <<< 8 ||| ir) s

/-! ### The TAP (R420 to R423) -/

/-- The level of an instruction; none for a code that acts as BYPASS. -/
def irLevel (code : Nat) : Option Nat :=
  match code with
  | 0x00 => some 2
  | 0x01 => some 0
  | 0x02 => some 0
  | 0x03 => some 2
  | 0x04 => some 2
  | 0x10 => some 0
  | 0x11 => some 1
  | 0x12 => some 0
  | _ => none

def setIr (code : Nat) (s : State) : State := { s with dbg := { s.dbg with ir := BitVec.ofNat 8 code } }

def setCapture (v : BitVec 2160) (s : State) : State := { s with dbg := { s.dbg with capture := v } }

/-- An instruction comes into force: one above the level held acts as BYPASS with EA04; the pins enter or leave boundary control. -/
def irSelect (code : Nat) (s : State) : State :=
  match irLevel code with
  | none => pinsFrom s (setCapture 0 (setIr 0xFF s))
  | some l =>
    if dbgLevel s < l then pinsFrom s (dbgRefuse code 0 (setCapture 0 (setIr 0xFF s)))
    else pinsFrom s (setIr code s)

/-- The TAP answers unless power-on reset is held. -/
def tap (code : Nat) (op : State → State) (s : State) : State :=
  if s.boot.porHeld then s
  else
    let s := irSelect code s
    if s.dbg.ir.toNat = code then op s else s

/-- What the boundary cells capture: input, output, output enable of each pin (R423). -/
def boundaryOf (s : State) : BitVec 2160 :=
  BitVec.ofNat 2160 ((List.range 720).foldl (fun v i =>
    let d := (pinDrive s i).level
    v ||| ((pinLevel s i).toNat ||| (d.getD false).toNat <<< 1 ||| d.isSome.toNat <<< 2) <<< (3 * i)) 0)

/-- Capture the boundary, then update it with what was scanned in. -/
def boundaryScan (dr : BitVec 2160) (s : State) : State :=
  let old := setCapture (boundaryOf s) s
  pinsFrom old { old with dbg := { old.dbg with boundary := dr } }

/-- 0xs184_056F (R422). -/
def idcodeOf : Nat := Config.stepping.toNat <<< 28 ||| 0x184056F

/-- DTMCS: version 0.13, seven address bits; how many idle cycles the DTM asks for is not given. -/
def dtmcsScan (s : State) : State :=
  setCapture (BitVec.ofNat 2160 (1 ||| 7 <<< 4 ||| ((Config.freeWord s.free).toNat % 8) <<< 12)) s.draw

/-! ### Halt and resume (R431, R436) -/

/-- The watchdog is at least at GRACE when the core resumes. -/
def coreResume (s : State) : State :=
  if !s.core.halted then s
  else
    let s := { s with core := { s.core with halted := false }, dbg := { s.dbg with resumeack := true } }
    if s.fn .wdt = fnOff then s else wdtGrace s

/-- haltreq, for an attached debugger; below FULL it is refused (R424). -/
def opHalt (s : State) : State :=
  if dbgLevel s < 2 then dbgRefuse s.dbg.ir.toNat 0 s
  else if attached s ∧ !s.core.halted then coreHaltFor 3 s
  else s

def opResume (s : State) : State :=
  if dbgLevel s < 2 then dbgRefuse s.dbg.ir.toNat 0 s
  else if attached s then coreResume s
  else s

/-- The debugger is no longer attached: a halted core resumes, an emulated RETAIN becomes a real one from R78 step 6 (R433, R437). -/
def detached (s : State) : State :=
  let s := coreResume s
  if s.boot.emu then
    let real := decide (s.mode = .retain ∧ s.boot.retain = .idle)
    { s with boot := { s.boot with emu := false, ctxLost := s.boot.ctxLost || (real && !s.getB Reg.pwrRetainCfg 0),
                                   ramRetWindow := s.boot.ramRetWindow || (real && s.getB Reg.pwrRetainCfg 6) } }
  else s

/-- What a change of level or of dmactive ends: the attachment, and boundary control above the level (R421, R433). -/
def dbgChange (old s : State) : State :=
  let s := if attached old ∧ !attached s then detached s else s
  if boundaryHeld s ∧ dbgLevel s < 2 then irSelect s.dbg.ir.toNat s else s

/-- The registers of a debug module that is not active. -/
def dmIdle (d : Debug) : Debug :=
  { d with haltOnReset := false, cmderr := 0, data0 := 0, sberror := 0, sbData := 0, sbAddr := 0, sbAccess := 2,
           sbOnAddr := false, sbOnData := false, sbInc := false, resumeack := false }

/-- dmcontrol.dmactive; at 0 it resets the module's registers. -/
def setDmactive (b : Bool) (s : State) : State :=
  dbgChange s { s with dbg := { (if b then s.dbg else dmIdle s.dbg) with dmactive := b } }

/-! ### Abstract commands (R424) -/

/-- CSRs of R341 and R346 and those of the debug specification. -/
def csrExists (n : Nat) : Bool :=
  [0x300, 0x301, 0x304, 0x305, 0x340, 0x341, 0x342, 0x343, 0x344, 0x7B0, 0x7B1, 0x7C0, 0x7C1, 0xB00, 0xB02, 0xB80, 0xB82, 0xF13, 0xF14].contains n

/-- A counter CSR: how many cycles or instructions the core has run is no part of the state. -/
def csrCounts (n : Nat) : Bool := n == 0xB00 || n == 0xB02 || n == 0xB80 || n == 0xB82

/-- A CSR as it reads (R341, R350). -/
def csrRead (s : State) (n : Nat) : BitVec 32 :=
  if n = 0x344 then mipNow s
  else if n = 0x7B1 then s.core.pc
  else if n = 0xF13 then BitVec.ofNat 32 Config.stepping.toNat
  else if n = 0xF14 then 0
  else if csrCounts n then BitVec.ofNat 32 (Config.freeWord s.free).toNat
  else s.csr n

def csrWrite (n : Nat) (v : BitVec 32) (s : State) : State :=
  if n = 0x7B1 then { s with core := { s.core with pc := v } } else s.setCsr n v

def setCmderr (e : Nat) (s : State) : State :=
  if s.dbg.cmderr = 0 then { s with dbg := { s.dbg with cmderr := BitVec.ofNat 3 e } } else s

/-- Access Register: GPRs and CSRs of the halted core; errors as the debug specification has them: 2 not supported, 3 exception, 4 not
halted, 7 other. -/
def opAbstract (write : Bool) (regno : Nat) (s : State) : State :=
  if dbgLevel s < 2 then setCmderr 7 (dbgRefuse s.dbg.ir.toNat 0 s)
  else if !attached s ∨ s.dbg.cmderr ≠ 0 then s
  else if !s.core.halted then setCmderr 4 s
  else if 0x1000 ≤ regno ∧ regno < 0x1020 then
    let x := regno - 0x1000
    if write then
      (if x = 0 then s else { s with core := { s.core with gpr := Store.set (fun _ => 0) s.core.gpr x s.dbg.data0 } })
    else { s with dbg := { s.dbg with data0 := if x = 0 then 0 else Store.get (fun _ => 0) s.core.gpr x } }
  else if 0x1000 ≤ regno then setCmderr 2 s
  else if !csrExists regno ∨ (write ∧ 0xC00 ≤ regno) then setCmderr 3 s
  else if write then csrWrite regno s.dbg.data0 s
  else { (if csrCounts regno then s.draw else s) with dbg := { s.dbg with data0 := csrRead s regno } }

/-! ### Authentication (R426 to R429, R439) -/

def dbgCeiling : Nat := fld Config.fuseDbgPolicy 3 2

def lockedOut (s : State) : Bool := s.getB Reg.dbgStatus 8

/-- The words of the next challenge (R428). -/
def chalWords (level : Nat) (s : State) : List (BitVec 32) :=
  let w := Config.watermark
  (List.range 4).map (fun i => Config.nonce (s.free + i)) ++
    [BitVec.ofNat 32 w.toNat, BitVec.ofNat 32 (w.toNat >>> 32), BitVec.ofNat 32 level, s.dbg.issued + 1]

/-- A challenge is issued. -/
def chalIssue (level : Nat) (s : State) : State :=
  State.setB { s with dbg := { s.dbg with chal := chalWords level s, issued := s.dbg.issued + 1 }, free := s.free + 4 } Reg.dbgStatus 9 true

/-- NEW_CHAL (R429). -/
def newChal (level : Nat) (s : State) : State :=
  if !Config.fuseDbgPolicy.getLsbD 4 ∨ !Config.fuseDbgPolicy.getLsbD 5 ∨ dbgCeiling < level ∨ level ≤ dbgLevel s ∨ lockedOut s then
    s.setB Reg.dbgStatus 10 true
  else chalIssue level s

/-- The response that the holder of the debug key computes over challenge words (R428). -/
def chalAnswer (chal : List (BitVec 32)) : List Byte :=
  hmacSha256 (beBytes 32 Config.fuseDbgKey.toNat) (chal.flatMap (fun w => beBytes 4 w.toNat))

/-- The response words as they were written. -/
def respBytes (s : State) : List Byte :=
  (List.range 8).flatMap (fun i => beBytes 4 (Store.get (fun _ => 0) s.dbg.resp i).toNat)

/-- A wrong response: EA02, and at the fourth failure LOCKOUT and EA03. -/
def authFail (level : Nat) (s : State) : State :=
  let n := satInc (s.getF Reg.dbgStatus 7 5) 7
  let s := raise 0xA02 rqDbg (n <<< 2 ||| level) (s.setF Reg.dbgStatus 7 5 n)
  if n = 4 then raise 0xA03 rqDbg (n <<< 2) (s.setB Reg.dbgStatus 8 true) else s

/-- A CHECK that fails. -/
def chalFail (level : Nat) (s : State) : State := authFail level (s.setB Reg.dbgStatus 9 false)

/-- CHECK (R428, R429). -/
def chalCheck (req : Nat) (s : State) : State :=
  if !s.getB Reg.dbgStatus 9 then chalFail req s
  else
    let level := fld (s.dbg.chal.getD 6 0) 1 0
    if respBytes s = chalAnswer s.dbg.chal then
      let s := (s.setB Reg.dbgStatus 9 false).setF Reg.dbgStatus 7 5 0
      raise 0xA01 rqDbg (1 <<< 2 ||| level) { s with dbg := { s.dbg with level := some (BitVec.ofNat 2 level) } }
    else chalFail level s

/-- DROP: the level returns to FLOOR (R427). -/
def levelDrop (s : State) : State := dbgChange s { s with dbg := { s.dbg with level := none } }

/-- A write of DBG.AUTH_CMD; other requesters than debug are ignored. -/
def opAuthCmd (who : Req) (v : Word) (s : State) : State :=
  if who ≠ rqDbg then s
  else
    let s := if v.getLsbD 10 then levelDrop s else s
    let s := if v.getLsbD 9 then chalCheck (fld v 1 0) s else s
    if v.getLsbD 8 then newChal (fld v 1 0) s else s

/-- DBG.STATUS as it reads. -/
def dbgStatus (s : State) : Word :=
  setFld (setFld (setFld (setFld (s.reg Reg.dbgStatus) 4 4 s.boot.emu.toNat) 3 3 s.core.halted.toNat) 2 2 (attached s).toNat) 1 0 (dbgLevel s)

/-! ### The watchdog (R432, R434 to R437) -/

/-- An expiry: EA05, fail-safe trigger 5. -/
def wdtExpire (cause : Nat) (s : State) : State := failsafe 0xA05 12 cause s

/-- A completed refresh. -/
def wdtRefresh (s : State) : State :=
  let min := 2500 * s.getF Reg.wdtCfg 15 0
  if s.wdt.since < min ∧ !s.wdt.graced then wdtExpire 2 s
  else wdtLoad { s with wdt := { s.wdt with graced := false } }

/-- A write of WDT.KICK: the locked sequence of R432; a refresh while STATE is not ON is ignored (R437). -/
def opKick (who : Req) (v : Word) (s : State) : State :=
  let key := fld v 35 24
  let live := s.boot.seqKick
  let second := decide (key = 0x92E) && decide (live = some who)
  let s := if second then s else seqOther Reg.wdtKick live who s
  let s := { s with boot := { s.boot with seqKick := seqAfter live who (decide (key = 0x6D1)) second } }
  if second ∧ s.fn .wdt = fnOn then wdtRefresh s else s

/-- The count is frozen by a halt (R436). -/
def wdtFrozen (s : State) : Bool := s.core.halted && !s.getB Reg.wdtXcfg 0

/-! ### Commands -/

/-- nTRST low, or five TCK edges with TMS high. -/
def execTapReset (s : State) : Host.Outcome State Fault Refusal := .next (if s.boot.porHeld then s else irSelect 0x01 s)

def execExtest (dr : BitVec 2160) (s : State) : Host.Outcome State Fault Refusal := .next (tap 0x00 (boundaryScan dr) s)

def execIdcode (s : State) : Host.Outcome State Fault Refusal := .next (tap 0x01 (setCapture (BitVec.ofNat 2160 idcodeOf)) s)

def execSamplePreload (dr : BitVec 2160) (s : State) : Host.Outcome State Fault Refusal := .next (tap 0x02 (boundaryScan dr) s)

def execClamp (s : State) : Host.Outcome State Fault Refusal := .next (tap 0x03 (setCapture 0) s)

def execHighz (s : State) : Host.Outcome State Fault Refusal := .next (tap 0x04 (setCapture 0) s)

def execDtmcs (s : State) : Host.Outcome State Fault Refusal := .next (tap 0x10 dtmcsScan s)

/-- BYPASS, and any code that acts as it (R421). -/
def execBypass (code : BitVec 8) (s : State) : Host.Outcome State Fault Refusal :=
  .next (if s.boot.porHeld then s else irSelect code.toNat s)

def execHaltRequest (s : State) : Host.Outcome State Fault Refusal := .next (opHalt s)

def execResumeRequest (s : State) : Host.Outcome State Fault Refusal := .next (opResume s)

def execAbstractCommand (write : Bool) (regno : BitVec 16) (s : State) : Host.Outcome State Fault Refusal :=
  .next (opAbstract write regno.toNat s)

/-- The debugger detaches: dmactive goes to 0. -/
def execDebuggerDetach (s : State) : Host.Outcome State Fault Refusal := .next (setDmactive false s)

def execNewChal (who : Req) (v : Word) (s : State) : Host.Outcome State Fault Refusal :=
  .next (gateW who Reg.dbgAuthCmd (opAuthCmd who v) s)

def execCheck (who : Req) (v : Word) (s : State) : Host.Outcome State Fault Refusal :=
  .next (gateW who Reg.dbgAuthCmd (opAuthCmd who v) s)

def execDrop (who : Req) (v : Word) (s : State) : Host.Outcome State Fault Refusal :=
  .next (gateW who Reg.dbgAuthCmd (opAuthCmd who v) s)

/-- A challenge has not been checked for 10 s (R428). -/
def execChallengeExpiry (s : State) : Host.Outcome State Fault Refusal := .next (s.setB Reg.dbgStatus 9 false)

def execWdtKickFirst (who : Req) (s : State) : Host.Outcome State Fault Refusal :=
  .next (gateW who Reg.wdtKick (opKick who (wd (0x6D1 <<< 24))) s)

def execWdtKickSecond (who : Req) (s : State) : Host.Outcome State Fault Refusal :=
  .next (gateW who Reg.wdtKick (opKick who (wd (0x92E <<< 24))) s)

/-- The count reaches 0: it cannot in RETAIN, where it is frozen (R80), nor while a halt freezes it (R436). -/
def execWatchdogExpiry (s : State) : Host.Outcome State Fault Refusal :=
  .next (if s.fn .wdt = fnOn ∧ s.mode ≠ .retain ∧ !wdtFrozen s then wdtExpire 1 { s with wdt := { s.wdt with count := 0 } } else s)

end Sys2Proof.Machine
end

