-- ==== Sys2Proof/Machine/RegAccess.lean ====
section
/-! DEFINITION. The register space as a whole: what a read of any register returns and does, what a write does (R6, R7, R28, R42, R43, and
the register tables of every block). -/

namespace Sys2Proof.Machine

/-! ### Addresses (R42) -/

/-- A block of R42's table holds the address. -/
def inBlock (a : Nat) : Bool :=
  decide (a < 0x4000) || (decide (0x10000 ≤ a) && decide (a < 0x100000)) || isUser a

/-- The region whose share of the user register window holds the address (R28). -/
def userRegion (a : Nat) : Nat := (a - 0x100000) / 0x4000

/-- A shared FIFO's number and register, where the offset is one of its four and the FIFO exists (R163). -/
def userFifo (s : State) (a : Nat) : Option (Nat × Nat) :=
  let off := a % 0x4000
  if 0x3FF0 ≤ off ∧ (sharedFifo s (userRegion a) ((off - 0x3FF0) / 4)).isSome then some ((off - 0x3FF0) / 4, off % 4) else none

/-- Index of an address in a bank of `n` registers, `st` apart. -/
def bankIx (a base n st : Nat) : Option Nat :=
  if base ≤ a ∧ (a - base) % st = 0 ∧ (a - base) / st < n then some ((a - base) / st) else none

/-- The region and offset of an RGN register. -/
def rgnOf (a : Nat) : Nat × Nat := ((a - 0x80000) / 0x2000, (a - 0x80000) % 0x2000)

/-- An unmapped address; an I3C access of it is noted (R42). -/
def unmapped (who : Req) (s : State) : State := if who = rqI3c then s.setB Reg.sysHifStatus 1 true else s

/-- The function whose STATUS register stands at an address. -/
def statusFunc (a : Nat) : Option Func :=
  if a = Reg.rhxStatus then some .rhx
  else if a = Reg.flcStatus then some .flc
  else if a = Reg.wdtStatus then some .wdt
  else match bankIx a (Reg.mshPStatus 0) 8 2, bankIx a (Reg.scrSerStatus 0) 6 16, bankIx a (Reg.scrTmrStatus 0) 16 8 with
    | some p, _, _ => some (.mesh (Fin.ofNat 8 p))
    | _, some k, _ => some (.serial (Fin.ofNat 6 k))
    | _, _, some k => some (.tmr (Fin.ofNat 16 k))
    | _, _, _ => none

/-- The function whose CTRL register stands at an address. -/
def ctrlFunc (a : Nat) : Option Func :=
  if a = Reg.scrBeaterCtrl then some .beater else if a = 0 then none else statusFunc (a + 1)

/-- The CLAIM register of a peripheral's buffer or timer that owns the register at an address (R351): CTRL, CFG, DATA, COUNT, compare. -/
def periphClaimOf (a : Nat) : Option Nat :=
  if 0x30200 ≤ a ∧ a < 0x30260 ∧ (a % 16 = 0 ∨ (2 ≤ a % 16 ∧ a % 16 ≤ 4)) then some (Reg.scrSerClaim ((a - 0x30200) / 16))
  else if 0x30300 ≤ a ∧ a < 0x30380 ∧ (a % 8 = 0 ∨ (2 ≤ a % 8 ∧ a % 8 ≤ 5)) then some (Reg.scrTmrClaim ((a - 0x30300) / 8))
  else none

/-! ### What a register shows -/

/-- The stored fields of a register that read back (R6, R8). -/
def storedShow (s : State) (a : Nat) : Word :=
  match Fam.at? a with
  | some f => wd ((s.reg a).toNat &&& (f.rw ||| f.w1c ||| f.rc ||| f.ro))
  | none => 0

/-- Registers of SYS, PWR and CLK that show fuses or state (R57, R85, R105, R106). -/
def svcDomShow (s : State) (who : Req) (a : Nat) : Word :=
  if a = Reg.sysId then
    wd (0x1840 <<< 20 ||| speedGrade <<< 16 ||| (if Config.fuseGradeE then 0xE else 0xC) <<< 12 ||| Config.stepping.toNat <<< 8 ||| 1)
  else if a = Reg.sysWmark 0 then wd (fld Config.watermark 31 0)
  else if a = Reg.sysWmark 1 then wd (fld Config.watermark 63 32)
  else if a = Reg.sysMode then wd ((s.getF Reg.sysMode 8 8) <<< 8 ||| healthCode s <<< 4 ||| s.mode.code)
  else if a = Reg.sysTimeLo then wd s.evt.time.toNat
  else if a = Reg.sysTimeHi then Store.get (fun _ => 0) s.evt.timeLatch who.toNat
  else if a = Reg.sysEvtStatus then evtStatRead s
  else if a = Reg.pwrGovStatus then setFld (s.reg a) 6 0 s.gov.queue.length
  else if a = Reg.pwrMonCfg then setFld (wd (s.getF a 15 0)) 23 16 (unsgn (tempWarn s) 8)
  else match bankIx a (Reg.sysEvtPop 0) 4 1, bankIx a (Reg.pwrRailV 0) 22 1 with
    | some i, _ => evtPopWord s i
    | _, some i => if s.boot.powerGood then wd (Config.railMv i s.free).toNat else storedShow s a
    | _, _ => storedShow s a

/-- PIN (R419). -/
def pinShow (s : State) (a : Nat) : Word :=
  match bankIx a (Reg.pinCfg 0) 720 1, bankIx a (Reg.pinGpio 0) 720 1, bankIx a (Reg.pinClaim 0) 720 1 with
  | some i, _, _ => pinCfgRead s i
  | _, some i, _ => pinGpioRead s i
  | _, _, some i => storedShow s (Reg.pinClaim (pinBase s i))
  | _, _, _ =>
    match bankIx a (Reg.pinIn 0) 30 1, bankIx a (Reg.pinEdge 0) 30 1 with
    | some ix, _ => pinInRead s ix
    | _, some ix => pinEdgeRead s ix
    | _, _ => storedShow s a

/-- CFG.STATUS.STATE (R201). -/
def LdState.code : LdState → Nat
  | .idle => 0
  | .header => 1
  | .verify => 2
  | .body => 3
  | .fcmd => 4
  | .commit => 5

/-- CFG (R201, R219). -/
def cfgShow (s : State) (who : Req) (a : Nat) : Word :=
  if a = Reg.cfgStatus then wd (s.getF a 35 24 <<< 24 ||| s.ld.src.toNat <<< 4 ||| s.ld.st.code)
  else if a = Reg.cfgFaw then s.ld.faw
  else if a = Reg.cfgRdata then s.ld.rdata.headD 0
  else if a = Reg.cfgRdataStatus then wd (min 256 s.ld.rdata.length <<< 1 ||| s.ld.rdata.isEmpty.toNat)
  else if a = Reg.cfgSwapStatus then swapStatusRead s
  else if a = Reg.cfgSwapEdgeHi then Store.get (fun _ => 0) s.evt.edgeLatch who.toNat
  else storedShow s a

/-- CAL (R234). -/
def calShow (s : State) (a : Nat) : Word :=
  if a = Reg.calStatus then calStatus s
  else match bankIx a (Reg.calPos 0) 65 1 with
    | some l => calPos s l
    | none => storedShow s a

/-- FLC (R397). -/
def flcShow (s : State) (a : Nat) : Word :=
  if a = Reg.flcStatus then
    setFld (setFld (statRead .flc s) 34 34 s.flash.move.isSome.toNat) 21 16 s.flash.recov.length
  else if a = Reg.flcBankStatus then bankStatus s
  else if a = Reg.flcXipStatus then setFld (s.reg a) 34 34 Config.fuseXoDebug.toNat
  else if a = Reg.flcRecov then s.flash.reports.headD 1
  else storedShow s a

/-- SCR (R368). -/
def scrShow (s : State) (a : Nat) : Word :=
  if a = Reg.scrBeaterStatus then setFld (beaterStatRead s) 3 3 (fnPend s .beater).toNat
  else if a = Reg.scrIrqTake then wd (irqBest s)
  else match bankIx a (Reg.scrBankCfg 0) 16 1, bankIx a (Reg.scrIrqPend 0) 4 1, bankIx a (Reg.scrSerStatus 0) 6 16 with
    | some b, _, _ => bankCfgRead s b
    | _, some k, _ => irqPendRead s k
    | _, _, some k => setFld (serStatRead s k) 3 3 (fnPend s (.serial (Fin.ofNat 6 k))).toNat
    | _, _, _ =>
      match bankIx a (Reg.scrTmrStatus 0) 16 8, bankIx a (Reg.scrSerRx 0) 6 16, bankIx a (Reg.scrBankRepair 0) 16 1 with
      | some k, _, _ => statRead (.tmr (Fin.ofNat 16 k)) s
      | _, some k, _ => (s.ser k).rx.headD (serEmpty k)
      | _, _, some b => storedShow s (Reg.scrBankRepair b)
      | _, _, _ => storedShow s a

/-- RHX (R289). -/
def rhxShow (s : State) (a : Nat) : Word :=
  if a = Reg.rhxStatus then setFld (statRead .rhx s) 25 16 (inFlight s)
  else if a = Reg.rhxAllocStatus then allocStatus s
  else if a = Reg.rhxAgeStatus then ageStatus s
  else if a = Reg.rhxCmdStatus then cmdStatus s
  else if a = Reg.rhxOccupancy then occupancy s
  else match bankIx a (Reg.rhxAlloc 0) 10 1, bankIx a (Reg.rhxCmdRsp 0) 4 1 with
    | some n, _ => allocRead s n
    | _, some i => cmdRspWord s i
    | _, _ => storedShow s a

/-- MSH (R340). -/
def mshShow (s : State) (a : Nat) : Word :=
  if a = Reg.mshNodeStatus then setFld (s.reg a) 35 33 s.mstate
  else match bankIx a (Reg.mshNht 0) 1024 1, bankIx a (Reg.mshPStatus 0) 8 2 with
    | some n, _ => nhtRead s n
    | _, some p => statRead (.mesh (Fin.ofNat 8 p)) s
    | _, _ => storedShow s a

/-- DBG, WDT, SVC and SEC (R202, R428, R439, R440, R458). -/
def securityShow (s : State) (who : Req) (a : Nat) : Word :=
  if a = Reg.dbgPolicy then wd Config.fuseDbgPolicy.toNat
  else if a = Reg.dbgStatus then dbgStatus s
  else if a = Reg.dbgTraceData then Store.get (fun _ => 0) s.dbg.trace (s.getF Reg.dbgTraceCtrl 15 8)
  else if a = Reg.wdtStatus then statRead .wdt s
  else if a = Reg.wdtRemain then wd s.wdt.count
  else if a = Reg.svcStatus then
    setFld (setFld (s.reg a) 2 2 s.svc.test.isSome.toNat) 1 1 (s.svc.test.isSome || s.boot.heldService || who == rqSvc).toNat
  else if a = Reg.secPolicy then wd Config.fuseSecPolicy.toNat
  else if a = Reg.secRoll then setFld (setFld (s.reg a) 16 16 s.sec.rollTarget.isSome.toNat) 7 0 s.sec.rollCount.toNat
  else if a = Reg.secKrCtrl then setFld (storedShow s a) 1 1 s.sec.keyValid.toNat
  else match bankIx a (Reg.dbgChal 0) 8 1, bankIx a (Reg.secPkh 0) 12 1 with
    | some i, _ => if who = rqDbg then wd (s.dbg.chal.getD i 0).toNat else 0
    | _, some i => wd (fld Config.fusePkh (383 - 32 * i) (352 - 32 * i))
    | _, _ => storedShow s a

/-- RGN (R148). -/
def rgnShow (s : State) (a : Nat) : Word :=
  let r := rgnOf a
  match r.2 with
  | 0x01 => rgnStatus s r.1
  | 0x04 => (s.rg r.1).log.headD 1
  | 0x10 => rgnFence s r.1
  | _ => storedShow s a

/-- The value of a register outside the user window. -/
def regShow (s : State) (who : Req) (a : Nat) : Word :=
  if a < 0x3000 then svcDomShow s who a
  else if a < 0x4000 then pinShow s a
  else if a < 0x18000 then cfgShow s who a
  else if a < 0x20000 then calShow s a
  else if a < 0x30000 then flcShow s a
  else if a < 0x40000 then scrShow s a
  else if a < 0x50000 then rhxShow s a
  else if a < 0x60000 then mshShow s a
  else if a < 0x80000 then securityShow s who a
  else rgnShow s a

/-! ### Reads -/

/-- Values that a read draws: pads that nothing drives, voltages (R404, R106). -/
def readDraws (a : Nat) : Bool :=
  (decide (0x3300 ≤ a) && decide (a < 0x3600)) || (decide (0x3C00 ≤ a) && decide (a < 0x3C1E)) ||
  (decide (0x1010 ≤ a) && decide (a < 0x1026))

/-- A read answers the register's value, and clears its RC fields unless it peeks (R6, R7). -/
def plainRead (who : Req) (peek : Bool) (a : Nat) (s : State) : State :=
  let t := answer (regShow s who a) (if readDraws a then s.draw else s)
  match Fam.at? a with
  | some f => if peek || f.rc == 0 then t else t.setReg a (wd ((t.reg a).toNat &&& ((2 ^ 36 - 1) ^^^ f.rc)))
  | none => t

/-- Registers whose read does more than clear its own bits. -/
def popRead (who : Req) (peek : Bool) (a : Nat) : Option (State → State) :=
  if a = Reg.sysTimeLo then some (opTimeLo who)
  else if a = Reg.sysEvtPop 3 then some (opEvtPop peek)
  else if a = Reg.cfgRdata then some (opRdata peek)
  else if a = Reg.cfgSwapEdgeLo then some (opEdgeLo who)
  else if a = Reg.flcRecov then some (opRecovRead peek)
  else if a = Reg.scrIrqTake then some (opIrqTake peek)
  else if a = Reg.rhxCmdRsp 3 then some (opCmdPop peek)
  else match bankIx a (Reg.scrSerRx 0) 6 16 with
    | some k => some (opSerRx k who peek)
    | none => if 0x80000 ≤ a ∧ a < 0x100000 ∧ (rgnOf a).2 = 4 then some (opRgnLog (rgnOf a).1 peek) else none

/-- The design in a region implements registers: it follows from the image whose configuration the region runs (R28). -/
def userImplements (s : State) (n : Nat) : Bool := Config.userRegs n (s.reg (Reg.cfgRact n))

/-- A read in the user register window: a quarantined region answers with a bus error; a shared FIFO its registers; any other address
what the design in the region answers, zero where it implements no registers (R28, R163). -/
def userRead (who : Req) (peek : Bool) (a : Nat) (s : State) : State :=
  let n := userRegion a
  if s.getB (Reg.rgnStatus n) 0 then busErr s
  else match userFifo s a with
    | some (k, 0) => opFifoDataRead n k who peek s
    | some (k, 1) => fifoFor n k who (fun p s => answer (fifoFlags s n p) s) s
    | some (_, 2) => answer (s.reg a &&& 0xFF01FF) s
    | some _ => answer 0 s
    | none => if userImplements s n then answer (Config.userWindow a s.free) s.draw else answer 0 s

/-- What a read of a block that answers does. -/
def readAct (who : Req) (peek : Bool) (a : Nat) (s : State) : State :=
  if isUser a then userRead who peek a s
  else match Fam.at? a with
    | none => unmapped who s
    | some _ =>
      let go := match popRead who peek a with
        | some op => op
        | none => plainRead who peek a
      match periphClaimOf a with
      | some c => periphOwned c who go s
      | none => go s

/-- An access by debug to a register with a locked sequence of another master cancels it (R432). -/
def seqTouch (who : Req) (a : Nat) (s : State) : State :=
  if who ≠ rqDbg then s
  else if a = Reg.pwrModeReq ∧ s.boot.seqMode ≠ some rqDbg then
    seqOther a s.boot.seqMode who { s with boot := { s.boot with seqMode := none } }
  else if a = Reg.wdtKick ∧ s.boot.seqKick ≠ some rqDbg then
    seqOther a s.boot.seqKick who { s with boot := { s.boot with seqKick := none } }
  else s

/-- A read of a register by a master (R6, R7, R28, R42, R43). -/
def regRead (who : Req) (peek : Bool) (a : Nat) (s : State) : State :=
  let s := begin who s
  if !served s who then s
  else if !inBlock a then unmapped who s
  else if !answersRead s a then unavail who s
  else readAct who (peeks who peek) a (seqTouch who a s)

/-! ### Writes -/

/-- A write of a register that has no action of its own: RW fields are stored, W1C bits cleared, all else is ignored (R6, R8). -/
def plainWrite (a : Nat) (v : Word) (s : State) : State :=
  match Fam.at? a with
  | some f =>
    let w := (s.reg a).toNat &&& ((2 ^ 36 - 1) ^^^ f.rw) ||| v.toNat &&& f.rw
    s.setReg a (wd (w &&& ((2 ^ 36 - 1) ^^^ (v.toNat &&& f.w1c))))
  | none => s

/-- SYS, PWR, CLK. -/
def svcDomWrite (who : Req) (a : Nat) (v : Word) : State → State :=
  if a = Reg.sysEvtCtrl then opEvtCtrl v
  else if a = Reg.sysEvtRd then opEvtRd v
  else if a = Reg.pwrGovCfg then opGovCfg v
  else if a = Reg.pwrMonCfg then opMonCfg v
  else if a = Reg.pwrModeReq then opModeReq who v
  else match bankIx a (Reg.clkGcl 0) 16 1 with
    | some n => opGcl n v
    | none => plainWrite a v

def pinWrite (who : Req) (a : Nat) (v : Word) : State → State :=
  match bankIx a (Reg.pinCfg 0) 720 1, bankIx a (Reg.pinGpio 0) 720 1, bankIx a (Reg.pinClaim 0) 720 1 with
  | some i, _, _ => opPinCfg i who v
  | _, some i, _ => opPinGpio i who v
  | _, _, some i => opPinClaim i who v
  | _, _, _ =>
    match bankIx a (Reg.pinDly 0) 720 1, bankIx a (Reg.pinEdge 0) 30 1 with
    | some i, _ => opPinDly i who v
    | _, some ix => opPinEdge ix who v
    | _, _ => plainWrite a v

def cfgWrite (who : Req) (a : Nat) (v : Word) : State → State :=
  if a = Reg.cfgCmd then opCfgCmd v
  else if a = Reg.cfgSwapCmd then opSwapCmd v
  else if 0x11000 ≤ a ∧ a < 0x12000 then ldOffer 4 who [v]
  else plainWrite a v

def flcWrite (a : Nat) (v : Word) : State → State :=
  if a = Reg.flcRingBase then opRingBase v
  else if a = Reg.flcDescWr then opDescWr v
  else if a = Reg.flcCmplRd then opCmplRd v
  else if a = Reg.flcXcfg then opExpert a v
  else plainWrite a v

def scrRegWrite (who : Req) (a : Nat) (v : Word) : State → State :=
  if a = Reg.scrBeaterXcfg then opExpert a v
  else if a = Reg.scrIrqDone then opIrqDone v
  else match bankIx a (Reg.scrBankClaim 0) 16 1, bankIx a (Reg.scrBankCfg 0) 16 1, bankIx a (Reg.scrBankHandover 0) 16 1 with
    | some b, _, _ => opBankClaim b who v
    | _, some b, _ => opBankCfg b who v
    | _, _, some b => opHandover b who v
    | _, _, _ =>
      match bankIx a (Reg.scrSerTx 0) 6 16, bankIx a (Reg.scrSerClaim 0) 6 16, bankIx a (Reg.scrTmrClaim 0) 16 8 with
      | some k, _, _ => opSerTx k who v
      | _, some k, _ => claimWrite a ⟨5, k⟩ who v
      | _, _, some k => claimWrite a ⟨2, k⟩ who v
      | _, _, _ => plainWrite a v

def rhxWrite (who : Req) (a : Nat) (v : Word) : State → State :=
  if a = Reg.rhxAgeCmd then opAge none who (fld v 3 0)
  else if a = Reg.rhxWcSegEn then opWcSegEn v
  else if a = Reg.rhxWcCmd then opWcCmd v
  else if a = Reg.rhxKinsCtl then opKins who v
  else match bankIx a (Reg.rhxAlloc 0) 10 1, bankIx a (Reg.rhxCmdReq 0) 4 1 with
    | some n, _ => opAlloc n who v
    | _, some i => opCmdReq i who v
    | _, _ => plainWrite a v

def mshWrite (a : Nat) (v : Word) : State → State :=
  if a = Reg.mshCmd then opMshCmd v
  else if a = Reg.mshNodeCfg then opNodeCfg v
  else if a = Reg.mshTimeSetLo then fun s => { s with mesh := { s.mesh with timeSetLo := v } }
  else if a = Reg.mshTimeSetHi then opTimeSet v
  else if a = Reg.mshRraCmd then opRraCmd v
  else if a = Reg.mshPushCmd then opPushCmd v
  else plainWrite a v

/-- DBG.RESPi, from debug alone (R428). -/
def opResp (i : Nat) (who : Req) (v : Word) (s : State) : State :=
  if who = rqDbg then
    { s with dbg := { s.dbg with resp := Store.set (fun _ => 0) s.dbg.resp i (BitVec.ofNat 32 v.toNat) } }
  else s

/-- WDT.CFG, until LOCK is set (R434). -/
def opWdtCfg (v : Word) (s : State) : State := if wdtLocked s then s else plainWrite Reg.wdtCfg v s

def securityWrite (who : Req) (a : Nat) (v : Word) : State → State :=
  if a = Reg.dbgAuthCmd then opAuthCmd who v
  else if a = Reg.wdtCfg then opWdtCfg v
  else if a = Reg.wdtXcfg then opExpert a v
  else if a = Reg.wdtKick then opKick who v
  else if a = Reg.secRollAdv then opRollAdv who v
  else if a = Reg.secKrCtrl then opKrCtrl who v
  else if a = Reg.secKrData then opKrData who v
  else match bankIx a (Reg.dbgResp 0) 8 1 with
    | some i => opResp i who v
    | none => plainWrite a v

def rgnWrite (a : Nat) (v : Word) : State → State :=
  if (rgnOf a).2 = 0 then opRgnCmd (rgnOf a).1 v else plainWrite a v

/-- A write of a register outside the user window. -/
def writeAct (who : Req) (a : Nat) (v : Word) : State → State :=
  match ctrlFunc a with
  | some f => opCtrl f who v
  | none =>
    if a < 0x3000 then svcDomWrite who a v
    else if a < 0x4000 then pinWrite who a v
    else if a < 0x18000 then cfgWrite who a v
    else if a < 0x20000 then (if a = Reg.calCmd then opCalCmd v else plainWrite a v)
    else if a < 0x30000 then flcWrite a v
    else if a < 0x40000 then scrRegWrite who a v
    else if a < 0x50000 then rhxWrite who a v
    else if a < 0x60000 then mshWrite a v
    else if a < 0x80000 then securityWrite who a v
    else rgnWrite a v

/-- A write in the user register window; what the design in the region does with it is its own (R28, R163). -/
def userWrite (who : Req) (a : Nat) (v : Word) (s : State) : State :=
  let n := userRegion a
  if s.getB (Reg.rgnStatus n) 0 then busErr s
  else match userFifo s a with
    | some (k, 0) => opFifoDataWrite n k who v s
    | some (k, 1) => opFifoFlags n k who v s
    | some (k, 2) => claimWrite a ⟨4, 4 * n + k⟩ who v s
    | _ => s

/-- A write to a block that accepts it. -/
def writeGo (who : Req) (a : Nat) (v : Word) (s : State) : State :=
  if isUser a then userWrite who a v s
  else match Fam.at? a with
    | none => unmapped who s
    | some _ =>
      match periphClaimOf a with
      | some c => periphOwned c who (writeAct who a v) s
      | none => writeAct who a v s

/-- A write of a register by a master (R6, R28, R42, R43). -/
def regWrite (who : Req) (a : Nat) (v : Word) (s : State) : State :=
  let s := begin who s
  if !served s who then s
  else if !inBlock a then unmapped who s
  else if !answersWrite s a then unavail who s
  else writeGo who a v s

end Sys2Proof.Machine
end

