-- ==== Sys2Proof/Machine/Access.lean ====
section
/-! DEFINITION. The paths by which masters reach the register space: the interconnect's own accesses (R6, R51), the I3C target (R34 to R41),
the core (R343 to R345), remote access over the mesh (R325), DBGREG and the debug module (R424, R425). -/

namespace Sys2Proof.Machine

/-! ### I3C transfers (R34 to R41) -/

/-- A word of 40 bits from five bytes. -/
def word40 (a b c d e : Byte) : Word := wd ((((a.toNat * 256 + b.toNat) * 256 + c.toNat) * 256 + d.toNat) * 256 + e.toNat)

/-- The whole words of a byte stream, and whether a word whose top four bits are not zero ended them (R38). -/
def hifWords : List Byte → List Word × Bool
  | a :: b :: c :: d :: e :: rest =>
    if 16 ≤ a.toNat then ([], true)
    else
      let r := hifWords rest
      (word40 a b c d e :: r.1, r.2)
  | _ => ([], false)

/-- The next word address of a transfer (R40). -/
def hifNext (a : Nat) : Nat := (a + 1) % 2 ^ 24

/-- Write the words of a transfer in turn. -/
def hifPut (a : Nat) (ws : List Word) (s : State) : State :=
  match ws with
  | [] => s
  | w :: ws => hifPut (hifNext a) ws (regWrite rqI3c a w s)

/-- The address that a write sets: HDR-DDR reads start at that of the last command 0x10, SDR reads at that of the last private write
(R39, R41; DEDUCED: log entry 101). -/
def setPtr (ddr : Bool) (addr : Nat) (s : State) : State :=
  if ddr then { s with hif := { s.hif with ddrPtr := BitVec.ofNat 24 addr } }
  else { s with hif := { s.hif with ptr := BitVec.ofNat 24 addr } }

/-- A write transfer: three address bytes, then the words (R38, R39, R41). A transfer that ends within the address sets none. -/
def hifWrite (ddr : Bool) (bytes : List Byte) (s : State) : State :=
  let s := hifAck true [] s
  match bytes with
  | a :: b :: c :: rest =>
    let addr := (a.toNat * 256 + b.toNat) * 256 + c.toNat
    let ws := hifWords rest
    let s := hifPut addr ws.1 (setPtr ddr addr s)
    if ws.2 then s.setB Reg.sysHifStatus 0 true else s
  | _ => s

/-- The five bytes of a word (R39). -/
def wordBytes (w : Word) : List Byte := (List.range 5).map (fun i => BitVec.ofNat 8 (w.toNat >>> (8 * (4 - i))))

/-- Read words in turn, each a separate access that never peeks (R39, R40). -/
def hifGet (a n : Nat) (s : State) : List Byte × State :=
  match n with
  | 0 => ([], s)
  | n + 1 =>
    let t := regRead rqI3c false a s
    let r := hifGet (hifNext a) n t
    (wordBytes t.resp.data ++ r.1, r.2)

/-- A read transfer from the address in force; in HDR-DDR a byte completes an odd stream (R39, R41). -/
def hifRead (n : Nat) (ddr : Bool) (s : State) : State :=
  let r := hifGet (if ddr then s.hif.ddrPtr else s.hif.ptr).toNat n s
  hifAck true (if ddr ∧ r.1.length % 2 = 1 then r.1 ++ [0] else r.1) r.2

/-- The target answers an address in SDR or as an I2C target: its dynamic address, or until it holds one its static address (R36). -/
def hifAt (dst : Nat) (s : State) : Bool :=
  hifHears s && (if daValid s then dst == dynAddr s else dst == staticAddr s)

/-- The target answers HDR-DDR commands (R36, R41). -/
def hifDdr (s : State) : Bool := !s.boot.porHeld && s.hif.hdr && daValid s

/-! ### The core (R343 to R345) -/

/-- A word store to the register space: one 36-bit write with the staging nibble, which is then cleared. -/
def opCoreWrite (addr : BitVec 32) (w : Width) (data : BitVec 32) (s : State) : State :=
  if !coreRuns s then s
  else if !regRange addr ∨ w ≠ .word then coreExc 7 addr s
  else if !aligned addr w then coreExc 6 addr s
  else
    let s := regWrite rqCore (coreReg addr) (wd (s.core.staging.toNat <<< 32 ||| data.toNat)) s
    let s := { s with core := { s.core with staging := 0 } }
    if s.resp.err then coreExc 7 addr s else s

/-- A full read of a register by the core: bits 35:32 are latched with the address. A bus error leaves no latch. -/
def coreFull (addr : BitVec 32) (f : Word → BitVec 32) (s : State) : State :=
  let s := regRead rqCore false (coreReg addr) s
  let s := { s with core := { s.core with
    latchValid := !s.resp.err, latchNib := BitVec.ofNat 4 (fld s.resp.data 35 32), latchAddr := BitVec.ofNat 24 (coreReg addr) } }
  coreAnswer 5 addr f s

/-- A load from the register space. -/
def opCoreRead (addr : BitVec 32) (w : Width) (s : State) : State :=
  if !coreRuns s then s
  else if !regRange addr then coreExc 5 addr s
  else if !aligned addr w then coreExc 4 addr s
  else coreFull addr (fun d => laneGet (low32 d) addr w) s

/-- A read of the nibble alias: the latched nibble, or a full read. -/
def opNibbleRead (addr : BitVec 32) (s : State) : State :=
  if !coreRuns s then s
  else if !nibbleRange addr then coreExc 5 addr s
  else if !aligned addr .word then coreExc 4 addr s
  else if s.core.latchValid ∧ s.core.latchAddr.toNat = coreReg addr then
    { s with core := { s.core with data := s.core.latchNib.zeroExtend 32 } }
  else coreFull addr (fun d => BitVec.ofNat 32 (fld d 35 32)) s

/-! ### Remote access (R325) -/

/-- Blocks that a remote write does not reach. -/
def rraBarred (a : Nat) : Bool := decide (0x60000 ≤ a) && decide (a < 0x80000)

/-- Why a remote access is refused, as E60D; 0 for none. -/
def rraReason (write : Bool) (a : Nat) (s : State) : Nat :=
  if !s.getB Reg.mshRraCfg 0 then 3
  else if inBlock a ∧ !(if write then answersWrite s a else answersRead s a) then 1
  else if write ∧ (rraBarred a ∨ !s.getB Reg.mshRraCfg 1) then 2
  else 0

/-- The response; what an access that ended in a bus error answers is not stated. -/
def rraAnswer (src : Nat) (write : Bool) (s : State) : State :=
  if s.resp.err then meshSend src 2 vcRsp [Config.freeWord s.free &&& 0xFF0000000, 0] s.draw
  else meshSend src 2 vcRsp [0, if write then 0 else s.resp.data] s

/-- RRA_REQ at its target. -/
def opRraReq (src : Nat) (write : Bool) (a : Nat) (data : Word) (s : State) : State :=
  if !served s rqMesh then s
  else
    let why := rraReason write a s
    if why ≠ 0 then meshSend src 2 vcRsp [wd (1 <<< 32 ||| why <<< 28), 0] (raise 0x60D 0 (why <<< 10 ||| src) s)
    else rraAnswer src write (if write then regWrite rqMesh a data s else regRead rqMesh false a s)

/-! ### DBGREG (R425) -/

/-- The level allows the access: at NONE the registers that answer in every mode, at OBSERVE every read. -/
def dbgMay (write : Bool) (a : Nat) (s : State) : Bool :=
  dbgReads a || dbgLevel s == 2 || (dbgLevel s == 1 && !write)

/-- What Capture-DR of DBGREG loads. -/
def dbgCapture (s : State) : State :=
  let v := s.dbg.dbgOver.toNat <<< 38 ||| s.dbg.dbgNext.isSome.toNat <<< 37 ||| s.dbg.dbgErr.toNat <<< 36 ||| s.dbg.dbgData.toNat
  setCapture (BitVec.ofNat 2160 v) { s with dbg := { s.dbg with dbgOver := false } }

/-- The access of an Update-DR (R425). It acts at once and stays pending until the CK_SVC cycle has passed; an Update-DR that arrives
before makes no access and sets OVERRUN (DEDUCED: log entry 28). -/
def dbgAccess (write : Bool) (a : Nat) (data : Word) (s : State) : State :=
  if s.dbg.dbgNext.isSome then { s with dbg := { s.dbg with dbgOver := true } }
  else if !dbgMay write a s then
    let s := dbgRefuse 0x12 a s
    { s with dbg := { s.dbg with dbgErr := true } }
  else
    let s := if write then regWrite rqDbg a data s else regRead rqDbg true a s
    { s with dbg := { s.dbg with dbgNext := some (if write then s.dbg.dbgData else s.resp.data, s.resp.err) } }

/-- The pending access has ended. -/
def dbgSettle (s : State) : State :=
  match s.dbg.dbgNext with
  | some r => { s with dbg := { s.dbg with dbgData := r.1, dbgErr := r.2, dbgNext := none } }
  | none => s

/-! ### The debug module (R424; the RISC-V external debug specification 0.13.2, log entry 15) -/

/-- The first error of a system bus access stands until it is cleared. -/
def sbErr (e : Nat) (s : State) : State :=
  if s.dbg.sberror = 0 then { s with dbg := { s.dbg with sberror := BitVec.ofNat 3 e } } else s

/-- The end of a system bus access: its data, or a bus error. -/
def sbDone (f : Word → BitVec 32) (s : State) : State :=
  if s.resp.err then sbErr 7 s else { s with dbg := { s.dbg with sbData := f s.resp.data } }

/-- A full read of a register, as R345 has it, with the system bus's own latch. -/
def sbFull (addr : BitVec 32) (f : Word → BitVec 32) (s : State) : State :=
  let s := regRead rqDbg true (coreReg addr) s
  sbDone f { s with dbg := { s.dbg with
    sbLatchValid := !s.resp.err, sbLatchNib := BitVec.ofNat 4 (fld s.resp.data 35 32), sbLatchAddr := BitVec.ofNat 24 (coreReg addr) } }

/-- A read of the core's address map (R343). -/
def sbReadAt (addr : BitVec 32) (s : State) : State :=
  if regRange addr then sbFull addr low32 s
  else if nibbleRange addr then
    (if s.dbg.sbLatchValid ∧ s.dbg.sbLatchAddr.toNat = coreReg addr then
      { s with dbg := { s.dbg with sbData := s.dbg.sbLatchNib.zeroExtend 32 } }
     else sbFull addr (fun d => BitVec.ofNat 32 (fld d 35 32)) s)
  else if xipRange addr then sbDone low32 (opXip addr .debug s)
  else match scrRange addr with
    | some 1 => sbDone (fun d => BitVec.ofNat 32 (fld d 35 32)) (opScratch rqDbg (scrOff addr) none s)
    | some _ => sbDone low32 (opScratch rqDbg (scrOff addr) none s)
    | none => sbErr 2 s

/-- A partial write of a scratchpad word by the system bus. -/
def sbMerge (addr : BitVec 32) (f : Word → Word) (s : State) : State :=
  let s := begin rqDbg s
  let s := if scrUp s rqDbg then scrMerge rqDbg (scrOff addr) f s else s
  if s.resp.err then sbErr 7 s else s

/-- A write of the core's address map (R343 to R345, R347). -/
def sbWriteAt (addr data : BitVec 32) (s : State) : State :=
  if regRange addr then
    let s := regWrite rqDbg (coreReg addr) (wd (s.dbg.sbStaging.toNat <<< 32 ||| data.toNat)) s
    let s := { s with dbg := { s.dbg with sbStaging := 0 } }
    if s.resp.err then sbErr 7 s else s
  else if nibbleRange addr then { s with dbg := { s.dbg with sbStaging := BitVec.ofNat 4 data.toNat } }
  else if xipRange addr then sbErr 7 s
  else match scrRange addr with
    | some 0 => sbMerge addr (fun d => withLow d data) s
    | some 1 => sbMerge addr (fun d => setFld d 35 32 (fld data 3 0)) s
    | some 2 => sbMerge addr (fun d => withLow d (low32 d ||| data)) s
    | some _ => sbMerge addr (fun d => withLow d (low32 d &&& ~~~data)) s
    | none => sbErr 2 s

/-- One access of the system bus master at sbaddress0, which sbautoincrement then advances: 4 unsupported size, 3 alignment. -/
def sbAccess (write : Bool) (s : State) : State :=
  let addr := s.dbg.sbAddr
  if s.dbg.sberror ≠ 0 then s
  else if s.dbg.sbAccess ≠ 2 then sbErr 4 s
  else if !aligned addr .word then sbErr 3 s
  else
    let s := if write then sbWriteAt addr s.dbg.sbData s else sbReadAt addr s
    if s.dbg.sberror = 0 ∧ s.dbg.sbInc then { s with dbg := { s.dbg with sbAddr := s.dbg.sbAddr + 4 } } else s

/-- A system bus access at an address: OBSERVE reads, FULL writes too (R424). -/
def opSysBus (write : Bool) (addr data : BitVec 32) (s : State) : State :=
  if s.boot.porHeld then s
  else if dbgLevel s < (if write then 2 else 1) then dbgRefuse 0x11 0 (sbErr 7 s)
  else sbAccess write { s with dbg := { s.dbg with sbAddr := addr, sbAccess := 2, sbData := if write then data else s.dbg.sbData } }

/-- dmstatus: version 0.13, hasresethaltreq, authenticated at FULL, and the one hart's state. -/
def dmStatus (s : State) : Nat :=
  let two := fun (b : Bool) (lo : Nat) => (3 * b.toNat) <<< lo
  2 ||| 1 <<< 5 ||| (dbgLevel s == 2).toNat <<< 7 ||| two s.core.halted 8 ||| two (s.core.running && !s.core.halted) 10 |||
    two (!s.core.running && !s.core.halted) 12 ||| two s.dbg.resumeack 16 ||| two s.dbg.havereset 18

/-- sbcs: version 1, 32 address bits, 32-bit accesses. -/
def sbcs (s : State) : Nat :=
  1 <<< 29 ||| s.dbg.sbOnAddr.toNat <<< 20 ||| s.dbg.sbAccess.toNat <<< 17 ||| s.dbg.sbInc.toNat <<< 16 |||
    s.dbg.sbOnData.toNat <<< 15 ||| s.dbg.sberror.toNat <<< 12 ||| 32 <<< 5 ||| 4

/-- What a DMI read returns; hartinfo, whose fields the part's description does not give, is free. -/
def dmiShow (a : Nat) (s : State) : BitVec 32 :=
  match a with
  | 0x04 => s.dbg.data0
  | 0x10 => BitVec.ofNat 32 s.dbg.dmactive.toNat
  | 0x11 => BitVec.ofNat 32 (dmStatus s)
  | 0x12 => BitVec.ofNat 32 (Config.freeWord s.free).toNat
  | 0x16 => BitVec.ofNat 32 (s.dbg.cmderr.toNat <<< 8 ||| 1)
  | 0x38 => BitVec.ofNat 32 (sbcs s)
  | 0x39 => s.dbg.sbAddr
  | 0x3C => s.dbg.sbData
  | _ => 0

/-- A DMI read; with sbreadondata a read of sbdata0 makes the next system bus read. -/
def dmiRead (a : Nat) (s : State) : State :=
  let s := { s with dbg := { s.dbg with dmiAddr := BitVec.ofNat 7 a, dmiData := dmiShow a s } }
  if a = 0x12 then s.draw
  else if a = 0x3C ∧ s.dbg.sbOnData then sbAccess false s
  else s

/-- dmcontrol: dmactive, haltreq and resumereq, the acknowledgement of a reset, halt-on-reset. -/
def dmControl (v : BitVec 32) (s : State) : State :=
  let s := setDmactive (v.getLsbD 0) s
  if !s.dbg.dmactive then s
  else
    let s := if v.getLsbD 28 then { s with dbg := { s.dbg with havereset := false } } else s
    let s := if v.getLsbD 2 then { s with dbg := { s.dbg with haltOnReset := false } }
      else if v.getLsbD 3 then { s with dbg := { s.dbg with haltOnReset := true } } else s
    if v.getLsbD 31 then opHalt s
    else if v.getLsbD 30 then opResume { s with dbg := { s.dbg with resumeack := false } }
    else s

/-- command: Access Register of 32 bits alone; there is no program buffer (R424). -/
def dmCommand (v : BitVec 32) (s : State) : State :=
  if s.dbg.cmderr ≠ 0 then s
  else if fld v 31 24 ≠ 0 ∨ v.getLsbD 18 ∨ (v.getLsbD 17 ∧ fld v 22 20 ≠ 2) then setCmderr 2 s
  else if v.getLsbD 17 then opAbstract (v.getLsbD 16) (fld v 15 0) s
  else s

/-- A write of sbcs: its W1C error and its settings. -/
def sbcsWrite (v : BitVec 32) (s : State) : State :=
  { s with dbg := { s.dbg with
    sberror := s.dbg.sberror &&& ~~~(BitVec.ofNat 3 (fld v 14 12)), sbOnAddr := v.getLsbD 20, sbAccess := BitVec.ofNat 3 (fld v 19 17),
    sbInc := v.getLsbD 16, sbOnData := v.getLsbD 15 } }

/-- A DMI write that the level allows. -/
def dmiPut (a : Nat) (v : BitVec 32) (s : State) : State :=
  match a with
  | 0x04 => { s with dbg := { s.dbg with data0 := v } }
  | 0x10 => dmControl v s
  | 0x16 => { s with dbg := { s.dbg with cmderr := s.dbg.cmderr &&& ~~~(BitVec.ofNat 3 (fld v 10 8)) } }
  | 0x17 => dmCommand v s
  | 0x38 => sbcsWrite v s
  | 0x39 =>
    let s := { s with dbg := { s.dbg with sbAddr := v } }
    if s.dbg.sbOnAddr then sbAccess false s else s
  | 0x3C => if s.dbg.sberror ≠ 0 then s else sbAccess true { s with dbg := { s.dbg with sbData := v } }
  | _ => s

/-- A DMI write that the level refuses: EA04, with the error of the registers that have one (R424). -/
def dmiRefuse (a : Nat) (s : State) : State :=
  let s := if a = 0x3C then sbErr 7 s else if a = 0x04 ∨ a = 0x16 ∨ a = 0x17 then setCmderr 7 s else s
  dbgRefuse 0x11 0 s

/-- One DMI access: what the last one gave is captured, then the access is made. -/
def opDmi (op : Nat) (a : Nat) (v : BitVec 32) (s : State) : State :=
  let s := setCapture (BitVec.ofNat 2160 (s.dbg.dmiAddr.toNat <<< 34 ||| s.dbg.dmiData.toNat <<< 2)) s
  if op = 1 then dmiRead a s
  else if op = 2 then
    let s := { s with dbg := { s.dbg with dmiAddr := BitVec.ofNat 7 a, dmiData := v } }
    if dbgLevel s = 2 ∨ a = 0x38 ∨ a = 0x39 then dmiPut a v s else dmiRefuse a s
  else s

/-! ### Commands -/

def execRegisterWriteTransfer (dst : BitVec 7) (bytes : List Byte) (s : State) : Host.Outcome State Fault Refusal :=
  .next (if hifAt dst.toNat s then hifWrite false bytes s else hifAck false [] s)

def execRegisterReadTransfer (dst : BitVec 7) (words : Nat) (s : State) : Host.Outcome State Fault Refusal :=
  .next (if hifAt dst.toNat s then hifRead words false s else hifAck false [] s)

def execHdrDdrWrite (bytes : List Byte) (s : State) : Host.Outcome State Fault Refusal :=
  .next (if hifDdr s then hifWrite true bytes s else hifAck false [] s)

def execHdrDdrRead (words : Nat) (s : State) : Host.Outcome State Fault Refusal :=
  .next (if hifDdr s then hifRead words true s else hifAck false [] s)

def execRegisterWrite (who : Req) (addr : Addr) (v : Word) (s : State) : Host.Outcome State Fault Refusal :=
  .next (regWrite who addr.toNat v s)

/-- A write of OWNER to a CLAIM register (R51). -/
def execClaim (who : Req) (addr : Addr) (v : Word) (s : State) : Host.Outcome State Fault Refusal :=
  .next (regWrite who addr.toNat (setFld v 35 35 0) s)

/-- A write with RELEASE set to a CLAIM register (R51). -/
def execRelease (who : Req) (addr : Addr) (v : Word) (s : State) : Host.Outcome State Fault Refusal :=
  .next (regWrite who addr.toNat (setFld v 35 35 1) s)

/-- A read without the peek attribute (R6, R7). -/
def execRcRead (who : Req) (addr : Addr) (s : State) : Host.Outcome State Fault Refusal := .next (regRead who false addr.toNat s)

def execRraReq (src : BitVec 10) (write : Bool) (addr : Addr) (data : Word) (s : State) : Host.Outcome State Fault Refusal :=
  .next (opRraReq src.toNat write addr.toNat data (inboxTake 1 s))

def execCoreRegisterWrite (addr : BitVec 32) (w : Width) (data : BitVec 32) (s : State) : Host.Outcome State Fault Refusal :=
  .next (opCoreWrite addr w data s)

def execCoreRegisterRead (addr : BitVec 32) (w : Width) (s : State) : Host.Outcome State Fault Refusal := .next (opCoreRead addr w s)

def execNibbleRead (addr : BitVec 32) (s : State) : Host.Outcome State Fault Refusal := .next (opNibbleRead addr s)

def execDmi (op : BitVec 2) (addr : BitVec 7) (data : BitVec 32) (s : State) : Host.Outcome State Fault Refusal :=
  .next (tap 0x11 (opDmi op.toNat addr.toNat data) s)

def execDbgregUpdate (write : Bool) (addr : Addr) (data : Word) (s : State) : Host.Outcome State Fault Refusal :=
  .next (tap 0x12 (fun s => dbgAccess write addr.toNat data (dbgCapture s)) s)

def execSystemBusAccess (write : Bool) (addr data : BitVec 32) (s : State) : Host.Outcome State Fault Refusal :=
  .next (opSysBus write addr data s)

end Sys2Proof.Machine
end

