-- ==== Sys2Proof/WellFormed.lean ====
section
/-! DEFINITION. Which commands are well formed: the bounds that the spec gives an operand and its type does not carry. -/

namespace Sys2Proof

/-- A requester of R50's table. -/
def reqOk (r : Req) : Bool :=
  let n := r.toNat
  (decide (1 ≤ n) && decide (n ≤ 6)) || (decide (0x10 ≤ n) && decide (n ≤ 0x17)) ||
  (decide (0x20 ≤ n) && decide (n ≤ 0x25)) || (decide (0x40 ≤ n) && decide (n ≤ 0x7f))

/-- The rates that BAUD accepts (R441). -/
def baudOk (n : Nat) : Bool := [115200, 230400, 460800, 921600, 1500000, 3000000].contains n

/-- A packet carries at most 64 payload words (R300). -/
def Packet.ok (k : Packet) : Bool := decide (k.payload.length ≤ 64)

/-- A word of the engine's memories (R236 to R241, R285). -/
def engIxOk (m : EngMem) (ix : Nat) : Bool :=
  match m with
  | .context => decide (ix < 4194304)
  | .key => decide (ix < 4194304)
  | .stash => decide (ix < 256)
  | .wildcard => decide (ix < 57344)

/-- An upset strikes a word that exists. -/
def UpsetAt.ok : UpsetAt → Bool
  | .config _ seg col minor _ _ =>
    let g := seg.toNat
    let c := col.toNat
    let m := minor.toNat
    if g < 64 then
      decide (c < 29) && decide (m < (if c = 6 ∨ c = 20 ∨ c = 13 ∨ c = 28 then 16 else 64))
    else if g < 79 then decide (c = 0) && decide (m < 2)
    else if g = 79 ∨ g = 127 then decide (c = 0) && decide (m < 4)
    else if g < 88 then decide (c = 0) && decide (m = 0)
    else if g = 88 then decide (c = 0) && decide (m < 34)
    else false
  | .lut c _ => decide (c.col.val ≠ 6) && decide (c.col.val ≠ 20) && decide (c.col.val ≠ 13) && decide (c.col.val ≠ 28)
  | .ram36 b _ _ => decide (b.col.val = 6) || decide (b.col.val = 20)
  | .scratch _ _ => true
  | .engine m ix _ => engIxOk m ix
  | .flash _ _ => true
  | .calender _ _ _ _ => true
  | .golden _ c _ => decide (c.col.val ≠ 6) && decide (c.col.val ≠ 20) && decide (c.col.val ≠ 13) && decide (c.col.val ≠ 28)

/-- Columns of Quires, of RAM36 blocks and of MAC36 blocks (R10, R149). -/
def BlkAddr.quire (b : BlkAddr) : Bool := decide (b.col.val < 28) && b.col.val != 6 && b.col.val != 13 && b.col.val != 20
def BlkAddr.ram (b : BlkAddr) : Bool := b.col.val == 6 || b.col.val == 20
def BlkAddr.mac (b : BlkAddr) : Bool := b.col.val == 13

/-- A code with which a self-test ends: E000, or a class code of its table (R452, R453). -/
def testCodeOk (c : Code) : Bool := [0x000, 0x102, 0x103, 0x508, 0x602, 0x702, 0x703].contains c.toNat

/-- A command is well formed. -/
def Instr.wf (i : Instr) : Bool :=
  match i with
  | .temperatureSample r => decide (r.length = 8)
  | .scrubRead ls => decide (ls.Pairwise (fun a b => a.val < b.val))
  | .requestPromotedUrgent t _ => decide (t < 20)
  | .registerReadTransfer _ n => decide (1 ≤ n)
  | .hdrDdrRead n => decide (1 ≤ n)
  | .streamHeader ws => decide (1 ≤ ws.length) && decide (ws.length ≤ 256)
  | .tagSegment ws => decide (1 ≤ ws.length) && decide (ws.length ≤ 4100)
  | .linkPacketReceived _ ws => decide (3 ≤ ws.length) && decide (ws.length ≤ 67)
  | .join _ _ ls => decide (ls.length ≤ 8)
  | .lsa _ l => decide (l.links.length ≤ 8)
  | .packetForward _ k => k.ok
  | .imgData _ _ _ _ _ ws => decide (1 ≤ ws.length) && decide (ws.length ≤ 63)
  | .imgRb ws => decide (1 ≤ ws.length) && decide (ws.length ≤ 64)
  | .user _ _ _ _ _ d => decide (1 ≤ d.length) && decide (d.length ≤ 15)
  | .svcEvtK k => decide (1 ≤ k) && decide (k ≤ 16)
  | .svcAuthResponse r => decide (r.length = 8)
  | .svcBaud n => baudOk n
  | .svcInvalidLine r => decide (1 ≤ r.toNat) && decide (r.toNat ≤ 3)
  | .upset u => u.ok
  | .enginePatrol m ix => engIxOk m ix
  | .lutramWrite e _ => e.q.quire
  | .cellShift e _ => e.q.quire
  | .ram36Write b _ _ => b.ram
  | .ram36Read b _ _ _ _ => b.ram
  | .ram36CollClr b => b.ram
  | .fifoWrite b _ => b.ram
  | .fifoRead e => e.blk.ram
  | .fifoRst b => b.ram
  | .mac36Accumulate b _ _ => b.mac
  | .registerWrite who _ _ => reqOk who
  | .claim who _ _ => reqOk who
  | .release who _ _ => reqOk who
  | .scratchpadAccess who off b => reqOk who && decide (b.more.length + off.val % 4 ≤ 3)
  | .selfTestEnd (some e) => testCodeOk e.1
  | .rcRead who _ => reqOk who
  | _ => true

end Sys2Proof
end

