-- ==== Sys2Proof/Machine/Service.lean ====
section
/-! DEFINITION. The service port: its lines, gates and replies (R441 to R449), pins for a meter (R450, R451), self-tests (R452 to R455). -/

namespace Sys2Proof.Machine

open Crypto

/-! ### Replies -/

/-- "OK" with its values (R444). -/
def svcOk (vals : List SvcVal) (s : State) : State := svcReply (.ok vals) s

/-- The port's session is authenticated. -/
def svcAuthed (s : State) : Bool := s.getB Reg.svcStatus 0

/-- A read by a status command peeks (R445). -/
def svcRead (a : Nat) (s : State) : Word × State :=
  let t := regRead rqSvc true a s
  (t.resp.data, t)

def svcReads (as : List Nat) (s : State) : List Word × State :=
  match as with
  | [] => ([], s)
  | a :: as =>
    let r := svcRead a s
    let q := svcReads as r.2
    (r.1 :: q.1, q.2)

/-- The register's block runs on the root clock (R43, R93). -/
def rootClocked (a : Nat) : Bool := !(isService a || dbgReads a || isPin a)

/-- A command that reads registers and forms its reply from them; "ER E102" when it needs the absent root clock (R444, R93). -/
def svcShow (as : List Nat) (f : List Word → List SvcVal) (s : State) : State :=
  if rootStopped s ∧ as.any rootClocked then svcReply (.er 0x102) s
  else
    let r := svcReads as s
    svcOk (f r.1) r.2

/-- Nine hex digits (R444). -/
def hex9 (w : Word) : SvcVal := .hex 9 w.toNat

def wordAt (ws : List Word) (i : Nat) : Word := ws.getD i 0

/-- A quotient as a whole number; which way the part rounds is not stated. -/
def whole (n : Int) (d : Int) (s : State) : Int × State :=
  (n / d + (if n % d ≠ 0 ∧ Config.freeBit s.free then 1 else 0), s.draw)

/-! ### Status commands (R446) -/

/-- CX1840-s-t-FB2601: speed and temperature grade. -/
def svcPart : String :=
  "CX1840-" ++ toString speedGrade ++ "-" ++ (if Config.fuseGradeE then "E" else "C") ++ "-FB2601"

def svcIdVals : List SvcVal := [.text svcPart, .dec Config.stepping.toNat, .hex 16 Config.watermark.toNat]

def svcHealthVals (s : State) : List SvcVal := [.dec (healthCode s), .dec (100 * (healthCode s + 1))]

/-- FS_CAUSE: the code and its HEALTH code. -/
def svcFsVals (s : State) : List SvcVal := [.code (BitVec.ofNat 12 (s.getF Reg.sysFsCause 11 0)), .dec (s.getF Reg.sysFsCause 15 12)]

/-- Free words, for a record that does not exist. -/
def freeWords (n : Nat) (s : State) : List Word × State :=
  ((List.range n).map (fun i => Config.freeWord (s.free + i)), { s with free := s.free + n })

/-- Word 0 of the newest event record. -/
def opEvtLast (s : State) : State :=
  match s.evt.newest with
  | some q => svcOk [hex9 q.w0] s
  | none =>
    let r := freeWords 1 s
    svcOk (r.1.map hex9) r.2

/-- Why a scratchpad access by the port failed: an uncorrectable word or the bank's owner (R356, R358). -/
def svcScrErr (before : State) (off : Nat) (write : Bool) (s : State) : State :=
  svcReply (.er (if bankServes before rqSvc off write = 0 then 0x803 else 0x804)) s

/-- Read consecutive scratchpad words and reply with them. -/
def svcScrReads (off n : Nat) (got : List Word) (s : State) : State :=
  match n with
  | 0 => svcOk (got.map hex9) s
  | n + 1 =>
    let t := opScratch rqSvc off none s
    if t.resp.err then svcScrErr s off false t else svcScrReads (off + 1) n (got ++ [t.resp.data]) t

/-- The k-th newest record: the service buffer's, then the ring's. -/
def opEvtK (k : Nat) (s : State) : State :=
  let n := s.evt.buf.length
  if 1 ≤ k ∧ k ≤ n then
    match s.evt.buf[n - k]? with
    | some q => svcOk [hex9 q.w0, hex9 q.w1, hex9 q.w2, hex9 q.w3] s
    | none => s
  else if s.getB Reg.sysEvtCtrl 0 then
    svcScrReads ((s.reg Reg.sysEvtBase).toNat + 4 * ((s.getF Reg.sysEvtWr 9 0 + 1024 + n - k) % 1024)) 4 [] s
  else
    let r := freeWords 4 s
    svcOk (r.1.map hex9) r.2

def svcI3cVals (s : State) : List SvcVal := [.dec (daValid s).toNat, .hex 2 (dynAddr s), .hex 2 (staticAddr s)]

/-- PWR.BOOT_STATUS field by field. -/
def svcBootVals (w : Word) : List SvcVal :=
  [.dec (fld w 3 0), .dec (fld w 5 4), .dec (fld w 6 6), .dec (fld w 7 7), .dec (fld w 8 8), .dec (fld w 31 16)]

/-- Whole degrees of each sensor. -/
def wholes (d : Int) (ns : List Int) (s : State) : List SvcVal × State :=
  match ns with
  | [] => ([], s)
  | n :: ns =>
    let r := whole n d s
    let q := wholes d ns r.2
    (.dec r.1 :: q.1, q.2)

def opTemp (s : State) : State :=
  let r := svcReads ((List.range 8).map Reg.pwrTemp) s
  let q := wholes 4 (r.1.map (fun w => sgn (fld w 11 0) 12)) r.2
  svcOk q.1 q.2

/-- Numbers of the quarantined regions, or NONE. -/
def quarVals (ws : List Word) : List SvcVal :=
  match (List.range 64).filter (fun n => (wordAt ws n).getLsbD 0) with
  | [] => [.text "NONE"]
  | ns => ns.map (fun (n : Nat) => SvcVal.dec n)

/-- aaa rrr nnnn dd s. -/
def meshVals (ws : List Word) : List SvcVal :=
  let a := wordAt ws 0
  [.num 3 (fld a 31 22), .num 3 (fld a 21 12), .num 4 (fld (wordAt ws 1) 26 16), .num 2 (fld a 6 0), .num 1 (fld a 35 33)]

/-- l ooo rrr: the offset register counts 0.25 ns. -/
def opMeshTime (s : State) : State :=
  if rootStopped s then svcReply (.er 0x102) s
  else
    let r := svcRead Reg.mshTimeStatus s
    let q := whole (sgn (fld r.1 18 0) 19) 4 r.2
    svcOk [.dec (fld r.1 35 35), .dec q.1, .num 3 (fld r.1 28 19)] q.2

/-- STATE, and REMAIN in whole microseconds of 25 CK_SVC cycles. -/
def opSvcWdt (s : State) : State :=
  let r := svcReads [Reg.wdtStatus, Reg.wdtRemain] s
  let q := whole (fld (wordAt r.1 1) 27 0) 25 r.2
  svcOk [.dec (fld (wordAt r.1 0) 2 0), .dec q.1] q.2

/-! ### Register and scratchpad access (R445, R447) -/

/-- The Write gate (R447). -/
def svcMayWrite (s : State) : Bool := (s.mode == .service && s.getB Reg.sysMode 8) || svcAuthed s

/-- A bus error ends a command with the code that the refusing function raised; where it raised none, the reason is not stated. -/
def svcBusErr (before s : State) : State :=
  if s.evt.seq ≠ before.evt.seq then
    svcReply (.er s.evt.raised) s
  else svcReject ((Config.freeWord s.free).toNat % 16) s.draw

def opSvcRd (a : Nat) (peek : Bool) (s : State) : State :=
  if rootStopped s ∧ rootClocked a then svcReply (.er 0x102) s
  else
    let t := regRead rqSvc peek a s
    if t.resp.err then svcBusErr s t else svcOk [hex9 t.resp.data] t

/-- A write that resets the part gets no reply (R455): the reset has cleared the lines' count. -/
def opSvcWr (a : Nat) (v : Word) (s : State) : State :=
  if !svcMayWrite s then svcReject 5 s
  else if rootStopped s ∧ rootClocked a then svcReply (.er 0x102) s
  else
    let t := regWrite rqSvc a v s
    if t.resp.err then svcBusErr s t
    else if t.reg Reg.svcCntLines = 0 then t
    else svcOk [] t

def opSpRd (off : Nat) (s : State) : State :=
  if !s.getB Reg.clkRoot 1 then svcReply (.er 0x102) s else svcScrReads off 1 [] s

def opSpWr (off : Nat) (v : Word) (s : State) : State :=
  if !svcMayWrite s then svcReject 5 s
  else if !s.getB Reg.clkRoot 1 then svcReply (.er 0x102) s
  else
    let t := opScratch rqSvc off (some v) s
    if t.resp.err then svcScrErr s off true t else svcOk [] t

/-! ### Pins (R450, R451) -/

/-- FUNC, OWNER and IN. -/
def opSvcPin (i : Nat) (s : State) : State :=
  svcOk [.dec (pinFunc s i), .hex 2 (pinOwner s i), .dec (pinLevel s i).toNat] s.draw

/-- A pin goes into TEST with what the port drives on it. -/
def testPin (i : Nat) (d : BitVec 2) (s : State) : State :=
  let p := s.pn i
  let p' : Pin := { p with before := some (p.before.getD (BitVec.ofNat 2 (pinFunc s i))), testDrive := d, testAt := s.evt.time }
  funcSet i 3 (pinAt i s (s.setPn i p'))

/-- A pin leaves TEST for the FUNC it held before. -/
def unTestPin (i : Nat) (s : State) : State :=
  match (s.pn i).before with
  | some f => funcSet i f.toNat (s.setPn i { s.pn i with before := none })
  | none => s

/-- A drive form: 0 undriven, 1 high, 2 low, 3 square. -/
def opSvcDrive (i : Nat) (d : BitVec 2) (s : State) : State :=
  if s.mode ≠ .service then svcReject 4 s
  else if pinOddDiff s i then svcReject 2 s
  else svcOk [] (testPin i d s)

def opSvcRelease (i : Nat) (s : State) : State :=
  if s.mode ≠ .service then svcReject 4 s
  else if pinOddDiff s i then svcReject 2 s
  else svcOk [] (unTestPin i s)

/-! ### Authentication (R449) -/

/-- AUTH is not available: AUTH_EN = 0, KEY_SET = 0 or LOCKOUT = 1. -/
def authClosed (s : State) : Bool := !Config.fuseDbgPolicy.getLsbD 4 || !Config.fuseDbgPolicy.getLsbD 5 || lockedOut s

/-- A challenge with requested level 2. -/
def opSvcAuth (s : State) : State :=
  if authClosed s then svcReject 6 s
  else
    let ws := chalWords 2 s
    let t := { s with dbg := { s.dbg with svcChal := ws, svcChalValid := true, issued := s.dbg.issued + 1 }, free := s.free + 4 }
    svcOk (ws.map (fun w => SvcVal.hex 8 w.toNat)) t

/-- The response to it; a challenge serves one response. -/
def opSvcAuthResp (r : List (BitVec 32)) (s : State) : State :=
  if authClosed s then svcReject 6 s
  else
    let ok := s.dbg.svcChalValid && decide (r.flatMap (fun w => beBytes 4 w.toNat) = chalAnswer s.dbg.svcChal)
    let s := { s with dbg := { s.dbg with svcChalValid := false } }
    if ok then svcOk [] ((s.setF Reg.dbgStatus 7 5 0).setB Reg.svcStatus 0 true)
    else
      let t := authFail 2 s
      svcReply (.er (if lockedOut t then 0xA03 else 0xA02)) t

def svcLogout (s : State) : State := s.setB Reg.svcStatus 0 false

/-! ### Mode commands (R58, R60, R76, R447) -/

/-- "ER E003" with E003 (R447): 4 SERVICE, 5 SERVICE EXIT; reasons 1 wrong mode, 7 gate closed. -/
def svcModeRefuse (req reason : Nat) (s : State) : State := svcReply (.er 0x003) (modeRefuse req reason true s)

/-- SERVICE: from INERT when authenticated, from RUN and RETAIN also with the SVC_MODE pin high; held during RETAIN entry. -/
def opService (pinHigh : Bool) (s : State) : State :=
  let s := { s with boot := { s.boot with svcModePin := pinHigh } }
  match s.mode with
  | .inert =>
    if s.boot.nrstLow then svcModeRefuse 4 1 s
    else if svcAuthed s then svcOk [] (serviceCold 0 s) else svcModeRefuse 4 7 s
  | .run | .retain =>
    if !(pinHigh || svcAuthed s) then svcModeRefuse 4 7 s
    else if s.boot.retain = .entering then { s with boot := { s.boot with heldService := true } }
    else svcOk [] (enterService s)
  | _ => svcModeRefuse 4 1 s

/-- SERVICE EXIT: with the image loaded and released, and no self-test; pins in TEST go back; a held release goes on to steps 6a to
6c, otherwise the clocks soft-start (R76). -/
def opServiceExit (s : State) : State :=
  if s.mode ≠ .service ∨ noImage s ∨ !s.boot.released ∨ s.svc.test.isSome then svcModeRefuse 5 1 s
  else if s.boot.exitRun then svcOk [] s
  else
    let s := forAll (List.range 720) unTestPin s
    let s := { s with boot := { s.boot with exitRun := true } }
    svcOk [] (if s.getB Reg.pwrBootStatus 8 then s else govAsk .exit 0 (estSum (fun _ => true) s) s)

/-- WAKE writes PWR.MODE_REQ with REQ 2. -/
def opSvcWake (s : State) : State :=
  if s.mode = .retain ∨ s.boot.retain = .entering then svcOk [] (regWrite rqSvc Reg.pwrModeReq 2 s) else svcReject 4 s

/-- The authenticated re-boot; it gets no reply. -/
def opReboot (toService nsafe : Bool) (s : State) : State :=
  if svcAuthed s then softReset rqSvc 3 toService { s with boot := { s.boot with nsafeLow := nsafe } } else svcReject 5 s

/-! ### The line's rate (R441, R442) -/

/-- The divider nearest to a rate. -/
def baudDiv (n : Nat) : Nat := (400000000 + n / 2) / n

/-- The reply goes out at the old rate, then the rate switches. -/
def opBaud (n : Nat) (s : State) : State :=
  if baudOk n then (svcOk [] s).setF Reg.svcCfg 15 0 (baudDiv n) else svcReject 2 s

/-! ### Self-tests (R452 to R455) -/

/-- The function that a test takes out of HELD; the watchdog's live count stays frozen. -/
def testFunc (t : TestRun) : Option Func :=
  match t.id.toNat with
  | 2 => some (.mesh (Fin.ofNat 8 t.arg.toNat))
  | 3 => some (.mesh (Fin.ofNat 8 t.arg.toNat))
  | 5 => some .rhx
  | _ => none

/-- Out of HELD for the test's duration; the state to return to stays recorded. -/
def testTake (f : Func) (s : State) : State :=
  if s.fn f = fnHeld then (s.setFn f fnOn).setF (fnStat f) 10 8 0 else s

/-- Back to HELD. -/
def testGive (f : Func) (s : State) : State :=
  if Store.get (fun _ => 0) s.fnHeld (fnIx f) = 0 then s
  else (s.setFn f fnHeld).setF (fnStat f) 10 8 Mode.service.code

/-- A test waits for the governor where R99 applies. -/
def testGov (f : Func) (s : State) : State :=
  match f with
  | .rhx => govAsk .engineStart 0 250 s
  | .mesh p => govAsk .meshPort p.val 5 (linkIdle p.val 1 s)
  | _ => s

/-- A test starts: HEALTH code 6; a mesh port trains as a test; TEST CAL injects its first mismatch, into engine A. -/
def testStart (id arg : Nat) (s : State) : State :=
  let t : TestRun := { id := BitVec.ofNat 8 id, arg := BitVec.ofNat 8 arg }
  let t' := { s with svc := { s.svc with test := some t, testFailed := false } }
  let t' := if id = 6 then { t' with cal := { t'.cal with inject := some false } } else t'
  let s := if id = 8 then pinsFrom s t' else t'
  match testFunc t with
  | none => s
  | some f =>
    let s := testGov f (testTake f s)
    match f with
    | .mesh p => s.setPort p.val { s.port p.val with test := true }
    | _ => s

/-- A test leaves its function as it found it. -/
def testLeave (s : State) : State :=
  match s.svc.test with
  | none => s
  | some t =>
    match testFunc t with
    | some (.mesh p) => testGive (.mesh p) (linkIdle p.val 0 s)
    | some f => testGive f s
    | none => s

/-- A self-test runs in SERVICE alone; one that needs the absent root clock is refused (R444, R452). -/
def opTest (id arg : Nat) (root : Bool) (s : State) : State :=
  if s.mode ≠ .service then svcReject 4 s
  else if root ∧ rootStopped s then svcReply (.er 0x102) s
  else testStart id arg s

/-- The reply and the record of a test that has ended (R452). -/
def testEnd (fail : Option (Nat × Nat)) (s : State) : State :=
  let s := testLeave s
  match fail with
  | none => svcOk [.text "PASS"] (testRecord 1 0 0 s)
  | some (c, d) =>
    let s := testRecord 2 (BitVec.ofNat 12 c) (wd d) s
    svcOk [.text "FAIL", .code (BitVec.ofNat 12 c), hex9 (wd d)] { s with svc := { s.svc with testFailed := true } }

/-- Failures of the flash and the engine are those of their own reads and lookups, which raise their codes (R374, R377, R257). -/
def testRaise (t : TestRun) (fail : Option (Nat × Nat)) (s : State) : State :=
  match fail with
  | some (c, d) => if c ≠ 0 ∧ (t.id = 1 ∨ t.id = 5) then raise (BitVec.ofNat 12 c) 0 d s else s
  | none => s

/-- The class codes with which a test can fail (R453). -/
def testCodes (id : Nat) : List Nat :=
  match id with
  | 1 => [0x703, 0x702]
  | 2 => [0x602]
  | 3 => [0x602]
  | 5 => [0x508]
  | 11 => [0x102, 0x103]
  | _ => []

/-- A failure as the test reports it: with a code of its own, or with E000 where no class code of the test describes it (R452, R453). -/
def testFail (id : Nat) (f : Nat × Nat) : Nat × Nat := if (testCodes id).contains f.1 then f else (0, f.2)

/-- TEST CAL passes only where the laggard of each injected mismatch was restarted: otherwise step 1 for engine A, step 2 for B (R225,
R453). -/
def calFail (s : State) : Option (Nat × Nat) := s.cal.inject.map (fun e => (0, if e then 2 else 1))

/-- The end of every test but MARCH, whose end is the Beater's. -/
def opTestEnd (fail : Option (Nat × Nat)) (s : State) : State :=
  match s.svc.test with
  | none => s
  | some t =>
    let fail := if t.id = 6 then calFail s else fail.map (testFail t.id.toNat)
    if t.id = 4 then s else testEnd fail (testRaise t fail s)

/-- Byte 0x03 during a self-test (R455). -/
def opTestAbort (s : State) : State :=
  match s.svc.test with
  | none => s
  | some t =>
    let s := testLeave s
    testAbandon (if t.id = 4 then beaterAbort rqSvc 2 s else s)

/-- MARCH: the Beater's run of one bank, refused as the Beater refuses it (R363). -/
def opMarch (bank : Fin 16) (ss preserve repair : Bool) (s : State) : State :=
  if s.mode ≠ .service then svcReject 4 s
  else if rootStopped s then svcReply (.er 0x102) s
  else
    let r := beaterReason s (bankBit bank.val) (!preserve)
    if r = 0 then beaterRun (bankBit bank.val) ss (!preserve) repair true (testStart 4 bank.val s)
    else svcReply (.er 0x808) (raise 0x808 0 r s)

/-- The end of the Beater's run; one that MARCH started replies (R362, R453). -/
def opBeaterEnd (fails : List BFail) (s : State) : State :=
  if !s.scr.beater.running ∨ s.fn .beater ≠ fnOn ∨ rootStopped s then s
  else
    let svc := s.scr.beater.fromSvc
    let r := beaterEnd fails s
    if svc then testEnd r.1 r.2 else r.2

/-! ### Lines (R443, R444) -/

/-- What a line does. -/
def svcLine (i : SvcLine) (s : State) : State :=
  match i with
  | .id => svcOk svcIdVals s
  | .mode => svcOk [.dec s.mode.code, .dec (healthCode s)] s
  | .health => svcOk (svcHealthVals s) s
  | .fs => svcOk (svcFsVals s) s
  | .errLast => svcOk [.code s.evt.lastErr] s
  | .evtLast => opEvtLast s
  | .evtK k => opEvtK k s
  | .i3c => svcOk (svcI3cVals s) s
  | .boot => svcOk (svcBootVals (s.reg Reg.pwrBootStatus)) s
  | .pwr => svcShow ((List.range 22).map Reg.pwrRailV) (fun ws => ws.map (fun w => SvcVal.dec (fld w 11 0))) s
  | .temp => opTemp s
  | .calStat => svcShow [Reg.calPassTime, Reg.calCntMismatch, Reg.calCntTmr] (fun ws => ws.map (fun w => SvcVal.dec w.toNat)) s
  | .rgn n => svcShow [Reg.rgnStatus n.val, Reg.rgnFence n.val] (fun ws => ws.map hex9) s
  | .rgnAll => svcShow ((List.range 64).map Reg.rgnStatus) quarVals s
  | .img => svcShow [Reg.cfgActiveId, Reg.cfgShadowId] (fun ws => ws.map hex9) s
  | .swap => svcShow [Reg.cfgSwapStatus, Reg.cfgSwapEdgeLo] (fun ws => ws.map hex9) s
  | .rhx => svcShow [Reg.rhxStatus, Reg.rhxOccupancy, Reg.rhxCnt 2] (fun ws => ws.map hex9) s
  | .mesh => svcShow [Reg.mshNodeStatus, Reg.mshNodeStatus2] meshVals s
  | .meshTime => opMeshTime s
  | .wdt => opSvcWdt s
  | .rd a peek => opSvcRd a.toNat peek s
  | .wr a v => opSvcWr a.toNat v s
  | .spRd o => opSpRd o.val s
  | .spWr o v => opSpWr o.val v s
  | .pin p => opSvcPin p.val s
  | .pinHigh p => opSvcDrive p.val 1 s
  | .pinLow p => opSvcDrive p.val 2 s
  | .pinZ p => opSvcDrive p.val 0 s
  | .pinSquare p => opSvcDrive p.val 3 s
  | .pinRelease p => opSvcRelease p.val s
  | .auth => opSvcAuth s
  | .authResponse r => opSvcAuthResp r s
  | .logout => svcOk [] (svcLogout s)
  | .service h => opService h s
  | .serviceExit => opServiceExit s
  | .wake => opSvcWake s
  | .reboot t nsafe => opReboot t nsafe s
  | .baud n => opBaud n s
  | .invalidLine r => svcReject r.toNat s
  | .testFlash b => opTest 1 b.val true s
  | .testMeshLoop p => opTest 2 p.val true s
  | .testMesh p => opTest 3 p.val true s
  | .march b ss preserve repair => opMarch b ss preserve repair s
  | .testEngine => opTest 5 0 true s
  | .testCal => opTest 6 0 true s
  | .testUart k => opTest 7 k.val true s
  | .testSpi k => opTest 7 (2 + k.val) true s
  | .testI2c k => opTest 8 k.val true s
  | .testTmr k => opTest 9 k.val true s
  | .testWdt => opTest 10 0 false s
  | .testClk => opTest 11 0 false s

/-- A command is executing: a self-test, or a SERVICE that RETAIN entry holds (R444, R60). -/
def svcBusy (s : State) : Bool := s.svc.test.isSome || s.boot.heldService

/-- The line cannot be handled yet: MARCH waits for the Beater. -/
def svcWaits (i : SvcLine) (s : State) : Bool :=
  svcBusy s || (match i with | .march _ _ _ _ => s.fn .beater != fnOff && s.mode == .service | _ => false)

/-- A line arrives: it is counted, and handled unless lines wait before it. SERVICE EXIT is answered during a self-test (R455). -/
def svcTake (i : SvcLine) (s : State) : State :=
  if s.boot.porHeld then s
  else
    let s := s.count Reg.svcCntLines 35 0
    if (i = .serviceExit ∧ s.svc.test.isSome) ∨ (!svcWaits i s ∧ s.svc.waiting.isEmpty) then svcLine i s
    else { s with svc := { s.svc with waiting := s.svc.waiting ++ [i] } }

/-- The oldest waiting line is handled, once it can be. -/
def svcNext (s : State) : State :=
  match s.svc.waiting with
  | [] => s
  | i :: rest => if svcWaits i s then s else svcLine i { s with svc := { s.svc with waiting := rest } }

end Sys2Proof.Machine
end

