-- ==== Sys2Proof/Machine/Commands.lean ====
section
/-! DEFINITION. The service port's commands, one line each (R446, R453), the timeouts of its session and rate, the Beater's end (R362),
and upsets of stored bits (R121, R118, R165, R223, R226, R261, R358, R374). -/

namespace Sys2Proof.Machine

/-! ### Upsets -/

/-- Cell whose LUT bits a configuration word holds at a data bit, by number in the whole part. -/
def keyCell (key bit : Nat) : Nat := keySeg key * 33408 + cellIx (keyCol key) (keyWord key / 4) bit

/-- A stored bit of a configuration word flips. In a user-owned LUT bit no check bit tells (R122); the cell's parity does (R118). -/
def flipCfg (key bit : Nat) (s : State) : State :=
  let c := s.cfgCell key
  if bit < 36 ∧ (keyMask s key).getLsbD bit then
    let t := s.setCfg key { c with data := (c.flip bit).data }
    if keyPlane key = activeOf s (keySeg key) then
      { t with fab := { t.fab with parErr := Store.upd (fun _ => false) t.fab.parErr (keyCell key bit) (fun b => !b) } }
    else t
  else s.setCfg key (c.flip bit)

/-- A stored bit of a RAM36 word flips, or a lane's hidden parity bit (R165). -/
def flipRam (b : BlkAddr) (word bit : Nat) (s : State) : State :=
  let k := ramKey b.region.val b.col.val b.row.val word
  let lane := if bit < 36 then bit / 9 else bit - 36
  let ram := if bit < 36 then Store.upd (fun _ => 0) s.fab.ram k (fun w => w ^^^ (1 <<< bit)) else s.fab.ram
  { s with fab := { s.fab with ram := ram, ramPar := Store.upd (fun _ => 0) s.fab.ramPar k (fun p => p ^^^ (1 <<< lane)) } }

/-- A stored bit of a scratchpad word flips; nothing has accessed the word. -/
def flipScr (off bit : Nat) (s : State) : State :=
  { s with scr := { s.scr with mem := Store.set (fun _ => none) s.scr.mem off (some ((scrCell s off).flip bit)) } }

/-- A bit of an engine's state flips: position, pass number, word count, address CRC, range registers, from bit 0 up (R223). -/
def CalCopy.flip (c : CalCopy) (bit : Nat) : CalCopy :=
  if bit < 18 then { c with pos := c.pos ^^^ (1 <<< bit) }
  else if bit < 34 then { c with pass := c.pass ^^^ (1 <<< (bit - 18)) }
  else if bit < 52 then { c with count := c.count ^^^ (1 <<< (bit - 34)) }
  else if bit < 84 then { c with crc := c.crc ^^^ (1 <<< (bit - 52)) }
  else { c with range := c.range ^^^ (1 <<< (bit - 84)) }

/-- One copy of an engine's state in a lane flips a bit. -/
def Tri.flip (t : Tri) (copy bit : Nat) : Tri :=
  let f := fun (c : CalCopy) => c.flip bit
  match copy with
  | 0 => { t with c0 := f t.c0 }
  | 1 => { t with c1 := f t.c1 }
  | _ => { t with c2 := f t.c2 }

def flipCal (lane : Nat) (engineB : Bool) (copy bit : Nat) (s : State) : State :=
  let l := s.lane lane
  s.setLane lane (if engineB then { l with b := l.b.flip copy bit } else { l with a := l.a.flip copy bit })

/-- One copy of a golden map bit flips: it disagrees, or agrees again (R226). -/
def flipGold (c : CellAddr) (plane : Bool) (copy : Fin 3) (s : State) : State :=
  let r := s.rg c.region.val
  let e := (plane, (cellPos c).ix, copy)
  s.setRg c.region.val { r with goldBad := if r.goldBad.contains e then r.goldBad.erase e else r.goldBad ++ [e] }

def opUpset (t : UpsetAt) (s : State) : State :=
  match t with
  | .config shadow seg col minor fword bit =>
    flipCfg (cfgKey (physOf s seg.toNat shadow) seg.toNat col.toNat minor.toNat fword.toNat) bit.val s
  | .lut c bit =>
    flipCfg (cfgKey (activeOf s c.region.val) c.region.val c.col.val (bit.val / 4) (4 * c.row.val + bit.val % 4)) c.cell.val s
  | .ram36 b word bit => flipRam b word.val bit.val s
  | .scratch off bit => flipScr off.val bit.val s
  | .engine m ix bit => s.setEng m ix ((s.engCell m ix).flip bit.val)
  | .flash fa bit => s.setFa fa.toNat ((s.fa fa.toNat).flip bit.val)
  | .calender lane engineB copy bit => flipCal lane.val engineB copy.val bit.val s
  | .golden shadow c copy => flipGold c (physOf s c.region.val shadow) copy s

/-- A stored bit flips on its own. -/
def execUpset (target : UpsetAt) (s : State) : Host.Outcome State Fault Refusal := .next (opUpset target s)

/-! ### The Beater -/

def execBeaterRunComplete (fails : List (Fin 16 × Fin 131072 × Fin 43)) (s : State) : Host.Outcome State Fault Refusal :=
  .next (opBeaterEnd fails s)

/-! ### Timeouts of the service port -/

/-- No byte for 10 minutes ends the session (R449). -/
def execSvcAuthTimeout (s : State) : Host.Outcome State Fault Refusal := .next (svcLogout s)

/-- No byte for 30 s returns the rate to 115,200 (R442). -/
def execSvcBaudHoldExpiry (s : State) : Host.Outcome State Fault Refusal :=
  .next (if s.getB Reg.svcCfg 17 then s.setF Reg.svcCfg 15 0 3472 else s)

/-- A byte is dropped while the 256-byte buffer is full (R444). -/
def execSvcRxOvf (s : State) : Host.Outcome State Fault Refusal := .next (s.setB Reg.svcStatus 5 true)

/-! ### Self-tests -/

def execSelfTestEnd (fail : Option (Code × Word)) (s : State) : Host.Outcome State Fault Refusal :=
  .next (opTestEnd (fail.map (fun e => (e.1.toNat, e.2.toNat))) s)

def execSelfTestAbort (s : State) : Host.Outcome State Fault Refusal := .next (opTestAbort s)

/-- The partner of a test trains to ALIGN, loops back for the PRBS period and returns to DETECT; its port must be ON (R454). -/
def execMeshTestLoopback (p : Fin 8) (s : State) : Host.Outcome State Fault Refusal :=
  .next (if s.fn (.mesh p) = fnOn ∧ s.link p.val ≠ linkActive then linkIdle p.val 1 s else s)

/-! ### Lines -/

def execSvcId (s : State) : Host.Outcome State Fault Refusal := .next (svcTake .id s)

def execSvcMode (s : State) : Host.Outcome State Fault Refusal := .next (svcTake .mode s)

def execSvcHealth (s : State) : Host.Outcome State Fault Refusal := .next (svcTake .health s)

def execSvcFs (s : State) : Host.Outcome State Fault Refusal := .next (svcTake .fs s)

def execSvcErrLast (s : State) : Host.Outcome State Fault Refusal := .next (svcTake .errLast s)

def execSvcEvtLast (s : State) : Host.Outcome State Fault Refusal := .next (svcTake .evtLast s)

def execSvcEvtK (k : Nat) (s : State) : Host.Outcome State Fault Refusal := .next (svcTake (.evtK k) s)

def execSvcI3c (s : State) : Host.Outcome State Fault Refusal := .next (svcTake .i3c s)

def execSvcBoot (s : State) : Host.Outcome State Fault Refusal := .next (svcTake .boot s)

def execSvcPwr (s : State) : Host.Outcome State Fault Refusal := .next (svcTake .pwr s)

def execSvcTemp (s : State) : Host.Outcome State Fault Refusal := .next (svcTake .temp s)

def execSvcCalStat (s : State) : Host.Outcome State Fault Refusal := .next (svcTake .calStat s)

def execSvcRgn (n : Fin 64) (s : State) : Host.Outcome State Fault Refusal := .next (svcTake (.rgn n) s)

def execSvcRgnAll (s : State) : Host.Outcome State Fault Refusal := .next (svcTake .rgnAll s)

def execSvcImg (s : State) : Host.Outcome State Fault Refusal := .next (svcTake .img s)

def execSvcSwap (s : State) : Host.Outcome State Fault Refusal := .next (svcTake .swap s)

def execSvcRhx (s : State) : Host.Outcome State Fault Refusal := .next (svcTake .rhx s)

def execSvcMesh (s : State) : Host.Outcome State Fault Refusal := .next (svcTake .mesh s)

def execSvcMeshTime (s : State) : Host.Outcome State Fault Refusal := .next (svcTake .meshTime s)

def execSvcWdt (s : State) : Host.Outcome State Fault Refusal := .next (svcTake .wdt s)

def execSvcRd (addr : Addr) (peek : Bool) (s : State) : Host.Outcome State Fault Refusal := .next (svcTake (.rd addr peek) s)

def execSvcWr (addr : Addr) (v : Word) (s : State) : Host.Outcome State Fault Refusal := .next (svcTake (.wr addr v) s)

def execSvcSpRd (off : Fin 2097152) (s : State) : Host.Outcome State Fault Refusal := .next (svcTake (.spRd off) s)

def execSvcSpWr (off : Fin 2097152) (v : Word) (s : State) : Host.Outcome State Fault Refusal := .next (svcTake (.spWr off v) s)

def execSvcPin (pin : Fin 720) (s : State) : Host.Outcome State Fault Refusal := .next (svcTake (.pin pin) s)

def execSvcPinHigh (pin : Fin 720) (s : State) : Host.Outcome State Fault Refusal := .next (svcTake (.pinHigh pin) s)

def execSvcPinLow (pin : Fin 720) (s : State) : Host.Outcome State Fault Refusal := .next (svcTake (.pinLow pin) s)

def execSvcPinZ (pin : Fin 720) (s : State) : Host.Outcome State Fault Refusal := .next (svcTake (.pinZ pin) s)

def execSvcPinSquare (pin : Fin 720) (s : State) : Host.Outcome State Fault Refusal := .next (svcTake (.pinSquare pin) s)

def execSvcPinRelease (pin : Fin 720) (s : State) : Host.Outcome State Fault Refusal := .next (svcTake (.pinRelease pin) s)

def execSvcAuth (s : State) : Host.Outcome State Fault Refusal := .next (svcTake .auth s)

def execSvcAuthResponse (r : List (BitVec 32)) (s : State) : Host.Outcome State Fault Refusal := .next (svcTake (.authResponse r) s)

def execSvcLogout (s : State) : Host.Outcome State Fault Refusal := .next (svcTake .logout s)

def execSvcService (pinHigh : Bool) (s : State) : Host.Outcome State Fault Refusal := .next (svcTake (.service pinHigh) s)

def execSvcServiceExit (s : State) : Host.Outcome State Fault Refusal := .next (svcTake .serviceExit s)

def execSvcWake (s : State) : Host.Outcome State Fault Refusal := .next (svcTake .wake s)

def execSvcReboot (how : Reboot) (s : State) : Host.Outcome State Fault Refusal := .next (svcTake (.reboot how.toService how.nsafe) s)

def execSvcBaud (n : Nat) (s : State) : Host.Outcome State Fault Refusal := .next (svcTake (.baud n) s)

def execSvcInvalidLine (reason : BitVec 4) (s : State) : Host.Outcome State Fault Refusal := .next (svcTake (.invalidLine reason) s)

def execTestFlash (bank : Fin 16) (s : State) : Host.Outcome State Fault Refusal := .next (svcTake (.testFlash bank) s)

def execTestMeshLoop (p : Fin 8) (s : State) : Host.Outcome State Fault Refusal := .next (svcTake (.testMeshLoop p) s)

def execTestMesh (p : Fin 8) (s : State) : Host.Outcome State Fault Refusal := .next (svcTake (.testMesh p) s)

def execMarch (bank : Fin 16) (ss preserve repair : Bool) (s : State) : Host.Outcome State Fault Refusal :=
  .next (svcTake (.march bank ss preserve repair) s)

def execTestEngine (s : State) : Host.Outcome State Fault Refusal := .next (svcTake .testEngine s)

def execTestCal (s : State) : Host.Outcome State Fault Refusal := .next (svcTake .testCal s)

def execTestUart (k : Fin 2) (s : State) : Host.Outcome State Fault Refusal := .next (svcTake (.testUart k) s)

def execTestSpi (k : Fin 2) (s : State) : Host.Outcome State Fault Refusal := .next (svcTake (.testSpi k) s)

def execTestI2c (k : Fin 2) (s : State) : Host.Outcome State Fault Refusal := .next (svcTake (.testI2c k) s)

def execTestTmr (k : Fin 16) (s : State) : Host.Outcome State Fault Refusal := .next (svcTake (.testTmr k) s)

def execTestWdt (s : State) : Host.Outcome State Fault Refusal := .next (svcTake .testWdt s)

def execTestClk (s : State) : Host.Outcome State Fault Refusal := .next (svcTake .testClk s)

end Sys2Proof.Machine
end

