-- ==== Sys2Proof/Machine/Dispatch.lean ====
section
/-! DEFINITION. One arm per command: the effect of a command on everything but the queue. -/

namespace Sys2Proof.Machine

def exec (i : Instr) (s : State) : Host.Outcome State Fault Refusal :=
  match i with
  | .nrstAssert ns => Sys2Proof.Machine.execNrstAssert ns s
  | .nrstRelease pins => Sys2Proof.Machine.execNrstRelease pins s
  | .supplyOutOfWindow rail us mv => Sys2Proof.Machine.execSupplyOutOfWindow rail us mv s
  | .temperatureSample readings => Sys2Proof.Machine.execTemperatureSample readings s
  | .lockedSequenceExpired reg => Sys2Proof.Machine.execLockedSequenceExpired reg s
  | .wakePinEdge rising => Sys2Proof.Machine.execWakePinEdge rising s
  | .requestPromotedUrgent target asker => Sys2Proof.Machine.execRequestPromotedUrgent target asker s
  | .governorGrant waitUs => Sys2Proof.Machine.execGovernorGrant waitUs s
  | .softstartComplete ramp => Sys2Proof.Machine.execSoftstartComplete ramp s
  | .i3cEnec int hj => Sys2Proof.Machine.execI3cEnec int hj s
  | .i3cDisec int hj => Sys2Proof.Machine.execI3cDisec int hj s
  | .i3cEntdaa addr won => Sys2Proof.Machine.execI3cEntdaa addr won s
  | .i3cSetdasa static addr => Sys2Proof.Machine.execI3cSetdasa static addr s
  | .i3cSetnewda addr => Sys2Proof.Machine.execI3cSetnewda addr s
  | .i3cSetmwl len => Sys2Proof.Machine.execI3cSetmwl len s
  | .i3cSetmrl len => Sys2Proof.Machine.execI3cSetmrl len s
  | .i3cRstact action => Sys2Proof.Machine.execI3cRstact action s
  | .i3cUnknownCcc direct code => Sys2Proof.Machine.execI3cUnknownCcc direct code s
  | .registerWriteTransfer dst bytes => Sys2Proof.Machine.execRegisterWriteTransfer dst bytes s
  | .registerReadTransfer dst words => Sys2Proof.Machine.execRegisterReadTransfer dst words s
  | .hdrDdrWrite bytes => Sys2Proof.Machine.execHdrDdrWrite bytes s
  | .hdrDdrRead words => Sys2Proof.Machine.execHdrDdrRead words s
  | .ibiSend acked => Sys2Proof.Machine.execIbiSend acked s
  | .registerWrite who addr v => Sys2Proof.Machine.execRegisterWrite who addr v s
  | .eventRingEnable who v => Sys2Proof.Machine.execEventRingEnable who v s
  | .eventReadAdvance who v => Sys2Proof.Machine.execEventReadAdvance who v s
  | .eventPop who peek => Sys2Proof.Machine.execEventPop who peek s
  | .ctrlEnable who f v => Sys2Proof.Machine.execCtrlEnable who f v s
  | .ctrlDisable who f v => Sys2Proof.Machine.execCtrlDisable who f v s
  | .profileWrite who f v => Sys2Proof.Machine.execProfileWrite who f v s
  | .expertWrite who addr v => Sys2Proof.Machine.execExpertWrite who addr v s
  | .functionStartComplete f => Sys2Proof.Machine.execFunctionStartComplete f s
  | .functionStopComplete f => Sys2Proof.Machine.execFunctionStopComplete f s
  | .lutramWrite e inp => Sys2Proof.Machine.execLutramWrite e inp s
  | .cellShift e inp => Sys2Proof.Machine.execCellShift e inp s
  | .ram36Write blk a b => Sys2Proof.Machine.execRam36Write blk a b s
  | .ram36Read blk portB port oce orst => Sys2Proof.Machine.execRam36Read blk portB port oce orst s
  | .ram36CollClr blk => Sys2Proof.Machine.execRam36CollClr blk s
  | .fifoWrite blk inp => Sys2Proof.Machine.execFifoWrite blk inp s
  | .fifoRead e => Sys2Proof.Machine.execFifoRead e s
  | .fifoRst blk => Sys2Proof.Machine.execFifoRst blk s
  | .sharedFifoDataRead who region k peek => Sys2Proof.Machine.execSharedFifoDataRead who region k peek s
  | .sharedFifoDataWrite who region k v => Sys2Proof.Machine.execSharedFifoDataWrite who region k v s
  | .mac36Accumulate blk second inp => Sys2Proof.Machine.execMac36Accumulate blk second inp s
  | .busContentionCount region bus den => Sys2Proof.Machine.execBusContentionCount region bus den s
  | .regionReset who region v => Sys2Proof.Machine.execRegionReset who region v s
  | .regionResetRelease region => Sys2Proof.Machine.execRegionResetRelease region s
  | .regionQuarantineCommand who region v => Sys2Proof.Machine.execRegionQuarantineCommand who region v s
  | .logAck who region v => Sys2Proof.Machine.execLogAck who region v s
  | .regionLogRead who region peek => Sys2Proof.Machine.execRegionLogRead who region peek s
  | .streamSync src who => Sys2Proof.Machine.execStreamSync src who s
  | .streamWordRefused src who => Sys2Proof.Machine.execStreamWordRefused src who s
  | .streamHeader words => Sys2Proof.Machine.execStreamHeader words s
  | .tagSegment words => Sys2Proof.Machine.execTagSegment words s
  | .loadSlot who v => Sys2Proof.Machine.execLoadSlot who v s
  | .cfgAbort who v => Sys2Proof.Machine.execCfgAbort who v s
  | .sdataWrite who v => Sys2Proof.Machine.execSdataWrite who v s
  | .rdataRead who peek => Sys2Proof.Machine.execRdataRead who peek s
  | .rollAdv who v => Sys2Proof.Machine.execRollAdv who v s
  | .keyLoad who v => Sys2Proof.Machine.execKeyLoad who v s
  | .zeroize who v => Sys2Proof.Machine.execZeroize who v s
  | .krDataWrite who v => Sys2Proof.Machine.execKrDataWrite who v s
  | .regionSwap who v => Sys2Proof.Machine.execRegionSwap who v s
  | .chipSwap who v => Sys2Proof.Machine.execChipSwap who v s
  | .meshSwap who v => Sys2Proof.Machine.execMeshSwap who v s
  | .meshCancel who v => Sys2Proof.Machine.execMeshCancel who v s
  | .mirror who v => Sys2Proof.Machine.execMirror who v s
  | .repreloadComplete region => Sys2Proof.Machine.execRepreloadComplete region s
  | .swapAtReceived id coord t => Sys2Proof.Machine.execSwapAtReceived id coord t s
  | .voteReceived node id ready null => Sys2Proof.Machine.execVoteReceived node id ready null s
  | .goReceived id => Sys2Proof.Machine.execGoReceived id s
  | .abortReceived id cause => Sys2Proof.Machine.execAbortReceived id cause s
  | .scrubRead lanes => Sys2Proof.Machine.execScrubRead lanes s
  | .doubleBitRepair lane => Sys2Proof.Machine.execDoubleBitRepair lane s
  | .repairFetch lane => Sys2Proof.Machine.execRepairFetch lane s
  | .repairFetchTimeout lane => Sys2Proof.Machine.execRepairFetchTimeout lane s
  | .calRestart who v => Sys2Proof.Machine.execCalRestart who v s
  | .engineRequestAccept port req => Sys2Proof.Machine.execEngineRequestAccept port req s
  | .engineResponseTaken port => Sys2Proof.Machine.execEngineResponseTaken port s
  | .lookup slot => Sys2Proof.Machine.execLookup slot s
  | .insert slot => Sys2Proof.Machine.execInsert slot s
  | .delete slot => Sys2Proof.Machine.execDelete slot s
  | .ctxRead slot => Sys2Proof.Machine.execCtxRead slot s
  | .ctxWrite slot => Sys2Proof.Machine.execCtxWrite slot s
  | .ctxRun slot => Sys2Proof.Machine.execCtxRun slot s
  | .lookupRun slot => Sys2Proof.Machine.execLookupRun slot s
  | .fence slot => Sys2Proof.Machine.execFence slot s
  | .ageScanReport slot who => Sys2Proof.Machine.execAgeScanReport slot who s
  | .ageScanStart slot who => Sys2Proof.Machine.execAgeScanStart slot who s
  | .ageScanPause slot who => Sys2Proof.Machine.execAgeScanPause slot who s
  | .ageScanResume slot who => Sys2Proof.Machine.execAgeScanResume slot who s
  | .operationComplete slot => Sys2Proof.Machine.execOperationComplete slot s
  | .remoteOperationTimeout slot => Sys2Proof.Machine.execRemoteOperationTimeout slot s
  | .enginePatrol m ix => Sys2Proof.Machine.execEnginePatrol m ix s
  | .engineVoteFailure credit => Sys2Proof.Machine.execEngineVoteFailure credit s
  | .allocWrite who n v => Sys2Proof.Machine.execAllocWrite who n v s
  | .wcSegEnWrite who v => Sys2Proof.Machine.execWcSegEnWrite who v s
  | .wcEntryWrite who v => Sys2Proof.Machine.execWcEntryWrite who v s
  | .wcEntryRead who v => Sys2Proof.Machine.execWcEntryRead who v s
  | .kinsInsert who v => Sys2Proof.Machine.execKinsInsert who v s
  | .kinsDelete who v => Sys2Proof.Machine.execKinsDelete who v s
  | .cmdSubmit who v => Sys2Proof.Machine.execCmdSubmit who v s
  | .cmdResponsePop who peek => Sys2Proof.Machine.execCmdResponsePop who peek s
  | .meshPortCalibration p ok => Sys2Proof.Machine.execMeshPortCalibration p ok s
  | .linkSignalDetect p => Sys2Proof.Machine.execLinkSignalDetect p s
  | .linkCdrLock p => Sys2Proof.Machine.execLinkCdrLock p s
  | .linkEqDone p => Sys2Proof.Machine.execLinkEqDone p s
  | .linkAlignDone p => Sys2Proof.Machine.execLinkAlignDone p s
  | .linkParamConfirm p nbrPort nbrWmark => Sys2Proof.Machine.execLinkParamConfirm p nbrPort nbrWmark s
  | .linkTrainingTimeout p lanes => Sys2Proof.Machine.execLinkTrainingTimeout p lanes s
  | .linkTrainingRetry p => Sys2Proof.Machine.execLinkTrainingRetry p s
  | .linkPacketReceived p words => Sys2Proof.Machine.execLinkPacketReceived p words s
  | .ack p w => Sys2Proof.Machine.execAck p w s
  | .credit p w => Sys2Proof.Machine.execCredit p w s
  | .rstart p => Sys2Proof.Machine.execRstart p s
  | .replayTimeout p => Sys2Proof.Machine.execReplayTimeout p s
  | .linkLoss p cause => Sys2Proof.Machine.execLinkLoss p cause s
  | .bye p => Sys2Proof.Machine.execBye p s
  | .hello p h => Sys2Proof.Machine.execHello p h s
  | .resurvey who v => Sys2Proof.Machine.execResurvey who v s
  | .elect p epoch prio wmark dist => Sys2Proof.Machine.execElect p epoch prio wmark dist s
  | .echo p epoch entries => Sys2Proof.Machine.execEcho p epoch entries s
  | .assign p epoch count entries => Sys2Proof.Machine.execAssign p epoch count entries s
  | .lsa p l => Sys2Proof.Machine.execLsa p l s
  | .done p epoch diam => Sys2Proof.Machine.execDone p epoch diam s
  | .ready p epoch root count diam => Sys2Proof.Machine.execReady p epoch root count diam s
  | .join p h links => Sys2Proof.Machine.execJoin p h links s
  | .joinAck p addr rootWmark epoch count => Sys2Proof.Machine.execJoinAck p addr rootWmark epoch count s
  | .refuse p diam => Sys2Proof.Machine.execRefuse p diam s
  | .discoveryNeighbourTimeout p => Sys2Proof.Machine.execDiscoveryNeighbourTimeout p s
  | .addrHoldExpiry addr => Sys2Proof.Machine.execAddrHoldExpiry addr s
  | .packetForward p pkt => Sys2Proof.Machine.execPacketForward p pkt s
  | .rraRead who v => Sys2Proof.Machine.execRraRead who v s
  | .rraWrite who v => Sys2Proof.Machine.execRraWrite who v s
  | .rraReq src write addr data => Sys2Proof.Machine.execRraReq src write addr data s
  | .rraRsp result reason data => Sys2Proof.Machine.execRraRsp result reason data s
  | .engReq src sreq stag req => Sys2Proof.Machine.execEngReq src sreq stag req s
  | .engRsp sreq stag rsp => Sys2Proof.Machine.execEngRsp sreq stag rsp s
  | .imagePush who v => Sys2Proof.Machine.execImagePush who v s
  | .imagePushAbort who v => Sys2Proof.Machine.execImagePushAbort who v s
  | .imgData src first last abort off words => Sys2Proof.Machine.execImgData src first last abort off words s
  | .imgAck consumed => Sys2Proof.Machine.execImgAck consumed s
  | .imgResult code => Sys2Proof.Machine.execImgResult code s
  | .imgRb words => Sys2Proof.Machine.execImgRb words s
  | .streamTxTransfer k data dest last => Sys2Proof.Machine.execStreamTxTransfer k data dest last s
  | .user src srcIf dstIf first seq data => Sys2Proof.Machine.execUser src srcIf dstIf first seq data s
  | .streamRxTransfer k => Sys2Proof.Machine.execStreamRxTransfer k s
  | .timeSyncSend seq => Sys2Proof.Machine.execTimeSyncSend seq s
  | .timeSyncRequest p seq => Sys2Proof.Machine.execTimeSyncRequest p seq s
  | .timeSyncReply t2 t3 t4 => Sys2Proof.Machine.execTimeSyncReply t2 t3 t4 s
  | .timeSet who v => Sys2Proof.Machine.execTimeSet who v s
  | .nodeCfgWrite who v => Sys2Proof.Machine.execNodeCfgWrite who v s
  | .trapEntry interrupt cause pc tval => Sys2Proof.Machine.execTrapEntry interrupt cause pc tval s
  | .doubleFault mcause pc => Sys2Proof.Machine.execDoubleFault mcause pc s
  | .wfi pc => Sys2Proof.Machine.execWfi pc s
  | .ebreak pc => Sys2Proof.Machine.execEbreak pc s
  | .coreInterrupt pc => Sys2Proof.Machine.execCoreInterrupt pc s
  | .scratchpadLoad addr w fetch => Sys2Proof.Machine.execScratchpadLoad addr w fetch s
  | .scratchpadStore addr w data => Sys2Proof.Machine.execScratchpadStore addr w data s
  | .scratchpadBitSet addr data => Sys2Proof.Machine.execScratchpadBitSet addr data s
  | .scratchpadBitClear addr data => Sys2Proof.Machine.execScratchpadBitClear addr data s
  | .lr addr => Sys2Proof.Machine.execLr addr s
  | .sc addr data => Sys2Proof.Machine.execSc addr data s
  | .amo op addr data => Sys2Proof.Machine.execAmo op addr data s
  | .nibbleWrite addr data => Sys2Proof.Machine.execNibbleWrite addr data s
  | .coreRegisterWrite addr w data => Sys2Proof.Machine.execCoreRegisterWrite addr w data s
  | .coreRegisterRead addr w => Sys2Proof.Machine.execCoreRegisterRead addr w s
  | .nibbleRead addr => Sys2Proof.Machine.execNibbleRead addr s
  | .xipFetch addr kind => Sys2Proof.Machine.execXipFetch addr kind s
  | .scratchpadAccess who off beat => Sys2Proof.Machine.execScratchpadAccess who off beat s
  | .irqTake who peek => Sys2Proof.Machine.execIrqTake who peek s
  | .irqDone who v => Sys2Proof.Machine.execIrqDone who v s
  | .bankHandover who bank v => Sys2Proof.Machine.execBankHandover who bank v s
  | .bankCfgWrite who bank v => Sys2Proof.Machine.execBankCfgWrite who bank v s
  | .uartTx who k v => Sys2Proof.Machine.execUartTx who k v s
  | .uartRxRead who k peek => Sys2Proof.Machine.execUartRxRead who k peek s
  | .uartByteReceived k data parityErr frameErr => Sys2Proof.Machine.execUartByteReceived k data parityErr frameErr s
  | .spiTx who k v => Sys2Proof.Machine.execSpiTx who k v s
  | .i2cTx who k v => Sys2Proof.Machine.execI2cTx who k v s
  | .peripheralTransferComplete k rx nacked => Sys2Proof.Machine.execPeripheralTransferComplete k rx nacked s
  | .timerMatch k => Sys2Proof.Machine.execTimerMatch k s
  | .timerCapture k => Sys2Proof.Machine.execTimerCapture k s
  | .beaterStart who v => Sys2Proof.Machine.execBeaterStart who v s
  | .beaterRunComplete fails => Sys2Proof.Machine.execBeaterRunComplete fails s
  | .beaterAbort who v => Sys2Proof.Machine.execBeaterAbort who v s
  | .beaterYield who off write => Sys2Proof.Machine.execBeaterYield who off write s
  | .beaterAbortOnAccess who off write => Sys2Proof.Machine.execBeaterAbortOnAccess who off write s
  | .descWrWrite who v => Sys2Proof.Machine.execDescWrWrite who v s
  | .cmplRdWrite who v => Sys2Proof.Machine.execCmplRdWrite who v s
  | .descriptorDispatch k => Sys2Proof.Machine.execDescriptorDispatch k s
  | .flashRead k => Sys2Proof.Machine.execFlashRead k s
  | .flashProgram k dieOk => Sys2Proof.Machine.execFlashProgram k dieOk s
  | .flashErase k dieOk => Sys2Proof.Machine.execFlashErase k dieOk s
  | .flashVerify k => Sys2Proof.Machine.execFlashVerify k s
  | .flashBlank k => Sys2Proof.Machine.execFlashBlank k s
  | .marginRead k => Sys2Proof.Machine.execMarginRead k s
  | .swapBoot k => Sys2Proof.Machine.execSwapBoot k s
  | .descriptorComplete k => Sys2Proof.Machine.execDescriptorComplete k s
  | .fetchedExpiry bank => Sys2Proof.Machine.execFetchedExpiry bank s
  | .flcRecovRead who peek => Sys2Proof.Machine.execFlcRecovRead who peek s
  | .parkEnd pin => Sys2Proof.Machine.execParkEnd pin s
  | .switchUnmask pin => Sys2Proof.Machine.execSwitchUnmask pin s
  | .gpioEdge pin rising => Sys2Proof.Machine.execGpioEdge pin rising s
  | .serialiserLock pair locked => Sys2Proof.Machine.execSerialiserLock pair locked s
  | .extest dr => Sys2Proof.Machine.execExtest dr s
  | .samplePreload dr => Sys2Proof.Machine.execSamplePreload dr s
  | .dmi op addr data => Sys2Proof.Machine.execDmi op addr data s
  | .bypass code => Sys2Proof.Machine.execBypass code s
  | .dbgregUpdate write addr data => Sys2Proof.Machine.execDbgregUpdate write addr data s
  | .abstractCommand write regno => Sys2Proof.Machine.execAbstractCommand write regno s
  | .systemBusAccess write addr data => Sys2Proof.Machine.execSystemBusAccess write addr data s
  | .svcEvtK k => Sys2Proof.Machine.execSvcEvtK k s
  | .svcRgn n => Sys2Proof.Machine.execSvcRgn n s
  | .svcRd addr peek => Sys2Proof.Machine.execSvcRd addr peek s
  | .svcWr addr v => Sys2Proof.Machine.execSvcWr addr v s
  | .svcSpRd off => Sys2Proof.Machine.execSvcSpRd off s
  | .svcSpWr off v => Sys2Proof.Machine.execSvcSpWr off v s
  | .svcPin pin => Sys2Proof.Machine.execSvcPin pin s
  | .svcPinHigh pin => Sys2Proof.Machine.execSvcPinHigh pin s
  | .svcPinLow pin => Sys2Proof.Machine.execSvcPinLow pin s
  | .svcPinZ pin => Sys2Proof.Machine.execSvcPinZ pin s
  | .svcPinSquare pin => Sys2Proof.Machine.execSvcPinSquare pin s
  | .svcPinRelease pin => Sys2Proof.Machine.execSvcPinRelease pin s
  | .svcAuthResponse r => Sys2Proof.Machine.execSvcAuthResponse r s
  | .svcService pinHigh => Sys2Proof.Machine.execSvcService pinHigh s
  | .svcReboot how => Sys2Proof.Machine.execSvcReboot how s
  | .svcBaud n => Sys2Proof.Machine.execSvcBaud n s
  | .svcInvalidLine reason => Sys2Proof.Machine.execSvcInvalidLine reason s
  | .testFlash bank => Sys2Proof.Machine.execTestFlash bank s
  | .testMeshLoop p => Sys2Proof.Machine.execTestMeshLoop p s
  | .testMesh p => Sys2Proof.Machine.execTestMesh p s
  | .meshTestLoopback p => Sys2Proof.Machine.execMeshTestLoopback p s
  | .march bank ss preserve repair => Sys2Proof.Machine.execMarch bank ss preserve repair s
  | .testUart k => Sys2Proof.Machine.execTestUart k s
  | .testSpi k => Sys2Proof.Machine.execTestSpi k s
  | .testI2c k => Sys2Proof.Machine.execTestI2c k s
  | .testTmr k => Sys2Proof.Machine.execTestTmr k s
  | .selfTestEnd fail => Sys2Proof.Machine.execSelfTestEnd fail s
  | .powerOnResetRelease pins busActive => Sys2Proof.Machine.execPowerOnResetRelease pins busActive s
  | .phaseMoveComplete line => Sys2Proof.Machine.execPhaseMoveComplete line s
  | .delayMoveComplete pin => Sys2Proof.Machine.execDelayMoveComplete pin s
  | .overrideMaskEnd pin => Sys2Proof.Machine.execOverrideMaskEnd pin s
  | .upset target => Sys2Proof.Machine.execUpset target s
  | .rcRead who addr => Sys2Proof.Machine.execRcRead who addr s
  | .powerOnReset => Sys2Proof.Machine.execPowerOnReset s
  | .powerGood => Sys2Proof.Machine.execPowerGood s
  | .rootPllLock => Sys2Proof.Machine.execRootPllLock s
  | .svcClockReturnToRoot => Sys2Proof.Machine.execSvcClockReturnToRoot s
  | .refclkLost => Sys2Proof.Machine.execRefclkLost s
  | .pllLockLost => Sys2Proof.Machine.execPllLockLost s
  | .vbattKeyLost => Sys2Proof.Machine.execVbattKeyLost s
  | .nsafeAssert => Sys2Proof.Machine.execNsafeAssert s
  | .bootBlockSelect => Sys2Proof.Machine.execBootBlockSelect s
  | .bootRegionPowerUp => Sys2Proof.Machine.execBootRegionPowerUp s
  | .globalRelease => Sys2Proof.Machine.execGlobalRelease s
  | .bankOutputEnable => Sys2Proof.Machine.execBankOutputEnable s
  | .retainEntryComplete => Sys2Proof.Machine.execRetainEntryComplete s
  | .wakeTimerExpiry => Sys2Proof.Machine.execWakeTimerExpiry s
  | .vccramWakeTimeout => Sys2Proof.Machine.execVccramWakeTimeout s
  | .contextStoreWakeClear => Sys2Proof.Machine.execContextStoreWakeClear s
  | .i3cRstdaa => Sys2Proof.Machine.execI3cRstdaa s
  | .i3cGetmwl => Sys2Proof.Machine.execI3cGetmwl s
  | .i3cGetmrl => Sys2Proof.Machine.execI3cGetmrl s
  | .i3cGetpid => Sys2Proof.Machine.execI3cGetpid s
  | .i3cGetbcr => Sys2Proof.Machine.execI3cGetbcr s
  | .i3cGetdcr => Sys2Proof.Machine.execI3cGetdcr s
  | .i3cGetstatus => Sys2Proof.Machine.execI3cGetstatus s
  | .i3cGetmxds => Sys2Proof.Machine.execI3cGetmxds s
  | .i3cGetcaps => Sys2Proof.Machine.execI3cGetcaps s
  | .i3cEnthdr0 => Sys2Proof.Machine.execI3cEnthdr0 s
  | .hdrExitPattern => Sys2Proof.Machine.execHdrExitPattern s
  | .hotJoinRequest => Sys2Proof.Machine.execHotJoinRequest s
  | .serviceBufferDrain => Sys2Proof.Machine.execServiceBufferDrain s
  | .fcmdComplete => Sys2Proof.Machine.execFcmdComplete s
  | .streamStallTimeout => Sys2Proof.Machine.execStreamStallTimeout s
  | .rollAdvComplete => Sys2Proof.Machine.execRollAdvComplete s
  | .mirrorComplete => Sys2Proof.Machine.execMirrorComplete s
  | .swapEdge => Sys2Proof.Machine.execSwapEdge s
  | .meshSwapDeadline => Sys2Proof.Machine.execMeshSwapDeadline s
  | .meshSwapNoDecision => Sys2Proof.Machine.execMeshSwapNoDecision s
  | .readbackRead => Sys2Proof.Machine.execReadbackRead s
  | .engineAdmission => Sys2Proof.Machine.execEngineAdmission s
  | .lateResponseDiscard => Sys2Proof.Machine.execLateResponseDiscard s
  | .stashDrain => Sys2Proof.Machine.execStashDrain s
  | .agingSweepStart => Sys2Proof.Machine.execAgingSweepStart s
  | .agingVisit => Sys2Proof.Machine.execAgingVisit s
  | .engineEventLossReport => Sys2Proof.Machine.execEngineEventLossReport s
  | .helloSend => Sys2Proof.Machine.execHelloSend s
  | .routeComputationComplete => Sys2Proof.Machine.execRouteComputationComplete s
  | .rraTimeout => Sys2Proof.Machine.execRraTimeout s
  | .pushTimeout => Sys2Proof.Machine.execPushTimeout s
  | .timeSyncMissed => Sys2Proof.Machine.execTimeSyncMissed s
  | .mret => Sys2Proof.Machine.execMret s
  | .beaterBlockRestart => Sys2Proof.Machine.execBeaterBlockRestart s
  | .descriptorFetch => Sys2Proof.Machine.execDescriptorFetch s
  | .gapMove => Sys2Proof.Machine.execGapMove s
  | .gapMoveComplete => Sys2Proof.Machine.execGapMoveComplete s
  | .recoveryCheck => Sys2Proof.Machine.execRecoveryCheck s
  | .recoveryErase => Sys2Proof.Machine.execRecoveryErase s
  | .tapReset => Sys2Proof.Machine.execTapReset s
  | .idcode => Sys2Proof.Machine.execIdcode s
  | .clamp => Sys2Proof.Machine.execClamp s
  | .highz => Sys2Proof.Machine.execHighz s
  | .dtmcs => Sys2Proof.Machine.execDtmcs s
  | .haltRequest => Sys2Proof.Machine.execHaltRequest s
  | .resumeRequest => Sys2Proof.Machine.execResumeRequest s
  | .debuggerDetach => Sys2Proof.Machine.execDebuggerDetach s
  | .challengeExpiry => Sys2Proof.Machine.execChallengeExpiry s
  | .watchdogExpiry => Sys2Proof.Machine.execWatchdogExpiry s
  | .svcId => Sys2Proof.Machine.execSvcId s
  | .svcMode => Sys2Proof.Machine.execSvcMode s
  | .svcHealth => Sys2Proof.Machine.execSvcHealth s
  | .svcFs => Sys2Proof.Machine.execSvcFs s
  | .svcErrLast => Sys2Proof.Machine.execSvcErrLast s
  | .svcEvtLast => Sys2Proof.Machine.execSvcEvtLast s
  | .svcI3c => Sys2Proof.Machine.execSvcI3c s
  | .svcBoot => Sys2Proof.Machine.execSvcBoot s
  | .svcPwr => Sys2Proof.Machine.execSvcPwr s
  | .svcTemp => Sys2Proof.Machine.execSvcTemp s
  | .svcCalStat => Sys2Proof.Machine.execSvcCalStat s
  | .svcRgnAll => Sys2Proof.Machine.execSvcRgnAll s
  | .svcImg => Sys2Proof.Machine.execSvcImg s
  | .svcSwap => Sys2Proof.Machine.execSvcSwap s
  | .svcRhx => Sys2Proof.Machine.execSvcRhx s
  | .svcMesh => Sys2Proof.Machine.execSvcMesh s
  | .svcMeshTime => Sys2Proof.Machine.execSvcMeshTime s
  | .svcWdt => Sys2Proof.Machine.execSvcWdt s
  | .svcAuth => Sys2Proof.Machine.execSvcAuth s
  | .svcLogout => Sys2Proof.Machine.execSvcLogout s
  | .svcAuthTimeout => Sys2Proof.Machine.execSvcAuthTimeout s
  | .svcServiceExit => Sys2Proof.Machine.execSvcServiceExit s
  | .svcWake => Sys2Proof.Machine.execSvcWake s
  | .svcBaudHoldExpiry => Sys2Proof.Machine.execSvcBaudHoldExpiry s
  | .testEngine => Sys2Proof.Machine.execTestEngine s
  | .testCal => Sys2Proof.Machine.execTestCal s
  | .testWdt => Sys2Proof.Machine.execTestWdt s
  | .testClk => Sys2Proof.Machine.execTestClk s
  | .selfTestAbort => Sys2Proof.Machine.execSelfTestAbort s
  | .vccramRunWindowEntry => Sys2Proof.Machine.execVccramRunWindowEntry s
  | .svcRxOvf => Sys2Proof.Machine.execSvcRxOvf s
  | .softResetFirstWrite who => Sys2Proof.Machine.execSoftResetFirstWrite who s
  | .softResetSecondWrite who => Sys2Proof.Machine.execSoftResetSecondWrite who s
  | .retainRequest who => Sys2Proof.Machine.execRetainRequest who s
  | .wakeRequest who => Sys2Proof.Machine.execWakeRequest who s
  | .clockLineWrite who line v => Sys2Proof.Machine.execClockLineWrite who line v s
  | .claim who addr v => Sys2Proof.Machine.execClaim who addr v s
  | .release who addr v => Sys2Proof.Machine.execRelease who addr v s
  | .timeRead who => Sys2Proof.Machine.execTimeRead who s
  | .pinCfgWrite who pin v => Sys2Proof.Machine.execPinCfgWrite who pin v s
  | .gpioWrite who pin v => Sys2Proof.Machine.execGpioWrite who pin v s
  | .pinDlyWrite who pin v => Sys2Proof.Machine.execPinDlyWrite who pin v s
  | .newChal who v => Sys2Proof.Machine.execNewChal who v s
  | .check who v => Sys2Proof.Machine.execCheck who v s
  | .drop who v => Sys2Proof.Machine.execDrop who v s
  | .wdtKickFirst who => Sys2Proof.Machine.execWdtKickFirst who s
  | .wdtKickSecond who => Sys2Proof.Machine.execWdtKickSecond who s
  | .wdtLock who v => Sys2Proof.Machine.execWdtLock who v s
  | .swapEdgeRead who => Sys2Proof.Machine.execSwapEdgeRead who s

end Sys2Proof.Machine
end

