-- ==== Sys2Proof/Machine/Tick.lean ====
section
/-! DEFINITION. What passes with one CK_SVC cycle of 40 ns while no command waits (log entry 2): SYS.TIME (R335), the watchdog's count
(R434, R436, R80), the timers' counts (R352), delay lines (R402), the cells of routed pins (R401, R403), the shared sides of FIFOs (R162),
promoted requests (R26), the engine's event buffer (R282), a WC_CMD (R289), a pending debug access (R425), and a line of the service port
that waits (R444). -/

namespace Sys2Proof.Machine

/-- 40 ns on the counter, at the rate that mesh time steers it to. -/
def tickTime (s : State) : State :=
  let inc := (40 * 2 ^ 32 * (1000000 + s.mesh.rate)).toNat / 1000000
  let v := s.evt.time.toNat * 2 ^ 32 + s.evt.frac.toNat + inc
  { s with evt := { s.evt with time := BitVec.ofNat 64 (v / 2 ^ 32), frac := BitVec.ofNat 32 v } }

/-- The watchdog counts while it is ON, outside RETAIN, and no halt freezes it. -/
def tickWdt (s : State) : State :=
  if s.fn .wdt = fnOn ∧ s.mode ≠ .retain ∧ !wdtFrozen s then
    { s with wdt := { s.wdt with count := s.wdt.count - 1, since := s.wdt.since + 1 } }
  else s

/-- 16 CK_SYS cycles of a timer: it stops at COMPARE, where its match is an event of its own. -/
def tickTimer (k : Nat) (s : State) : State :=
  if s.fn (.tmr (Fin.ofNat 16 k)) = fnOn ∧ allAnswer s ∧ !rootStopped s then
    let d := 2 ^ min 16 (s.getF (Reg.scrTmrCfg k) 6 2)
    let v := (s.tmrSt k).phase + 16
    let c := s.getF (Reg.scrTmrCount k) 31 0
    let m := s.getF (Reg.scrTmrCompare k) 31 0
    let n := c + v / d
    let s := s.setTmr k { s.tmrSt k with phase := v % d }
    let n := if c ≤ m ∧ m < n then m else n % 2 ^ 32
    let s := s.setReg (Reg.scrTmrCount k) (wd n)
    if tmrMode s k = 2 then tmrPin k (decide (n < s.getF (Reg.scrTmrCmpB k) 31 0)) s else s
  else s

/-- Pending REQUESTs by PROMOTE lose their 16 CK_SYS cycles' share; one that has come to 0 holds no longer (R26). -/
def tickPromoted (s : State) : State :=
  { s with boot := { s.boot with promoted := (s.boot.promoted.map (fun p => (p.1, p.2.1, p.2.2 - 16))).filter (fun p => p.2.2 != 0) } }

/-- The engine's event path drains (R282), and a WC_CMD is no longer pending (R289). -/
def tickEngine (s : State) : State := (engDrain s).setB Reg.rhxWcStatus 0 false

/-- Delay lines that move. -/
def tickDelays (s : State) : State := forAll ((List.range 720).filter (fun i => s.getB (Reg.pinDly i) 10)) delayStep s

/-- What the design in the fabric, and the world outside, give a routed pin's cell: free bits (R401, R403; log entry 70). -/
structure PadIn where
  d0 : Bool
  d1 : Bool
  oe : Bool
  /-- The pad at the falling edge. -/
  low : Bool
  /-- TXD, or the word received. -/
  word : BitVec 16

def padFree (w : Word) : PadIn := ⟨w.getLsbD 0, w.getLsbD 1, w.getLsbD 2, w.getLsbD 3, BitVec.ofNat 16 (fld w 19 4)⟩

/-- An edge of a DDR cell's line, where `clk` says that it runs: the registered paths sample, the combinational ones follow (R401). -/
def ddrEdge (clk pad : Bool) (v : PadIn) (p : Pin) : Pin :=
  let om := fld p.img2 7 6
  let im := fld p.img2 5 4
  { p with
    fabOut := if om = 0 ∨ clk then v.d0 else p.fabOut,
    fabOut1 := if om = 2 ∧ clk then v.d1 else p.fabOut1,
    fabOe := if ¬ p.img2.getLsbD 8 ∨ clk then v.oe else p.fabOe,
    q0 := if im = 0 ∨ clk then pad else p.q0,
    q1 := if im = 2 ∧ clk then v.low else p.q1 }

/-- An edge of a serialiser's word clock: TXD of its RATIO is sent, or a word received in lock (R403). -/
def serEdge (clk locked : Bool) (v : PadIn) (p : Pin) : Pin :=
  let w := if p.img3.getLsbD 5 then v.word else v.word &&& 0xFF
  if clk ∧ (!p.img3.getLsbD 4 ∨ locked) then { p with word := w } else p

/-- A routed pin's cell in one CK_SVC cycle: at preload while its region's cells are held, else one edge of its line (R401, R403). -/
def padStep (i : Nat) (s : State) : State :=
  let n := s.getF (Reg.pinCfg i) 10 5
  let p := s.pn i
  let v := padFree (Config.freeWord s.free)
  if rgnFenced s n then padPreload i s
  else if s.getB (Reg.pinCfg i) 12 then
    (s.setPn i (serEdge (clocksOn s n && lineRuns s (fld p.img3 3 0)) (s.getB (Reg.pinSer (i / 2)) 0) v p)).draw
  else pinAt i s (s.setPn i (ddrEdge (clocksOn s n && lineRuns s (fld p.img2 3 0)) (pinLevel s i) v p)).draw

/-- The cells of routed pins. -/
def tickPads (s : State) : State := forAll ((s.pin.map Prod.fst).filter (fun i => s.getB (Reg.pinCfg i) 11)) padStep s

/-- One CK_SVC cycle. -/
def tick (s : State) : State :=
  if s.boot.porHeld then s
  else svcNext (dbgSettle <| tickEngine (tickPromoted (tickFifos (tickPads (tickDelays (forAll (List.range 16) tickTimer (tickWdt (tickTime s))))))))

end Sys2Proof.Machine
end

