-- ==== Sys2Proof/Safety.lean ====
section
/-! DEFINITION. What a safe run keeps, in the terms that claims use. -/

namespace Sys2Proof.Machine

/-- The security store is sound: a key RAM that holds no key holds no bits of one (R202), and no thermometer fuse that was
blown is unblown, now or by an advance under way (R189, R202). -/
def Sec.ok (x : Sec) : Prop :=
  (x.keyValid = false → x.keyRam = 0) ∧ Config.fuseRollback.toNat ≤ x.rollCount.toNat ∧
  ∀ t, x.rollTarget = some t → x.rollCount.toNat ≤ t.toNat

def SecInv (s : State) : Prop := s.sec.ok

/-! ### Events -/

/-- One event was raised: it took the next sequence number, and unless it was dropped its class is pending and the newest record has
its code, its source, its number and its detail (R53, R54, R55). -/
def Logged (code : Code) (src : Req) (detail : Nat) (s t : State) : Prop :=
  t.evt.seq = s.evt.seq + 1 ∧
  (t.evt.ovf = false → t.getB Reg.sysEvtPend (codeClass code) = true ∧
    ∃ q, t.evt.newest = some q ∧ q.w0 = wd (code.toNat <<< 24 ||| src.toNat <<< 16 ||| s.evt.seq.toNat) ∧ q.w3 = wd detail)

/-- Registers that an event may change (R54, R55, R201, R219, R234, R365). -/
def evtRegs : List Nat :=
  [Reg.sysEvtPend, Reg.sysEvtWr, Reg.sysEvtStatus, Reg.sysHifStatus, Reg.scrIrqPend 0, Reg.cfgStatus, Reg.cfgSwapStatus, Reg.calStatus,
   Reg.scrBeaterStatus]

/-- Words of the event ring: 1,024 records of four words from EVT_BASE on (R54). -/
def inRing (s : State) (off : Nat) : Prop := (s.reg Reg.sysEvtBase).toNat ≤ off ∧ off < (s.reg Reg.sysEvtBase).toNat + 4096

/-- A word of the scratchpad as it is stored. -/
def scrStored (s : State) (off : Nat) : Option Cell := Store.get (fun _ => none) s.scr.mem off

/-- `t` is `s` but for what events change: the event unit's own state, the ring's words, the queue of in-band interrupts, a reservation on
a ring word, the yield of a Beater run in the ring's bank, and the registers of `evtRegs`. -/
structure EvtOnly (s t : State) : Prop where
  rest : t = { s with
    regs := t.regs,
    evt := { s.evt with seq := t.evt.seq, raised := t.evt.raised, buf := t.evt.buf, ovf := t.evt.ovf, newest := t.evt.newest, lastErr := t.evt.lastErr },
    scr := { s.scr with mem := t.scr.mem, beater := { s.scr.beater with waiting := t.scr.beater.waiting } },
    core := { s.core with resv := t.core.resv },
    hif := { s.hif with ibiQ := t.hif.ibiQ } }
  regs : ∀ a, a ∉ evtRegs → t.reg a = s.reg a
  mem : ∀ off, ¬ inRing s off → scrStored t off = scrStored s off

/-- One event is raised on `u`, and nothing else happens to it; `s` is the state in which the command found the part. -/
def Raises (code : Code) (src : Req) (detail : Nat) (u s t : State) : Prop := Logged code src detail s t ∧ EvtOnly u t

/-! ### Frames -/

/-- The command runs, and `P` holds of the next state. -/
def Runs (c : Instr) (s : State) (P : State → Prop) : Prop := ∃ t, exec c s = .next t ∧ P t

/-- Every register but those named is unchanged. -/
def KeepRegs (as : List Nat) (s t : State) : Prop := ∀ a, a ∉ as → t.reg a = s.reg a

/-- The parity check of a read of `cnt` lanes from `first` of a word, where the block at `base` has it on: `bad` says whether it finds a
mismatch. One is counted, and the block's first is logged with E406 (R143, R165). -/
def ParityRead (n col base row word first cnt : Nat) (bad : Bool) (s t : State) : Prop :=
  (bad = true ↔ ramCfg s n col base 0 26 26 = 1 ∧ ∃ l, l < cnt ∧ (ramBad s n col row word).getLsbD (first + l) = true) ∧
  (bad = false → t = { s with fab := t.fab }) ∧
  (bad = true → t.getF (Reg.rgnCntParity n) 35 0 = satInc (s.getF (Reg.rgnCntParity n) 35 0) (2 ^ 36 - 1) ∧ (t.ram n col row).ppar = true ∧
    ((s.ram n col row).ppar = false → ∃ l, Logged 0x406 (BitVec.ofNat 8 (0x40 + n)) (logEntry 6 col row l 0 0 ||| n <<< 1) s t))

/-- Nothing but the scrub lane `l` has changed, and it is `x`. -/
def LaneStep (l : Nat) (x : Lane) (s t : State) : Prop :=
  (∀ m, t.lane m = if m = l then x else s.lane m) ∧ { t with cal := { t.cal with lanes := s.cal.lanes } } = s

/-- RUN, with power: every block answers, and the interconnect serves the master: all but those that a region held idle, quarantined or
not clocked would be (R28, R31, R43). -/
def Live (who : Req) (s : State) : Prop := s.mode = .run ∧ s.boot.porHeld = false ∧ served s who = true

/-! ### The scratchpad -/

/-- The access is served, no Beater run is under way, and the stored word checks and is `w` (R356, R358, R365). -/
abbrev WordAt (s : State) (who : Req) (off : Nat) (write : Bool) (w : Word) : Prop :=
  bankServes s who off write = 0 ∧ s.scr.beater.running = false ∧ (scrCell s off).chk = .good w

/-- The scratchpad and the flash die are held in their canonical form: addresses strictly rising, and nothing listed that an
unlisted address reads as. -/
def MemForm (s : State) : Prop := Store.wf (fun _ => none) s.scr.mem = true ∧ Store.wf (fun _ => flashErased) s.flash.mem = true

/-! ### Pins -/

/-- The other pin of a pin's pair (R398). -/
def pairPin (i : Nat) : Nat := i - i % 2 + (1 - i % 2)

/-! ### The service port -/

/-- A line that arrives is handled at once: power, no self-test, no held SERVICE, no line before it (R444). -/
def Taken (s : State) : Prop := s.boot.porHeld = false ∧ svcBusy s = false ∧ s.svc.waiting = []

/-! ### The Rhorax engine -/

/-- Slot `id` holds the admitted operation `o` with code `op`, and the engine executes (R250, R267, R268). -/
abbrev AtWork (id op : Nat) (o : Op) (s : State) : Prop :=
  s.opAt id = some o ∧ o.phase = .admitted ∧ reqOp o.req = op ∧ engRuns s = true

/-! ### Flash descriptors -/

/-- The descriptor at place `k` of those fetched is `d`, dispatched with OP `op`, while the controller works (R375, R380). -/
abbrev DescAt (s : State) (k op : Nat) (d : Desc) : Prop := s.flash.descs[k]? = some d ∧ d.runs = true ∧ d.op = op ∧ flcWorks s = true

/-! ### Resets -/

/-- Registers that a reset does not set to their reset values: the journal's (R397); RAIL_OK, the scratchpad's repairs and the counts since
power-on but at power-on (R366, R388, R397); and what a soft reset keeps of FS_CAUSE, HIF_STATUS, RESET_CAUSE and DBG.STATUS (R81, R429). -/
def keptRegs : RstKind → List Nat
  | .power => journalRegs
  | .nrst => journalRegs ++ Reg.pwrRailOk :: powerRegs
  | .soft => journalRegs ++ Reg.pwrRailOk :: powerRegs ++
      [Reg.sysFsCause, Reg.sysHifStatus, Reg.pwrResetCause, Reg.dbgStatus]

/-- `u` is what a reset makes of `s` (R81): INERT; registers at their reset values; units as at reset; the key RAM, the flash die, an undefined scratchpad
after power-on and a kept one otherwise; the debug level after a soft reset. -/
structure AfterReset (k : RstKind) (s u : State) : Prop where
  mode : u.mode = .inert
  queue : u.pending = s.pending
  regs : ∀ a, a ∉ keptRegs k → u.reg a = regDefault a
  units : u.core = State.reset.core ∧ u.gov = State.reset.gov ∧ u.rgn = State.reset.rgn ∧ u.fab = State.reset.fab ∧ u.ld = State.reset.ld ∧
    u.swap = State.reset.swap ∧ u.cal = State.reset.cal ∧ u.eng = State.reset.eng ∧ u.wdt = State.reset.wdt ∧ u.svc = State.reset.svc
  keys : u.sec.keyRam = s.sec.keyRam ∧ u.sec.keyValid = s.sec.keyValid ∧ u.sec.rollCount = s.sec.rollCount
  flash : s.flash.descs = [] → s.flash.move = none → u.flash.mem = s.flash.mem
  scr : k ≠ .power → s.scr.beater.destruct = false → ∀ off, scrStored u off = scrStored s off
  level : u.dbg.level = if k = .soft then s.dbg.level else none

end Sys2Proof.Machine
end

