-- ==== Sys2Proof/Certificates/Slice0/Obligations.lean ====
section
/-! DEFINITION. The statements for the provers. -/

open Sys2Proof Sys2Proof.Machine

/-- A step runs the command at the front of the queue, with the queue's rest, and every command of the table completes in every state: none ends in
a fault or a refusal. -/
def Obligations.StepRunsFront : Prop :=
  (∀ c s, step { s with pending := c :: s.pending } = exec c s) ∧ (∀ c s, ∃ t, exec c s = .next t) ∧
  ∀ c rest s, s.pending = c :: rest → ∃ t, exec c { s with pending := rest } = .next t ∧ step s = .next t

/-- Power-on reset, nRST and their releases (R67, R76, R81, R82, R95). -/
def Obligations.ResetPinsAct : Prop :=
  (∀ s, Runs .powerOnReset s fun t => ∃ u, AfterReset .power s u ∧
    EvtOnly { u with boot := { u.boot with porHeld := true } } t) ∧
  (∀ m n b s, s.boot.porHeld = true → exec (.powerOnResetRelease ⟨m, n⟩ b) s = .next (State.setB
    { s with boot := { s.boot with porHeld := false, nsafeLow := n, svcModePin := m }, hif := { s.hif with hotJoin := b } } Reg.sysMode 8 m)) ∧
  (∀ ns s, s.boot.porHeld = false → 1000 ≤ ns → Runs (.nrstAssert ns) s fun t => ∃ u v, AfterReset .nrst s u ∧ EvtOnly u v ∧
    t = State.setReg { v with boot := { v.boot with nrstLow := true } } Reg.pwrResetCause 1) ∧
  (∀ ns s, ns < 100 → exec (.nrstAssert ns) s = .next s) ∧
  (∀ m s, s.boot.nrstLow = true → s.boot.powerGood = true → s.boot.timeZero = false → exec (.nrstRelease ⟨m, false⟩) s = .next
    (let t := State.setB { s with boot := { s.boot with nrstLow := false, nsafeLow := false, svcModePin := m } } Reg.sysMode 8 m
     { t with boot := { t.boot with timeZero := true, t0 := s.evt.time } })) ∧
  (∀ m n s, s.boot.nrstLow = true → s.boot.powerGood = false → exec (.nrstRelease ⟨m, n⟩) s = .next
    (State.setB { s with boot := { s.boot with nrstLow := false, nsafeLow := n, svcModePin := m } } Reg.sysMode 8 m)) ∧
  (∀ m s, s.boot.nrstLow = true → s.boot.powerGood = true → Runs (.nrstRelease ⟨m, true⟩) s fun t => t.mode = .failsafe) ∧
  (∀ m n s, s.boot.nrstLow = false → exec (.nrstRelease ⟨m, n⟩) s = .next s) ∧
  (∀ s, s.boot.porHeld = false → s.boot.nrstLow = false → s.boot.nsafeLow = true → Runs .powerGood s fun t => t.mode = .failsafe) ∧
  (∀ s, s.boot.porHeld = false → s.boot.nrstLow = false → s.boot.nsafeLow = false → s.boot.timeZero = false → Runs .powerGood s fun t =>
    t.boot = { s.boot with powerGood := true, timeZero := true, t0 := s.evt.time } ∧
    (∀ k, k < 22 → k ≠ 6 → t.getB Reg.pwrRailOk k = true) ∧ t.getB Reg.pwrRailOk 6 = s.getB Reg.pwrRailOk 6 ∧
    KeepRegs [Reg.pwrRailOk] s t)

/-- The clock and supply monitors, nSAFE and VBATT (R61, R62, R92, R93, R95, R103, R202). -/
def Obligations.MonitorsAct : Prop :=
  (∀ s, s.boot.porHeld = false → exec .rootPllLock s = .next
    (State.setF { s with boot := { s.boot with lockedOnce := true } } Reg.clkRoot 2 1 3)) ∧
  (∀ s, s.getB Reg.clkRoot 3 = true → s.getB Reg.clkRoot 1 = true → s.boot.backupByLoss = false → exec .svcClockReturnToRoot s = .next
    (s.setB Reg.clkRoot 3 false)) ∧
  (∀ s, s.getB Reg.clkRoot 3 = true → s.getB Reg.clkRoot 1 = true → s.boot.backupByLoss = true → Runs .svcClockReturnToRoot s
    (Raises 0x106 0 0 (State.setB { s with boot := { s.boot with backupByLoss := false } } Reg.clkRoot 3 false) s)) ∧
  (∀ c code, (c = .refclkLost ∧ code = 0x102) ∨ (c = .pllLockLost ∧ code = 0x103) → ∀ s, s.boot.porHeld = false → s.boot.lockedOnce = true →
    (s.mode = .inert ∨ s.mode = .service ∨ s.mode = .failsafe → Runs c s fun t =>
      (∃ u, Raises code 0 0 u s t ∧ KeepRegs [Reg.clkRoot] s u ∧ u.getB Reg.clkRoot 1 = false ∧ u.getB Reg.clkRoot 3 = true) ∧ t.mode = s.mode) ∧
    (s.mode = .boot ∨ s.mode = .run ∨ s.mode = .retain → s.boot.nrstLow = false → Runs c s fun t => t.mode = .failsafe)) ∧
  (∀ s, [0, 2, 3, 4, 5, 6].map (railWindow s) = [(684, 756), (1710, 1890), (855, 945), (1710, 1890), (3135, 3465), (1100, 3800)] ∧
    railWindow s 1 = (if s.boot.ramRetWindow then (520, 600) else (760, 840)) ∧
    (∀ k, 7 ≤ k → k < 22 → ∀ c w, (c, w) ∈ [(0, (1080, 3630)), (1, (1140, 1260)), (2, (1425, 1575)), (3, (1710, 1890)), (4, (2375, 2625)), (5, (3135, 3465))] →
      bankCode s (k - 7) = c → railWindow s k = w)) ∧
  (∀ rail us (mv : BitVec 12) s, s.boot.porHeld = false → us ≤ supplyFilter s → ¬ (rail = 5 ∧ mv.toNat < 2900 ∧ 1 ≤ us) →
    exec (.supplyOutOfWindow rail us mv) s = .next s) ∧
  (∀ rail us (mv : BitVec 12) s, s.boot.porHeld = false → supplyFilter s < us → railInside s rail.val mv.toNat = true → exec (.supplyOutOfWindow rail us mv) s =
    .next (s.setB Reg.pwrRailOk rail.val true)) ∧
  (∀ us (mv : BitVec 12) s, s.boot.porHeld = false → supplyFilter s < us → mv.toNat < 1100 ∨ 3800 < mv.toNat →
    Runs (.supplyOutOfWindow 6 us mv) s (Raises 0x107 0 mv.toNat (s.setB Reg.pwrRailOk 6 false) s)) ∧
  (∀ rail us (mv : BitVec 12) s, s.boot.porHeld = false → supplyFilter s < us → s.boot.powerGood = true → s.boot.nrstLow = false → railInside s rail.val mv.toNat = false → rail ≠ 6 →
    ¬ (rail = 5 ∧ mv.toNat < 2900) → Runs (.supplyOutOfWindow rail us mv) s fun t => t.mode = .failsafe) ∧
  (∀ us (mv : BitVec 12) s, s.boot.porHeld = false → 1 ≤ us → mv.toNat < 2900 → Runs (.supplyOutOfWindow 5 us mv) s fun t =>
    ∃ u, AfterReset .power s u ∧ EvtOnly { u with boot := { u.boot with porHeld := true } } t) ∧
  (∀ rs s, s.boot.porHeld = false → s.boot.powerGood = false → Runs (.temperatureSample rs) s fun t =>
    (∀ i r, i < 8 → rs[i]? = some r → t.reg (Reg.pwrTemp i) = wd r.toNat) ∧ KeepRegs ((List.range 8).map Reg.pwrTemp) s t ∧
    t = { s with regs := t.regs }) ∧
  (∀ r s, s.boot.porHeld = false → s.boot.powerGood = true → s.boot.nrstLow = false → tempTrips (sgn r.toNat 12) = true →
    tempNeed s ≤ Store.get (fun _ => 0) s.boot.tripCnt 0 + 1 → Store.get (fun _ => false) s.boot.tripped 0 = false → 4 * tempWarn s ≥ sgn r.toNat 12 →
    Runs (.temperatureSample [r]) s fun t => t.mode = .failsafe) ∧
  (∀ s, s.boot.powerGood = true → s.boot.nrstLow = false → Runs .nsafeAssert s fun t => t.mode = .failsafe ∧ (s.mode ≠ .failsafe → t.core.running = false)) ∧
  (∀ s, s.boot.powerGood = true → s.mode = .failsafe → Runs .nsafeAssert s (Raises 0x002 0 0 { s with boot := { s.boot with nsafeLow := true } } s)) ∧
  (∀ s, s.boot.powerGood = false → exec .nsafeAssert s = .next { s with boot := { s.boot with nsafeLow := true } }) ∧
  (∀ s, s.boot.retain = .exitWaitRam → s.boot.nrstLow = false → Runs .vccramWakeTimeout s fun t => t.mode = .failsafe) ∧
  (∀ s, exec .vbattKeyLost s = .next
    (State.setB { s with sec := { s.sec with keyRam := 0, keyValid := false } } Reg.secKrCtrl 2 true))

/-- Boot: the boot block, the power-up pulses, global release and the bank enables (R68, R69, R76, R102). -/
def Obligations.BootSteps : Prop :=
  (∀ s, s.mode = .inert → s.boot.timeZero = true → s.getB Reg.clkRoot 1 = true → s.getB Reg.pwrBootStatus 7 = false →
    Runs .bootBlockSelect s fun t => t.mode = .boot ∨ t.mode = .service ∨ t.getB Reg.pwrBootStatus 7 = true) ∧
  (∀ s r, s.gov.ramps.find? (fun x => decide (x.kind = GovKind.bootPulse)) = some r → exec .bootRegionPowerUp s =
    .next (ldResume { s with boot := { s.boot with pulsed := s.boot.pulsed + 1 }, gov := { s.gov with ramps := s.gov.ramps.erase r } })) ∧
  (∀ s, (∀ r ∈ s.gov.ramps, r.kind ≠ .bootPulse) → exec .bootRegionPowerUp s = .next s) ∧
  (∀ s, s.mode = .boot → s.boot.imageLoaded = true → s.boot.released = false → bootToService s = true →
    Runs .globalRelease s fun t => t.mode = .service) ∧
  (∀ s, s.mode = .boot → s.boot.imageLoaded = true → s.boot.released = false → bootToService s = false →
    Runs .globalRelease s fun t => t.getF Reg.pwrBootStatus 3 0 = 6 ∧ t.getB Reg.pwrBootStatus 8 = false ∧
      ∃ r ∈ t.gov.queue, r.kind = .exit) ∧
  (∀ s, s.mode = .boot → s.boot.released = true → exitEnded s = true → s.boot.banksOn < 14 → Runs .bankOutputEnable s fun t =>
    t = { s with boot := { s.boot with banksOn := s.boot.banksOn + 1 }, pin := t.pin }) ∧
  (∀ s, s.mode = .boot → s.boot.released = true → exitEnded s = true → s.boot.banksOn = 14 → Runs .bankOutputEnable s fun t => t.mode = .run)

/-- The governor's grants, the ends of soft-starts, and the fabric's clock lines (R90, R99 to R101). -/
def Obligations.GovernorActs : Prop :=
  (∀ us s r rest, s.gov.queue = r :: rest → govFits s r = true → rampMayBegin s r = true → Runs (.governorGrant us) s fun t =>
    t.gov = { queue := rest, ramps := s.gov.ramps ++ [govRamp s r] } ∧ t.mode = s.mode) ∧
  (∀ us s r rest, s.gov.queue = r :: rest → (govFits s r = false ∨ rampMayBegin s r = false) → exec (.governorGrant us) s = .next s) ∧
  (∀ k s r, s.gov.ramps[k]? = some r → (r.kind = .engineStart ∨ r.kind = .meshPort) →
    exec (.softstartComplete k) s = .next { s with gov := { s.gov with ramps := s.gov.ramps.eraseIdx k } }) ∧
  (∀ k s r, s.gov.ramps[k]? = some r → r.kind = .entry → (∀ x ∈ s.gov.ramps, x.kind ≠ .exit) → exec (.softstartComplete k) s =
    .next { s with gov := { s.gov with ramps := s.gov.ramps.eraseIdx k }, boot := { s.boot with fabricOn := false } }) ∧
  (∀ k s r, s.gov.ramps[k]? = some r → r.kind = .exit → s.mode = .retain → s.boot.retain = .exitRamp →
    Runs (.softstartComplete k) s fun t => t.mode = .run) ∧
  (∀ who line v s, Live who s → s.boot.released = true → fld v 35 35 = s.getF (Reg.clkGcl line.val) 35 35 →
    fld v 29 13 = s.getF (Reg.clkGcl line.val) 29 13 → Runs (.clockLineWrite who line v) s fun t =>
      t.reg (Reg.clkGcl line.val) = setFld (s.reg (Reg.clkGcl line.val)) 11 0 (fld v 11 0) ∧
      (s.getB Reg.clkGclMoving line.val = true → t.getB Reg.clkGclMoving line.val = true) ∧
      KeepRegs [Reg.clkGcl line.val, Reg.clkGclMoving] s t ∧ t = { begin who s with regs := t.regs }) ∧
  (∀ line s, exec (.phaseMoveComplete line) s = .next (State.setB { s with boot := { s.boot with
    phaseAt := Store.set (fun _ => 0) s.boot.phaseAt line.val (BitVec.ofNat 12 (s.getF (Reg.clkGcl line.val) 11 0)) } }
    Reg.clkGclMoving line.val false)) ∧
  (∀ target (m : Fin 15) b s, asksUrgent s m.val b = false → s.boot.promoted.any (fun e => e.1 == target && e.2.1 == m) = false →
    exec (.requestPromotedUrgent target ⟨m, b⟩) s =
      .next { s with boot := { s.boot with promoted := s.boot.promoted ++ [(target, m, weightSum s - weightOf s m.val)] } }) ∧
  (∀ target (m : Fin 15) b s, asksUrgent s m.val b = true → exec (.requestPromotedUrgent target ⟨m, b⟩) s = .next s)

/-- PWR.MODE_REQ's locked sequence and the soft reset (R83, R432, R438). -/
def Obligations.SoftResetSequence : Prop :=
  (∀ who s, Live who s → (s.boot.seqMode = none ∨ s.boot.seqMode = some who) → exec (.softResetFirstWrite who) s =
    .next { begin who s with boot := { s.boot with seqMode := some who } }) ∧
  (∀ who m s, Live who s → s.boot.seqMode = some m → m ≠ who → Runs (.softResetFirstWrite who) s fun t =>
    t.boot.seqMode = some who ∧ Logged 0xA06 rqDbg ((if who = rqDbg then 3 else 2) <<< 32 ||| m.toNat <<< 24 ||| Reg.pwrModeReq) s t) ∧
  (∀ who s, Live who s → s.boot.seqMode = some who → ∀ c, c = Instr.retainRequest who ∨ c = Instr.wakeRequest who → Runs c s fun t =>
    t.boot.seqMode = none) ∧
  (∀ who s, Live who s → s.boot.seqMode = some who → s.boot.nsafeLow = true → s.boot.powerGood = true →
    s.getF Reg.pwrRailOk 21 0 = 0x3FFFFF - 0x40 + 0x40 * s.getF Reg.pwrRailOk 6 6 → s.boot.nrstLow = false →
    Runs (.softResetSecondWrite who) s fun t => t.mode = .failsafe) ∧
  (∀ who s, Live who s → s.boot.seqMode = some who → s.boot.nsafeLow = false → Runs (.softResetSecondWrite who) s fun t =>
    t.mode = .inert ∧ t.reg Reg.pwrResetCause = wd (who.toNat <<< 8 ||| 2) ∧ t.boot.softBy = some who ∧
    ∃ u v, AfterReset .soft s u ∧ EvtOnly u v ∧ KeepRegs [Reg.pwrResetCause, Reg.sysMode] v t ∧
      t = { v with regs := t.regs, boot := t.boot }) ∧
  (∀ who s, Live who s → s.boot.seqMode = none → Runs (.softResetSecondWrite who) s (Raises 0x003 0 (6 <<< 8 ||| 3) (begin who s) s)) ∧
  (∀ m s, s.boot.seqMode = some m → Runs (.lockedSequenceExpired .modeReq) s
    (Raises 0xA06 rqDbg (1 <<< 32 ||| m.toNat <<< 24 ||| Reg.pwrModeReq) { s with boot := { s.boot with seqMode := none } } s)) ∧
  (∀ m s, s.boot.seqKick = some m → Runs (.lockedSequenceExpired .wdtKick) s
    (Raises 0xA06 rqDbg (1 <<< 32 ||| m.toNat <<< 24 ||| Reg.wdtKick) { s with boot := { s.boot with seqKick := none } } s))

/-- RETAIN: its requests and their refusals, the end of entry, the wakes (R77 to R79). -/
def Obligations.RetainCycle : Prop :=
  (∀ who s, Live who s → s.boot.seqMode = none → retainReason s 0x6D1 = none → Runs (.retainRequest who) s fun t =>
    t.boot = { s.boot with retain := .entering, emu := attached s } ∧ t = { begin who s with boot := t.boot, gov := t.gov } ∧
    ∃ r ∈ t.gov.queue, r.kind = .entry) ∧
  (∀ who r s, Live who s → s.boot.seqMode = none → retainReason s 0x6D1 = some r → Runs (.retainRequest who) s
    (Raises 0x003 0 (r <<< 8 ||| 1) (begin who s) s)) ∧
  (∀ s, s.boot.retain = .entering → s.eng.slots = [] → s.cal.queue = [] → govHas .entry s = false → s.boot.heldService = false → s.boot.heldWake = none →
    Runs .retainEntryComplete s fun t => t.mode = .retain ∧ t.core.running = false) ∧
  (∀ s, s.mode = .retain → s.boot.retain = .idle → s.getB Reg.pwrRetainCfg 6 = false →
    (s.getB Reg.pwrRetainCfg 3 = true → s.getF Reg.pwrWakeTimer 31 0 ≠ 0 → Runs .wakeTimerExpiry s fun t =>
      Logged 0x009 0 2 s t ∧ t.boot.retain = .exitRamp ∧ t.core.running = true ∧ t.mode = .retain) ∧
    (∀ rising, s.getB Reg.pwrRetainCfg 2 = true → s.getF Reg.pwrRetainCfg 5 4 = (if rising then 0 else 1) →
      (s.pn (s.getF Reg.pwrRetainCfg 25 16)).stage = .none → (s.pn (s.getF Reg.pwrRetainCfg 25 16)).masked = false →
      Runs (.wakePinEdge rising) s fun t => Logged 0x009 0 1 s t ∧ t.boot.retain = .exitRamp ∧ t.core.running = true) ∧
    (s.boot.porHeld = false → s.boot.seqMode = none → Runs (.wakeRequest rqSvc) s fun t =>
      Logged 0x009 0 0 s t ∧ t.boot.retain = .exitRamp ∧ t.core.running = true)) ∧
  (∀ who s, s.mode = .retain → s.boot.porHeld = false → s.boot.seqMode = none → served s who = true → who ≠ rqSvc → who ≠ rqI3c →
    Runs (.wakeRequest who) s (Raises 0x003 0 (8 <<< 8 ||| 2) (begin who s) s)) ∧
  (∀ s, s.boot.retain = .exitWaitRam → Runs .vccramRunWindowEntry s fun t =>
    t.boot = { s.boot with retain := .exitRamp } ∧ t.core = { s.core with running := true } ∧ t.getB Reg.calStatus 0 = true ∧
    ∃ r ∈ t.gov.queue, r.kind = .exit) ∧
  (∀ s, s.boot.ctxLost = true → s.boot.retain = .exitRamp → s.mode = .retain → exec .contextStoreWakeClear s =
    .next { s with boot := { s.boot with ctxLost := false }, eng := { s.eng with ctx := [], poison := [] } })

/-- The I3C target's common command codes, where it hears them: broadcasts, addresses, settings (R34, R36, R37). -/
def Obligations.I3cSettings : Prop :=
  ∀ s, hifHears s = true →
  (∀ int hj, exec (.i3cEnec int hj) s = .next
    { s with hif := { s.hif with intEn := s.hif.intEn || int, hjEn := s.hif.hjEn || hj, ack := true, out := [] } }) ∧
  (∀ int hj, exec (.i3cDisec int hj) s = .next { s with hif := { s.hif with
    intEn := s.hif.intEn && !int, hjEn := s.hif.hjEn && !hj, hotJoin := s.hif.hotJoin && !hj, ack := true, out := [] } }) ∧
  (∀ len, 8 ≤ len.toNat → exec (.i3cSetmwl len) s = .next { s with hif := { s.hif with mwl := len, ack := true, out := [] } }) ∧
  (∀ len, len.toNat < 8 → exec (.i3cSetmwl len) s = .next { s with hif := { s.hif with ack := true, out := [] } }) ∧
  (∀ len, 8 ≤ len.toNat → exec (.i3cSetmrl len) s = .next { s with hif := { s.hif with mrl := len, ack := true, out := [] } }) ∧
  exec (.i3cRstact 0) s = .next { s with hif := { s.hif with ack := true, out := [] } } ∧
  exec (.i3cRstact 1) s = .next { s with hif := { ack := true } } ∧
  exec .i3cEnthdr0 s = .next { s with hif := { s.hif with hdr := true, ack := true, out := [] } } ∧
  (∀ c, exec (.i3cUnknownCcc true c) s = .next { s with hif := { s.hif with ack := false, out := [] } }) ∧
  (∀ c, exec (.i3cUnknownCcc false c) s = .next s) ∧
  (Runs .i3cRstdaa s fun t => daValid t = false ∧ dynAddr t = 0 ∧ KeepRegs [Reg.sysHifStatus] s t ∧ t.hif.ack = true) ∧
  (∀ addr, daValid s = false → Runs (.i3cEntdaa addr true) s fun t =>
    daValid t = true ∧ dynAddr t = addr.toNat ∧ t.hif.hotJoin = false ∧ t.hif.out = pidBytes ++ [0x26, 0xC4] ∧ KeepRegs [Reg.sysHifStatus] s t) ∧
  (∀ addr, daValid s = false → exec (.i3cEntdaa addr false) s = .next { s with hif := { s.hif with ack := false, out := pidBytes } }) ∧
  (∀ static addr, daValid s = false → static.toNat = s.getF Reg.sysStaticAddr 6 0 → Runs (.i3cSetdasa static addr) s fun t =>
    daValid t = true ∧ dynAddr t = addr.toNat ∧ t.hif.hotJoin = false ∧ t.hif.ack = true ∧ KeepRegs [Reg.sysHifStatus] s t) ∧
  (∀ addr, daValid s = true → Runs (.i3cSetnewda addr) s fun t =>
    daValid t = true ∧ dynAddr t = addr.toNat ∧ t.hif.ack = true ∧ KeepRegs [Reg.sysHifStatus] s t)

/-- What the direct reads return to a target with a dynamic address, the end of HDR, hot-join and in-band interrupts (R34, R35, R37, R41, R54). -/
def Obligations.I3cReads : Prop :=
  (∀ s c, (c = .i3cGetmwl ∨ c = .i3cGetmrl ∨ c = .i3cGetpid ∨ c = .i3cGetbcr ∨ c = .i3cGetdcr ∨ c = .i3cGetstatus ∨ c = .i3cGetmxds ∨
      c = .i3cGetcaps) → hifHears s = true →
    (daValid s = false → exec c s = .next { s with hif := { s.hif with ack := false, out := [] } }) ∧
    (daValid s = true → Runs c s fun t => t = { s with hif := { s.hif with ack := true, out := t.hif.out } } ∧
      (c = .i3cGetmwl → t.hif.out = [BitVec.ofNat 8 (s.hif.mwl.toNat / 256), BitVec.ofNat 8 s.hif.mwl.toNat]) ∧
      (c = .i3cGetmrl → t.hif.out = [BitVec.ofNat 8 (s.hif.mrl.toNat / 256), BitVec.ofNat 8 s.hif.mrl.toNat, 5]) ∧
      (c = .i3cGetpid → t.hif.out = pidBytes) ∧ (c = .i3cGetbcr → t.hif.out = [0x26]) ∧ (c = .i3cGetdcr → t.hif.out = [0xC4]) ∧
      (c = .i3cGetstatus → t.hif.out = [0, BitVec.ofNat 8 (min 15 (popcount (s.reg Reg.sysEvtPend)))]) ∧
      (c = .i3cGetmxds → t.hif.out.length = 2) ∧ (c = .i3cGetcaps → t.hif.out.length = 4))) ∧
  (∀ s, exec .hdrExitPattern s = .next { s with hif := { s.hif with hdr := false } }) ∧
  (∀ s, s.hif.hotJoin = true → s.hif.hjEn = true → daValid s = false → s.boot.porHeld = false →
    exec .hotJoinRequest s = .next { s with hif := { s.hif with hotJoins := s.hif.hotJoins + 1 } }) ∧
  (∀ s i rest, s.hif.ibiQ = i :: rest → daValid s = true → s.hif.intEn = true → hifHears s = true →
    exec (.ibiSend true) s = .next { s with hif := { s.hif with ibiQ := rest, ack := true, out :=
      [BitVec.ofNat 8 (0xA0 + i.cls.toNat), BitVec.ofNat 8 (i.code.toNat / 256), BitVec.ofNat 8 i.code.toNat,
       BitVec.ofNat 8 (i.index.toNat / 256), BitVec.ofNat 8 i.index.toNat] } } ∧
    exec (.ibiSend false) s = .next { s with hif := { s.hif with ack := false } })

/-- Transfers: three address bytes set the word address; each word is one access; a word whose top four bits are not zero ends them (R36 to R41). -/
def Obligations.I3cTransfers : Prop :=
  (∀ dst a b c s, hifAt dst.toNat s = true → Runs (.registerWriteTransfer dst [a, b, c]) s fun t =>
    t.hif.ptr.toNat = (a.toNat * 256 + b.toNat) * 256 + c.toNat ∧ t = { s with hif := { s.hif with ack := true, out := [], ptr := t.hif.ptr } }) ∧
  (∀ dst a b c w0 w1 w2 w3 w4 s, hifAt dst.toNat s = true → Live rqI3c s → w0.toNat < 16 → inBlock ((a.toNat * 256 + b.toNat) * 256 + c.toNat) = true →
    exec (.registerWriteTransfer dst [a, b, c, w0, w1, w2, w3, w4]) s = .next
      (writeGo rqI3c ((a.toNat * 256 + b.toNat) * 256 + c.toNat) (word40 w0 w1 w2 w3 w4)
        (begin rqI3c { s with hif := { s.hif with ack := true, out := [], ptr := BitVec.ofNat 24 ((a.toNat * 256 + b.toNat) * 256 + c.toNat) } }))) ∧
  (∀ dst a b c w0 w1 w2 w3 w4 s, hifAt dst.toNat s = true → 16 ≤ w0.toNat → Runs (.registerWriteTransfer dst [a, b, c, w0, w1, w2, w3, w4]) s fun t =>
    t.getB Reg.sysHifStatus 0 = true ∧ KeepRegs [Reg.sysHifStatus] s t) ∧
  (∀ dst bytes s, hifAt dst.toNat s = false → exec (.registerWriteTransfer dst bytes) s = .next { s with hif := { s.hif with ack := false, out := [] } }) ∧
  (∀ dst n s, hifAt dst.toNat s = true → Runs (.registerReadTransfer dst n) s fun t => t.hif.out.length = 5 * n ∧ t.hif.ack = true) ∧
  (∀ dst n s, hifAt dst.toNat s = false → exec (.registerReadTransfer dst n) s = .next { s with hif := { s.hif with ack := false, out := [] } }) ∧
  (∀ bytes s, hifDdr s = false → exec (.hdrDdrWrite bytes) s = .next { s with hif := { s.hif with ack := false, out := [] } }) ∧
  (∀ a b c s, hifDdr s = true → Runs (.hdrDdrWrite [a, b, c]) s fun t => t.hif.ddrPtr.toNat = (a.toNat * 256 + b.toNat) * 256 + c.toNat ∧
    t = { s with hif := { s.hif with ack := true, out := [], ddrPtr := t.hif.ddrPtr } }) ∧
  (∀ s, hifDdr s = true → Runs (.hdrDdrRead 1) s fun t =>
    t.hif.out = wordBytes (regRead rqI3c false s.hif.ddrPtr.toNat s).resp.data ++ [0]) ∧
  (∀ n s, hifDdr s = true → Runs (.hdrDdrRead n) s fun t => t.hif.out.length = 5 * n + n % 2 ∧ t.hif.ack = true)

/-- Register accesses in RUN: a plain write stores RW bits and clears W1C bits; a read clears RC bits; an address of no block answers nothing; claims
are granted, released or refused with E901 (R6, R8, R42, R51). -/
def Obligations.RegisterAccesses : Prop :=
  (∀ who (a : Addr) v f s, Live who s → a.toNat < 0x3000 → Fam.at? a.toNat = some f →
    a.toNat ∉ [Reg.sysEvtCtrl, Reg.sysEvtRd, Reg.pwrGovCfg, Reg.pwrMonCfg, Reg.pwrModeReq] → (∀ n, n < 16 → a.toNat ≠ Reg.clkGcl n) →
    Runs (.registerWrite who a v) s fun t =>
      (t.reg a.toNat).toNat = (((s.reg a.toNat).toNat &&& ((2 ^ 36 - 1) ^^^ f.rw) ||| v.toNat &&& f.rw) &&&
        ((2 ^ 36 - 1) ^^^ (v.toNat &&& f.w1c))) % 2 ^ 36 ∧
      KeepRegs [a.toNat] s t ∧ t = { begin who s with regs := t.regs }) ∧
  (∀ who (a : Addr) v s, Live who s → inBlock a.toNat = false → exec (.registerWrite who a v) s =
    .next (if who = rqI3c then (begin who s).setB Reg.sysHifStatus 1 true else begin who s)) ∧
  (∀ who s, Live who s → who ≠ rqDbg → Runs (.rcRead who 0x14) s fun t =>
    t.resp.data = wd (s.getF Reg.sysEvtStatus 15 0 ||| (ringFull s).toNat <<< 16 ||| s.evt.buf.isEmpty.toNat <<< 17) ∧
    t.getF Reg.sysEvtStatus 15 0 = 0 ∧ KeepRegs [Reg.sysEvtStatus] s t) ∧
  (∀ s, Live rqDbg s → Runs (.rcRead rqDbg 0x14) s fun t => t.regs = s.regs ∧
    t.resp.data = wd (s.getF Reg.sysEvtStatus 15 0 ||| (ringFull s).toNat <<< 16 ||| s.evt.buf.isEmpty.toNat <<< 17)) ∧
  (∀ (k : Fin 6) id s, Live rqCore s → s.getF (Reg.scrSerClaim k.val) 7 0 = 0 → knownReq id → id < 256 →
    Runs (.claim rqCore (BitVec.ofNat 24 (Reg.scrSerClaim k.val)) (wd id)) s fun t =>
      t.getF (Reg.scrSerClaim k.val) 7 0 = id ∧ KeepRegs [Reg.scrSerClaim k.val] s t ∧ t = { begin rqCore s with regs := t.regs }) ∧
  (∀ (k : Fin 6) id s, Live rqCore s → s.getF (Reg.scrSerClaim k.val) 7 0 ≠ 0 → id < 256 → id ≠ 0 →
    Runs (.claim rqCore (BitVec.ofNat 24 (Reg.scrSerClaim k.val)) (wd id)) s (Raises 0x901 rqCore
      (5 <<< 32 ||| s.getF (Reg.scrSerClaim k.val) 7 0 <<< 24 ||| 1 <<< 16 ||| k.val)
      (((begin rqCore s).setB (Reg.scrSerClaim k.val) 8 true).setF (Reg.scrSerClaim k.val) 23 16 1) s)) ∧
  (∀ (k : Fin 16) s, Live rqCore s → Runs (.release rqCore (BitVec.ofNat 24 (Reg.scrTmrClaim k.val)) (wd (s.getF (Reg.scrTmrClaim k.val) 7 0))) s fun t =>
      t.getF (Reg.scrTmrClaim k.val) 7 0 = 0 ∧ KeepRegs [Reg.scrTmrClaim k.val] s t) ∧
  (∀ who s, Live who s → Runs (.timeRead who) s fun t =>
    t.resp.data = wd s.evt.time.toNat ∧ Store.get (fun _ => 0) t.evt.timeLatch who.toNat =
      wd (s.evt.meshTime.toNat <<< 35 ||| s.evt.time.toNat >>> 36) ∧ t.regs = s.regs) ∧
  (∀ who s, served s who = false → ∀ c, (∃ a v, c = Instr.registerWrite who a v) ∨ (∃ a, c = Instr.rcRead who a) ∨
    (∃ f v, c = Instr.ctrlEnable who f v ∨ c = Instr.ctrlDisable who f v ∨ c = Instr.profileWrite who f v) ∨ (∃ a v, c = Instr.expertWrite who a v) →
    exec c s = .next (begin who s))

/-- The event ring and the service buffer as software reads them (R54, R55, R57). -/
def Obligations.EventRing : Prop :=
  (∀ who v s, Live who s → v.getLsbD 0 = true → Runs (.eventRingEnable who v) s fun t =>
    t.getB Reg.sysEvtCtrl 0 = true ∧ t.reg Reg.sysEvtWr = 0 ∧ t.reg Reg.sysEvtRd = 0 ∧
    KeepRegs [Reg.sysEvtCtrl, Reg.sysEvtWr, Reg.sysEvtRd] s t ∧ t = { begin who s with regs := t.regs }) ∧
  (∀ who v s, Live who s → v.getLsbD 0 = false → Runs (.eventRingEnable who v) s fun t =>
    t.getB Reg.sysEvtCtrl 0 = false ∧ KeepRegs [Reg.sysEvtCtrl] s t) ∧
  (∀ who v s, Live who s → exec (.eventReadAdvance who v) s = .next ((begin who s).setReg Reg.sysEvtRd (wd (fld v 9 0)))) ∧
  (∀ who q qs s, Live who s → who ≠ rqDbg → s.evt.buf = q :: qs → exec (.eventPop who false) s = .next
    { s with evt := { s.evt with buf := qs }, resp := { who := who, data := q.w3, err := false } }) ∧
  (∀ who p q qs s, Live who s → (p = true ∨ who = rqDbg) → s.evt.buf = q :: qs → exec (.eventPop who p) s = .next
    { s with resp := { who := who, data := q.w3, err := false } }) ∧
  (∀ s, s.evt.buf = [] ∨ ringWritable s = false → exec .serviceBufferDrain s = .next s) ∧
  (∀ q qs s, s.evt.buf = q :: qs → ringWritable s = true → Runs .serviceBufferDrain s fun t =>
    (let b := (s.reg Reg.sysEvtBase).toNat + 4 * s.getF Reg.sysEvtWr 9 0
     scrStored t b = some { data := q.w0 } ∧ scrStored t (b + 1) = some { data := q.w1 } ∧ scrStored t (b + 2) = some { data := q.w2 } ∧
     scrStored t (b + 3) = some { data := q.w3 } ∧ ∀ off, off < b ∨ b + 4 ≤ off → scrStored t off = scrStored s off) ∧
    t.evt = { s.evt with buf := qs } ∧ t.getF Reg.sysEvtWr 9 0 = (s.getF Reg.sysEvtWr 9 0 + 1) % 1024)

/-- The function lifecycle: CTRL writes, the ends of starts and stops, PROFILE and expert writes (R44 to R48). -/
def Obligations.FunctionLifecycle : Prop :=
  (∀ who f v s, Live who s → (f = .rhx ∨ f = .flc ∨ ∃ p, f = .mesh p) → s.fn f = fnOff → Runs (.ctrlEnable who f v) s fun t =>
    t.fn f = fnStarting ∧ t.fnEn f = true ∧ KeepRegs [fnCtrl f, fnStat f, Reg.flcXcfg] s t) ∧
  (∀ who f v s, Live who s → (f = .rhx ∨ f = .flc ∨ ∃ p, f = .mesh p) → (s.fn f = fnOn ∨ s.fn f = fnFault) → Runs (.ctrlDisable who f v) s fun t =>
    t.fn f = fnStopping ∧ t.fnEn f = false ∧ KeepRegs (fnCtrl f :: fnStat f :: Reg.mshCntDrop :: evtRegs) s t ∧
    (f = .rhx → t.eng.waitQ = []) ∧ (f ≠ .rhx ∨ s.eng.waitQ = [] → KeepRegs [fnCtrl f, fnStat f] s t)) ∧
  (∀ who v s, Live who s → wdtLocked s = true → Runs (.ctrlDisable who .wdt v) s fun t => t.fnEn .wdt = s.fnEn .wdt) ∧
  (∀ who v s, Live who s → Runs (.wdtLock who v) s fun t => wdtLocked t = true) ∧
  (∀ f s, s.fn f = fnStarting → startReady f s = true → fnClocked f s = true → s.fnEn f = true → Runs (.functionStartComplete f) s fun t => t.fn f = fnOn) ∧
  (∀ f s, s.fn f = fnStarting → startReady f s = true → fnClocked f s = true → s.fnEn f = false →
    exec (.functionStartComplete f) s = .next (fnStop f s) ∧
    (f = .rhx ∨ f = .flc ∨ f = .wdt ∨ (∃ p, f = .mesh p) → (fnStop f s).fn f = fnStopping)) ∧
  (∀ f s, s.fn f = fnStopping → stopReady f s = true → fnClocked f s = true → (fnEnd f s).fnEn f = false → Runs (.functionStopComplete f) s fun t => t.fn f = fnOff) ∧
  (∀ who f v s, Live who s → f ≠ .beater → (∀ k, f = .serial k → periphMine (Reg.scrSerClaim k.val) who s = true) →
    (∀ k, f = .tmr k → periphMine (Reg.scrTmrClaim k.val) who s = true) →
    exec (.profileWrite who f v) s = .next (fnDirect f (ctrlStore f v (profileLoad f (fld v 7 4) (begin who s))))) ∧
  (∀ who v s, Live who s → exec (.profileWrite who .beater v) s = .next (opBeaterCtrl who v (begin who s))) ∧
  (∀ who v s, Live who s → (∀ k : Fin 6, periphMine (Reg.scrSerClaim k.val) who s = false → exec (.profileWrite who (.serial k) v) s = .next (busErr (begin who s))) ∧
    (∀ k : Fin 16, periphMine (Reg.scrTmrClaim k.val) who s = false → exec (.profileWrite who (.tmr k) v) s = .next (busErr (begin who s)))) ∧
  (∀ f p s, p ≠ 0 ∨ s.fn f ≠ fnOff → profileLoad f p s = s) ∧
  (∀ f s, s.getF (fnCtrl f) 7 4 ≠ 0 → s.fn f = fnOff → (profileLoad f 0 s).getF (fnCtrl f) 7 4 = 0 ∧ (profileLoad f 0 s).getF (fnStat f) 7 4 = 0 ∧
    ∀ a live, expertOf a = some (f, live) → (profileLoad f 0 s).reg a = regDefault a) ∧
  (∀ who v s, Live who s → fld v 7 4 ≠ 0 → s.fn .flc = fnOff → s.fnEn .flc = false → v.getLsbD 0 = false →
    exec (.profileWrite who .flc v) s = .next ((begin who s).setF Reg.flcCtrl 1 0 (fld v 1 0))) ∧
  (∀ who (a : Addr) v s f live, Live who s → expertOf a.toNat = some (f, live) → s.getB (fnCtrl f) 1 = true → (s.fn f = fnOff ∨ live = true) →
    ¬ (f = .wdt ∧ wdtLocked s = true) → exec (.expertWrite who a v) s =
      .next (((begin who s).setReg a.toNat (wd (if f = .wdt then fld v 16 0 else fld v 0 0))).setF (fnStat f) 7 4 0xF)) ∧
  (∀ who (a : Addr) v s, Live who s → (∀ f live, expertOf a.toNat = some (f, live) → s.getB (fnCtrl f) 1 = false ∨ (s.fn f ≠ fnOff ∧ live = false) ∨
    (f = .wdt ∧ wdtLocked s = true)) → exec (.expertWrite who a v) s = .next (begin who s))

/-- A fabric clock edge at a Quire moves its cells' user bits and flip-flops as their MODE, CE, SR and clock lines have it, all read before the
edge; a LUT-RAM write moves one bit, a shift all 64, check bits stay; an asynchronous SR needs no edge (R109, R113, R115, R122, R127). -/
def Obligations.CellEdges : Prop :=
  ∀ (c : Instr) (q : BlkAddr) (line : Fin 16) (rising : Bool) (i : QuireIn) (we : Bool) (s : State),
    c = .lutramWrite ⟨q, line, rising⟩ i ∧ we = true ∨ c = .cellShift ⟨q, line, rising⟩ i ∧ we = false →
    let n := q.region.val; let col := q.col.val; let row := q.row.val
    let u := srAsync n col row i { s with fab := { s.fab with ins := Store.set (fun _ => {}) s.fab.ins (blkKey n col row) i } }
    let at_ := fun (k : Fin 36) => (⟨n, col, row, k.val⟩ : CellPos)
    let bit := fun (k : Fin 36) (j : Nat) => cellBit s n col row k.val j
    (isLogicCol col = false → exec c s = .next s) ∧
    (isLogicCol col = true → (clocksOn s n = false ∨ lineRuns s line.val = false) → exec c s = .next u) ∧
    (∀ k, Store.get (fun _ => false) u.fab.ffA (at_ k).key = (if heldPreload s n = false ∧ (s.rg n).gated = false ∧ s.mode ≠ .retain ∧ bit k 74 = true ∧
        bit k 83 = true ∧ i.sr.getLsbD (bit k 79).toNat = true then bit k 66 else Store.get (fun _ => false) s.fab.ffA (at_ k).key)) ∧
    u = { s with fab := { s.fab with ins := u.fab.ins, ffA := u.fab.ffA, ffB := u.fab.ffB } } ∧
    (isLogicCol col = true → clocksOn s n = true → lineRuns s line.val = true → Runs c s fun t =>
      (∀ k, let e := cellSees u i we (at_ k)
        let on := quireLine s n col row line.val rising (bit k 75).toNat
        (∀ j : Fin 64, cellBit t n col row k.val j.val =
          if on = true ∧ e.ce = true ∧ e.sr = false ∧ we = true ∧ cellMode s (at_ k) = 2 ∧ j.val = e.idx then e.ax
          else if on = true ∧ e.ce = true ∧ e.sr = false ∧ cellMode s (at_ k) = 3 then (if j.val = 0 then shiftIn s (at_ k) e else bit k (j.val - 1))
          else bit k j.val) ∧
        Store.get (fun _ => false) t.fab.ffA (at_ k).key = (if on = true ∧ e.sr = true then bit k 66 else if on = true ∧ e.ce = true then cellDA u (at_ k) e
          else Store.get (fun _ => false) u.fab.ffA (at_ k).key) ∧
        Store.get (fun _ => false) t.fab.ffB (at_ k).key = (if on = true ∧ e.sr = true then bit k 67 else if on = true ∧ e.ce = true then cellDB u (at_ k) e
          else Store.get (fun _ => false) u.fab.ffB (at_ k).key)) ∧
      (∀ key, (∀ j, j < 64 → key ≠ lutKey s (at_ 0) j) → t.cfgCell key = s.cfgCell key) ∧
      ((∀ k, userOwned s (at_ k) = true) → ∀ key, (t.cfgCell key).err = (s.cfgCell key).err) ∧
      ((∀ k, Store.get (fun _ => false) s.fab.parErr (at_ k).key = false) → t = { s with fab := t.fab }))

/-- RAM36, FIFO and MAC36 blocks under the clock of each side, and the buses: writes store enabled lanes with the collision rule, reads pass the output
register, FIFOs push, pop, refuse and reset, a shared FIFO does so for its owner, a MAC36 accumulates, a bus counts masked rows (R140, R151 to R170). -/
def Obligations.HardBlocks : Prop :=
  (∀ n col base pb (i : PortIn) s u, let x := portAct s n col base pb i
    (∀ l, l < 4 → fld (ramWord (portStore n col x u) n col x.row x.word) (9 * l + 8) (9 * l) =
      if l ∈ x.lanes then fld i.din (9 * (l - x.first) + 8) (9 * (l - x.first)) else fld (ramWord u n col x.row x.word) (9 * l + 8) (9 * l)) ∧
    (∀ k, k ≠ ramKey n col x.row x.word → Store.get (fun _ => 0) (portStore n col x u).fab.ram k = Store.get (fun _ => 0) u.fab.ram k)) ∧
  (∀ (blk : BlkAddr) A B s, let n := blk.region.val; let col := blk.col.val; let r := cascBase s n col blk.row.val
    let x := portAsk s n col r false A; let y := portAsk s n col r true B
    let hit := ramCfg s n col r 0 7 6 = 2 ∧ ∃ a b, x = some a ∧ y = some b ∧ a.2.row = b.2.row ∧ a.2.word = b.2.word ∧ ∃ l ∈ a.2.lanes, l ∈ b.2.lanes
    (ramCfg s n col r 0 5 4 = 1 → exec (.ram36Write blk A B) s = .next s) ∧
    (ramCfg s n col r 0 5 4 ≠ 1 → x = none → y = none → B = none ∨ portRuns s n col r true = false → exec (.ram36Write blk A B) s = .next s) ∧
    (ramCfg s n col r 0 5 4 ≠ 1 → Runs (.ram36Write blk A B) s fun t =>
      (∀ a, x = some a → y = none → t.fab.ram = (portStore n col a.2 s).fab.ram) ∧
      (∀ b, x = none → y = some b → t.fab.ram = (portStore n col b.2 s).fab.ram) ∧
      (∀ a b, x = some a → y = some b → (ramCfg s n col r 0 7 6 = 1 → t.fab.ram = (portStore n col b.2 (portStore n col a.2 s)).fab.ram) ∧
        (hit → t.fab.ram = (portStore n col a.2 s).fab.ram) ∧
        (ramCfg s n col r 0 7 6 ≠ 1 → ¬ hit → t.fab.ram = (portStore n col a.2 (portStore n col b.2 s)).fab.ram)) ∧
      (hit → (t.ram n col r).coll = true ∧ (t.ram n col r).lost = true) ∧
      (ramCfg s n col r 0 26 26 = 0 → ¬ hit ∨ (s.ram n col r).coll = true → t = { s with fab := t.fab }) ∧
      (ramCfg s n col r 0 26 26 = 0 → hit → (s.ram n col r).coll = false →
        Logged 0x801 (BitVec.ofNat 8 (0x40 + n)) (r <<< 7 ||| (if col = 20 then 1 else 0) <<< 6 ||| n) s t))) ∧
  (∀ (blk : BlkAddr) pb addr oce orst s, let n := blk.region.val; let col := blk.col.val; let r := cascBase s n col blk.row.val
    let x := portAct s n col r pb ⟨addr, 0, true, 0, oce, orst⟩
    let oreg := ramCfg s n col r 0 (if pb then 11 else 10) (if pb then 11 else 10) == 1
    (ramCfg s n col r 0 5 4 = 1 → ∀ en, exec (.ram36Read blk pb ⟨addr, en⟩ oce orst) s = .next s) ∧
    (ramCfg s n col r 0 5 4 ≠ 1 → ∀ en, en = false ∨ portRuns s n col r pb = false → exec (.ram36Read blk pb ⟨addr, en⟩ oce orst) s =
      .next (if portRuns s n col r pb then lostClear n col r pb s else s)) ∧
    (ramCfg s n col r 0 5 4 ≠ 1 → portRuns s n col r pb = true → Runs (.ram36Read blk pb ⟨addr, true⟩ oce orst) s fun t =>
      ∃ bad, ParityRead n col r x.row x.word x.first x.cnt bad s t ∧ t.fab.ram = s.fab.ram ∧
        (t.ram n col r).port pb = portPush (ramDepth s n col r pb) oreg oce orst (blockWord s n col r (if pb then 2 else 1))
          (ramGet s n col x.row x.word x.first x.cnt, bad) ((s.ram n col r).port pb))) ∧
  (∀ (init : Word) w (p : RamPort), (∀ oce orst, p.pipe = [] → (portPush 0 false oce orst init w p).dout = w.1) ∧
    (∀ h q, p.pipe = h :: q → (portPush (q.length + 1) true true false init w p).dout = h.1 ∧ (portPush (q.length + 1) true true false init w p).pipe = q ++ [w]) ∧
    (∀ d oce, (portPush d true oce true init w p).dout = init) ∧ (∀ d, (portPush d true false false init w p).dout = p.dout)) ∧
  (∀ (blk : BlkAddr) s, let n := blk.region.val; let col := blk.col.val; let r := cascBase s n col blk.row.val
    exec (.ram36CollClr blk) s = .next (if portRuns s n col r false then s.setRam n col r { s.ram n col r with coll := false } else s)) ∧
  (∀ (blk : BlkAddr) s, let n := blk.region.val; let col := blk.col.val; let r := cascBase s n col blk.row.val; let f := s.ram n col r
    let toA := isFifo s n col r = true ∧ portRuns s n col r false = true ∧ fifoShared s n col r ≠ 2
    let toB := isFifo s n col r = true ∧ portRuns s n col r true = true ∧ fifoShared s n col r ≠ 1
    (∀ en din, ¬ toA → exec (.fifoWrite blk ⟨en, din⟩) s = .next s) ∧
    (∀ en din, toA → en = false ∨ f.inReset = true → exec (.fifoWrite blk ⟨en, din⟩) s = .next (fifoEdgeW n col r s)) ∧
    (∀ din, toA → f.inReset = false → fifoCap s n col r ≤ f.cntW → exec (.fifoWrite blk ⟨true, din⟩) s =
      .next (fifoEdgeW n col r (s.setRam n col r { f with ovf := true }))) ∧
    (∀ din, toA → f.inReset = false → f.cntW < fifoCap s n col r → Runs (.fifoWrite blk ⟨true, din⟩) s fun t =>
      (let p := fifoAt s n col r ((f.rd + f.cnt) % fifoCap s n col r)
       ramGet t n col p.1 p.2.1 p.2.2.1 p.2.2.2 = wd (fld din (9 * p.2.2.2 - 1) 0)) ∧
      t.ram n col r = ({ f with cnt := f.cnt + 1, farW := f.farW ++ [fifoDelayR s n col r] } : Ram36).edgeW ∧ t = { s with fab := t.fab }) ∧
    (∀ en oce orst, ¬ toB → exec (.fifoRead ⟨blk, en, oce, orst⟩) s = .next s) ∧
    (∀ en oce orst, toB → en = false ∨ f.inReset = true → exec (.fifoRead ⟨blk, en, oce, orst⟩) s = .next (fifoEdgeR n col r s)) ∧
    (∀ oce orst, toB → f.inReset = false → f.cntR = 0 → exec (.fifoRead ⟨blk, true, oce, orst⟩) s =
      .next (fifoEdgeR n col r (s.setRam n col r { f with udf := true }))) ∧
    (∀ oce orst, toB → f.inReset = false → f.cntR ≠ 0 → Runs (.fifoRead ⟨blk, true, oce, orst⟩) s fun t =>
      let p := fifoAt s n col r f.rd
      ∃ bad, ParityRead n col r p.1 p.2.1 p.2.2.1 p.2.2.2 bad s t ∧ t.fab.ram = s.fab.ram ∧
        (t.ram n col r).b = portPush (ramDepth s n col r true) (ramCfg s n col r 0 11 11 == 1) oce orst (blockWord s n col r 2)
          (ramGet s n col p.1 p.2.1 p.2.2.1 p.2.2.2, bad) f.b ∧
        (t.ram n col r).rd = (f.rd + 1) % fifoCap s n col r ∧ (t.ram n col r).cnt = f.cnt - 1) ∧
    exec (.fifoRst blk) s = .next (if isFifo s n col r = true ∧ clocksOn s n = true ∧ (portRuns s n col r false = true ∨ fifoShared s n col r = 2) ∧
        (portRuns s n col r true = true ∨ fifoShared s n col r = 1) then
      s.setRam n col r { f with rd := 0, cnt := 0, ovf := false, udf := false, farW := [], farR := [], rstW := fifoDelayR s n col r, rstR := fifoDelayR s n col r }
      else s)) ∧
  (∀ who (n : Fin 64) (k : Fin 4) s, Live who s →
    (s.getB (Reg.rgnStatus n.val) 0 = true → (∀ v, exec (.sharedFifoDataWrite who n k v) s = .next (busErr (begin who s))) ∧
      ∀ p, exec (.sharedFifoDataRead who n k p) s = .next (busErr (begin who s))) ∧
    (∀ p, s.getB (Reg.rgnStatus n.val) 0 = false → sharedFifo s n.val k.val = some p →
      (fifoOwner s n.val k.val ≠ 0 ∧ fifoOwner s n.val k.val ≠ who.toNat → (∀ v, exec (.sharedFifoDataWrite who n k v) s = .next (busErr (begin who s))) ∧
        ∀ pk, exec (.sharedFifoDataRead who n k pk) s = .next (busErr (begin who s))) ∧
      (fifoOwner s n.val k.val = 0 ∨ fifoOwner s n.val k.val = who.toNat → (s.ram n.val p.1 p.2).inReset = false →
        (∀ v, fifoShared s n.val p.1 p.2 = 2 → fifoCap s n.val p.1 p.2 ≤ (s.ram n.val p.1 p.2).cntW → exec (.sharedFifoDataWrite who n k v) s =
          .next (fifoEdgeShared n.val p.1 p.2 ((begin who s).setRam n.val p.1 p.2 { s.ram n.val p.1 p.2 with ovf := true }))) ∧
        (∀ v, fifoShared s n.val p.1 p.2 = 2 → (s.ram n.val p.1 p.2).cntW < fifoCap s n.val p.1 p.2 → exec (.sharedFifoDataWrite who n k v) s =
          .next (fifoEdgeShared n.val p.1 p.2 (fifoPush n.val p.1 p.2 v (begin who s))) ∧
          ((fifoPush n.val p.1 p.2 v (begin who s)).ram n.val p.1 p.2).cnt = (s.ram n.val p.1 p.2).cnt + 1) ∧
        (∀ pk, fifoShared s n.val p.1 p.2 = 1 → (s.ram n.val p.1 p.2).cntR = 0 → exec (.sharedFifoDataRead who n k pk) s =
          .next (fifoEdgeShared n.val p.1 p.2 (if peeks who pk then begin who s
            else (begin who s).setRam n.val p.1 p.2 { s.ram n.val p.1 p.2 with udf := true }))) ∧
        (∀ pk, fifoShared s n.val p.1 p.2 = 1 → (s.ram n.val p.1 p.2).cntR ≠ 0 → Runs (.sharedFifoDataRead who n k pk) s fun t => t.resp.err = false ∧
          (let q := fifoAt s n.val p.1 p.2 (s.ram n.val p.1 p.2).rd
           t.resp.data = ramGet s n.val p.1 q.1 q.2.1 q.2.2.1 q.2.2.2) ∧
          (t.ram n.val p.1 p.2).cnt = (s.ram n.val p.1 p.2).cnt - (!peeks who pk).toNat)))) ∧
  (∀ (b : BlkAddr) second (i : MacIn) s, let n := b.region.val; let k := macKey n b.row.val second; let cfg := macCfg s n b.row.val second
    let f := macFeed cfg (if cfg.getLsbD 18 then s.mac36 k else macPipe cfg (s.mac36 k) i) i
    (b.col.val ≠ 13 ∨ clocksOn s n = false ∨ lineRuns s (fld cfg 11 8) = false → exec (.mac36Accumulate b second i) s = .next s) ∧
    (b.col.val = 13 → clocksOn s n = true → lineRuns s (fld cfg 11 8) = true → Runs (.mac36Accumulate b second i) s fun t =>
      t = { s with fab := { s.fab with mac := t.fab.mac } } ∧ (∀ j, j ≠ k → t.mac36 j = s.mac36 j) ∧
      (i.rstP = true → (t.mac36 k).p = 0 ∧ (t.mac36 k).ovfS = false) ∧ (i.rstP = false → i.ce = false → (t.mac36 k).p = (s.mac36 k).p) ∧
      (i.rstP = false → i.ce = true → (t.mac36 k).p = (macNext cfg i.opmode.toNat (s.mac36 k).p (macPcin s n b.row.val second) f.2.2 f.1 f.2.1).1) ∧
      (cfg = 0 → i.rstP = false → i.ce = true → i.opmode = 0 → (t.mac36 k).p.toNat = i.a.toNat * i.b.toNat) ∧
      (cfg = 0 → i.rstP = false → i.ce = true → i.opmode = 1 → (t.mac36 k).p.toNat = ((s.mac36 k).p.toNat + i.a.toNat * i.b.toNat) % 2 ^ 96))) ∧
  (∀ (n : Fin 64) bus den s, (clocksOn s n.val = false ∨ lineRuns s (busClk s n.val bus) = false → exec (.busContentionCount n bus den) s = .next s) ∧
    (clocksOn s n.val = true → lineRuns s (busClk s n.val bus) = true → Runs (.busContentionCount n bus den) s fun t =>
      (let rows := busMasked (busWords s n.val) bus den
       t.getF (Reg.rgnCntCont n.val bus.toNat) 31 0 = min (2 ^ 32 - 1) (s.getF (Reg.rgnCntCont n.val bus.toNat) 31 0 + rows.length) ∧
       (∀ r ∈ rows, t.getB (Reg.rgnContRows n.val bus.toNat) r = true)) ∧
      Store.get (fun _ => 0) t.fab.bus (2 * n.val + bus.toNat) = busLines s n.val bus den ∧
      KeepRegs [Reg.rgnCntCont n.val bus.toNat, Reg.rgnContRows n.val bus.toNat] s t ∧
      t = { s with regs := t.regs, fab := { s.fab with bus := t.fab.bus } }))

/-- RGN.CMD, the region error log and the end of a region reset (R84, R119, R143 to R148). -/
def Obligations.RegionCommands : Prop :=
  (∀ who (n : Fin 64) v s, Live who s → v.getLsbD 2 = false → (v.getLsbD 0 = true ∨ v.getLsbD 1 = true) →
      (fld v 35 24 ≠ 0x6D1 ∨ rgnSwapDue s n.val = true ∨ s.getB (Reg.rgnStatus n.val) 4 = true) →
    exec (.regionReset who n v) s = .next ((begin who s).setB (Reg.rgnStatus n.val) 6 true) ∧
    exec (.regionQuarantineCommand who n v) s = .next ((begin who s).setB (Reg.rgnStatus n.val) 6 true)) ∧
  (∀ who (n : Fin 64) v s, Live who s → v.getLsbD 2 = false → v.getLsbD 0 = true → fld v 35 24 = 0x6D1 → s.swState = 0 →
    s.getB (Reg.rgnStatus n.val) 4 = false → Runs (.regionReset who n v) s fun t =>
      t.getB (Reg.rgnStatus n.val) 4 = true ∧ (t.rg n.val).gated = true ∧ KeepRegs [Reg.rgnStatus n.val] s t ∧
      (∀ m, m ≠ n.val → t.rg m = s.rg m) ∧ t.fab = s.fab) ∧
  (∀ who (n : Fin 64) v s, Live who s → v.getLsbD 2 = false → v.getLsbD 0 = false → v.getLsbD 1 = true → fld v 35 24 = 0x6D1 → s.swState = 0 →
    s.getB (Reg.rgnStatus n.val) 4 = false → s.getB (Reg.rgnStatus n.val) 0 = false → s.getB (Reg.rgnAttr n.val) 0 = false →
    s.getB (Reg.rgnAttr n.val) 1 = false → (s.rg n.val).log.length < 32 → Runs (.regionQuarantineCommand who n v) s fun t =>
      t.getF (Reg.rgnStatus n.val) 3 0 = 7 ∧ (t.rg n.val).gated = true ∧ (t.rg n.val).log = (s.rg n.val).log ++ [wd (7 <<< 32 ||| 3 <<< 8)] ∧
      Logged 0x407 (BitVec.ofNat 8 (0x40 + n.val)) (7 <<< 32 ||| 3 <<< 8 ||| n.val <<< 1) s t ∧ t.mode = .run) ∧
  (∀ who (n : Fin 64) v s, Live who s → v.getLsbD 2 = true → v.getLsbD 0 = false → v.getLsbD 1 = false → Runs (.logAck who n v) s fun t =>
      (∀ k, n.val * 33408 ≤ k → k < (n.val + 1) * 33408 → Store.get (fun _ => false) t.fab.perr k = false) ∧
      (∀ k, ¬ (n.val * 33408 ≤ k ∧ k < (n.val + 1) * 33408) → Store.get (fun _ => false) t.fab.perr k = Store.get (fun _ => false) s.fab.perr k) ∧
      t.regs = s.regs ∧ t.fab.cfg = s.fab.cfg) ∧
  (∀ who (n : Fin 64) w ws s, Live who s → (s.rg n.val).log = w :: ws → (who ≠ rqDbg →
    exec (.regionLogRead who n false) s = .next (State.setRg { s with resp := { who := who, data := w, err := false } } n.val { s.rg n.val with log := ws })) ∧
    ∀ p, p = true ∨ who = rqDbg → exec (.regionLogRead who n p) s = .next { s with resp := { who := who, data := w, err := false } }) ∧
  (∀ who (n : Fin 64) p s, Live who s → (s.rg n.val).log = [] → exec (.regionLogRead who n p) s = .next { s with resp := { who := who, data := 1, err := false } }) ∧
  (∀ (n : Fin 64) s, s.getB (Reg.rgnStatus n.val) 4 = false → exec (.regionResetRelease n) s = .next s) ∧
  (∀ (n : Fin 64) s u, s.getB (Reg.rgnStatus n.val) 4 = true → slotKnown (rgnSlot s n.val) s = (false, u) → u.swState = 0 →
    u.getB (Reg.rgnAttr n.val) 0 = false → u.getB (Reg.rgnAttr n.val) 1 = false → Runs (.regionResetRelease n) s fun t =>
      t.getB (Reg.rgnStatus n.val) 4 = false ∧ t.getF (Reg.rgnStatus n.val) 3 0 = 5 ∧ (t.rg n.val).gated = true ∧
      Logged 0x407 (BitVec.ofNat 8 (0x40 + n.val)) (7 <<< 32 ||| 2 <<< 8 ||| n.val <<< 1) (raise 0x008 0 (1 <<< 8 ||| n.val) u) t) ∧
  (∀ (n : Fin 64) s, s.getB (Reg.rgnStatus n.val) 4 = true → Runs (.regionResetRelease n) s fun t =>
    let k := slotKnown (rgnSlot s n.val) s
    let v := rgnReload (rgnSlot s n.val) n.val k.2
    k.1 = true → v.1 = true → t.getB (Reg.rgnStatus n.val) 4 = false ∧ t.getF (Reg.rgnStatus n.val) 3 0 = 0 ∧
      (∃ r ∈ t.gov.queue, r.kind = .regionWake ∧ r.ix = n.val) ∧ t.mode = v.2.2.mode)

/-- The stream loader: sync words, header, tag segments, FCMD, stalls and the CFG registers (R184, R187, R191, R197 to R201). -/
def Obligations.StreamLoader : Prop :=
  (∀ src who s, src = 2 → (∀ n, hostOf s 3 0 = some n → fabricLive s n = false) → exec (.streamSync src who) s = .next s ∧
    exec (.streamWordRefused src who) s = .next s) ∧
  (∀ who s, s.mode = .run → exec (.streamSync 1 who) s = .next s) ∧
  (∀ who s, booting s = true → s.ld.st = .idle → s.boot.imageLoaded = false → Runs (.streamSync 1 who) s fun t =>
    t.ld.st = .header ∧ t.ld.src = 1 ∧ t.ld.slot = some (bootSlot s) ∧ t.reg Reg.cfgWords = 0 ∧ t.fab = s.fab) ∧
  (∀ src who s, src ≠ 1 → capHeld s src = false → s.ld.st = .idle → srcEnabled s src = true → s.swState ≠ 1 → Runs (.streamSync src who) s fun t =>
    t.ld.st = .header ∧ t.ld.src = src ∧ t.ld.owner = who ∧ t.ld.inbuf = [syncWord] ∧ t.ld.committed = false ∧ t.reg Reg.cfgWords = 0 ∧
    t.reg (Reg.cfgDeckle 0) = 0 ∧ t.getB Reg.cfgShadowId 35 = false ∧ t.fab = s.fab) ∧
  (∀ src who s, src ≠ 1 → capHeld s src = false → s.ld.st = .idle → srcEnabled s src = false →
    Runs (.streamSync src who) s (Raises 0x20C 0 (1 <<< 6 ||| src.toNat) s s)) ∧
  (∀ src who s, capHeld s src = false → s.ld.st ≠ .idle → s.ld.src ≠ src → srcEnabled s src = true →
    Runs (.streamWordRefused src who) s (Raises 0x20C 0 (s.ld.src.toNat <<< 3 ||| src.toNat) s s)) ∧
  (∀ who v s, Live who s → s.swState ≠ 1 → s.ld.st = .header → s.ld.src = 4 → s.ld.owner = who → srcEnabled s 4 = true →
    hdrLen (s.ld.inbuf ++ [v]) 256 1 = none → (s.ld.inbuf ++ [v]).length < 256 →
    exec (.sdataWrite who v) s = .next (let u := begin who s; { u with ld := { u.ld with inbuf := s.ld.inbuf ++ [v] } })) ∧
  (∀ (ws : List Word) s, s.swState ≠ 1 → s.swState ≠ 2 → s.mode = .run → s.ld.st = .header → s.ld.src = 4 → ws.head? ≠ some syncWord →
    hdrLen (s.ld.inbuf ++ ws) 256 1 = some (s.ld.inbuf ++ ws).length → (s.ld.inbuf ++ ws).length ≤ 256 →
    s.ld.fcmd = none → s.ld.rbLeft = 0 → s.ld.waiting = [] → s.ld.segNo = 0 →
    Runs (.streamHeader ws) s fun t => match hdrCheck s (s.ld.inbuf ++ ws) with
      | .error e => t.fab = s.fab ∧ t.ld.st = .idle ∧ Logged (BitVec.ofNat 12 e.1) 0 (e.2 ||| 4) s t
      | .ok h => h.deckle.1 ≠ 0 → 0 < h.length → t.fab = s.fab ∧ t.ld.st = .body ∧ t.ld.inbuf = [] ∧ t.ld.digest = h.digest ∧ t.ld.length = h.length ∧
          t.ld.imageId = h.imageId ∧ t.reg (Reg.cfgDeckle 0) = h.deckle.1 ∧ t.reg (Reg.cfgDeckle 1) = h.deckle.2.1 ∧
          t.reg (Reg.cfgDeckle 2) = h.deckle.2.2) ∧
  (∀ (ws : List Word) s, s.swState ≠ 1 → s.mode = .run → s.ld.st = .body → s.ld.src = 4 → s.ld.ended = true → s.ld.fcmd = none → s.ld.rbLeft = 0 →
    s.ld.waiting = [] → s.ld.inbuf = [] → 0 < segWords s.ld.length s.ld.segNo → 0 < segWords s.ld.length (s.ld.segNo + 1) →
    ws.length = segWords s.ld.length s.ld.segNo + 4 →
    Runs (.tagSegment ws) s fun t => t.fab = s.fab ∧
      match segOpen s s.ld.iv s.ld.digest s.ld.enc s.ld.segNo (ws.take (ws.length - 4)) (ws.drop (ws.length - 4)) with
      | none => t.ld.st = .idle ∧ Logged 0x203 0 (wordDet (4096 * s.ld.segNo) ||| 4) s t
      | some vs => t.ld.st = .body ∧ t.ld.segNo = s.ld.segNo + 1 ∧ t.ld.wordIx = s.ld.wordIx + vs.length) ∧
  (∀ who v s, Live who s → fld v 3 0 = 1 → s.ld.st = .idle → (slotWords (Fin.ofNat 4 (fld v 5 4)).val 0 1 (begin who s)).1 = [syncWord] →
    Runs (.loadSlot who v) s fun t => t.ld.st = .header ∧ t.ld.src = 1 ∧ t.ld.slot = some (Fin.ofNat 4 (fld v 5 4)) ∧ t.reg Reg.cfgWords = 0) ∧
  (∀ who v s, Live who s → fld v 3 0 = 1 → s.ld.st ≠ .idle → Runs (.loadSlot who v) s (Raises 0x20C 0 (s.ld.src.toNat <<< 3 ||| 1) (begin who s) s)) ∧
  (∀ who v s, Live who s → fld v 3 0 = 2 → s.ld.st ≠ .idle → s.ld.src ≠ 3 → Runs (.cfgAbort who v) s fun t =>
    t.ld.st = .idle ∧ Logged 0x212 0 (2 <<< 3 ||| s.ld.src.toNat) s t ∧ t.fab = s.fab) ∧
  (∀ who p s, Live who s → (s.ld.rdata = [] → exec (.rdataRead who p) s = .next (begin who s)) ∧
    ∀ w ws, s.ld.rdata = w :: ws → exec (.rdataRead who p) s =
      .next { s with resp := { who := who, data := w, err := false }, ld := { s.ld with rdata := if peeks who p then w :: ws else ws } }) ∧
  (∀ f s, s.ld.fcmd = some f → s.mode = .run → s.swState ≠ 1 → s.ld.src = 4 → s.ld.rbLeft = 0 → s.ld.waiting = [] → s.ld.inbuf = [] →
    0 < segWords s.ld.length s.ld.segNo → Runs .fcmdComplete s fun t => t.ld.st = .body ∧ t.ld.fcmd = none ∧
      (f = .clear → ∀ k, t.cfgCell k = if keySeg k = fawSeg s.ld.faw ∧ keyPlane k = !activeOf s (fawSeg s.ld.faw) then {} else s.cfgCell k)) ∧
  (∀ s, s.ld.st ≠ .idle → s.ld.src = 4 → s.mode = .run → Runs .streamStallTimeout s fun t => t.ld.st = .idle ∧
    Logged 0x210 0 (wordDet (if s.ld.st = .header then s.ld.inbuf.length else (s.reg Reg.cfgWords).toNat) ||| 4) s t ∧ t.fab = s.fab) ∧
  (∀ s, (s.ld.st = .idle → exec .streamStallTimeout s = .next s ∧ ∀ ws, exec (.tagSegment ws) s = .next s) ∧
    (s.ld.st ≠ .header → ∀ ws, exec (.streamHeader ws) s = .next s) ∧ (s.ld.fcmd = none → exec .fcmdComplete s = .next s))

/-- SEC: key words, LOAD, ZEROIZE and the thermometer advance (R189, R202). -/
def Obligations.SecurityStore : Prop :=
  (∀ who (v : Word) s, served s who = true → answersWrite s Reg.secKrData = true → secWho s who = true → s.sec.krWords.length ≤ 8 → exec (.krDataWrite who v) s = .next
    (let u := begin who s; { u with sec := { u.sec with krWords := s.sec.krWords ++ [BitVec.ofNat 32 v.toNat] } })) ∧
  (∀ who (v : Word) s, served s who = true → answersWrite s Reg.secKrCtrl = true → secWho s who = true → fld v 35 24 = 0x6D1 → v.getLsbD 2 = false → v.getLsbD 5 = false → v.getLsbD 4 = true → s.sec.krWords.length = 8 →
    exec (.keyLoad who v) s = .next (let u := begin who s; { u with sec := { u.sec with
      keyRam := BitVec.ofNat 256 (s.sec.krWords.foldl (fun a w => a * 2 ^ 32 + w.toNat) 0), keyValid := true, krWords := [] } })) ∧
  (∀ who (v : Word) s, served s who = true → answersWrite s Reg.secKrCtrl = true → secWho s who = true → v.getLsbD 2 = false → v.getLsbD 5 = false → v.getLsbD 4 = true → s.sec.krWords.length ≠ 8 ∨ fld v 35 24 ≠ 0x6D1 →
    exec (.keyLoad who v) s = .next (begin who s)) ∧
  (∀ who (v : Word) s, served s who = true → answersWrite s Reg.secKrCtrl = true → secWho s who = true → fld v 35 24 = 0x6D1 → v.getLsbD 2 = false → v.getLsbD 5 = true → exec (.zeroize who v) s = .next
    (let u := begin who s; { u with sec := { u.sec with keyRam := 0, keyValid := false, krWords := [] } })) ∧
  (∀ who (v : Word) s, served s who = true → answersWrite s Reg.secRollAdv = true → secWho s who = true → fld v 35 24 = 0x6D1 → s.sec.rollCount.toNat < fld v 7 0 → fld v 7 0 ≤ s.getF Reg.secRoll 15 8 → s.sec.rollTarget = none →
    exec (.rollAdv who v) s = .next (let u := begin who s; { u with sec := { u.sec with rollTarget := some (BitVec.ofNat 8 (fld v 7 0)) } })) ∧
  (∀ who (v : Word) s, served s who = true → answersWrite s Reg.secRollAdv = true → secWho s who = true → fld v 35 24 ≠ 0x6D1 ∨ fld v 7 0 ≤ s.sec.rollCount.toNat ∨ s.getF Reg.secRoll 15 8 < fld v 7 0 ∨ s.sec.rollTarget.isSome = true →
    exec (.rollAdv who v) s = .next ((begin who s).setB Reg.secRoll 17 true)) ∧
  (∀ t s, s.sec.rollTarget = some t → exec .rollAdvComplete s = .next { s with sec := { s.sec with rollCount := t, rollTarget := none } }) ∧
  (∀ s, s.sec.rollTarget = none → exec .rollAdvComplete s = .next s) ∧
  (∀ s who, secWho s who = true ↔ s.mode = .run ∧ who = rqCore ∨ s.mode = .service ∧ who = rqSvc) ∧
  (∀ s who, s.boot.porHeld = false → s.mode = .run ∨ s.mode = .service → answersWrite s Reg.secKrData = true ∧ answersWrite s Reg.secKrCtrl = true ∧
    answersWrite s Reg.secRollAdv = true ∧ (who = rqCore ∨ who = rqSvc → served s who = true)) ∧
  (∀ who v s, Live who s → who ≠ rqCore → exec (.krDataWrite who v) s = .next (begin who s) ∧ exec (.keyLoad who v) s = .next (begin who s) ∧
    exec (.zeroize who v) s = .next (begin who s) ∧ exec (.rollAdv who v) s = .next (begin who s))

/-- Region and chip swaps, MIRROR, the swap edge and re-preload (R204, R206, R208, R210, R211, R219). -/
def Obligations.PlaneSwaps : Prop :=
  (∀ who v s, Live who s →
    (∀ r n, swapRefusal s 1 (fld v 35 24) = some (r, n) → Runs (.regionSwap who v) s
      (Raises 0x302 0 (n <<< 12 ||| r <<< 8 ||| 1) ((begin who s).setB Reg.cfgSwapStatus 8 true) s)) ∧
    (swapRefusal s 1 (fld v 35 24) = none → Runs (.regionSwap who v) s fun t =>
      t.swState = 2 ∧ t.getF Reg.cfgSwapStatus 6 4 = 1 ∧ t.swap = { s.swap with regions := swapSet s, ring := false } ∧
      KeepRegs [Reg.cfgSwapStatus] s t ∧ t.rgn = s.rgn ∧ t.fab = s.fab)) ∧
  (∀ who v s, Live who s →
    (∀ r n, swapRefusal s 2 (fld v 35 24) = some (r, n) → Runs (.chipSwap who v) s
      (Raises 0x302 0 (n <<< 12 ||| r <<< 8 ||| 2) ((begin who s).setB Reg.cfgSwapStatus 8 true) s)) ∧
    (swapRefusal s 2 (fld v 35 24) = none → Runs (.chipSwap who v) s fun t =>
      t.swState = 2 ∧ t.getF Reg.cfgSwapStatus 6 4 = 2 ∧ t.swap = { s.swap with regions := maskOf (chipSet s), ring := shLive s 64 } ∧
      KeepRegs [Reg.cfgSwapStatus] s t ∧ t.rgn = s.rgn ∧ t.fab = s.fab)) ∧
  (∀ who v s, Live who s → swapRefusal s 5 (fld v 35 24) = none → s.swState = 0 → Runs (.mirror who v) s fun t =>
    (let new := (setRegions (swapSet s)).filter (fun n => s.sh n != shMirroring)
     t.swap = { s.swap with mirrors := s.swap.mirrors.map (fun m => m &&& ~~~maskOf new) ++ [maskOf new] }) ∧ t.swState = 0 ∧ t.fab = s.fab ∧
    ∀ n, n < 64 → (swapSet s).getLsbD n = true → t.sh n = shMirroring) ∧
  (∀ who v s, Live who s → ∀ r n, swapRefusal s 5 (fld v 35 24) = some (r, n) → Runs (.mirror who v) s
      (Raises 0x302 0 (n <<< 12 ||| r <<< 8 ||| 5) ((begin who s).setB Reg.cfgSwapStatus 8 true) s)) ∧
  (∀ s, (s.swap.mirrors = [] → exec .mirrorComplete s = .next s) ∧
    (∀ m rest, s.swap.mirrors = m :: rest → s.swState ≠ 1 → Runs .mirrorComplete s fun t => t.swap = { s.swap with mirrors := rest } ∧
      (let done := (setRegions m).filter (fun n => (s.rg n).mirroring && s.sh n == shMirroring)
       (∀ n, n < 64 → t.sh n = if n ∈ done then shMirror else s.sh n) ∧
       ((∀ n, (s.rg n).goldBad = []) → Logged 0x306 0 done.length s t)))) ∧
  (∀ (n : Fin 64) s, ((s.rg n.val).repre = false → exec (.repreloadComplete n) s = .next s) ∧
    ((s.rg n.val).repre = true → Runs (.repreloadComplete n) s fun t => (t.rg n.val).repre = false)) ∧
  (∀ s, (s.swState ≠ 2 ∨ s.mode ≠ .run → exec .swapEdge s = .next s) ∧
    (s.swState = 2 → s.mode = .run → s.getF Reg.cfgSwapStatus 6 4 = 1 ∨ shLive s 64 = false → Runs .swapEdge s fun t =>
      (let l := if s.getF Reg.cfgSwapStatus 6 4 = 1 then setRegions s.swap.regions else chipSet s
       t.swap.edgeTime = s.evt.time ∧ t.swap.ringEx = false ∧ t.swap.exchanged = l.length ∧
       ∀ n, n < 64 → (t.rg n).role = (if n ∈ l then !(s.rg n).role else (s.rg n).role)))) ∧
  (∀ who s, Live who s → exec (.swapEdgeRead who) s = .next { s with
    resp := { who := who, data := s.reg Reg.cfgSwapEdgeLo, err := false },
    evt := { s.evt with edgeLatch := Store.set (fun _ => 0) s.evt.edgeLatch who.toNat (timeHi s.swap.edgeTime s.swap.edgeMesh) } })

/-- Mesh swap: arming, votes, the decision, GO, ABORT and neither (R213 to R216, R338, R339). -/
def Obligations.MeshSwaps : Prop :=
  (∀ who v s, Live who s →
    (∀ r n, swapRefusal s 3 (fld v 35 24) = some (r, n) → Runs (.meshSwap who v) s
      (Raises 0x302 0 (n <<< 12 ||| r <<< 8 ||| 3) ((begin who s).setB Reg.cfgSwapStatus 8 true) s)) ∧
    (swapRefusal s 3 (fld v 35 24) = none → Runs (.meshSwap who v) s fun t =>
      t.swState = 1 ∧ t.getF Reg.cfgSwapStatus 6 4 = 3 ∧ t.swap.t = swapT s ∧ t.swap.go = false ∧ t.rgn = s.rgn ∧ t.fab = s.fab)) ∧
  (∀ who v s, Live who s → swapRefusal s 4 (fld v 35 24) = none → Runs (.meshCancel who v) s fun t =>
      t.swState = 0 ∧ t.getF Reg.cfgSwapStatus 6 4 = 0 ∧ coordBit t = false ∧ t.rgn = s.rgn ∧ t.fab = s.fab) ∧
  (∀ id coord T s, s.mode = .run → s.swState = 0 → Runs (.swapAtReceived id coord T) s fun t =>
      t.swState = 1 ∧ swapId t = id.toNat ∧ coordBit t = false ∧ t.swap.t = T ∧ t.swap.coord = coord ∧ t.rgn = s.rgn ∧ t.fab = s.fab) ∧
  (∀ (node : BitVec 10) id r z s, coordBit s = true → s.swState = 1 → swapId s = id.toNat → Runs (.voteReceived node id r z) s fun t =>
      t.swap = { s.swap with votes := Store.put s.swap.votes node.toNat { ready := r, nul := z } } ∧ t.regs = s.regs) ∧
  (∀ id s, s.swState = 1 → swapId s = id.toNat → coordBit s = false →
    (Runs (.goReceived id) s fun t => t.swState = 2 ∧ t.swap = { s.swap with go := true, regions := maskOf (chipSet s), ring := shLive s 64 }) ∧
    ∀ c, Runs (.abortReceived id c) s fun t => t.swState = 0 ∧ Logged 0x304 0 (c.toNat <<< 8 ||| id.toNat) s t ∧ t.rgn = s.rgn ∧ t.fab = s.fab) ∧
  (∀ s, coordBit s = true → s.swState = 1 →
    ((∀ n ∈ s.swap.participants, ∃ v, voteIn s n = some v ∧ v.ready = true) → Runs .meshSwapDeadline s fun t => t.swState = 2 ∧ t.swap.go = true) ∧
    (∀ n, s.swap.participants.find? (fun n => (voteIn s n).isNone) = some n → Runs .meshSwapDeadline s fun t => t.swState = 0 ∧ t.fab = s.fab)) ∧
  (∀ s, s.swState = 1 →
    (s.getB Reg.cfgSwapStatus 9 = true → s.boot.nrstLow = false → Runs .meshSwapNoDecision s fun t => t.mode = .failsafe) ∧
    (s.getB Reg.cfgSwapStatus 9 = false → Runs .meshSwapNoDecision s fun t => t.swState = 0 ∧ Logged 0x304 0 (5 <<< 8 ||| swapId s) s t ∧ t.fab = s.fab)) ∧
  (∀ s, s.swState ≠ 1 → exec .meshSwapDeadline s = .next s ∧ exec .meshSwapNoDecision s = .next s)

/-- The Calender: scrub reads, corrections, repair, readback and restart (R199, R220 to R230, R234). -/
def Obligations.CalenderActs : Prop :=
  (∀ (ls : List (Fin 65)) s, (∀ l ∈ ls, calRuns s l.val = false ∨ laneHeld s l.val = true) →
    ((∃ m, m < 65 ∧ (s.lane m).ended = false ∧ laneHeld s m = false) → exec (.scrubRead ls) s = .next s) ∧
    ((∀ m, m < 65 → (s.lane m).ended = true ∨ laneHeld s m = true) → Runs (.scrubRead ls) s fun t =>
      t.reg Reg.calPassCount = s.reg Reg.calPassCount + 1 ∧
      t.getF Reg.calPassTime 19 0 = min (2 ^ 20 - 1) ((s.evt.time - s.cal.passStart).toNat / 1000) ∧
      (∀ m, m < 65 → (t.lane m).ended = false) ∧ KeepRegs [Reg.calPassTime, Reg.calPassCount] s t ∧ t.fab = s.fab)) ∧
  (∀ (l : Fin 65) (c d : CalCopy) s, calRuns s l.val = true → laneHeld s l.val = false → (laneRepair s l.val).filter (fun e => e.wrote != 0) = none →
    (s.lane l.val).a = triOf c → (s.lane l.val).b = triOf d → (s.lane l.val).beat ≠ 127 → (s.lane l.val).ended = false →
    (let odd := (s.lane l.val).beat.getLsbD 0
     let e := if odd then d else c
     let key := posKey s l.val e.range.toNat ((e.pos.toNat + odd.toNat) % 128)
     let x := { s.lane l.val with stalled := false, beat := (s.lane l.val).beat + 1 }
     let next := if odd then { x with b := triOf (copyNext l.val e) } else { x with a := triOf (copyNext l.val e) }
     (s.rg (keySeg key)).goldBad = [] →
     (∀ w, cfgChk s key = .good w → Runs (.scrubRead [l]) s fun t => LaneStep l.val next s t) ∧
     (∀ w, cfgChk s key = .corrected w → Runs (.scrubRead [l]) s fun t =>
       t.cfgCell key = { data := w } ∧ (∀ k, k ≠ key → t.cfgCell k = s.cfgCell k) ∧ t.lane l.val = next ∧
       t.evt.seq = s.evt.seq + 1 ∧ t.mode = s.mode) ∧
     (cfgChk s key = .bad → s.cal.queue = [] → Runs (.scrubRead [l]) s fun t =>
       LaneStep l.val next { s with cal := { s.cal with queue := [{ lane := l.val, key := key }] } } t) ∧
     (cfgChk s key = .bad → s.cal.queue.any (fun r => r.lane == l.val && r.key == key) = false →
       4 ≤ (s.cal.queue.filter (fun r => r.lane == l.val)).length →
       Runs (.scrubRead [l]) s fun t => LaneStep l.val { s.lane l.val with stalled := true } s t))) ∧
  (∀ (l : Fin 65) (c d : CalCopy) s w, calRuns s l.val = true → laneHeld s l.val = false → (laneRepair s l.val).filter (fun e => e.wrote != 0) = none →
    (s.lane l.val).a = triOf c → (s.lane l.val).b = triOf d → (s.lane l.val).beat = 127 → (s.lane l.val).ended = false →
    (let key := posKey s l.val d.range.toNat ((d.pos.toNat + 1) % 128)
     (s.rg (keySeg key)).goldBad = [] → cfgChk s key = .good w → c.shown ≠ (copyNext l.val d).shown → (mmRecent s).length < 2 →
     Runs (.scrubRead [l]) s fun t => t.evt.seq = s.evt.seq + 1 ∧ t.cal.mmTimes = mmRecent s ++ [s.evt.time] ∧ t.mode = s.mode ∧
       (c.count ≠ (copyNext l.val d).count → (t.lane l.val).a = (t.lane l.val).b))) ∧
  (∀ (l : Fin 65) s, laneRepair s l.val = none → exec (.doubleBitRepair l) s = .next s ∧ exec (.repairFetchTimeout l) s = .next s) ∧
  (∀ (l : Fin 65) e s, laneRepair s l.val = some e → e.wrote = 0 → (s.rg (keySeg e.key)).goldBad = [] → (s.rg (keySeg e.key)).mirroring = false →
    (∀ v, repairShadow s e = none → (keyIdent s e.key).getLsbD 35 = true → e.fetched = some v →
      exec (.doubleBitRepair l) s = .next (repairSet e { e with wrote := 4 }
        (s.setCfg e.key { data := ((s.cfgCell e.key).data &&& keyMask s e.key) ||| (v &&& ~~~keyMask s e.key) }))) ∧
    (∀ v, repairShadow s e = some v → cfgChk s (otherPlane e.key) = .good v →
      exec (.doubleBitRepair l) s = .next (repairSet e { e with wrote := 3 }
        (s.setCfg e.key { data := ((s.cfgCell e.key).data &&& keyMask s e.key) ||| (v &&& ~~~keyMask s e.key) })))) ∧
  (∀ (l : Fin 65) e s, laneRepair s l.val = some e → e.wrote ≠ 0 → (s.rg (keySeg e.key)).goldBad = [] →
    (∀ v, cfgChk s e.key = .good v → s.cal.late = [] → Runs (.doubleBitRepair l) s fun t =>
      t.cal.queue = s.cal.queue.filter (fun r => !(r.lane == e.lane && r.key == e.key)) ∧ t.fab = s.fab ∧ t.evt.seq = s.evt.seq + 1 ∧ t.mode = s.mode) ∧
    ((∀ v, cfgChk s e.key ≠ .good v) → e.wrote = 3 → exec (.doubleBitRepair l) s = .next (repairSet e { e with wrote := 0, tried := true } s))) ∧
  (∀ (l : Fin 65) e s, fetchNext s = some e → e.lane = l.val →
    (fetchWaits s (fld (keyIdent s e.key) 34 33) e.key = true → exec (.repairFetch l) s = .next s) ∧
    (fetchWaits s (fld (keyIdent s e.key) 34 33) e.key = false → exec (.repairFetch l) s = .next
      (let f := slotFrame (fld (keyIdent s e.key) 34 33) (keySeg e.key) (keyCol e.key) (keyMinor e.key) s
       repairSet e (match f.1 with
         | some ws => { e with fetched := some (ws.getD (keyWord e.key) 0) }
         | none => { e with failed := 1 }) f.2))) ∧
  (∀ (l : Fin 65) e s, laneRepair s l.val = some e → needsFlash s e = true → exec (.repairFetchTimeout l) s =
    .next (repairSet e { e with failed := 2 } s)) ∧
  (∀ s, s.ld.rbLeft = 0 → exec .readbackRead s = .next s) ∧
  (∀ s, s.mode = .run → 2 ≤ s.ld.rbLeft → s.ld.src = 4 → s.ld.rdata.length < 512 → s.ld.rbDone % 128 ≠ 127 → s.ld.past = false →
    inDeckle s (fawSeg s.ld.faw) = true → isContent (fawSeg s.ld.faw) (fawCol s.ld.faw) (fawMinor s.ld.faw) = false → s.cal.queue = [] →
    (let key := cfgKey (physOf s (fawSeg s.ld.faw) (fld s.ld.faw 35 34 == 1)) (fawSeg s.ld.faw) (fawCol s.ld.faw) (fawMinor s.ld.faw) (s.ld.rbDone % 128)
     let give := fun (w : Word) (u : Bool) (q : List Repair) => { s with
       ld := { s.ld with rdata := s.ld.rdata ++ [w], rbLeft := s.ld.rbLeft - 1, rbDone := s.ld.rbDone + 1, unc := u, rbQueued := none, rbFull := false },
       cal := { s.cal with queue := q } }
     (s.rg (keySeg key)).goldBad = [] →
     (∀ w, cfgChk s key = .good w → exec .readbackRead s = .next (give w false [])) ∧
     (cfgChk s key = .bad → keyShadow s key = 1 → exec .readbackRead s = .next (give (s.cfgCell key).data true [])) ∧
     (cfgChk s key = .bad → keyShadow s key = 0 → s.ld.rbQueued = none → s.ld.rbFull = false →
       exec .readbackRead s = .next (give (s.cfgCell key).data true [{ lane := laneOf (keySeg key), key := key }])))) ∧
  (∀ who v s, Live who s → (fld v 35 24 ≠ 0x6D1 ∨ v.getLsbD 0 = false → exec (.calRestart who v) s = .next (begin who s)) ∧
    (fld v 35 24 = 0x6D1 → v.getLsbD 0 = true → Runs (.calRestart who v) s fun t =>
      (∀ l, l < 65 → (t.lane l).a = triOf { pass := (s.lane l).a.vote.pass + 1 } ∧ (t.lane l).b = triOf { pass := (s.lane l).b.vote.pass + 1 } ∧
        (t.lane l).stalled = false) ∧ ((∀ l, l < 65 → (s.lane l).a.odd = 0 ∧ (s.lane l).b.odd = 0) → t.regs = s.regs)))

/-- The Rhorax engine's slots: acceptance, admission, FENCE, AGE_SCAN, completion, timeout (R245, R246, R249, R250, R255, R271, R272). -/
def Obligations.EngineQueue : Prop :=
  (∀ (o : Op) r s, (s.opAt o.id).isSome = true → ∃ p, (opEnd o r s).opAt o.id = some p ∧ p.phase = .done ∧ p.status = BitVec.ofNat 6 r.st ∧
    p.rsp = resQuad s o.req r ∧ opEnd o r s = { s with eng := (opEnd o r s).eng }) ∧
  (∀ (k : Fin 8) q s, portReady s k.val = false → exec (.engineRequestAccept k q) s = .next s) ∧
  (∀ (k : Fin 8) q (n : Nat) s, portReady s k.val = true → hostOf s 0 k.val = some n → tagBusy s k.val (reqTag q) = false → Runs (.engineRequestAccept k q) s fun t =>
    ∃ o, t.eng.slots = s.eng.slots ++ [o] ∧ o.req = q ∧ o.rq.val = k.val ∧ o.who = BitVec.ofNat 8 (0x40 + n) ∧ o.id = s.eng.nextId ∧ o.phase = .accepted ∧
      t = { s with eng := t.eng }) ∧
  (∀ (k : Fin 8) q rest s, s.rspQ k.val = q :: rest → portClocked s 0 k.val = true →
    Runs (.engineResponseTaken k) s fun t => t.eng.out = q ∧ t.rspQ k.val = rest ∧ t = { s with eng := t.eng }) ∧
  (∀ (k : Fin 8) s, s.rspQ k.val = [] → exec (.engineResponseTaken k) s = .next s) ∧
  (∀ s, engRuns s = false ∨ nextAdmit s = none → exec .engineAdmission s = .next s) ∧
  (∀ o s, engRuns s = true → nextAdmit s = some o → (s.opAt o.id).isSome = true → opBad s o = false → opRemote s o = false → (reqOp o.req = 1 ∨ reqOp o.req = 3 ∨ reqOp o.req = 7) →
    Runs .engineAdmission s fun t => (∃ p, t.opAt o.id = some p ∧ p.phase = .admitted ∧ p.adm = s.eng.nextId ∧ p.req = o.req) ∧ t.eng.rr = o.rq ∧
      t = { s with eng := t.eng }) ∧
  (∀ o s, engRuns s = true → nextAdmit s = some o → (s.opAt o.id).isSome = true → opBad s o = true → Runs .engineAdmission s fun t =>
    (∃ p, t.opAt o.id = some p ∧ p.phase = .done ∧ p.status = 7) ∧ t = { s with eng := t.eng }) ∧
  (∀ id o s, AtWork id 8 o s → exec (.fence id) s = .next
    (if s.eng.slots.any (fun p => sameRq p o && decide (p.phase ≠ .accepted) && decide (p.adm < o.adm)) then s else opEnd o {} s)) ∧
  (∀ id o who s, AtWork id 9 o s →
    (fld o.req.w0 3 0 = 0 → exec (.ageScanReport (some id) who) s = .next (opEnd o { d0 := wd s.eng.sweep.pos, d1 := wd s.eng.sweep.done } s)) ∧
    (fld o.req.w0 3 0 = 1 → Runs (.ageScanStart (some id) who) s fun t => t.eng.sweep.running = true ∧ t.eng.sweep.paused = false ∧ t.eng.sweep.pos = 0) ∧
    (fld o.req.w0 3 0 = 2 → Runs (.ageScanPause (some id) who) s fun t => t.eng.sweep = { s.eng.sweep with paused := true }) ∧
    (fld o.req.w0 3 0 = 3 → Runs (.ageScanResume (some id) who) s fun t => t.eng.sweep = { s.eng.sweep with paused := false })) ∧
  (∀ who s, Live who s → exec (.ageScanReport none who) s = .next (begin who s) ∧
    exec (.ageScanStart none who) s = .next { begin who s with eng := { s.eng with sweep := { s.eng.sweep with running := true, paused := false, pos := 0 } } } ∧
    exec (.ageScanPause none who) s = .next { begin who s with eng := { s.eng with sweep := { s.eng.sweep with paused := true } } } ∧
    exec (.ageScanResume none who) s = .next { begin who s with eng := { s.eng with sweep := { s.eng.sweep with paused := false } } }) ∧
  (∀ id o s, s.mode = .run → s.opAt id = some o → o.phase = .done → opFirst s o = true → o.kins = false → o.drop = false → o.rq.val ≠ 8 → hostDown s o.rq.val = false →
    Runs (.operationComplete id) s fun t => t.rspQ o.rq.val = s.rspQ o.rq.val ++ [o.rsp] ∧
      t.getF (Reg.rhxCnt 0) 35 0 = satInc (s.getF (Reg.rhxCnt 0) 35 0) (2 ^ 36 - 1)) ∧
  (∀ id o s, s.opAt id = some o → o.phase = .remote → exec (.remoteOperationTimeout id) s =
    .next (opEnd o { st := 5 } { s with eng := { s.eng with late := s.eng.late ++ [lateKey o] } })) ∧
  (∀ s, (s.eng.late = [] → exec .lateResponseDiscard s = .next s) ∧
    (∀ k rest, s.eng.late = k :: rest → exec .lateResponseDiscard s = .next (State.count { s with eng := { s.eng with late := rest } } (Reg.rhxCnt 8) 35 0)))

/-- Keyed operations, context operations and programs, the stash, the sweep and the patrol (R241, R242, R251, R256, R263, R264, R268 to R275, R285, R286). -/
def Obligations.EngineTables : Prop :=
  (∀ id o s, AtWork id 1 o s → (keyTurn s o = false → exec (.lookup id) s = .next s) ∧ (keyTurn s o = true →
    (∀ f t, opFind o s = (some f, t) → exec (.lookup id) s = .next (opEnd o { ctx := f.ctx, hit := f.src, d0 := f.d0, d1 := f.d1 } t)) ∧
    (∀ t, opFind o s = (none, t) → exec (.lookup id) s = .next (opEnd o { st := 1 } t)))) ∧
  (∀ id o s, AtWork id 2 o s → (keyTurn s o = false → exec (.insert id) s = .next s) ∧ (keyTurn s o = true →
    (∀ l t, keyFind (reqClass o.req) (opKey o) s = (some l, t) → exec (.insert id) s = .next (opEnd o { st := 2, hit := (hitOf l).1 } (ageZero l t))) ∧
    (∀ t, keyFind (reqClass o.req) (opKey o) s = (none, t) →
      (∀ u, keyPlace (insEntry o) t = (true, u) → exec (.insert id) s = .next (opEnd o { place := (placeOf (insEntry o) t).1, moves := (placeOf (insEntry o) t).2 } u)) ∧
      (∀ u, keyPlace (insEntry o) t = (false, u) → exec (.insert id) s = .next (opEnd o { st := 3 } u))))) ∧
  (∀ id o s, AtWork id 3 o s → (keyTurn s o = false → exec (.delete id) s = .next s) ∧ (keyTurn s o = true →
    (∀ l t, keyFind (reqClass o.req) (opKey o) s = (some l, t) → exec (.delete id) s = .next (opEnd o { ctx := entCtx (entGet t l), hit := (hitOf l).1 } (entFree l t))) ∧
    (∀ t, keyFind (reqClass o.req) (opKey o) s = (none, t) → exec (.delete id) s = .next (opEnd o { st := 1 } t)))) ∧
  (∀ id o c s, AtWork id 4 o s → o.ctx = some c → (ctxTurn s o = false → exec (.ctxRead id) s = .next s) ∧ (ctxTurn s o = true →
    (isPoisoned s c = true → exec (.ctxRead id) s = .next (opEnd o { st := 4, ctx := c } s)) ∧
    (∀ ws t, isPoisoned s c = false → ctxWords c s = (some ws, t) → exec (.ctxRead id) s = .next
      (opEnd o { ctx := c, d0 := ws.getD (fld o.req.w0 25 23) 0, d1 := ws.getD (fld o.req.w0 22 20) 0 } t)) ∧
    (∀ t, isPoisoned s c = false → ctxWords c s = (none, t) → exec (.ctxRead id) s = .next (opEnd o { st := 4, ctx := c } t)))) ∧
  (∀ id o c s, AtWork id 5 o s → o.ctx = some c → ctxTurn s o = true →
    ((List.range (ctxSize s)).all (fun i => selOf o.req i != 0) = true → exec (.ctxWrite id) s = .next
      (opEnd o { ctx := c } (setPoison c false (ctxPut c (selApply o.req (List.replicate (ctxSize s) 0)) s)))) ∧
    (∀ ws t, (List.range (ctxSize s)).all (fun i => selOf o.req i != 0) = false → isPoisoned s c = false → ctxWords c s = (some ws, t) →
      exec (.ctxWrite id) s = .next (opEnd o { ctx := c } (ctxPut c (selApply o.req ws) t)))) ∧
  (∀ id o c ws t f v s, AtWork id 6 o s → o.ctx = some c → ctxTurn s o = true → isPoisoned s c = false → ctxWords c s = (some ws, t) →
    (o.prog.map Cell.chk).findIdx? (fun k => decide (k = .bad)) = none →
    furRun (o.prog.map (fun k => k.chk.word)) t.evt.time t.evt.meshTime 17 0 { x := [o.req.w2, o.req.w3] ++ List.replicate 6 0, c := ws } = (f, .ok v) →
    f.emits = [] → exec (.ctxRun id) s = .next
      (opEnd o { ctx := c, pres := v, d0 := f.get 6, d1 := f.get 7 } (if f.changed then ctxPut c f.c t else t))) ∧
  (∀ id o t s, AtWork id 7 o s → o.ctx = none → keyTurn s o = true → opFind o s = (none, t) → exec (.lookupRun id) s = .next (opEnd o { st := 1 } t)) ∧
  (∀ id o c ws t f v s, AtWork id 7 o s → o.ctx = some c → ctxTurn s o = true → isPoisoned s c = false → ctxWords c s = (some ws, t) →
    (o.prog.map Cell.chk).findIdx? (fun k => decide (k = .bad)) = none →
    furRun (o.prog.map (fun k => k.chk.word)) t.evt.time t.evt.meshTime 17 0
      { x := [if reqK3 o.req then 0 else o.req.w3, o.hit] ++ List.replicate 6 0, c := ws } = (f, .ok v) →
    f.emits = [] → exec (.lookupRun id) s = .next
      (opEnd o { hit := o.hitSrc.toNat, ctx := c, pres := v, d0 := f.get 6, d1 := f.get 7 } (if f.changed then ctxPut c f.c t else t))) ∧
  (∀ s, (((List.range 64).map (stashBase + ·)).find? (fun l => entValid (entGet (stashCheck s) l)) = none → exec .stashDrain s = .next (stashCheck s)) ∧
    (∀ l t m, ((List.range 64).map (stashBase + ·)).find? (fun l => entValid (entGet (stashCheck s) l)) = some l →
      bucketPlace (entGet (stashCheck s) l) (stashCheck s) = (some t, m) → exec .stashDrain s = .next (entFree l t))) ∧
  (∀ s, (s.getB Reg.rhxAgeCfg 35 = true → engOn s = true → exec .agingSweepStart s =
      .next { s with eng := { s.eng with sweep := { s.eng.sweep with running := true, pos := 0 } } }) ∧
    (s.getB Reg.rhxAgeCfg 35 = false → exec .agingSweepStart s = .next s)) ∧
  (∀ s, (s.eng.sweep.running = false ∨ s.eng.sweep.paused = true → exec .agingVisit s = .next s) ∧
    (s.eng.sweep.running = true → s.eng.sweep.paused = false → engOn s = true → Runs .agingVisit s fun t => t.eng.sweep =
      (if s.eng.sweep.pos + 1 < 262208 then { s.eng.sweep with pos := s.eng.sweep.pos + 1 }
       else { s.eng.sweep with pos := 0, running := false, done := s.eng.sweep.done + 1 }))) ∧
  (∀ ix w t s, engRead .context ix s = (some w, t) → exec (.enginePatrol .context ix) s = .next t) ∧
  (∀ ix s, 8192 ≤ ix / 7 → exec (.enginePatrol .wildcard ix) s = .next s)

/-- FAULT, the loss report and the registers of RHX (R248, R282, R285, R288, R289). -/
def Obligations.EngineRegisters : Prop :=
  (∀ credit s, (s.fn .rhx = fnOff ∨ s.fn .rhx = fnFault → exec (.engineVoteFailure credit) s = .next s) ∧
    (s.fn .rhx = fnOn → Runs (.engineVoteFailure credit) s fun t => t.fn .rhx = fnFault ∧ t.getF Reg.rhxStatus 29 26 = (if credit then 2 else 1) ∧ t.eng.waitQ = [] ∧
      (s.eng.evBuf.length < 64 → t.eng.evBuf = s.eng.evBuf ++ [(0x509, rqEvt, wd (if credit then 2 else 1))]))) ∧
  (∀ s, (s.eng.evLost = 0 ∨ 64 ≤ s.eng.evBuf.length → exec .engineEventLossReport s = .next s) ∧
    (s.eng.evLost ≠ 0 → s.eng.evBuf.length < 64 → exec .engineEventLossReport s = .next { s with
      eng := { s.eng with evLost := 0, evBuf := s.eng.evBuf ++ [(0x50A, rqEvt, wd (s.eng.evLost % 2 ^ 16))] } })) ∧
  (∀ who (n : Fin 10) v s, Live who s →
    (fld v 8 0 ≤ allocLimit n.val → (((List.range 10).filter (· ≠ n.val)).map (rqAlloc s)).sum + fld v 8 0 ≤ 512 →
      Runs (.allocWrite who n v) s fun t => t.getF (Reg.rhxAlloc n.val) 8 0 = fld v 8 0 ∧ KeepRegs [Reg.rhxAlloc n.val] s t) ∧
    (allocLimit n.val < fld v 8 0 ∨ 512 < (((List.range 10).filter (· ≠ n.val)).map (rqAlloc s)).sum + fld v 8 0 → s.eng.evBuf.length < 64 →
      exec (.allocWrite who n v) s = .next
        (let d := (decide (fld v 8 0 ≤ allocLimit n.val)).toNat <<< 13 ||| fld v 8 0 <<< 4 ||| n.val
         { (begin who s).setB Reg.rhxAllocStatus 10 true with eng := { s.eng with evBuf := s.eng.evBuf ++ [(0x507, who, wd d)] } }))) ∧
  (∀ who v s, Live who s → exec (.wcSegEnWrite who v) s = .next ((begin who s).setReg Reg.rhxWcSegEn (wd (fld v 15 0)))) ∧
  (∀ who (v : Word) s, Live who s → (v.getLsbD 35 = false → exec (.wcEntryWrite who v) s = .next (begin who s) ∧ exec (.wcEntryRead who v) s = .next (begin who s)) ∧
    (v.getLsbD 35 = true → s.getB Reg.rhxWcStatus 0 = true → exec (.wcEntryWrite who v) s = .next ((begin who s).setB Reg.rhxWcStatus 1 true) ∧
      exec (.wcEntryRead who v) s = .next ((begin who s).setB Reg.rhxWcStatus 1 true)) ∧
    (v.getLsbD 35 = true → s.getB Reg.rhxWcStatus 0 = false → exec (.wcEntryWrite who v) s = .next
      (engPuts .wildcard (wcIx (fld v 12 0)) ((List.range 7).map (fun k => s.reg (Reg.rhxWcData k))) ((begin who s).setB Reg.rhxWcStatus 0 true))) ∧
    (v.getLsbD 35 = true → s.getB Reg.rhxWcStatus 0 = false → wcCheck (fld v 12 0) ((begin who s).setB Reg.rhxWcStatus 0 true) = (begin who s).setB Reg.rhxWcStatus 0 true →
      exec (.wcEntryRead who v) s = .next
        (forAll (wcGet s (fld v 12 0)).zipIdx (fun w s => s.setReg (Reg.rhxWcData w.2) w.1) ((begin who s).setB Reg.rhxWcStatus 0 true)))) ∧
  (∀ who (v : Word) s, Live who s → (v.getLsbD 35 = false → exec (.kinsInsert who v) s = .next (begin who s) ∧ exec (.kinsDelete who v) s = .next (begin who s)) ∧
    (v.getLsbD 35 = true → s.getB Reg.rhxKinsStatus 7 = true ∨ engOn s = false → exec (.kinsInsert who v) s = .next ((begin who s).setB Reg.rhxKinsStatus 8 true) ∧
      exec (.kinsDelete who v) s = .next ((begin who s).setB Reg.rhxKinsStatus 8 true)) ∧
    (v.getLsbD 35 = true → s.getB Reg.rhxKinsStatus 7 = false → rqCredits s 9 ≠ 0 → engOn s = true →
      (Runs (.kinsInsert who v) s fun t => t.getB Reg.rhxKinsStatus 7 = true ∧ ∃ o, t.eng.slots = s.eng.slots ++ [o] ∧ o.kins = true ∧ reqOp o.req = 2 ∧
        o.req.w1 = s.reg (Reg.rhxKinsKey 0) ∧ o.req.w2 = s.reg (Reg.rhxKinsKey 1) ∧ o.key2 = s.reg (Reg.rhxKinsKey 2)) ∧
      (Runs (.kinsDelete who v) s fun t => t.getB Reg.rhxKinsStatus 7 = true ∧ ∃ o, t.eng.slots = s.eng.slots ++ [o] ∧ o.kins = true ∧ reqOp o.req = 3 ∧
        o.req.w1 = s.reg (Reg.rhxKinsKey 0) ∧ o.req.w2 = s.reg (Reg.rhxKinsKey 1) ∧ o.key2 = s.reg (Reg.rhxKinsKey 2)))) ∧
  (∀ who v s, Live who s →
    (engOn s = false → Runs (.cmdSubmit who v) s fun t => t.getB Reg.rhxCmdStatus 16 = true ∧ t.eng.slots = s.eng.slots ∧ KeepRegs [Reg.rhxCmdStatus] s t) ∧
    (engOn s = true → rqCredits s 9 ≠ 0 → tagBusy s 9 (reqTag (Store.get (fun _ => ⟨0, 0, 0, 0⟩) s.eng.stage who.toNat)) = false →
      Runs (.cmdSubmit who v) s fun t => ∃ o, t.eng.slots = s.eng.slots ++ [o] ∧ o.who = who ∧ o.rq = 9 ∧
        o.req = { Store.get (fun _ => (⟨0, 0, 0, 0⟩ : Quad)) s.eng.stage who.toNat with w3 := v })) ∧
  (∀ who s, Live who s → (s.rspQ 9 = [] → ∀ p, exec (.cmdResponsePop who p) s = .next (begin who s)) ∧
    (∀ q rest p, s.rspQ 9 = q :: rest → (peeks who p = true → exec (.cmdResponsePop who p) s = .next { s with resp := { who := who, data := q.w3, err := false } }) ∧
      (peeks who p = false → Runs (.cmdResponsePop who p) s fun t => t.resp = { who := who, data := q.w3, err := false } ∧ t.rspQ 9 = rest)))

/-- Receiver calibration and link training, state by state (R294, R297, R298). -/
def Obligations.LinkTraining : Prop :=
  (∀ (p : Fin 8) ok s, s.fn (.mesh p) ≠ fnStarting ∨ (s.port p.val).granted = false → exec (.meshPortCalibration p ok) s = .next s) ∧
  (∀ (p : Fin 8) s, s.fn (.mesh p) = fnStarting → (s.port p.val).granted = true →
    exec (.meshPortCalibration p true) s = .next (opStartDone (.mesh p) s) ∧
    Runs (.meshPortCalibration p false) s fun t => t.fn (.mesh p) = fnFault ∧ (t.port p.val).granted = false ∧
      ∃ lanes, lanes < 16 ∧ Logged 0x602 0 (lanes <<< 7 ||| s.link p.val <<< 4 ||| p.val) s t) ∧
  (∀ (p : Fin 8) c l s, (c, l) ∈ [(Instr.linkSignalDetect p, 1), (.linkCdrLock p, 2), (.linkEqDone p, 3), (.linkAlignDone p, 4)] →
    (trains s p.val = true → s.link p.val = l → (s.port p.val).idle = false → Runs c s fun t =>
      t.link p.val = l + 1 ∧ t.mesh = s.mesh ∧ KeepRegs [Reg.mshPStatus p.val] s t) ∧
    (trains s p.val = false ∨ s.link p.val ≠ l ∨ (s.port p.val).idle = true → exec c s = .next s)) ∧
  (∀ (p : Fin 8) nbr w s,
    (trains s p.val = false ∨ s.link p.val ≠ 5 ∨ (s.port p.val).idle = true → exec (.linkParamConfirm p nbr w) s = .next s) ∧
    (trains s p.val = true → s.link p.val = 5 → (s.port p.val).idle = false → (s.port p.val).test = true → Runs (.linkParamConfirm p nbr w) s fun t =>
      t.link p.val = linkActive ∧ t.getF (Reg.mshPStatus p.val) 24 22 = nbr.toNat ∧ t.port p.val = { nbrWmark := w, test := true })) ∧
  (∀ (p : Fin 8) lanes s,
    (trains s p.val = false ∨ s.link p.val < 1 ∨ 5 < s.link p.val ∨ (s.port p.val).idle = true → exec (.linkTrainingTimeout p lanes) s = .next s) ∧
    (trains s p.val = true → 1 ≤ s.link p.val → s.link p.val ≤ 5 → (s.port p.val).idle = false → Runs (.linkTrainingTimeout p lanes) s fun t =>
      t.link p.val = 0 ∧ t.getF (Reg.mshPTrainFail p.val) 35 0 = satInc (s.getF (Reg.mshPTrainFail p.val) 35 0) (2 ^ 36 - 1) ∧
      t.port p.val = { s.port p.val with idle := true, fails := (s.port p.val).fails + 1 } ∧
      ((s.port p.val).fails % 256 = 0 → Logged 0x602 0 (1 <<< 11 ||| lanes.toNat <<< 7 ||| s.link p.val <<< 4 ||| p.val) s t) ∧
      ((s.port p.val).fails % 256 ≠ 0 → t.evt = s.evt))) ∧
  (∀ (p : Fin 8) s, (trains s p.val = true → (s.port p.val).idle = true → Runs (.linkTrainingRetry p) s fun t =>
      t.link p.val = 1 ∧ t.port p.val = { s.port p.val with idle := false } ∧ KeepRegs [Reg.mshPStatus p.val] s t) ∧
    ((s.port p.val).idle = false → exec (.linkTrainingRetry p) s = .next s))

/-- Link words on an ACTIVE link: packets, ACK and NAK, CREDIT, RSTART, replay, loss (R300 to R303, R313, R322). -/
def Obligations.LinkLayer : Prop :=
  (∀ (p : Fin 8) ws w c s, s.link p.val ≠ linkActive → ∀ x ∈ [Instr.linkPacketReceived p ws, .ack p w, .credit p w, .rstart p, .replayTimeout p, .linkLoss p c], exec x s = .next s) ∧
  (∀ (p : Fin 8) ws s, s.link p.val = linkActive → (s.port p.val).discard = false →
    (fld (ws.getD 0 0) 35 32 = 1 → lenOk ws = true → packetCrcOk ws = true →
      (fld (ws.getD 0 0) 29 18 = (s.port p.val).rxSeq.toNat → exec (.linkPacketReceived p ws) s = .next (s.setPort p.val { s.port p.val with
        rxSeq := (s.port p.val).rxSeq + 1, rxq := (s.port p.val).rxq ++ [packetOf ws], lastAck := some ((s.port p.val).rxSeq + 1, false),
        ackWord := ackOf ((s.port p.val).rxSeq + 1) false })) ∧
      (fld (ws.getD 0 0) 29 18 ≠ (s.port p.val).rxSeq.toNat → Runs (.linkPacketReceived p ws) s fun t => t.regs = s.regs ∧
        (t.port p.val).discard = true ∧ (t.port p.val).lastAck = some ((s.port p.val).rxSeq, true) ∧
        (t.port p.val).ackWord = ackOf (s.port p.val).rxSeq true ∧ (t.port p.val).rxq = (s.port p.val).rxq)) ∧
    (fld (ws.getD 0 0) 35 32 = 1 → lenOk ws = false ∨ packetCrcOk ws = false →
      Runs (.linkPacketReceived p ws) s fun t => (t.port p.val).discard = true ∧ (t.port p.val).rxq = (s.port p.val).rxq ∧
      t.getF (Reg.mshPLerr p.val) 35 0 = satInc (s.getF (Reg.mshPLerr p.val) 35 0) (2 ^ 36 - 1)) ∧
    (4 ≤ fld (ws.getD 0 0) 35 32 → Runs (.linkPacketReceived p ws) s fun t => (t.port p.val).discard = true ∧ (t.port p.val).rxq = (s.port p.val).rxq ∧
      t.getF (Reg.mshPLerr p.val) 35 0 = satInc (s.getF (Reg.mshPLerr p.val) 35 0) (2 ^ 36 - 1)) ∧
    (fld (ws.getD 0 0) 35 32 = 0 → exec (.linkPacketReceived p ws) s = .next (if ws.getD 0 0 = 0 then s else s.count (Reg.mshPLerr p.val) 35 0)) ∧
    (fld (ws.getD 0 0) 35 32 = 2 → exec (.linkPacketReceived p ws) s = exec (.ack p (ws.getD 0 0)) s) ∧
    (fld (ws.getD 0 0) 35 32 = 3 → exec (.linkPacketReceived p ws) s = exec (.credit p (ws.getD 0 0)) s)) ∧
  (∀ (p : Fin 8) ws w s, s.link p.val = linkActive → (s.port p.val).discard = true → exec (.ack p w) s = .next s ∧ exec (.credit p w) s = .next s ∧
    exec (.linkPacketReceived p ws) s = .next (if fld (ws.getD 0 0) 35 32 = 1 ∧ lenOk ws = true then
      freeUnits p.val (fld (ws.getD 0 0) 31 30) ((ws.length + 3) / 4) s else s)) ∧
  (∀ (p : Fin 8) w s, s.link p.val = linkActive → (s.port p.val).discard = false →
    (linkWordOk 2 w = false → exec (.ack p w) s = .next (s.count (Reg.mshPLerr p.val) 35 0)) ∧
    (linkWordOk 3 w = false → exec (.credit p w) s = .next (s.count (Reg.mshPLerr p.val) 35 0)) ∧
    (linkWordOk 2 w = true → exec (.ack p w) s = .next
      (let n := BitVec.ofNat 12 (fld w 31 20)
       let k := (n - (s.port p.val).txAck).toNat
       let q := if k ≤ (s.port p.val).replay.length ∧ 0 < k then { s.port p.val with replay := (s.port p.val).replay.drop k, txAck := n, replays := 0 } else s.port p.val
       if w.getLsbD 19 then replayStart p.val (s.setPort p.val (portFlush q)) else s.setPort p.val (portFlush q))) ∧
    (linkWordOk 3 w = true → exec (.credit p w) s = .next (s.setPort p.val (portFlush { s.port p.val with
      freedFar := Store.set (fun _ => 0) (s.port p.val).freedFar (fld w 31 30) (BitVec.ofNat 12 (fld w 29 18)) })))) ∧
  (∀ (p : Fin 8) s, s.link p.val = linkActive →
    exec (.rstart p) s = .next (s.setPort p.val { s.port p.val with discard := false }) ∧
    ((s.port p.val).replay = [] → exec (.replayTimeout p) s = .next s) ∧
    ((s.port p.val).replay ≠ [] → (s.port p.val).replays < 7 → Runs (.replayTimeout p) s fun t => t.link p.val = linkActive ∧
      (t.port p.val).replays = (s.port p.val).replays + 1 ∧ (t.port p.val).replay = (s.port p.val).replay ∧
      t.getF (Reg.mshPReplay p.val) 35 0 = satInc (s.getF (Reg.mshPReplay p.val) 35 0) (2 ^ 36 - 1)) ∧
    ((s.port p.val).replay ≠ [] → 7 ≤ (s.port p.val).replays →
      exec (.replayTimeout p) s = .next (linkLost p.val 4 (s.count (Reg.mshPReplay p.val) 35 0))) ∧
    (∀ c, exec (.linkLoss p c) s = .next (discLost ((linkEnd p.val c.toNat 1 s).setPort p.val { (linkEnd p.val c.toNat 1 s).port p.val with test := (s.port p.val).test })))) ∧
  (∀ (p : Fin 8) s, exec (.bye p) s = .next (linkLost p.val 5 (inboxTake 0x1A s))) ∧
  (∀ k s, exec (.packetForward none k) s = .next (meshRoute none k s)) ∧
  (∀ (p : Fin 8) k s,
    (k ∉ (s.port p.val).rxq → exec (.packetForward (some p) k) s = .next s) ∧
    (k ∈ (s.port p.val).rxq → exec (.packetForward (some p) k) s = .next (meshRoute (some p.val) k
      (freeUnits p.val k.vc.toNat (pktUnits k) (s.setPort p.val { s.port p.val with rxq := (s.port p.val).rxq.erase k })))))

/-- Discovery: HELLO, election, echo, addresses, LSAs, routes, READY, joining, refusal and what lapses (R303 to R316, R340). -/
def Obligations.Discovery : Prop :=
  (∀ s, exec .helloSend s = .next (lsaRefresh (forAll (discPorts s) helloTo s))) ∧
  (∀ (p : Fin 8) h s u, u = inboxTake 0x10 s →
    (u.link p.val ≠ linkActive ∨ (u.port p.val).test = true → exec (.hello p h) s = .next u) ∧
    (u.link p.val = linkActive → (u.port p.val).test = false → (u.port p.val).heard = true → (u.port p.val).refused = false → h.state ≠ 3 →
      exec (.hello p h) s = .next (lsaRefresh (setDisc { u.mesh.disc with epoch := if epochAfter h.epoch u.mesh.disc.epoch then h.epoch else u.mesh.disc.epoch }
        ((u.setPort p.val { u.port p.val with heard := true, nbrWmark := h.wmark, nbrPrio := h.prio, nbrState := h.state, nbrRoot := h.rootWmark, nbrDepth := h.depth, refused := false }).setReg (Reg.mshPStatus p.val)
          (setFld (setFld (setFld (u.reg (Reg.mshPStatus p.val)) 35 26 (if h.addrValid then h.addr.toNat else 0)) 25 25 h.addrValid.toNat) 24 22 h.port.toNat)))))) ∧
  (∀ who v s, Live who s →
    (¬ (fld v 35 24 = 0x6D1 ∧ v.getLsbD 0 = true) ∨ discPorts s = [] → exec (.resurvey who v) s = .next (begin who s)) ∧
    (fld v 35 24 = 0x6D1 → v.getLsbD 0 = true → discPorts s ≠ [] → Runs (.resurvey who v) s fun t => t.getF Reg.mshNodeStatus 35 33 = 1 ∧
      t.getF Reg.mshNodeStatus2 15 0 = (s.mesh.disc.epoch + 1).toNat ∧ Logged 0x605 0 (5 <<< 16 ||| (s.mesh.disc.epoch + 1).toNat) s t)) ∧
  (∀ (p : Fin 8) e prio w dist s u, u = inboxTake 0x11 s →
    (u.link p.val ≠ linkActive → exec (.elect p e prio w dist) s = .next u) ∧
    (u.link p.val = linkActive → epochAfter e (nowEpoch u) = true → exec (.elect p e prio w dist) s = .next (electTake p prio w dist (epochTake e u))) ∧
    (u.link p.val = linkActive → e = nowEpoch u → u.mstate = 1 → exec (.elect p e prio w dist) s = .next (electTake p prio w dist u)) ∧
    (epochAfter e (nowEpoch u) = false → e ≠ nowEpoch u → exec (.elect p e prio w dist) s = .next u)) ∧
  (∀ (p : Fin 8) e es s u, u = inboxTake 0x12 s → u.link p.val = linkActive → e = nowEpoch u → u.mstate = 1 →
    (u.mesh.disc.children.contains p = true ∨ u.mesh.disc.echoed = true → exec (.echo p e es) s = .next u) ∧
    (u.mesh.disc.children.contains p = false → u.mesh.disc.echoed = false → exec (.echo p e es) s = .next (echoCheck
      (setDisc { u.mesh.disc with children := u.mesh.disc.children ++ [p], entries := u.mesh.disc.entries ++ es.map (fun x => (p, x)) } u)))) ∧
  (∀ (p : Fin 8) e (count : BitVec 11) given s u, u = inboxTake 0x13 s → u.link p.val = linkActive → e = nowEpoch u → u.mstate = 1 →
    (u.mesh.disc.parent ≠ some p ∨ u.mesh.disc.count ≠ 0 → exec (.assign p e count given) s = .next u) ∧
    (u.mesh.disc.parent = some p → u.mesh.disc.count = 0 → exec (.assign p e count given) s = .next (addressed count.toNat given u))) ∧
  (∀ (p : Fin 8) l s u, u = inboxTake 0x14 s → u.link p.val = linkActive → l.epoch = nowEpoch u →
    (lsaFind u.mesh.disc.lsas l.addr.toNat = some l → exec (.lsa p l) s = .next u) ∧
    (lsaFind u.mesh.disc.lsas l.addr.toNat ≠ some l → u.addrValid = false ∨ l.addr.toNat ≠ u.addr → ∃ v, v = lsaFlood (some p.val) l (lsaStore l u) ∧
      exec (.lsa p l) s = .next (setDisc { v.mesh.disc with installed := false } v))) ∧
  (∀ s, (s.mesh.disc.installed = true ∨ s.addrValid = false → exec .routeComputationComplete s = .next s) ∧
    (s.mesh.disc.installed = false → s.addrValid = true →
      (s.mstate = 2 → exec .routeComputationComplete s = .next (routesAgain s)) ∧
      (s.mstate = 1 → s.mesh.disc.count ≠ 0 → s.mesh.disc.lsas.length = s.mesh.disc.count → exec .routeComputationComplete s = .next (routesFirst s)))) ∧
  (∀ (p : Fin 8) e x s u, u = inboxTake 0x15 s →
    (u.link p.val ≠ linkActive ∨ e ≠ nowEpoch u ∨ u.mstate ≠ 1 → exec (.done p e x) s = .next u) ∧
    (u.link p.val = linkActive → e = nowEpoch u → u.mstate = 1 →
      exec (.done p e x) s = .next (doneCheck (setDisc { u.mesh.disc with doneFrom := p :: u.mesh.disc.doneFrom } u)))) ∧
  (∀ (p : Fin 8) e (root : BitVec 10) (n : BitVec 11) (d : BitVec 7) s u, u = inboxTake 0x16 s →
    (u.mesh.disc.parent ≠ some p ∨ u.mesh.disc.installed = false → exec (.ready p e root n d) s = .next u) ∧
    (u.link p.val = linkActive → e = nowEpoch u → u.mstate = 1 → u.mesh.disc.parent = some p → u.mesh.disc.installed = true → Runs (.ready p e root n d) s fun t =>
      t.getF Reg.mshNodeStatus 35 33 = 2 ∧ t.getF Reg.mshNodeStatus 21 12 = root.toNat ∧ t.getF Reg.mshNodeStatus 6 0 = d.toNat)) ∧
  (∀ (p : Fin 8) h ls s u, u = inboxTake 0x17 s → u.link p.val = linkActive →
    (u.mstate ≠ 2 → exec (.join p h ls) s = .next u) ∧
    (u.mstate = 2 → u.mesh.disc.isRoot = true → exec (.join p h ls) s = .next (joinServe p.val h (if h.addrValid ∨ h.addr ≠ 0 then some h.addr else none) ls u)) ∧
    (u.mstate = 2 → u.mesh.disc.isRoot = false → exec (.join p h ls) s = .next (msgSend (u.getF (Reg.mshNht (u.getF Reg.mshNodeStatus 21 12)) 33 31) 0x17 (joinFields h ls)
      (setDisc { u.mesh.disc with joinFrom := u.mesh.disc.joinFrom ++ [p] } u)))) ∧
  (∀ (p : Fin 8) a root e n s u, u = inboxTake 0x18 s → u.link p.val = linkActive →
    (u.mstate = 1 ∨ u.mstate = 2 ∧ u.mesh.disc.joinFrom = [] → exec (.joinAck p a root e n) s = .next u) ∧
    (∀ q rest, u.mstate = 2 → u.mesh.disc.joinFrom = q :: rest → exec (.joinAck p a root e n) s = .next
      (joinReply q.val 0x18 [(a.toNat, 10), (root.toNat, 64), (e.toNat, 16), (n.toNat, 11)] (setDisc { u.mesh.disc with joinFrom := rest } u))) ∧
    (u.mstate ≠ 1 → u.mstate ≠ 2 → ∃ v, exec (.joinAck p a root e n) s = .next (lsaRefresh (addrTake a v)) ∧ v.mesh.disc.joining = true ∧
      v.mesh.disc.parent = some p ∧ v.mesh.disc.count = n.toNat ∧ v.getF Reg.mshNodeStatus2 15 0 = e.toNat ∧ v.getF Reg.mshNodeStatus 35 33 = 1)) ∧
  (∀ (p : Fin 8) d s u, u = inboxTake 0x19 s → u.link p.val = linkActive →
    (u.mstate = 1 ∨ u.mstate = 2 ∧ u.mesh.disc.joinFrom = [] → exec (.refuse p d) s = .next u) ∧
    (u.mstate ≠ 1 → u.mstate ≠ 2 → Runs (.refuse p d) s fun t => t.getF Reg.mshNodeStatus 35 33 = 3 ∧ t.addrValid = false ∧ t.addr = 0)) ∧
  (∀ (p : Fin 8) s, (s.mstate ≠ 1 → exec (.discoveryNeighbourTimeout p) s = .next s) ∧
    (s.mstate = 1 → s.mesh.disc.isRoot = true → s.mesh.disc.children.contains p = true → s.link p.val ≠ linkActive → exec (.discoveryNeighbourTimeout p) s = .next (discStart 4 s)) ∧
    (s.mstate = 1 → s.mesh.disc.isRoot = false → exec (.discoveryNeighbourTimeout p) s = .next (doneCheck (echoCheck (setDisc { s.mesh.disc with absent := p :: s.mesh.disc.absent } s))))) ∧
  (∀ (a : BitVec 10) s, Runs (.addrHoldExpiry a) s fun t => (∀ e ∈ t.mesh.disc.reserved, e.addr ≠ a) ∧ (∀ e ∈ s.mesh.disc.reserved, e.addr ≠ a → e ∈ t.mesh.disc.reserved) ∧
    t.getF (Reg.mshNht a.toNat) 35 34 ≠ 3 ∧ KeepRegs [Reg.mshNht a.toNat] s t)

/-- Remote register access and remote engine operations (R324 to R327, R249). -/
def Obligations.RemoteAccess : Prop :=
  (∀ who (v : Word) s, Live who s → ∀ c ∈ [Instr.rraRead who v, .rraWrite who v],
    (v.getLsbD 35 = false → exec c s = .next (begin who s)) ∧
    (v.getLsbD 35 = true → s.getB Reg.mshRraStatus 7 = true → exec c s = .next ((begin who s).setB Reg.mshRraStatus 8 true)) ∧
    (v.getLsbD 35 = true → s.getB Reg.mshRraStatus 7 = false → s.mstate ≠ 2 → Runs c s fun t => t.getF Reg.mshRraStatus 7 0 = 0x40 ∧ t.getB (Reg.scrIrqPend 0) 18 = true ∧
      KeepRegs [Reg.mshRraStatus, Reg.scrIrqPend 0] s t ∧ t.mesh = s.mesh) ∧
    (v.getLsbD 35 = true → s.getB Reg.mshRraStatus 7 = false → s.mstate = 2 → s.getF (Reg.mshNht (s.getF Reg.mshRraNode 9 0)) 35 34 = 0 →
      Runs c s fun t => t.getF Reg.mshRraStatus 7 0 = 0x30 ∧ t.getB (Reg.scrIrqPend 0) 18 = true ∧ KeepRegs [Reg.mshRraStatus, Reg.scrIrqPend 0] s t ∧ t.mesh = s.mesh) ∧
    (v.getLsbD 35 = true → s.getB Reg.mshRraStatus 7 = false → s.mstate = 2 → s.getF (Reg.mshNht (s.getF Reg.mshRraNode 9 0)) 35 34 = 2 →
      ∃ u, u.mesh = { s.mesh with rraWrite := v.getLsbD 34 } ∧ u.getB Reg.mshRraStatus 7 = true ∧ KeepRegs [Reg.mshRraStatus] s u ∧
        exec c s = .next (meshSend (s.getF Reg.mshRraNode 9 0) 1 vcReq (if v.getLsbD 34 then [wd ((v.getLsbD 34).toNat <<< 35 ||| s.getF Reg.mshRraAddr 23 0), s.reg Reg.mshRraWdata]
          else [wd ((v.getLsbD 34).toNat <<< 35 ||| s.getF Reg.mshRraAddr 23 0)]) u))) ∧
  (∀ (result reason : BitVec 4) data s u, u = inboxTake 2 s →
    (u.getB Reg.mshRraStatus 7 = false → exec (.rraRsp result reason data) s = .next u) ∧
    (u.getB Reg.mshRraStatus 7 = true → result.toNat < 8 → Runs (.rraRsp result reason data) s fun t => t.getF Reg.mshRraStatus 7 0 = result.toNat * 16 + (if result = 1 then reason.toNat else 0) ∧
      t.reg Reg.mshRraRdata = (if result = 0 ∧ u.mesh.rraWrite = false then data else u.reg Reg.mshRraRdata) ∧
      t.getB (Reg.scrIrqPend 0) 18 = true ∧ KeepRegs [Reg.mshRraStatus, Reg.mshRraRdata, Reg.scrIrqPend 0] u t)) ∧
  (∀ s, (s.getB Reg.mshRraStatus 7 = false → exec .rraTimeout s = .next s) ∧
    (s.getB Reg.mshRraStatus 7 = true → Runs .rraTimeout s fun t => t.getF Reg.mshRraStatus 7 0 = 0x20 ∧ t.getB (Reg.scrIrqPend 0) 18 = true ∧
      KeepRegs [Reg.mshRraStatus, Reg.scrIrqPend 0] s t ∧ t.mesh = s.mesh)) ∧
  (∀ (src : BitVec 10) wr (a : Addr) data s u, u = inboxTake 1 s →
    (served u rqMesh = false → exec (.rraReq src wr a data) s = .next u) ∧
    (served u rqMesh = true → u.getB Reg.mshRraCfg 0 = false → exec (.rraReq src wr a data) s = .next (meshSend src.toNat 2 vcRsp [wd (1 <<< 32 ||| 3 <<< 28), 0]
      (raise 0x60D 0 (3 <<< 10 ||| src.toNat) u))) ∧
    (served u rqMesh = true → rraReason wr a.toNat u = 0 →
      exec (.rraReq src wr a data) s = .next (rraAnswer src.toNat wr (if wr then regWrite rqMesh a.toNat data u else regRead rqMesh false a.toNat u)))) ∧
  (∀ (src : BitVec 10) (sreq : BitVec 4) (stag : BitVec 6) q s u, u = inboxTake 3 s →
    (engOn u = false → exec (.engReq src sreq stag q) s = .next (meshSend src.toNat 4 vcRsp
      [wd (sreq.toNat <<< 6 ||| stag.toNat), (resQuad u q { st := stOff }).w0, (resQuad u q { st := stOff }).w1, (resQuad u q { st := stOff }).w2, (resQuad u q { st := stOff }).w3] u)) ∧
    (engOn u = true → rqCredits u rqMeshNo = 0 ∨ u.eng.waitQ ≠ [] → exec (.engReq src sreq stag q) s = .next
      { u with eng := { u.eng with waitQ := u.eng.waitQ ++ [(src, sreq, stag, q)] } }) ∧
    (engOn u = true → rqCredits u rqMeshNo ≠ 0 → u.eng.waitQ = [] → exec (.engReq src sreq stag q) s = .next (meshTake src sreq stag q u))) ∧
  (∀ (sreq : BitVec 4) (stag : BitVec 6) rsp s u, u = inboxTake 4 s →
    (u.eng.late.contains (sreq.toNat, stag.toNat, fld rsp.w1 25 16) = true → exec (.engRsp sreq stag rsp) s = .next
      (State.count { u with eng := { u.eng with late := u.eng.late.erase (sreq.toNat, stag.toNat, fld rsp.w1 25 16) } } (Reg.rhxCnt 8) 35 0)) ∧
    (u.eng.late.contains (sreq.toNat, stag.toNat, fld rsp.w1 25 16) = false →
      (∀ o, u.eng.slots.find? (fun o => decide (o.phase = .remote) && o.rq.val == sreq.toNat && reqTag o.req == stag.toNat) = some o →
        exec (.engRsp sreq stag rsp) s = .next (lockRelease (setOp { o with phase := .done, status := BitVec.ofNat 6 (fld rsp.w0 25 20), rsp := rsp } u))) ∧
      (u.eng.slots.find? (fun o => decide (o.phase = .remote) && o.rq.val == sreq.toNat && reqTag o.req == stag.toNat) = none →
        exec (.engRsp sreq stag rsp) s = .next u)))

/-- Image pushes, user STREAM channels, mesh time and MSH.NODE_CFG (R295, R329 to R336). -/
def Obligations.MeshServices : Prop :=
  (∀ who (v : Word) s, Live who s → ∀ c ∈ [Instr.imagePush who v, .imagePushAbort who v],
    (v.getLsbD 34 = false → v.getLsbD 35 = false → exec c s = .next (begin who s)) ∧
    (v.getLsbD 34 = false → v.getLsbD 35 = true → pushRuns s = true → exec c s = .next ((begin who s).setB Reg.mshPushStatus 20 true)) ∧
    (v.getLsbD 34 = false → v.getLsbD 35 = true → pushRuns s = false → exec c s = .next (pushStart (Fin.ofNat 4 (fld v 13 12)) (BitVec.ofNat 10 (fld v 9 0)) (begin who s))) ∧
    (v.getLsbD 34 = true → v.getLsbD 35 = false → pushRuns s = true → exec c s = .next (meshSend s.mesh.pushDest.toNat 5 vcStream [wd (1 <<< 33 ||| (s.reg Reg.mshPushWords).toNat), 0]
      (pushEnd 5 (begin who s)))) ∧
    (v.getLsbD 34 = true → v.getLsbD 35 = false → pushRuns s = false → exec c s = .next (begin who s)) ∧
    (v.getLsbD 34 = true → v.getLsbD 35 = true → pushRuns s = true → exec c s = .next ((pushAbort (begin who s)).setB Reg.mshPushStatus 20 true)) ∧
    (v.getLsbD 34 = true → v.getLsbD 35 = true → pushRuns s = false → exec c s = .next (pushStart (Fin.ofNat 4 (fld v 13 12)) (BitVec.ofNat 10 (fld v 9 0)) (begin who s)))) ∧
  (∀ (n : BitVec 25) (code : Code) ws s,
    (∀ u, u = inboxTake 6 s → pushRuns u = true → exec (.imgAck n) s = .next (pushSend { u with mesh := { u.mesh with pushAcked := n.toNat } })) ∧
    (∀ u, u = inboxTake 6 s → pushRuns u = false → exec (.imgAck n) s = .next u) ∧
    (∀ u, u = inboxTake 7 s → pushRuns u = true → Runs (.imgResult code) s fun t => t.getF Reg.mshPushStatus 35 24 = code.toNat ∧ pushState t = 3 ∧
      t.getB (Reg.scrIrqPend 0) 19 = true ∧ KeepRegs [Reg.mshPushStatus, Reg.scrIrqPend 0] u t) ∧
    (∀ u, u = inboxTake 7 s → pushRuns u = false → exec (.imgResult code) s = .next u) ∧
    (∀ u, u = inboxTake 8 s → Runs (.imgRb ws) s fun t => t.getF Reg.mshPushRb 24 0 = min (2 ^ 25 - 1) (u.getF Reg.mshPushRb 24 0 + ws.length) ∧ KeepRegs [Reg.mshPushRb] u t) ∧
    (pushRuns s = true → Runs .pushTimeout s fun t => pushState t = 4 ∧ t.getB (Reg.scrIrqPend 0) 19 = true ∧
      KeepRegs [Reg.mshPushStatus, Reg.scrIrqPend 0] s t ∧ t.mesh = s.mesh) ∧
    (pushRuns s = false → exec .pushTimeout s = .next s)) ∧
  (∀ (src : BitVec 10) first last abort off ws s u, u = inboxTake 5 s →
    (u.ld.st = .idle → abort = true → exec (.imgData src first last abort off ws) s = .next u) ∧
    (u.ld.st ≠ .idle → u.ld.src = 3 → u.mesh.pushFrom = src → abort = true → exec (.imgData src first last abort off ws) s = .next (streamDiscard 2 u)) ∧
    (u.ld.st ≠ .idle → u.ld.src = 3 → u.mesh.pushFrom = src → abort = false → first = false → exec (.imgData src first last abort off ws) s = .next (ldOffer 3 rqMesh ws u)) ∧
    (u.ld.st ≠ .idle → abort = false → first = true → exec (.imgData src first last abort off ws) s = .next (meshSend src.toNat 7 vcRsp [wd 0x20C] (srcRefuse 3 u))) ∧
    (u.ld.st = .idle → srcEnabled u 3 = true → abort = false → exec (.imgData src first last abort off ws) s = .next (ldOffer 3 rqMesh ws { u with mesh := { u.mesh with pushFrom := src } }))) ∧
  (∀ (k : Fin 8) q dest last s,
    (portLive s 2 k.val = false ∨ s.mstate ≠ 2 ∨ 2048 < stTxWords k.val s + 4 → exec (.streamTxTransfer k q dest last) s = .next s) ∧
    ((s.stx k.val).rx = [] ∨ portClocked s 2 k.val = false → exec (.streamRxTransfer k) s = .next s) ∧
    (portLive s 2 k.val = true → s.mstate = 2 → stTxWords k.val s + 4 ≤ 2048 → last = false → (s.stx k.val).tx.length < 14 →
      exec (.streamTxTransfer k q dest last) s = .next (setStx k.val
        { s.stx k.val with tx := (s.stx k.val).tx ++ [q], txDest := if (s.stx k.val).tx.isEmpty then dest else (s.stx k.val).txDest } s)) ∧
    (portLive s 2 k.val = true → s.mstate = 2 → stTxWords k.val s + 4 ≤ 2048 → last = true ∨ 14 ≤ (s.stx k.val).tx.length →
      exec (.streamTxTransfer k q dest last) s = .next (stSend k.val
        (setStx k.val { s.stx k.val with tx := (s.stx k.val).tx ++ [q], txDest := if (s.stx k.val).tx.isEmpty then dest else (s.stx k.val).txDest } s))) ∧
    (∀ x rest, portClocked s 2 k.val = true → (s.stx k.val).rx = x :: rest → exec (.streamRxTransfer k) s = .next
      (setStx k.val { s.stx k.val with rx := rest, out := some x } s))) ∧
  (∀ (src : BitVec 10) (i k : BitVec 3) seq ts s t, t = s.stx k.toNat →
    ((∀ n, hostOf s 2 k.toNat = some n → s.getB (Reg.rgnStatus n) 0 = false ∧ s.getB (Reg.rgnStatus n) 4 = false) → hostOf s 2 k.toNat ≠ none → 512 < t.rx.length + ts.length →
      exec (.user src i k true seq ts) s = .next s) ∧
    ((∀ n, hostOf s 2 k.toNat = some n → s.getB (Reg.rgnStatus n) 0 = false ∧ s.getB (Reg.rgnStatus n) 4 = false) → hostOf s 2 k.toNat ≠ none → t.rx.length + ts.length ≤ 512 →
      exec (.user src i k true seq ts) s = .next (inboxTake 9 (setStx k.toNat { t with expect := Store.set (fun _ => 0) t.expect (BitVec.ofNat 13 (src.toNat * 8 + i.toNat)).toNat (seq + 1), rx := t.rx ++ stRx (BitVec.ofNat 13 (src.toNat * 8 + i.toNat)) false ts } s))) ∧
    (hostOf s 2 k.toNat = none → exec (.user src i k true seq ts) s = .next (stLost k.toNat src true
      (inboxTake 9 (setStx k.toNat { t with expect := Store.set (fun _ => 0) t.expect (BitVec.ofNat 13 (src.toNat * 8 + i.toNat)).toNat (seq + 1) } s))))) ∧
  (∀ (p : Fin 8) (seq : BitVec 8) t2 t3 t4 s,
    (s.mstate ≠ 2 ∨ isRef s = true → exec (.timeSyncSend seq) s = .next s ∧ exec .timeSyncMissed s = .next s) ∧
    (s.mstate = 2 → isRef s = false → exec (.timeSyncSend seq) s = .next (meshSendLink (s.getF Reg.mshTimeStatus 31 29) 0x0A [wd seq.toNat] { s with mesh := { s.mesh with t1 := timeUnits s } }) ∧
      exec .timeSyncMissed s = .next (timeHoldover s)) ∧
    (∀ u, u = inboxTake 0x0A s → exec (.timeSyncRequest p seq) s = .next (meshSendLink p.val 0x0A
        [wd seq.toNat, wd (timeUnits u).toNat, wd ((timeUnits u).toNat >>> 36), wd (timeUnits u).toNat, wd ((timeUnits u).toNat >>> 36)] u) ∧
      (u.mstate ≠ 2 ∨ isRef u = true → exec (.timeSyncReply t2 t3 t4) s = .next u) ∧
      (u.mstate = 2 → isRef u = false → u.mesh.firstEx = true → 256000 < (timeOffset u t2 t3 t4).natAbs → Runs (.timeSyncReply t2 t3 t4) s fun t =>
        t.evt.time = u.evt.time + BitVec.ofInt 64 (timeOffset u t2 t3 t4 / 256) ∧ t.mesh.good = 0 ∧ t.mesh.firstEx = false ∧ t.mesh.missed = 0 ∧
        t.getF Reg.mshTimeStatus 18 0 = offsetField (timeOffset u t2 t3 t4) % 2 ^ 19 ∧ KeepRegs [Reg.mshTimeStatus] u t))) ∧
  (∀ who v s, Live who s →
    (isRef s = true → Runs (.timeSet who v) s fun t => t.evt.time = BitVec.ofNat 64 (fld v 27 0 <<< 36 ||| s.mesh.timeSetLo.toNat) ∧ t.regs = s.regs) ∧
    (isRef s = false → exec (.timeSet who v) s = .next ((begin who s).setB Reg.mshTimeStatus 32 true)) ∧
    ((∀ p : Fin 8, s.fn (.mesh p) = fnOff) → exec (.nodeCfgWrite who v) s = .next ((begin who s).setReg Reg.mshNodeCfg (wd (v.toNat &&& 0xFFFFFF1)))) ∧
    ((∃ p : Fin 8, s.fn (.mesh p) ≠ fnOff) → exec (.nodeCfgWrite who v) s = .next (begin who s)))

/-- Traps, MRET, a double fault, WFI, EBREAK and the core's interrupt (R341, R346, R347, R350, R385). -/
def Obligations.CoreTraps : Prop :=
  (∀ i (cause : BitVec 31) pc tval s, coreUp s = true → ¬ (i = false ∧ accessFault cause.toNat = true ∧ inFault s = true) →
    Runs (.trapEntry i cause pc tval) s fun t => t.csr csrMepc = pc ∧ t.csr csrMcause = BitVec.ofNat 32 (i.toNat <<< 31 ||| cause.toNat) ∧ t.csr csrMtval = tval ∧
      t.csr csrMstatus = mstatusTrap (s.csr csrMstatus) ∧ t.core.pc = trapPc s i cause.toNat ∧ t.core.resv = none ∧ t.core.wfi = false ∧ t.core.staging = 0 ∧ t.core.latchValid = false ∧
      t.csr csrMstage = BitVec.ofNat 32 (s.core.latchValid.toNat <<< 8 ||| s.core.latchNib.toNat <<< 4 ||| s.core.staging.toNat) ∧ t.csr csrMstagea = BitVec.ofNat 32 s.core.latchAddr.toNat ∧
      inFault t = (inFault s || (!i && accessFault cause.toNat)) ∧ t.core.gpr = s.core.gpr ∧ t.scr = s.scr ∧ KeepRegs [Reg.flcXipStatus, Reg.dbgTraceCtrl] s t) ∧
  (∀ i cause pc tval s, coreUp s = false →
    exec (.trapEntry i cause pc tval) s = .next s ∧ (∀ m, exec (.doubleFault m pc) s = .next s) ∧ exec (.coreInterrupt pc) s = .next s ∧ exec .mret s = .next s ∧
    exec (.wfi pc) s = .next s ∧ exec (.ebreak pc) s = .next s) ∧
  (∀ s, coreRuns s = true → Runs .mret s fun t => t.core.pc = s.csr csrMepc ∧ t.csr csrMstatus = mstatusRet (s.csr csrMstatus) ∧ inFault t = false ∧
    t.core.staging = BitVec.ofNat 4 (fld (s.csr csrMstage) 3 0) ∧ t.core.latchNib = BitVec.ofNat 4 (fld (s.csr csrMstage) 7 4) ∧ t.core.latchValid = (s.csr csrMstage).getLsbD 8 ∧
    t.core.latchAddr = BitVec.ofNat 24 (fld (s.csr csrMstagea) 23 0) ∧ t.core.gpr = s.core.gpr ∧ t.scr = s.scr ∧ KeepRegs [Reg.flcXipStatus, Reg.dbgTraceCtrl] s t) ∧
  (∀ (m : BitVec 4) pc s, coreUp s = true → inFault s = true → accessFault m.toNat = true →
    (attached s = true → Runs (.doubleFault m pc) s fun t => t.core.halted = true ∧ t.core.pc = pc ∧ Logged 0x70B 0 (m.toNat <<< 32 ||| pc.toNat) s t) ∧
    (attached s = false → s.boot.nrstLow = false → Runs (.doubleFault m pc) s fun t => t.mode = .failsafe)) ∧
  (∀ pc s, coreRuns s = true →
    (exec (.wfi pc) s = .next { s with core := { s.core with pc := pc, wfi := !irqWaits s } }) ∧
    (attached s = true → Runs (.ebreak pc) s fun t => t.core.halted = true ∧ t.core.pc = pc ∧ t.csr csrDcsr = 0x40000043 ∧ t.regs = s.regs) ∧
    (attached s = false → Runs (.ebreak pc) s fun t => t.csr csrMepc = pc ∧ t.csr csrMcause = 3 ∧ t.core.pc = trapPc s false 3 ∧ KeepRegs [Reg.dbgTraceCtrl] s t)) ∧
  (∀ (m : BitVec 4) pc s, inFault s = false ∨ accessFault m.toNat = false → exec (.doubleFault m pc) s = .next s) ∧
  (∀ pc s, coreUp s = true →
    (meip s = false ∨ (s.csr csrMie).getLsbD 11 = false → exec (.coreInterrupt pc) s = .next s) ∧
    (meip s = true → (s.csr csrMie).getLsbD 11 = true → (s.csr csrMstatus).getLsbD 3 = false → exec (.coreInterrupt pc) s = .next { s with core := { s.core with wfi := false } }) ∧
    (meip s = true → (s.csr csrMie).getLsbD 11 = true → (s.csr csrMstatus).getLsbD 3 = true → Runs (.coreInterrupt pc) s fun t =>
      t.csr csrMepc = pc ∧ t.csr csrMcause = 0x8000000B ∧ t.core.pc = trapPc s true 11 ∧ t.csr csrMstatus = mstatusTrap (s.csr csrMstatus) ∧ t.core.wfi = false ∧ KeepRegs [Reg.dbgTraceCtrl] s t))

/-- Loads, stores, atomics and register accesses of the Vatman core, and the exceptions they leave for the trap (R343 to R348). -/
def Obligations.CoreAccesses : Prop :=
  (∀ addr wid f d op s, coreRuns s = false → ∀ c ∈ [Instr.scratchpadLoad addr wid f, .scratchpadStore addr wid d, .scratchpadBitSet addr d, .scratchpadBitClear addr d,
    .lr addr, .sc addr d, .amo op addr d, .nibbleWrite addr d, .nibbleRead addr, .coreRegisterRead addr wid, .coreRegisterWrite addr wid d], exec c s = .next s) ∧
  (∀ addr wid d op s, coreRuns s = true →
    (aligned addr wid = false → exec (.scratchpadLoad addr wid false) s = .next (coreExc 4 addr s) ∧ exec (.scratchpadStore addr wid d) s = .next (coreExc 6 addr s)) ∧
    (aligned addr .word = false → exec (.lr addr) s = .next (coreExc 4 addr s) ∧
      ∀ c ∈ [Instr.sc addr d, .amo op addr d, .scratchpadBitSet addr d, .scratchpadBitClear addr d, .nibbleWrite addr d], exec c s = .next (coreExc 6 addr s)) ∧
    (aligned addr wid = true → scrRange addr = none → exec (.scratchpadLoad addr wid false) s = .next (coreExc 5 addr s) ∧ exec (.scratchpadLoad addr wid true) s = .next (coreExc 1 addr s) ∧
      exec (.scratchpadStore addr wid d) s = .next (coreExc 7 addr s)) ∧
    (aligned addr .word = true → scrRange addr ≠ some 0 → ∀ c ∈ [Instr.lr addr, .sc addr d, .amo op addr d], exec c s = .next (coreExc 7 addr s))) ∧
  (∀ addr wid (x : Word) s, coreRuns s = true → WordAt s rqCore (scrOff addr) false x →
    (aligned addr wid = true → scrRange addr = some 0 → exec (.scratchpadLoad addr wid false) s =
      .next { s with resp := { who := rqCore, data := x, err := false }, core := { s.core with data := laneGet (low32 x) addr wid } }) ∧
    (aligned addr wid = true → scrRange addr = some 1 → exec (.scratchpadLoad addr wid false) s =
      .next { s with resp := { who := rqCore, data := x, err := false }, core := { s.core with data := laneGet (BitVec.ofNat 32 (fld x 35 32)) addr wid } }) ∧
    (scrRange addr = some 0 → fld x 35 32 ≠ 0 → exec (.scratchpadLoad addr wid true) s = .next (coreExc 1 addr { s with resp := { who := rqCore, data := x, err := false } })) ∧
    (scrRange addr = some 0 → fld x 35 32 = 0 → exec (.scratchpadLoad addr wid true) s =
      .next { s with resp := { who := rqCore, data := x, err := false }, core := { s.core with data := laneGet (low32 x) addr wid } }) ∧
    (aligned addr .word = true → scrRange addr = some 0 → exec (.lr addr) s = .next
      { s with resp := { who := rqCore, data := x, err := false }, core := { s.core with data := low32 x, resv := some (Fin.ofNat 2097152 (scrOff addr)) } })) ∧
  (∀ addr wid d op (x : Word) s, coreRuns s = true → WordAt s rqCore (scrOff addr) true x →
    (aligned addr wid = true → scrRange addr = some 0 → exec (.scratchpadStore addr wid d) s =
      .next { scrSet (scrOff addr) { data := withLow x (lanePut (low32 x) addr wid d) } s with resp := { who := rqCore, data := x, err := false } }) ∧
    (aligned addr wid = true → scrRange addr = some 1 → addr.toNat % 4 = 0 → exec (.scratchpadStore addr wid d) s =
      .next { scrSet (scrOff addr) { data := setFld x 35 32 (fld d 3 0) } s with resp := { who := rqCore, data := x, err := false } }) ∧
    (aligned addr .word = true → scrRange addr = some 2 → exec (.scratchpadBitSet addr d) s =
      .next { scrSet (scrOff addr) { data := withLow x (low32 x ||| lanePut 0 addr .word d) } s with resp := { who := rqCore, data := x, err := false } }) ∧
    (aligned addr .word = true → scrRange addr = some 3 → exec (.scratchpadBitClear addr d) s =
      .next { scrSet (scrOff addr) { data := withLow x (low32 x &&& ~~~(lanePut 0 addr .word d)) } s with resp := { who := rqCore, data := x, err := false } }) ∧
    (aligned addr .word = true → scrRange addr = some 0 → s.core.resv.map Fin.val = some (scrOff addr) → Runs (.sc addr d) s fun t =>
      t.core = { s.core with data := 0, resv := none } ∧ t.regs = s.regs ∧ ∀ j, scrStored t j = if j = scrOff addr then some { data := withLow x d } else scrStored s j) ∧
    (aligned addr .word = true → scrRange addr = some 0 → s.core.resv.map Fin.val ≠ some (scrOff addr) →
      exec (.sc addr d) s = .next { s with core := { s.core with resv := none, data := 1 } }) ∧
    (aligned addr .word = true → scrRange addr = some 0 → Runs (.amo op addr d) s fun t => t.core.data = low32 x ∧ t.regs = s.regs ∧
      ∀ j, scrStored t j = if j = scrOff addr then some { data := withLow x (amoOp op (low32 x) d) } else scrStored s j)) ∧
  (∀ addr d s, coreRuns s = true → aligned addr .word = true →
    (nibbleRange addr = true → exec (.nibbleWrite addr d) s = .next { s with core := { s.core with staging := BitVec.ofNat 4 d.toNat } }) ∧
    (nibbleRange addr = true → s.core.latchValid = true → s.core.latchAddr.toNat = coreReg addr →
      exec (.nibbleRead addr) s = .next { s with core := { s.core with data := s.core.latchNib.zeroExtend 32 } }) ∧
    (nibbleRange addr = true → s.core.latchValid = false → exec (.nibbleRead addr) s = .next (coreFull addr (fun d => BitVec.ofNat 32 (fld d 35 32)) s)) ∧
    (nibbleRange addr = false → exec (.nibbleWrite addr d) s = .next (coreExc 7 addr s) ∧ exec (.nibbleRead addr) s = .next (coreExc 5 addr s)) ∧
    (regRange addr = true → ∀ u, u = regWrite rqCore (coreReg addr) (wd (s.core.staging.toNat <<< 32 ||| d.toNat)) s →
      (u.resp.err = false → exec (.coreRegisterWrite addr .word d) s = .next { u with core := { u.core with staging := 0 } }) ∧
      (u.resp.err = true → exec (.coreRegisterWrite addr .word d) s = .next (coreExc 7 addr { u with core := { u.core with staging := 0 } }))) ∧
    (nibbleRange addr = true → s.core.latchAddr.toNat ≠ coreReg addr → exec (.nibbleRead addr) s = .next (coreFull addr (fun d => BitVec.ofNat 32 (fld d 35 32)) s))) ∧
  (∀ addr wid d s, coreRuns s = true →
    (regRange addr = true → aligned addr wid = true → exec (.coreRegisterRead addr wid) s = .next (coreFull addr (fun d => laneGet (low32 d) addr wid) s)) ∧
    (regRange addr = true → aligned addr wid = false → exec (.coreRegisterRead addr wid) s = .next (coreExc 4 addr s)) ∧
    (regRange addr = false → exec (.coreRegisterRead addr wid) s = .next (coreExc 5 addr s)) ∧
    (regRange addr = false ∨ wid ≠ .word → exec (.coreRegisterWrite addr wid d) s = .next (coreExc 7 addr s)) ∧
    (aligned addr .word = false → (regRange addr = true → exec (.coreRegisterWrite addr .word d) s = .next (coreExc 6 addr s)) ∧
      (nibbleRange addr = true → exec (.nibbleRead addr) s = .next (coreExc 4 addr s))))

/-- Scratchpad accesses by any master, ownership, handover, SHARED_READ, the interrupt controller (R350, R356 to R358, R364). -/
def Obligations.Scratchpad : Prop :=
  (∀ who (off : Fin 2097152) (v x : Word) s, Live who s → ∀ c, (c = (fun w o x => Instr.scratchpadAccess w o ⟨x, [], 0⟩) ∨ c = Instr.beaterYield ∨ c = Instr.beaterAbortOnAccess) →
    (WordAt s who off.val false x → exec (c who off none) s = .next { s with resp := { who := who, data := x, err := false } }) ∧
    (bankServes s who off.val true = 0 → s.scr.beater.running = false →
      Runs (c who off (some v)) s fun t => t.regs = s.regs ∧ ∀ j, scrStored t j = if j = off.val then some { data := v } else scrStored s j) ∧
    (bankServes s who off.val false = 1 → Runs (c who off none) s fun t => t.resp.err = true ∧ t.resp.data = 0 ∧
      Logged 0x804 0 (1 <<< 30 ||| 0 <<< 29 ||| who.toNat <<< 21 ||| off.val) s t) ∧
    (bankServes s who off.val true = 2 → s.getB Reg.scrBeaterXcfg 0 = false → Runs (c who off (some v)) s fun t => t.resp.err = true ∧
      Logged 0x804 0 (2 <<< 30 ||| 1 <<< 29 ||| who.toNat <<< 21 ||| off.val) s t) ∧
    (bankServes s who off.val true = 2 → s.getB Reg.scrBeaterXcfg 0 = true → ∀ u, u = beaterDropBank who (scrBank off.val) (begin who s) → bankServes u who off.val true = 0 →
      exec (c who off (some v)) s = .next (scrPut off.val v u)) ∧
    (bankServes s who off.val false = 0 → ∀ y, s.scr.beater.running = true → s.scr.beater.destruct = false → s.scr.beater.active.getLsbD (scrBank off.val) = true → (scrCell s off.val).chk = .good y →
      Runs (c who off none) s fun t => t.resp = { who := who, data := y, err := false } ∧ t.scr.beater.waiting = s.scr.beater.waiting ||| (1 <<< scrBank off.val) ∧ t.getB Reg.scrBeaterStatus 29 = true)) ∧
  (∀ who (off : Fin 2097152) (v x : Word) more s, Live who s →
    (bankServes s who off.val true = 0 → s.scr.beater.running = false → Runs (.scratchpadAccess who off ⟨some v, more, 0⟩) s fun t => t.regs = s.regs ∧
      ∀ j, scrStored t j = if off.val ≤ j then (((v :: more).take (4 - off.val % 4))[j - off.val]?.map fun w => { data := w }).or (scrStored s j) else scrStored s j) ∧
    (∀ f : Nat → Word, WordAt s who off.val false x → (∀ j, off.val < j → j / 4 = off.val / 4 → (scrCell s j).chk = .good (f j)) →
      exec (.scratchpadAccess who off ⟨none, more, 0⟩) s =
        .next { s with resp := { who := who, data := x, err := false, more := (beatRest off.val more).map fun e => f e.2 } }) ∧
    (∀ write m waits, conflictIx who = some m → 0 < waits → exec (.scratchpadAccess who off ⟨write, more, waits⟩) s =
      exec (.scratchpadAccess who off ⟨write, more, 0⟩) (s.setF (Reg.scrConflict m) 35 0 (min (s.getF (Reg.scrConflict m) 35 0 + waits) (2 ^ 36 - 1))))) ∧
  (∀ who (b : Fin 16) v s, Live who s →
    (bankOwner s b.val = who.toNat → who ≠ 0 → fld v 7 0 = 0 ∨ knownReq (fld v 7 0) = true → fld v 7 0 ≠ who.toNat → Runs (.bankHandover who b v) s fun t =>
      bankOwner t b.val = fld v 7 0 ∧ t.getB (Reg.scrBankCfg b.val) 0 = false ∧ KeepRegs [Reg.scrBankClaim b.val, Reg.scrBankCfg b.val] s t ∧ t.scr = s.scr) ∧
    (bankMine s b.val who = true → exec (.bankCfgWrite who b v) s = .next ((begin who s).setB (Reg.scrBankCfg b.val) 0 (v.getLsbD 0))) ∧
    (bankMine s b.val who = false → Runs (.bankCfgWrite who b v) s fun t => t.resp.err = true ∧ t.reg (Reg.scrBankCfg b.val) = s.reg (Reg.scrBankCfg b.val))) ∧
  (∀ who v s, Live who s →
    (irqBest s = 0 → ∀ peek, exec (.irqTake who peek) s = .next { s with resp := { who := who, data := 0, err := false } }) ∧
    (∀ peek, peeks who peek = true → exec (.irqTake who peek) s = .next { s with resp := { who := who, data := wd (irqBest s), err := false } }) ∧
    (∀ peek, peeks who peek = false → irqBest s ≠ 0 → Runs (.irqTake who peek) s fun t => t.resp = { who := who, data := wd (irqBest s), err := false } ∧ t.scr.inService = s.scr.inService ++ [irqBest s] ∧
      (irqIsLevel (irqBest s) = true → t.regs = s.regs) ∧
      (irqIsLevel (irqBest s) = false → irqBest s < 128 → t.getB (Reg.scrIrqPend (irqBest s / 32)) (irqBest s % 32) = false ∧ KeepRegs [Reg.scrIrqPend (irqBest s / 32)] s t)) ∧
    (Runs (.irqDone who v) s fun t => t.scr.inService = s.scr.inService.filter (· ≠ fld v 6 0) ∧ t.regs = s.regs))

/-- Beater runs: start, refusal, abort, end, block restart (R360 to R368). -/
def Obligations.BeaterRuns : Prop :=
  (∀ who (v : Word) s u, Live who s → u = (begin who s).setReg Reg.scrBeaterCtrl (wd ((v ||| 1).toNat &&& 0xFFFF0703 ||| ((s.reg Reg.scrBeaterCtrl).toNat &&& 0xF0))) →
    (s.fn .beater ≠ fnOff → exec (.beaterStart who v) s = .next u) ∧
    (∀ banks d, banks = BitVec.ofNat 16 (u.getF Reg.scrBeaterCtrl 31 16) → d = u.getB Reg.scrBeaterCtrl 9 → s.fn .beater = fnOff →
      (beaterReason u banks d = 0 → Runs (.beaterStart who v) s fun t => t.fn .beater = fnStarting ∧ t.getB Reg.scrBeaterCtrl 0 = true ∧ t.scr.mem = s.scr.mem ∧ t.scr.beater =
        { running := true, destruct := d, ss := u.getB Reg.scrBeaterCtrl 8, repair := u.getB Reg.scrBeaterCtrl 10, banks := banks, active := banks, fromSvc := false } ∧
        KeepRegs [Reg.scrBeaterFail, Reg.scrBeaterStatus, Reg.scrBeaterCtrl] u t) ∧
      (beaterReason u banks d ≠ 0 → Runs (.beaterStart who v) s (Raises 0x808 0 (beaterReason u banks d) (u.setB Reg.scrBeaterCtrl 0 false) s)))) ∧
  (∀ who (v : Word) s u, Live who s → u = (begin who s).setReg Reg.scrBeaterCtrl (wd ((v &&& ~~~(1 : Word)).toNat &&& 0xFFFF0703 ||| ((s.reg Reg.scrBeaterCtrl).toNat &&& 0xF0))) →
    (s.scr.beater.running = false → s.fn .beater ≠ fnStarting → exec (.beaterAbort who v) s = .next u) ∧
    (s.fn .beater = fnStarting → exec (.beaterAbort who v) s = .next { u with scr := { s.scr with beater := { s.scr.beater with stopBy := who } } }) ∧
    (s.scr.beater.running = true → s.fn .beater ≠ fnStarting → ∃ w, w.scr.beater = {} ∧ w.fn .beater = fnStopping ∧ w.getF Reg.scrBeaterStatus 31 30 = 3 ∧
      w.getF Reg.scrBeaterStatus 29 29 = 0 ∧ w.getB Reg.scrBeaterCtrl 0 = false ∧ (s.scr.beater.destruct = false → w.scr = { s.scr with beater := {} }) ∧
      Runs (.beaterAbort who v) s (Raises 0x807 0 (2 <<< 12 ||| who.toNat <<< 4 ||| lowBank s.scr.beater.active) w s))) ∧
  (∀ s, exec .beaterBlockRestart s = .next (State.setB { s with scr := { s.scr with beater := { s.scr.beater with waiting := 0 } } } Reg.scrBeaterStatus 29 false)) ∧
  (∀ fails s, (s.scr.beater.running = false ∨ s.fn .beater ≠ fnOn ∨ rootStopped s = true → exec (.beaterRunComplete fails) s = .next s) ∧
    (s.scr.beater.running = true → s.fn .beater = fnOn → rootStopped s = false → exec (.beaterRunComplete fails) s =
      .next (if s.scr.beater.fromSvc then testEnd (beaterEnd fails s).1 (beaterEnd fails s).2 else (beaterEnd fails s).2)) ∧
    (s.scr.beater.running = true → s.fn .beater = fnOn → rootStopped s = false → s.scr.beater.fromSvc = false → s.scr.beater.destruct = false → ∃ u, u.getF Reg.scrBeaterStatus 31 30 = 1 ∧ u.getF Reg.scrBeaterStatus 29 29 = 0 ∧ u.fn .beater = fnStopping ∧
      u.getB Reg.scrBeaterCtrl 0 = false ∧ u.scr = { s.scr with beater := {} } ∧ Runs (.beaterRunComplete []) s (Raises 0x805 0 s.scr.beater.banks.toNat u s)))
/-- The core's serial controllers and timers (R351 to R353, R368). -/
def Obligations.Peripherals : Prop :=
  (∀ who (k : Fin 2) v s, Live who s → ∀ c n, (c, n) ∈ [(Instr.uartTx who k v, k.val), (.spiTx who k v, k.val + 2), (.i2cTx who k v, k.val + 4)] →
    (periphMine (Reg.scrSerClaim n) who s = true → (s.ser n).tx.length < 64 → Runs c s fun t => t.regs = s.regs ∧ t.ser n = { s.ser n with tx := (s.ser n).tx ++ [wd (v.toNat &&& serTxMask n)] } ∧
      ∀ j, j ≠ n → t.ser j = s.ser j) ∧
    (periphMine (Reg.scrSerClaim n) who s = true → 64 ≤ (s.ser n).tx.length → Runs c s fun t => t.regs = s.regs ∧ t.ser n = { s.ser n with ovf := (s.ser n).ovf + 1 }) ∧
    (periphMine (Reg.scrSerClaim n) who s = false → exec c s = .next { s with resp := { who := who, data := 0, err := true } })) ∧
  (∀ who (k : Fin 2) s, Live who s → periphMine (Reg.scrSerClaim k.val) who s = true →
    ((s.ser k.val).rx = [] → ∀ peek, exec (.uartRxRead who k peek) s = .next { s with resp := { who := who, data := serEmpty k.val, err := false } }) ∧
    (∀ e rest, (s.ser k.val).rx = e :: rest → ∀ peek, (peeks who peek = true → exec (.uartRxRead who k peek) s = .next { s with resp := { who := who, data := e, err := false } }) ∧
      (peeks who peek = false → Runs (.uartRxRead who k peek) s fun t => t.resp = { who := who, data := e, err := false } ∧ t.ser k.val = { s.ser k.val with rx := rest } ∧ t.regs = s.regs))) ∧
  (∀ (k : Fin 2) (d : Byte) pe fe s, (s.fn (.serial (Fin.ofNat 6 k.val)) ≠ fnOn ∨ rootStopped s = true → exec (.uartByteReceived k d pe fe) s = .next s) ∧
    (s.fn (.serial (Fin.ofNat 6 k.val)) = fnOn → rootStopped s = false → s.getB (Reg.scrUartCfg k.val) 0 = false → (s.pn (673 + 2 * k.val)).stage = .none → (s.pn (673 + 2 * k.val)).masked = false → pinRow s (673 + 2 * k.val) = 11 →
      exec (.uartByteReceived k d pe fe) s = .next (serStore k.val (d.toNat ||| pe.toNat <<< 8 ||| fe.toNat <<< 9) s))) ∧
  (∀ (k : Fin 6) rx nak s, ((s.ser k.val).tx = [] ∨ s.fn (.serial k) ≠ fnOn ∨ rootStopped s = true → exec (.peripheralTransferComplete k rx nak) s = .next s) ∧
    (∀ e rest u, (s.ser k.val).tx = e :: rest → s.fn (.serial k) = fnOn → rootStopped s = false → u = s.setSer k.val { s.ser k.val with tx := rest } →
      (k.val < 2 → s.getB (Reg.scrUartCfg k.val) 0 = false → exec (.peripheralTransferComplete k rx nak) s = .next u) ∧
      (k.val < 2 → s.getB (Reg.scrUartCfg k.val) 0 = true → exec (.peripheralTransferComplete k rx nak) s = .next (serStore k.val (e.toNat % 256) u)) ∧
      (2 ≤ k.val → k.val < 4 → exec (.peripheralTransferComplete k rx nak) s = .next (serStore k.val (rx.toNat % 2 ^ serWidth u k.val) u)) ∧
      (4 ≤ k.val → exec (.peripheralTransferComplete k rx nak) s = .next (serStore k.val (rx.toNat % 256 ||| nak.toNat <<< 8) u)))) ∧
  (∀ (k : Fin 16) s, (s.fn (.tmr k) ≠ fnOn ∨ rootStopped s = true → exec (.timerMatch k) s = .next s ∧ exec (.timerCapture k) s = .next s) ∧
    (s.fn (.tmr k) = fnOn → rootStopped s = false → tmrMode s k.val ≠ 0 → Runs (.timerMatch k) s fun t => t.reg (Reg.scrTmrCount k.val) = 0 ∧ KeepRegs [Reg.scrTmrCount k.val, Reg.scrIrqPend 1] s t ∧
      (s.getB (Reg.scrTmrCfg k.val) 7 = false ∨ tmrMode s k.val = 3 → t.reg (Reg.scrIrqPend 1) = s.reg (Reg.scrIrqPend 1)) ∧
      (s.getB (Reg.scrTmrCfg k.val) 7 = true → tmrMode s k.val ≠ 3 → t.getB (Reg.scrIrqPend 1) k.val = true)) ∧
    (s.fn (.tmr k) = fnOn → rootStopped s = false → tmrMode s k.val = 0 → s.getB (Reg.scrTmrCfg k.val) 7 = false →
      exec (.timerMatch k) s = .next (periphRelease (.tmr k) (tmrPin k.val false ((s.setB (Reg.scrTmrCtrl k.val) 0 false).setFn (.tmr k) fnOff)))) ∧
    (s.fn (.tmr k) = fnOn → rootStopped s = false → tmrMode s k.val = 3 → s.getB (Reg.scrTmrCfg k.val) 8 = true → (s.pn (694 + k.val)).conn = 2 → (s.pn (694 + k.val)).stage = .none → (s.pn (694 + k.val)).masked = false →
      pinRow s (694 + k.val) = 11 → s.getB (Reg.scrTmrCfg k.val) 7 = false → exec (.timerCapture k) s = .next (s.setReg (Reg.scrTmrCmpB k.val) (s.reg (Reg.scrTmrCount k.val)))))

/-- Flash descriptors: indices, fetch, dispatch, operations, completion (R375 to R380, R384, R389, R394). -/
def Obligations.FlashDescriptors : Prop :=
  (∀ who v s, Live who s →
    (v.getLsbD 6 = false → (s.getF Reg.flcDescWr 5 0 + 64 - s.getF Reg.flcCmplRd 5 0) % 64 ≤ (fld v 5 0 + 64 - s.getF Reg.flcCmplRd 5 0) % 64 →
      exec (.descWrWrite who v) s = .next ((begin who s).setF Reg.flcDescWr 5 0 (fld v 5 0))) ∧
    (v.getLsbD 6 = false → (fld v 5 0 + 64 - s.getF Reg.flcCmplRd 5 0) % 64 < (s.getF Reg.flcDescWr 5 0 + 64 - s.getF Reg.flcCmplRd 5 0) % 64 →
      exec (.descWrWrite who v) s = .next ((begin who s).setB Reg.flcDescWr 6 true)) ∧
    (exec (.cmplRdWrite who v) s = .next ((begin who s).setF Reg.flcCmplRd 5 0 (fld v 5 0)))) ∧
  (∀ s rd, rd = s.getF Reg.flcDescRd 5 0 →
    (flcWorks s = false ∨ s.fn .flc ≠ fnOn ∨ 16 ≤ s.flash.descs.length ∨ rd = s.getF Reg.flcDescWr 5 0 → exec .descriptorFetch s = .next s) ∧
    (∀ w0 w1 w2 w3, flcWorks s = true → s.fn .flc = fnOn → s.flash.descs.length < 16 → rd ≠ s.getF Reg.flcDescWr 5 0 → (rd + 64 - s.getF Reg.flcCmplRd 5 0) % 64 < 63 →
      WordAt s 0 (ringBase s + 4 * rd) false w0 → WordAt s 0 (ringBase s + 4 * rd + 1) false w1 → WordAt s 0 (ringBase s + 4 * rd + 2) false w2 → WordAt s 0 (ringBase s + 4 * rd + 3) false w3 →
      exec .descriptorFetch s = .next (State.setF { s with flash := { s.flash with descs := s.flash.descs ++ [{ d := ⟨w0, w1, w2, w3⟩ }] } } Reg.flcDescRd 5 0 (rd + 1)))) ∧
  (∀ k s, s.flash.descs[k]? = none → ∀ ok, ∀ c ∈ [Instr.descriptorDispatch k, .flashRead k, .flashProgram k ok, .flashErase k ok, .flashVerify k, .flashBlank k, .marginRead k, .swapBoot k, .descriptorComplete k],
    exec c s = .next s) ∧
  (∀ k d s, s.flash.descs[k]? = some d → d.active = false → d.result = none → flcWorks s = true →
    (s.fn .flc = fnStopping → exec (.descriptorDispatch k) s = .next (descSet k
      { (if descBad s d then d else { d with bank := Fin.ofNat 16 (bankOf (descSector s d)), sector := BitVec.ofNat 9 (descSector s d % 512) }) with
        result := some (if descRefused s d = 0 then 0xE else BitVec.ofNat 4 (descRefused s d)) } s)) ∧
    (s.fn .flc ≠ fnOn → s.fn .flc ≠ fnStopping → exec (.descriptorDispatch k) s = .next s) ∧
    (s.fn .flc = fnOn → descBad s d = true → exec (.descriptorDispatch k) s = .next (descSet k { d with result := some 2 } s)) ∧
    (s.fn .flc = fnOn → descBad s d = false → descWaits s k d = true → exec (.descriptorDispatch k) s = .next s) ∧
    (s.fn .flc = fnOn → descBad s d = false → descWaits s k d = false → descRefused s d ≠ 0 → exec (.descriptorDispatch k) s = .next (descSet k
      { d with bank := Fin.ofNat 16 (bankOf (descSector s d)), sector := BitVec.ofNat 9 (descSector s d % 512), result := some (BitVec.ofNat 4 (descRefused s d)) } s)) ∧
    (s.fn .flc = fnOn → descBad s d = false → descWaits s k d = false → descRefused s d = 0 → d.op ≠ 3 → exec (.descriptorDispatch k) s = .next (descSet k
      { d with bank := Fin.ofNat 16 (bankOf (descSector s d)), sector := BitVec.ofNat 9 (descSector s d % 512), active := true } s)) ∧
    (s.fn .flc = fnOn → descBad s d = false → descWaits s k d = false → descRefused s d = 0 → d.op = 3 → ∃ u, u = descSet k
      { d with bank := Fin.ofNat 16 (bankOf (descSector s d)), sector := BitVec.ofNat 9 (descSector s d % 512), active := true } s ∧
      exec (.descriptorDispatch k) s = .next (jrnlPut 1 (wd (descSector s d <<< 8)) 0 [] (jrnlRoom 2 u)))) ∧
  (∀ k d s,
    (DescAt s k 1 d → exec (.flashRead k) s = .next (descSet k (descPages runRead d s).1 (descPages runRead d s).2)) ∧
    (DescAt s k 2 d → exec (.flashProgram k true) s = .next (descSet k (descPages (fun d => runProgram d none) d s).1 (descPages (fun d => runProgram d none) d s).2) ∧
      ∃ page, exec (.flashProgram k false) s = .next (descSet k (descPages (fun d => runProgram d (some page)) d s.draw).1 (descPages (fun d => runProgram d (some page)) d s.draw).2)) ∧
    (DescAt s k 3 d → exec (.flashErase k true) s = .next (descSet k { d with result := some 0 } (eraseDone d.id (d.d.w0.getLsbD 22) (sectorWipe d.id s))) ∧
      exec (.flashErase k false) s = .next (descSet k { d with result := some 0xB } (raise 0x701 0 (1 <<< 24 ||| d.id <<< 8) (flashCutAt (sectorFa d.id) 32768 s)))) ∧
    (DescAt s k 4 d → exec (.flashVerify k) s = .next (descSet k (descPages runVerify d s).1 (descPages runVerify d s).2)) ∧
    (DescAt s k 5 d → exec (.flashBlank k) s = .next (descSet k (descPages runBlank d s).1 (descPages runBlank d s).2)) ∧
    (DescAt s k 6 d → exec (.marginRead k) s = .next (descSet k (descPages runMargin d s).1 (descPages runMargin d s).2)) ∧
    (DescAt s k 7 d → ∀ r c twin, r = twinWords twin s → twin = d.d.w3.getLsbD 0 → c = bootBlockChk r.1 → Runs (.swapBoot k) s fun t =>
      (c ≠ 0 → t = descSet k { d with result := some 0xD } (raise 0x709 0 (c <<< 1 ||| twin.toNat) r.2)) ∧
      (c = 0 → bootForce s = none → ∃ u, t = descSet k { d with result := some 0, detail := 1 } (raise 0x708 0 (1 <<< 1 ||| twin.toNat) u) ∧
        u = bootJrnlShow (flashPut (sectorFa d.id) ([0xB0A000000, 1, wd twin.toNat] ++ [crcWord [0xB0A000000, 1, wd twin.toNat]]) (sectorWipe d.id r.2))))) ∧
  (∀ k d st s, s.flash.descs[k]? = some d → d.result = some st → flcWorks s = true → (∀ e ∈ s.flash.descs.take k, e.bank ≠ d.bank) → s.scr.beater.running = false → beaterHeld s = 0 → ∀ n, n = s.getF Reg.flcCmplWr 5 0 →
    ∃ u, u = scrSet (ringBase s + 256 + 2 * n + 1) { data := d.detail }
      (scrSet (ringBase s + 256 + 2 * n) { data := wd (fld d.d.w0 35 24 <<< 24 ||| st.toNat <<< 20 ||| d.bank.val <<< 16 ||| d.pages % 512) } s) ∧
    exec (.descriptorComplete k) s = .next (irqPulse 16 (State.setF { u with flash := { u.flash with descs := s.flash.descs.eraseIdx k } } Reg.flcCmplWr 5 0 (n + 1))))
/-- Gap moves, recovery, the fetched bank's mark, FLC.RECOV and execute in place (R382 to R392, R397). -/
def Obligations.FlashWear : Prop :=
  (∀ s, (s.getB Reg.flcStatus 35 = false ∨ flcWorks s = false ∨ s.flash.recov ≠ [] → exec .gapMove s = .next s) ∧
    (flcWorks s = true → s.getB Reg.flcStatus 35 = true → s.flash.move = none → s.flash.recov = [] → bankQuiet s (bankOf (windowSector (movePlan s).2)) = true → bankQuiet s (jrnlBank s) = true →
      bankTaken s (bankOf (windowSector (movePlan s).1)) = false → Runs .gapMove s fun t => t.flash.move = some (movePlan s) ∧ t.getB Reg.flcStatus 35 = false)) ∧
  (∀ s, (s.flash.move = none ∨ flcWorks s = false → exec .gapMoveComplete s = .next s) ∧
    (s.flash.move ≠ none → flcWorks s = true → Runs .gapMoveComplete s fun t => t.flash.move = none)) ∧
  (∀ s, (flcWorks s = false → exec .recoveryCheck s = .next s ∧ exec .recoveryErase s = .next s) ∧
    (flcWorks s = true → Runs .recoveryCheck s fun t => t.flash.mem = s.flash.mem ∧ ∃ l, t.flash.recov = s.flash.recov ++ l) ∧
    (s.flash.recov = [] → exec .recoveryErase s = .next s) ∧
    (∀ q rest, s.flash.recov = q :: rest → flcWorks s = true → bankQuiet s (bankOf q.toNat) = true → bankQuiet s (jrnlBank s) = true → exec .recoveryErase s = .next
      (eraseDone q.toNat false (sectorWipe q.toNat (jrnlPut 1 (wd (q.toNat <<< 8)) 0 [] (jrnlRoom 2 s)))))) ∧
  (∀ (b : Fin 16) s, exec (.fetchedExpiry b) s = .next (s.setB Reg.flcBankStatus b.val false)) ∧
  (∀ who s, Live who s →
    (s.flash.reports = [] → ∀ peek, exec (.flcRecovRead who peek) s = .next { s with resp := { who := who, data := 1, err := false } }) ∧
    (∀ w ws, s.flash.reports = w :: ws → ∀ peek, (peeks who peek = true → exec (.flcRecovRead who peek) s = .next { s with resp := { who := who, data := w, err := false } }) ∧
      (peeks who peek = false → exec (.flcRecovRead who peek) s = .next { s with resp := { who := who, data := w, err := false }, flash := { s.flash with reports := ws } }))) ∧
  (∀ addr s, (coreRuns s = false → exec (.xipFetch addr .fetch) s = .next s ∧ exec (.xipFetch addr .load) s = .next s) ∧
    (coreRuns s = true → xipRange addr = false → exec (.xipFetch addr .fetch) s = .next (coreExc 1 addr s) ∧ exec (.xipFetch addr .load) s = .next (coreExc 5 addr s)) ∧
    (dbgLevel s ≠ 2 ∨ allAnswer s = false → exec (.xipFetch addr .debug) s = .next (begin rqDbg s)) ∧
    (∀ w l id a u (x : Word), w = addr.toNat / 4 % 2 ^ 26 → l = w / 32768 → id = logicalId s l → a = sectorFa id + w % 32768 → ((xipHit a s).isSome = true ∨ bankBusy s (bankOf id) = false) →
      isQueued s id = false → ((xipHit a s).getD (s.fa a)).chk = .good x → u = (if (xipHit a s).isSome then s else xipFill a s) →
      (coreRuns s = true → xipRange addr = true → isXo s l = false → exec (.xipFetch addr .load) s = .next { u with resp := { who := rqCore, data := x, err := false }, core := { s.core with data := low32 x } }) ∧
      (coreRuns s = true → xipRange addr = true → Runs (.xipFetch addr .fetch) s fun t => t.flash = u.flash ∧ t.getB Reg.flcBankStatus (bankOf id) = true ∧ KeepRegs [Reg.flcBankStatus] s t ∧
        (fld x 35 32 = 0 → t.core = { s.core with data := low32 x }) ∧ (fld x 35 32 ≠ 0 → t.core = { s.core with exc := some (1, addr) })) ∧
      (dbgLevel s = 2 → allAnswer s = true → isXo s l = false → exec (.xipFetch addr .debug) s = .next { u with resp := { who := rqDbg, data := x, err := false } })) ∧
    (∀ w l id a, w = addr.toNat / 4 % 2 ^ 26 → l = w / 32768 → id = logicalId s l → a = sectorFa id + w % 32768 → coreRuns s = true → xipRange addr = true → isXo s l = false →
      isQueued s id = true ∨ (xipHit a s = none ∧ bankBusy s (bankOf id) = true) → Runs (.xipFetch addr .load) s fun t => t.core.exc = some (5, addr) ∧ Logged 0x704 0 (rqCore.toNat <<< 28 ||| a) s t) ∧
    (∀ w l, w = addr.toNat / 4 % 2 ^ 26 → l = w / 32768 → coreRuns s = true → xipRange addr = true → isXo s l = true → Runs (.xipFetch addr .load) s fun t =>
      t.core.exc = some (5, addr) ∧ Logged 0x705 0 (rqCore.toNat <<< 28 ||| (sectorFa (logicalId s l) + w % 32768)) s t) ∧
    (∀ a, (xipFill a s).flash.xip.length ≤ 4 ∧ ∀ b, xipHit a s = none → b / 128 = a / 128 → xipHit b (xipFill a s) = some (s.fa b)) ∧
    (∀ lo n a, lo ≤ a → a < lo + n → xipHit a (xipDrop lo n s) = none))

/-- Writes of a pin's registers: ownership, function switches and their refusals, GPIO and delay fields (R399, R402, R403, R407, R411, R413, R414, R419). -/
def Obligations.PinWrites : Prop :=
  (∀ who (i : Fin 720) v s, Live who s → ∀ c a, (c = Instr.pinCfgWrite who i v ∧ a = Reg.pinCfg i.val ∨ c = Instr.gpioWrite who i v ∧ a = Reg.pinGpio i.val ∨ c = Instr.pinDlyWrite who i v ∧ a = Reg.pinDly i.val) →
    (pinWho s i.val who = false → Runs c s fun t => t.resp = { who := who, data := 0, err := true } ∧ t.reg a = s.reg a ∧ t.pin = s.pin ∧
      Logged 0x902 0 (1 <<< 18 ||| who.toNat <<< 10 ||| i.val) s t) ∧
    (pinWho s i.val who = true → pinOddDiff s i.val = true → Runs c s fun t => t = { begin who s with pin := t.pin })) ∧
  (∀ who (i : Fin 720) v s, Live who s → pinWho s i.val who = true → pinOddDiff s i.val = false → ∀ w, w = setFld (setFld (s.reg (Reg.pinCfg i.val)) 33 22 (fld v 33 22)) 18 14 (fld v 18 14) →
    ((s.pn i.val).stage = .none → fld v 35 34 = (s.pn i.val).conn.toNat → Runs (.pinCfgWrite who i v) s fun t => t.reg (Reg.pinCfg i.val) = w ∧ KeepRegs [Reg.pinCfg i.val] s t ∧
      (t.pn i.val).stage = .none ∧ (t.pn i.val).conn = (s.pn i.val).conn ∧ t.resp = { who := who, data := 0, err := false } ∧ ∀ j, j ≠ i.val → j ≠ pairPin i.val → t.pn j = s.pn j) ∧
    ((s.pn i.val).stage = .none → fld v 35 34 ≠ (s.pn i.val).conn.toNat → fld v 35 34 = 0 ∨ fld v 35 34 = 1 ∧ s.getB (Reg.pinCfg i.val) 11 = true → Runs (.pinCfgWrite who i v) s fun t =>
      t.reg (Reg.pinCfg i.val) = setFld w 35 34 (fld v 35 34) ∧ KeepRegs [Reg.pinCfg i.val] s t ∧ (t.pn i.val).stage = .parked ∧ (t.pn i.val).conn = (s.pn i.val).conn ∧
      (t.pn i.val).parkNow.toNat = fld v 33 32 ∧ t.resp = { who := who, data := 0, err := false } ∧ ∀ j, j ≠ i.val → j ≠ pairPin i.val → t.pn j = s.pn j) ∧
    ((s.pn i.val).stage ≠ .none → fld v 35 34 = 0 ∨ fld v 35 34 = 1 ∧ s.getB (Reg.pinCfg i.val) 11 = true → Runs (.pinCfgWrite who i v) s fun t =>
      t.reg (Reg.pinCfg i.val) = w ∧ KeepRegs [Reg.pinCfg i.val] s t ∧ (t.pn i.val).stage = (s.pn i.val).stage ∧ (t.pn i.val).heldFunc = some (BitVec.ofNat 2 (fld v 35 34)) ∧
      t.resp = { who := who, data := 0, err := false }) ∧
    ((s.pn i.val).stage ≠ .none ∨ fld v 35 34 ≠ (s.pn i.val).conn.toNat → (2 ≤ fld v 35 34 ∨ fld v 35 34 = 1 ∧ s.getB (Reg.pinCfg i.val) 11 = false) → Runs (.pinCfgWrite who i v) s fun t =>
      t.reg (Reg.pinCfg i.val) = w ∧ (t.pn i.val).stage = (s.pn i.val).stage ∧ (t.pn i.val).heldFunc = (s.pn i.val).heldFunc ∧ t.resp = { who := who, data := 0, err := false } ∧
      Logged 0x902 0 ((if 2 ≤ fld v 35 34 then 3 else 2) <<< 18 ||| who.toNat <<< 10 ||| i.val) s t)) ∧
  (∀ who (i : Fin 720) v s, Live who s → pinWho s i.val who = true → pinOddDiff s i.val = false →
    (Runs (.gpioWrite who i v) s fun t => t.getF (Reg.pinGpio i.val) 1 0 = fld v 1 0 ∧ t.getF (Reg.pinGpio i.val) 8 6 = fld v 8 6 ∧
      t.getB (Reg.pinGpio i.val) 5 = (s.getB (Reg.pinGpio i.val) 5 && !v.getLsbD 5) ∧ KeepRegs [Reg.pinGpio i.val] s t ∧ (t.pn i.val).stage = (s.pn i.val).stage ∧ t.resp = { who := who, data := 0, err := false }) ∧
    (s.getB (Reg.pinCfg (i.val - i.val % 2)) 12 = false → Runs (.pinDlyWrite who i v) s fun t => t.getF (Reg.pinDly i.val) 8 0 = fld v 8 0 ∧ t.getF (Reg.pinDly i.val) 9 9 = fld v 9 9 ∧
      t.getB (Reg.pinDly i.val) 10 = (fld v 8 0 != (s.pn i.val).tapAt.toNat) ∧ KeepRegs [Reg.pinDly i.val] s t ∧ t.resp = { who := who, data := 0, err := false }) ∧
    (s.getB (Reg.pinCfg (i.val - i.val % 2)) 12 = true → (s.pn (i.val - i.val % 2)).img3.getLsbD 4 = true → Runs (.pinDlyWrite who i v) s fun t => t = { begin who s with pin := t.pin }))

/-- What happens at a pin: the steps of a switch, an edge, the aligner's lock, a delay move's end, the end of a mask (R402, R403, R407, R410, R411, R413). -/
def Obligations.PinEvents : Prop :=
  (∀ (i : Fin 720) s,
    ((s.pn i.val).stage = .parked → Runs (.parkEnd i) s fun t => (t.pn i.val).stage = .masked ∧ (t.pn i.val).conn.toNat = s.getF (Reg.pinCfg i.val) 35 34 ∧ t.regs = s.regs ∧ t.resp = s.resp) ∧
    ((s.pn i.val).stage ≠ .parked → exec (.parkEnd i) s = .next s) ∧
    ((s.pn i.val).stage = .masked → ((s.pn i.val).heldFunc = none ∨ (s.pn i.val).heldFunc = some (s.pn i.val).conn) →
      exec (.switchUnmask i) s = .next (s.setPn i.val { s.pn i.val with stage := .none, heldFunc := none })) ∧
    ((s.pn i.val).stage = .masked → ∀ f, (s.pn i.val).heldFunc = some f → f ≠ (s.pn i.val).conn → Runs (.switchUnmask i) s fun t => (t.pn i.val).stage = .parked ∧ (t.pn i.val).heldFunc = none ∧
      t.getF (Reg.pinCfg i.val) 35 34 = f.toNat ∧ (t.pn i.val).conn = (s.pn i.val).conn ∧ KeepRegs [Reg.pinCfg i.val] s t) ∧
    ((s.pn i.val).stage ≠ .masked → exec (.switchUnmask i) s = .next s) ∧
    (Runs (.delayMoveComplete i) s fun t => (t.pn i.val).tapAt.toNat = s.getF (Reg.pinDly i.val) 8 0 ∧ t.getB (Reg.pinDly i.val) 10 = false ∧ t.getF (Reg.pinDly i.val) 9 0 = s.getF (Reg.pinDly i.val) 9 0 ∧
      KeepRegs [Reg.pinDly i.val] s t ∧ ∀ j, j ≠ i.val → t.pn j = s.pn j) ∧
    (exec (.overrideMaskEnd i) s = .next (s.setPn i.val { s.pn i.val with masked := false }))) ∧
  (∀ (i : Fin 720) rising s, ∀ u, u = s.setPn i.val { s.pn i.val with pad := some rising, keeper := some ((pinDrive s i.val).level.getD rising) } →
    (gpioDetects u i.val = false ∨ edgeWanted (s.getF (Reg.pinGpio i.val) 8 7) rising = false → exec (.gpioEdge i rising) s = .next u) ∧
    (gpioDetects u i.val = true → edgeWanted (s.getF (Reg.pinGpio i.val) 8 7) rising = true →
      (s.getB (Reg.pinGpio i.val) 6 = false → exec (.gpioEdge i rising) s = .next (u.setB (Reg.pinGpio i.val) 5 true)) ∧
      (s.getB (Reg.pinGpio i.val) 6 = true → Runs (.gpioEdge i rising) s fun t => Raises 0x905 0 (rising.toNat <<< 10 ||| i.val) (u.setB (Reg.pinGpio i.val) 5 true) s t))) ∧
  (∀ (p : Fin 360) locked s,
    (serRxPair s p.val = false ∨ s.getB (Reg.pinSer p.val) 0 = locked → exec (.serialiserLock p locked) s = .next s) ∧
    (serRxPair s p.val = true → s.getB (Reg.pinSer p.val) 0 = true → Runs (.serialiserLock p false) s fun t => t.getB (Reg.pinSer p.val) 0 = false ∧ t.getB (Reg.pinSer p.val) 1 = true ∧
      (t.pn (2 * p.val)).lostLock = true ∧ Logged 0x904 0 (1 <<< 9 ||| p.val) s t) ∧
    (serRxPair s p.val = true → s.getB (Reg.pinSer p.val) 0 = false → Runs (.serialiserLock p true) s fun t => t.getB (Reg.pinSer p.val) 0 = true ∧ (t.pn (2 * p.val)).lostLock = false ∧
      ((s.pn (2 * p.val)).lostLock = true → Logged 0x904 0 p.val s t) ∧ ((s.pn (2 * p.val)).lostLock = false → t.evt = s.evt ∧ KeepRegs [Reg.pinSer p.val] s t)))

/-- The TAP: the instructions that need no level, those of FULL, and what a level too low makes of them (R420 to R423, R438). -/
def Obligations.TapInstructions : Prop :=
  (∀ s (dr : BitVec 2160), s.boot.porHeld = false →
    (Runs .idcode s fun t => t = { s with dbg := { s.dbg with ir := 0x01, capture := BitVec.ofNat 2160 (Config.stepping.toNat <<< 28 ||| 0x184056F) }, pin := t.pin }) ∧
    (Runs .tapReset s fun t => t = { s with dbg := { s.dbg with ir := 0x01 }, pin := t.pin }) ∧
    (Runs (.samplePreload dr) s fun t => t = { s with dbg := { s.dbg with ir := 0x02, capture := t.dbg.capture, boundary := dr }, pin := t.pin }) ∧
    (Runs .dtmcs s fun t => t = { s with dbg := { s.dbg with ir := 0x10, capture := t.dbg.capture }, pin := t.pin, free := s.free + 1 } ∧ fld t.dbg.capture 3 0 = 1 ∧ fld t.dbg.capture 9 4 = 7) ∧
    (∀ code : BitVec 8, code ∉ [0x00#8, 0x01, 0x02, 0x03, 0x04, 0x10, 0x11, 0x12] → Runs (.bypass code) s fun t => t = { s with dbg := { s.dbg with ir := 0xFF, capture := 0 }, pin := t.pin })) ∧
  (∀ s (dr : BitVec 2160), s.boot.porHeld = false → dbgLevel s = 2 →
    (Runs (.extest dr) s fun t => t = { s with dbg := { s.dbg with ir := 0x00, capture := t.dbg.capture, boundary := dr }, pin := t.pin } ∧ boundaryHeld t = true) ∧
    (Runs .clamp s fun t => t = { s with dbg := { s.dbg with ir := 0x03, capture := 0 }, pin := t.pin } ∧ boundaryHeld t = true) ∧
    (Runs .highz s fun t => t = { s with dbg := { s.dbg with ir := 0x04, capture := 0 }, pin := t.pin } ∧ boundaryHeld t = true)) ∧
  (∀ s (dr : BitVec 2160) op addr data c code, s.boot.porHeld = false →
    (dbgLevel s < 2 ∧ (c = Instr.extest dr ∧ code = 0 ∨ c = Instr.clamp ∧ code = 3 ∨ c = Instr.highz ∧ code = 4) ∨ dbgLevel s = 0 ∧ c = Instr.dmi op addr data ∧ code = 0x11) →
    Runs c s fun t => t.dbg = { s.dbg with ir := 0xFF, capture := 0 } ∧ boundaryHeld t = false ∧ Logged 0xA04 4 (dbgLevel s <<< 34 ||| code) s t ∧ (∀ a, a ∉ evtRegs → t.reg a = s.reg a) ∧ t.core.halted = s.core.halted) ∧
  (∀ s (dr : BitVec 2160) op addr data write a w code c, s.boot.porHeld = true →
    c ∈ [Instr.idcode, .tapReset, .samplePreload dr, .dtmcs, .bypass code, .extest dr, .clamp, .highz, .dmi op addr data, .dbgregUpdate write a w] → exec c s = .next s)

/-- DBGREG (R425, R430, R438): what Capture-DR loads, what the level refuses, a register read with peek, a register write, an Update-DR while
an access is pending. -/
def Obligations.DebugRegister : Prop :=
  (∀ s write (a : Addr) (w : Word) d, s.boot.porHeld = false → d = { s.dbg with
      ir := 0x12, dbgOver := false, capture := BitVec.ofNat 2160 (s.dbg.dbgOver.toNat <<< 38 ||| s.dbg.dbgNext.isSome.toNat <<< 37 ||| s.dbg.dbgErr.toNat <<< 36 ||| s.dbg.dbgData.toNat) } →
    (s.dbg.dbgNext.isSome = true → Runs (.dbgregUpdate write a w) s fun t => t = { s with dbg := { d with dbgOver := true }, pin := t.pin }) ∧
    (s.dbg.dbgNext = none → dbgMay write a.toNat s = false → Runs (.dbgregUpdate write a w) s fun t => t.dbg = { d with dbgErr := true } ∧
      Logged 0xA04 4 (dbgLevel s <<< 34 ||| a.toNat <<< 8 ||| 0x12) s t ∧ (∀ b, b ∉ evtRegs → t.reg b = s.reg b)) ∧
    (s.dbg.dbgNext = none → dbgMay write a.toNat s = true → ∃ u, u = { s with dbg := d, pin := u.pin } ∧
      ∀ x, x = (if write then regWrite rqDbg a.toNat w u else regRead rqDbg true a.toNat u) →
        Runs (.dbgregUpdate write a w) s fun t => t = { x with dbg := { x.dbg with dbgNext := some (if write then x.dbg.dbgData else x.resp.data, x.resp.err) } })) ∧
  (∀ s (a : Addr), dbgMay true a.toNat s = (dbgReads a.toNat || dbgLevel s == 2) ∧ dbgMay false a.toNat s = (dbgReads a.toNat || dbgLevel s == 2 || dbgLevel s == 1))

/-- Halt, resume, abstract commands and the end of an attachment (R424, R431, R433, R436). -/
def Obligations.HaltAndResume : Prop :=
  (∀ s write (n : BitVec 16) c, dbgLevel s < 2 → (c = Instr.haltRequest ∨ c = Instr.resumeRequest ∨ c = Instr.abstractCommand write n) → Runs c s fun t =>
    Logged 0xA04 4 (dbgLevel s <<< 34 ||| s.dbg.ir.toNat) s t ∧ t.core.halted = s.core.halted ∧ t.core.gpr = s.core.gpr ∧ t.core.csr = s.core.csr ∧ t.core.pc = s.core.pc ∧ t.dbg.data0 = s.dbg.data0 ∧
    (c = Instr.abstractCommand write n → s.dbg.cmderr = 0 → t.dbg.cmderr = 7)) ∧
  (∀ s, attached s = true →
    (s.core.halted = false → Runs .haltRequest s fun t => t = { s with core := { s.core with halted := true, wfi := false, csr := t.core.csr } } ∧ t.csr csrDcsr = 0x400000C3) ∧
    (s.core.halted = true → exec .haltRequest s = .next s) ∧
    (s.core.halted = true → s.fn .wdt = fnOff → exec .resumeRequest s = .next { s with core := { s.core with halted := false }, dbg := { s.dbg with resumeack := true } }) ∧
    (s.core.halted = true → s.fn .wdt ≠ fnOff → Runs .resumeRequest s fun t => t.core.halted = false ∧ t.dbg.resumeack = true ∧ t.wdt.graced = true ∧
      t.wdt.count = max (2500 * max 1 (s.getF Reg.wdtXcfg 16 1)) s.wdt.count ∧ t.regs = s.regs) ∧
    (s.core.halted = false → exec .resumeRequest s = .next s)) ∧
  (∀ s write (n : BitVec 16), attached s = true → s.dbg.cmderr = 0 →
    (s.core.halted = false → exec (.abstractCommand write n) s = .next { s with dbg := { s.dbg with cmderr := 4 } }) ∧
    (s.core.halted = true → ∀ x, 1 ≤ x → x < 32 → n.toNat = 0x1000 + x →
      exec (.abstractCommand true n) s = .next { s with core := { s.core with gpr := Store.set (fun _ => 0) s.core.gpr x s.dbg.data0 } } ∧
      exec (.abstractCommand false n) s = .next { s with dbg := { s.dbg with data0 := Store.get (fun _ => 0) s.core.gpr x } }) ∧
    (s.core.halted = true → n.toNat = 0x1000 → exec (.abstractCommand true n) s = .next s ∧ exec (.abstractCommand false n) s = .next { s with dbg := { s.dbg with data0 := 0 } }) ∧
    (s.core.halted = true → n.toNat = 0x7B1 → exec (.abstractCommand true n) s = .next { s with core := { s.core with pc := s.dbg.data0 } } ∧
      exec (.abstractCommand false n) s = .next { s with dbg := { s.dbg with data0 := s.core.pc } }) ∧
    (s.core.halted = true → n.toNat = 0x340 ∨ n.toNat = 0x305 → exec (.abstractCommand true n) s = .next (s.setCsr n.toNat s.dbg.data0) ∧
      exec (.abstractCommand false n) s = .next { s with dbg := { s.dbg with data0 := s.csr n.toNat } }) ∧
    (s.core.halted = true → 0x1020 ≤ n.toNat → exec (.abstractCommand write n) s = .next { s with dbg := { s.dbg with cmderr := 2 } }) ∧
    (s.core.halted = true → n.toNat < 0x1000 → csrExists n.toNat = false → exec (.abstractCommand write n) s = .next { s with dbg := { s.dbg with cmderr := 3 } })) ∧
  (∀ s, (attached s = true → boundaryHeld s = false → Runs .debuggerDetach s fun t => t.dbg.dmactive = false ∧ t.core.halted = false ∧ t.boot.emu = false ∧ t.regs = s.regs ∧ t.mode = s.mode ∧
      (s.core.halted = true → s.fn .wdt ≠ fnOff → t.wdt.graced = true)) ∧
    (attached s = false → boundaryHeld s = false → Runs .debuggerDetach s fun t => t = { s with dbg := t.dbg } ∧ t.dbg.dmactive = false ∧ t.dbg.level = s.dbg.level))

/-- The debug module interface and the system bus (R424, R430): reads, the writes that each level accepts, one access by address. -/
def Obligations.DebugModule : Prop :=
  (∀ s (a : BitVec 7) (v : BitVec 32), s.boot.porHeld = false → 1 ≤ dbgLevel s → ∀ d, d = { s.dbg with ir := 0x11, capture := BitVec.ofNat 2160 (s.dbg.dmiAddr.toNat <<< 34 ||| s.dbg.dmiData.toNat <<< 2) } →
    (Runs (.dmi 0 a v) s fun t => t = { s with dbg := d, pin := t.pin }) ∧
    (a ≠ 0x12 → a ≠ 0x3C → Runs (.dmi 1 a v) s fun t => t = { s with dbg := { d with dmiAddr := a, dmiData := dmiShow a.toNat s }, pin := t.pin }) ∧
    (s.dbg.sbOnData = false → Runs (.dmi 1 0x3C v) s fun t => t = { s with dbg := { d with dmiAddr := 0x3C, dmiData := s.dbg.sbData }, pin := t.pin }) ∧
    (s.dbg.sbOnAddr = false → Runs (.dmi 2 0x39 v) s fun t => t = { s with dbg := { d with dmiAddr := 0x39, dmiData := v, sbAddr := v }, pin := t.pin }) ∧
    (Runs (.dmi 2 0x38 v) s fun t => t = { s with dbg := { d with dmiAddr := 0x38, dmiData := v, sbOnAddr := v.getLsbD 20, sbAccess := BitVec.ofNat 3 (fld v 19 17), sbInc := v.getLsbD 16, sbOnData := v.getLsbD 15, sberror := t.dbg.sberror }, pin := t.pin }) ∧
    (dbgLevel s = 2 → Runs (.dmi 2 0x04 v) s fun t => t = { s with dbg := { d with dmiAddr := 0x04, dmiData := v, data0 := v }, pin := t.pin }) ∧
    (dbgLevel s = 2 → s.dbg.dmactive = true → v = 0x80000001 → s.core.halted = false → Runs (.dmi 2 0x10 v) s fun t => t.core.halted = true ∧ t.dbg.dmactive = true ∧ t.regs = s.regs) ∧
    (dbgLevel s = 1 → a ≠ 0x38 → a ≠ 0x39 → Runs (.dmi 2 a v) s fun t => t.dbg.data0 = s.dbg.data0 ∧ t.dbg.dmactive = s.dbg.dmactive ∧ t.dbg.sbData = s.dbg.sbData ∧ t.core.halted = s.core.halted ∧
      (a = 0x3C → s.dbg.sberror = 0 → t.dbg.sberror = 7) ∧ (a = 0x17 → s.dbg.cmderr = 0 → t.dbg.cmderr = 7) ∧ Logged 0xA04 4 (1 <<< 34 ||| 0x11) s t)) ∧
  (∀ s write (addr data : BitVec 32), s.boot.porHeld = false →
    (dbgLevel s < (if write then 2 else 1) → Runs (.systemBusAccess write addr data) s fun t => t.dbg.sbAddr = s.dbg.sbAddr ∧ t.dbg.sbData = s.dbg.sbData ∧ (s.dbg.sberror = 0 → t.dbg.sberror = 7) ∧
      Logged 0xA04 4 (dbgLevel s <<< 34 ||| 0x11) s t ∧ ∀ b, b ∉ evtRegs → t.reg b = s.reg b) ∧
    ((if write then 2 else 1) ≤ dbgLevel s → s.dbg.sberror = 0 → aligned addr .word = false → Runs (.systemBusAccess write addr data) s fun t => t.dbg.sberror = 3 ∧ t.regs = s.regs ∧ t.scr = s.scr)) ∧
  (∀ s (addr data : BitVec 32), Live rqDbg s → dbgLevel s = 2 → s.dbg.sberror = 0 → s.dbg.sbInc = false → aligned addr .word = true →
    (nibbleRange addr = true → Runs (.systemBusAccess true addr data) s fun t => t = { s with dbg := { s.dbg with sbAddr := addr, sbAccess := 2, sbData := data, sbStaging := BitVec.ofNat 4 data.toNat } }) ∧
    (∀ u, u = { s with dbg := { s.dbg with sbAddr := addr, sbAccess := 2, sbData := data } } → regRange addr = true → ∀ x, x = regWrite rqDbg (coreReg addr) (wd (s.dbg.sbStaging.toNat <<< 32 ||| data.toNat)) u → x.resp.err = false →
      exec (.systemBusAccess true addr data) s = .next (if x.dbg.sberror = 0 ∧ x.dbg.sbInc = true then { x with dbg := { x.dbg with sbStaging := 0, sbAddr := x.dbg.sbAddr + 4 } } else { x with dbg := { x.dbg with sbStaging := 0 } })) ∧
    (regRange addr = false → nibbleRange addr = false → xipRange addr = true → Runs (.systemBusAccess true addr data) s fun t => t.dbg.sberror = 7 ∧ t.regs = s.regs ∧ t.flash = s.flash))

/-- Debug authentication: other masters, NEW_CHAL, CHECK, DROP, a challenge's end (R427 to R429, R438). -/
def Obligations.DebugAuthentication : Prop :=
  (∀ who v s, Live who s → who ≠ rqDbg → ∀ c, (c = Instr.newChal who v ∨ c = Instr.check who v ∨ c = Instr.drop who v) → exec c s = .next (begin who s)) ∧
  (∀ v s, Live rqDbg s → ∀ b, b = begin rqDbg s →
    (v.getLsbD 8 = true → v.getLsbD 9 = false → v.getLsbD 10 = false → exec (.newChal rqDbg v) s = .next
      (if Config.fuseDbgPolicy.getLsbD 4 = false ∨ Config.fuseDbgPolicy.getLsbD 5 = false ∨ fld Config.fuseDbgPolicy 3 2 < fld v 1 0 ∨ fld v 1 0 ≤ dbgLevel s ∨ s.getB Reg.dbgStatus 8 = true
        then b.setB Reg.dbgStatus 10 true
        else { b.setB Reg.dbgStatus 9 true with free := s.free + 4, dbg := { s.dbg with issued := s.dbg.issued + 1, chal := [Config.nonce s.free, Config.nonce (s.free + 1), Config.nonce (s.free + 2), Config.nonce (s.free + 3), BitVec.ofNat 32 Config.watermark.toNat, BitVec.ofNat 32 (Config.watermark.toNat >>> 32), BitVec.ofNat 32 (fld v 1 0), s.dbg.issued + 1] } })) ∧
    (v.getLsbD 8 = false → v.getLsbD 9 = true → v.getLsbD 10 = false →
      (s.getB Reg.dbgStatus 9 = true → ∀ l, l = fld (s.dbg.chal.getD 6 0) 1 0 → Runs (.check rqDbg v) s fun t => t.getB Reg.dbgStatus 9 = false ∧ (respBytes s = chalAnswer s.dbg.chal →
        t.dbg = { s.dbg with level := some (BitVec.ofNat 2 l) } ∧ t.getF Reg.dbgStatus 7 5 = 0 ∧ Logged 0xA01 4 (1 <<< 2 ||| l) s t)) ∧
      (s.getB Reg.dbgStatus 9 = false ∨ respBytes s ≠ chalAnswer s.dbg.chal → ∀ l, l = (if s.getB Reg.dbgStatus 9 then fld (s.dbg.chal.getD 6 0) 1 0 else fld v 1 0) → Runs (.check rqDbg v) s fun t =>
        t.dbg = s.dbg ∧ t.getB Reg.dbgStatus 9 = false ∧ t.getF Reg.dbgStatus 7 5 = min 7 (s.getF Reg.dbgStatus 7 5 + 1) ∧
        (s.getF Reg.dbgStatus 7 5 ≠ 3 → t.getB Reg.dbgStatus 8 = s.getB Reg.dbgStatus 8 ∧ Logged 0xA02 4 (min 7 (s.getF Reg.dbgStatus 7 5 + 1) <<< 2 ||| l) s t) ∧
        (s.getF Reg.dbgStatus 7 5 = 3 → t.getB Reg.dbgStatus 8 = true ∧ ∃ u, Logged 0xA02 4 (4 <<< 2 ||| l) s u ∧ Logged 0xA03 4 (4 <<< 2) u t))) ∧
    (v.getLsbD 8 = false → v.getLsbD 9 = false → v.getLsbD 10 = true → boundaryHeld s = false → Runs (.drop rqDbg v) s fun t => t.dbg.level = none ∧ t.regs = s.regs ∧ t.mode = s.mode ∧
      (attached s = true → t.core.halted = (s.core.halted && decide (Config.fuseDbgPolicy.toNat % 4 = 2))) ∧ (attached s = false → t = { b with dbg := { s.dbg with level := none } }))) ∧
  (∀ s, exec .challengeExpiry s = .next (s.setB Reg.dbgStatus 9 false))

/-- The watchdog: the two writes of a refresh, what cancels it, an early refresh, an expiry (R432, R434 to R437). -/
def Obligations.Watchdog : Prop :=
  (∀ who s, Live who s → ∀ b, b = begin who s →
    (s.boot.seqKick = none ∨ s.boot.seqKick = some who → exec (.wdtKickFirst who) s = .next { b with boot := { s.boot with seqKick := some who } }) ∧
    (∀ m, s.boot.seqKick = some m → m ≠ who → Runs (.wdtKickFirst who) s fun t => t.boot = { s.boot with seqKick := some who } ∧ t.wdt = s.wdt ∧
      Logged 0xA06 4 ((if who = 4 then 3 else 2) <<< 32 ||| m.toNat <<< 24 ||| Reg.wdtKick) s t) ∧
    (s.boot.seqKick = none → exec (.wdtKickSecond who) s = .next { b with boot := { s.boot with seqKick := none } }) ∧
    (∀ m, s.boot.seqKick = some m → m ≠ who → Runs (.wdtKickSecond who) s fun t => t.boot = { s.boot with seqKick := none } ∧ t.wdt = s.wdt ∧
      Logged 0xA06 4 ((if who = 4 then 3 else 2) <<< 32 ||| m.toNat <<< 24 ||| Reg.wdtKick) s t) ∧
    (s.boot.seqKick = some who → s.fn .wdt ≠ fnOn → exec (.wdtKickSecond who) s = .next { b with boot := { s.boot with seqKick := none } }) ∧
    (s.boot.seqKick = some who → s.fn .wdt = fnOn → 2500 * s.getF Reg.wdtCfg 15 0 ≤ s.wdt.since ∨ s.wdt.graced = true → exec (.wdtKickSecond who) s = .next
      { b with boot := { s.boot with seqKick := none }, wdt := { s.wdt with count := 2500 * max 1 (s.getF Reg.wdtCfg 31 16), since := 0, graced := false } }) ∧
    (s.boot.seqKick = some who → s.fn .wdt = fnOn → s.wdt.since < 2500 * s.getF Reg.wdtCfg 15 0 → s.wdt.graced = false → s.boot.nrstLow = false → Runs (.wdtKickSecond who) s fun t => t.mode = .failsafe ∧
      t = failsafe 0xA05 12 2 { b with boot := { s.boot with seqKick := none } })) ∧
  (∀ s, (s.fn .wdt = fnOn → s.mode ≠ .retain → s.boot.nrstLow = false → s.core.halted = false ∨ s.getB Reg.wdtXcfg 0 = true → Runs .watchdogExpiry s fun t => t.mode = .failsafe ∧ t = failsafe 0xA05 12 1 { s with wdt := { s.wdt with count := 0 } }) ∧
    (s.fn .wdt ≠ fnOn ∨ s.mode = .retain ∨ s.core.halted = true ∧ s.getB Reg.wdtXcfg 0 = false → exec .watchdogExpiry s = .next s))

/-- A stored bit flips on its own, in each memory of the part; nothing else changes and no event is raised (R121, R118, R165, R223, R226, R261, R358, R374). -/
def Obligations.Upsets : Prop :=
  (∀ at' s, Runs (.upset at') s fun t => t.regs = s.regs ∧ t.evt = s.evt ∧ t.mode = s.mode ∧ t.pin = s.pin ∧ t.mesh = s.mesh ∧ t.core = s.core ∧ t.sec = s.sec ∧ t.boot = s.boot ∧ t.resp = s.resp) ∧
  (∀ shadow (seg : BitVec 7) (col : BitVec 5) (minor : BitVec 9) (fword : BitVec 7) (bit : Fin 43) s, ∀ k, k = cfgKey (physOf s seg.toNat shadow) seg.toNat col.toNat minor.toNat fword.toNat →
    (36 ≤ bit.val ∨ (keyMask s k).getLsbD bit.val = false → Runs (.upset (.config shadow seg col minor fword bit)) s fun t => t.cfgCell k = (s.cfgCell k).flip bit.val ∧ (∀ j, j ≠ k → t.cfgCell j = s.cfgCell j) ∧ t.fab.parErr = s.fab.parErr ∧ t.fab.ram = s.fab.ram) ∧
    (bit.val < 36 → (keyMask s k).getLsbD bit.val = true → Runs (.upset (.config shadow seg col minor fword bit)) s fun t => t.cfgCell k = { s.cfgCell k with data := (s.cfgCell k).data ^^^ (1 <<< bit.val) } ∧
      (∀ j, j ≠ k → t.cfgCell j = s.cfgCell j) ∧ (keyPlane k ≠ activeOf s (keySeg k) → t.fab.parErr = s.fab.parErr) ∧
      (keyPlane k = activeOf s (keySeg k) → Store.get (fun _ => false) t.fab.parErr (keyCell k bit.val) = !Store.get (fun _ => false) s.fab.parErr (keyCell k bit.val)))) ∧
  (∀ (b : BlkAddr) (w : Fin 1024) (bit : Fin 40) s, ∀ k, k = ramKey b.region.val b.col.val b.row.val w.val → Runs (.upset (.ram36 b w bit)) s fun t =>
    Store.get (fun _ => 0) t.fab.ram k = (if bit.val < 36 then Store.get (fun _ => 0) s.fab.ram k ^^^ (1 <<< bit.val) else Store.get (fun _ => 0) s.fab.ram k) ∧
    Store.get (fun _ => 0) t.fab.ramPar k = Store.get (fun _ => 0) s.fab.ramPar k ^^^ (1 <<< (if bit.val < 36 then bit.val / 9 else bit.val - 36)) ∧
    ∀ j, j ≠ k → Store.get (fun _ => 0) t.fab.ram j = Store.get (fun _ => 0) s.fab.ram j ∧ Store.get (fun _ => 0) t.fab.ramPar j = Store.get (fun _ => 0) s.fab.ramPar j) ∧
  (∀ (off : Fin 2097152) (bit : Fin 43) s, Runs (.upset (.scratch off bit)) s fun t => scrStored t off.val = some ((scrCell s off.val).flip bit.val) ∧ ∀ j, j ≠ off.val → scrStored t j = scrStored s j) ∧
  (∀ m ix (bit : Fin 43) s, Runs (.upset (.engine m ix bit)) s fun t => t.engCell m ix = (s.engCell m ix).flip bit.val ∧ ∀ n j, n ≠ m ∨ j ≠ ix → t.engCell n j = s.engCell n j) ∧
  (∀ (fa : BitVec 28) (bit : Fin 43) s, Runs (.upset (.flash fa bit)) s fun t => t.fa fa.toNat = (s.fa fa.toNat).flip bit.val ∧ ∀ j, j ≠ fa.toNat → t.fa j = s.fa j) ∧
  (∀ (lane : Fin 65) engineB (copy : Fin 3) (bit : Fin 95) s, Runs (.upset (.calender lane engineB copy bit)) s fun t =>
    t.lane lane.val = (if engineB then { s.lane lane.val with b := (s.lane lane.val).b.flip copy.val bit.val } else { s.lane lane.val with a := (s.lane lane.val).a.flip copy.val bit.val }) ∧ ∀ j, j ≠ lane.val → t.lane j = s.lane j) ∧
  (∀ shadow (c : CellAddr) copy s, ∀ e, e = (physOf s c.region.val shadow, (cellPos c).ix, copy) → Runs (.upset (.golden shadow c copy)) s fun t =>
    (e ∉ (s.rg c.region.val).goldBad → (t.rg c.region.val).goldBad = (s.rg c.region.val).goldBad ++ [e]) ∧ (e ∈ (s.rg c.region.val).goldBad → (t.rg c.region.val).goldBad = (s.rg c.region.val).goldBad.erase e) ∧
    ∀ j, j ≠ c.region.val → t.rg j = s.rg j) ∧
  (∀ (c : CellAddr) (bit : Fin 64) s, ∀ k, k = cfgKey (activeOf s c.region.val) c.region.val c.col.val (bit.val / 4) (4 * c.row.val + bit.val % 4) → exec (.upset (.lut c bit)) s = .next (flipCfg k c.cell.val s))

/-- A line that arrives while another executes waits; without power none is heard (R444, R455). -/
def Obligations.ServiceLinesWait : Prop :=
  ∀ (k n : Nat) (r : Fin 64) (a : Addr) peek (v : Word) (o : Fin 2097152) (p : Fin 720) h toService nsafe (ws : List (BitVec 32)) (rej : BitVec 4) (b k16 : Fin 16) (m : Fin 8) (k2 : Fin 2) ss pre rep c i,
    (c, i) ∈ [(Instr.svcId, SvcLine.id), (.svcMode, .mode), (.svcHealth, .health), (.svcFs, .fs), (.svcErrLast, .errLast), (.svcEvtLast, .evtLast), (.svcEvtK k, .evtK k), (.svcI3c, .i3c), (.svcBoot, .boot), (.svcPwr, .pwr),
      (.svcTemp, .temp), (.svcCalStat, .calStat), (.svcRgn r, .rgn r), (.svcRgnAll, .rgnAll), (.svcImg, .img), (.svcSwap, .swap), (.svcRhx, .rhx), (.svcMesh, .mesh), (.svcMeshTime, .meshTime), (.svcWdt, .wdt),
      (.svcRd a peek, .rd a peek), (.svcWr a v, .wr a v), (.svcSpRd o, .spRd o), (.svcSpWr o v, .spWr o v), (.svcPin p, .pin p), (.svcPinHigh p, .pinHigh p), (.svcPinLow p, .pinLow p), (.svcPinZ p, .pinZ p),
      (.svcPinSquare p, .pinSquare p), (.svcPinRelease p, .pinRelease p), (.svcAuth, .auth), (.svcAuthResponse ws, .authResponse ws), (.svcLogout, .logout), (.svcService h, .service h), (.svcWake, .wake),
      (.svcReboot ⟨toService, nsafe⟩, .reboot toService nsafe), (.svcBaud n, .baud n), (.svcInvalidLine rej, .invalidLine rej), (.testFlash b, .testFlash b), (.testMeshLoop m, .testMeshLoop m), (.testMesh m, .testMesh m),
      (.march b ss pre rep, .march b ss pre rep), (.testEngine, .testEngine), (.testCal, .testCal), (.testUart k2, .testUart k2), (.testSpi k2, .testSpi k2), (.testI2c k2, .testI2c k2), (.testTmr k16, .testTmr k16),
      (.testWdt, .testWdt), (.testClk, .testClk)] → ∀ s,
    (s.boot.porHeld = true → exec c s = .next s) ∧
    (s.boot.porHeld = false → svcBusy s = true ∨ s.svc.waiting ≠ [] → Runs c s fun t => t = { s.count Reg.svcCntLines 35 0 with svc := { s.svc with waiting := s.svc.waiting ++ [i] } }) ∧
    (Taken s → (∀ e1 e2 e3 e4, i = .march e1 e2 e3 e4 → s.fn .beater = fnOff ∨ s.mode ≠ .service) → exec c s = .next (svcLine i (s.count Reg.svcCntLines 35 0)))

/-- Status lines: what each replies, with reads that peek, and E102 where the root clock is needed and absent (R93, R444 to R446, R448). -/
def Obligations.ServiceReports : Prop :=
  (∀ s, Taken s → ∀ u, u = s.count Reg.svcCntLines 35 0 →
    exec .svcId s = .next (svcReply (.ok [.text svcPart, .dec Config.stepping.toNat, .hex 16 Config.watermark.toNat]) u) ∧
    exec .svcMode s = .next (svcReply (.ok [.dec s.mode.code, .dec (healthCode u)]) u) ∧
    exec .svcHealth s = .next (svcReply (.ok [.dec (healthCode u), .dec (100 * (healthCode u + 1))]) u) ∧
    exec .svcFs s = .next (svcReply (.ok [.code (BitVec.ofNat 12 (s.getF Reg.sysFsCause 11 0)), .dec (s.getF Reg.sysFsCause 15 12)]) u) ∧
    exec .svcErrLast s = .next (svcReply (.ok [.code s.evt.lastErr]) u) ∧
    exec .svcI3c s = .next (svcReply (.ok [.dec (daValid u).toNat, .hex 2 (dynAddr u), .hex 2 (staticAddr u)]) u) ∧
    exec .svcBoot s = .next (svcReply (.ok [.dec (s.getF Reg.pwrBootStatus 3 0), .dec (s.getF Reg.pwrBootStatus 5 4), .dec (s.getF Reg.pwrBootStatus 6 6), .dec (s.getF Reg.pwrBootStatus 7 7), .dec (s.getF Reg.pwrBootStatus 8 8), .dec (s.getF Reg.pwrBootStatus 31 16)]) u) ∧
    (∀ q, s.evt.newest = some q → exec .svcEvtLast s = .next (svcReply (.ok [.hex 9 q.w0.toNat]) u)) ∧
    (s.evt.newest = none → Runs .svcEvtLast s fun t => t = svcReply t.svc.reply { u with free := s.free + 1 } ∧ ∃ w, t.svc.reply = .ok [.hex 9 w]) ∧
    (∀ k q, 1 ≤ k → k ≤ s.evt.buf.length → s.evt.buf[s.evt.buf.length - k]? = some q → exec (.svcEvtK k) s = .next (svcReply (.ok [.hex 9 q.w0.toNat, .hex 9 q.w1.toNat, .hex 9 q.w2.toNat, .hex 9 q.w3.toNat]) u)) ∧
    (∀ k, s.evt.buf.length < k → s.getB Reg.sysEvtCtrl 0 = false → Runs (.svcEvtK k) s fun t => t = svcReply t.svc.reply { u with free := s.free + 4 } ∧ ∃ ws : List Nat, ws.length = 4 ∧ t.svc.reply = .ok (ws.map (SvcVal.hex 9))) ∧
    (∀ k w0 w1 w2 w3, s.evt.buf.length < k → k ≤ 16 → s.getB Reg.sysEvtCtrl 0 = true → Live rqSvc s → ∀ off, off = (s.reg Reg.sysEvtBase).toNat + 4 * ((s.getF Reg.sysEvtWr 9 0 + 1024 + s.evt.buf.length - k) % 1024) →
      WordAt u rqSvc off false w0 → WordAt u rqSvc (off + 1) false w1 → WordAt u rqSvc (off + 2) false w2 → WordAt u rqSvc (off + 3) false w3 → Runs (.svcEvtK k) s fun t =>
        t = svcReply (.ok [.hex 9 w0.toNat, .hex 9 w1.toNat, .hex 9 w2.toNat, .hex 9 w3.toNat]) { u with resp := t.resp })) ∧
  (∀ s, Taken s → ∀ u, u = s.count Reg.svcCntLines 35 0 → ∀ (n : Fin 64) c as f,
    (c, as, f) ∈ [(Instr.svcPwr, (List.range 22).map Reg.pwrRailV, fun ws => ws.map (fun w => SvcVal.dec (fld w 11 0))),
      (.svcCalStat, [Reg.calPassTime, Reg.calCntMismatch, Reg.calCntTmr], fun ws => ws.map (fun w => SvcVal.dec w.toNat)),
      (.svcRgn n, [Reg.rgnStatus n.val, Reg.rgnFence n.val], fun ws => ws.map hex9),
      (.svcRgnAll, (List.range 64).map Reg.rgnStatus, quarVals),
      (.svcImg, [Reg.cfgActiveId, Reg.cfgShadowId], fun ws => ws.map hex9),
      (.svcSwap, [Reg.cfgSwapStatus, Reg.cfgSwapEdgeLo], fun ws => ws.map hex9),
      (.svcRhx, [Reg.rhxStatus, Reg.rhxOccupancy, Reg.rhxCnt 2], fun ws => ws.map hex9),
      (.svcMesh, [Reg.mshNodeStatus, Reg.mshNodeStatus2], meshVals)] →
    (rootStopped u = false → exec c s = .next (svcReply (.ok (f (svcReads as u).1)) (svcReads as u).2)) ∧
    (rootStopped u = true → c ≠ .svcPwr → exec c s = .next (svcReply (.er 0x102) u)) ∧
    (rootStopped u = true → exec .svcPwr s = .next (svcReply (.ok ((svcReads ((List.range 22).map Reg.pwrRailV) u).1.map (fun w => SvcVal.dec (fld w 11 0)))) (svcReads ((List.range 22).map Reg.pwrRailV) u).2))) ∧
  (∀ s, Taken s → ∀ u, u = s.count Reg.svcCntLines 35 0 →
    (rootStopped u = true → exec .svcMeshTime s = .next (svcReply (.er 0x102) u)) ∧
    (rootStopped u = false → ∀ r, r = svcRead Reg.mshTimeStatus u → ∃ d : Int, (d = 0 ∨ d = 1) ∧ Runs .svcMeshTime s fun t =>
      t = svcReply (.ok [.dec (fld r.1 35 35), .dec (sgn (fld r.1 18 0) 19 / 4 + d), .num 3 (fld r.1 28 19)]) r.2.draw) ∧
    (∀ r, r = svcReads [Reg.wdtStatus, Reg.wdtRemain] u → ∃ d : Int, (d = 0 ∨ d = 1) ∧ Runs .svcWdt s fun t =>
      t = svcReply (.ok [.dec (fld (r.1.getD 0 0) 2 0), .dec ((fld (r.1.getD 1 0) 27 0 : Nat) / (25 : Int) + d)]) r.2.draw) ∧
    (∀ r, r = svcReads ((List.range 8).map Reg.pwrTemp) u → Runs .svcTemp s fun t => ∃ es : List Int, es.length = 8 ∧ (∀ e ∈ es, e = 0 ∨ e = 1) ∧
      t = svcReply (.ok (((r.1.map fun w => sgn (fld w 11 0) 12).zip es).map fun p => SvcVal.dec (p.1 / 4 + p.2))) { r.2 with free := r.2.free + 8 }))

/-- Register, scratchpad and pin lines of the service port (R93, R414, R444, R445, R447, R450, R451). -/
def Obligations.ServiceAccesses : Prop :=
  (∀ s, Taken s → ∀ u, u = s.count Reg.svcCntLines 35 0 → (svcMayWrite u = (s.mode == .service && s.getB Reg.sysMode 8 || s.getB Reg.svcStatus 0)) ∧ ∀ (a : Addr) peek (v : Word),
    (rootStopped u = true → rootClocked a.toNat = true → exec (.svcRd a peek) s = .next (svcReply (.er 0x102) u)) ∧
    (rootStopped u = false ∨ rootClocked a.toNat = false → ∀ t, t = regRead rqSvc peek a.toNat u →
      (t.resp.err = false → exec (.svcRd a peek) s = .next (svcReply (.ok [.hex 9 t.resp.data.toNat]) t)) ∧
      (t.resp.err = true → ∃ k, k < 16 ∧ exec (.svcRd a peek) s = .next (if t.evt.seq = u.evt.seq then svcReject k t.draw else svcReply (.er t.evt.raised) t))) ∧
    (svcMayWrite u = false → exec (.svcWr a v) s = .next (svcReject 5 u)) ∧
    (svcMayWrite u = true → rootStopped u = true → rootClocked a.toNat = true → exec (.svcWr a v) s = .next (svcReply (.er 0x102) u)) ∧
    (svcMayWrite u = true → rootStopped u = false ∨ rootClocked a.toNat = false → ∀ t, t = regWrite rqSvc a.toNat v u →
      (t.resp.err = false → t.reg Reg.svcCntLines ≠ 0 → exec (.svcWr a v) s = .next (svcReply (.ok []) t)) ∧ (t.resp.err = false → t.reg Reg.svcCntLines = 0 → exec (.svcWr a v) s = .next t) ∧
      (t.resp.err = true → t.evt.seq = u.evt.seq → ∃ k, k < 16 ∧ exec (.svcWr a v) s = .next (svcReject k t.draw)) ∧
      (t.resp.err = true → t.evt.seq ≠ u.evt.seq → exec (.svcWr a v) s = .next (svcReply (.er t.evt.raised) t)))) ∧
  (∀ s, Taken s → ∀ u, u = s.count Reg.svcCntLines 35 0 → ∀ (o : Fin 2097152) (v w : Word),
    (s.getB Reg.clkRoot 1 = false → exec (.svcSpRd o) s = .next (svcReply (.er 0x102) u)) ∧
    (s.getB Reg.clkRoot 1 = true → Live rqSvc s → WordAt u rqSvc o.val false w → exec (.svcSpRd o) s = .next (svcReply (.ok [.hex 9 w.toNat]) { u with resp := { who := rqSvc, data := w, err := false } })) ∧
    (svcMayWrite u = false → exec (.svcSpWr o v) s = .next (svcReject 5 u)) ∧
    (svcMayWrite u = true → s.getB Reg.clkRoot 1 = false → exec (.svcSpWr o v) s = .next (svcReply (.er 0x102) u)) ∧
    (svcMayWrite u = true → s.getB Reg.clkRoot 1 = true → Live rqSvc s → bankServes u rqSvc o.val true = 0 → s.scr.beater.running = false → Runs (.svcSpWr o v) s fun t => t.svc.reply = .ok [] ∧ t.regs = u.regs ∧
      ∀ j, scrStored t j = if j = o.val then some { data := v } else scrStored s j)) ∧
  (∀ s, Taken s → ∀ u, u = s.count Reg.svcCntLines 35 0 → ∀ (p : Fin 720),
    exec (.svcPin p) s = .next (svcReply (.ok [.dec (s.getF (Reg.pinCfg p.val) 35 34), .hex 2 (pinOwner u p.val), .dec (pinLevel u p.val).toNat]) u.draw) ∧
    (∀ c d, (c, d) ∈ [(Instr.svcPinZ p, 0#2), (.svcPinHigh p, 1), (.svcPinLow p, 2), (.svcPinSquare p, 3)] →
      (s.mode ≠ .service → exec c s = .next (svcReject 4 u)) ∧
      (s.mode = .service → pinOddDiff u p.val = true → exec c s = .next (svcReject 2 u)) ∧
      (s.mode = .service → pinOddDiff u p.val = false → Runs c s fun t => t.svc.reply = .ok [] ∧ (t.pn p.val).testDrive = d ∧ (t.pn p.val).before = some ((s.pn p.val).before.getD (BitVec.ofNat 2 (s.getF (Reg.pinCfg p.val) 35 34))) ∧
        ((s.pn p.val).stage = .none → (s.pn p.val).conn ≠ 3 → (t.pn p.val).stage = .parked ∧ t.getF (Reg.pinCfg p.val) 35 34 = 3) ∧
        ((s.pn p.val).stage = .none → (s.pn p.val).conn = 3 → (t.pn p.val).stage = .none) ∧
        ((s.pn p.val).stage ≠ .none → (t.pn p.val).heldFunc = some 3))) ∧
    (s.mode ≠ .service → exec (.svcPinRelease p) s = .next (svcReject 4 u)) ∧
    (s.mode = .service → pinOddDiff u p.val = true → exec (.svcPinRelease p) s = .next (svcReject 2 u)) ∧
    (s.mode = .service → pinOddDiff u p.val = false → (s.pn p.val).before = none → exec (.svcPinRelease p) s = .next (svcReply (.ok []) u)) ∧
    (∀ f, s.mode = .service → pinOddDiff u p.val = false → (s.pn p.val).before = some f → (s.pn p.val).stage = .none → f ≠ (s.pn p.val).conn → Runs (.svcPinRelease p) s fun t => t.svc.reply = .ok [] ∧
      (t.pn p.val).before = none ∧ (t.pn p.val).stage = .parked ∧ t.getF (Reg.pinCfg p.val) 35 34 = f.toNat))

/-- The session, the mode commands, the rate and the port's timeouts (R58, R60, R76, R441, R442, R444, R447, R449, R455). -/
def Obligations.ServiceSession : Prop :=
  (∀ s, Taken s → ∀ u, u = s.count Reg.svcCntLines 35 0 → (authClosed u = (!Config.fuseDbgPolicy.getLsbD 4 || !Config.fuseDbgPolicy.getLsbD 5 || s.getB Reg.dbgStatus 8)) ∧
    (exec .svcAuth s = .next (if authClosed u then svcReject 6 u else svcReply (.ok ((chalWords 2 u).map fun w => SvcVal.hex 8 w.toNat))
      { u with free := s.free + 4, dbg := { s.dbg with svcChal := chalWords 2 u, svcChalValid := true, issued := s.dbg.issued + 1 } })) ∧
    (∀ r, Runs (.svcAuthResponse r) s fun t => (authClosed u = true → t = svcReject 6 u) ∧ (authClosed u = false → t.dbg = { s.dbg with svcChalValid := false } ∧
      (s.dbg.svcChalValid = true → r.flatMap (fun w => Crypto.beBytes 4 w.toNat) = chalAnswer s.dbg.svcChal → t.svc.reply = .ok [] ∧ t.getB Reg.svcStatus 0 = true ∧ t.getF Reg.dbgStatus 7 5 = 0 ∧ t.evt = s.evt) ∧
      (s.dbg.svcChalValid = false ∨ r.flatMap (fun w => Crypto.beBytes 4 w.toNat) ≠ chalAnswer s.dbg.svcChal → t.getB Reg.svcStatus 0 = s.getB Reg.svcStatus 0 ∧ t.getF Reg.dbgStatus 7 5 = min 7 (s.getF Reg.dbgStatus 7 5 + 1) ∧
        (s.getF Reg.dbgStatus 7 5 ≠ 3 → t.svc.reply = .er 0xA02 ∧ Logged 0xA02 4 (min 7 (s.getF Reg.dbgStatus 7 5 + 1) <<< 2 ||| 2) s t) ∧
        (s.getF Reg.dbgStatus 7 5 = 3 → t.svc.reply = .er 0xA03 ∧ t.getB Reg.dbgStatus 8 = true)))) ∧
    (exec .svcLogout s = .next (svcReply (.ok []) (u.setB Reg.svcStatus 0 false))) ∧
    (∀ r : BitVec 4, exec (.svcInvalidLine r) s = .next (svcReject r.toNat u)) ∧
    (∀ n, baudOk n = true → Runs (.svcBaud n) s fun t => t = (svcReply (.ok []) u).setF Reg.svcCfg 15 0 ((400000000 + n / 2) / n)) ∧
    (∀ n, baudOk n = false → exec (.svcBaud n) s = .next (svcReject 2 u)) ∧
    (s.mode = .retain ∨ s.boot.retain = .entering → exec .svcWake s = .next (svcReply (.ok []) (regWrite rqSvc Reg.pwrModeReq 2 u))) ∧
    (s.mode ≠ .retain → s.boot.retain ≠ .entering → exec .svcWake s = .next (svcReject 4 u)) ∧
    (∀ b n, s.getB Reg.svcStatus 0 = false → exec (.svcReboot ⟨b, n⟩) s = .next (svcReject 5 u)) ∧
    (∀ b n, s.getB Reg.svcStatus 0 = true → Runs (.svcReboot ⟨b, n⟩) s fun t => t = softReset rqSvc 3 b { u with boot := { u.boot with nsafeLow := n } } ∧ (n = false → t.mode = .inert) ∧
      (n = true → s.boot.powerGood = true → s.boot.nrstLow = false → s.getF Reg.pwrRailOk 21 0 = 0x3FFFFF - 0x40 + 0x40 * s.getF Reg.pwrRailOk 6 6 → t.mode = .failsafe))) ∧
  (∀ s high, Taken s → ∀ a, a = s.getB Reg.svcStatus 0 →
    ((s.mode = .inert ∧ s.boot.nrstLow = false ∧ a = false ∨ (s.mode = .run ∨ s.mode = .retain) ∧ high = false ∧ a = false) → Runs (.svcService high) s fun t => t.mode = s.mode ∧ t.svc.reply = .er 0x003 ∧ Logged 0x003 0 (1 <<< 12 ||| 7 <<< 8 ||| 4) s t) ∧
    (s.mode = .boot ∨ s.mode = .service ∨ s.mode = .failsafe ∨ s.mode = .inert ∧ s.boot.nrstLow = true → Runs (.svcService high) s fun t => t.mode = s.mode ∧ t.svc.reply = .er 0x003 ∧ Logged 0x003 0 (1 <<< 12 ||| 1 <<< 8 ||| 4) s t) ∧
    (s.mode = .inert → s.boot.nrstLow = false → a = true → Runs (.svcService high) s fun t => t.mode = .service ∧ t.svc.reply = .ok []) ∧
    (s.mode = .run ∨ s.mode = .retain → high = true ∨ a = true → s.boot.retain ≠ .entering → Runs (.svcService high) s fun t => t.mode = .service ∧ t.svc.reply = .ok []) ∧
    (s.mode = .run ∨ s.mode = .retain → high = true ∨ a = true → s.boot.retain = .entering → Runs (.svcService high) s fun t => t.mode = s.mode ∧ t.boot.heldService = true ∧ t.svc.reply = s.svc.reply ∧ t.evt = s.evt)) ∧
  (∀ s, s.boot.porHeld = false → ∀ u, u = s.count Reg.svcCntLines 35 0 →
    (Taken s ∨ s.svc.test.isSome = true → s.mode ≠ .service ∨ noImage u = true ∨ s.boot.released = false ∨ s.svc.test.isSome = true → Runs .svcServiceExit s fun t => t.mode = s.mode ∧ t.svc.reply = .er 0x003 ∧ t.svc.test = s.svc.test ∧
      Logged 0x003 0 (1 <<< 12 ||| 1 <<< 8 ||| 5) s t) ∧
    (Taken s → s.mode = .service → noImage u = false → s.boot.released = true → s.boot.exitRun = true → exec .svcServiceExit s = .next (svcReply (.ok []) u)) ∧
    (Taken s → s.mode = .service → noImage u = false → s.boot.released = true → s.boot.exitRun = false → Runs .svcServiceExit s fun t => t.mode = .service ∧ t.svc.reply = .ok [] ∧ t.boot.exitRun = true ∧
      (∀ i, i < 720 → (t.pn i).before = none) ∧ (s.getB Reg.pwrBootStatus 8 = true → t.gov = s.gov) ∧ (s.getB Reg.pwrBootStatus 8 = false → ∃ r ∈ t.gov.queue, r.kind = .exit))) ∧
  (∀ s, exec .svcAuthTimeout s = .next (s.setB Reg.svcStatus 0 false) ∧ exec .svcRxOvf s = .next (s.setB Reg.svcStatus 5 true) ∧
    (s.getB Reg.svcCfg 17 = true → exec .svcBaudHoldExpiry s = .next (s.setF Reg.svcCfg 15 0 3472)) ∧ (s.getB Reg.svcCfg 17 = false → exec .svcBaudHoldExpiry s = .next s))

/-- Self-tests start in SERVICE alone, one at a time, take a HELD engine or port out of HELD and wait for the governor; the partner of a mesh test (R93, R452, R454). -/
def Obligations.SelfTestStarts : Prop :=
  (∀ (b k16 : Fin 16) (m : Fin 8) (k2 : Fin 2) c id arg root, (c, id, arg, root) ∈ [(Instr.testFlash b, 1, b.val, true), (.testMeshLoop m, 2, m.val, true), (.testMesh m, 3, m.val, true), (.testEngine, 5, 0, true), (.testCal, 6, 0, true),
      (.testUart k2, 7, k2.val, true), (.testSpi k2, 7, 2 + k2.val, true), (.testI2c k2, 8, k2.val, true), (.testTmr k16, 9, k16.val, true), (.testWdt, 10, 0, false), (.testClk, 11, 0, false)] →
    ∀ s, Taken s → ∀ u, u = s.count Reg.svcCntLines 35 0 →
    (s.mode ≠ .service → exec c s = .next (svcReject 4 u)) ∧
    (s.mode = .service → root = true → s.getB Reg.clkRoot 1 = false → exec c s = .next (svcReply (.er 0x102) u)) ∧
    (s.mode = .service → root = false ∨ s.getB Reg.clkRoot 1 = true → Runs c s fun t => t.svc = { s.svc with test := some { id := BitVec.ofNat 8 id, arg := BitVec.ofNat 8 arg }, testFailed := false } ∧ t.mode = .service ∧ t.evt = s.evt ∧
      (id = 5 → s.fn .rhx = fnHeld → t.fn .rhx = fnOn) ∧ (id = 5 → ∃ r ∈ t.gov.queue, r.kind = .engineStart) ∧ (id = 2 ∨ id = 3 → (t.port m.val).test = true ∧ t.link m.val = 1 ∧ ∃ r ∈ t.gov.queue, r.kind = .meshPort ∧ r.ix = m.val) ∧
      (t.cal = if id = 6 then { s.cal with inject := some false } else s.cal) ∧
      (id ≠ 2 → id ≠ 3 → id ≠ 5 → t.regs = u.regs ∧ t.gov = s.gov ∧ t.mesh = s.mesh))) ∧
  (∀ (p : Fin 8) s, (s.fn (.mesh p) = fnOn → s.link p.val ≠ linkActive → Runs (.meshTestLoopback p) s fun t => t.link p.val = 1 ∧ t.port p.val = { granted := (s.port p.val).granted } ∧ KeepRegs [Reg.mshPStatus p.val] s t ∧ t.evt = s.evt) ∧
    (s.fn (.mesh p) ≠ fnOn ∨ s.link p.val = linkActive → exec (.meshTestLoopback p) s = .next s))

/-- MARCH is the Beater's run of one bank: where it runs, what refuses it, when it waits (R363, R453, R455). -/
def Obligations.MarchTest : Prop :=
  (∀ (b : Fin 16) ss pre rep s, Taken s → s.fn .beater = fnOff ∨ s.mode ≠ .service → ∀ u, u = s.count Reg.svcCntLines 35 0 →
    (s.mode ≠ .service → exec (.march b ss pre rep) s = .next (svcReject 4 u)) ∧
    (s.mode = .service → s.getB Reg.clkRoot 1 = false → exec (.march b ss pre rep) s = .next (svcReply (.er 0x102) u)) ∧
    (s.mode = .service → s.getB Reg.clkRoot 1 = true → beaterReason u (bankBit b.val) (!pre) = 0 → Runs (.march b ss pre rep) s fun t => t.svc.test = some { id := 4, arg := BitVec.ofNat 8 b.val } ∧ t.svc.reply = s.svc.reply ∧ t.fn .beater = fnStarting ∧ t.getB Reg.scrBeaterCtrl 0 = true ∧
      t.scr = { s.scr with beater := { running := true, destruct := !pre, ss := ss, repair := rep, banks := bankBit b.val, active := bankBit b.val, fromSvc := true } }) ∧
    (s.mode = .service → s.getB Reg.clkRoot 1 = true → beaterReason u (bankBit b.val) (!pre) ≠ 0 → Runs (.march b ss pre rep) s fun t => t.svc.reply = .er 0x808 ∧ t.svc.test = none ∧ Logged 0x808 0 (beaterReason u (bankBit b.val) (!pre)) s t)) ∧
  (∀ (b : Fin 16) ss pre rep s, Taken s → s.fn .beater ≠ fnOff → s.mode = .service → Runs (.march b ss pre rep) s fun t => t = { s.count Reg.svcCntLines 35 0 with svc := { s.svc with waiting := [.march b ss pre rep] } })

/-- The end of a self-test writes its record and replies; byte 0x03 aborts it (R452, R455, R458). -/
def Obligations.SelfTestEnds : Prop :=
  (∀ s fail, (s.svc.test = none → exec (.selfTestEnd fail) s = .next s ∧ exec .selfTestAbort s = .next s) ∧ ∀ x, s.svc.test = some x →
    (x.id = 4 → exec (.selfTestEnd fail) s = .next s) ∧
    (x.id ≠ 4 → fail = none ∧ x.id ≠ 6 ∨ s.cal.inject = none ∧ x.id = 6 → Runs (.selfTestEnd fail) s fun t => t.svc.test = none ∧ t.svc.reply = .ok [.text "PASS"] ∧ t.svc.testFailed = s.svc.testFailed ∧
      t.reg Reg.svcTestLast = wd (x.id.toNat <<< 16 ||| x.arg.toNat <<< 8 ||| 1) ∧ t.reg Reg.svcTestDetail = 0 ∧ t.getF Reg.svcStatus 4 3 = 1 ∧ t.evt = s.evt ∧ t.mode = s.mode) ∧
    (∀ c (d : Word) e, x.id ≠ 4 → (x.id ≠ 6 ∧ fail = some (e, d) ∧ c = (if (testCodes x.id.toNat).contains e.toNat then e else 0)) ∨ (x.id = 6 ∧ c = 0 ∧ ∃ b, s.cal.inject = some b ∧ d = if b then 2 else 1) →
      Runs (.selfTestEnd fail) s fun t => t.svc.test = none ∧ t.svc.reply = .ok [.text "FAIL", .code c, .hex 9 d.toNat] ∧ t.svc.testFailed = true ∧
      t.reg Reg.svcTestLast = wd (c.toNat <<< 24 ||| x.id.toNat <<< 16 ||| x.arg.toNat <<< 8 ||| 2) ∧ t.reg Reg.svcTestDetail = d ∧ t.getF Reg.svcStatus 4 3 = 2 ∧ t.mode = s.mode ∧
      (c ≠ 0 → x.id = 1 ∨ x.id = 5 → Logged c 0 d.toNat s t) ∧ (c = 0 ∨ x.id ≠ 1 ∧ x.id ≠ 5 → t.evt = s.evt)) ∧
    (Runs .selfTestAbort s fun t => t.svc.test = none ∧ t.svc.reply = .ok [.text "ABORTED"] ∧ t.reg Reg.svcTestLast = wd (x.id.toNat <<< 16 ||| x.arg.toNat <<< 8 ||| 3) ∧ t.getF Reg.svcStatus 4 3 = 3 ∧ t.mode = s.mode ∧
      (x.id = 4 → s.scr.beater.running = true → t.scr.beater.running = false)))

/-- On an empty queue a step lets one CK_SVC cycle of 40 ns pass (the model's choice, log entry 2): SYS.TIME counts at the steered rate (R335), the watchdog counts while it is ON and not frozen (R80, R436), a debug access under way ends (R424), the engine's event buffer drains into the event unit unless the mode is FAILSAFE (R24, R28, R282, log entry 107), a WC_CMD is no longer pending (log entry 108), and promoted requests use up their share (R26). -/
def Obligations.IdleTick : Prop :=
  (∀ s, s.pending = [] → step s = .next (tick s)) ∧ (∀ s, s.boot.porHeld = true → tick s = s) ∧
  (∀ s, s.boot.porHeld = false → s.svc.waiting = [] → ∀ n, n = (40 * 2 ^ 32 * (1000000 + s.mesh.rate)).toNat / 1000000 → ∀ t, t = tick s →
    t.evt.time.toNat * 2 ^ 32 + t.evt.frac.toNat = (s.evt.time.toNat * 2 ^ 32 + s.evt.frac.toNat + n) % 2 ^ 96 ∧
    t.pending = s.pending ∧ t.mode = s.mode ∧ t.sec = s.sec ∧ t.flash = s.flash ∧ t.svc = s.svc ∧ t.swap = s.swap ∧ t.cal = s.cal ∧ t.mesh = s.mesh ∧
    (s.fn .wdt = fnOn → s.mode ≠ .retain → wdtFrozen s = false → t.wdt.count = s.wdt.count - 1) ∧
    (s.fn .wdt ≠ fnOn ∨ s.mode = .retain ∨ wdtFrozen s = true → t.wdt = s.wdt) ∧
    (∀ r, s.dbg.dbgNext = some r → t.dbg = { s.dbg with dbgData := r.1, dbgErr := r.2, dbgNext := none }) ∧ (s.dbg.dbgNext = none → t.dbg = s.dbg) ∧
    (s.mode = .failsafe ∨ s.eng.evBuf = [] → t.eng = s.eng ∧ t.evt.seq = s.evt.seq ∧ t.scr.mem = s.scr.mem) ∧
    (s.mode ≠ .failsafe → t.eng = { s.eng with evBuf := [] } ∧ t.evt.seq = s.evt.seq + BitVec.ofNat 16 s.eng.evBuf.length ∧
      ∀ l code src d, s.eng.evBuf = l ++ [(code, src, d)] → ∃ y, y.evt.seq = s.evt.seq + BitVec.ofNat 16 l.length ∧ Logged code src d.toNat y t) ∧
    t.getB Reg.rhxWcStatus 0 = false ∧ (∀ p, p ∈ t.boot.promoted ↔ ∃ q ∈ s.boot.promoted, 16 < q.2.2 ∧ p = (q.1, q.2.1, q.2.2 - 16)) ∧ t.boot = { s.boot with promoted := t.boot.promoted })

/-- The state after reset has a sound security store and memories in canonical form. -/
def Obligations.ResetSound : Prop := SecInv State.reset ∧ MemForm State.reset

/-- Every step keeps the security store sound: a key RAM that holds no key holds no bits of one, and no blown rollback fuse is unblown (R189, R202). -/
def Obligations.SecurityInvariant : Prop := ∀ s t, SecInv s → step s = .next t → SecInv t

/-- Accesses to the scratchpad, upsets, events and the hardware resets keep the memories in canonical form (the model's own form). -/
def Obligations.MemoryForm : Prop :=
  (∀ code src d s, MemForm s → MemForm (raise code src d s)) ∧
  (∀ who (o : Fin 2097152) wr more waits (a : BitVec 32) w f (d : BitVec 32) op target ns c, c ∈ [Instr.scratchpadAccess who o ⟨wr, more, waits⟩, .beaterYield who o wr, .beaterAbortOnAccess who o wr, .scratchpadLoad a w f, .scratchpadStore a w d,
      .scratchpadBitSet a d, .scratchpadBitClear a d, .lr a, .sc a d, .amo op a d, .upset target, .powerOnReset, .nrstAssert ns] →
    ∀ s, MemForm s → Runs c s MemForm)

/-- R422: IDCODE is 0xs184_056F, where s is SYS.ID.STEPPING; bits 27:12 hold 0x1840, bits 11:1 the vendor code 0x2B7, bit 0 is 1. -/
def Obligations.IdcodeWord : Prop :=
  ∀ s, Live rqSvc s → Runs .idcode s fun t => t.dbg.capture.toNat = fld (regRead rqSvc true Reg.sysId s).resp.data 11 8 <<< 28 ||| 0x184056F ∧
    fld t.dbg.capture 27 12 = 0x1840 ∧ fld t.dbg.capture 11 1 = 0x2B7 ∧ fld t.dbg.capture 0 0 = 1

/-- R448: ERR LAST skips the codes that report progress; a part that has raised only these since reset returns "OK E000". -/
def Obligations.ErrLastSkips : Prop :=
  (∀ s, Taken s → exec .svcErrLast s = .next (svcReply (.ok [.code s.evt.lastErr]) (s.count Reg.svcCntLines 35 0))) ∧
  ∀ p : List Code, p = [0x001, 0x008, 0x009, 0x106, 0x20E, 0x301, 0x303, 0x306, 0x408, 0x5C0, 0x5C1, 0x5C2, 0x5C3, 0x5C4, 0x5C5, 0x5C6, 0x5C7, 0x5C8, 0x5C9, 0x5CA, 0x5CB, 0x5CC, 0x5CD, 0x5CE, 0x5CF,
      0x601, 0x605, 0x606, 0x609, 0x707, 0x708, 0x70A, 0x70C, 0x805, 0x905, 0xA01] →
    (∀ code ∈ p, ∀ src d s, (raise code src d s).evt.lastErr = s.evt.lastErr) ∧
    (∀ code, code ∉ p → ∀ src d s, (raise code src d s).evt.ovf = false → (raise code src d s).evt.lastErr = code) ∧
    (∀ k s, (s.ld.st = .idle → s.scr.beater.running = false → (resetTo k s).evt.lastErr = 0) ∧ 
      (s.ld.st ≠ .idle → s.scr.beater.running = false → (resetTo k s).evt.lastErr = 0x212) ∧ (s.scr.beater.running = true → (resetTo k s).evt.lastErr = 0x807)) ∧
    (∀ l : List (Code × Req × Nat), (∀ e ∈ l, e.1 ∈ p) → ∀ s t, s.evt.lastErr = 0 → t = forAll l (fun e => raise e.1 e.2.1 e.2.2) s → Taken t →
      exec .svcErrLast t = .next (svcReply (.ok [.code 0]) (t.count Reg.svcCntLines 35 0)))

/-- R450: a pin report is valid in every mode; IN is the synchronised pad level, even while the pin is at a safe level. -/
def Obligations.PinReport : Prop :=
  ∀ (p : Fin 720) s, Taken s → ∀ u, u = s.count Reg.svcCntLines 35 0 → Runs (.svcPin p) s fun t => t.svc.reply = .ok [.dec (pinFunc s p.val), .hex 2 (pinOwner u p.val), .dec (pinLevel u p.val).toNat] ∧
    t.mode = s.mode ∧ t.pin = s.pin ∧ t.evt = s.evt ∧ KeepRegs [Reg.svcCntLines] s t

/-- R73: DONE is released only in RUN and RETAIN, and then HEALTH reads 0.3 V, 0.4 V or 0.5 V (codes 2, 3 and 4); BOOT returns PWR.BOOT_STATUS. -/
def Obligations.DoneOutput : Prop :=
  (∀ s, doneReleased s = true ↔ s.mode = .run ∨ s.mode = .retain) ∧
  (∀ s, doneReleased s = true → 100 * (healthCode s + 1) ∈ [300, 400, 500]) ∧
  (∀ s, Taken s → ∀ w, w = s.reg Reg.pwrBootStatus → exec .svcBoot s = .next (svcReply (.ok [.dec (fld w 3 0), .dec (fld w 5 4), .dec (fld w 6 6), .dec (fld w 7 7), .dec (fld w 8 8), .dec (fld w 31 16)])
    (s.count Reg.svcCntLines 35 0)))
end

