-- ==== Sys2Proof/Laws/Store.lean ====
section
/-! SUPPORT. What the operations of a store do: reads after writes, and the canonical form that every operation keeps. -/

namespace Sys2Proof.Machine

variable {α : Type} {d : Nat → α} {m : Store α} {j k lo : Nat} {v : α}

@[simp] theorem Store.get_nil : Store.get d [] k = d k := rfl

theorem Store.get_put_same : Store.get d (Store.put m k v) k = v := by
  induction m with
  | nil => simp [Store.put, Store.get]
  | cons e m ih =>
    obtain ⟨i, w⟩ := e
    simp only [Store.put]
    split
    · simp [Store.get]
    · split <;> simp_all [Store.get]

theorem Store.get_put_other (h : j ≠ k) : Store.get d (Store.put m k v) j = Store.get d m j := by
  induction m with
  | nil => simp [Store.put, Store.get, h]
  | cons e m ih =>
    obtain ⟨i, w⟩ := e
    simp only [Store.put]
    split
    · subst_vars; simp [Store.get, h]
    · split <;> simp [Store.get, h, ih]

theorem Store.get_del_same : Store.get d (Store.del m k) k = d k := by
  induction m with
  | nil => rfl
  | cons e m ih =>
    obtain ⟨i, w⟩ := e
    by_cases h : i = k
    · simpa [Store.del, h] using ih
    · simpa [Store.del, Store.get, h, Ne.symm h] using ih

theorem Store.get_del_other (h : j ≠ k) : Store.get d (Store.del m k) j = Store.get d m j := by
  induction m with
  | nil => rfl
  | cons e m ih =>
    obtain ⟨i, w⟩ := e
    by_cases hi : i = k
    · subst hi; simpa [Store.del, Store.get, h] using ih
    · simp only [Store.del] at ih
      simp [Store.del, Store.get, hi, ih]

/-- Entries that are kept read as before; the others as unlisted keys do. -/
theorem Store.get_keep (p : Nat → Bool) : Store.get d (Store.keep p m) k = if p k then Store.get d m k else d k := by
  induction m with
  | nil => simp [Store.keep, Store.get]
  | cons e m ih =>
    obtain ⟨i, w⟩ := e
    simp only [Store.keep] at ih
    by_cases hp : p i <;> by_cases hk : k = i <;> simp_all [Store.keep, Store.get]

variable [DecidableEq α]

/-- A read gives what the last write of the key stored. -/
@[simp] theorem Store.get_set_same : Store.get d (Store.set d m k v) k = v := by
  unfold Store.set
  split
  · rename_i h; rw [Store.get_del_same, h]
  · exact Store.get_put_same

/-- A write leaves every other key alone. -/
theorem Store.get_set_other (h : j ≠ k) : Store.get d (Store.set d m k v) j = Store.get d m j := by
  unfold Store.set
  split
  · exact Store.get_del_other h
  · exact Store.get_put_other h

theorem Store.get_set : Store.get d (Store.set d m k v) j = if j = k then v else Store.get d m j := by
  split
  · subst_vars; exact Store.get_set_same
  · exact Store.get_set_other ‹_›

theorem Store.wfFrom_mono (h : Store.wfFrom d lo m = true) (hj : j ≤ lo) : Store.wfFrom d j m = true := by
  cases m with
  | nil => rfl
  | cons e m => simp only [Store.wfFrom, Bool.and_eq_true, decide_eq_true_eq] at h ⊢; exact ⟨⟨by omega, h.1.2⟩, h.2⟩

theorem Store.wfFrom_filter (p : Nat × α → Bool) (h : Store.wfFrom d lo m = true) : Store.wfFrom d lo (m.filter p) = true := by
  induction m generalizing lo with
  | nil => rfl
  | cons e m ih =>
    simp only [Store.wfFrom, Bool.and_eq_true, decide_eq_true_eq] at h
    by_cases hp : p e
    · simp only [List.filter_cons, hp, if_true, Store.wfFrom, Bool.and_eq_true, decide_eq_true_eq]
      exact ⟨h.1, ih h.2⟩
    · simp only [List.filter_cons, hp]
      exact ih (Store.wfFrom_mono h.2 (by omega))

theorem Store.wfFrom_put (h : Store.wfFrom d lo m = true) (hk : lo ≤ k) (hv : v ≠ d k) : Store.wfFrom d lo (Store.put m k v) = true := by
  induction m generalizing lo with
  | nil => simp [Store.put, Store.wfFrom, hk, hv]
  | cons e m ih =>
    obtain ⟨i, w⟩ := e
    simp only [Store.wfFrom, Bool.and_eq_true, decide_eq_true_eq, Bool.not_eq_true', decide_eq_false_iff_not] at h
    simp only [Store.put]
    split
    · subst_vars
      simp only [Store.wfFrom, Bool.and_eq_true, decide_eq_true_eq, Bool.not_eq_true', decide_eq_false_iff_not]
      exact ⟨⟨hk, hv⟩, h.2⟩
    · split
      · simp only [Store.wfFrom, Bool.and_eq_true, decide_eq_true_eq, Bool.not_eq_true', decide_eq_false_iff_not]
        exact ⟨⟨hk, hv⟩, ⟨by omega, h.1.2⟩, h.2⟩
      · simp only [Store.wfFrom, Bool.and_eq_true, decide_eq_true_eq, Bool.not_eq_true', decide_eq_false_iff_not]
        exact ⟨h.1, ih h.2 (by omega)⟩

/-- Every write keeps the canonical form. -/
theorem Store.wf_set (h : Store.wf d m = true) : Store.wf d (Store.set d m k v) = true := by
  unfold Store.set
  split
  · exact Store.wfFrom_filter _ h
  · exact Store.wfFrom_put h (Nat.zero_le _) ‹_›

theorem Store.wf_keep (p : Nat → Bool) (h : Store.wf d m = true) : Store.wf d (Store.keep p m) = true :=
  Store.wfFrom_filter _ h

theorem Store.wf_upd (f : α → α) (h : Store.wf d m = true) : Store.wf d (Store.upd d m k f) = true := Store.wf_set h

end Sys2Proof.Machine
end

