-- ==== Sys2Proof/Laws/Fields.lean ====
section
/-! SUPPORT. Fields of words and registers: what a field reads after a write of it, of a field beside it, or of another register. -/

namespace Sys2Proof.Machine

variable {w : Word} {s : State} {a b hi lo hi' lo' i v : Nat}

theorem mskN_testBit : (mskN hi lo).testBit i = (decide (lo ≤ i) && decide (i < lo + (hi + 1 - lo))) := by
  simp only [mskN, Nat.testBit_shiftLeft, Nat.testBit_two_pow_sub_one]
  by_cases h : lo ≤ i
  · simp only [h, decide_true, Bool.true_and, decide_eq_decide]; omega
  · simp [h]

/-- A field's bits. -/
theorem fld_testBit {n : Nat} (x : BitVec n) : (fld x hi lo).testBit i = (decide (i < hi + 1 - lo) && x.toNat.testBit (lo + i)) := by
  simp [fld, Nat.testBit_mod_two_pow, Nat.testBit_shiftRight]

theorem setFld_testBit (h : hi < 36) :
    (setFld w hi lo v).toNat.testBit i =
      if lo ≤ i ∧ i ≤ hi then v.testBit (i - lo) else w.toNat.testBit i := by
  have hw : ∀ j, 36 ≤ j → w.toNat.testBit j = false := fun j hj =>
    Nat.testBit_lt_two_pow (Nat.lt_of_lt_of_le w.isLt (Nat.pow_le_pow_right (by omega) hj))
  have hm : (2 ^ 36 - 1 : Nat).testBit i = decide (i < 36) := Nat.testBit_two_pow_sub_one 36 i
  unfold setFld
  rw [BitVec.toNat_ofNat, Nat.testBit_mod_two_pow, Nat.testBit_or, Nat.testBit_and, Nat.testBit_and, Nat.testBit_xor, hm,
    mskN_testBit, Nat.testBit_shiftLeft]
  by_cases h1 : lo ≤ i ∧ i ≤ hi
  · have h2 : i < 36 := by omega
    have h3 : i < lo + (hi + 1 - lo) := by omega
    simp [h1, h2, h3]
  · have h3 : (decide (lo ≤ i) && decide (i < lo + (hi + 1 - lo))) = false := by
      simp only [Bool.and_eq_false_imp, decide_eq_true_eq, decide_eq_false_iff_not]; omega
    by_cases h2 : i < 36
    · simp [h1, h2, h3]
    · simp [h1, h2, hw i (by omega)]

@[simp] theorem fld_setFld_same (h : hi < 36) : fld (setFld w hi lo v) hi lo = v % 2 ^ (hi + 1 - lo) := by
  apply Nat.eq_of_testBit_eq
  intro i
  rw [fld_testBit, setFld_testBit h, Nat.testBit_mod_two_pow]
  by_cases h1 : i < hi + 1 - lo
  · have : lo ≤ lo + i ∧ lo + i ≤ hi := by omega
    simp [h1, this]
  · simp [h1]

theorem fld_setFld_other (h : hi < 36) (hd : hi' < lo ∨ hi < lo') : fld (setFld w hi lo v) hi' lo' = fld w hi' lo' := by
  apply Nat.eq_of_testBit_eq
  intro i
  rw [fld_testBit, fld_testBit, setFld_testBit h]
  by_cases h1 : i < hi' + 1 - lo'
  · have : ¬ (lo ≤ lo' + i ∧ lo' + i ≤ hi) := by omega
    simp [this]
  · simp [h1]

theorem fld_lt {n : Nat} (x : BitVec n) : fld x hi lo < 2 ^ (hi + 1 - lo) := Nat.mod_lt _ (by positivity)

/-! ### Registers -/

@[simp] theorem reg_setReg_same {x : Word} : (s.setReg a x).reg a = x := Store.get_set_same

theorem reg_setReg_other {x : Word} (h : b ≠ a) : (s.setReg a x).reg b = s.reg b := Store.get_set_other h

@[simp] theorem getF_setF_same (h : hi < 36) : (s.setF a hi lo v).getF a hi lo = v % 2 ^ (hi + 1 - lo) := by
  simp [State.getF, State.setF, h]

theorem getF_setF_other (h : b ≠ a) : (s.setF a hi lo v).getF b hi' lo' = s.getF b hi' lo' := by
  simp [State.getF, State.setF, reg_setReg_other h]

theorem getF_setF_field (h : hi < 36) (hd : hi' < lo ∨ hi < lo') : (s.setF a hi lo v).getF a hi' lo' = s.getF a hi' lo' := by
  simp [State.getF, State.setF, fld_setFld_other h hd]

theorem reg_setF_other (h : b ≠ a) : (s.setF a hi lo v).reg b = s.reg b := reg_setReg_other h

theorem reg_setB_other {c : Bool} (h : b ≠ a) : (s.setB a i c).reg b = s.reg b := reg_setReg_other h

theorem reg_count_other (h : b ≠ a) : (s.count a hi lo).reg b = s.reg b := reg_setReg_other h

@[simp] theorem getB_setB_same {c : Bool} (h : i < 36) : (s.setB a i c).getB a i = c := by
  have : i + 1 - i = 1 := by omega
  cases c <;> simp [State.getB, State.setB, h, this]

theorem getB_setB_other {c : Bool} {j : Nat} (h : b ≠ a) : (s.setB a i c).getB b j = s.getB b j := by
  simp [State.getB, State.setB, getF_setF_other h]

/-- A bit of a register. -/
theorem getB_eq : s.getB a i = (s.reg a).toNat.testBit i := by
  unfold State.getB State.getF fld
  rw [show i + 1 - i = 1 by omega, Nat.testBit_eq_decide_div_mod_eq, Nat.shiftRight_eq_div_pow]
  rfl

theorem getB_setF (h : hi < 36) : (s.setF a hi lo v).getB a i = if lo ≤ i ∧ i ≤ hi then v.testBit (i - lo) else s.getB a i := by
  rw [getB_eq, getB_eq, State.setF, reg_setReg_same, setFld_testBit h]

theorem getB_setF_other (h : b ≠ a) : (s.setF a hi lo v).getB b i = s.getB b i := by
  rw [getB_eq, getB_eq, reg_setF_other h]

/-- A counter field counts one and stays at its largest value. -/
theorem getF_count_same (h : hi < 36) : (s.count a hi lo).getF a hi lo = satInc (s.getF a hi lo) (2 ^ (hi + 1 - lo) - 1) := by
  have hl : s.getF a hi lo < 2 ^ (hi + 1 - lo) := fld_lt _
  unfold State.count
  rw [getF_setF_same h, Nat.mod_eq_of_lt]
  unfold satInc
  split <;> omega

end Sys2Proof.Machine
end

