-- ==== Sys2Proof/Laws/State.lean ====
section
/-! SUPPORT. What each update of the state leaves: one lemma for each field and update (the security store's stand in the Sec files). -/

namespace Sys2Proof.Machine

@[simp] theorem State.setReg_pending (s : State) (a : Nat) (v : Word) : (s.setReg a v).pending = s.pending := rfl
@[simp] theorem State.setReg_mode (s : State) (a : Nat) (v : Word) : (s.setReg a v).mode = s.mode := rfl
@[simp] theorem State.setReg_fnHeld (s : State) (a : Nat) (v : Word) : (s.setReg a v).fnHeld = s.fnHeld := rfl
@[simp] theorem State.setReg_boot (s : State) (a : Nat) (v : Word) : (s.setReg a v).boot = s.boot := rfl
@[simp] theorem State.setReg_gov (s : State) (a : Nat) (v : Word) : (s.setReg a v).gov = s.gov := rfl
@[simp] theorem State.setReg_hif (s : State) (a : Nat) (v : Word) : (s.setReg a v).hif = s.hif := rfl
@[simp] theorem State.setReg_evt (s : State) (a : Nat) (v : Word) : (s.setReg a v).evt = s.evt := rfl
@[simp] theorem State.setReg_resp (s : State) (a : Nat) (v : Word) : (s.setReg a v).resp = s.resp := rfl
@[simp] theorem State.setReg_rgn (s : State) (a : Nat) (v : Word) : (s.setReg a v).rgn = s.rgn := rfl
@[simp] theorem State.setReg_fab (s : State) (a : Nat) (v : Word) : (s.setReg a v).fab = s.fab := rfl
@[simp] theorem State.setReg_ld (s : State) (a : Nat) (v : Word) : (s.setReg a v).ld = s.ld := rfl
@[simp] theorem State.setReg_swap (s : State) (a : Nat) (v : Word) : (s.setReg a v).swap = s.swap := rfl
@[simp] theorem State.setReg_cal (s : State) (a : Nat) (v : Word) : (s.setReg a v).cal = s.cal := rfl
@[simp] theorem State.setReg_eng (s : State) (a : Nat) (v : Word) : (s.setReg a v).eng = s.eng := rfl
@[simp] theorem State.setReg_mesh (s : State) (a : Nat) (v : Word) : (s.setReg a v).mesh = s.mesh := rfl
@[simp] theorem State.setReg_core (s : State) (a : Nat) (v : Word) : (s.setReg a v).core = s.core := rfl
@[simp] theorem State.setReg_scr (s : State) (a : Nat) (v : Word) : (s.setReg a v).scr = s.scr := rfl
@[simp] theorem State.setReg_flash (s : State) (a : Nat) (v : Word) : (s.setReg a v).flash = s.flash := rfl
@[simp] theorem State.setReg_pin (s : State) (a : Nat) (v : Word) : (s.setReg a v).pin = s.pin := rfl
@[simp] theorem State.setReg_dbg (s : State) (a : Nat) (v : Word) : (s.setReg a v).dbg = s.dbg := rfl
@[simp] theorem State.setReg_wdt (s : State) (a : Nat) (v : Word) : (s.setReg a v).wdt = s.wdt := rfl
@[simp] theorem State.setReg_svc (s : State) (a : Nat) (v : Word) : (s.setReg a v).svc = s.svc := rfl
@[simp] theorem State.setReg_free (s : State) (a : Nat) (v : Word) : (s.setReg a v).free = s.free := rfl

@[simp] theorem State.setF_pending (s : State) (a hi lo v : Nat) : (s.setF a hi lo v).pending = s.pending := rfl
@[simp] theorem State.setF_mode (s : State) (a hi lo v : Nat) : (s.setF a hi lo v).mode = s.mode := rfl
@[simp] theorem State.setF_fnHeld (s : State) (a hi lo v : Nat) : (s.setF a hi lo v).fnHeld = s.fnHeld := rfl
@[simp] theorem State.setF_boot (s : State) (a hi lo v : Nat) : (s.setF a hi lo v).boot = s.boot := rfl
@[simp] theorem State.setF_gov (s : State) (a hi lo v : Nat) : (s.setF a hi lo v).gov = s.gov := rfl
@[simp] theorem State.setF_hif (s : State) (a hi lo v : Nat) : (s.setF a hi lo v).hif = s.hif := rfl
@[simp] theorem State.setF_evt (s : State) (a hi lo v : Nat) : (s.setF a hi lo v).evt = s.evt := rfl
@[simp] theorem State.setF_resp (s : State) (a hi lo v : Nat) : (s.setF a hi lo v).resp = s.resp := rfl
@[simp] theorem State.setF_rgn (s : State) (a hi lo v : Nat) : (s.setF a hi lo v).rgn = s.rgn := rfl
@[simp] theorem State.setF_fab (s : State) (a hi lo v : Nat) : (s.setF a hi lo v).fab = s.fab := rfl
@[simp] theorem State.setF_ld (s : State) (a hi lo v : Nat) : (s.setF a hi lo v).ld = s.ld := rfl
@[simp] theorem State.setF_swap (s : State) (a hi lo v : Nat) : (s.setF a hi lo v).swap = s.swap := rfl
@[simp] theorem State.setF_cal (s : State) (a hi lo v : Nat) : (s.setF a hi lo v).cal = s.cal := rfl
@[simp] theorem State.setF_eng (s : State) (a hi lo v : Nat) : (s.setF a hi lo v).eng = s.eng := rfl
@[simp] theorem State.setF_mesh (s : State) (a hi lo v : Nat) : (s.setF a hi lo v).mesh = s.mesh := rfl
@[simp] theorem State.setF_core (s : State) (a hi lo v : Nat) : (s.setF a hi lo v).core = s.core := rfl
@[simp] theorem State.setF_scr (s : State) (a hi lo v : Nat) : (s.setF a hi lo v).scr = s.scr := rfl
@[simp] theorem State.setF_flash (s : State) (a hi lo v : Nat) : (s.setF a hi lo v).flash = s.flash := rfl
@[simp] theorem State.setF_pin (s : State) (a hi lo v : Nat) : (s.setF a hi lo v).pin = s.pin := rfl
@[simp] theorem State.setF_dbg (s : State) (a hi lo v : Nat) : (s.setF a hi lo v).dbg = s.dbg := rfl
@[simp] theorem State.setF_wdt (s : State) (a hi lo v : Nat) : (s.setF a hi lo v).wdt = s.wdt := rfl
@[simp] theorem State.setF_svc (s : State) (a hi lo v : Nat) : (s.setF a hi lo v).svc = s.svc := rfl
@[simp] theorem State.setF_free (s : State) (a hi lo v : Nat) : (s.setF a hi lo v).free = s.free := rfl

@[simp] theorem State.setB_pending (s : State) (a i : Nat) (b : Bool) : (s.setB a i b).pending = s.pending := rfl
@[simp] theorem State.setB_mode (s : State) (a i : Nat) (b : Bool) : (s.setB a i b).mode = s.mode := rfl
@[simp] theorem State.setB_fnHeld (s : State) (a i : Nat) (b : Bool) : (s.setB a i b).fnHeld = s.fnHeld := rfl
@[simp] theorem State.setB_boot (s : State) (a i : Nat) (b : Bool) : (s.setB a i b).boot = s.boot := rfl
@[simp] theorem State.setB_gov (s : State) (a i : Nat) (b : Bool) : (s.setB a i b).gov = s.gov := rfl
@[simp] theorem State.setB_hif (s : State) (a i : Nat) (b : Bool) : (s.setB a i b).hif = s.hif := rfl
@[simp] theorem State.setB_evt (s : State) (a i : Nat) (b : Bool) : (s.setB a i b).evt = s.evt := rfl
@[simp] theorem State.setB_resp (s : State) (a i : Nat) (b : Bool) : (s.setB a i b).resp = s.resp := rfl
@[simp] theorem State.setB_rgn (s : State) (a i : Nat) (b : Bool) : (s.setB a i b).rgn = s.rgn := rfl
@[simp] theorem State.setB_fab (s : State) (a i : Nat) (b : Bool) : (s.setB a i b).fab = s.fab := rfl
@[simp] theorem State.setB_ld (s : State) (a i : Nat) (b : Bool) : (s.setB a i b).ld = s.ld := rfl
@[simp] theorem State.setB_swap (s : State) (a i : Nat) (b : Bool) : (s.setB a i b).swap = s.swap := rfl
@[simp] theorem State.setB_cal (s : State) (a i : Nat) (b : Bool) : (s.setB a i b).cal = s.cal := rfl
@[simp] theorem State.setB_eng (s : State) (a i : Nat) (b : Bool) : (s.setB a i b).eng = s.eng := rfl
@[simp] theorem State.setB_mesh (s : State) (a i : Nat) (b : Bool) : (s.setB a i b).mesh = s.mesh := rfl
@[simp] theorem State.setB_core (s : State) (a i : Nat) (b : Bool) : (s.setB a i b).core = s.core := rfl
@[simp] theorem State.setB_scr (s : State) (a i : Nat) (b : Bool) : (s.setB a i b).scr = s.scr := rfl
@[simp] theorem State.setB_flash (s : State) (a i : Nat) (b : Bool) : (s.setB a i b).flash = s.flash := rfl
@[simp] theorem State.setB_pin (s : State) (a i : Nat) (b : Bool) : (s.setB a i b).pin = s.pin := rfl
@[simp] theorem State.setB_dbg (s : State) (a i : Nat) (b : Bool) : (s.setB a i b).dbg = s.dbg := rfl
@[simp] theorem State.setB_wdt (s : State) (a i : Nat) (b : Bool) : (s.setB a i b).wdt = s.wdt := rfl
@[simp] theorem State.setB_svc (s : State) (a i : Nat) (b : Bool) : (s.setB a i b).svc = s.svc := rfl
@[simp] theorem State.setB_free (s : State) (a i : Nat) (b : Bool) : (s.setB a i b).free = s.free := rfl

@[simp] theorem State.count_pending (s : State) (a hi lo : Nat) : (s.count a hi lo).pending = s.pending := rfl
@[simp] theorem State.count_mode (s : State) (a hi lo : Nat) : (s.count a hi lo).mode = s.mode := rfl
@[simp] theorem State.count_fnHeld (s : State) (a hi lo : Nat) : (s.count a hi lo).fnHeld = s.fnHeld := rfl
@[simp] theorem State.count_boot (s : State) (a hi lo : Nat) : (s.count a hi lo).boot = s.boot := rfl
@[simp] theorem State.count_gov (s : State) (a hi lo : Nat) : (s.count a hi lo).gov = s.gov := rfl
@[simp] theorem State.count_hif (s : State) (a hi lo : Nat) : (s.count a hi lo).hif = s.hif := rfl
@[simp] theorem State.count_evt (s : State) (a hi lo : Nat) : (s.count a hi lo).evt = s.evt := rfl
@[simp] theorem State.count_resp (s : State) (a hi lo : Nat) : (s.count a hi lo).resp = s.resp := rfl
@[simp] theorem State.count_rgn (s : State) (a hi lo : Nat) : (s.count a hi lo).rgn = s.rgn := rfl
@[simp] theorem State.count_fab (s : State) (a hi lo : Nat) : (s.count a hi lo).fab = s.fab := rfl
@[simp] theorem State.count_ld (s : State) (a hi lo : Nat) : (s.count a hi lo).ld = s.ld := rfl
@[simp] theorem State.count_swap (s : State) (a hi lo : Nat) : (s.count a hi lo).swap = s.swap := rfl
@[simp] theorem State.count_cal (s : State) (a hi lo : Nat) : (s.count a hi lo).cal = s.cal := rfl
@[simp] theorem State.count_eng (s : State) (a hi lo : Nat) : (s.count a hi lo).eng = s.eng := rfl
@[simp] theorem State.count_mesh (s : State) (a hi lo : Nat) : (s.count a hi lo).mesh = s.mesh := rfl
@[simp] theorem State.count_core (s : State) (a hi lo : Nat) : (s.count a hi lo).core = s.core := rfl
@[simp] theorem State.count_scr (s : State) (a hi lo : Nat) : (s.count a hi lo).scr = s.scr := rfl
@[simp] theorem State.count_flash (s : State) (a hi lo : Nat) : (s.count a hi lo).flash = s.flash := rfl
@[simp] theorem State.count_pin (s : State) (a hi lo : Nat) : (s.count a hi lo).pin = s.pin := rfl
@[simp] theorem State.count_dbg (s : State) (a hi lo : Nat) : (s.count a hi lo).dbg = s.dbg := rfl
@[simp] theorem State.count_wdt (s : State) (a hi lo : Nat) : (s.count a hi lo).wdt = s.wdt := rfl
@[simp] theorem State.count_svc (s : State) (a hi lo : Nat) : (s.count a hi lo).svc = s.svc := rfl
@[simp] theorem State.count_free (s : State) (a hi lo : Nat) : (s.count a hi lo).free = s.free := rfl

@[simp] theorem State.draw_pending (s : State) : (s.draw).pending = s.pending := rfl
@[simp] theorem State.draw_mode (s : State) : (s.draw).mode = s.mode := rfl
@[simp] theorem State.draw_regs (s : State) : (s.draw).regs = s.regs := rfl
@[simp] theorem State.draw_fnHeld (s : State) : (s.draw).fnHeld = s.fnHeld := rfl
@[simp] theorem State.draw_boot (s : State) : (s.draw).boot = s.boot := rfl
@[simp] theorem State.draw_gov (s : State) : (s.draw).gov = s.gov := rfl
@[simp] theorem State.draw_hif (s : State) : (s.draw).hif = s.hif := rfl
@[simp] theorem State.draw_evt (s : State) : (s.draw).evt = s.evt := rfl
@[simp] theorem State.draw_resp (s : State) : (s.draw).resp = s.resp := rfl
@[simp] theorem State.draw_rgn (s : State) : (s.draw).rgn = s.rgn := rfl
@[simp] theorem State.draw_fab (s : State) : (s.draw).fab = s.fab := rfl
@[simp] theorem State.draw_ld (s : State) : (s.draw).ld = s.ld := rfl
@[simp] theorem State.draw_swap (s : State) : (s.draw).swap = s.swap := rfl
@[simp] theorem State.draw_cal (s : State) : (s.draw).cal = s.cal := rfl
@[simp] theorem State.draw_eng (s : State) : (s.draw).eng = s.eng := rfl
@[simp] theorem State.draw_mesh (s : State) : (s.draw).mesh = s.mesh := rfl
@[simp] theorem State.draw_core (s : State) : (s.draw).core = s.core := rfl
@[simp] theorem State.draw_scr (s : State) : (s.draw).scr = s.scr := rfl
@[simp] theorem State.draw_flash (s : State) : (s.draw).flash = s.flash := rfl
@[simp] theorem State.draw_pin (s : State) : (s.draw).pin = s.pin := rfl
@[simp] theorem State.draw_dbg (s : State) : (s.draw).dbg = s.dbg := rfl
@[simp] theorem State.draw_wdt (s : State) : (s.draw).wdt = s.wdt := rfl
@[simp] theorem State.draw_svc (s : State) : (s.draw).svc = s.svc := rfl
@[simp] theorem State.draw_reg (s : State) (j : Nat) : (s.draw).reg j = s.reg j := rfl

@[simp] theorem State.setRg_pending (s : State) (n : Nat) (r : Region) : (s.setRg n r).pending = s.pending := rfl
@[simp] theorem State.setRg_mode (s : State) (n : Nat) (r : Region) : (s.setRg n r).mode = s.mode := rfl
@[simp] theorem State.setRg_regs (s : State) (n : Nat) (r : Region) : (s.setRg n r).regs = s.regs := rfl
@[simp] theorem State.setRg_fnHeld (s : State) (n : Nat) (r : Region) : (s.setRg n r).fnHeld = s.fnHeld := rfl
@[simp] theorem State.setRg_boot (s : State) (n : Nat) (r : Region) : (s.setRg n r).boot = s.boot := rfl
@[simp] theorem State.setRg_gov (s : State) (n : Nat) (r : Region) : (s.setRg n r).gov = s.gov := rfl
@[simp] theorem State.setRg_hif (s : State) (n : Nat) (r : Region) : (s.setRg n r).hif = s.hif := rfl
@[simp] theorem State.setRg_evt (s : State) (n : Nat) (r : Region) : (s.setRg n r).evt = s.evt := rfl
@[simp] theorem State.setRg_resp (s : State) (n : Nat) (r : Region) : (s.setRg n r).resp = s.resp := rfl
@[simp] theorem State.setRg_fab (s : State) (n : Nat) (r : Region) : (s.setRg n r).fab = s.fab := rfl
@[simp] theorem State.setRg_ld (s : State) (n : Nat) (r : Region) : (s.setRg n r).ld = s.ld := rfl
@[simp] theorem State.setRg_swap (s : State) (n : Nat) (r : Region) : (s.setRg n r).swap = s.swap := rfl
@[simp] theorem State.setRg_cal (s : State) (n : Nat) (r : Region) : (s.setRg n r).cal = s.cal := rfl
@[simp] theorem State.setRg_eng (s : State) (n : Nat) (r : Region) : (s.setRg n r).eng = s.eng := rfl
@[simp] theorem State.setRg_mesh (s : State) (n : Nat) (r : Region) : (s.setRg n r).mesh = s.mesh := rfl
@[simp] theorem State.setRg_core (s : State) (n : Nat) (r : Region) : (s.setRg n r).core = s.core := rfl
@[simp] theorem State.setRg_scr (s : State) (n : Nat) (r : Region) : (s.setRg n r).scr = s.scr := rfl
@[simp] theorem State.setRg_flash (s : State) (n : Nat) (r : Region) : (s.setRg n r).flash = s.flash := rfl
@[simp] theorem State.setRg_pin (s : State) (n : Nat) (r : Region) : (s.setRg n r).pin = s.pin := rfl
@[simp] theorem State.setRg_dbg (s : State) (n : Nat) (r : Region) : (s.setRg n r).dbg = s.dbg := rfl
@[simp] theorem State.setRg_wdt (s : State) (n : Nat) (r : Region) : (s.setRg n r).wdt = s.wdt := rfl
@[simp] theorem State.setRg_svc (s : State) (n : Nat) (r : Region) : (s.setRg n r).svc = s.svc := rfl
@[simp] theorem State.setRg_free (s : State) (n : Nat) (r : Region) : (s.setRg n r).free = s.free := rfl
@[simp] theorem State.setRg_reg (s : State) (n : Nat) (r : Region) (j : Nat) : (s.setRg n r).reg j = s.reg j := rfl

@[simp] theorem State.setPn_pending (s : State) (i : Nat) (p : Pin) : (s.setPn i p).pending = s.pending := rfl
@[simp] theorem State.setPn_mode (s : State) (i : Nat) (p : Pin) : (s.setPn i p).mode = s.mode := rfl
@[simp] theorem State.setPn_regs (s : State) (i : Nat) (p : Pin) : (s.setPn i p).regs = s.regs := rfl
@[simp] theorem State.setPn_fnHeld (s : State) (i : Nat) (p : Pin) : (s.setPn i p).fnHeld = s.fnHeld := rfl
@[simp] theorem State.setPn_boot (s : State) (i : Nat) (p : Pin) : (s.setPn i p).boot = s.boot := rfl
@[simp] theorem State.setPn_gov (s : State) (i : Nat) (p : Pin) : (s.setPn i p).gov = s.gov := rfl
@[simp] theorem State.setPn_hif (s : State) (i : Nat) (p : Pin) : (s.setPn i p).hif = s.hif := rfl
@[simp] theorem State.setPn_evt (s : State) (i : Nat) (p : Pin) : (s.setPn i p).evt = s.evt := rfl
@[simp] theorem State.setPn_resp (s : State) (i : Nat) (p : Pin) : (s.setPn i p).resp = s.resp := rfl
@[simp] theorem State.setPn_rgn (s : State) (i : Nat) (p : Pin) : (s.setPn i p).rgn = s.rgn := rfl
@[simp] theorem State.setPn_fab (s : State) (i : Nat) (p : Pin) : (s.setPn i p).fab = s.fab := rfl
@[simp] theorem State.setPn_ld (s : State) (i : Nat) (p : Pin) : (s.setPn i p).ld = s.ld := rfl
@[simp] theorem State.setPn_swap (s : State) (i : Nat) (p : Pin) : (s.setPn i p).swap = s.swap := rfl
@[simp] theorem State.setPn_cal (s : State) (i : Nat) (p : Pin) : (s.setPn i p).cal = s.cal := rfl
@[simp] theorem State.setPn_eng (s : State) (i : Nat) (p : Pin) : (s.setPn i p).eng = s.eng := rfl
@[simp] theorem State.setPn_mesh (s : State) (i : Nat) (p : Pin) : (s.setPn i p).mesh = s.mesh := rfl
@[simp] theorem State.setPn_core (s : State) (i : Nat) (p : Pin) : (s.setPn i p).core = s.core := rfl
@[simp] theorem State.setPn_scr (s : State) (i : Nat) (p : Pin) : (s.setPn i p).scr = s.scr := rfl
@[simp] theorem State.setPn_flash (s : State) (i : Nat) (p : Pin) : (s.setPn i p).flash = s.flash := rfl
@[simp] theorem State.setPn_dbg (s : State) (i : Nat) (p : Pin) : (s.setPn i p).dbg = s.dbg := rfl
@[simp] theorem State.setPn_wdt (s : State) (i : Nat) (p : Pin) : (s.setPn i p).wdt = s.wdt := rfl
@[simp] theorem State.setPn_svc (s : State) (i : Nat) (p : Pin) : (s.setPn i p).svc = s.svc := rfl
@[simp] theorem State.setPn_free (s : State) (i : Nat) (p : Pin) : (s.setPn i p).free = s.free := rfl
@[simp] theorem State.setPn_reg (s : State) (i : Nat) (p : Pin) (j : Nat) : (s.setPn i p).reg j = s.reg j := rfl

@[simp] theorem State.setFn_pending (s : State) (f : Func) (v : Nat) : (s.setFn f v).pending = s.pending := rfl
@[simp] theorem State.setFn_mode (s : State) (f : Func) (v : Nat) : (s.setFn f v).mode = s.mode := rfl
@[simp] theorem State.setFn_fnHeld (s : State) (f : Func) (v : Nat) : (s.setFn f v).fnHeld = s.fnHeld := rfl
@[simp] theorem State.setFn_boot (s : State) (f : Func) (v : Nat) : (s.setFn f v).boot = s.boot := rfl
@[simp] theorem State.setFn_gov (s : State) (f : Func) (v : Nat) : (s.setFn f v).gov = s.gov := rfl
@[simp] theorem State.setFn_hif (s : State) (f : Func) (v : Nat) : (s.setFn f v).hif = s.hif := rfl
@[simp] theorem State.setFn_evt (s : State) (f : Func) (v : Nat) : (s.setFn f v).evt = s.evt := rfl
@[simp] theorem State.setFn_resp (s : State) (f : Func) (v : Nat) : (s.setFn f v).resp = s.resp := rfl
@[simp] theorem State.setFn_rgn (s : State) (f : Func) (v : Nat) : (s.setFn f v).rgn = s.rgn := rfl
@[simp] theorem State.setFn_fab (s : State) (f : Func) (v : Nat) : (s.setFn f v).fab = s.fab := rfl
@[simp] theorem State.setFn_ld (s : State) (f : Func) (v : Nat) : (s.setFn f v).ld = s.ld := rfl
@[simp] theorem State.setFn_swap (s : State) (f : Func) (v : Nat) : (s.setFn f v).swap = s.swap := rfl
@[simp] theorem State.setFn_cal (s : State) (f : Func) (v : Nat) : (s.setFn f v).cal = s.cal := rfl
@[simp] theorem State.setFn_eng (s : State) (f : Func) (v : Nat) : (s.setFn f v).eng = s.eng := rfl
@[simp] theorem State.setFn_mesh (s : State) (f : Func) (v : Nat) : (s.setFn f v).mesh = s.mesh := rfl
@[simp] theorem State.setFn_core (s : State) (f : Func) (v : Nat) : (s.setFn f v).core = s.core := rfl
@[simp] theorem State.setFn_scr (s : State) (f : Func) (v : Nat) : (s.setFn f v).scr = s.scr := rfl
@[simp] theorem State.setFn_flash (s : State) (f : Func) (v : Nat) : (s.setFn f v).flash = s.flash := rfl
@[simp] theorem State.setFn_pin (s : State) (f : Func) (v : Nat) : (s.setFn f v).pin = s.pin := rfl
@[simp] theorem State.setFn_dbg (s : State) (f : Func) (v : Nat) : (s.setFn f v).dbg = s.dbg := rfl
@[simp] theorem State.setFn_wdt (s : State) (f : Func) (v : Nat) : (s.setFn f v).wdt = s.wdt := rfl
@[simp] theorem State.setFn_svc (s : State) (f : Func) (v : Nat) : (s.setFn f v).svc = s.svc := rfl
@[simp] theorem State.setFn_free (s : State) (f : Func) (v : Nat) : (s.setFn f v).free = s.free := rfl

@[simp] theorem State.setCfg_pending (s : State) (k : Nat) (c : Cell) : (s.setCfg k c).pending = s.pending := rfl
@[simp] theorem State.setCfg_mode (s : State) (k : Nat) (c : Cell) : (s.setCfg k c).mode = s.mode := rfl
@[simp] theorem State.setCfg_regs (s : State) (k : Nat) (c : Cell) : (s.setCfg k c).regs = s.regs := rfl
@[simp] theorem State.setCfg_fnHeld (s : State) (k : Nat) (c : Cell) : (s.setCfg k c).fnHeld = s.fnHeld := rfl
@[simp] theorem State.setCfg_boot (s : State) (k : Nat) (c : Cell) : (s.setCfg k c).boot = s.boot := rfl
@[simp] theorem State.setCfg_gov (s : State) (k : Nat) (c : Cell) : (s.setCfg k c).gov = s.gov := rfl
@[simp] theorem State.setCfg_hif (s : State) (k : Nat) (c : Cell) : (s.setCfg k c).hif = s.hif := rfl
@[simp] theorem State.setCfg_evt (s : State) (k : Nat) (c : Cell) : (s.setCfg k c).evt = s.evt := rfl
@[simp] theorem State.setCfg_resp (s : State) (k : Nat) (c : Cell) : (s.setCfg k c).resp = s.resp := rfl
@[simp] theorem State.setCfg_rgn (s : State) (k : Nat) (c : Cell) : (s.setCfg k c).rgn = s.rgn := rfl
@[simp] theorem State.setCfg_ld (s : State) (k : Nat) (c : Cell) : (s.setCfg k c).ld = s.ld := rfl
@[simp] theorem State.setCfg_swap (s : State) (k : Nat) (c : Cell) : (s.setCfg k c).swap = s.swap := rfl
@[simp] theorem State.setCfg_cal (s : State) (k : Nat) (c : Cell) : (s.setCfg k c).cal = s.cal := rfl
@[simp] theorem State.setCfg_eng (s : State) (k : Nat) (c : Cell) : (s.setCfg k c).eng = s.eng := rfl
@[simp] theorem State.setCfg_mesh (s : State) (k : Nat) (c : Cell) : (s.setCfg k c).mesh = s.mesh := rfl
@[simp] theorem State.setCfg_core (s : State) (k : Nat) (c : Cell) : (s.setCfg k c).core = s.core := rfl
@[simp] theorem State.setCfg_scr (s : State) (k : Nat) (c : Cell) : (s.setCfg k c).scr = s.scr := rfl
@[simp] theorem State.setCfg_flash (s : State) (k : Nat) (c : Cell) : (s.setCfg k c).flash = s.flash := rfl
@[simp] theorem State.setCfg_pin (s : State) (k : Nat) (c : Cell) : (s.setCfg k c).pin = s.pin := rfl
@[simp] theorem State.setCfg_dbg (s : State) (k : Nat) (c : Cell) : (s.setCfg k c).dbg = s.dbg := rfl
@[simp] theorem State.setCfg_wdt (s : State) (k : Nat) (c : Cell) : (s.setCfg k c).wdt = s.wdt := rfl
@[simp] theorem State.setCfg_svc (s : State) (k : Nat) (c : Cell) : (s.setCfg k c).svc = s.svc := rfl
@[simp] theorem State.setCfg_free (s : State) (k : Nat) (c : Cell) : (s.setCfg k c).free = s.free := rfl
@[simp] theorem State.setCfg_reg (s : State) (k : Nat) (c : Cell) (j : Nat) : (s.setCfg k c).reg j = s.reg j := rfl

@[simp] theorem State.setRam_pending (s : State) (n col row : Nat) (r : Ram36) : (s.setRam n col row r).pending = s.pending := rfl
@[simp] theorem State.setRam_mode (s : State) (n col row : Nat) (r : Ram36) : (s.setRam n col row r).mode = s.mode := rfl
@[simp] theorem State.setRam_regs (s : State) (n col row : Nat) (r : Ram36) : (s.setRam n col row r).regs = s.regs := rfl
@[simp] theorem State.setRam_fnHeld (s : State) (n col row : Nat) (r : Ram36) : (s.setRam n col row r).fnHeld = s.fnHeld := rfl
@[simp] theorem State.setRam_boot (s : State) (n col row : Nat) (r : Ram36) : (s.setRam n col row r).boot = s.boot := rfl
@[simp] theorem State.setRam_gov (s : State) (n col row : Nat) (r : Ram36) : (s.setRam n col row r).gov = s.gov := rfl
@[simp] theorem State.setRam_hif (s : State) (n col row : Nat) (r : Ram36) : (s.setRam n col row r).hif = s.hif := rfl
@[simp] theorem State.setRam_evt (s : State) (n col row : Nat) (r : Ram36) : (s.setRam n col row r).evt = s.evt := rfl
@[simp] theorem State.setRam_resp (s : State) (n col row : Nat) (r : Ram36) : (s.setRam n col row r).resp = s.resp := rfl
@[simp] theorem State.setRam_rgn (s : State) (n col row : Nat) (r : Ram36) : (s.setRam n col row r).rgn = s.rgn := rfl
@[simp] theorem State.setRam_ld (s : State) (n col row : Nat) (r : Ram36) : (s.setRam n col row r).ld = s.ld := rfl
@[simp] theorem State.setRam_swap (s : State) (n col row : Nat) (r : Ram36) : (s.setRam n col row r).swap = s.swap := rfl
@[simp] theorem State.setRam_cal (s : State) (n col row : Nat) (r : Ram36) : (s.setRam n col row r).cal = s.cal := rfl
@[simp] theorem State.setRam_eng (s : State) (n col row : Nat) (r : Ram36) : (s.setRam n col row r).eng = s.eng := rfl
@[simp] theorem State.setRam_mesh (s : State) (n col row : Nat) (r : Ram36) : (s.setRam n col row r).mesh = s.mesh := rfl
@[simp] theorem State.setRam_core (s : State) (n col row : Nat) (r : Ram36) : (s.setRam n col row r).core = s.core := rfl
@[simp] theorem State.setRam_scr (s : State) (n col row : Nat) (r : Ram36) : (s.setRam n col row r).scr = s.scr := rfl
@[simp] theorem State.setRam_flash (s : State) (n col row : Nat) (r : Ram36) : (s.setRam n col row r).flash = s.flash := rfl
@[simp] theorem State.setRam_pin (s : State) (n col row : Nat) (r : Ram36) : (s.setRam n col row r).pin = s.pin := rfl
@[simp] theorem State.setRam_dbg (s : State) (n col row : Nat) (r : Ram36) : (s.setRam n col row r).dbg = s.dbg := rfl
@[simp] theorem State.setRam_wdt (s : State) (n col row : Nat) (r : Ram36) : (s.setRam n col row r).wdt = s.wdt := rfl
@[simp] theorem State.setRam_svc (s : State) (n col row : Nat) (r : Ram36) : (s.setRam n col row r).svc = s.svc := rfl
@[simp] theorem State.setRam_free (s : State) (n col row : Nat) (r : Ram36) : (s.setRam n col row r).free = s.free := rfl
@[simp] theorem State.setRam_reg (s : State) (n col row : Nat) (r : Ram36) (j : Nat) : (s.setRam n col row r).reg j = s.reg j := rfl

@[simp] theorem State.setMac_pending (s : State) (k : Nat) (m : Mac36) : (s.setMac k m).pending = s.pending := rfl
@[simp] theorem State.setMac_mode (s : State) (k : Nat) (m : Mac36) : (s.setMac k m).mode = s.mode := rfl
@[simp] theorem State.setMac_regs (s : State) (k : Nat) (m : Mac36) : (s.setMac k m).regs = s.regs := rfl
@[simp] theorem State.setMac_fnHeld (s : State) (k : Nat) (m : Mac36) : (s.setMac k m).fnHeld = s.fnHeld := rfl
@[simp] theorem State.setMac_boot (s : State) (k : Nat) (m : Mac36) : (s.setMac k m).boot = s.boot := rfl
@[simp] theorem State.setMac_gov (s : State) (k : Nat) (m : Mac36) : (s.setMac k m).gov = s.gov := rfl
@[simp] theorem State.setMac_hif (s : State) (k : Nat) (m : Mac36) : (s.setMac k m).hif = s.hif := rfl
@[simp] theorem State.setMac_evt (s : State) (k : Nat) (m : Mac36) : (s.setMac k m).evt = s.evt := rfl
@[simp] theorem State.setMac_resp (s : State) (k : Nat) (m : Mac36) : (s.setMac k m).resp = s.resp := rfl
@[simp] theorem State.setMac_rgn (s : State) (k : Nat) (m : Mac36) : (s.setMac k m).rgn = s.rgn := rfl
@[simp] theorem State.setMac_ld (s : State) (k : Nat) (m : Mac36) : (s.setMac k m).ld = s.ld := rfl
@[simp] theorem State.setMac_swap (s : State) (k : Nat) (m : Mac36) : (s.setMac k m).swap = s.swap := rfl
@[simp] theorem State.setMac_cal (s : State) (k : Nat) (m : Mac36) : (s.setMac k m).cal = s.cal := rfl
@[simp] theorem State.setMac_eng (s : State) (k : Nat) (m : Mac36) : (s.setMac k m).eng = s.eng := rfl
@[simp] theorem State.setMac_mesh (s : State) (k : Nat) (m : Mac36) : (s.setMac k m).mesh = s.mesh := rfl
@[simp] theorem State.setMac_core (s : State) (k : Nat) (m : Mac36) : (s.setMac k m).core = s.core := rfl
@[simp] theorem State.setMac_scr (s : State) (k : Nat) (m : Mac36) : (s.setMac k m).scr = s.scr := rfl
@[simp] theorem State.setMac_flash (s : State) (k : Nat) (m : Mac36) : (s.setMac k m).flash = s.flash := rfl
@[simp] theorem State.setMac_pin (s : State) (k : Nat) (m : Mac36) : (s.setMac k m).pin = s.pin := rfl
@[simp] theorem State.setMac_dbg (s : State) (k : Nat) (m : Mac36) : (s.setMac k m).dbg = s.dbg := rfl
@[simp] theorem State.setMac_wdt (s : State) (k : Nat) (m : Mac36) : (s.setMac k m).wdt = s.wdt := rfl
@[simp] theorem State.setMac_svc (s : State) (k : Nat) (m : Mac36) : (s.setMac k m).svc = s.svc := rfl
@[simp] theorem State.setMac_free (s : State) (k : Nat) (m : Mac36) : (s.setMac k m).free = s.free := rfl
@[simp] theorem State.setMac_reg (s : State) (k : Nat) (m : Mac36) (j : Nat) : (s.setMac k m).reg j = s.reg j := rfl

@[simp] theorem State.setFa_pending (s : State) (a : Nat) (c : Cell) : (s.setFa a c).pending = s.pending := rfl
@[simp] theorem State.setFa_mode (s : State) (a : Nat) (c : Cell) : (s.setFa a c).mode = s.mode := rfl
@[simp] theorem State.setFa_regs (s : State) (a : Nat) (c : Cell) : (s.setFa a c).regs = s.regs := rfl
@[simp] theorem State.setFa_fnHeld (s : State) (a : Nat) (c : Cell) : (s.setFa a c).fnHeld = s.fnHeld := rfl
@[simp] theorem State.setFa_boot (s : State) (a : Nat) (c : Cell) : (s.setFa a c).boot = s.boot := rfl
@[simp] theorem State.setFa_gov (s : State) (a : Nat) (c : Cell) : (s.setFa a c).gov = s.gov := rfl
@[simp] theorem State.setFa_hif (s : State) (a : Nat) (c : Cell) : (s.setFa a c).hif = s.hif := rfl
@[simp] theorem State.setFa_evt (s : State) (a : Nat) (c : Cell) : (s.setFa a c).evt = s.evt := rfl
@[simp] theorem State.setFa_resp (s : State) (a : Nat) (c : Cell) : (s.setFa a c).resp = s.resp := rfl
@[simp] theorem State.setFa_rgn (s : State) (a : Nat) (c : Cell) : (s.setFa a c).rgn = s.rgn := rfl
@[simp] theorem State.setFa_fab (s : State) (a : Nat) (c : Cell) : (s.setFa a c).fab = s.fab := rfl
@[simp] theorem State.setFa_ld (s : State) (a : Nat) (c : Cell) : (s.setFa a c).ld = s.ld := rfl
@[simp] theorem State.setFa_swap (s : State) (a : Nat) (c : Cell) : (s.setFa a c).swap = s.swap := rfl
@[simp] theorem State.setFa_cal (s : State) (a : Nat) (c : Cell) : (s.setFa a c).cal = s.cal := rfl
@[simp] theorem State.setFa_eng (s : State) (a : Nat) (c : Cell) : (s.setFa a c).eng = s.eng := rfl
@[simp] theorem State.setFa_mesh (s : State) (a : Nat) (c : Cell) : (s.setFa a c).mesh = s.mesh := rfl
@[simp] theorem State.setFa_core (s : State) (a : Nat) (c : Cell) : (s.setFa a c).core = s.core := rfl
@[simp] theorem State.setFa_scr (s : State) (a : Nat) (c : Cell) : (s.setFa a c).scr = s.scr := rfl
@[simp] theorem State.setFa_pin (s : State) (a : Nat) (c : Cell) : (s.setFa a c).pin = s.pin := rfl
@[simp] theorem State.setFa_dbg (s : State) (a : Nat) (c : Cell) : (s.setFa a c).dbg = s.dbg := rfl
@[simp] theorem State.setFa_wdt (s : State) (a : Nat) (c : Cell) : (s.setFa a c).wdt = s.wdt := rfl
@[simp] theorem State.setFa_svc (s : State) (a : Nat) (c : Cell) : (s.setFa a c).svc = s.svc := rfl
@[simp] theorem State.setFa_free (s : State) (a : Nat) (c : Cell) : (s.setFa a c).free = s.free := rfl
@[simp] theorem State.setFa_reg (s : State) (a : Nat) (c : Cell) (j : Nat) : (s.setFa a c).reg j = s.reg j := rfl

@[simp] theorem State.setPort_pending (s : State) (p : Nat) (q : Port) : (s.setPort p q).pending = s.pending := rfl
@[simp] theorem State.setPort_mode (s : State) (p : Nat) (q : Port) : (s.setPort p q).mode = s.mode := rfl
@[simp] theorem State.setPort_regs (s : State) (p : Nat) (q : Port) : (s.setPort p q).regs = s.regs := rfl
@[simp] theorem State.setPort_fnHeld (s : State) (p : Nat) (q : Port) : (s.setPort p q).fnHeld = s.fnHeld := rfl
@[simp] theorem State.setPort_boot (s : State) (p : Nat) (q : Port) : (s.setPort p q).boot = s.boot := rfl
@[simp] theorem State.setPort_gov (s : State) (p : Nat) (q : Port) : (s.setPort p q).gov = s.gov := rfl
@[simp] theorem State.setPort_hif (s : State) (p : Nat) (q : Port) : (s.setPort p q).hif = s.hif := rfl
@[simp] theorem State.setPort_evt (s : State) (p : Nat) (q : Port) : (s.setPort p q).evt = s.evt := rfl
@[simp] theorem State.setPort_resp (s : State) (p : Nat) (q : Port) : (s.setPort p q).resp = s.resp := rfl
@[simp] theorem State.setPort_rgn (s : State) (p : Nat) (q : Port) : (s.setPort p q).rgn = s.rgn := rfl
@[simp] theorem State.setPort_fab (s : State) (p : Nat) (q : Port) : (s.setPort p q).fab = s.fab := rfl
@[simp] theorem State.setPort_ld (s : State) (p : Nat) (q : Port) : (s.setPort p q).ld = s.ld := rfl
@[simp] theorem State.setPort_swap (s : State) (p : Nat) (q : Port) : (s.setPort p q).swap = s.swap := rfl
@[simp] theorem State.setPort_cal (s : State) (p : Nat) (q : Port) : (s.setPort p q).cal = s.cal := rfl
@[simp] theorem State.setPort_eng (s : State) (p : Nat) (q : Port) : (s.setPort p q).eng = s.eng := rfl
@[simp] theorem State.setPort_core (s : State) (p : Nat) (q : Port) : (s.setPort p q).core = s.core := rfl
@[simp] theorem State.setPort_scr (s : State) (p : Nat) (q : Port) : (s.setPort p q).scr = s.scr := rfl
@[simp] theorem State.setPort_flash (s : State) (p : Nat) (q : Port) : (s.setPort p q).flash = s.flash := rfl
@[simp] theorem State.setPort_pin (s : State) (p : Nat) (q : Port) : (s.setPort p q).pin = s.pin := rfl
@[simp] theorem State.setPort_dbg (s : State) (p : Nat) (q : Port) : (s.setPort p q).dbg = s.dbg := rfl
@[simp] theorem State.setPort_wdt (s : State) (p : Nat) (q : Port) : (s.setPort p q).wdt = s.wdt := rfl
@[simp] theorem State.setPort_svc (s : State) (p : Nat) (q : Port) : (s.setPort p q).svc = s.svc := rfl
@[simp] theorem State.setPort_free (s : State) (p : Nat) (q : Port) : (s.setPort p q).free = s.free := rfl
@[simp] theorem State.setPort_reg (s : State) (p : Nat) (q : Port) (j : Nat) : (s.setPort p q).reg j = s.reg j := rfl

@[simp] theorem State.setLink_pending (s : State) (p l : Nat) : (s.setLink p l).pending = s.pending := rfl
@[simp] theorem State.setLink_mode (s : State) (p l : Nat) : (s.setLink p l).mode = s.mode := rfl
@[simp] theorem State.setLink_fnHeld (s : State) (p l : Nat) : (s.setLink p l).fnHeld = s.fnHeld := rfl
@[simp] theorem State.setLink_boot (s : State) (p l : Nat) : (s.setLink p l).boot = s.boot := rfl
@[simp] theorem State.setLink_gov (s : State) (p l : Nat) : (s.setLink p l).gov = s.gov := rfl
@[simp] theorem State.setLink_hif (s : State) (p l : Nat) : (s.setLink p l).hif = s.hif := rfl
@[simp] theorem State.setLink_evt (s : State) (p l : Nat) : (s.setLink p l).evt = s.evt := rfl
@[simp] theorem State.setLink_resp (s : State) (p l : Nat) : (s.setLink p l).resp = s.resp := rfl
@[simp] theorem State.setLink_rgn (s : State) (p l : Nat) : (s.setLink p l).rgn = s.rgn := rfl
@[simp] theorem State.setLink_fab (s : State) (p l : Nat) : (s.setLink p l).fab = s.fab := rfl
@[simp] theorem State.setLink_ld (s : State) (p l : Nat) : (s.setLink p l).ld = s.ld := rfl
@[simp] theorem State.setLink_swap (s : State) (p l : Nat) : (s.setLink p l).swap = s.swap := rfl
@[simp] theorem State.setLink_cal (s : State) (p l : Nat) : (s.setLink p l).cal = s.cal := rfl
@[simp] theorem State.setLink_eng (s : State) (p l : Nat) : (s.setLink p l).eng = s.eng := rfl
@[simp] theorem State.setLink_mesh (s : State) (p l : Nat) : (s.setLink p l).mesh = s.mesh := rfl
@[simp] theorem State.setLink_core (s : State) (p l : Nat) : (s.setLink p l).core = s.core := rfl
@[simp] theorem State.setLink_scr (s : State) (p l : Nat) : (s.setLink p l).scr = s.scr := rfl
@[simp] theorem State.setLink_flash (s : State) (p l : Nat) : (s.setLink p l).flash = s.flash := rfl
@[simp] theorem State.setLink_pin (s : State) (p l : Nat) : (s.setLink p l).pin = s.pin := rfl
@[simp] theorem State.setLink_dbg (s : State) (p l : Nat) : (s.setLink p l).dbg = s.dbg := rfl
@[simp] theorem State.setLink_wdt (s : State) (p l : Nat) : (s.setLink p l).wdt = s.wdt := rfl
@[simp] theorem State.setLink_svc (s : State) (p l : Nat) : (s.setLink p l).svc = s.svc := rfl
@[simp] theorem State.setLink_free (s : State) (p l : Nat) : (s.setLink p l).free = s.free := rfl

@[simp] theorem State.setSer_pending (s : State) (k : Nat) (v : Serial) : (s.setSer k v).pending = s.pending := rfl
@[simp] theorem State.setSer_mode (s : State) (k : Nat) (v : Serial) : (s.setSer k v).mode = s.mode := rfl
@[simp] theorem State.setSer_regs (s : State) (k : Nat) (v : Serial) : (s.setSer k v).regs = s.regs := rfl
@[simp] theorem State.setSer_fnHeld (s : State) (k : Nat) (v : Serial) : (s.setSer k v).fnHeld = s.fnHeld := rfl
@[simp] theorem State.setSer_boot (s : State) (k : Nat) (v : Serial) : (s.setSer k v).boot = s.boot := rfl
@[simp] theorem State.setSer_gov (s : State) (k : Nat) (v : Serial) : (s.setSer k v).gov = s.gov := rfl
@[simp] theorem State.setSer_hif (s : State) (k : Nat) (v : Serial) : (s.setSer k v).hif = s.hif := rfl
@[simp] theorem State.setSer_evt (s : State) (k : Nat) (v : Serial) : (s.setSer k v).evt = s.evt := rfl
@[simp] theorem State.setSer_resp (s : State) (k : Nat) (v : Serial) : (s.setSer k v).resp = s.resp := rfl
@[simp] theorem State.setSer_rgn (s : State) (k : Nat) (v : Serial) : (s.setSer k v).rgn = s.rgn := rfl
@[simp] theorem State.setSer_fab (s : State) (k : Nat) (v : Serial) : (s.setSer k v).fab = s.fab := rfl
@[simp] theorem State.setSer_ld (s : State) (k : Nat) (v : Serial) : (s.setSer k v).ld = s.ld := rfl
@[simp] theorem State.setSer_swap (s : State) (k : Nat) (v : Serial) : (s.setSer k v).swap = s.swap := rfl
@[simp] theorem State.setSer_cal (s : State) (k : Nat) (v : Serial) : (s.setSer k v).cal = s.cal := rfl
@[simp] theorem State.setSer_eng (s : State) (k : Nat) (v : Serial) : (s.setSer k v).eng = s.eng := rfl
@[simp] theorem State.setSer_mesh (s : State) (k : Nat) (v : Serial) : (s.setSer k v).mesh = s.mesh := rfl
@[simp] theorem State.setSer_core (s : State) (k : Nat) (v : Serial) : (s.setSer k v).core = s.core := rfl
@[simp] theorem State.setSer_flash (s : State) (k : Nat) (v : Serial) : (s.setSer k v).flash = s.flash := rfl
@[simp] theorem State.setSer_pin (s : State) (k : Nat) (v : Serial) : (s.setSer k v).pin = s.pin := rfl
@[simp] theorem State.setSer_dbg (s : State) (k : Nat) (v : Serial) : (s.setSer k v).dbg = s.dbg := rfl
@[simp] theorem State.setSer_wdt (s : State) (k : Nat) (v : Serial) : (s.setSer k v).wdt = s.wdt := rfl
@[simp] theorem State.setSer_svc (s : State) (k : Nat) (v : Serial) : (s.setSer k v).svc = s.svc := rfl
@[simp] theorem State.setSer_free (s : State) (k : Nat) (v : Serial) : (s.setSer k v).free = s.free := rfl
@[simp] theorem State.setSer_reg (s : State) (k : Nat) (v : Serial) (j : Nat) : (s.setSer k v).reg j = s.reg j := rfl

@[simp] theorem State.setTmr_pending (s : State) (k : Nat) (t : Timer) : (s.setTmr k t).pending = s.pending := rfl
@[simp] theorem State.setTmr_mode (s : State) (k : Nat) (t : Timer) : (s.setTmr k t).mode = s.mode := rfl
@[simp] theorem State.setTmr_regs (s : State) (k : Nat) (t : Timer) : (s.setTmr k t).regs = s.regs := rfl
@[simp] theorem State.setTmr_fnHeld (s : State) (k : Nat) (t : Timer) : (s.setTmr k t).fnHeld = s.fnHeld := rfl
@[simp] theorem State.setTmr_boot (s : State) (k : Nat) (t : Timer) : (s.setTmr k t).boot = s.boot := rfl
@[simp] theorem State.setTmr_gov (s : State) (k : Nat) (t : Timer) : (s.setTmr k t).gov = s.gov := rfl
@[simp] theorem State.setTmr_hif (s : State) (k : Nat) (t : Timer) : (s.setTmr k t).hif = s.hif := rfl
@[simp] theorem State.setTmr_evt (s : State) (k : Nat) (t : Timer) : (s.setTmr k t).evt = s.evt := rfl
@[simp] theorem State.setTmr_resp (s : State) (k : Nat) (t : Timer) : (s.setTmr k t).resp = s.resp := rfl
@[simp] theorem State.setTmr_rgn (s : State) (k : Nat) (t : Timer) : (s.setTmr k t).rgn = s.rgn := rfl
@[simp] theorem State.setTmr_fab (s : State) (k : Nat) (t : Timer) : (s.setTmr k t).fab = s.fab := rfl
@[simp] theorem State.setTmr_ld (s : State) (k : Nat) (t : Timer) : (s.setTmr k t).ld = s.ld := rfl
@[simp] theorem State.setTmr_swap (s : State) (k : Nat) (t : Timer) : (s.setTmr k t).swap = s.swap := rfl
@[simp] theorem State.setTmr_cal (s : State) (k : Nat) (t : Timer) : (s.setTmr k t).cal = s.cal := rfl
@[simp] theorem State.setTmr_eng (s : State) (k : Nat) (t : Timer) : (s.setTmr k t).eng = s.eng := rfl
@[simp] theorem State.setTmr_mesh (s : State) (k : Nat) (t : Timer) : (s.setTmr k t).mesh = s.mesh := rfl
@[simp] theorem State.setTmr_core (s : State) (k : Nat) (t : Timer) : (s.setTmr k t).core = s.core := rfl
@[simp] theorem State.setTmr_flash (s : State) (k : Nat) (t : Timer) : (s.setTmr k t).flash = s.flash := rfl
@[simp] theorem State.setTmr_pin (s : State) (k : Nat) (t : Timer) : (s.setTmr k t).pin = s.pin := rfl
@[simp] theorem State.setTmr_dbg (s : State) (k : Nat) (t : Timer) : (s.setTmr k t).dbg = s.dbg := rfl
@[simp] theorem State.setTmr_wdt (s : State) (k : Nat) (t : Timer) : (s.setTmr k t).wdt = s.wdt := rfl
@[simp] theorem State.setTmr_svc (s : State) (k : Nat) (t : Timer) : (s.setTmr k t).svc = s.svc := rfl
@[simp] theorem State.setTmr_free (s : State) (k : Nat) (t : Timer) : (s.setTmr k t).free = s.free := rfl
@[simp] theorem State.setTmr_reg (s : State) (k : Nat) (t : Timer) (j : Nat) : (s.setTmr k t).reg j = s.reg j := rfl

@[simp] theorem State.setLane_pending (s : State) (l : Nat) (x : Lane) : (s.setLane l x).pending = s.pending := rfl
@[simp] theorem State.setLane_mode (s : State) (l : Nat) (x : Lane) : (s.setLane l x).mode = s.mode := rfl
@[simp] theorem State.setLane_regs (s : State) (l : Nat) (x : Lane) : (s.setLane l x).regs = s.regs := rfl
@[simp] theorem State.setLane_fnHeld (s : State) (l : Nat) (x : Lane) : (s.setLane l x).fnHeld = s.fnHeld := rfl
@[simp] theorem State.setLane_boot (s : State) (l : Nat) (x : Lane) : (s.setLane l x).boot = s.boot := rfl
@[simp] theorem State.setLane_gov (s : State) (l : Nat) (x : Lane) : (s.setLane l x).gov = s.gov := rfl
@[simp] theorem State.setLane_hif (s : State) (l : Nat) (x : Lane) : (s.setLane l x).hif = s.hif := rfl
@[simp] theorem State.setLane_evt (s : State) (l : Nat) (x : Lane) : (s.setLane l x).evt = s.evt := rfl
@[simp] theorem State.setLane_resp (s : State) (l : Nat) (x : Lane) : (s.setLane l x).resp = s.resp := rfl
@[simp] theorem State.setLane_rgn (s : State) (l : Nat) (x : Lane) : (s.setLane l x).rgn = s.rgn := rfl
@[simp] theorem State.setLane_fab (s : State) (l : Nat) (x : Lane) : (s.setLane l x).fab = s.fab := rfl
@[simp] theorem State.setLane_ld (s : State) (l : Nat) (x : Lane) : (s.setLane l x).ld = s.ld := rfl
@[simp] theorem State.setLane_swap (s : State) (l : Nat) (x : Lane) : (s.setLane l x).swap = s.swap := rfl
@[simp] theorem State.setLane_eng (s : State) (l : Nat) (x : Lane) : (s.setLane l x).eng = s.eng := rfl
@[simp] theorem State.setLane_mesh (s : State) (l : Nat) (x : Lane) : (s.setLane l x).mesh = s.mesh := rfl
@[simp] theorem State.setLane_core (s : State) (l : Nat) (x : Lane) : (s.setLane l x).core = s.core := rfl
@[simp] theorem State.setLane_scr (s : State) (l : Nat) (x : Lane) : (s.setLane l x).scr = s.scr := rfl
@[simp] theorem State.setLane_flash (s : State) (l : Nat) (x : Lane) : (s.setLane l x).flash = s.flash := rfl
@[simp] theorem State.setLane_pin (s : State) (l : Nat) (x : Lane) : (s.setLane l x).pin = s.pin := rfl
@[simp] theorem State.setLane_dbg (s : State) (l : Nat) (x : Lane) : (s.setLane l x).dbg = s.dbg := rfl
@[simp] theorem State.setLane_wdt (s : State) (l : Nat) (x : Lane) : (s.setLane l x).wdt = s.wdt := rfl
@[simp] theorem State.setLane_svc (s : State) (l : Nat) (x : Lane) : (s.setLane l x).svc = s.svc := rfl
@[simp] theorem State.setLane_free (s : State) (l : Nat) (x : Lane) : (s.setLane l x).free = s.free := rfl
@[simp] theorem State.setLane_reg (s : State) (l : Nat) (x : Lane) (j : Nat) : (s.setLane l x).reg j = s.reg j := rfl

@[simp] theorem State.setRspQ_pending (s : State) (q : Nat) (l : List Quad) : (s.setRspQ q l).pending = s.pending := rfl
@[simp] theorem State.setRspQ_mode (s : State) (q : Nat) (l : List Quad) : (s.setRspQ q l).mode = s.mode := rfl
@[simp] theorem State.setRspQ_regs (s : State) (q : Nat) (l : List Quad) : (s.setRspQ q l).regs = s.regs := rfl
@[simp] theorem State.setRspQ_fnHeld (s : State) (q : Nat) (l : List Quad) : (s.setRspQ q l).fnHeld = s.fnHeld := rfl
@[simp] theorem State.setRspQ_boot (s : State) (q : Nat) (l : List Quad) : (s.setRspQ q l).boot = s.boot := rfl
@[simp] theorem State.setRspQ_gov (s : State) (q : Nat) (l : List Quad) : (s.setRspQ q l).gov = s.gov := rfl
@[simp] theorem State.setRspQ_hif (s : State) (q : Nat) (l : List Quad) : (s.setRspQ q l).hif = s.hif := rfl
@[simp] theorem State.setRspQ_evt (s : State) (q : Nat) (l : List Quad) : (s.setRspQ q l).evt = s.evt := rfl
@[simp] theorem State.setRspQ_resp (s : State) (q : Nat) (l : List Quad) : (s.setRspQ q l).resp = s.resp := rfl
@[simp] theorem State.setRspQ_rgn (s : State) (q : Nat) (l : List Quad) : (s.setRspQ q l).rgn = s.rgn := rfl
@[simp] theorem State.setRspQ_fab (s : State) (q : Nat) (l : List Quad) : (s.setRspQ q l).fab = s.fab := rfl
@[simp] theorem State.setRspQ_ld (s : State) (q : Nat) (l : List Quad) : (s.setRspQ q l).ld = s.ld := rfl
@[simp] theorem State.setRspQ_swap (s : State) (q : Nat) (l : List Quad) : (s.setRspQ q l).swap = s.swap := rfl
@[simp] theorem State.setRspQ_cal (s : State) (q : Nat) (l : List Quad) : (s.setRspQ q l).cal = s.cal := rfl
@[simp] theorem State.setRspQ_mesh (s : State) (q : Nat) (l : List Quad) : (s.setRspQ q l).mesh = s.mesh := rfl
@[simp] theorem State.setRspQ_core (s : State) (q : Nat) (l : List Quad) : (s.setRspQ q l).core = s.core := rfl
@[simp] theorem State.setRspQ_scr (s : State) (q : Nat) (l : List Quad) : (s.setRspQ q l).scr = s.scr := rfl
@[simp] theorem State.setRspQ_flash (s : State) (q : Nat) (l : List Quad) : (s.setRspQ q l).flash = s.flash := rfl
@[simp] theorem State.setRspQ_pin (s : State) (q : Nat) (l : List Quad) : (s.setRspQ q l).pin = s.pin := rfl
@[simp] theorem State.setRspQ_dbg (s : State) (q : Nat) (l : List Quad) : (s.setRspQ q l).dbg = s.dbg := rfl
@[simp] theorem State.setRspQ_wdt (s : State) (q : Nat) (l : List Quad) : (s.setRspQ q l).wdt = s.wdt := rfl
@[simp] theorem State.setRspQ_svc (s : State) (q : Nat) (l : List Quad) : (s.setRspQ q l).svc = s.svc := rfl
@[simp] theorem State.setRspQ_free (s : State) (q : Nat) (l : List Quad) : (s.setRspQ q l).free = s.free := rfl
@[simp] theorem State.setRspQ_reg (s : State) (q : Nat) (l : List Quad) (j : Nat) : (s.setRspQ q l).reg j = s.reg j := rfl

@[simp] theorem State.setSw_pending (s : State) (v : Nat) : (s.setSw v).pending = s.pending := rfl
@[simp] theorem State.setSw_mode (s : State) (v : Nat) : (s.setSw v).mode = s.mode := rfl
@[simp] theorem State.setSw_fnHeld (s : State) (v : Nat) : (s.setSw v).fnHeld = s.fnHeld := rfl
@[simp] theorem State.setSw_boot (s : State) (v : Nat) : (s.setSw v).boot = s.boot := rfl
@[simp] theorem State.setSw_gov (s : State) (v : Nat) : (s.setSw v).gov = s.gov := rfl
@[simp] theorem State.setSw_hif (s : State) (v : Nat) : (s.setSw v).hif = s.hif := rfl
@[simp] theorem State.setSw_evt (s : State) (v : Nat) : (s.setSw v).evt = s.evt := rfl
@[simp] theorem State.setSw_resp (s : State) (v : Nat) : (s.setSw v).resp = s.resp := rfl
@[simp] theorem State.setSw_rgn (s : State) (v : Nat) : (s.setSw v).rgn = s.rgn := rfl
@[simp] theorem State.setSw_fab (s : State) (v : Nat) : (s.setSw v).fab = s.fab := rfl
@[simp] theorem State.setSw_ld (s : State) (v : Nat) : (s.setSw v).ld = s.ld := rfl
@[simp] theorem State.setSw_swap (s : State) (v : Nat) : (s.setSw v).swap = s.swap := rfl
@[simp] theorem State.setSw_cal (s : State) (v : Nat) : (s.setSw v).cal = s.cal := rfl
@[simp] theorem State.setSw_eng (s : State) (v : Nat) : (s.setSw v).eng = s.eng := rfl
@[simp] theorem State.setSw_mesh (s : State) (v : Nat) : (s.setSw v).mesh = s.mesh := rfl
@[simp] theorem State.setSw_core (s : State) (v : Nat) : (s.setSw v).core = s.core := rfl
@[simp] theorem State.setSw_scr (s : State) (v : Nat) : (s.setSw v).scr = s.scr := rfl
@[simp] theorem State.setSw_flash (s : State) (v : Nat) : (s.setSw v).flash = s.flash := rfl
@[simp] theorem State.setSw_pin (s : State) (v : Nat) : (s.setSw v).pin = s.pin := rfl
@[simp] theorem State.setSw_dbg (s : State) (v : Nat) : (s.setSw v).dbg = s.dbg := rfl
@[simp] theorem State.setSw_wdt (s : State) (v : Nat) : (s.setSw v).wdt = s.wdt := rfl
@[simp] theorem State.setSw_svc (s : State) (v : Nat) : (s.setSw v).svc = s.svc := rfl
@[simp] theorem State.setSw_free (s : State) (v : Nat) : (s.setSw v).free = s.free := rfl

@[simp] theorem State.setSh_pending (s : State) (n v : Nat) : (s.setSh n v).pending = s.pending := by unfold State.setSh; split <;> rfl
@[simp] theorem State.setSh_mode (s : State) (n v : Nat) : (s.setSh n v).mode = s.mode := by unfold State.setSh; split <;> rfl
@[simp] theorem State.setSh_fnHeld (s : State) (n v : Nat) : (s.setSh n v).fnHeld = s.fnHeld := by unfold State.setSh; split <;> rfl
@[simp] theorem State.setSh_boot (s : State) (n v : Nat) : (s.setSh n v).boot = s.boot := by unfold State.setSh; split <;> rfl
@[simp] theorem State.setSh_gov (s : State) (n v : Nat) : (s.setSh n v).gov = s.gov := by unfold State.setSh; split <;> rfl
@[simp] theorem State.setSh_hif (s : State) (n v : Nat) : (s.setSh n v).hif = s.hif := by unfold State.setSh; split <;> rfl
@[simp] theorem State.setSh_evt (s : State) (n v : Nat) : (s.setSh n v).evt = s.evt := by unfold State.setSh; split <;> rfl
@[simp] theorem State.setSh_resp (s : State) (n v : Nat) : (s.setSh n v).resp = s.resp := by unfold State.setSh; split <;> rfl
@[simp] theorem State.setSh_rgn (s : State) (n v : Nat) : (s.setSh n v).rgn = s.rgn := by unfold State.setSh; split <;> rfl
@[simp] theorem State.setSh_fab (s : State) (n v : Nat) : (s.setSh n v).fab = s.fab := by unfold State.setSh; split <;> rfl
@[simp] theorem State.setSh_ld (s : State) (n v : Nat) : (s.setSh n v).ld = s.ld := by unfold State.setSh; split <;> rfl
@[simp] theorem State.setSh_swap (s : State) (n v : Nat) : (s.setSh n v).swap = s.swap := by unfold State.setSh; split <;> rfl
@[simp] theorem State.setSh_cal (s : State) (n v : Nat) : (s.setSh n v).cal = s.cal := by unfold State.setSh; split <;> rfl
@[simp] theorem State.setSh_eng (s : State) (n v : Nat) : (s.setSh n v).eng = s.eng := by unfold State.setSh; split <;> rfl
@[simp] theorem State.setSh_mesh (s : State) (n v : Nat) : (s.setSh n v).mesh = s.mesh := by unfold State.setSh; split <;> rfl
@[simp] theorem State.setSh_core (s : State) (n v : Nat) : (s.setSh n v).core = s.core := by unfold State.setSh; split <;> rfl
@[simp] theorem State.setSh_scr (s : State) (n v : Nat) : (s.setSh n v).scr = s.scr := by unfold State.setSh; split <;> rfl
@[simp] theorem State.setSh_flash (s : State) (n v : Nat) : (s.setSh n v).flash = s.flash := by unfold State.setSh; split <;> rfl
@[simp] theorem State.setSh_pin (s : State) (n v : Nat) : (s.setSh n v).pin = s.pin := by unfold State.setSh; split <;> rfl
@[simp] theorem State.setSh_dbg (s : State) (n v : Nat) : (s.setSh n v).dbg = s.dbg := by unfold State.setSh; split <;> rfl
@[simp] theorem State.setSh_wdt (s : State) (n v : Nat) : (s.setSh n v).wdt = s.wdt := by unfold State.setSh; split <;> rfl
@[simp] theorem State.setSh_svc (s : State) (n v : Nat) : (s.setSh n v).svc = s.svc := by unfold State.setSh; split <;> rfl
@[simp] theorem State.setSh_free (s : State) (n v : Nat) : (s.setSh n v).free = s.free := by unfold State.setSh; split <;> rfl

@[simp] theorem State.setCsr_pending (s : State) (n : Nat) (v : BitVec 32) : (s.setCsr n v).pending = s.pending := rfl
@[simp] theorem State.setCsr_mode (s : State) (n : Nat) (v : BitVec 32) : (s.setCsr n v).mode = s.mode := rfl
@[simp] theorem State.setCsr_regs (s : State) (n : Nat) (v : BitVec 32) : (s.setCsr n v).regs = s.regs := rfl
@[simp] theorem State.setCsr_fnHeld (s : State) (n : Nat) (v : BitVec 32) : (s.setCsr n v).fnHeld = s.fnHeld := rfl
@[simp] theorem State.setCsr_boot (s : State) (n : Nat) (v : BitVec 32) : (s.setCsr n v).boot = s.boot := rfl
@[simp] theorem State.setCsr_gov (s : State) (n : Nat) (v : BitVec 32) : (s.setCsr n v).gov = s.gov := rfl
@[simp] theorem State.setCsr_hif (s : State) (n : Nat) (v : BitVec 32) : (s.setCsr n v).hif = s.hif := rfl
@[simp] theorem State.setCsr_evt (s : State) (n : Nat) (v : BitVec 32) : (s.setCsr n v).evt = s.evt := rfl
@[simp] theorem State.setCsr_resp (s : State) (n : Nat) (v : BitVec 32) : (s.setCsr n v).resp = s.resp := rfl
@[simp] theorem State.setCsr_rgn (s : State) (n : Nat) (v : BitVec 32) : (s.setCsr n v).rgn = s.rgn := rfl
@[simp] theorem State.setCsr_fab (s : State) (n : Nat) (v : BitVec 32) : (s.setCsr n v).fab = s.fab := rfl
@[simp] theorem State.setCsr_ld (s : State) (n : Nat) (v : BitVec 32) : (s.setCsr n v).ld = s.ld := rfl
@[simp] theorem State.setCsr_swap (s : State) (n : Nat) (v : BitVec 32) : (s.setCsr n v).swap = s.swap := rfl
@[simp] theorem State.setCsr_cal (s : State) (n : Nat) (v : BitVec 32) : (s.setCsr n v).cal = s.cal := rfl
@[simp] theorem State.setCsr_eng (s : State) (n : Nat) (v : BitVec 32) : (s.setCsr n v).eng = s.eng := rfl
@[simp] theorem State.setCsr_mesh (s : State) (n : Nat) (v : BitVec 32) : (s.setCsr n v).mesh = s.mesh := rfl
@[simp] theorem State.setCsr_scr (s : State) (n : Nat) (v : BitVec 32) : (s.setCsr n v).scr = s.scr := rfl
@[simp] theorem State.setCsr_flash (s : State) (n : Nat) (v : BitVec 32) : (s.setCsr n v).flash = s.flash := rfl
@[simp] theorem State.setCsr_pin (s : State) (n : Nat) (v : BitVec 32) : (s.setCsr n v).pin = s.pin := rfl
@[simp] theorem State.setCsr_dbg (s : State) (n : Nat) (v : BitVec 32) : (s.setCsr n v).dbg = s.dbg := rfl
@[simp] theorem State.setCsr_wdt (s : State) (n : Nat) (v : BitVec 32) : (s.setCsr n v).wdt = s.wdt := rfl
@[simp] theorem State.setCsr_svc (s : State) (n : Nat) (v : BitVec 32) : (s.setCsr n v).svc = s.svc := rfl
@[simp] theorem State.setCsr_free (s : State) (n : Nat) (v : BitVec 32) : (s.setCsr n v).free = s.free := rfl
@[simp] theorem State.setCsr_reg (s : State) (n : Nat) (v : BitVec 32) (j : Nat) : (s.setCsr n v).reg j = s.reg j := rfl

@[simp] theorem setDisc_pending (d : Disc) (s : State) : (setDisc d s).pending = s.pending := rfl
@[simp] theorem setDisc_mode (d : Disc) (s : State) : (setDisc d s).mode = s.mode := rfl
@[simp] theorem setDisc_regs (d : Disc) (s : State) : (setDisc d s).regs = s.regs := rfl
@[simp] theorem setDisc_fnHeld (d : Disc) (s : State) : (setDisc d s).fnHeld = s.fnHeld := rfl
@[simp] theorem setDisc_boot (d : Disc) (s : State) : (setDisc d s).boot = s.boot := rfl
@[simp] theorem setDisc_gov (d : Disc) (s : State) : (setDisc d s).gov = s.gov := rfl
@[simp] theorem setDisc_hif (d : Disc) (s : State) : (setDisc d s).hif = s.hif := rfl
@[simp] theorem setDisc_evt (d : Disc) (s : State) : (setDisc d s).evt = s.evt := rfl
@[simp] theorem setDisc_resp (d : Disc) (s : State) : (setDisc d s).resp = s.resp := rfl
@[simp] theorem setDisc_rgn (d : Disc) (s : State) : (setDisc d s).rgn = s.rgn := rfl
@[simp] theorem setDisc_fab (d : Disc) (s : State) : (setDisc d s).fab = s.fab := rfl
@[simp] theorem setDisc_ld (d : Disc) (s : State) : (setDisc d s).ld = s.ld := rfl
@[simp] theorem setDisc_swap (d : Disc) (s : State) : (setDisc d s).swap = s.swap := rfl
@[simp] theorem setDisc_cal (d : Disc) (s : State) : (setDisc d s).cal = s.cal := rfl
@[simp] theorem setDisc_eng (d : Disc) (s : State) : (setDisc d s).eng = s.eng := rfl
@[simp] theorem setDisc_core (d : Disc) (s : State) : (setDisc d s).core = s.core := rfl
@[simp] theorem setDisc_scr (d : Disc) (s : State) : (setDisc d s).scr = s.scr := rfl
@[simp] theorem setDisc_flash (d : Disc) (s : State) : (setDisc d s).flash = s.flash := rfl
@[simp] theorem setDisc_pin (d : Disc) (s : State) : (setDisc d s).pin = s.pin := rfl
@[simp] theorem setDisc_dbg (d : Disc) (s : State) : (setDisc d s).dbg = s.dbg := rfl
@[simp] theorem setDisc_wdt (d : Disc) (s : State) : (setDisc d s).wdt = s.wdt := rfl
@[simp] theorem setDisc_svc (d : Disc) (s : State) : (setDisc d s).svc = s.svc := rfl
@[simp] theorem setDisc_free (d : Disc) (s : State) : (setDisc d s).free = s.free := rfl
@[simp] theorem setDisc_reg (d : Disc) (s : State) (j : Nat) : (setDisc d s).reg j = s.reg j := rfl

@[simp] theorem setStx_pending (k : Nat) (t : St) (s : State) : (setStx k t s).pending = s.pending := rfl
@[simp] theorem setStx_mode (k : Nat) (t : St) (s : State) : (setStx k t s).mode = s.mode := rfl
@[simp] theorem setStx_regs (k : Nat) (t : St) (s : State) : (setStx k t s).regs = s.regs := rfl
@[simp] theorem setStx_fnHeld (k : Nat) (t : St) (s : State) : (setStx k t s).fnHeld = s.fnHeld := rfl
@[simp] theorem setStx_boot (k : Nat) (t : St) (s : State) : (setStx k t s).boot = s.boot := rfl
@[simp] theorem setStx_gov (k : Nat) (t : St) (s : State) : (setStx k t s).gov = s.gov := rfl
@[simp] theorem setStx_hif (k : Nat) (t : St) (s : State) : (setStx k t s).hif = s.hif := rfl
@[simp] theorem setStx_evt (k : Nat) (t : St) (s : State) : (setStx k t s).evt = s.evt := rfl
@[simp] theorem setStx_resp (k : Nat) (t : St) (s : State) : (setStx k t s).resp = s.resp := rfl
@[simp] theorem setStx_rgn (k : Nat) (t : St) (s : State) : (setStx k t s).rgn = s.rgn := rfl
@[simp] theorem setStx_fab (k : Nat) (t : St) (s : State) : (setStx k t s).fab = s.fab := rfl
@[simp] theorem setStx_ld (k : Nat) (t : St) (s : State) : (setStx k t s).ld = s.ld := rfl
@[simp] theorem setStx_swap (k : Nat) (t : St) (s : State) : (setStx k t s).swap = s.swap := rfl
@[simp] theorem setStx_cal (k : Nat) (t : St) (s : State) : (setStx k t s).cal = s.cal := rfl
@[simp] theorem setStx_eng (k : Nat) (t : St) (s : State) : (setStx k t s).eng = s.eng := rfl
@[simp] theorem setStx_core (k : Nat) (t : St) (s : State) : (setStx k t s).core = s.core := rfl
@[simp] theorem setStx_scr (k : Nat) (t : St) (s : State) : (setStx k t s).scr = s.scr := rfl
@[simp] theorem setStx_flash (k : Nat) (t : St) (s : State) : (setStx k t s).flash = s.flash := rfl
@[simp] theorem setStx_pin (k : Nat) (t : St) (s : State) : (setStx k t s).pin = s.pin := rfl
@[simp] theorem setStx_dbg (k : Nat) (t : St) (s : State) : (setStx k t s).dbg = s.dbg := rfl
@[simp] theorem setStx_wdt (k : Nat) (t : St) (s : State) : (setStx k t s).wdt = s.wdt := rfl
@[simp] theorem setStx_svc (k : Nat) (t : St) (s : State) : (setStx k t s).svc = s.svc := rfl
@[simp] theorem setStx_free (k : Nat) (t : St) (s : State) : (setStx k t s).free = s.free := rfl
@[simp] theorem setStx_reg (k : Nat) (t : St) (s : State) (j : Nat) : (setStx k t s).reg j = s.reg j := rfl

@[simp] theorem setScope_pending (v : Nat) (s : State) : (setScope v s).pending = s.pending := rfl
@[simp] theorem setScope_mode (v : Nat) (s : State) : (setScope v s).mode = s.mode := rfl
@[simp] theorem setScope_fnHeld (v : Nat) (s : State) : (setScope v s).fnHeld = s.fnHeld := rfl
@[simp] theorem setScope_boot (v : Nat) (s : State) : (setScope v s).boot = s.boot := rfl
@[simp] theorem setScope_gov (v : Nat) (s : State) : (setScope v s).gov = s.gov := rfl
@[simp] theorem setScope_hif (v : Nat) (s : State) : (setScope v s).hif = s.hif := rfl
@[simp] theorem setScope_evt (v : Nat) (s : State) : (setScope v s).evt = s.evt := rfl
@[simp] theorem setScope_resp (v : Nat) (s : State) : (setScope v s).resp = s.resp := rfl
@[simp] theorem setScope_rgn (v : Nat) (s : State) : (setScope v s).rgn = s.rgn := rfl
@[simp] theorem setScope_fab (v : Nat) (s : State) : (setScope v s).fab = s.fab := rfl
@[simp] theorem setScope_ld (v : Nat) (s : State) : (setScope v s).ld = s.ld := rfl
@[simp] theorem setScope_swap (v : Nat) (s : State) : (setScope v s).swap = s.swap := rfl
@[simp] theorem setScope_cal (v : Nat) (s : State) : (setScope v s).cal = s.cal := rfl
@[simp] theorem setScope_eng (v : Nat) (s : State) : (setScope v s).eng = s.eng := rfl
@[simp] theorem setScope_mesh (v : Nat) (s : State) : (setScope v s).mesh = s.mesh := rfl
@[simp] theorem setScope_core (v : Nat) (s : State) : (setScope v s).core = s.core := rfl
@[simp] theorem setScope_scr (v : Nat) (s : State) : (setScope v s).scr = s.scr := rfl
@[simp] theorem setScope_flash (v : Nat) (s : State) : (setScope v s).flash = s.flash := rfl
@[simp] theorem setScope_pin (v : Nat) (s : State) : (setScope v s).pin = s.pin := rfl
@[simp] theorem setScope_dbg (v : Nat) (s : State) : (setScope v s).dbg = s.dbg := rfl
@[simp] theorem setScope_wdt (v : Nat) (s : State) : (setScope v s).wdt = s.wdt := rfl
@[simp] theorem setScope_svc (v : Nat) (s : State) : (setScope v s).svc = s.svc := rfl
@[simp] theorem setScope_free (v : Nat) (s : State) : (setScope v s).free = s.free := rfl

@[simp] theorem setPoison_pending (c : Nat) (b : Bool) (s : State) : (setPoison c b s).pending = s.pending := rfl
@[simp] theorem setPoison_mode (c : Nat) (b : Bool) (s : State) : (setPoison c b s).mode = s.mode := rfl
@[simp] theorem setPoison_regs (c : Nat) (b : Bool) (s : State) : (setPoison c b s).regs = s.regs := rfl
@[simp] theorem setPoison_fnHeld (c : Nat) (b : Bool) (s : State) : (setPoison c b s).fnHeld = s.fnHeld := rfl
@[simp] theorem setPoison_boot (c : Nat) (b : Bool) (s : State) : (setPoison c b s).boot = s.boot := rfl
@[simp] theorem setPoison_gov (c : Nat) (b : Bool) (s : State) : (setPoison c b s).gov = s.gov := rfl
@[simp] theorem setPoison_hif (c : Nat) (b : Bool) (s : State) : (setPoison c b s).hif = s.hif := rfl
@[simp] theorem setPoison_evt (c : Nat) (b : Bool) (s : State) : (setPoison c b s).evt = s.evt := rfl
@[simp] theorem setPoison_resp (c : Nat) (b : Bool) (s : State) : (setPoison c b s).resp = s.resp := rfl
@[simp] theorem setPoison_rgn (c : Nat) (b : Bool) (s : State) : (setPoison c b s).rgn = s.rgn := rfl
@[simp] theorem setPoison_fab (c : Nat) (b : Bool) (s : State) : (setPoison c b s).fab = s.fab := rfl
@[simp] theorem setPoison_ld (c : Nat) (b : Bool) (s : State) : (setPoison c b s).ld = s.ld := rfl
@[simp] theorem setPoison_swap (c : Nat) (b : Bool) (s : State) : (setPoison c b s).swap = s.swap := rfl
@[simp] theorem setPoison_cal (c : Nat) (b : Bool) (s : State) : (setPoison c b s).cal = s.cal := rfl
@[simp] theorem setPoison_mesh (c : Nat) (b : Bool) (s : State) : (setPoison c b s).mesh = s.mesh := rfl
@[simp] theorem setPoison_core (c : Nat) (b : Bool) (s : State) : (setPoison c b s).core = s.core := rfl
@[simp] theorem setPoison_scr (c : Nat) (b : Bool) (s : State) : (setPoison c b s).scr = s.scr := rfl
@[simp] theorem setPoison_flash (c : Nat) (b : Bool) (s : State) : (setPoison c b s).flash = s.flash := rfl
@[simp] theorem setPoison_pin (c : Nat) (b : Bool) (s : State) : (setPoison c b s).pin = s.pin := rfl
@[simp] theorem setPoison_dbg (c : Nat) (b : Bool) (s : State) : (setPoison c b s).dbg = s.dbg := rfl
@[simp] theorem setPoison_wdt (c : Nat) (b : Bool) (s : State) : (setPoison c b s).wdt = s.wdt := rfl
@[simp] theorem setPoison_svc (c : Nat) (b : Bool) (s : State) : (setPoison c b s).svc = s.svc := rfl
@[simp] theorem setPoison_free (c : Nat) (b : Bool) (s : State) : (setPoison c b s).free = s.free := rfl
@[simp] theorem setPoison_reg (c : Nat) (b : Bool) (s : State) (j : Nat) : (setPoison c b s).reg j = s.reg j := rfl

@[simp] theorem setOp_pending (o : Op) (s : State) : (setOp o s).pending = s.pending := rfl
@[simp] theorem setOp_mode (o : Op) (s : State) : (setOp o s).mode = s.mode := rfl
@[simp] theorem setOp_regs (o : Op) (s : State) : (setOp o s).regs = s.regs := rfl
@[simp] theorem setOp_fnHeld (o : Op) (s : State) : (setOp o s).fnHeld = s.fnHeld := rfl
@[simp] theorem setOp_boot (o : Op) (s : State) : (setOp o s).boot = s.boot := rfl
@[simp] theorem setOp_gov (o : Op) (s : State) : (setOp o s).gov = s.gov := rfl
@[simp] theorem setOp_hif (o : Op) (s : State) : (setOp o s).hif = s.hif := rfl
@[simp] theorem setOp_evt (o : Op) (s : State) : (setOp o s).evt = s.evt := rfl
@[simp] theorem setOp_resp (o : Op) (s : State) : (setOp o s).resp = s.resp := rfl
@[simp] theorem setOp_rgn (o : Op) (s : State) : (setOp o s).rgn = s.rgn := rfl
@[simp] theorem setOp_fab (o : Op) (s : State) : (setOp o s).fab = s.fab := rfl
@[simp] theorem setOp_ld (o : Op) (s : State) : (setOp o s).ld = s.ld := rfl
@[simp] theorem setOp_swap (o : Op) (s : State) : (setOp o s).swap = s.swap := rfl
@[simp] theorem setOp_cal (o : Op) (s : State) : (setOp o s).cal = s.cal := rfl
@[simp] theorem setOp_mesh (o : Op) (s : State) : (setOp o s).mesh = s.mesh := rfl
@[simp] theorem setOp_core (o : Op) (s : State) : (setOp o s).core = s.core := rfl
@[simp] theorem setOp_scr (o : Op) (s : State) : (setOp o s).scr = s.scr := rfl
@[simp] theorem setOp_flash (o : Op) (s : State) : (setOp o s).flash = s.flash := rfl
@[simp] theorem setOp_pin (o : Op) (s : State) : (setOp o s).pin = s.pin := rfl
@[simp] theorem setOp_dbg (o : Op) (s : State) : (setOp o s).dbg = s.dbg := rfl
@[simp] theorem setOp_wdt (o : Op) (s : State) : (setOp o s).wdt = s.wdt := rfl
@[simp] theorem setOp_svc (o : Op) (s : State) : (setOp o s).svc = s.svc := rfl
@[simp] theorem setOp_free (o : Op) (s : State) : (setOp o s).free = s.free := rfl
@[simp] theorem setOp_reg (o : Op) (s : State) (j : Nat) : (setOp o s).reg j = s.reg j := rfl

@[simp] theorem answer_pending (w : Word) (s : State) : (answer w s).pending = s.pending := rfl
@[simp] theorem answer_mode (w : Word) (s : State) : (answer w s).mode = s.mode := rfl
@[simp] theorem answer_regs (w : Word) (s : State) : (answer w s).regs = s.regs := rfl
@[simp] theorem answer_fnHeld (w : Word) (s : State) : (answer w s).fnHeld = s.fnHeld := rfl
@[simp] theorem answer_boot (w : Word) (s : State) : (answer w s).boot = s.boot := rfl
@[simp] theorem answer_gov (w : Word) (s : State) : (answer w s).gov = s.gov := rfl
@[simp] theorem answer_hif (w : Word) (s : State) : (answer w s).hif = s.hif := rfl
@[simp] theorem answer_evt (w : Word) (s : State) : (answer w s).evt = s.evt := rfl
@[simp] theorem answer_rgn (w : Word) (s : State) : (answer w s).rgn = s.rgn := rfl
@[simp] theorem answer_fab (w : Word) (s : State) : (answer w s).fab = s.fab := rfl
@[simp] theorem answer_ld (w : Word) (s : State) : (answer w s).ld = s.ld := rfl
@[simp] theorem answer_swap (w : Word) (s : State) : (answer w s).swap = s.swap := rfl
@[simp] theorem answer_cal (w : Word) (s : State) : (answer w s).cal = s.cal := rfl
@[simp] theorem answer_eng (w : Word) (s : State) : (answer w s).eng = s.eng := rfl
@[simp] theorem answer_mesh (w : Word) (s : State) : (answer w s).mesh = s.mesh := rfl
@[simp] theorem answer_core (w : Word) (s : State) : (answer w s).core = s.core := rfl
@[simp] theorem answer_scr (w : Word) (s : State) : (answer w s).scr = s.scr := rfl
@[simp] theorem answer_flash (w : Word) (s : State) : (answer w s).flash = s.flash := rfl
@[simp] theorem answer_pin (w : Word) (s : State) : (answer w s).pin = s.pin := rfl
@[simp] theorem answer_dbg (w : Word) (s : State) : (answer w s).dbg = s.dbg := rfl
@[simp] theorem answer_wdt (w : Word) (s : State) : (answer w s).wdt = s.wdt := rfl
@[simp] theorem answer_svc (w : Word) (s : State) : (answer w s).svc = s.svc := rfl
@[simp] theorem answer_free (w : Word) (s : State) : (answer w s).free = s.free := rfl
@[simp] theorem answer_reg (w : Word) (s : State) (j : Nat) : (answer w s).reg j = s.reg j := rfl

@[simp] theorem busErr_pending (s : State) : (busErr s).pending = s.pending := rfl
@[simp] theorem busErr_mode (s : State) : (busErr s).mode = s.mode := rfl
@[simp] theorem busErr_regs (s : State) : (busErr s).regs = s.regs := rfl
@[simp] theorem busErr_fnHeld (s : State) : (busErr s).fnHeld = s.fnHeld := rfl
@[simp] theorem busErr_boot (s : State) : (busErr s).boot = s.boot := rfl
@[simp] theorem busErr_gov (s : State) : (busErr s).gov = s.gov := rfl
@[simp] theorem busErr_hif (s : State) : (busErr s).hif = s.hif := rfl
@[simp] theorem busErr_evt (s : State) : (busErr s).evt = s.evt := rfl
@[simp] theorem busErr_rgn (s : State) : (busErr s).rgn = s.rgn := rfl
@[simp] theorem busErr_fab (s : State) : (busErr s).fab = s.fab := rfl
@[simp] theorem busErr_ld (s : State) : (busErr s).ld = s.ld := rfl
@[simp] theorem busErr_swap (s : State) : (busErr s).swap = s.swap := rfl
@[simp] theorem busErr_cal (s : State) : (busErr s).cal = s.cal := rfl
@[simp] theorem busErr_eng (s : State) : (busErr s).eng = s.eng := rfl
@[simp] theorem busErr_mesh (s : State) : (busErr s).mesh = s.mesh := rfl
@[simp] theorem busErr_core (s : State) : (busErr s).core = s.core := rfl
@[simp] theorem busErr_scr (s : State) : (busErr s).scr = s.scr := rfl
@[simp] theorem busErr_flash (s : State) : (busErr s).flash = s.flash := rfl
@[simp] theorem busErr_pin (s : State) : (busErr s).pin = s.pin := rfl
@[simp] theorem busErr_dbg (s : State) : (busErr s).dbg = s.dbg := rfl
@[simp] theorem busErr_wdt (s : State) : (busErr s).wdt = s.wdt := rfl
@[simp] theorem busErr_svc (s : State) : (busErr s).svc = s.svc := rfl
@[simp] theorem busErr_free (s : State) : (busErr s).free = s.free := rfl
@[simp] theorem busErr_reg (s : State) (j : Nat) : (busErr s).reg j = s.reg j := rfl

@[simp] theorem begin_pending (who : Req) (s : State) : (begin who s).pending = s.pending := rfl
@[simp] theorem begin_mode (who : Req) (s : State) : (begin who s).mode = s.mode := rfl
@[simp] theorem begin_regs (who : Req) (s : State) : (begin who s).regs = s.regs := rfl
@[simp] theorem begin_fnHeld (who : Req) (s : State) : (begin who s).fnHeld = s.fnHeld := rfl
@[simp] theorem begin_boot (who : Req) (s : State) : (begin who s).boot = s.boot := rfl
@[simp] theorem begin_gov (who : Req) (s : State) : (begin who s).gov = s.gov := rfl
@[simp] theorem begin_hif (who : Req) (s : State) : (begin who s).hif = s.hif := rfl
@[simp] theorem begin_evt (who : Req) (s : State) : (begin who s).evt = s.evt := rfl
@[simp] theorem begin_rgn (who : Req) (s : State) : (begin who s).rgn = s.rgn := rfl
@[simp] theorem begin_fab (who : Req) (s : State) : (begin who s).fab = s.fab := rfl
@[simp] theorem begin_ld (who : Req) (s : State) : (begin who s).ld = s.ld := rfl
@[simp] theorem begin_swap (who : Req) (s : State) : (begin who s).swap = s.swap := rfl
@[simp] theorem begin_cal (who : Req) (s : State) : (begin who s).cal = s.cal := rfl
@[simp] theorem begin_eng (who : Req) (s : State) : (begin who s).eng = s.eng := rfl
@[simp] theorem begin_mesh (who : Req) (s : State) : (begin who s).mesh = s.mesh := rfl
@[simp] theorem begin_core (who : Req) (s : State) : (begin who s).core = s.core := rfl
@[simp] theorem begin_scr (who : Req) (s : State) : (begin who s).scr = s.scr := rfl
@[simp] theorem begin_flash (who : Req) (s : State) : (begin who s).flash = s.flash := rfl
@[simp] theorem begin_pin (who : Req) (s : State) : (begin who s).pin = s.pin := rfl
@[simp] theorem begin_dbg (who : Req) (s : State) : (begin who s).dbg = s.dbg := rfl
@[simp] theorem begin_wdt (who : Req) (s : State) : (begin who s).wdt = s.wdt := rfl
@[simp] theorem begin_svc (who : Req) (s : State) : (begin who s).svc = s.svc := rfl
@[simp] theorem begin_free (who : Req) (s : State) : (begin who s).free = s.free := rfl
@[simp] theorem begin_reg (who : Req) (s : State) (j : Nat) : (begin who s).reg j = s.reg j := rfl

@[simp] theorem svcReply_pending (r : Reply) (s : State) : (svcReply r s).pending = s.pending := rfl
@[simp] theorem svcReply_mode (r : Reply) (s : State) : (svcReply r s).mode = s.mode := rfl
@[simp] theorem svcReply_regs (r : Reply) (s : State) : (svcReply r s).regs = s.regs := rfl
@[simp] theorem svcReply_fnHeld (r : Reply) (s : State) : (svcReply r s).fnHeld = s.fnHeld := rfl
@[simp] theorem svcReply_boot (r : Reply) (s : State) : (svcReply r s).boot = s.boot := rfl
@[simp] theorem svcReply_gov (r : Reply) (s : State) : (svcReply r s).gov = s.gov := rfl
@[simp] theorem svcReply_hif (r : Reply) (s : State) : (svcReply r s).hif = s.hif := rfl
@[simp] theorem svcReply_evt (r : Reply) (s : State) : (svcReply r s).evt = s.evt := rfl
@[simp] theorem svcReply_resp (r : Reply) (s : State) : (svcReply r s).resp = s.resp := rfl
@[simp] theorem svcReply_rgn (r : Reply) (s : State) : (svcReply r s).rgn = s.rgn := rfl
@[simp] theorem svcReply_fab (r : Reply) (s : State) : (svcReply r s).fab = s.fab := rfl
@[simp] theorem svcReply_ld (r : Reply) (s : State) : (svcReply r s).ld = s.ld := rfl
@[simp] theorem svcReply_swap (r : Reply) (s : State) : (svcReply r s).swap = s.swap := rfl
@[simp] theorem svcReply_cal (r : Reply) (s : State) : (svcReply r s).cal = s.cal := rfl
@[simp] theorem svcReply_eng (r : Reply) (s : State) : (svcReply r s).eng = s.eng := rfl
@[simp] theorem svcReply_mesh (r : Reply) (s : State) : (svcReply r s).mesh = s.mesh := rfl
@[simp] theorem svcReply_core (r : Reply) (s : State) : (svcReply r s).core = s.core := rfl
@[simp] theorem svcReply_scr (r : Reply) (s : State) : (svcReply r s).scr = s.scr := rfl
@[simp] theorem svcReply_flash (r : Reply) (s : State) : (svcReply r s).flash = s.flash := rfl
@[simp] theorem svcReply_pin (r : Reply) (s : State) : (svcReply r s).pin = s.pin := rfl
@[simp] theorem svcReply_dbg (r : Reply) (s : State) : (svcReply r s).dbg = s.dbg := rfl
@[simp] theorem svcReply_wdt (r : Reply) (s : State) : (svcReply r s).wdt = s.wdt := rfl
@[simp] theorem svcReply_free (r : Reply) (s : State) : (svcReply r s).free = s.free := rfl
@[simp] theorem svcReply_reg (r : Reply) (s : State) (j : Nat) : (svcReply r s).reg j = s.reg j := rfl

@[simp] theorem hifAck_pending (ok : Bool) (out : List Byte) (s : State) : (hifAck ok out s).pending = s.pending := rfl
@[simp] theorem hifAck_mode (ok : Bool) (out : List Byte) (s : State) : (hifAck ok out s).mode = s.mode := rfl
@[simp] theorem hifAck_regs (ok : Bool) (out : List Byte) (s : State) : (hifAck ok out s).regs = s.regs := rfl
@[simp] theorem hifAck_fnHeld (ok : Bool) (out : List Byte) (s : State) : (hifAck ok out s).fnHeld = s.fnHeld := rfl
@[simp] theorem hifAck_boot (ok : Bool) (out : List Byte) (s : State) : (hifAck ok out s).boot = s.boot := rfl
@[simp] theorem hifAck_gov (ok : Bool) (out : List Byte) (s : State) : (hifAck ok out s).gov = s.gov := rfl
@[simp] theorem hifAck_evt (ok : Bool) (out : List Byte) (s : State) : (hifAck ok out s).evt = s.evt := rfl
@[simp] theorem hifAck_resp (ok : Bool) (out : List Byte) (s : State) : (hifAck ok out s).resp = s.resp := rfl
@[simp] theorem hifAck_rgn (ok : Bool) (out : List Byte) (s : State) : (hifAck ok out s).rgn = s.rgn := rfl
@[simp] theorem hifAck_fab (ok : Bool) (out : List Byte) (s : State) : (hifAck ok out s).fab = s.fab := rfl
@[simp] theorem hifAck_ld (ok : Bool) (out : List Byte) (s : State) : (hifAck ok out s).ld = s.ld := rfl
@[simp] theorem hifAck_swap (ok : Bool) (out : List Byte) (s : State) : (hifAck ok out s).swap = s.swap := rfl
@[simp] theorem hifAck_cal (ok : Bool) (out : List Byte) (s : State) : (hifAck ok out s).cal = s.cal := rfl
@[simp] theorem hifAck_eng (ok : Bool) (out : List Byte) (s : State) : (hifAck ok out s).eng = s.eng := rfl
@[simp] theorem hifAck_mesh (ok : Bool) (out : List Byte) (s : State) : (hifAck ok out s).mesh = s.mesh := rfl
@[simp] theorem hifAck_core (ok : Bool) (out : List Byte) (s : State) : (hifAck ok out s).core = s.core := rfl
@[simp] theorem hifAck_scr (ok : Bool) (out : List Byte) (s : State) : (hifAck ok out s).scr = s.scr := rfl
@[simp] theorem hifAck_flash (ok : Bool) (out : List Byte) (s : State) : (hifAck ok out s).flash = s.flash := rfl
@[simp] theorem hifAck_pin (ok : Bool) (out : List Byte) (s : State) : (hifAck ok out s).pin = s.pin := rfl
@[simp] theorem hifAck_dbg (ok : Bool) (out : List Byte) (s : State) : (hifAck ok out s).dbg = s.dbg := rfl
@[simp] theorem hifAck_wdt (ok : Bool) (out : List Byte) (s : State) : (hifAck ok out s).wdt = s.wdt := rfl
@[simp] theorem hifAck_svc (ok : Bool) (out : List Byte) (s : State) : (hifAck ok out s).svc = s.svc := rfl
@[simp] theorem hifAck_free (ok : Bool) (out : List Byte) (s : State) : (hifAck ok out s).free = s.free := rfl
@[simp] theorem hifAck_reg (ok : Bool) (out : List Byte) (s : State) (j : Nat) : (hifAck ok out s).reg j = s.reg j := rfl

@[simp] theorem setCapture_pending (v : BitVec 2160) (s : State) : (setCapture v s).pending = s.pending := rfl
@[simp] theorem setCapture_mode (v : BitVec 2160) (s : State) : (setCapture v s).mode = s.mode := rfl
@[simp] theorem setCapture_regs (v : BitVec 2160) (s : State) : (setCapture v s).regs = s.regs := rfl
@[simp] theorem setCapture_fnHeld (v : BitVec 2160) (s : State) : (setCapture v s).fnHeld = s.fnHeld := rfl
@[simp] theorem setCapture_boot (v : BitVec 2160) (s : State) : (setCapture v s).boot = s.boot := rfl
@[simp] theorem setCapture_gov (v : BitVec 2160) (s : State) : (setCapture v s).gov = s.gov := rfl
@[simp] theorem setCapture_hif (v : BitVec 2160) (s : State) : (setCapture v s).hif = s.hif := rfl
@[simp] theorem setCapture_evt (v : BitVec 2160) (s : State) : (setCapture v s).evt = s.evt := rfl
@[simp] theorem setCapture_resp (v : BitVec 2160) (s : State) : (setCapture v s).resp = s.resp := rfl
@[simp] theorem setCapture_rgn (v : BitVec 2160) (s : State) : (setCapture v s).rgn = s.rgn := rfl
@[simp] theorem setCapture_fab (v : BitVec 2160) (s : State) : (setCapture v s).fab = s.fab := rfl
@[simp] theorem setCapture_ld (v : BitVec 2160) (s : State) : (setCapture v s).ld = s.ld := rfl
@[simp] theorem setCapture_swap (v : BitVec 2160) (s : State) : (setCapture v s).swap = s.swap := rfl
@[simp] theorem setCapture_cal (v : BitVec 2160) (s : State) : (setCapture v s).cal = s.cal := rfl
@[simp] theorem setCapture_eng (v : BitVec 2160) (s : State) : (setCapture v s).eng = s.eng := rfl
@[simp] theorem setCapture_mesh (v : BitVec 2160) (s : State) : (setCapture v s).mesh = s.mesh := rfl
@[simp] theorem setCapture_core (v : BitVec 2160) (s : State) : (setCapture v s).core = s.core := rfl
@[simp] theorem setCapture_scr (v : BitVec 2160) (s : State) : (setCapture v s).scr = s.scr := rfl
@[simp] theorem setCapture_flash (v : BitVec 2160) (s : State) : (setCapture v s).flash = s.flash := rfl
@[simp] theorem setCapture_pin (v : BitVec 2160) (s : State) : (setCapture v s).pin = s.pin := rfl
@[simp] theorem setCapture_wdt (v : BitVec 2160) (s : State) : (setCapture v s).wdt = s.wdt := rfl
@[simp] theorem setCapture_svc (v : BitVec 2160) (s : State) : (setCapture v s).svc = s.svc := rfl
@[simp] theorem setCapture_free (v : BitVec 2160) (s : State) : (setCapture v s).free = s.free := rfl
@[simp] theorem setCapture_reg (v : BitVec 2160) (s : State) (j : Nat) : (setCapture v s).reg j = s.reg j := rfl

@[simp] theorem irqPulse_pending (n : Nat) (s : State) : (irqPulse n s).pending = s.pending := rfl
@[simp] theorem irqPulse_mode (n : Nat) (s : State) : (irqPulse n s).mode = s.mode := rfl
@[simp] theorem irqPulse_fnHeld (n : Nat) (s : State) : (irqPulse n s).fnHeld = s.fnHeld := rfl
@[simp] theorem irqPulse_boot (n : Nat) (s : State) : (irqPulse n s).boot = s.boot := rfl
@[simp] theorem irqPulse_gov (n : Nat) (s : State) : (irqPulse n s).gov = s.gov := rfl
@[simp] theorem irqPulse_hif (n : Nat) (s : State) : (irqPulse n s).hif = s.hif := rfl
@[simp] theorem irqPulse_evt (n : Nat) (s : State) : (irqPulse n s).evt = s.evt := rfl
@[simp] theorem irqPulse_resp (n : Nat) (s : State) : (irqPulse n s).resp = s.resp := rfl
@[simp] theorem irqPulse_rgn (n : Nat) (s : State) : (irqPulse n s).rgn = s.rgn := rfl
@[simp] theorem irqPulse_fab (n : Nat) (s : State) : (irqPulse n s).fab = s.fab := rfl
@[simp] theorem irqPulse_ld (n : Nat) (s : State) : (irqPulse n s).ld = s.ld := rfl
@[simp] theorem irqPulse_swap (n : Nat) (s : State) : (irqPulse n s).swap = s.swap := rfl
@[simp] theorem irqPulse_cal (n : Nat) (s : State) : (irqPulse n s).cal = s.cal := rfl
@[simp] theorem irqPulse_eng (n : Nat) (s : State) : (irqPulse n s).eng = s.eng := rfl
@[simp] theorem irqPulse_mesh (n : Nat) (s : State) : (irqPulse n s).mesh = s.mesh := rfl
@[simp] theorem irqPulse_core (n : Nat) (s : State) : (irqPulse n s).core = s.core := rfl
@[simp] theorem irqPulse_scr (n : Nat) (s : State) : (irqPulse n s).scr = s.scr := rfl
@[simp] theorem irqPulse_flash (n : Nat) (s : State) : (irqPulse n s).flash = s.flash := rfl
@[simp] theorem irqPulse_pin (n : Nat) (s : State) : (irqPulse n s).pin = s.pin := rfl
@[simp] theorem irqPulse_dbg (n : Nat) (s : State) : (irqPulse n s).dbg = s.dbg := rfl
@[simp] theorem irqPulse_wdt (n : Nat) (s : State) : (irqPulse n s).wdt = s.wdt := rfl
@[simp] theorem irqPulse_svc (n : Nat) (s : State) : (irqPulse n s).svc = s.svc := rfl
@[simp] theorem irqPulse_free (n : Nat) (s : State) : (irqPulse n s).free = s.free := rfl

/-! ### Registers of an updated record -/

theorem State.reg_mk (p m r a1 a2 a3 a4 a5 a6 a7 a8 a9 a10 a11 a12 a13 a14 a15 a16 a17 a18 a19 a20 a21 a22) (x : Nat) :
    (State.mk p m r a1 a2 a3 a4 a5 a6 a7 a8 a9 a10 a11 a12 a13 a14 a15 a16 a17 a18 a19 a20 a21 a22).reg x = Store.get regDefault r x := rfl

theorem State.reg_fold (s : State) (x : Nat) : Store.get regDefault s.regs x = s.reg x := rfl

end Sys2Proof.Machine
end

