-- ==== Sys2Proof/Laws/Access.lean ====
section
/-! SUPPORT. What an access does where the block answers: the mode gate passes in RUN (R43), and a register access is the register's own action. -/

namespace Sys2Proof.Machine

variable {s : State} {who : Req} {a : Nat}

theorem Live.served (h : Live who s) : served (begin who s) who = true := h.2.2

theorem Live.answersWrite (h : Live who s) : Machine.answersWrite (begin who s) a = true := by
  simp [Machine.answersWrite, allAnswer, h.1, h.2.1]

theorem Live.answersRead (h : Live who s) : answersRead (begin who s) a = true := by
  simp [Machine.answersRead, allAnswer, h.1, h.2.1]

/-- An access that the interconnect does not serve begins and does nothing (R28). -/
theorem gateW_unserved {op : State → State} (h : Machine.served s who = false) : gateW who a op s = begin who s := by
  have h1 : Machine.served (begin who s) who = false := h
  simp [gateW, h1]

theorem gateR_unserved {op : State → State} (h : Machine.served s who = false) : gateR who a op s = begin who s := by
  have h1 : Machine.served (begin who s) who = false := h
  simp [gateR, h1]

theorem regWrite_unserved {v : Word} (h : Machine.served s who = false) : regWrite who a v s = begin who s := by
  have h1 : Machine.served (begin who s) who = false := h
  simp [regWrite, h1]

theorem regRead_unserved {peek : Bool} (h : Machine.served s who = false) : regRead who peek a s = begin who s := by
  have h1 : Machine.served (begin who s) who = false := h
  simp [regRead, h1]

/-- A write access in RUN is the register's own action. -/
theorem gateW_live {op : State → State} (h : Live who s) : gateW who a op s = op (begin who s) := by
  simp [gateW, h.served, h.answersWrite]

/-- A read access in RUN is the register's own action. -/
theorem gateR_live {op : State → State} (h : Live who s) : gateR who a op s = op (begin who s) := by
  simp [gateR, h.served, h.answersRead]

/-- A write of a service-domain register passes in every mode but FAILSAFE (R43). -/
theorem gateW_service {op : State → State} (hp : s.boot.porHeld = false) (hm : s.mode ≠ .failsafe) (hs : Machine.served s who = true) (ha : isService a = true) :
    gateW who a op s = op (begin who s) := by
  have h1 : Machine.served (begin who s) who = true := hs
  have h2 : Machine.answersWrite (begin who s) a = true := by
    unfold Machine.answersWrite
    simp only [begin_boot, begin_mode, hp, ha]
    cases hc : s.mode <;> simp_all
  simp [gateW, h1, h2]

/-- A register write in RUN to an address of R42's table. -/
theorem regWrite_live {v : Word} (h : Live who s) (hb : inBlock a = true) : regWrite who a v s = writeGo who a v (begin who s) := by
  simp [regWrite, h.served, h.answersWrite, hb]

/-- A register read in RUN of an address of R42's table by a master other than debug, whose reads peek. -/
theorem regRead_live {peek : Bool} (h : Live who s) (hb : inBlock a = true) (hd : who ≠ rqDbg) :
    regRead who peek a s = readAct who peek a (begin who s) := by
  have hp : peeks who peek = peek := by simp [peeks, beq_eq_false_iff_ne.2 hd]
  simp [regRead, h.served, h.answersRead, hb, seqTouch, hp, hd]

@[simp] theorem begin_err : (begin who s).resp.err = false := rfl

@[simp] theorem begin_who : (begin who s).resp.who = who := rfl

@[simp] theorem begin_data : (begin who s).resp.data = 0 := rfl

end Sys2Proof.Machine
end

