-- ==== Sys2Proof/Laws/Events.lean ====
section
/-! SUPPORT. What raising an event can do (R53 to R55): one lemma says all of it, and the field lemmas follow from it. -/

namespace Sys2Proof.Machine

theorem EvtOnly.refl (s : State) : EvtOnly s s := ⟨rfl, fun _ _ => rfl, fun _ _ => rfl⟩

theorem EvtOnly.base {s t : State} (h : EvtOnly s t) : t.reg Reg.sysEvtBase = s.reg Reg.sysEvtBase := h.regs _ (by decide)

theorem EvtOnly.trans {s t u : State} (h : EvtOnly s t) (k : EvtOnly t u) : EvtOnly s u := by
  refine ⟨?_, fun a ha => (k.regs a ha).trans (h.regs a ha), fun off ho => ?_⟩
  swap
  · have hb : ¬ inRing t off := by unfold inRing at ho ⊢; rw [h.base]; exact ho
    exact (k.mem off hb).trans (h.mem off ho)
  have h1 := h.rest
  have k1 := k.rest
  rw [h1] at k1
  exact k1

theorem EvtOnly.setReg {s : State} {a : Nat} (ha : a ∈ evtRegs) (v : Word) : EvtOnly s (s.setReg a v) :=
  ⟨rfl, fun _ hb => reg_setReg_other (fun h => hb (h ▸ ha)), fun _ _ => rfl⟩

theorem EvtOnly.setF {s : State} {a : Nat} (ha : a ∈ evtRegs) (hi lo v : Nat) : EvtOnly s (s.setF a hi lo v) := .setReg ha _

theorem EvtOnly.setB {s : State} {a : Nat} (ha : a ∈ evtRegs) (i : Nat) (b : Bool) : EvtOnly s (s.setB a i b) := .setReg ha _

theorem EvtOnly.count {s : State} {a : Nat} (ha : a ∈ evtRegs) (hi lo : Nat) : EvtOnly s (s.count a hi lo) := .setReg ha _

theorem beaterYield_evtOnly (off : Nat) (s : State) : EvtOnly s (beaterYield off s) := by
  unfold beaterYield
  dsimp only
  split
  · have h : EvtOnly s { s with scr := { s.scr with beater := { s.scr.beater with
        waiting := s.scr.beater.waiting ||| (1 <<< scrBank off) } } } := ⟨rfl, fun _ _ => rfl, fun _ _ => rfl⟩
    exact h.trans (.setB (a := Reg.scrBeaterStatus) (by simp [evtRegs]) _ _)
  · exact .refl s

/-- A store of a word of the ring. -/
theorem scrPut_evtOnly (off : Nat) (v : Word) (s : State) (h : inRing s off) : EvtOnly s (scrPut off v s) := by
  have h0 := beaterYield_evtOnly off s
  have hb : inRing (beaterYield off s) off := by unfold inRing at h ⊢; rw [h0.base]; exact h
  refine h0.trans ⟨rfl, fun _ _ => rfl, fun i hi => ?_⟩
  have hne : i ≠ off := fun e => hi (e ▸ hb)
  unfold scrStored scrPut scrSet
  dsimp only
  rw [Store.get_set_other hne]

theorem ringWrite_evtOnly (q : Quad) (s : State) : EvtOnly s (ringWrite q s) := by
  have hw : s.getF Reg.sysEvtWr 9 0 < 1024 := fld_lt _
  unfold ringWrite
  generalize s.getF Reg.sysEvtWr 9 0 = w at hw
  dsimp only
  have in0 : ∀ k, k < 4 → inRing s ((s.reg Reg.sysEvtBase).toNat + 4 * w + k) := fun k hk => ⟨by omega, by omega⟩
  generalize hb : (s.reg Reg.sysEvtBase).toNat + 4 * w = b at in0
  have mv : ∀ {x t : State} {o : Nat}, EvtOnly x t → inRing x o → inRing t o := by
    intro x t o hx hi
    unfold inRing at hi ⊢
    rw [hx.base]; exact hi
  have h0 := scrPut_evtOnly b q.w0 s (in0 0 (by omega))
  generalize scrPut b q.w0 s = s0 at h0
  have h1 := h0.trans (scrPut_evtOnly (b + 1) q.w1 s0 (mv h0 (in0 1 (by omega))))
  generalize scrPut (b + 1) q.w1 s0 = s1 at h1
  have h2 := h1.trans (scrPut_evtOnly (b + 2) q.w2 s1 (mv h1 (in0 2 (by omega))))
  generalize scrPut (b + 2) q.w2 s1 = s2 at h2
  have h3 := h2.trans (scrPut_evtOnly (b + 3) q.w3 s2 (mv h2 (in0 3 (by omega))))
  generalize scrPut (b + 3) q.w3 s2 = s3 at h3
  exact h3.trans (.setF (a := Reg.sysEvtWr) (by simp [evtRegs]) _ _ _)

theorem drainOne_evtOnly (s : State) : EvtOnly s (drainOne s) := by
  unfold drainOne
  split
  · exact .refl s
  · split
    · rename_i q qs _ _
      have h : EvtOnly s { s with evt := { s.evt with buf := qs } } := ⟨rfl, fun _ _ => rfl, fun _ _ => rfl⟩
      exact h.trans (ringWrite_evtOnly q _)
    · exact .refl s

theorem forAll_evtOnly {α : Type} (l : List α) (f : α → State → State) (h : ∀ x s, EvtOnly s (f x s)) (s : State) :
    EvtOnly s (forAll l f s) := by
  unfold forAll
  induction l generalizing s with
  | nil => exact .refl s
  | cons x l ih => exact (h x s).trans (ih _)

theorem drainAll_evtOnly (s : State) : EvtOnly s (drainAll s) := forAll_evtOnly _ _ (fun _ => drainOne_evtOnly) s

theorem irqPulse_evtOnly (n : Nat) (h : n < 32) (s : State) : EvtOnly s (irqPulse n s) := by
  have : n / 32 = 0 := by omega
  unfold irqPulse
  rw [this]
  exact .setB (by simp [evtRegs]) _ _

theorem pulseIf_evtOnly (n : Nat) (h : n < 32) (b : Bool) (s : State) : EvtOnly s (if b then irqPulse n s else s) := by
  split
  · exact irqPulse_evtOnly n h s
  · exact .refl s

theorem codeClass_lt (c : Code) : codeClass c < 16 := by
  have := c.isLt
  simp only [codeClass, Nat.shiftRight_eq_div_pow]
  omega

theorem evtDeliver_evtOnly (code : Code) (ix : Nat) (s : State) : EvtOnly s (evtDeliver code ix s) := by
  have hc := codeClass_lt code
  unfold evtDeliver
  dsimp only
  have h1 : EvtOnly s (s.setB Reg.sysEvtPend (codeClass code) true) := .setB (by simp [evtRegs]) _ _
  refine h1.trans ?_
  generalize s.setB Reg.sysEvtPend (codeClass code) true = s
  have h2 : EvtOnly s (if s.getB Reg.sysEvtIbiMask (codeClass code) && s.hif.intEn then
      (if s.hif.ibiQ.length < 8 then
        { s with hif := { s.hif with ibiQ := s.hif.ibiQ ++ [⟨BitVec.ofNat 4 (codeClass code), code, BitVec.ofNat 16 ix⟩] } }
      else s.setB Reg.sysHifStatus 3 true) else s) := by
    split
    · split
      · exact ⟨rfl, fun _ _ => rfl, fun _ _ => rfl⟩
      · exact .setB (by simp [evtRegs]) _ _
    · exact EvtOnly.refl s
  exact h2.trans (pulseIf_evtOnly (1 + codeClass code) (by omega) _ _)

theorem evtStored_evtOnly (q : Quad) (code : Code) (s : State) : EvtOnly s (evtStored q code s) := ⟨rfl, fun _ _ => rfl, fun _ _ => rfl⟩

theorem evtStore_evtOnly (code : Code) (src : Req) (d : Nat) (s : State) : EvtOnly s (evtStore code src d s) := by
  unfold evtStore
  dsimp only
  have h1 : EvtOnly s { s with evt := { s.evt with seq := s.evt.seq + 1, raised := code } } := ⟨rfl, fun _ _ => rfl, fun _ _ => rfl⟩
  split
  · exact ((h1.trans (ringWrite_evtOnly (evtRecord s code src d) _)).trans (evtStored_evtOnly _ _ _)).trans (evtDeliver_evtOnly _ _ _)
  · split
    · have h2 : EvtOnly s { s with evt := { s.evt with seq := s.evt.seq + 1, raised := code, buf := s.evt.buf ++ [evtRecord s code src d] } } :=
        ⟨rfl, fun _ _ => rfl, fun _ _ => rfl⟩
      exact (h2.trans (evtStored_evtOnly _ _ _)).trans (evtDeliver_evtOnly _ _ _)
    · have h2 : EvtOnly s { s with evt := { s.evt with seq := s.evt.seq + 1, raised := code, ovf := true } } := ⟨rfl, fun _ _ => rfl, fun _ _ => rfl⟩
      exact h2.trans (.count (by simp [evtRegs]) _ _)

theorem lastErrField_evtOnly (code : Code) (s : State) : EvtOnly s (lastErrField code s) := by
  unfold lastErrField
  split
  · exact .setF (by simp [evtRegs]) _ _ _
  · split
    · exact .setF (by simp [evtRegs]) _ _ _
    · split
      · exact .setF (by simp [evtRegs]) _ _ _
      · exact .refl s

/-- Everything that raising an event can do. -/
theorem raise_evtOnly (code : Code) (src : Req) (d : Nat) (s : State) : EvtOnly s (raise code src d s) :=
  ((lastErrField_evtOnly code s).trans (drainAll_evtOnly _)).trans (evtStore_evtOnly code src d _)

/-! ### The record -/

theorem ringWrite_evt (q : Quad) (s : State) : (ringWrite q s).evt = s.evt := by
  have hy : ∀ off s, (beaterYield off s).evt = s.evt := by
    intro off s
    unfold beaterYield
    dsimp only
    split <;> rfl
  have hp : ∀ off v s, (scrPut off v s).evt = s.evt := fun off v s => hy off s
  unfold ringWrite
  simp only [State.setF_evt, hp]

theorem drainOne_seq (s : State) : (drainOne s).evt.seq = s.evt.seq := by
  unfold drainOne
  split
  · rfl
  · split
    · rw [ringWrite_evt]
    · rfl

theorem drainAll_seq (s : State) : (drainAll s).evt.seq = s.evt.seq := by
  unfold drainAll forAll
  generalize s.evt.buf = l
  induction l generalizing s with
  | nil => rfl
  | cons x l ih => exact (ih (drainOne s)).trans (drainOne_seq s)

theorem lastErrField_evt (code : Code) (s : State) : (lastErrField code s).evt = s.evt := by
  unfold lastErrField
  repeat' split
  all_goals rfl

theorem evtDeliver_evt (code : Code) (ix : Nat) (s : State) : (evtDeliver code ix s).evt = s.evt := by
  unfold evtDeliver
  dsimp only
  repeat' split
  all_goals rfl

theorem evtDeliver_pend (code : Code) (ix : Nat) (s : State) : (evtDeliver code ix s).getB Reg.sysEvtPend (codeClass code) = true := by
  have hc := codeClass_lt code
  have h0 : (s.setB Reg.sysEvtPend (codeClass code) true).getB Reg.sysEvtPend (codeClass code) = true := getB_setB_same (by omega)
  unfold evtDeliver
  dsimp only
  generalize s.setB Reg.sysEvtPend (codeClass code) true = u at h0 ⊢
  have h1 : (if u.getB Reg.sysEvtIbiMask (codeClass code) && u.hif.intEn then
      (if u.hif.ibiQ.length < 8 then
        { u with hif := { u.hif with ibiQ := u.hif.ibiQ ++ [⟨BitVec.ofNat 4 (codeClass code), code, BitVec.ofNat 16 ix⟩] } }
      else u.setB Reg.sysHifStatus 3 true) else u).getB Reg.sysEvtPend (codeClass code) = true := by
    split
    · split
      · exact h0
      · rw [getB_setB_other (by decide)]; exact h0
    · exact h0
  generalize (if u.getB Reg.sysEvtIbiMask (codeClass code) && u.hif.intEn then
      (if u.hif.ibiQ.length < 8 then
        { u with hif := { u.hif with ibiQ := u.hif.ibiQ ++ [⟨BitVec.ofNat 4 (codeClass code), code, BitVec.ofNat 16 ix⟩] } }
      else u.setB Reg.sysHifStatus 3 true) else u) = x at h1
  split
  · unfold irqPulse
    rw [getB_setB_other]
    · exact h1
    · have : (1 + codeClass code) / 32 = 0 := by omega
      rw [this]
      decide
  · exact h1

theorem evtStore_logged (code : Code) (src : Req) (d : Nat) (s : State) : Logged code src d s (evtStore code src d s) := by
  unfold evtStore Logged
  dsimp only
  split
  · rw [evtDeliver_evt]
    exact ⟨by simp only [evtStored, ringWrite_evt], fun _ => ⟨evtDeliver_pend _ _ _, _, rfl, rfl, rfl⟩⟩
  · split
    · rw [evtDeliver_evt]
      exact ⟨rfl, fun _ => ⟨evtDeliver_pend _ _ _, _, rfl, rfl, rfl⟩⟩
    · exact ⟨rfl, fun h => nomatch h⟩

/-- Raising an event records it. -/
theorem raise_logged {code : Code} {src : Req} {d : Nat} {s u : State} (h : u.evt.seq = s.evt.seq) :
    Logged code src d s (raise code src d u) := by
  have h1 := evtStore_logged code src d (drainAll (lastErrField code u))
  have h2 : (drainAll (lastErrField code u)).evt.seq = s.evt.seq := by rw [drainAll_seq, lastErrField_evt, h]
  unfold Logged at h1 ⊢
  rw [h2] at h1
  exact h1

/-- Raising an event on `u` raises it, and does nothing else. -/
theorem raise_raises {code : Code} {src : Req} {d : Nat} {s u : State} (h : u.evt.seq = s.evt.seq) :
    Raises code src d u s (raise code src d u) := ⟨raise_logged h, raise_evtOnly code src d u⟩

/-! ### The fields -/

@[simp] theorem raise_pending (code : Code) (src : Req) (d : Nat) (s : State) : (raise code src d s).pending = s.pending := by
  rw [(raise_evtOnly code src d s).rest]

@[simp] theorem raise_mode (code : Code) (src : Req) (d : Nat) (s : State) : (raise code src d s).mode = s.mode := by
  rw [(raise_evtOnly code src d s).rest]

@[simp] theorem raise_fnHeld (code : Code) (src : Req) (d : Nat) (s : State) : (raise code src d s).fnHeld = s.fnHeld := by
  rw [(raise_evtOnly code src d s).rest]

@[simp] theorem raise_boot (code : Code) (src : Req) (d : Nat) (s : State) : (raise code src d s).boot = s.boot := by
  rw [(raise_evtOnly code src d s).rest]

@[simp] theorem raise_gov (code : Code) (src : Req) (d : Nat) (s : State) : (raise code src d s).gov = s.gov := by
  rw [(raise_evtOnly code src d s).rest]

@[simp] theorem raise_resp (code : Code) (src : Req) (d : Nat) (s : State) : (raise code src d s).resp = s.resp := by
  rw [(raise_evtOnly code src d s).rest]

@[simp] theorem raise_rgn (code : Code) (src : Req) (d : Nat) (s : State) : (raise code src d s).rgn = s.rgn := by
  rw [(raise_evtOnly code src d s).rest]

@[simp] theorem raise_fab (code : Code) (src : Req) (d : Nat) (s : State) : (raise code src d s).fab = s.fab := by
  rw [(raise_evtOnly code src d s).rest]

@[simp] theorem raise_ld (code : Code) (src : Req) (d : Nat) (s : State) : (raise code src d s).ld = s.ld := by
  rw [(raise_evtOnly code src d s).rest]

@[simp] theorem raise_swap (code : Code) (src : Req) (d : Nat) (s : State) : (raise code src d s).swap = s.swap := by
  rw [(raise_evtOnly code src d s).rest]

@[simp] theorem raise_cal (code : Code) (src : Req) (d : Nat) (s : State) : (raise code src d s).cal = s.cal := by
  rw [(raise_evtOnly code src d s).rest]

@[simp] theorem raise_eng (code : Code) (src : Req) (d : Nat) (s : State) : (raise code src d s).eng = s.eng := by
  rw [(raise_evtOnly code src d s).rest]

@[simp] theorem raise_mesh (code : Code) (src : Req) (d : Nat) (s : State) : (raise code src d s).mesh = s.mesh := by
  rw [(raise_evtOnly code src d s).rest]

@[simp] theorem raise_flash (code : Code) (src : Req) (d : Nat) (s : State) : (raise code src d s).flash = s.flash := by
  rw [(raise_evtOnly code src d s).rest]

@[simp] theorem raise_pin (code : Code) (src : Req) (d : Nat) (s : State) : (raise code src d s).pin = s.pin := by
  rw [(raise_evtOnly code src d s).rest]

@[simp] theorem raise_dbg (code : Code) (src : Req) (d : Nat) (s : State) : (raise code src d s).dbg = s.dbg := by
  rw [(raise_evtOnly code src d s).rest]

@[simp] theorem raise_wdt (code : Code) (src : Req) (d : Nat) (s : State) : (raise code src d s).wdt = s.wdt := by
  rw [(raise_evtOnly code src d s).rest]

@[simp] theorem raise_svc (code : Code) (src : Req) (d : Nat) (s : State) : (raise code src d s).svc = s.svc := by
  rw [(raise_evtOnly code src d s).rest]

@[simp] theorem raise_free (code : Code) (src : Req) (d : Nat) (s : State) : (raise code src d s).free = s.free := by
  rw [(raise_evtOnly code src d s).rest]

@[simp] theorem raise_evt_time (code : Code) (src : Req) (d : Nat) (s : State) : (raise code src d s).evt.time = s.evt.time := by
  rw [(raise_evtOnly code src d s).rest]

@[simp] theorem raise_evt_frac (code : Code) (src : Req) (d : Nat) (s : State) : (raise code src d s).evt.frac = s.evt.frac := by
  rw [(raise_evtOnly code src d s).rest]

@[simp] theorem raise_evt_meshTime (code : Code) (src : Req) (d : Nat) (s : State) : (raise code src d s).evt.meshTime = s.evt.meshTime := by
  rw [(raise_evtOnly code src d s).rest]

@[simp] theorem raise_evt_timeLatch (code : Code) (src : Req) (d : Nat) (s : State) : (raise code src d s).evt.timeLatch = s.evt.timeLatch := by
  rw [(raise_evtOnly code src d s).rest]

@[simp] theorem raise_evt_edgeLatch (code : Code) (src : Req) (d : Nat) (s : State) : (raise code src d s).evt.edgeLatch = s.evt.edgeLatch := by
  rw [(raise_evtOnly code src d s).rest]

@[simp] theorem raise_hif_intEn (code : Code) (src : Req) (d : Nat) (s : State) : (raise code src d s).hif.intEn = s.hif.intEn := by
  rw [(raise_evtOnly code src d s).rest]

@[simp] theorem raise_hif_hjEn (code : Code) (src : Req) (d : Nat) (s : State) : (raise code src d s).hif.hjEn = s.hif.hjEn := by
  rw [(raise_evtOnly code src d s).rest]

@[simp] theorem raise_hif_mwl (code : Code) (src : Req) (d : Nat) (s : State) : (raise code src d s).hif.mwl = s.hif.mwl := by
  rw [(raise_evtOnly code src d s).rest]

@[simp] theorem raise_hif_mrl (code : Code) (src : Req) (d : Nat) (s : State) : (raise code src d s).hif.mrl = s.hif.mrl := by
  rw [(raise_evtOnly code src d s).rest]

@[simp] theorem raise_hif_ptr (code : Code) (src : Req) (d : Nat) (s : State) : (raise code src d s).hif.ptr = s.hif.ptr := by
  rw [(raise_evtOnly code src d s).rest]

@[simp] theorem raise_hif_hdr (code : Code) (src : Req) (d : Nat) (s : State) : (raise code src d s).hif.hdr = s.hif.hdr := by
  rw [(raise_evtOnly code src d s).rest]

@[simp] theorem raise_hif_hotJoin (code : Code) (src : Req) (d : Nat) (s : State) : (raise code src d s).hif.hotJoin = s.hif.hotJoin := by
  rw [(raise_evtOnly code src d s).rest]

@[simp] theorem raise_hif_hotJoins (code : Code) (src : Req) (d : Nat) (s : State) : (raise code src d s).hif.hotJoins = s.hif.hotJoins := by
  rw [(raise_evtOnly code src d s).rest]

@[simp] theorem raise_hif_ack (code : Code) (src : Req) (d : Nat) (s : State) : (raise code src d s).hif.ack = s.hif.ack := by
  rw [(raise_evtOnly code src d s).rest]

@[simp] theorem raise_hif_out (code : Code) (src : Req) (d : Nat) (s : State) : (raise code src d s).hif.out = s.hif.out := by
  rw [(raise_evtOnly code src d s).rest]

@[simp] theorem raise_core_running (code : Code) (src : Req) (d : Nat) (s : State) : (raise code src d s).core.running = s.core.running := by
  rw [(raise_evtOnly code src d s).rest]

@[simp] theorem raise_core_halted (code : Code) (src : Req) (d : Nat) (s : State) : (raise code src d s).core.halted = s.core.halted := by
  rw [(raise_evtOnly code src d s).rest]

@[simp] theorem raise_core_wfi (code : Code) (src : Req) (d : Nat) (s : State) : (raise code src d s).core.wfi = s.core.wfi := by
  rw [(raise_evtOnly code src d s).rest]

@[simp] theorem raise_core_stopped (code : Code) (src : Req) (d : Nat) (s : State) : (raise code src d s).core.stopped = s.core.stopped := by
  rw [(raise_evtOnly code src d s).rest]

@[simp] theorem raise_core_pc (code : Code) (src : Req) (d : Nat) (s : State) : (raise code src d s).core.pc = s.core.pc := by
  rw [(raise_evtOnly code src d s).rest]

@[simp] theorem raise_core_gpr (code : Code) (src : Req) (d : Nat) (s : State) : (raise code src d s).core.gpr = s.core.gpr := by
  rw [(raise_evtOnly code src d s).rest]

@[simp] theorem raise_core_csr (code : Code) (src : Req) (d : Nat) (s : State) : (raise code src d s).core.csr = s.core.csr := by
  rw [(raise_evtOnly code src d s).rest]

@[simp] theorem raise_core_staging (code : Code) (src : Req) (d : Nat) (s : State) : (raise code src d s).core.staging = s.core.staging := by
  rw [(raise_evtOnly code src d s).rest]

@[simp] theorem raise_core_latchNib (code : Code) (src : Req) (d : Nat) (s : State) : (raise code src d s).core.latchNib = s.core.latchNib := by
  rw [(raise_evtOnly code src d s).rest]

@[simp] theorem raise_core_latchAddr (code : Code) (src : Req) (d : Nat) (s : State) : (raise code src d s).core.latchAddr = s.core.latchAddr := by
  rw [(raise_evtOnly code src d s).rest]

@[simp] theorem raise_core_latchValid (code : Code) (src : Req) (d : Nat) (s : State) : (raise code src d s).core.latchValid = s.core.latchValid := by
  rw [(raise_evtOnly code src d s).rest]

@[simp] theorem raise_core_data (code : Code) (src : Req) (d : Nat) (s : State) : (raise code src d s).core.data = s.core.data := by
  rw [(raise_evtOnly code src d s).rest]

@[simp] theorem raise_core_exc (code : Code) (src : Req) (d : Nat) (s : State) : (raise code src d s).core.exc = s.core.exc := by
  rw [(raise_evtOnly code src d s).rest]

@[simp] theorem raise_scr_zeroed (code : Code) (src : Req) (d : Nat) (s : State) : (raise code src d s).scr.zeroed = s.scr.zeroed := by
  rw [(raise_evtOnly code src d s).rest]

@[simp] theorem raise_scr_epoch (code : Code) (src : Req) (d : Nat) (s : State) : (raise code src d s).scr.epoch = s.scr.epoch := by
  rw [(raise_evtOnly code src d s).rest]

@[simp] theorem raise_scr_inService (code : Code) (src : Req) (d : Nat) (s : State) : (raise code src d s).scr.inService = s.scr.inService := by
  rw [(raise_evtOnly code src d s).rest]

@[simp] theorem raise_scr_fabricIrq (code : Code) (src : Req) (d : Nat) (s : State) : (raise code src d s).scr.fabricIrq = s.scr.fabricIrq := by
  rw [(raise_evtOnly code src d s).rest]

@[simp] theorem raise_scr_serial (code : Code) (src : Req) (d : Nat) (s : State) : (raise code src d s).scr.serial = s.scr.serial := by
  rw [(raise_evtOnly code src d s).rest]

@[simp] theorem raise_scr_tmr (code : Code) (src : Req) (d : Nat) (s : State) : (raise code src d s).scr.tmr = s.scr.tmr := by
  rw [(raise_evtOnly code src d s).rest]

@[simp] theorem raise_scr_beater_running (code : Code) (src : Req) (d : Nat) (s : State) : (raise code src d s).scr.beater.running = s.scr.beater.running := by
  rw [(raise_evtOnly code src d s).rest]

@[simp] theorem raise_scr_beater_destruct (code : Code) (src : Req) (d : Nat) (s : State) : (raise code src d s).scr.beater.destruct = s.scr.beater.destruct := by
  rw [(raise_evtOnly code src d s).rest]

@[simp] theorem raise_scr_beater_ss (code : Code) (src : Req) (d : Nat) (s : State) : (raise code src d s).scr.beater.ss = s.scr.beater.ss := by
  rw [(raise_evtOnly code src d s).rest]

@[simp] theorem raise_scr_beater_repair (code : Code) (src : Req) (d : Nat) (s : State) : (raise code src d s).scr.beater.repair = s.scr.beater.repair := by
  rw [(raise_evtOnly code src d s).rest]

@[simp] theorem raise_scr_beater_banks (code : Code) (src : Req) (d : Nat) (s : State) : (raise code src d s).scr.beater.banks = s.scr.beater.banks := by
  rw [(raise_evtOnly code src d s).rest]

@[simp] theorem raise_scr_beater_active (code : Code) (src : Req) (d : Nat) (s : State) : (raise code src d s).scr.beater.active = s.scr.beater.active := by
  rw [(raise_evtOnly code src d s).rest]

@[simp] theorem raise_scr_beater_fromSvc (code : Code) (src : Req) (d : Nat) (s : State) : (raise code src d s).scr.beater.fromSvc = s.scr.beater.fromSvc := by
  rw [(raise_evtOnly code src d s).rest]

theorem raise_reg (code : Code) (src : Req) (d : Nat) (s : State) (a : Nat) (h : a ∉ evtRegs) : (raise code src d s).reg a = s.reg a :=
  (raise_evtOnly code src d s).regs a h

@[simp] theorem raise_seq (code : Code) (src : Req) (d : Nat) (s : State) : (raise code src d s).evt.seq = s.evt.seq + 1 :=
  (raise_logged (s := s) rfl).1

end Sys2Proof.Machine
end

