-- ==== Sys2Proof/Laws/Modes.lean ====
section
/-! SUPPORT. What a change of mode, a fail-safe trigger and a reset leave (R58, R61 to R63, R81); the mode through the shared operations. -/

namespace Sys2Proof.Machine

@[simp] theorem forAll_mode {α : Type} (l : List α) (f : α → State → State) (h : ∀ x s, (f x s).mode = s.mode) (s : State) :
    (forAll l f s).mode = s.mode := by
  unfold forAll
  induction l generalizing s with
  | nil => rfl
  | cons x l ih => simp only [List.foldl_cons, ih, h]

@[simp] theorem foldl_mode {α : Type} (l : List α) (f : State → α → State) (h : ∀ x s, (f s x).mode = s.mode) (s : State) :
    (l.foldl f s).mode = s.mode := by
  induction l generalizing s with
  | nil => rfl
  | cons x l ih => simp only [List.foldl_cons, ih, h]

@[simp] theorem scrSet_mode (off : Nat) (c : Cell) (s : State) : (scrSet off c s).mode = s.mode := by simp [scrSet]

@[simp] theorem beaterYield_mode (off : Nat) (s : State) : (beaterYield off s).mode = s.mode := by simp [beaterYield, apply_ite State.mode]

@[simp] theorem scrPut_mode (off : Nat) (v : Word) (s : State) : (scrPut off v s).mode = s.mode := by simp [scrPut]

@[simp] theorem govAsk_mode (k : GovKind) (ix di : Nat) (s : State) : (govAsk k ix di s).mode = s.mode := by simp [govAsk, apply_ite State.mode]

@[simp] theorem fnFaultNow_mode (f : Func) (s : State) : (fnFaultNow f s).mode = s.mode := by simp [fnFaultNow, apply_ite State.mode]

@[simp] theorem fnHold_mode (m : Mode) (f : Func) (s : State) : (fnHold m f s).mode = s.mode := by simp [fnHold, apply_ite State.mode]

@[simp] theorem wdtLoad_mode (s : State) : (wdtLoad s).mode = s.mode := by simp [wdtLoad]

@[simp] theorem fnStartHard_mode (f : Func) (s : State) : (fnStartHard f s).mode = s.mode := by
  unfold fnStartHard
  split <;> simp

@[simp] theorem fnRelease_mode (f : Func) (s : State) : (fnRelease f s).mode = s.mode := by simp [fnRelease, apply_ite State.mode]

@[simp] theorem claimRefuse_mode (a : Nat) (res : ClaimRes) (who : Req) (s : State) : (claimRefuse a res who s).mode = s.mode := by simp [claimRefuse]

@[simp] theorem claimGrant_mode (a : Nat) (res : ClaimRes) (who : Req) (id : Nat) (s : State) : (claimGrant a res who id s).mode = s.mode := by simp [claimGrant, apply_ite State.mode]

@[simp] theorem claimRelease_mode (a : Nat) (res : ClaimRes) (who : Req) (id : Nat) (s : State) : (claimRelease a res who id s).mode = s.mode := by simp [claimRelease, apply_ite State.mode]

@[simp] theorem claimWrite_mode (a : Nat) (res : ClaimRes) (who : Req) (v : Word) (s : State) : (claimWrite a res who v s).mode = s.mode := by simp [claimWrite, apply_ite State.mode]

@[simp] theorem pinsFrom_mode (old : State) (s : State) : (pinsFrom old s).mode = s.mode := by
  unfold pinsFrom; rfl

@[simp] theorem pinAt_mode (i : Nat) (old : State) (s : State) : (pinAt i old s).mode = s.mode := by simp [pinAt]

@[simp] theorem pinsAbandon_mode (s : State) : (pinsAbandon s).mode = s.mode := by simp [pinsAbandon]

@[simp] theorem portSend_mode (p : Nat) (k : Packet) (s : State) : (portSend p k s).mode = s.mode := by simp [portSend, apply_ite State.mode]

@[simp] theorem meshDeliver_mode (k : Packet) (s : State) : (meshDeliver k s).mode = s.mode := by simp [meshDeliver]

@[simp] theorem inboxTake_mode (svc : Nat) (s : State) : (inboxTake svc s).mode = s.mode := by
  unfold inboxTake
  split <;> simp

@[simp] theorem meshDrop_mode (s : State) : (meshDrop s).mode = s.mode := by simp [meshDrop]

@[simp] theorem meshFlood_mode (src : Option Nat) (k : Packet) (s : State) : (meshFlood src k s).mode = s.mode := by simp [meshFlood, apply_ite State.mode]

@[simp] theorem meshUnicast_mode (k : Packet) (s : State) : (meshUnicast k s).mode = s.mode := by simp [meshUnicast, apply_ite State.mode]

@[simp] theorem meshRoute_mode (src : Option Nat) (k : Packet) (s : State) : (meshRoute src k s).mode = s.mode := by simp [meshRoute, apply_ite State.mode]

@[simp] theorem meshSend_mode (dest svc vc : Nat) (payload : List Word) (s : State) : (meshSend dest svc vc payload s).mode = s.mode := by simp [meshSend]

@[simp] theorem meshSendLink_mode (p svc : Nat) (payload : List Word) (s : State) : (meshSendLink p svc payload s).mode = s.mode := by simp [meshSendLink]

@[simp] theorem linkEnd_mode (p cause l : Nat) (s : State) : (linkEnd p cause l s).mode = s.mode := by simp [linkEnd, apply_ite State.mode]

@[simp] theorem pushResult_mode (code : Code) (s : State) : (pushResult code s).mode = s.mode := by simp [pushResult]

@[simp] theorem streamDiscard_mode (cause : Nat) (s : State) : (streamDiscard cause s).mode = s.mode := by simp [streamDiscard, apply_ite State.mode]

@[simp] theorem scrForget_mode (banks : BitVec 16) (s : State) : (scrForget banks s).mode = s.mode := by simp [scrForget]

@[simp] theorem beaterAbort_mode (who : Req) (cause : Nat) (s : State) : (beaterAbort who cause s).mode = s.mode := by simp [beaterAbort, apply_ite State.mode]

@[simp] theorem linkIdle_mode (p l : Nat) (s : State) : (linkIdle p l s).mode = s.mode := by simp [linkIdle]

@[simp] theorem pushEnd_mode (st : Nat) (s : State) : (pushEnd st s).mode = s.mode := by simp [pushEnd, apply_ite State.mode]

@[simp] theorem svcReject_mode (reason : Nat) (s : State) : (svcReject reason s).mode = s.mode := by simp [svcReject]

@[simp] theorem testRecord_mode (result : Nat) (code : Code) (detail : Word) (s : State) : (testRecord result code detail s).mode = s.mode := by
  unfold testRecord
  repeat' split
  all_goals simp

@[simp] theorem testAbandon_mode (s : State) : (testAbandon s).mode = s.mode := by
  unfold testAbandon
  split <;> simp

@[simp] theorem calStop_mode (s : State) : (calStop s).mode = s.mode := by simp [calStop]

@[simp] theorem swapDrop_mode (s : State) : (swapDrop s).mode = s.mode := by simp [swapDrop]

@[simp] theorem flashCutAt_mode (lo n : Nat) (s : State) : (flashCutAt lo n s).mode = s.mode := by
  unfold flashCutAt
  dsimp only
  exact (forAll_mode _ _ (by intros; rfl) _).trans rfl

@[simp] theorem descCut_mode (d : Desc) (s : State) : (descCut d s).mode = s.mode := by simp [descCut, apply_ite State.mode]

@[simp] theorem flashStop_mode (s : State) : (flashStop s).mode = s.mode := by
  unfold flashStop
  simp only []
  split
  · rw [flashCutAt_mode, forAll_mode _ _ descCut_mode]
  · rw [forAll_mode _ _ descCut_mode]

@[simp] theorem lanesIdle_mode (s : State) : (lanesIdle s).mode = s.mode := by simp [lanesIdle]

@[simp] theorem wdtGrace_mode (s : State) : (wdtGrace s).mode = s.mode := by simp [wdtGrace]

@[simp] theorem releaseAll_mode (old : Mode) (s : State) : (releaseAll old s).mode = s.mode := by simp [releaseAll, apply_ite State.mode]

@[simp] theorem modeFuncs_mode (old m : Mode) (s : State) : (modeFuncs old m s).mode = s.mode := by
  cases m <;> (unfold modeFuncs; simp only [lanesIdle_mode, releaseAll_mode]) <;> rw [forAll_mode _ _ (fnHold_mode _)]

@[simp] theorem modeRefuse_mode (req reason : Nat) (svc : Bool) (s : State) : (modeRefuse req reason svc s).mode = s.mode := by simp [modeRefuse]

@[simp] theorem fsLatch_mode (code : Code) (health : Nat) (s : State) : (fsLatch code health s).mode = s.mode := by simp [fsLatch, apply_ite State.mode]

/-- A change of mode ends in the mode asked for. -/
@[simp] theorem setMode_mode (m : Mode) (c : Nat) (s : State) : (setMode m c s).mode = m := by
  unfold setMode
  dsimp only
  split
  · rename_i h; exact h.symm
  · split <;> simp

theorem fsHalt_mode (health : Nat) (s : State) : (fsHalt health s).mode = .failsafe := by
  unfold fsHalt
  simp only [swapDrop_mode, calStop_mode, pinsAbandon_mode, flashStop_mode]

/-- A trigger ends in FAILSAFE, but for a part that nRST holds in INERT (R58, R82). -/
theorem failsafeWith_mode {code : Code} {health d : Nat} {first : State → State} {s : State} (hn : s.boot.nrstLow = false)
    (h : ∀ u, (first u).mode = u.mode) : (failsafeWith code health d first s).mode = .failsafe := by
  unfold failsafeWith
  dsimp only
  split
  · rename_i hf; simp only [hn, Bool.false_eq_true, or_false] at hf; simp [h, hf]
  · simp only [pushEnd_mode, testAbandon_mode, beaterAbort_mode, streamDiscard_mode, lanesIdle_mode, forAll_mode _ _ (fnHold_mode _), raise_mode,
      fsLatch_mode, h, pinsFrom_mode, fsHalt_mode]

theorem failsafe_mode {code : Code} {health d : Nat} {s : State} (hn : s.boot.nrstLow = false) :
    (failsafe code health d s).mode = .failsafe := failsafeWith_mode hn fun _ => rfl

/-! ### Resets -/

theorem keepBits_reg {src s : State} {a m b : Nat} (h : b ≠ a) : (keepBits src a m s).reg b = s.reg b := reg_setReg_other h

/-- Only registers differ. -/
def SameButRegs (s t : State) : Prop := t = { s with regs := t.regs }

theorem SameButRegs.trans {s t u : State} (h : SameButRegs s t) (k : SameButRegs t u) : SameButRegs s u := by
  unfold SameButRegs at *
  rw [h] at k
  exact k

theorem keepBits_same {src s : State} {a m : Nat} : SameButRegs s (keepBits src a m s) := rfl

theorem forAll_keepBits {l : List Nat} {src s : State} {m : Nat → Nat} :
    SameButRegs s (forAll l (fun a => keepBits src a (m a)) s) ∧
      ∀ b, b ∉ l → (forAll l (fun a => keepBits src a (m a)) s).reg b = s.reg b := by
  unfold forAll
  induction l generalizing s with
  | nil => exact ⟨rfl, fun _ _ => rfl⟩
  | cons x l ih =>
    obtain ⟨h1, h2⟩ := ih (s := keepBits src x (m x) s)
    refine ⟨SameButRegs.trans (t := keepBits src x (m x) s) rfl h1, fun b hb => ?_⟩
    simp only [List.mem_cons, not_or] at hb
    exact (h2 b hb.2).trans (keepBits_reg hb.1)

/-- What a reset keeps of the registers. -/
theorem keepRegs_same (k : RstKind) (src s : State) :
    SameButRegs s (keepRegs k src s) ∧ ∀ a, a ∉ keptRegs k → (keepRegs k src s).reg a = s.reg a := by
  have h1 := forAll_keepBits (l := journalRegs) (src := src) (s := s) (m := fun _ => 2 ^ 36 - 1)
  cases k <;> unfold keepRegs <;> dsimp only
  · exact ⟨h1.1, fun a ha => h1.2 a ha⟩
  · simp only [reduceCtorEq, if_false]
    have h2 := forAll_keepBits (l := powerRegs) (src := src) (m := powerMask)
      (s := keepBits src Reg.pwrRailOk (2 ^ 36 - 1) (forAll journalRegs (fun a => keepBits src a (2 ^ 36 - 1)) s))
    refine ⟨(h1.1.trans keepBits_same).trans h2.1, fun a ha => ?_⟩
    simp only [keptRegs, List.mem_append, List.mem_cons, not_or] at ha
    exact (h2.2 a ha.2.2).trans ((keepBits_reg ha.2.1).trans (h1.2 a ha.1))
  · simp only [reduceCtorEq, if_false]
    have h2 := forAll_keepBits (l := powerRegs) (src := src) (m := powerMask)
      (s := keepBits src Reg.pwrRailOk (2 ^ 36 - 1) (forAll journalRegs (fun a => keepBits src a (2 ^ 36 - 1)) s))
    refine ⟨(((((h1.1.trans keepBits_same).trans h2.1).trans keepBits_same).trans keepBits_same).trans keepBits_same).trans keepBits_same, fun a ha => ?_⟩
    simp only [keptRegs, List.mem_append, List.mem_cons, not_or, List.not_mem_nil, not_false_eq_true, and_true] at ha
    rw [keepBits_reg ha.2.1, keepBits_reg ha.2.2.1, keepBits_reg ha.2.2.2.1, keepBits_reg ha.2.2.2.2]
    exact (h2.2 a ha.1.2.2).trans ((keepBits_reg ha.1.2.1).trans (h1.2 a ha.1.1))

theorem Store.keep_true {α : Type} (m : Store α) : Store.keep (fun _ => true) m = m := by
  simp [Store.keep]

theorem flashStop_idle {s : State} (hd : s.flash.descs = []) (hm : s.flash.move = none) : (flashStop s).flash.mem = s.flash.mem := by
  unfold flashStop forAll
  simp [hd, hm]

/-- What a reset leaves, but for E001. -/
theorem keepRegs_afterReset (k : RstKind) (s : State) : AfterReset k s (keepRegs k s (keepState k s)) := by
  obtain ⟨h, hr⟩ := keepRegs_same k s (keepState k s)
  unfold SameButRegs at h
  generalize keepRegs k s (keepState k s) = u at h hr
  have e : ∀ {β : Type} (f : State → β) (_ : ∀ x : Store Word, f { keepState k s with regs := x } = f (keepState k s)), f u = f (keepState k s) := by
    intro β f hf
    rw [h]
    exact hf _
  refine ⟨e (·.mode) (fun _ => rfl), e (·.pending) (fun _ => rfl), fun a ha => (hr a ha).trans rfl, ?_, ?_, ?_, ?_, ?_⟩
  · exact ⟨e (·.core) (fun _ => rfl), e (·.gov) (fun _ => rfl), e (·.rgn) (fun _ => rfl), e (·.fab) (fun _ => rfl), e (·.ld) (fun _ => rfl),
      e (·.swap) (fun _ => rfl), e (·.cal) (fun _ => rfl), e (·.eng) (fun _ => rfl), e (·.wdt) (fun _ => rfl), e (·.svc) (fun _ => rfl)⟩
  · exact ⟨e (·.sec.keyRam) (fun _ => rfl), e (·.sec.keyValid) (fun _ => rfl), e (·.sec.rollCount) (fun _ => rfl)⟩
  · intro hd hm
    exact (e (·.flash.mem) (fun _ => rfl)).trans (flashStop_idle hd hm)
  · intro hk hd off
    have hb : beaterHeld s = 0 := by simp [beaterHeld, hd]
    have : u.scr.mem = s.scr.mem := by
      refine (e (·.scr.mem) (fun _ => rfl)).trans ?_
      show (if k = .power then [] else (scrForget (beaterHeld s) s).scr.mem) = s.scr.mem
      rw [if_neg hk, hb]
      unfold scrForget
      simp [Store.keep_true]
    unfold scrStored
    rw [this]
  · exact e (·.dbg.level) (fun _ => rfl)

/-- A reset leaves that state, and E001 where the mode changed (R58). -/
theorem resetTo_after (k : RstKind) (s : State) : EvtOnly (keepRegs k s (keepState k s)) (resetTo k s) := by
  have e : ∀ (c : Prop) [Decidable c] (t : State) (code : Code) (d : Nat),
      EvtOnly t (if c then t else raise code 0 d t) ∧ EvtOnly t (if c then raise code 0 d t else t) := by
    intro c _ t code d
    by_cases hc : c
    · rw [if_pos hc, if_pos hc]; exact ⟨.refl _, raise_evtOnly _ _ _ _⟩
    · rw [if_neg hc, if_neg hc]; exact ⟨raise_evtOnly _ _ _ _, .refl _⟩
  unfold resetTo
  dsimp only
  exact ((e _ _ _ _).1.trans (e _ _ _ _).2).trans (e _ _ _ _).1

/-- VCCSVC too low leaves what power-on reset leaves, and holds it (R81, R95). -/
theorem powerFail_after (s : State) : ∃ u, AfterReset .power s u ∧ EvtOnly { u with boot := { u.boot with porHeld := true } } (powerFail s) := by
  refine ⟨_, keepRegs_afterReset .power s, ?_⟩
  have h := resetTo_after .power s
  unfold powerFail
  dsimp only
  refine ⟨?_, h.regs, h.mem⟩
  have h1 := h.rest
  generalize keepRegs .power s (keepState .power s) = u at *
  generalize resetTo .power s = t at *
  exact congrArg (fun x => ({x with boot := {x.boot with porHeld := true}} : State)) h1

end Sys2Proof.Machine
end

