-- ==== Sys2Proof/Laws/Form.lean ====
section
/-! SUPPORT. Every operation on the scratchpad and the flash die keeps the canonical form, and so do events and resets. -/

namespace Sys2Proof.Machine

variable {s t : State}

theorem MemForm.of (h : MemForm s) (hs : t.scr.mem = s.scr.mem) (hf : t.flash.mem = s.flash.mem) : MemForm t := by
  unfold MemForm; rw [hs, hf]; exact h

theorem forAll_memForm {α : Type} (l : List α) (f : α → State → State) (hf : ∀ x s, MemForm s → MemForm (f x s)) (h : MemForm s) :
    MemForm (forAll l f s) := by
  unfold forAll
  induction l generalizing s with
  | nil => exact h
  | cons x l ih => exact ih (hf x s h)

theorem setReg_memForm (a : Nat) (v : Word) (h : MemForm s) : MemForm (s.setReg a v) := h.of rfl rfl

theorem setF_memForm (a hi lo v : Nat) (h : MemForm s) : MemForm (s.setF a hi lo v) := h.of rfl rfl

theorem setB_memForm (a i : Nat) (b : Bool) (h : MemForm s) : MemForm (s.setB a i b) := h.of rfl rfl

theorem count_memForm (a hi lo : Nat) (h : MemForm s) : MemForm (s.count a hi lo) := h.of rfl rfl

theorem setFn_memForm (f : Func) (n : Nat) (h : MemForm s) : MemForm (s.setFn f n) := h.of rfl rfl

theorem draw_memForm (h : MemForm s) : MemForm s.draw := h.of rfl rfl

/-! ### The scratchpad -/

theorem withBeater_memForm (b : Beater) (h : MemForm s) : MemForm { s with scr := { s.scr with beater := b } } := h.of rfl rfl

theorem scrSet_memForm (off : Nat) (c : Cell) (h : MemForm s) : MemForm (scrSet off c s) := by
  have h1 : Store.wf (fun _ => none) (Store.set (fun _ => none) s.scr.mem off (some c)) = true := Store.wf_set h.1
  exact ⟨h1, h.2⟩

theorem scrForget_memForm (banks : BitVec 16) (h : MemForm s) : MemForm (scrForget banks s) := by
  have h1 : Store.wf (fun _ => none) (Store.keep (fun off => !banks.getLsbD (scrBank off)) s.scr.mem) = true := Store.wf_keep _ h.1
  exact ⟨h1, h.2⟩

theorem beaterYield_memForm (off : Nat) (h : MemForm s) : MemForm (beaterYield off s) := by
  unfold beaterYield
  dsimp only
  split
  · exact h.of rfl rfl
  · exact h

theorem scrPut_memForm (off : Nat) (v : Word) (h : MemForm s) : MemForm (scrPut off v s) := scrSet_memForm _ _ (beaterYield_memForm _ h)

/-! ### Events -/

theorem ringWrite_memForm (q : Quad) (h : MemForm s) : MemForm (ringWrite q s) := by
  unfold ringWrite
  exact (scrPut_memForm _ _ (scrPut_memForm _ _ (scrPut_memForm _ _ (scrPut_memForm _ _ h)))).of rfl rfl

theorem drainOne_memForm (h : MemForm s) : MemForm (drainOne s) := by
  unfold drainOne
  split
  · exact h
  · split
    · exact ringWrite_memForm _ (h.of rfl rfl)
    · exact h

theorem evtDeliver_mem (code : Code) (ix : Nat) (s : State) :
    (evtDeliver code ix s).scr.mem = s.scr.mem ∧ (evtDeliver code ix s).flash.mem = s.flash.mem := by
  unfold evtDeliver
  dsimp only
  split <;> split <;> first | exact ⟨rfl, rfl⟩ | skip
  all_goals split <;> exact ⟨rfl, rfl⟩

theorem evtDeliver_memForm (code : Code) (ix : Nat) (h : MemForm s) : MemForm (evtDeliver code ix s) :=
  h.of (evtDeliver_mem code ix s).1 (evtDeliver_mem code ix s).2

theorem evtStored_memForm (q : Quad) (code : Code) (h : MemForm s) : MemForm (evtStored q code s) := h.of rfl rfl

theorem evt_memForm (e : Evt) (h : MemForm s) : MemForm { s with evt := e } := h.of rfl rfl

theorem evtStore_memForm (code : Code) (src : Req) (d : Nat) (h : MemForm s) : MemForm (evtStore code src d s) := by
  unfold evtStore
  dsimp only
  generalize evtRecord s code src d = q
  split
  · exact evtDeliver_memForm _ _ (evtStored_memForm _ _ (ringWrite_memForm q (evt_memForm _ h)))
  · split
    · exact evtDeliver_memForm _ _ (evtStored_memForm _ _ (evt_memForm _ h))
    · exact count_memForm _ _ _ (evt_memForm _ h)

theorem raise_memForm (code : Code) (src : Req) (d : Nat) (h : MemForm s) : MemForm (raise code src d s) := by
  have h1 : MemForm (lastErrField code s) := by
    unfold lastErrField
    split
    · exact h.of rfl rfl
    · split
      · exact h.of rfl rfl
      · split
        · exact h.of rfl rfl
        · exact h
  have h2 : MemForm (drainAll (lastErrField code s)) := forAll_memForm _ _ (fun _ _ => drainOne_memForm) h1
  exact evtStore_memForm code src d h2

/-! ### Accesses -/

theorem scrCorrected_memForm (off : Nat) (who : Req) (b : Nat) (w : Word) (h : MemForm s) : MemForm (scrCorrected off who b w s) := by
  have h1 := scrSet_memForm off { data := w } h
  unfold scrCorrected
  generalize scrSet off { data := w } s = u at *
  exact raise_memForm _ _ _ (h1.of rfl rfl)

theorem busErr_memForm (h : MemForm s) : MemForm (busErr s) := h.of rfl rfl

theorem scrBad_memForm (off : Nat) (who : Req) (h : MemForm s) : MemForm (scrBad off who s) := by
  unfold scrBad
  exact busErr_memForm (raise_memForm _ _ _ (h.of rfl rfl))

theorem scrFault_memForm (who : Req) (off : Nat) (w : Bool) (c : Nat) (h : MemForm s) : MemForm (scrFault who off w c s) :=
  busErr_memForm (raise_memForm _ _ _ h)

theorem scrFetch_memForm (off : Nat) (who : Req) (k : Word → State → State) (hk : ∀ w s, MemForm s → MemForm (k w s)) (h : MemForm s) :
    MemForm (scrFetch off who k s) := by
  unfold scrFetch
  dsimp only
  split
  · exact hk _ _ (beaterYield_memForm _ h)
  · exact hk _ _ (scrCorrected_memForm _ _ _ _ (beaterYield_memForm _ h))
  · exact scrBad_memForm _ _ (beaterYield_memForm _ h)

theorem beaterDropBank_memForm (who : Req) (b : Nat) (h : MemForm s) : MemForm (beaterDropBank who b s) := by
  unfold beaterDropBank
  dsimp only
  have h1 := scrForget_memForm (1 <<< b) h
  have h3 := raise_memForm 0x807 0 (1 <<< 12 ||| who.toNat <<< 4 ||| b) (withBeater_memForm
    { (scrForget (1 <<< b) s).scr.beater with active := (scrForget (1 <<< b) s).scr.beater.active &&& ~~~(1 <<< b : BitVec 16) } h1)
  split
  · exact setFn_memForm _ _ (setB_memForm _ _ _ (setF_memForm _ _ _ _ (withBeater_memForm _ h3)))
  · exact h3

theorem scrGate_memForm (who : Req) (off : Nat) (w : Bool) (op : State → State) (ho : ∀ s, MemForm s → MemForm (op s)) (h : MemForm s) :
    MemForm (scrGate who off w op s) := by
  unfold scrGate
  split
  · exact ho _ h
  · exact scrFault_memForm _ _ _ _ h
  · split
    · dsimp only
      split
      · exact ho _ (beaterDropBank_memForm _ _ h)
      · exact scrFault_memForm _ _ _ _ (beaterDropBank_memForm _ _ h)
    · exact scrFault_memForm _ _ _ _ h

theorem answer_memForm (w : Word) (h : MemForm s) : MemForm (answer w s) := h.of rfl rfl

theorem scrRead_memForm (who : Req) (off : Nat) (h : MemForm s) : MemForm (scrRead who off s) :=
  scrGate_memForm _ _ _ _ (fun _ h => scrFetch_memForm _ _ _ (fun _ _ => answer_memForm _) h) h

theorem scrWrite_memForm (who : Req) (off : Nat) (v : Word) (h : MemForm s) : MemForm (scrWrite who off v s) :=
  scrGate_memForm _ _ _ _ (fun _ h => scrPut_memForm _ _ h) h

theorem scrMerge_memForm (who : Req) (off : Nat) (f : Word → Word) (h : MemForm s) : MemForm (scrMerge who off f s) :=
  scrGate_memForm _ _ _ _ (fun _ h => scrFetch_memForm _ _ _ (fun _ _ h => answer_memForm _ (scrPut_memForm _ _ h)) h) h

/-! ### The flash die -/

theorem setFa_memForm (fa : Nat) (c : Cell) (h : MemForm s) : MemForm (s.setFa fa c) := ⟨h.1, Store.wf_set h.2⟩

theorem flashPut_memForm (a : Nat) (ws : List Word) (h : MemForm s) : MemForm (flashPut a ws s) :=
  forAll_memForm _ _ (fun _ _ => setFa_memForm _ _) h

theorem sectorWipe_memForm (id : Nat) (h : MemForm s) : MemForm (sectorWipe id s) := by
  have h1 : Store.wf (fun _ => flashErased) (Store.keep (fun a => a / 32768 != id) s.flash.mem) = true := Store.wf_keep _ h.2
  exact ⟨h.1, h1⟩

theorem idle_memForm (h : MemForm s) : MemForm { s with flash := { s.flash with descs := [], move := none } } := h.of rfl rfl

theorem flashCutAt_memForm (lo n : Nat) (h : MemForm s) : MemForm (flashCutAt lo n s) :=
  forAll_memForm _ _ (fun _ _ => setFa_memForm _ _) (draw_memForm h)

theorem descCut_memForm (d : Desc) (h : MemForm s) : MemForm (descCut d s) := by
  unfold descCut
  split
  · split
    · exact flashCutAt_memForm _ _ h
    · split
      · exact flashCutAt_memForm _ _ h
      · exact h
  · exact h

theorem flashStop_memForm (h : MemForm s) : MemForm (flashStop s) := by
  have h1 : MemForm (forAll s.flash.descs descCut s) := forAll_memForm _ _ (fun _ _ => descCut_memForm _) h
  unfold flashStop
  dsimp only
  generalize forAll s.flash.descs descCut s = u at *
  cases u.flash.move with
  | some m =>
    have h2 := flashCutAt_memForm (sectorFa (windowSector m.2)) 32768 h1
    exact idle_memForm h2
  | none => exact idle_memForm h1

/-! ### Resets -/

theorem keepState_memForm (k : RstKind) (h : MemForm s) : MemForm (keepState k s) := by
  have h2 := flashStop_memForm h
  refine ⟨?_, ?_⟩
  rotate_left
  · show Store.wf (fun _ => flashErased) (flashStop s).flash.mem = true
    exact h2.2
  show Store.wf (fun _ => none) (if k = .power then [] else (scrForget (beaterHeld s) s).scr.mem) = true
  split
  · rfl
  · exact (scrForget_memForm _ h).1

theorem keepRegs_mem (k : RstKind) (src s : State) : (keepRegs k src s).scr.mem = s.scr.mem ∧ (keepRegs k src s).flash.mem = s.flash.mem := by
  have e := (keepRegs_same k src s).1
  unfold SameButRegs at e
  rw [e]
  exact ⟨rfl, rfl⟩

theorem resetTo_memForm (k : RstKind) (h : MemForm s) : MemForm (resetTo k s) := by
  have h1 := (keepState_memForm k h).of (keepRegs_mem k s _).1 (keepRegs_mem k s _).2
  have e : ∀ (c : Prop) [Decidable c] (t : State) (code : Code) (d : Nat), MemForm t →
      MemForm (if c then t else raise code 0 d t) ∧ MemForm (if c then raise code 0 d t else t) := by
    intro c _ t code d ht
    by_cases hc : c
    · rw [if_pos hc, if_pos hc]; exact ⟨ht, raise_memForm _ _ _ ht⟩
    · rw [if_neg hc, if_neg hc]; exact ⟨raise_memForm _ _ _ ht, ht⟩
  unfold resetTo
  dsimp only
  exact (e _ _ _ _ (e _ _ _ _ (e _ _ _ _ h1).1).2).1

end Sys2Proof.Machine
end

