-- ==== Sys2Proof/Laws/LastErr.lean ====
section
/-! SUPPORT. What raising an event keeps of the three registers that hold a LAST_ERR field (R201, R219, R234): every field but that one. -/

namespace Sys2Proof.Machine

/-- The registers with a LAST_ERR field. -/
def errRegs : List Nat := [Reg.cfgStatus, Reg.cfgSwapStatus, Reg.calStatus]

variable {a : Nat} {s : State}

theorem forAll_reg {α : Type} (l : List α) (f : α → State → State) (h : ∀ x s, (f x s).reg a = s.reg a) (s : State) : (forAll l f s).reg a = s.reg a := by
  unfold forAll
  induction l generalizing s with
  | nil => rfl
  | cons x l ih => exact (ih _).trans (h x s)

theorem beaterYield_errReg (h : a ∈ errRegs) (off : Nat) (s : State) : (beaterYield off s).reg a = s.reg a := by
  have hb : a ≠ Reg.scrBeaterStatus := by rintro rfl; revert h; decide
  unfold beaterYield
  dsimp only
  split
  · exact reg_setB_other hb
  · rfl

theorem ringWrite_errReg (h : a ∈ errRegs) (q : Quad) (s : State) : (ringWrite q s).reg a = s.reg a := by
  have hp : ∀ off v (s : State), (scrPut off v s).reg a = s.reg a := fun off v s => beaterYield_errReg h off s
  unfold ringWrite
  dsimp only
  rw [reg_setF_other (by rintro rfl; revert h; decide), hp, hp, hp, hp]

theorem drainAll_errReg (h : a ∈ errRegs) (s : State) : (drainAll s).reg a = s.reg a := by
  refine forAll_reg _ _ (fun _ s => ?_) s
  unfold drainOne
  split
  · rfl
  · split
    · rw [ringWrite_errReg h]; rfl
    · rfl

theorem evtDeliver_errReg (h : a ∈ errRegs) (code : Code) (ix : Nat) (s : State) : (evtDeliver code ix s).reg a = s.reg a := by
  have hc := codeClass_lt code
  have hp : ∀ s : State, (irqPulse (1 + codeClass code) s).reg a = s.reg a := by
    intro s
    unfold irqPulse
    rw [show (1 + codeClass code) / 32 = 0 by omega]
    exact reg_setB_other (by rintro rfl; revert h; decide)
  have h1 : ∀ s : State, (s.setB Reg.sysEvtPend (codeClass code) true).reg a = s.reg a := fun s => reg_setB_other (by rintro rfl; revert h; decide)
  have h2 : ∀ s : State, (s.setB Reg.sysHifStatus 3 true).reg a = s.reg a := fun s => reg_setB_other (by rintro rfl; revert h; decide)
  have hq : ∀ (b : Bool) (s : State), (if b then irqPulse (1 + codeClass code) s else s).reg a = s.reg a := by
    intro b s; cases b
    · rfl
    · exact hp s
  unfold evtDeliver
  dsimp only
  rw [hq]
  split
  · split
    · exact h1 s
    · rw [h2, h1]
  · exact h1 s

theorem evtStore_errReg (h : a ∈ errRegs) (code : Code) (src : Req) (d : Nat) (s : State) : (evtStore code src d s).reg a = s.reg a := by
  unfold evtStore
  dsimp only
  split
  · rw [evtDeliver_errReg h]
    show (ringWrite _ _).reg a = _
    rw [ringWrite_errReg h]; rfl
  · split
    · rw [evtDeliver_errReg h]; rfl
    · rw [reg_count_other (by rintro rfl; revert h; decide)]; rfl

/-- A field below LAST_ERR is unchanged. -/
theorem raise_errField {hi lo : Nat} (h : a ∈ errRegs) (hh : hi < 24) (code : Code) (src : Req) (d : Nat) (s : State) :
    (raise code src d s).getF a hi lo = s.getF a hi lo := by
  unfold raise
  have e1 : (evtStore code src d (drainAll (lastErrField code s))).reg a = (lastErrField code s).reg a := by rw [evtStore_errReg h, drainAll_errReg h]
  unfold State.getF
  rw [e1]
  have hk : ∀ b, fld ((s.setF b 35 24 code.toNat).reg a) hi lo = fld (s.reg a) hi lo := by
    intro b
    by_cases hb : a = b
    · subst hb
      exact getF_setF_field (by decide) (Or.inl hh)
    · rw [reg_setF_other hb]
  unfold lastErrField
  split
  · exact hk _
  · split
    · exact hk _
    · split
      · exact hk _
      · rfl

/-- An event moves no swap on (R210). -/
@[simp] theorem raise_swState (code : Code) (src : Req) (d : Nat) (s : State) : (raise code src d s).swState = s.swState :=
  raise_errField (by decide) (by decide) _ _ _ _

end Sys2Proof.Machine
end

