-- ==== Sys2Proof/Laws/Mesh.lean ====
section
/-! SUPPORT. What sending a packet can do (R319 to R322): the mesh's own state and its drop counter change, and E60C may be raised. -/

namespace Sys2Proof.Machine

/-- What sending on the mesh leaves alone. -/
structure MeshOut (s t : State) : Prop where
  rest : t = { s with
    regs := t.regs, mesh := t.mesh,
    evt := { s.evt with seq := t.evt.seq, raised := t.evt.raised, buf := t.evt.buf, ovf := t.evt.ovf, newest := t.evt.newest, lastErr := t.evt.lastErr },
    scr := { s.scr with mem := t.scr.mem, beater := { s.scr.beater with waiting := t.scr.beater.waiting } },
    core := { s.core with resv := t.core.resv },
    hif := { s.hif with ibiQ := t.hif.ibiQ } }
  regs : ∀ a, a ∉ evtRegs → a ≠ Reg.mshCntDrop → t.reg a = s.reg a
  low : ∀ a hi lo, a ∈ errRegs → hi < 24 → t.getF a hi lo = s.getF a hi lo

theorem MeshOut.refl (s : State) : MeshOut s s := ⟨rfl, fun _ _ _ => rfl, fun _ _ _ _ _ => rfl⟩

theorem MeshOut.trans {s t u : State} (h : MeshOut s t) (k : MeshOut t u) : MeshOut s u := by
  refine ⟨?_, fun a h1 h2 => (k.regs a h1 h2).trans (h.regs a h1 h2), fun a hi lo h1 h2 => (k.low a hi lo h1 h2).trans (h.low a hi lo h1 h2)⟩
  have h1 := h.rest
  have k1 := k.rest
  rw [h1] at k1
  exact k1

theorem MeshOut.mesh (s : State) (m : Mesh) : MeshOut s { s with mesh := m } := ⟨rfl, fun _ _ _ => rfl, fun _ _ _ _ _ => rfl⟩

theorem raise_meshOut (code : Code) (src : Req) (d : Nat) (s : State) : MeshOut s (raise code src d s) := by
  have h := raise_evtOnly code src d s
  refine ⟨?_, fun a h1 _ => h.regs a h1, fun a hi lo h1 h2 => raise_errField h1 h2 _ _ _ _⟩
  have hm : (raise code src d s).mesh = s.mesh := raise_mesh _ _ _ _
  rw [hm]
  exact h.rest

theorem meshDrop_meshOut (s : State) : MeshOut s (meshDrop s) := by
  refine ⟨rfl, fun a _ h => reg_count_other h, fun a hi lo h1 _ => ?_⟩
  unfold meshDrop State.getF
  rw [reg_count_other (by rintro rfl; revert h1; decide)]

theorem portSend_meshOut (p : Nat) (k : Packet) (s : State) : MeshOut s (portSend p k s) := by
  unfold portSend
  split
  · exact .mesh s _
  · exact .refl s

theorem meshDeliver_meshOut (k : Packet) (s : State) : MeshOut s (meshDeliver k s) := .mesh s _

theorem inboxTake_meshOut (svc : Nat) (s : State) : MeshOut s (inboxTake svc s) := by
  unfold inboxTake
  split
  · exact .mesh s _
  · exact .refl s

theorem forAll_meshOut {α : Type} (l : List α) (f : α → State → State) (h : ∀ x s, MeshOut s (f x s)) (s : State) : MeshOut s (forAll l f s) := by
  unfold forAll
  induction l generalizing s with
  | nil => exact .refl s
  | cons x l ih => exact (h x s).trans (ih _)

theorem meshFlood_meshOut (src : Option Nat) (k : Packet) (s : State) : MeshOut s (meshFlood src k s) := by
  unfold meshFlood
  split
  · exact .refl s
  · dsimp only
    have h := MeshOut.mesh s { s.mesh with seen := ((floodKey k).1, (floodKey k).2.1, (floodKey k).2.2, s.evt.time) :: s.mesh.seen.filter (fun e => decide ((s.evt.time - e.2.2.2).toNat < 1000000)) }
    exact (h.trans (meshDeliver_meshOut k _)).trans (forAll_meshOut _ _ (fun p s => portSend_meshOut p k s) _)

theorem meshUnicast_meshOut (k : Packet) (s : State) : MeshOut s (meshUnicast k s) := by
  unfold meshUnicast
  split
  · exact meshDeliver_meshOut k s
  · dsimp only
    split
    · exact (meshDrop_meshOut s).trans (raise_meshOut _ _ _ _)
    · split
      · exact (meshDrop_meshOut s).trans (raise_meshOut _ _ _ _)
      · exact portSend_meshOut _ _ s

theorem meshRoute_meshOut (src : Option Nat) (k : Packet) (s : State) : MeshOut s (meshRoute src k s) := by
  unfold meshRoute
  split
  · exact meshDrop_meshOut s
  · split
    · exact meshDrop_meshOut s
    · split
      · exact meshDeliver_meshOut k s
      · split
        · exact meshFlood_meshOut src k s
        · exact meshUnicast_meshOut k s

theorem meshSend_meshOut (dest svc vc : Nat) (payload : List Word) (s : State) : MeshOut s (meshSend dest svc vc payload s) := meshRoute_meshOut _ _ s

theorem meshSendLink_meshOut (p svc : Nat) (payload : List Word) (s : State) : MeshOut s (meshSendLink p svc payload s) := portSend_meshOut _ _ s

theorem pushResult_meshOut (code : Code) (s : State) : MeshOut s (pushResult code s) := meshSend_meshOut _ _ _ _ s

section
variable {s t : State}

theorem MeshOut.mode (h : MeshOut s t) : t.mode = s.mode := by rw [h.rest]
theorem MeshOut.rgn (h : MeshOut s t) : t.rgn = s.rgn := by rw [h.rest]
theorem MeshOut.fab (h : MeshOut s t) : t.fab = s.fab := by rw [h.rest]
theorem MeshOut.ld (h : MeshOut s t) : t.ld = s.ld := by rw [h.rest]
theorem MeshOut.swap (h : MeshOut s t) : t.swap = s.swap := by rw [h.rest]
theorem MeshOut.eng (h : MeshOut s t) : t.eng = s.eng := by rw [h.rest]
theorem MeshOut.boot (h : MeshOut s t) : t.boot = s.boot := by rw [h.rest]
theorem MeshOut.flash (h : MeshOut s t) : t.flash = s.flash := by rw [h.rest]
theorem MeshOut.resp (h : MeshOut s t) : t.resp = s.resp := by rw [h.rest]
theorem MeshOut.time (h : MeshOut s t) : t.evt.time = s.evt.time := by rw [h.rest]
theorem MeshOut.swState (h : MeshOut s t) : t.swState = s.swState := h.low _ _ _ (by decide) (by decide)

end

end Sys2Proof.Machine
end

