-- ==== Sys2Proof/Laws/Shared.lean ====
section
/-! SUPPORT. What the shared operations that are not events or modes can do: governor requests, pins brought along. -/

namespace Sys2Proof.Machine

/-- A governor request changes the governor's queue alone (R99). -/
theorem govAsk_rest (k : GovKind) (ix di : Nat) (s : State) : govAsk k ix di s = { s with gov := (govAsk k ix di s).gov } := by
  unfold govAsk
  split <;> rfl

/-- An entered request stands in the queue with those that stood there. -/
theorem mem_govInsert {r x : GovReq} {l : List GovReq} : x ∈ govInsert r l ↔ x = r ∨ x ∈ l := by
  induction l with
  | nil => simp [govInsert]
  | cons y ys ih =>
    unfold govInsert
    split
    · simp
    · simp only [List.mem_cons, ih]
      tauto

/-- A request of that kind and number stands in the queue afterwards. -/
theorem govAsk_has (k : GovKind) (ix di : Nat) (s : State) : ∃ r, r ∈ (govAsk k ix di s).gov.queue ∧ r.kind = k ∧ r.ix = ix := by
  unfold govAsk
  split
  · rename_i h
    simp only [List.any_eq_true, Bool.and_eq_true, decide_eq_true_eq, beq_iff_eq] at h
    obtain ⟨r, hr, hk, hi⟩ := h
    exact ⟨r, hr, hk, hi⟩
  · exact ⟨{ kind := k, ix := ix, di := di, came := s.evt.time }, mem_govInsert.2 (.inl rfl), rfl, rfl⟩

@[simp] theorem govAsk_boot (k : GovKind) (ix di : Nat) (s : State) : (govAsk k ix di s).boot = s.boot := by rw [govAsk_rest]

@[simp] theorem govAsk_regs (k : GovKind) (ix di : Nat) (s : State) : (govAsk k ix di s).regs = s.regs := by rw [govAsk_rest]

@[simp] theorem govAsk_reg (k : GovKind) (ix di : Nat) (s : State) (a : Nat) : (govAsk k ix di s).reg a = s.reg a := by rw [govAsk_rest]; rfl

@[simp] theorem govAsk_core (k : GovKind) (ix di : Nat) (s : State) : (govAsk k ix di s).core = s.core := by rw [govAsk_rest]

/-- Bringing the pins along changes the pins alone (R409). -/
theorem pinsFrom_rest (s t : State) : pinsFrom s t = { t with pin := (pinsFrom s t).pin } := by
  unfold pinsFrom
  generalize List.foldl _ _ _ = x
  rfl

theorem pinAt_rest (i : Nat) (s t : State) : pinAt i s t = { t with pin := (pinAt i s t).pin } := by
  unfold pinAt
  generalize List.foldl _ _ _ = x
  rfl

theorem coreStart_mode (s : State) : (coreStart s).mode = s.mode := by
  unfold coreStart
  dsimp only
  split <;> rfl

end Sys2Proof.Machine
end

