-- ==== Sys2Proof/Laws/ModeFields.lean ====
section
/-! SUPPORT. The boot state and the core's clock through the shared operations: a change of mode leaves both, a fail-safe trigger stops the
core (R31, R63). -/

namespace Sys2Proof.Machine

/-! ### The boot state -/

@[simp] theorem forAll_boot {α : Type} (l : List α) (f : α → State → State) (h : ∀ x s, (f x s).boot = s.boot) (s : State) :
    (forAll l f s).boot = s.boot := by
  unfold forAll
  induction l generalizing s with
  | nil => rfl
  | cons x l ih => simp only [List.foldl_cons, ih, h]

@[simp] theorem foldl_boot {α : Type} (l : List α) (f : State → α → State) (h : ∀ x s, (f s x).boot = s.boot) (s : State) :
    (l.foldl f s).boot = s.boot := by
  induction l generalizing s with
  | nil => rfl
  | cons x l ih => simp only [List.foldl_cons, ih, h]

@[simp] theorem beaterYield_boot (off : Nat) (s : State) : (beaterYield off s).boot = s.boot := by simp [beaterYield, apply_ite State.boot]

@[simp] theorem scrSet_boot (off : Nat) (c : Cell) (s : State) : (scrSet off c s).boot = s.boot := by simp [scrSet]

@[simp] theorem scrPut_boot (off : Nat) (v : Word) (s : State) : (scrPut off v s).boot = s.boot := by simp [scrPut]

@[simp] theorem fnFaultNow_boot (f : Func) (s : State) : (fnFaultNow f s).boot = s.boot := by simp [fnFaultNow, apply_ite State.boot]

@[simp] theorem fnHold_boot (m : Mode) (f : Func) (s : State) : (fnHold m f s).boot = s.boot := by simp [fnHold, apply_ite State.boot]

@[simp] theorem wdtLoad_boot (s : State) : (wdtLoad s).boot = s.boot := by simp [wdtLoad]

@[simp] theorem fnStartHard_boot (f : Func) (s : State) : (fnStartHard f s).boot = s.boot := by
  unfold fnStartHard
  split <;> simp

@[simp] theorem fnRelease_boot (f : Func) (s : State) : (fnRelease f s).boot = s.boot := by simp [fnRelease, apply_ite State.boot]

@[simp] theorem claimRefuse_boot (a : Nat) (res : ClaimRes) (who : Req) (s : State) : (claimRefuse a res who s).boot = s.boot := by simp [claimRefuse]

@[simp] theorem claimGrant_boot (a : Nat) (res : ClaimRes) (who : Req) (id : Nat) (s : State) : (claimGrant a res who id s).boot = s.boot := by simp [claimGrant, apply_ite State.boot]

@[simp] theorem claimRelease_boot (a : Nat) (res : ClaimRes) (who : Req) (id : Nat) (s : State) : (claimRelease a res who id s).boot = s.boot := by simp [claimRelease, apply_ite State.boot]

@[simp] theorem claimWrite_boot (a : Nat) (res : ClaimRes) (who : Req) (v : Word) (s : State) : (claimWrite a res who v s).boot = s.boot := by simp [claimWrite, apply_ite State.boot]

@[simp] theorem pinsFrom_boot (old : State) (s : State) : (pinsFrom old s).boot = s.boot := by
  unfold pinsFrom; rfl

@[simp] theorem pinAt_boot (i : Nat) (old : State) (s : State) : (pinAt i old s).boot = s.boot := by simp [pinAt]

@[simp] theorem pinsAbandon_boot (s : State) : (pinsAbandon s).boot = s.boot := by simp [pinsAbandon]

@[simp] theorem portSend_boot (p : Nat) (k : Packet) (s : State) : (portSend p k s).boot = s.boot := by simp [portSend, apply_ite State.boot]

@[simp] theorem meshDeliver_boot (k : Packet) (s : State) : (meshDeliver k s).boot = s.boot := by simp [meshDeliver]

@[simp] theorem inboxTake_boot (svc : Nat) (s : State) : (inboxTake svc s).boot = s.boot := by
  unfold inboxTake
  split <;> simp

@[simp] theorem meshDrop_boot (s : State) : (meshDrop s).boot = s.boot := by simp [meshDrop]

@[simp] theorem meshFlood_boot (src : Option Nat) (k : Packet) (s : State) : (meshFlood src k s).boot = s.boot := by simp [meshFlood, apply_ite State.boot]

@[simp] theorem meshUnicast_boot (k : Packet) (s : State) : (meshUnicast k s).boot = s.boot := by simp [meshUnicast, apply_ite State.boot]

@[simp] theorem meshRoute_boot (src : Option Nat) (k : Packet) (s : State) : (meshRoute src k s).boot = s.boot := by simp [meshRoute, apply_ite State.boot]

@[simp] theorem meshSend_boot (dest svc vc : Nat) (payload : List Word) (s : State) : (meshSend dest svc vc payload s).boot = s.boot := by simp [meshSend]

@[simp] theorem meshSendLink_boot (p svc : Nat) (payload : List Word) (s : State) : (meshSendLink p svc payload s).boot = s.boot := by simp [meshSendLink]

@[simp] theorem linkEnd_boot (p cause l : Nat) (s : State) : (linkEnd p cause l s).boot = s.boot := by simp [linkEnd, apply_ite State.boot]

@[simp] theorem pushResult_boot (code : Code) (s : State) : (pushResult code s).boot = s.boot := by simp [pushResult]

@[simp] theorem streamDiscard_boot (cause : Nat) (s : State) : (streamDiscard cause s).boot = s.boot := by simp [streamDiscard, apply_ite State.boot]

@[simp] theorem scrForget_boot (banks : BitVec 16) (s : State) : (scrForget banks s).boot = s.boot := by simp [scrForget]

@[simp] theorem beaterAbort_boot (who : Req) (cause : Nat) (s : State) : (beaterAbort who cause s).boot = s.boot := by simp [beaterAbort, apply_ite State.boot]

@[simp] theorem linkIdle_boot (p l : Nat) (s : State) : (linkIdle p l s).boot = s.boot := by simp [linkIdle]

@[simp] theorem pushEnd_boot (st : Nat) (s : State) : (pushEnd st s).boot = s.boot := by simp [pushEnd, apply_ite State.boot]

@[simp] theorem svcReject_boot (reason : Nat) (s : State) : (svcReject reason s).boot = s.boot := by simp [svcReject]

@[simp] theorem testRecord_boot (result : Nat) (code : Code) (detail : Word) (s : State) : (testRecord result code detail s).boot = s.boot := by
  unfold testRecord
  repeat' split
  all_goals simp

@[simp] theorem testAbandon_boot (s : State) : (testAbandon s).boot = s.boot := by
  unfold testAbandon
  split <;> simp

@[simp] theorem calStop_boot (s : State) : (calStop s).boot = s.boot := by simp [calStop]

@[simp] theorem swapDrop_boot (s : State) : (swapDrop s).boot = s.boot := by simp [swapDrop]

@[simp] theorem flashCutAt_boot (lo n : Nat) (s : State) : (flashCutAt lo n s).boot = s.boot := by
  unfold flashCutAt
  dsimp only
  exact (forAll_boot _ _ (by intros; rfl) _).trans rfl

@[simp] theorem descCut_boot (d : Desc) (s : State) : (descCut d s).boot = s.boot := by simp [descCut, apply_ite State.boot]

@[simp] theorem flashStop_boot (s : State) : (flashStop s).boot = s.boot := by
  unfold flashStop
  simp only []
  split
  · rw [flashCutAt_boot, forAll_boot _ _ descCut_boot]
  · rw [forAll_boot _ _ descCut_boot]

@[simp] theorem lanesIdle_boot (s : State) : (lanesIdle s).boot = s.boot := by simp [lanesIdle]

@[simp] theorem wdtGrace_boot (s : State) : (wdtGrace s).boot = s.boot := by simp [wdtGrace]

@[simp] theorem releaseAll_boot (old : Mode) (s : State) : (releaseAll old s).boot = s.boot := by simp [releaseAll, apply_ite State.boot]

@[simp] theorem modeFuncs_boot (old m : Mode) (s : State) : (modeFuncs old m s).boot = s.boot := by
  cases m <;> (unfold modeFuncs; simp only [lanesIdle_boot, releaseAll_boot]) <;> rw [forAll_boot _ _ (fnHold_boot _)]

@[simp] theorem setMode_boot (m : Mode) (cause : Nat) (s : State) : (setMode m cause s).boot = s.boot := by
  unfold setMode
  by_cases h : m = s.mode
  · rw [if_pos h]
  · rw [if_neg h]
    cases m <;> simp only [pushEnd_boot, streamDiscard_boot, modeFuncs_boot, raise_boot, pinsFrom_boot]

@[simp] theorem fsLatch_boot (code : Code) (health : Nat) (s : State) : (fsLatch code health s).boot = s.boot := by simp [fsLatch, apply_ite State.boot]


/-! ### The core clock -/

/-- The core's clock runs. -/
def State.coreRuns (s : State) : Bool := s.core.running

@[simp] theorem State.coreRuns_mk (p m r a1 a2 a3 a4 a5 a6 a7 a8 a9 a10 a11 a12 a13 a14 a15 a16 a17 a18 a19 a20 a21 a22) :
    (State.mk p m r a1 a2 a3 a4 a5 a6 a7 a8 a9 a10 a11 a12 a13 a14 a15 a16 a17 a18 a19 a20 a21 a22).coreRuns = Core.running a15 := rfl

theorem State.coreRuns_fold (s : State) : s.core.running = s.coreRuns := rfl

@[simp] theorem raise_coreRuns (code : Code) (src : Req) (d : Nat) (s : State) : (raise code src d s).coreRuns = s.coreRuns := raise_core_running code src d s

@[simp] theorem forAll_coreRuns {α : Type} (l : List α) (f : α → State → State) (h : ∀ x s, (f x s).coreRuns = s.coreRuns) (s : State) :
    (forAll l f s).coreRuns = s.coreRuns := by
  unfold forAll
  induction l generalizing s with
  | nil => rfl
  | cons x l ih => simp only [List.foldl_cons, ih, h]

@[simp] theorem foldl_coreRuns {α : Type} (l : List α) (f : State → α → State) (h : ∀ x s, (f s x).coreRuns = s.coreRuns) (s : State) :
    (l.foldl f s).coreRuns = s.coreRuns := by
  induction l generalizing s with
  | nil => rfl
  | cons x l ih => simp only [List.foldl_cons, ih, h]

@[simp] theorem State.setReg_coreRuns (s : State) (a : Nat) (v : Word) : (State.setReg s a v).coreRuns = s.coreRuns := by simp [State.coreRuns_fold, State.setReg]

@[simp] theorem State.setF_coreRuns (s : State) (a hi lo v : Nat) : (State.setF s a hi lo v).coreRuns = s.coreRuns := by simp [State.coreRuns_fold, State.setF]

@[simp] theorem State.setB_coreRuns (s : State) (a i : Nat) (b : Bool) : (State.setB s a i b).coreRuns = s.coreRuns := by simp [State.coreRuns_fold, State.setB]

@[simp] theorem State.count_coreRuns (s : State) (a hi lo : Nat) : (State.count s a hi lo).coreRuns = s.coreRuns := by simp [State.coreRuns_fold, State.count]

@[simp] theorem State.draw_coreRuns (s : State) : (State.draw s).coreRuns = s.coreRuns := by simp [State.coreRuns_fold, State.draw]

@[simp] theorem State.setRg_coreRuns (s : State) (n : Nat) (r : Region) : (State.setRg s n r).coreRuns = s.coreRuns := by simp [State.coreRuns_fold, State.setRg]

@[simp] theorem State.setPn_coreRuns (s : State) (i : Nat) (p : Pin) : (State.setPn s i p).coreRuns = s.coreRuns := by simp [State.coreRuns_fold, State.setPn]

@[simp] theorem beaterYield_coreRuns (off : Nat) (s : State) : (beaterYield off s).coreRuns = s.coreRuns := by simp [State.coreRuns_fold, beaterYield, apply_ite State.coreRuns]

@[simp] theorem scrSet_coreRuns (off : Nat) (c : Cell) (s : State) : (scrSet off c s).coreRuns = s.coreRuns := by
  unfold scrSet
  simp only [State.coreRuns_mk]
  rfl

@[simp] theorem scrPut_coreRuns (off : Nat) (v : Word) (s : State) : (scrPut off v s).coreRuns = s.coreRuns := by simp [State.coreRuns_fold, scrPut]

@[simp] theorem govAsk_coreRuns (k : GovKind) (ix di : Nat) (s : State) : (govAsk k ix di s).coreRuns = s.coreRuns := by simp [State.coreRuns_fold, govAsk, apply_ite State.coreRuns]

@[simp] theorem State.setFn_coreRuns (s : State) (f : Func) (st : Nat) : (State.setFn s f st).coreRuns = s.coreRuns := by simp [State.coreRuns_fold, State.setFn]

@[simp] theorem fnFaultNow_coreRuns (f : Func) (s : State) : (fnFaultNow f s).coreRuns = s.coreRuns := by simp [State.coreRuns_fold, fnFaultNow, apply_ite State.coreRuns]

@[simp] theorem fnHold_coreRuns (m : Mode) (f : Func) (s : State) : (fnHold m f s).coreRuns = s.coreRuns := by simp [State.coreRuns_fold, fnHold, apply_ite State.coreRuns]

@[simp] theorem wdtLoad_coreRuns (s : State) : (wdtLoad s).coreRuns = s.coreRuns := by simp [State.coreRuns_fold, wdtLoad]

@[simp] theorem fnStartHard_coreRuns (f : Func) (s : State) : (fnStartHard f s).coreRuns = s.coreRuns := by
  unfold fnStartHard
  split <;> simp

@[simp] theorem fnRelease_coreRuns (f : Func) (s : State) : (fnRelease f s).coreRuns = s.coreRuns := by simp [State.coreRuns_fold, fnRelease, apply_ite State.coreRuns]

@[simp] theorem claimRefuse_coreRuns (a : Nat) (res : ClaimRes) (who : Req) (s : State) : (claimRefuse a res who s).coreRuns = s.coreRuns := by simp [State.coreRuns_fold, claimRefuse]

@[simp] theorem claimGrant_coreRuns (a : Nat) (res : ClaimRes) (who : Req) (id : Nat) (s : State) : (claimGrant a res who id s).coreRuns = s.coreRuns := by simp [State.coreRuns_fold, claimGrant, apply_ite State.coreRuns]

@[simp] theorem claimRelease_coreRuns (a : Nat) (res : ClaimRes) (who : Req) (id : Nat) (s : State) : (claimRelease a res who id s).coreRuns = s.coreRuns := by simp [State.coreRuns_fold, claimRelease, apply_ite State.coreRuns]

@[simp] theorem claimWrite_coreRuns (a : Nat) (res : ClaimRes) (who : Req) (v : Word) (s : State) : (claimWrite a res who v s).coreRuns = s.coreRuns := by simp [State.coreRuns_fold, claimWrite, apply_ite State.coreRuns]

@[simp] theorem State.setSer_coreRuns (s : State) (k : Nat) (v : Serial) : (State.setSer s k v).coreRuns = s.coreRuns := by simp [State.coreRuns_fold, State.setSer]

@[simp] theorem pinsFrom_coreRuns (old : State) (s : State) : (pinsFrom old s).coreRuns = s.coreRuns := by
  rw [pinsFrom_rest]; simp only [State.coreRuns_mk]; rfl

@[simp] theorem pinAt_coreRuns (i : Nat) (old : State) (s : State) : (pinAt i old s).coreRuns = s.coreRuns := by simp [State.coreRuns_fold, pinAt]

@[simp] theorem pinsAbandon_coreRuns (s : State) : (pinsAbandon s).coreRuns = s.coreRuns := by simp [State.coreRuns_fold, pinsAbandon]

@[simp] theorem State.setPort_coreRuns (s : State) (p : Nat) (q : Port) : (State.setPort s p q).coreRuns = s.coreRuns := by simp [State.coreRuns_fold, State.setPort]

@[simp] theorem State.setLink_coreRuns (s : State) (p : Nat) (l : Nat) : (State.setLink s p l).coreRuns = s.coreRuns := by simp [State.coreRuns_fold, State.setLink]

@[simp] theorem portSend_coreRuns (p : Nat) (k : Packet) (s : State) : (portSend p k s).coreRuns = s.coreRuns := by simp [State.coreRuns_fold, portSend, apply_ite State.coreRuns]

@[simp] theorem meshDeliver_coreRuns (k : Packet) (s : State) : (meshDeliver k s).coreRuns = s.coreRuns := by simp [State.coreRuns_fold, meshDeliver]

@[simp] theorem inboxTake_coreRuns (svc : Nat) (s : State) : (inboxTake svc s).coreRuns = s.coreRuns := by
  unfold inboxTake
  split <;> simp [State.coreRuns_fold]

@[simp] theorem meshDrop_coreRuns (s : State) : (meshDrop s).coreRuns = s.coreRuns := by simp [State.coreRuns_fold, meshDrop]

@[simp] theorem meshFlood_coreRuns (src : Option Nat) (k : Packet) (s : State) : (meshFlood src k s).coreRuns = s.coreRuns := by simp [State.coreRuns_fold, meshFlood, apply_ite State.coreRuns]

@[simp] theorem meshUnicast_coreRuns (k : Packet) (s : State) : (meshUnicast k s).coreRuns = s.coreRuns := by simp [State.coreRuns_fold, meshUnicast, apply_ite State.coreRuns]

@[simp] theorem meshRoute_coreRuns (src : Option Nat) (k : Packet) (s : State) : (meshRoute src k s).coreRuns = s.coreRuns := by simp [State.coreRuns_fold, meshRoute, apply_ite State.coreRuns]

@[simp] theorem meshSend_coreRuns (dest svc vc : Nat) (payload : List Word) (s : State) : (meshSend dest svc vc payload s).coreRuns = s.coreRuns := by simp [State.coreRuns_fold, meshSend]

@[simp] theorem meshSendLink_coreRuns (p svc : Nat) (payload : List Word) (s : State) : (meshSendLink p svc payload s).coreRuns = s.coreRuns := by simp [State.coreRuns_fold, meshSendLink]

@[simp] theorem linkEnd_coreRuns (p cause l : Nat) (s : State) : (linkEnd p cause l s).coreRuns = s.coreRuns := by simp [State.coreRuns_fold, linkEnd, apply_ite State.coreRuns]

@[simp] theorem pushResult_coreRuns (code : Code) (s : State) : (pushResult code s).coreRuns = s.coreRuns := by simp [State.coreRuns_fold, pushResult]

@[simp] theorem streamDiscard_coreRuns (cause : Nat) (s : State) : (streamDiscard cause s).coreRuns = s.coreRuns := by simp [State.coreRuns_fold, streamDiscard, apply_ite State.coreRuns]

@[simp] theorem scrForget_coreRuns (banks : BitVec 16) (s : State) : (scrForget banks s).coreRuns = s.coreRuns := by simp [State.coreRuns_fold, scrForget]

@[simp] theorem beaterAbort_coreRuns (who : Req) (cause : Nat) (s : State) : (beaterAbort who cause s).coreRuns = s.coreRuns := by simp [State.coreRuns_fold, beaterAbort, apply_ite State.coreRuns]

@[simp] theorem linkIdle_coreRuns (p l : Nat) (s : State) : (linkIdle p l s).coreRuns = s.coreRuns := by simp [State.coreRuns_fold, linkIdle]

@[simp] theorem irqPulse_coreRuns (n : Nat) (s : State) : (irqPulse n s).coreRuns = s.coreRuns := rfl

@[simp] theorem pushEnd_coreRuns (st : Nat) (s : State) : (pushEnd st s).coreRuns = s.coreRuns := by simp [State.coreRuns_fold, pushEnd, apply_ite State.coreRuns]

@[simp] theorem svcReply_coreRuns (r : Reply) (s : State) : (svcReply r s).coreRuns = s.coreRuns := by simp [State.coreRuns_fold, svcReply]

@[simp] theorem svcReject_coreRuns (reason : Nat) (s : State) : (svcReject reason s).coreRuns = s.coreRuns := by simp [State.coreRuns_fold, svcReject]

@[simp] theorem testRecord_coreRuns (result : Nat) (code : Code) (detail : Word) (s : State) : (testRecord result code detail s).coreRuns = s.coreRuns := by
  unfold testRecord
  repeat' split
  all_goals simp [State.coreRuns_fold]

@[simp] theorem testAbandon_coreRuns (s : State) : (testAbandon s).coreRuns = s.coreRuns := by
  unfold testAbandon
  split <;> simp

@[simp] theorem calStop_coreRuns (s : State) : (calStop s).coreRuns = s.coreRuns := by simp [State.coreRuns_fold, calStop]

@[simp] theorem swapDrop_coreRuns (s : State) : (swapDrop s).coreRuns = s.coreRuns := by simp [State.coreRuns_fold, swapDrop]

@[simp] theorem State.setFa_coreRuns (s : State) (fa : Nat) (c : Cell) : (State.setFa s fa c).coreRuns = s.coreRuns := by simp [State.coreRuns_fold, State.setFa]

@[simp] theorem flashCutAt_coreRuns (lo n : Nat) (s : State) : (flashCutAt lo n s).coreRuns = s.coreRuns := by
  unfold flashCutAt
  dsimp only
  exact (forAll_coreRuns _ _ (by intros; rfl) _).trans rfl

@[simp] theorem descCut_coreRuns (d : Desc) (s : State) : (descCut d s).coreRuns = s.coreRuns := by simp [State.coreRuns_fold, descCut, apply_ite State.coreRuns]

@[simp] theorem flashStop_coreRuns (s : State) : (flashStop s).coreRuns = s.coreRuns := by
  have h : ∀ (u : State) (x : Flash), ({ u with flash := x } : State).coreRuns = u.coreRuns := fun _ _ => rfl
  unfold flashStop
  dsimp only
  rw [h]
  split
  · rw [flashCutAt_coreRuns, forAll_coreRuns _ _ descCut_coreRuns]
  · rw [forAll_coreRuns _ _ descCut_coreRuns]

@[simp] theorem lanesIdle_coreRuns (s : State) : (lanesIdle s).coreRuns = s.coreRuns := by simp [State.coreRuns_fold, lanesIdle]

@[simp] theorem wdtGrace_coreRuns (s : State) : (wdtGrace s).coreRuns = s.coreRuns := by simp [State.coreRuns_fold, wdtGrace]

@[simp] theorem releaseAll_coreRuns (old : Mode) (s : State) : (releaseAll old s).coreRuns = s.coreRuns := by simp [State.coreRuns_fold, releaseAll, apply_ite State.coreRuns]

@[simp] theorem modeFuncs_coreRuns (old m : Mode) (s : State) : (modeFuncs old m s).coreRuns = s.coreRuns := by
  cases m <;> (unfold modeFuncs; simp only [lanesIdle_coreRuns, releaseAll_coreRuns]) <;> rw [forAll_coreRuns _ _ (fnHold_coreRuns _)]

@[simp] theorem setMode_coreRuns (m : Mode) (cause : Nat) (s : State) : (setMode m cause s).coreRuns = s.coreRuns := by
  unfold setMode
  by_cases h : m = s.mode
  · rw [if_pos h]
  · rw [if_neg h]
    dsimp only
    have h1 : ∀ o x v, (modeFuncs o m (raise 0x001 0 x (pinsFrom s { s with mode := m, svc := v }))).coreRuns = s.coreRuns := by
      intro o x v
      rw [modeFuncs_coreRuns, raise_coreRuns, pinsFrom_coreRuns, State.coreRuns_mk]; rfl
    cases m <;> dsimp only <;> (try rw [pushEnd_coreRuns, streamDiscard_coreRuns]) <;> exact h1 _ _ _

@[simp] theorem fsLatch_coreRuns (code : Code) (health : Nat) (s : State) : (fsLatch code health s).coreRuns = s.coreRuns := by simp [State.coreRuns_fold, fsLatch, apply_ite State.coreRuns]


theorem fsHalt_coreRuns (h : Nat) (s : State) : (fsHalt h s).coreRuns = false := by
  unfold fsHalt
  simp only [swapDrop_coreRuns, calStop_coreRuns, pinsAbandon_coreRuns, flashStop_coreRuns]
  rfl

/-- A trigger outside FAILSAFE, while nRST is high, stops the core (R63, R82). -/
theorem failsafeWith_coreRuns {code : Code} {health d : Nat} {first : State → State} {s : State} (h : ∀ u, (first u).coreRuns = u.coreRuns)
    (hm : ¬ (s.mode = .failsafe ∨ s.boot.nrstLow)) : (failsafeWith code health d first s).coreRuns = false := by
  unfold failsafeWith
  dsimp only
  rw [if_neg hm]
  simp only [pushEnd_coreRuns, testAbandon_coreRuns, beaterAbort_coreRuns, streamDiscard_coreRuns, lanesIdle_coreRuns,
    forAll_coreRuns _ _ (fnHold_coreRuns _), raise_coreRuns, fsLatch_coreRuns, h, pinsFrom_coreRuns, fsHalt_coreRuns]

end Sys2Proof.Machine
end

