-- ==== Sys2Proof/Laws/Region.lean ====
section
/-! SUPPORT. What the shared operations over a region can do: its engine ports, its error log (R143), its quarantine (R145, R146), its lane. -/

namespace Sys2Proof.Machine

/-- Only the engine's own state changes. -/
def EngOnly (s t : State) : Prop := t = { s with eng := t.eng }

theorem EngOnly.trans {s t u : State} (h : EngOnly s t) (k : EngOnly t u) : EngOnly s u := by
  unfold EngOnly at h k
  have k1 := k
  rw [h] at k1
  exact k1

theorem forAll_engOnly {α : Type} (l : List α) (f : α → State → State) (h : ∀ x s, EngOnly s (f x s)) (s : State) : EngOnly s (forAll l f s) := by
  unfold forAll
  induction l generalizing s with
  | nil => exact rfl
  | cons x l ih => exact (h x s).trans (ih _)

theorem setHeld_engOnly (r n : Nat) (s : State) : EngOnly s (setHeld r n s) := rfl

theorem setBack_engOnly (r n : Nat) (s : State) : EngOnly s (setBack r n s) := rfl

theorem discardOne (n k : Nat) (s : State) :
    EngOnly s (if hostOf s 0 k = some n then setBack k (rqBack s k + (s.rspQ k).length) (s.setRspQ k []) else s) := by
  generalize rqBack s k + (s.rspQ k).length = m
  split
  · exact rfl
  · exact rfl

theorem portDiscard_rest (n : Nat) (s : State) : portDiscard n s = { s with eng := (portDiscard n s).eng } := by
  unfold portDiscard
  exact forAll_engOnly _ _ (fun k s => discardOne n k s) s

theorem rebalance_engOnly (s : State) : EngOnly s (rebalance s) := by
  unfold rebalance
  dsimp only
  exact (forAll_engOnly _ _ (fun r s => setHeld_engOnly r _ s) s).trans (forAll_engOnly _ _ (fun r s => setHeld_engOnly r _ s) _)

theorem meshTake_engOnly (node : BitVec 10) (sreq : BitVec 4) (stag : BitVec 6) (q : Quad) (s : State) : EngOnly s (meshTake node sreq stag q s) := rfl

theorem setWait_engOnly (x) (s : State) : EngOnly s { s with eng := { s.eng with waitQ := x } } := rfl

theorem waitTake_engOnly (s : State) : EngOnly s (waitTake s) := by
  unfold waitTake
  split
  · split
    · rfl
    · exact (setWait_engOnly _ _).trans (meshTake_engOnly _ _ _ _ _)
  · rfl

theorem slotFreed_engOnly (s : State) : EngOnly s (slotFreed s) :=
  (rebalance_engOnly s).trans (forAll_engOnly _ _ (fun _ => waitTake_engOnly) _)

theorem backOne (n k : Nat) (s : State) : EngOnly s (if hostOf s 0 k = some n then setBack k 0 s else s) := by
  split
  · exact rfl
  · exact rfl

theorem portRelease_engOnly (n : Nat) (s : State) : EngOnly s (portRelease n s) := by
  unfold portRelease
  exact (forAll_engOnly _ _ (fun k s => backOne n k s) s).trans (slotFreed_engOnly _)

theorem EngOnly.reg {s t : State} (h : EngOnly s t) (a : Nat) : t.reg a = s.reg a := by
  unfold EngOnly at h; generalize t.eng = e at h; subst h; rfl

theorem EngOnly.mode {s t : State} (h : EngOnly s t) : t.mode = s.mode := by
  unfold EngOnly at h; generalize t.eng = e at h; subst h; rfl

theorem portRelease_reg (n : Nat) (s : State) (a : Nat) : (portRelease n s).reg a = s.reg a := (portRelease_engOnly n s).reg a

theorem portRelease_mode (n : Nat) (s : State) : (portRelease n s).mode = s.mode := (portRelease_engOnly n s).mode

theorem portDiscard_ex (n : Nat) (s : State) : ∃ e, portDiscard n s = { s with eng := e } := ⟨_, portDiscard_rest n s⟩

theorem pinsFrom_ex (s t : State) : ∃ p, pinsFrom s t = { t with pin := p } := ⟨_, pinsFrom_rest s t⟩

theorem logAck_perr (n : Nat) (s : State) (k : Nat) : Store.get (fun _ => false) (logAck n s).fab.perr k =
    if n * 33408 ≤ k ∧ k < (n + 1) * 33408 then false else Store.get (fun _ => false) s.fab.perr k := by
  unfold logAck
  dsimp only
  rw [Store.get_keep]
  by_cases h : n * 33408 ≤ k ∧ k < (n + 1) * 33408
  · rw [if_pos h, if_neg]; simp [h.1, h.2]
  · rw [if_neg h, if_pos]; simp; omega

theorem logAck_regs (n : Nat) (s : State) : (logAck n s).regs = s.regs ∧ (logAck n s).fab.cfg = s.fab.cfg := ⟨rfl, rfl⟩

theorem swapCheck_idle (s : State) (h : s.swState = 0) : swapCheck s = s := by
  unfold swapCheck; rw [if_neg]; rw [h]; simp [swSoftstart, swRepreload]

theorem quar_out (n cause : Nat) (hn : n < 64) (s : State) (hc : cause < 8) (h0 : s.getB (Reg.rgnStatus n) 0 = false) (ha : s.getB (Reg.rgnAttr n) 0 = false)
    (hb : s.getB (Reg.rgnAttr n) 1 = false) :
    ∃ u, quarantine n cause s = logWrite n (7 <<< 32 ||| cause <<< 8) 0x407 u ∧ u.getF (Reg.rgnStatus n) 3 0 = (cause <<< 1 ||| 1) % 16 ∧
      (u.rg n) = { s.rg n with gated := true } ∧ u.evt = s.evt ∧ u.mode = s.mode ∧ (∀ i, 4 ≤ i → u.getB (Reg.rgnStatus n) i = s.getB (Reg.rgnStatus n) i) ∧ u.swState = s.swState := by
  unfold quarantine
  rw [if_neg (by rw [h0]; decide)]
  have hq : ∀ a i, a ≠ Reg.rgnStatus n → (quarSet n cause s).getB a i = s.getB a i := by
    intro a i h
    unfold quarSet
    rw [pinsFrom_rest]
    rw [getB_eq, getB_eq]
    show Nat.testBit (State.reg (s.setF (Reg.rgnStatus n) 3 0 _) a).toNat i = _
    rw [reg_setF_other h]
  have hne : Reg.rgnAttr n ≠ Reg.rgnStatus n := by simp only [Reg.rgnAttr, Reg.rgnStatus]; omega
  dsimp only
  rw [hq _ _ hne, hq _ _ hne, ha, hb]
  refine ⟨quarSet n cause s, by rfl, ?_, ?_, ?_, ?_, ?_, ?_⟩
  · unfold quarSet
    rw [pinsFrom_rest]
    show State.getF (s.setF (Reg.rgnStatus n) 3 0 _) _ _ _ = _
    rw [getF_setF_same (by decide)]; rfl
  · unfold quarSet
    rw [pinsFrom_rest]
    exact Store.get_set_same
  · unfold quarSet; rw [pinsFrom_rest]; rfl
  · unfold quarSet; rw [pinsFrom_rest]; rfl
  · intro i hi
    unfold quarSet
    rw [pinsFrom_rest]
    show State.getB (s.setF (Reg.rgnStatus n) 3 0 _) _ _ = _
    rw [getB_setF (by decide), if_neg (by omega)]
  · have hne : Reg.cfgSwapStatus ≠ Reg.rgnStatus n := by simp only [Reg.rgnStatus, Reg.cfgSwapStatus]; omega
    unfold quarSet
    rw [pinsFrom_rest]
    show State.getF (s.setF (Reg.rgnStatus n) 3 0 _) _ _ _ = _
    rw [getF_setF_other hne]; rfl

theorem rgnStatus_evt (n : Nat) : Reg.rgnStatus n ∉ evtRegs ∧ Reg.rgnAttr n ∉ evtRegs := by
  have h : ∀ x ∈ evtRegs, x < 0x80000 := by decide
  constructor <;> intro hm <;> have := h _ hm <;> simp only [Reg.rgnStatus, Reg.rgnAttr] at this <;> omega

theorem logWrite_out (n e : Nat) (hn : n < 64) (code : Code) (u : State) :
    Logged code (BitVec.ofNat 8 (0x40 + n)) (e ||| n <<< 1) u (logWrite n e code u) ∧ (logWrite n e code u).reg (Reg.rgnStatus n) = u.reg (Reg.rgnStatus n) ∧
    ((u.rg n).log.length < 32 → ((logWrite n e code u).rg n) = { u.rg n with log := (u.rg n).log ++ [wd e] }) ∧ ((logWrite n e code u).rg n).gated = (u.rg n).gated ∧
    (logWrite n e code u).mode = u.mode ∧ (logWrite n e code u).swState = u.swState := by
  have hne : Reg.rgnStatus n ≠ Reg.rgnLogLost n := by simp only [Reg.rgnLogLost, Reg.rgnStatus]; omega
  have hne2 : Reg.cfgSwapStatus ≠ Reg.rgnLogLost n := by simp only [Reg.rgnLogLost, Reg.cfgSwapStatus]; omega
  have hsw : ∀ d (x : State), (raise code (BitVec.ofNat 8 (0x40 + n)) d x).swState = x.swState := by
    intro d x
    exact raise_swState _ _ _ _
  unfold logWrite
  dsimp only
  split
  · rename_i hl
    refine ⟨raise_logged rfl, ?_, fun _ => ?_, ?_, ?_, ?_⟩
    · rw [raise_reg _ _ _ _ _ (rgnStatus_evt n).1]; rfl
    · unfold State.rg; rw [raise_rgn]; exact Store.get_set_same
    · unfold State.rg; rw [raise_rgn]; unfold State.setRg; dsimp only; rw [Store.get_set_same]
    · simp
    · rw [hsw]; rfl
  · rename_i hl
    refine ⟨raise_logged rfl, ?_, fun h => absurd h hl, ?_, ?_, ?_⟩
    · rw [raise_reg _ _ _ _ _ (rgnStatus_evt n).1, reg_count_other hne]
    · unfold State.rg; rw [raise_rgn]; rfl
    · simp
    · rw [hsw]; unfold State.swState; exact getF_setF_other hne2

theorem preload_reg (n : Nat) (s : State) (a : Nat) : (regionPreload n s).reg a = s.reg a := rfl

def stOne (k : Nat) (s : State) : State := { s with mesh := { s.mesh with st := Store.upd (fun _ => {}) s.mesh.st k (fun t => { t with started := [] }) } }

theorem stFirst_eq (n : Nat) (s : State) : stFirst n s = forAll ((List.range 8).filter (fun k => hostOf s 2 k == some n)) stOne s := rfl

theorem stFirst_reg (n : Nat) (s : State) (a : Nat) : (stFirst n s).reg a = s.reg a := by
  rw [stFirst_eq]; exact forAll_reg _ stOne (fun _ _ => rfl) s

theorem stFirst_mode (n : Nat) (s : State) : (stFirst n s).mode = s.mode := by
  rw [stFirst_eq]; exact forAll_mode _ stOne (fun _ _ => rfl) s

/-- Disagreeing copies are counted and may be reported; nothing else of the registers changes (R223). -/
theorem tmrCount_reg {n lane : Nat} {g : Bool} {s : State} {a : Nat} (h : a ∉ evtRegs) (hc : a ≠ Reg.calCntTmr) : (tmrCount n lane g s).reg a = s.reg a := by
  have hs : a ≠ Reg.calStatus := by rintro rfl; exact h (by decide)
  have h1 : ((forAll (List.range n) (fun _ s => s.count Reg.calCntTmr 35 0) s).setB Reg.calStatus 5 true).reg a = s.reg a :=
    (reg_setB_other hs).trans (forAll_reg _ _ (fun _ s => reg_count_other hc) s)
  unfold tmrCount
  generalize (forAll (List.range n) (fun _ s => s.count Reg.calCntTmr 35 0) s).setB Reg.calStatus 5 true = u at h1
  dsimp only
  split
  · rfl
  · split
    · exact h1
    · rw [raise_reg _ _ _ _ _ h]
      split <;> exact h1

theorem tmrCount_mode {n lane : Nat} {g : Bool} {s : State} : (tmrCount n lane g s).mode = s.mode := by
  have h1 : ((forAll (List.range n) (fun _ s => s.count Reg.calCntTmr 35 0) s).setB Reg.calStatus 5 true).mode = s.mode :=
    forAll_mode (List.range n) (fun _ s => s.count Reg.calCntTmr 35 0) (fun _ _ => rfl) s
  unfold tmrCount
  generalize (forAll (List.range n) (fun _ s => s.count Reg.calCntTmr 35 0) s).setB Reg.calStatus 5 true = u at h1
  dsimp only
  split
  · rfl
  · split
    · exact h1
    · rw [raise_mode]
      split <;> exact h1

theorem laneRestart_reg {n : Nat} {s : State} {a : Nat} (h : a ∉ evtRegs) (hc : a ≠ Reg.calCntTmr) : (laneRestart n s).reg a = s.reg a :=
  tmrCount_reg h hc
theorem laneRestart_mode (n : Nat) (s : State) : (laneRestart n s).mode = s.mode := tmrCount_mode
theorem pinsFrom_reg (t s : State) (a : Nat) : (pinsFrom t s).reg a = s.reg a := by obtain ⟨p, hp⟩ := pinsFrom_ex t s; rw [hp]; rfl

end Sys2Proof.Machine
end

