-- ==== Sys2Proof/Laws/Scratch.lean ====
section
/-! SUPPORT. What an access to a good word of the scratchpad does (R356, R358). -/

namespace Sys2Proof.Machine

variable {s : State} {who : Req} {off : Nat} {w : Word}

theorem beaterYield_idle (h : s.scr.beater.running = false) : beaterYield off s = s := by
  unfold beaterYield; dsimp only; rw [h, Bool.false_and, Bool.false_and, if_neg Bool.false_ne_true]

theorem scrPut_idle {v : Word} (h : s.scr.beater.running = false) : scrPut off v s = scrSet off { data := v } s := by
  unfold scrPut; rw [beaterYield_idle h]

theorem scrFetch_good {k : Word → State → State} (hb : s.scr.beater.running = false) (hc : (scrCell s off).chk = .good w) :
    scrFetch off who k s = k w s := by
  unfold scrFetch; rw [beaterYield_idle hb]; dsimp only; rw [hc]

theorem scrGate_served {write : Bool} {op : State → State} (h : bankServes s who off write = 0) : scrGate who off write op s = op s := by
  unfold scrGate; rw [h]; rfl

theorem scrRead_good (h : WordAt s who off false w) : scrRead who off s = answer w s := by
  unfold scrRead; rw [scrGate_served h.1, scrFetch_good h.2.1 h.2.2]

theorem scrWrite_served {v : Word} (h : bankServes s who off true = 0) (hb : s.scr.beater.running = false) :
    scrWrite who off v s = scrSet off { data := v } s := by
  unfold scrWrite; rw [scrGate_served h, scrPut_idle hb]

theorem scrMerge_good {f : Word → Word} (h : WordAt s who off true w) : scrMerge who off f s = answer w (scrSet off { data := f w } s) := by
  unfold scrMerge; rw [scrGate_served h.1, scrFetch_good h.2.1 h.2.2, scrPut_idle h.2.1]

theorem WordAt.begin {write : Bool} (h : WordAt s who off write w) : WordAt (Machine.begin who s) who off write w := h

/-- A hard unit's read of a good word changes nothing. -/
theorem unitRead_good (h : WordAt s 0 off false w) : unitRead off s = (w, s) := by
  unfold unitRead
  rw [scrRead_good h.begin]
  dsimp only
  rw [if_neg (by rintro ⟨k, _⟩; cases k)]
  rfl

theorem unitWrite_served {v : Word} (h : bankServes s 0 off true = 0) (hb : s.scr.beater.running = false) :
    unitWrite off v s = scrSet off { data := v } s := by
  unfold unitWrite
  rw [scrWrite_served (s := Machine.begin 0 s) h hb]
  rfl

/-- After a store the word is listed, and no other offset changes. -/
theorem scrStored_scrSet {c : Cell} {j : Nat} : scrStored (scrSet off c s) j = if j = off then some c else scrStored s j := by
  show Store.get (fun _ => none) (Store.set (fun _ => none) s.scr.mem off (some c)) j = _
  by_cases h : j = off
  · subst h; rw [if_pos rfl]; exact Store.get_set_same
  · rw [if_neg h]; exact Store.get_set_other h

end Sys2Proof.Machine
end

