-- ==== Sys2Proof/Laws/SecShared.lean ====
section
/-! SUPPORT. What the shared operations leave of the security store: `_sec` lemmas say that it is unchanged, `_secOk` lemmas that it stays sound. -/

namespace Sys2Proof.Machine

/-! ### Ops -/

@[simp] theorem forAll_sec {α : Type} (l : List α) (f : α → State → State) (h : ∀ x s, (f x s).sec = s.sec) (s : State) :
    (forAll l f s).sec = s.sec := by
  unfold forAll
  induction l generalizing s with
  | nil => rfl
  | cons x l ih => simp only [List.foldl_cons, ih, h]

@[simp] theorem foldl_snd_sec {α β : Type} (l : List α) (f : β × State → α → β × State) (h : ∀ a x, (f a x).2.sec = a.2.sec) (a : β × State) :
    (l.foldl f a).2.sec = a.2.sec := by
  induction l generalizing a with
  | nil => rfl
  | cons x l ih => simp only [List.foldl_cons, ih, h]

@[simp] theorem foldl_sec {α : Type} (l : List α) (f : State → α → State) (h : ∀ x s, (f s x).sec = s.sec) (s : State) :
    (l.foldl f s).sec = s.sec := by
  induction l generalizing s with
  | nil => rfl
  | cons x l ih => simp only [List.foldl_cons, ih, h]

@[simp] theorem State.setReg_sec (s : State) (a : Nat) (v : Word) : (State.setReg s a v).sec = s.sec := by simp [State.setReg]

@[simp] theorem State.setF_sec (s : State) (a hi lo v : Nat) : (State.setF s a hi lo v).sec = s.sec := by simp [State.setF]

@[simp] theorem State.setB_sec (s : State) (a i : Nat) (b : Bool) : (State.setB s a i b).sec = s.sec := by simp [State.setB]

@[simp] theorem State.count_sec (s : State) (a hi lo : Nat) : (State.count s a hi lo).sec = s.sec := by simp [State.count]

@[simp] theorem State.draw_sec (s : State) : (State.draw s).sec = s.sec := by simp [State.draw]

@[simp] theorem State.setRg_sec (s : State) (n : Nat) (r : Region) : (State.setRg s n r).sec = s.sec := by simp [State.setRg]

@[simp] theorem State.setPn_sec (s : State) (i : Nat) (p : Pin) : (State.setPn s i p).sec = s.sec := by simp [State.setPn]

@[simp] theorem beaterYield_sec (off : Nat) (s : State) : (beaterYield off s).sec = s.sec := by simp [beaterYield, apply_ite State.sec]

@[simp] theorem scrSet_sec (off : Nat) (c : Cell) (s : State) : (scrSet off c s).sec = s.sec := by simp [scrSet]

@[simp] theorem scrPut_sec (off : Nat) (v : Word) (s : State) : (scrPut off v s).sec = s.sec := by simp [scrPut]

@[simp] theorem irqPulse_sec (src : Nat) (s : State) : (irqPulse src s).sec = s.sec := by simp [irqPulse]

@[simp] theorem ringWrite_sec (q : Quad) (s : State) : (ringWrite q s).sec = s.sec := by simp [ringWrite]

@[simp] theorem drainOne_sec (s : State) : (drainOne s).sec = s.sec := by
  unfold drainOne
  repeat' split
  all_goals simp

@[simp] theorem drainAll_sec (s : State) : (drainAll s).sec = s.sec := by simp [drainAll]

@[simp] theorem evtDeliver_sec (code : Code) (ix : Nat) (s : State) : (evtDeliver code ix s).sec = s.sec := by simp [evtDeliver, apply_ite State.sec]

@[simp] theorem evtStored_sec (q : Quad) (code : Code) (s : State) : (evtStored q code s).sec = s.sec := by simp [evtStored]

@[simp] theorem evtStore_sec (code : Code) (src : Req) (detail : Nat) (s : State) : (evtStore code src detail s).sec = s.sec := by simp [evtStore, apply_ite State.sec]

@[simp] theorem lastErrField_sec (code : Code) (s : State) : (lastErrField code s).sec = s.sec := by simp [lastErrField, apply_ite State.sec]

@[simp] theorem raise_sec (code : Code) (src : Req) (detail : Nat) (s : State) : (raise code src detail s).sec = s.sec := by simp [raise]

@[simp] theorem govAsk_sec (k : GovKind) (ix di : Nat) (s : State) : (govAsk k ix di s).sec = s.sec := by simp [govAsk, apply_ite State.sec]

@[simp] theorem State.setFn_sec (s : State) (f : Func) (st : Nat) : (State.setFn s f st).sec = s.sec := by simp [State.setFn]

@[simp] theorem fnFaultNow_sec (f : Func) (s : State) : (fnFaultNow f s).sec = s.sec := by simp [fnFaultNow, apply_ite State.sec]

@[simp] theorem fnHold_sec (m : Mode) (f : Func) (s : State) : (fnHold m f s).sec = s.sec := by simp [fnHold, apply_ite State.sec]

@[simp] theorem wdtLoad_sec (s : State) : (wdtLoad s).sec = s.sec := by simp [wdtLoad]

@[simp] theorem fnStartHard_sec (f : Func) (s : State) : (fnStartHard f s).sec = s.sec := by
  unfold fnStartHard
  split <;> simp

@[simp] theorem fnRelease_sec (f : Func) (s : State) : (fnRelease f s).sec = s.sec := by simp [fnRelease, apply_ite State.sec]

@[simp] theorem claimRefuse_sec (a : Nat) (res : ClaimRes) (who : Req) (s : State) : (claimRefuse a res who s).sec = s.sec := by simp [claimRefuse]

@[simp] theorem claimGrant_sec (a : Nat) (res : ClaimRes) (who : Req) (id : Nat) (s : State) : (claimGrant a res who id s).sec = s.sec := by simp [claimGrant, apply_ite State.sec]

@[simp] theorem claimRelease_sec (a : Nat) (res : ClaimRes) (who : Req) (id : Nat) (s : State) : (claimRelease a res who id s).sec = s.sec := by simp [claimRelease, apply_ite State.sec]

@[simp] theorem claimWrite_sec (a : Nat) (res : ClaimRes) (who : Req) (v : Word) (s : State) : (claimWrite a res who v s).sec = s.sec := by simp [claimWrite, apply_ite State.sec]

/-! ### Flags -/

@[simp] theorem State.setSer_sec (s : State) (k : Nat) (v : Serial) : (State.setSer s k v).sec = s.sec := by simp [State.setSer]

/-! ### PinDrive -/

@[simp] theorem pinsFrom_sec (old : State) (s : State) : (pinsFrom old s).sec = s.sec := by
  unfold pinsFrom; (first | with_reducible rfl | (simp [apply_ite State.sec, *]; done) | ((try simp only [apply_ite State.sec, ite_self]); repeat' (first | with_reducible rfl | assumption | split | (simp [apply_ite State.sec, *]; done)  | (apply foldl_sec; intros; try dsimp only) | (apply foldl_snd_sec; intros; try dsimp only) | (rename_i h; replace h := congrArg (fun r => State.sec (Prod.snd r)) h; simp at h; simp [← h]; done) | simp [apply_ite State.sec])))

@[simp] theorem pinAt_sec (i : Nat) (old : State) (s : State) : (pinAt i old s).sec = s.sec := by simp [pinAt]

@[simp] theorem pinsAbandon_sec (s : State) : (pinsAbandon s).sec = s.sec := by simp [pinsAbandon]

/-! ### MeshNet -/

@[simp] theorem State.setPort_sec (s : State) (p : Nat) (q : Port) : (State.setPort s p q).sec = s.sec := by simp [State.setPort]

@[simp] theorem State.setLink_sec (s : State) (p : Nat) (l : Nat) : (State.setLink s p l).sec = s.sec := by simp [State.setLink]

@[simp] theorem portSend_sec (p : Nat) (k : Packet) (s : State) : (portSend p k s).sec = s.sec := by simp [portSend, apply_ite State.sec]

@[simp] theorem meshDeliver_sec (k : Packet) (s : State) : (meshDeliver k s).sec = s.sec := by simp [meshDeliver]

@[simp] theorem inboxTake_sec (svc : Nat) (s : State) : (inboxTake svc s).sec = s.sec := by
  unfold inboxTake
  split <;> simp

@[simp] theorem meshDrop_sec (s : State) : (meshDrop s).sec = s.sec := by simp [meshDrop]

@[simp] theorem meshFlood_sec (src : Option Nat) (k : Packet) (s : State) : (meshFlood src k s).sec = s.sec := by simp [meshFlood, apply_ite State.sec]

@[simp] theorem meshUnicast_sec (k : Packet) (s : State) : (meshUnicast k s).sec = s.sec := by simp [meshUnicast, apply_ite State.sec]

@[simp] theorem meshRoute_sec (src : Option Nat) (k : Packet) (s : State) : (meshRoute src k s).sec = s.sec := by simp [meshRoute, apply_ite State.sec]

@[simp] theorem meshSend_sec (dest svc vc : Nat) (payload : List Word) (s : State) : (meshSend dest svc vc payload s).sec = s.sec := by simp [meshSend]

@[simp] theorem meshSendLink_sec (p svc : Nat) (payload : List Word) (s : State) : (meshSendLink p svc payload s).sec = s.sec := by simp [meshSendLink]

@[simp] theorem linkEnd_sec (p cause l : Nat) (s : State) : (linkEnd p cause l s).sec = s.sec := by simp [linkEnd, apply_ite State.sec]

@[simp] theorem pushResult_sec (code : Code) (s : State) : (pushResult code s).sec = s.sec := by simp [pushResult]

/-! ### Modes -/

@[simp] theorem streamDiscard_sec (cause : Nat) (s : State) : (streamDiscard cause s).sec = s.sec := by simp [streamDiscard, apply_ite State.sec]

@[simp] theorem scrForget_sec (banks : BitVec 16) (s : State) : (scrForget banks s).sec = s.sec := by simp [scrForget]

@[simp] theorem beaterAbort_sec (who : Req) (cause : Nat) (s : State) : (beaterAbort who cause s).sec = s.sec := by simp [beaterAbort, apply_ite State.sec]

@[simp] theorem linkIdle_sec (p l : Nat) (s : State) : (linkIdle p l s).sec = s.sec := by simp [linkIdle]

@[simp] theorem pushEnd_sec (st : Nat) (s : State) : (pushEnd st s).sec = s.sec := by simp [pushEnd, apply_ite State.sec]

@[simp] theorem svcReply_sec (r : Reply) (s : State) : (svcReply r s).sec = s.sec := by simp [svcReply]

@[simp] theorem svcReject_sec (reason : Nat) (s : State) : (svcReject reason s).sec = s.sec := by simp [svcReject]

@[simp] theorem testRecord_sec (result : Nat) (code : Code) (detail : Word) (s : State) : (testRecord result code detail s).sec = s.sec := by
  unfold testRecord
  repeat' split
  all_goals simp

@[simp] theorem testAbandon_sec (s : State) : (testAbandon s).sec = s.sec := by
  unfold testAbandon
  split <;> simp

@[simp] theorem calStop_sec (s : State) : (calStop s).sec = s.sec := by simp [calStop]

@[simp] theorem swapDrop_sec (s : State) : (swapDrop s).sec = s.sec := by simp [swapDrop]

@[simp] theorem State.setFa_sec (s : State) (fa : Nat) (c : Cell) : (State.setFa s fa c).sec = s.sec := by simp [State.setFa]

@[simp] theorem xipDrop_sec (lo n : Nat) (s : State) : (xipDrop lo n s).sec = s.sec := by simp [xipDrop]

@[simp] theorem flashCutAt_sec (lo n : Nat) (s : State) : (flashCutAt lo n s).sec = s.sec := by simp [flashCutAt]

@[simp] theorem descCut_sec (d : Desc) (s : State) : (descCut d s).sec = s.sec := by simp [descCut, apply_ite State.sec]

@[simp] theorem flashStop_sec (s : State) : (flashStop s).sec = s.sec := by
  unfold flashStop
  simp only []
  split
  · rw [flashCutAt_sec, forAll_sec _ _ descCut_sec]
  · rw [forAll_sec _ _ descCut_sec]

@[simp] theorem lanesIdle_sec (s : State) : (lanesIdle s).sec = s.sec := by simp [lanesIdle]

@[simp] theorem wdtGrace_sec (s : State) : (wdtGrace s).sec = s.sec := by simp [wdtGrace]

@[simp] theorem releaseAll_sec (old : Mode) (s : State) : (releaseAll old s).sec = s.sec := by simp [releaseAll, apply_ite State.sec]

@[simp] theorem modeFuncs_sec (old m : Mode) (s : State) : (modeFuncs old m s).sec = s.sec := by
  cases m <;> (unfold modeFuncs; simp only [lanesIdle_sec, releaseAll_sec]) <;> rw [forAll_sec _ _ (fnHold_sec _)]

@[simp] theorem setMode_sec (m : Mode) (cause : Nat) (s : State) : (setMode m cause s).sec = s.sec := by
  unfold setMode
  by_cases h : m = s.mode
  · rw [if_pos h]
  · rw [if_neg h]
    cases m <;> simp only [pushEnd_sec, streamDiscard_sec, modeFuncs_sec, raise_sec, pinsFrom_sec]

@[simp] theorem modeRefuse_sec (req reason : Nat) (svc : Bool) (s : State) : (modeRefuse req reason svc s).sec = s.sec := by simp [modeRefuse]

@[simp] theorem fsHalt_sec (health : Nat) (s : State) : (fsHalt health s).sec = s.sec := by simp [fsHalt]

@[simp] theorem fsLatch_sec (code : Code) (health : Nat) (s : State) : (fsLatch code health s).sec = s.sec := by simp [fsLatch, apply_ite State.sec]

@[simp] theorem failsafeWith_sec (code : Code) (health detail : Nat) (first : State → State) (s : State) (h0 : ∀ s, (first s).sec = s.sec) : (failsafeWith code health detail first s).sec = s.sec := by simp [failsafeWith, apply_ite State.sec, *]

@[simp] theorem failsafe_sec (code : Code) (health detail : Nat) (s : State) : (failsafe code health detail s).sec = s.sec := by simp [failsafe]

@[simp] theorem keepBits_sec (src : State) (a mask : Nat) (s : State) : (keepBits src a mask s).sec = s.sec := by simp [keepBits]

@[simp] theorem keepRegs_sec (k : RstKind) (src s : State) : (keepRegs k src s).sec = s.sec := by
  unfold keepRegs
  repeat' split
  all_goals simp

@[simp] theorem Sec.ok_reset (x : Sec) (h : x.ok) : ({ x with krWords := [], rollTarget := none } : Sec).ok :=
  ⟨h.1, h.2.1, fun _ ht => nomatch ht⟩

theorem keepState_sec (k : RstKind) (s : State) : (keepState k s).sec = { s.sec with krWords := [], rollTarget := none } := by
  unfold keepState; rfl

@[simp] theorem resetTo_sec (k : RstKind) (s : State) : (resetTo k s).sec = { s.sec with krWords := [], rollTarget := none } := by
  unfold resetTo
  simp only [apply_ite State.sec, raise_sec, keepRegs_sec, keepState_sec, ite_self]

@[simp] theorem sampleStrap_sec (level : Bool) (s : State) : (sampleStrap level s).sec = s.sec := by simp [sampleStrap]

@[simp] theorem nsafeRearm_sec (s : State) : (nsafeRearm s).sec = s.sec := by simp [nsafeRearm, apply_ite State.sec]

@[simp] theorem softReset_sec (who : Req) (cause : Nat) (b : Bool) (s : State) :
    (softReset who cause b s).sec = { s.sec with krWords := [], rollTarget := none } := by
  unfold softReset
  simp only [nsafeRearm_sec, sampleStrap_sec, State.setReg_sec]
  exact resetTo_sec .soft s

@[simp] theorem logWrite_sec (n : Nat) (entry : Nat) (code : Code) (s : State) : (logWrite n entry code s).sec = s.sec := by simp [logWrite, apply_ite State.sec]

@[simp] theorem quarSet_sec (n cause : Nat) (s : State) : (quarSet n cause s).sec = s.sec := by simp [quarSet]

@[simp] theorem quarantine_sec (n cause : Nat) (s : State) : (quarantine n cause s).sec = s.sec := by simp [quarantine, apply_ite State.sec]

/-! ### Crypto -/



/-! ### Operands -/

@[simp] theorem busErr_sec (s : State) : (busErr s).sec = s.sec := by simp [busErr]

@[simp] theorem answer_sec (w : Word) (s : State) : (answer w s).sec = s.sec := by simp [answer]

@[simp] theorem begin_sec (who : Req) (s : State) : (begin who s).sec = s.sec := by simp [begin]

@[simp] theorem padPreload_sec (i : Nat) (s : State) : (padPreload i s).sec = s.sec := by simp [padPreload]

@[simp] theorem padsPreload_sec (n : Nat) (s : State) : (padsPreload n s).sec = s.sec := by simp [padsPreload]

@[simp] theorem unavail_sec (who : Req) (s : State) : (unavail who s).sec = s.sec := by simp [unavail, apply_ite State.sec]

theorem gateW_secOk (who : Req) (a : Nat) (op : State → State) (s : State) (h0 : ∀ s, s.sec.ok → (op s).sec.ok) (hs : s.sec.ok) : (gateW who a op s).sec.ok := by simp [gateW, apply_ite State.sec, apply_ite Sec.ok, *]

@[simp] theorem gateW_sec (who : Req) (a : Nat) (op : State → State) (s : State) (h0 : ∀ s, (op s).sec = s.sec) : (gateW who a op s).sec = s.sec := by simp [gateW, apply_ite State.sec, *]

@[simp] theorem gateR_sec (who : Req) (a : Nat) (op : State → State) (s : State) (h0 : ∀ s, (op s).sec = s.sec) : (gateR who a op s).sec = s.sec := by simp [gateR, apply_ite State.sec, *]

@[simp] theorem State.setCfg_sec (s : State) (k : Nat) (c : Cell) : (State.setCfg s k c).sec = s.sec := by simp [State.setCfg]

/-! ### EngineMem -/

@[simp] theorem engDrain_sec (s : State) : (engDrain s).sec = s.sec := by simp [engDrain, apply_ite State.sec]

@[simp] theorem engEvent_sec (code : Code) (src : Req) (detail : Nat) (s : State) : (engEvent code src detail s).sec = s.sec := by simp [engEvent, apply_ite State.sec]

@[simp] theorem State.setEng_sec (s : State) (m : EngMem) (ix : Nat) (c : Cell) : (State.setEng s m ix c).sec = s.sec := by
  unfold State.setEng
  split <;> simp

@[simp] theorem engRead_sec (m : EngMem) (ix : Nat) (s : State) : (engRead m ix s).2.sec = s.sec := by
  unfold engRead
  split <;> simp

@[simp] theorem engReads_sec (m : EngMem) (ix n : Nat) (s : State) : (engReads m ix n s).2.sec = s.sec := by
  induction n generalizing ix s with
  | zero => rfl
  | succ n ih => unfold engReads; dsimp only; rw [ih, engRead_sec]

@[simp] theorem engPuts_sec (m : EngMem) (ix : Nat) (ws : List Word) (s : State) : (engPuts m ix ws s).sec = s.sec := by simp [engPuts]

@[simp] theorem setPoison_sec (c : Nat) (b : Bool) (s : State) : (setPoison c b s).sec = s.sec := by simp [setPoison]

@[simp] theorem ctxPoison_sec (c word : Nat) (patrol : Bool) (s : State) : (ctxPoison c word patrol s).sec = s.sec := by simp [ctxPoison, apply_ite State.sec]

@[simp] theorem ctxWords_sec (c : Nat) (s : State) : (ctxWords c s).2.sec = s.sec := by
  unfold ctxWords
  dsimp only
  split
  · exact (ctxPoison_sec _ _ _ _).trans (engReads_sec _ _ _ _)
  · exact engReads_sec _ _ _ _

@[simp] theorem entPut_sec (loc : Nat) (e : Quad) (s : State) : (entPut loc e s).sec = s.sec := by simp [entPut]

@[simp] theorem entDrop_sec (loc : Nat) (s : State) : (entDrop loc s).sec = s.sec := by simp [entDrop]

@[simp] theorem entCheck_sec (loc : Nat) (s : State) : (entCheck loc s).sec = s.sec := by
  unfold entCheck
  dsimp only
  split
  · rw [entDrop_sec, engReads_sec]
  · exact engReads_sec _ _ _ _

@[simp] theorem bucketCheck_sec (b : Nat) (s : State) : (bucketCheck b s).sec = s.sec := by simp [bucketCheck]

@[simp] theorem stashCheck_sec (s : State) : (stashCheck s).sec = s.sec := by simp [stashCheck]

@[simp] theorem keyFind_sec (cls : Nat) (key : BitVec 108) (s : State) : (keyFind cls key s).2.sec = s.sec := by simp [keyFind]

theorem findPath_sec (cur i n : Nat) (s : State) : (findPath cur i n s).2.sec = s.sec := by
  induction n generalizing cur i s with
  | zero => rfl
  | succ n ih =>
    unfold findPath
    dsimp only
    split
    · exact bucketCheck_sec _ _
    · split <;> rename_i h
      · have := congrArg (fun r => r.2.sec) h
        simp only [ih, bucketCheck_sec] at this
        exact this.symm
      · have := congrArg (fun r => r.2.sec) h
        simp only [ih, bucketCheck_sec] at this
        exact this.symm

theorem pathApply_back_sec (f : Nat) (l : List Nat) (s : State) : (pathApply.back f l s).sec = s.sec := by
  induction l generalizing f s with
  | nil => rfl
  | cons u us ih => unfold pathApply.back; rw [ih, entPut_sec]

theorem pathApply_sec (e : Quad) (l : List Nat) (f : Nat) (s : State) : (pathApply e l f s).sec = s.sec := by
  cases l with
  | nil => exact entPut_sec _ _ _
  | cons v vs => unfold pathApply; rw [entPut_sec, pathApply_back_sec]

theorem bucketPlace_sec (e : Quad) (s : State) :
    (bucketPlace e s).2.sec = s.sec ∧ ∀ t, (bucketPlace e s).1 = some t → t.sec = s.sec := by
  unfold bucketPlace
  dsimp only
  split
  · exact ⟨by simp, by rintro t ⟨⟩; simp⟩
  · split
    · exact ⟨by simp, by rintro t ⟨⟩; simp⟩
    · split <;> rename_i h
      · have := congrArg (fun r => r.2.sec) h
        simp only [findPath_sec, bucketCheck_sec] at this
        exact ⟨this.symm, by rintro t ⟨⟩; rw [pathApply_sec]; exact this.symm⟩
      · have := congrArg (fun r => r.2.sec) h
        simp only [findPath_sec, bucketCheck_sec] at this
        exact ⟨this.symm, by rintro t ⟨⟩⟩

@[simp] theorem keyPlace_sec (e : Quad) (s : State) : (keyPlace e s).2.sec = s.sec := by
  unfold keyPlace
  have hb := bucketPlace_sec e s
  split <;> rename_i h
  · rw [h] at hb; exact hb.2 _ rfl
  · rw [h] at hb
    dsimp only
    split
    · rw [entPut_sec, stashCheck_sec]; exact hb.1
    · rw [stashCheck_sec]; exact hb.1

@[simp] theorem entFree_sec (loc : Nat) (s : State) : (entFree loc s).sec = s.sec := by simp [entFree]

@[simp] theorem wcCheck_sec (i : Nat) (s : State) : (wcCheck i s).sec = s.sec := by
  unfold wcCheck
  dsimp only
  split
  · rw [engEvent_sec, State.count_sec, engPuts_sec, engReads_sec]
  · exact engReads_sec _ _ _ _

@[simp] theorem engClear_sec (s : State) : (engClear s).sec = s.sec := by simp [engClear]

@[simp] theorem engSettings_sec (s : State) : (engSettings s).sec = s.sec := by simp [engSettings, apply_ite State.sec]

@[simp] theorem keyLoad1_sec (e : Quad) (s : State) : (keyLoad1 e s).sec = s.sec := by
  unfold keyLoad1
  dsimp only
  split
  · simp
  · split <;> rename_i h
    · have := congrArg (fun r => r.2.sec) h
      simp only [keyPlace_sec, keyFind_sec] at this
      exact this.symm
    · have := congrArg (fun r => r.2.sec) h
      simp only [keyPlace_sec, keyFind_sec] at this
      rw [engEvent_sec]; exact this.symm

@[simp] theorem prePut_sec (kind ix : Nat) (e : List Word) (s : State) : (prePut kind ix e s).sec = s.sec := by
  unfold prePut
  split <;> simp

@[simp] theorem preApply_sec (kind : Nat) (r : PreRec) (s : State) : (preApply kind r s).sec = s.sec := by simp [preApply]

@[simp] theorem waitOff_sec (s : State) : (waitOff s).sec = s.sec := by simp [waitOff]

/-! ### Pins -/

@[simp] theorem pinRefuse_sec (i : Nat) (who : Req) (cause : Nat) (s : State) : (pinRefuse i who cause s).sec = s.sec := by simp [pinRefuse]

@[simp] theorem pinOwned_sec (i : Nat) (who : Req) (op : State → State) (s : State) (h0 : ∀ s, (op s).sec = s.sec) : (pinOwned i who op s).sec = s.sec := by simp [pinOwned, apply_ite State.sec, *]

@[simp] theorem swStart_sec (i f : Nat) (s : State) : (swStart i f s).sec = s.sec := by simp [swStart]

@[simp] theorem funcSet_sec (i f : Nat) (s : State) : (funcSet i f s).sec = s.sec := by simp [funcSet, apply_ite State.sec]

@[simp] theorem funcWrite_sec (i f : Nat) (who : Req) (s : State) : (funcWrite i f who s).sec = s.sec := by simp [funcWrite, apply_ite State.sec]

@[simp] theorem sleepKeep_sec (i : Nat) (s : State) : (sleepKeep i s).sec = s.sec := by simp [sleepKeep, apply_ite State.sec]

@[simp] theorem opPinCfg_sec (i : Nat) (who : Req) (v : Word) (s : State) : (opPinCfg i who v s).sec = s.sec := by simp [opPinCfg, apply_ite State.sec]

@[simp] theorem opPinGpio_sec (i : Nat) (who : Req) (v : Word) (s : State) : (opPinGpio i who v s).sec = s.sec := by simp [opPinGpio, apply_ite State.sec]

@[simp] theorem opPinDly_sec (i : Nat) (who : Req) (v : Word) (s : State) : (opPinDly i who v s).sec = s.sec := by simp [opPinDly, apply_ite State.sec]

@[simp] theorem opPinEdge_sec (ix : Nat) (who : Req) (v : Word) (s : State) : (opPinEdge ix who v s).sec = s.sec := by simp [opPinEdge, apply_ite State.sec]

@[simp] theorem opPinClaim_sec (i : Nat) (who : Req) (v : Word) (s : State) : (opPinClaim i who v s).sec = s.sec := by simp [opPinClaim, apply_ite State.sec]

@[simp] theorem opParkEnd_sec (i : Nat) (s : State) : (opParkEnd i s).sec = s.sec := by simp [opParkEnd, apply_ite State.sec]

@[simp] theorem opUnmask_sec (i : Nat) (s : State) : (opUnmask i s).sec = s.sec := by
  unfold opUnmask
  dsimp only
  repeat' split
  all_goals simp

@[simp] theorem opGpioEdge_sec (i : Nat) (rising : Bool) (s : State) : (opGpioEdge i rising s).sec = s.sec := by simp [opGpioEdge, apply_ite State.sec]

@[simp] theorem opSerLock_sec (pair : Nat) (locked : Bool) (s : State) : (opSerLock pair locked s).sec = s.sec := by simp [opSerLock, apply_ite State.sec]

@[simp] theorem opDelayDone_sec (i : Nat) (s : State) : (opDelayDone i s).sec = s.sec := by simp [opDelayDone]

@[simp] theorem delayStep_sec (i : Nat) (s : State) : (delayStep i s).sec = s.sec := by simp [delayStep]

@[simp] theorem periphClaim1_sec (id i : Nat) (s : State) : (periphClaim1 id i s).sec = s.sec := by simp [periphClaim1, apply_ite State.sec]

@[simp] theorem periphDrop1_sec (i : Nat) (s : State) : (periphDrop1 i s).sec = s.sec := by simp [periphDrop1, apply_ite State.sec]

@[simp] theorem periphClaim_sec (f : Func) (s : State) : (periphClaim f s).sec = s.sec := by simp [periphClaim, apply_ite State.sec]

@[simp] theorem periphRelease_sec (f : Func) (s : State) : (periphRelease f s).sec = s.sec := by simp [periphRelease]

/-! ### I3c -/

@[simp] theorem hifAck_sec (ok : Bool) (out : List Byte) (s : State) : (hifAck ok out s).sec = s.sec := by simp [hifAck]

@[simp] theorem daSet_sec (addr : BitVec 7) (s : State) : (daSet addr s).sec = s.sec := by simp [daSet]

@[simp] theorem cccB_sec (op : State → State) (s : State) (h0 : ∀ s, (op s).sec = s.sec) : (cccB op s).sec = s.sec := by simp [cccB, apply_ite State.sec, *]

@[simp] theorem cccD_sec (out : State → List Byte) (s : State) : (cccD out s).sec = s.sec := by simp [cccD, apply_ite State.sec]

end Sys2Proof.Machine
end

