-- ==== Sys2Proof/Laws/SecUnits.lean ====
section
/-! SUPPORT. What power, scratchpad, Beater, functions, core and fabric leave of the security store: `_sec` lemmas say that it is unchanged, `_secOk` lemmas that it stays sound. -/

namespace Sys2Proof.Machine

/-! ### Power -/

@[simp] theorem toBackup_sec (s : State) : (toBackup s).sec = s.sec := by simp [toBackup]

@[simp] theorem rootLoss_sec (code : Code) (s : State) : (rootLoss code s).sec = s.sec := by simp [rootLoss, apply_ite State.sec]

@[simp] theorem tempSensor_sec (i : Nat) (r : BitVec 12) (s : State) : (tempSensor i r s).sec = s.sec := by simp [tempSensor, apply_ite State.sec]

@[simp] theorem govWait_sec (r : GovReq) (us : Nat) (s : State) : (govWait r us s).sec = s.sec := by simp [govWait, apply_ite State.sec]

@[simp] theorem grantAct_sec (r : GovReq) (s : State) : (grantAct r s).sec = s.sec := by
  unfold grantAct
  split
  · rfl
  · rfl
  · rfl
  · exact forAll_sec _ _ (fun n s => by dsimp only; split <;> rfl) s
  · rfl
  · rfl

@[simp] theorem opGrant_sec (us : Nat) (s : State) : (opGrant us s).sec = s.sec := by
  unfold opGrant
  repeat' split
  all_goals simp

@[simp] theorem govDrop_sec (k : GovKind) (s : State) : (govDrop k s).sec = s.sec := by simp [govDrop]

@[simp] theorem opGovCfg_sec (v : Word) (s : State) : (opGovCfg v s).sec = s.sec := by simp [opGovCfg]

@[simp] theorem opMonCfg_sec (v : Word) (s : State) : (opMonCfg v s).sec = s.sec := by simp [opMonCfg]

@[simp] theorem wakeRamp_sec (s : State) : (wakeRamp s).sec = s.sec := by simp [wakeRamp]

@[simp] theorem wakeStart_sec (src : WakeSrc) (s : State) : (wakeStart src s).sec = s.sec := by simp [wakeStart, apply_ite State.sec]

@[simp] theorem wakeEvent_sec (src : WakeSrc) (s : State) : (wakeEvent src s).sec = s.sec := by simp [wakeEvent, apply_ite State.sec]

@[simp] theorem enterService_sec (s : State) : (enterService s).sec = s.sec := by simp [enterService, apply_ite State.sec]

@[simp] theorem retainEnd_sec (s : State) : (retainEnd s).sec = s.sec := by simp [retainEnd, apply_ite State.sec]

@[simp] theorem opRetainEntry_sec (s : State) : (opRetainEntry s).sec = s.sec := by
  unfold opRetainEntry
  dsimp only
  repeat' split
  all_goals simp

@[simp] theorem opCtxClear_sec (s : State) : (opCtxClear s).sec = s.sec := by simp [opCtxClear, apply_ite State.sec]

@[simp] theorem seqCancelled_sec (a : Nat) (m : Req) (cause : Nat) (s : State) : (seqCancelled a m cause s).sec = s.sec := by simp [seqCancelled]

@[simp] theorem seqEnd_sec (a : Nat) (live : Option Req) (who : Req) (first : Bool) (s : State) : (seqEnd a live who first s).sec = s.sec := by
  unfold seqEnd
  repeat' split
  all_goals simp

@[simp] theorem seqOther_sec (a : Nat) (live : Option Req) (who : Req) (s : State) : (seqOther a live who s).sec = s.sec := by
  unfold seqOther
  repeat' split
  all_goals simp

@[simp] theorem retainAccept_sec (s : State) : (retainAccept s).sec = s.sec := by simp [retainAccept]

@[simp] theorem opModeReq_secOk (who : Req) (v : Word) (s : State) (hs : s.sec.ok) : (opModeReq who v s).sec.ok := by
  unfold opModeReq
  dsimp only
  repeat' split
  all_goals simp [*]

@[simp] theorem opGcl_sec (n : Nat) (v : Word) (s : State) : (opGcl n v s).sec = s.sec := by simp [opGcl, apply_ite State.sec]

@[simp] theorem powerFail_secOk (s : State) (hs : s.sec.ok) : (powerFail s).sec.ok := by simp [powerFail, *]

@[simp] theorem timeZeroAt_sec (s : State) : (timeZeroAt s).sec = s.sec := by simp [timeZeroAt, apply_ite State.sec]

/-! ### Scratch -/

@[simp] theorem scrCorrected_sec (off : Nat) (who : Req) (bit : Nat) (w : Word) (s : State) : (scrCorrected off who bit w s).sec = s.sec := by simp [scrCorrected]

@[simp] theorem scrBad_sec (off : Nat) (who : Req) (s : State) : (scrBad off who s).sec = s.sec := by simp [scrBad]

@[simp] theorem scrFetch_sec (off : Nat) (who : Req) (k : Word → State → State) (s : State) (h0 : ∀ x s, (k x s).sec = s.sec) : (scrFetch off who k s).sec = s.sec := by
  unfold scrFetch
  dsimp only
  split <;> simp [*]

@[simp] theorem scrFault_sec (who : Req) (off : Nat) (write : Bool) (cause : Nat) (s : State) : (scrFault who off write cause s).sec = s.sec := by simp [scrFault]

@[simp] theorem beaterDropBank_sec (who : Req) (b : Nat) (s : State) : (beaterDropBank who b s).sec = s.sec := by simp [beaterDropBank, apply_ite State.sec]

@[simp] theorem scrGate_sec (who : Req) (off : Nat) (write : Bool) (op : State → State) (s : State) (h0 : ∀ s, (op s).sec = s.sec) : (scrGate who off write op s).sec = s.sec := by
  unfold scrGate
  dsimp only
  repeat' split
  all_goals simp [*]

@[simp] theorem scrRead_sec (who : Req) (off : Nat) (s : State) : (scrRead who off s).sec = s.sec := by simp [scrRead]

@[simp] theorem scrWrite_sec (who : Req) (off : Nat) (v : Word) (s : State) : (scrWrite who off v s).sec = s.sec := by simp [scrWrite]

@[simp] theorem scrMerge_sec (who : Req) (off : Nat) (f : Word → Word) (s : State) : (scrMerge who off f s).sec = s.sec := by simp [scrMerge]

@[simp] theorem unitRead_sec (off : Nat) (s : State) : (unitRead off s).2.sec = s.sec := by
  unfold unitRead
  dsimp only
  split <;> simp

@[simp] theorem unitWrite_sec (off : Nat) (v : Word) (s : State) : (unitWrite off v s).sec = s.sec := by simp [unitWrite]

@[simp] theorem opScratch_sec (who : Req) (off : Nat) (write : Option Word) (s : State) : (opScratch who off write s).sec = s.sec := by
  unfold opScratch
  dsimp only
  repeat' split
  all_goals simp

@[simp] theorem beatWord_sec (who : Req) (off : Nat) (s : State) : (beatWord who off s).sec = s.sec := by simp [beatWord]

@[simp] theorem opBeat_sec (who : Req) (off : Nat) (write : Option Word) (more : List Word) (s : State) : (opBeat who off write more s).sec = s.sec := by
  unfold opBeat
  dsimp only
  repeat' split
  all_goals simp

@[simp] theorem beatWaited_sec (who : Req) (waits : Nat) (s : State) : (beatWaited who waits s).sec = s.sec := by
  unfold beatWaited
  split <;> simp

@[simp] theorem bankClaim_sec (b : Nat) (op : State → State) (s : State) (h0 : ∀ s, (op s).sec = s.sec) : (bankClaim b op s).sec = s.sec := by simp [bankClaim, apply_ite State.sec, *]

@[simp] theorem opBankClaim_sec (b : Nat) (who : Req) (v : Word) (s : State) : (opBankClaim b who v s).sec = s.sec := by simp [opBankClaim]

@[simp] theorem opHandover_sec (b : Nat) (who : Req) (v : Word) (s : State) : (opHandover b who v s).sec = s.sec := by simp [opHandover, apply_ite State.sec]

@[simp] theorem opBankCfg_sec (b : Nat) (who : Req) (v : Word) (s : State) : (opBankCfg b who v s).sec = s.sec := by simp [opBankCfg, apply_ite State.sec]

@[simp] theorem opIrqTake_sec (peek : Bool) (s : State) : (opIrqTake peek s).sec = s.sec := by simp [opIrqTake, apply_ite State.sec]

@[simp] theorem opIrqDone_sec (v : Word) (s : State) : (opIrqDone v s).sec = s.sec := by simp [opIrqDone]

theorem periphOwned_secOk (claim : Nat) (who : Req) (op : State → State) (s : State) (h0 : ∀ s, s.sec.ok → (op s).sec.ok) (hs : s.sec.ok) : (periphOwned claim who op s).sec.ok := by simp [periphOwned, apply_ite State.sec, apply_ite Sec.ok, *]

@[simp] theorem periphOwned_sec (claim : Nat) (who : Req) (op : State → State) (s : State) (h0 : ∀ s, (op s).sec = s.sec) : (periphOwned claim who op s).sec = s.sec := by simp [periphOwned, apply_ite State.sec, *]

@[simp] theorem opSerTx_sec (k : Nat) (who : Req) (v : Word) (s : State) : (opSerTx k who v s).sec = s.sec := by simp [opSerTx, apply_ite State.sec]

@[simp] theorem opSerRx_sec (k : Nat) (who : Req) (peek : Bool) (s : State) : (opSerRx k who peek s).sec = s.sec := by
  unfold opSerRx; (first | with_reducible rfl | (simp [apply_ite State.sec, *]; done) | ((try simp only [apply_ite State.sec, ite_self]); repeat' (first | with_reducible rfl | assumption | split | (simp [apply_ite State.sec, *]; done)  | (apply periphOwned_sec; intros; try dsimp only) | (rename_i h; replace h := congrArg (fun r => State.sec (Prod.snd r)) h; simp at h; simp [← h]; done) | simp [apply_ite State.sec])))

@[simp] theorem serStore_sec (k : Nat) (e : Nat) (s : State) : (serStore k e s).sec = s.sec := by simp [serStore, apply_ite State.sec]

@[simp] theorem opTransferEnd_sec (k : Nat) (rx : BitVec 32) (nacked : Bool) (s : State) : (opTransferEnd k rx nacked s).sec = s.sec := by
  unfold opTransferEnd
  dsimp only
  repeat' split
  all_goals simp

@[simp] theorem State.setTmr_sec (s : State) (k : Nat) (t : Timer) : (State.setTmr s k t).sec = s.sec := by simp [State.setTmr]

@[simp] theorem tmrPin_sec (k : Nat) (b : Bool) (s : State) : (tmrPin k b s).sec = s.sec := by simp [tmrPin, apply_ite State.sec]

@[simp] theorem opTimerMatch_sec (k : Nat) (s : State) : (opTimerMatch k s).sec = s.sec := by
  unfold opTimerMatch
  dsimp only
  repeat' split
  all_goals simp

@[simp] theorem opTimerCapture_sec (k : Nat) (s : State) : (opTimerCapture k s).sec = s.sec := by simp [opTimerCapture, apply_ite State.sec]

@[simp] theorem opUartByte_sec (k : Nat) (data : Byte) (parityErr frameErr : Bool) (s : State) : (opUartByte k data parityErr frameErr s).sec = s.sec := by simp [opUartByte, apply_ite State.sec]

/-! ### Beater -/

@[simp] theorem beaterRun_sec (banks : BitVec 16) (ss destruct repair fromSvc : Bool) (s : State) : (beaterRun banks ss destruct repair fromSvc s).sec = s.sec := by simp [beaterRun]

@[simp] theorem beaterStart_sec (s : State) : (beaterStart s).sec = s.sec := by simp [beaterStart, apply_ite State.sec]

@[simp] theorem spareTake_sec (b row : Nat) (s : State) : (spareTake b row s).sec = s.sec := by simp [spareTake]

@[simp] theorem beaterFail_sec (f : BFail) (repaired : Bool) (s : State) : (beaterFail f repaired s).sec = s.sec := by simp [beaterFail, apply_ite State.sec]

@[simp] theorem failEvent_sec (f : BFail) (repaired : Bool) (s : State) : (failEvent f repaired s).sec = s.sec := by simp [failEvent]

@[simp] theorem beaterFails_sec (repair : Bool) (l : List BFail) (r : Option (Nat × Nat) × State) :
    (beaterFails repair l r).2.sec = r.2.sec := by
  induction l generalizing r with
  | nil => rfl
  | cons f rest ih =>
    unfold beaterFails
    dsimp only
    split
    · split
      · split <;> rw [ih] <;> simp
      · rw [ih]; simp
    · rw [ih]; simp

@[simp] theorem beaterEnd_sec (fails : List BFail) (s : State) : (beaterEnd fails s).2.sec = s.sec := by simp [beaterEnd, apply_ite State.sec]

@[simp] theorem beaterCtrl_sec (who : Req) (enable : Bool) (s : State) : (beaterCtrl who enable s).sec = s.sec := by simp [beaterCtrl, apply_ite State.sec]

@[simp] theorem opBeaterCtrl_sec (who : Req) (v : Word) (s : State) : (opBeaterCtrl who v s).sec = s.sec := by simp [opBeaterCtrl]

/-! ### Functions -/

@[simp] theorem fnStart_sec (f : Func) (s : State) : (fnStart f s).sec = s.sec := by
  unfold fnStart
  dsimp only
  repeat' split
  all_goals simp

@[simp] theorem fnStop_sec (f : Func) (s : State) : (fnStop f s).sec = s.sec := by
  unfold fnStop
  dsimp only
  repeat' split
  all_goals simp

@[simp] theorem fnDirect_sec (f : Func) (s : State) : (fnDirect f s).sec = s.sec := by simp [fnDirect, apply_ite State.sec]

@[simp] theorem tmrBegin_sec (k : Nat) (s : State) : (tmrBegin k s).sec = s.sec := by
  unfold tmrBegin
  split <;> simp

@[simp] theorem fnBegin_sec (f : Func) (s : State) : (fnBegin f s).sec = s.sec := by
  unfold fnBegin
  split <;> simp

@[simp] theorem opStartDone_sec (f : Func) (s : State) : (opStartDone f s).sec = s.sec := by simp [opStartDone, apply_ite State.sec]

@[simp] theorem fnEnd_sec (f : Func) (s : State) : (fnEnd f s).sec = s.sec := by
  unfold fnEnd
  split <;> simp

@[simp] theorem opStopDone_sec (f : Func) (s : State) : (opStopDone f s).sec = s.sec := by simp [opStopDone, apply_ite State.sec]

@[simp] theorem profileLoad_sec (f : Func) (p : Nat) (s : State) : (profileLoad f p s).sec = s.sec := by
  unfold profileLoad
  repeat' split
  all_goals simp

@[simp] theorem ctrlStore_sec (f : Func) (v : Word) (s : State) : (ctrlStore f v s).sec = s.sec := by
  unfold ctrlStore
  repeat' split
  all_goals simp

@[simp] theorem ctrlWrite_sec (f : Func) (v : Word) (s : State) : (ctrlWrite f v s).sec = s.sec := by simp [ctrlWrite]

@[simp] theorem opCtrl_sec (f : Func) (who : Req) (v : Word) (s : State) : (opCtrl f who v s).sec = s.sec := by
  unfold opCtrl
  split <;> simp

@[simp] theorem opExpert_sec (a : Nat) (v : Word) (s : State) : (opExpert a v s).sec = s.sec := by
  unfold opExpert
  repeat' split
  all_goals simp

@[simp] theorem opEvtCtrl_sec (v : Word) (s : State) : (opEvtCtrl v s).sec = s.sec := by simp [opEvtCtrl, apply_ite State.sec]

@[simp] theorem opEvtRd_sec (v : Word) (s : State) : (opEvtRd v s).sec = s.sec := by simp [opEvtRd]

@[simp] theorem opEvtPop_sec (peek : Bool) (s : State) : (opEvtPop peek s).sec = s.sec := by simp [opEvtPop, apply_ite State.sec]

@[simp] theorem opTimeLo_sec (who : Req) (s : State) : (opTimeLo who s).sec = s.sec := by simp [opTimeLo]

/-! ### Vatman -/

@[simp] theorem traceRec_sec (kind : Nat) (target : BitVec 32) (s : State) : (traceRec kind target s).sec = s.sec := by simp [traceRec, apply_ite State.sec]

@[simp] theorem State.setCsr_sec (s : State) (n : Nat) (v : BitVec 32) : (State.setCsr s n v).sec = s.sec := by simp [State.setCsr]

@[simp] theorem stageSave_sec (s : State) : (stageSave s).sec = s.sec := by simp [stageSave]

@[simp] theorem stageRestore_sec (s : State) : (stageRestore s).sec = s.sec := by simp [stageRestore]

@[simp] theorem trapTake_sec (interrupt : Bool) (cause : Nat) (pc tval : BitVec 32) (s : State) : (trapTake interrupt cause pc tval s).sec = s.sec := by simp [trapTake, apply_ite State.sec]

@[simp] theorem coreHalt_sec (s : State) : (coreHalt s).sec = s.sec := by simp [coreHalt]

@[simp] theorem coreHaltFor_sec (cause : Nat) (s : State) : (coreHaltFor cause s).sec = s.sec := by simp [coreHaltFor]

@[simp] theorem doubleFaultTake_sec (mcause : Nat) (pc : BitVec 32) (s : State) : (doubleFaultTake mcause pc s).sec = s.sec := by simp [doubleFaultTake, apply_ite State.sec]

@[simp] theorem opTrap_sec (interrupt : Bool) (cause : Nat) (pc tval : BitVec 32) (s : State) : (opTrap interrupt cause pc tval s).sec = s.sec := by simp [opTrap, apply_ite State.sec]

@[simp] theorem coreExc_sec (cause : Nat) (addr : BitVec 32) (s : State) : (coreExc cause addr s).sec = s.sec := by simp [coreExc]

@[simp] theorem coreAnswer_sec (cause : Nat) (addr : BitVec 32) (f : Word → BitVec 32) (s : State) : (coreAnswer cause addr f s).sec = s.sec := by simp [coreAnswer, apply_ite State.sec]

@[simp] theorem opScrLoad_sec (addr : BitVec 32) (w : Width) (fetch : Bool) (s : State) : (opScrLoad addr w fetch s).sec = s.sec := by
  unfold opScrLoad
  dsimp only
  repeat' split
  all_goals simp

@[simp] theorem coreMerge_sec (addr : BitVec 32) (f : Word → Word) (s : State) : (coreMerge addr f s).sec = s.sec := by simp [coreMerge, apply_ite State.sec]

@[simp] theorem opScrStore_sec (addr : BitVec 32) (w : Width) (data : BitVec 32) (s : State) : (opScrStore addr w data s).sec = s.sec := by
  unfold opScrStore
  repeat' split
  all_goals simp

@[simp] theorem opLr_sec (addr : BitVec 32) (s : State) : (opLr addr s).sec = s.sec := by
  unfold opLr
  dsimp only
  repeat' split
  all_goals simp

@[simp] theorem opSc_sec (addr : BitVec 32) (data : BitVec 32) (s : State) : (opSc addr data s).sec = s.sec := by
  unfold opSc
  repeat' split
  all_goals simp

@[simp] theorem opAmo_sec (op : AmoOp) (addr : BitVec 32) (data : BitVec 32) (s : State) : (opAmo op addr data s).sec = s.sec := by
  unfold opAmo
  repeat' split
  all_goals simp

/-! ### Fabric -/

@[simp] theorem cellPutL_sec (c : CellPos) (j : Nat) (b : Bool) (s : State) : (cellPutL c j b s).sec = s.sec := by simp [cellPutL, apply_ite State.sec]

@[simp] theorem ffPut_sec (c : CellPos) (a b : Bool) (s : State) : (ffPut c a b s).sec = s.sec := by simp [ffPut]

@[simp] theorem ffSet_sec (old : State) (c : CellPos) (s : State) : (ffSet old c s).sec = s.sec := by simp [ffSet]

@[simp] theorem cellFF_sec (old : State) (c : CellPos) (i : CellIn) (s : State) : (cellFF old c i s).sec = s.sec := by simp [cellFF, apply_ite State.sec]

@[simp] theorem cellParity_sec (c : CellPos) (s : State) : (cellParity c s).sec = s.sec := by simp [cellParity, apply_ite State.sec]

@[simp] theorem cellMem_sec (old : State) (c : CellPos) (i : CellIn) (s : State) : (cellMem old c i s).sec = s.sec := by simp [cellMem, apply_ite State.sec]

@[simp] theorem cellEdge_sec (old : State) (c : CellPos) (i : CellIn) (s : State) : (cellEdge old c i s).sec = s.sec := by simp [cellEdge, apply_ite State.sec]

@[simp] theorem stationEdge_sec (old : State) (n col row g : Nat) (rising : Bool) (s : State) : (stationEdge old n col row g rising s).sec = s.sec := by simp [stationEdge, apply_ite State.sec]

@[simp] theorem passPut_sec (at_ n d w stage lo cnt : Nat) (v : Word) (s : State) : (passPut at_ n d w stage lo cnt v s).sec = s.sec := by simp [passPut, apply_ite State.sec]

@[simp] theorem passShift_sec (old : State) (g d w lo cnt fuel n : Nat) (v : Word) (s : State) :
    (passShift old g d w lo cnt fuel n v s).sec = s.sec := by
  induction fuel generalizing n v s with
  | zero => rfl
  | succ k ih =>
    unfold passShift
    split
    · rfl
    · split
      · rfl
      · dsimp only
        split
        · rw [ih, passPut_sec, passPut_sec]
        · rw [passPut_sec, passPut_sec]

@[simp] theorem passEdge_sec (old : State) (n col row g : Nat) (i : QuireIn) (s : State) : (passEdge old n col row g i s).sec = s.sec := by simp [passEdge, apply_ite State.sec]

@[simp] theorem srAsync_sec (n col row : Nat) (i : QuireIn) (s : State) : (srAsync n col row i s).sec = s.sec := by simp [srAsync, apply_ite State.sec]

@[simp] theorem quireEdge_sec (old : State) (n col row g : Nat) (rising we : Bool) (i : QuireIn) (s : State) : (quireEdge old n col row g rising we i s).sec = s.sec := by simp [quireEdge, apply_ite State.sec]

@[simp] theorem opQuire_sec (n col row g : Nat) (rising we : Bool) (i : QuireIn) (s : State) : (opQuire n col row g rising we i s).sec = s.sec := by simp [opQuire, apply_ite State.sec]

@[simp] theorem State.setRam_sec (s : State) (n col row : Nat) (r : Ram36) : (State.setRam s n col row r).sec = s.sec := by simp [State.setRam]

@[simp] theorem ramPut_sec (n col row w first : Nat) (lanes : List Nat) (din : Word) (s : State) : (ramPut n col row w first lanes din s).sec = s.sec := by simp [ramPut]

@[simp] theorem ramParity_sec (n col row : Nat) (lanes : List Nat) (s : State) : (ramParity n col row lanes s).sec = s.sec := by
  unfold ramParity
  dsimp only
  repeat' split
  all_goals simp

@[simp] theorem ramOut_sec (n col base : Nat) (portB oce orst : Bool) (w : Word × Bool) (s : State) : (ramOut n col base portB oce orst w s).sec = s.sec := by simp [ramOut]

@[simp] theorem ramReadAt_sec (n col base row w first cnt : Nat) (portB oce orst : Bool) (s : State) : (ramReadAt n col base row w first cnt portB oce orst s).sec = s.sec := by simp [ramReadAt, apply_ite State.sec]

@[simp] theorem lostClear_sec (n col base : Nat) (portB : Bool) (s : State) : (lostClear n col base portB s).sec = s.sec := by simp [lostClear, apply_ite State.sec]

@[simp] theorem portShow_sec (n col base : Nat) (portB : Bool) (w : PortIn) (a : PortAct) (s : State) : (portShow n col base portB w a s).sec = s.sec := by simp [portShow, apply_ite State.sec]

@[simp] theorem portStore_sec (n col : Nat) (a : PortAct) (s : State) : (portStore n col a s).sec = s.sec := by simp [portStore, apply_ite State.sec]

@[simp] theorem collRaise_sec (n col base : Nat) (s : State) : (collRaise n col base s).sec = s.sec := by simp [collRaise, apply_ite State.sec]

@[simp] theorem opRam_sec (n col row : Nat) (a b : Option PortIn) (s : State) : (opRam n col row a b s).sec = s.sec := by
  unfold opRam
  dsimp only
  repeat' split
  all_goals simp

@[simp] theorem opRamRead_sec (n col row : Nat) (portB : Bool) (addr : BitVec 15) (en oce orst : Bool) (s : State) : (opRamRead n col row portB addr en oce orst s).sec = s.sec := by simp [opRamRead, apply_ite State.sec]

@[simp] theorem opCollClr_sec (n col row : Nat) (s : State) : (opCollClr n col row s).sec = s.sec := by simp [opCollClr, apply_ite State.sec]

@[simp] theorem fifoEdgeW_sec (n col base : Nat) (s : State) : (fifoEdgeW n col base s).sec = s.sec := by simp [fifoEdgeW]

@[simp] theorem fifoEdgeR_sec (n col base : Nat) (s : State) : (fifoEdgeR n col base s).sec = s.sec := by simp [fifoEdgeR]

@[simp] theorem fifoPush_sec (n col base : Nat) (din : Word) (s : State) : (fifoPush n col base din s).sec = s.sec := by simp [fifoPush, apply_ite State.sec]

@[simp] theorem fifoDrop_sec (n col base : Nat) (s : State) : (fifoDrop n col base s).sec = s.sec := by simp [fifoDrop]

@[simp] theorem opFifoWrite_sec (n col row : Nat) (en : Bool) (din : Word) (s : State) : (opFifoWrite n col row en din s).sec = s.sec := by simp [opFifoWrite, apply_ite State.sec]

@[simp] theorem fifoPop_sec (n col base : Nat) (oce orst : Bool) (s : State) : (fifoPop n col base oce orst s).sec = s.sec := by simp [fifoPop, apply_ite State.sec]

@[simp] theorem opFifoRead_sec (n col row : Nat) (en oce orst : Bool) (s : State) : (opFifoRead n col row en oce orst s).sec = s.sec := by simp [opFifoRead, apply_ite State.sec]

@[simp] theorem fifoReset_sec (n col base : Nat) (s : State) : (fifoReset n col base s).sec = s.sec := by simp [fifoReset]

@[simp] theorem opFifoRst_sec (n col row : Nat) (s : State) : (opFifoRst n col row s).sec = s.sec := by simp [opFifoRst, apply_ite State.sec]

@[simp] theorem fifoEdgeShared_sec (n col base : Nat) (s : State) : (fifoEdgeShared n col base s).sec = s.sec := by simp [fifoEdgeShared, apply_ite State.sec]

@[simp] theorem fifoFor_sec (n k : Nat) (who : Req) (op : Nat × Nat → State → State) (s : State) (h0 : ∀ x s, (op x s).sec = s.sec) : (fifoFor n k who op s).sec = s.sec := by
  unfold fifoFor
  repeat' split
  all_goals simp [*]

@[simp] theorem fifoData_sec (n : Nat) (peek : Bool) (p : Nat × Nat) (s : State) : (fifoData n peek p s).sec = s.sec := by simp [fifoData, apply_ite State.sec]

@[simp] theorem opFifoDataRead_sec (n k : Nat) (who : Req) (peek : Bool) (s : State) : (opFifoDataRead n k who peek s).sec = s.sec := by simp [opFifoDataRead]

@[simp] theorem opFifoDataWrite_sec (n k : Nat) (who : Req) (v : Word) (s : State) : (opFifoDataWrite n k who v s).sec = s.sec := by simp [opFifoDataWrite, apply_ite State.sec]

@[simp] theorem opFifoFlags_sec (n k : Nat) (who : Req) (v : Word) (s : State) : (opFifoFlags n k who v s).sec = s.sec := by simp [opFifoFlags]

@[simp] theorem tickFifos_sec (s : State) : (tickFifos s).sec = s.sec := by simp [tickFifos]

@[simp] theorem State.setMac_sec (s : State) (k : Nat) (m : Mac36) : (State.setMac s k m).sec = s.sec := by simp [State.setMac]

@[simp] theorem opMac_sec (n row : Nat) (second : Bool) (i : MacIn) (s : State) : (opMac n row second i s).sec = s.sec := by simp [opMac, apply_ite State.sec]

@[simp] theorem opContention_sec (n : Nat) (bus : Bool) (den : BitVec 32) (s : State) : (opContention n bus den s).sec = s.sec := by simp [opContention, apply_ite State.sec]

end Sys2Proof.Machine
end

