-- ==== Sys2Proof/Laws/SecFlash.lean ====
section
/-! SUPPORT. What the flash leave of the security store: `_sec` lemmas say that it is unchanged, `_secOk` lemmas that it stays sound. -/

namespace Sys2Proof.Machine

/-! ### Flash -/

@[simp] theorem cellRd_sec (who : Nat) (a : Nat) (c : Cell) (s : State) : (cellRd who a c s).2.sec = s.sec := by
  unfold cellRd
  split <;> simp

@[simp] theorem flashRd_sec (who : Nat) (a : Nat) (s : State) : (flashRd who a s).2.sec = s.sec := by simp [flashRd]

@[simp] theorem flashRds_sec (l : List Nat) (s : State) : (flashRds l s).2.sec = s.sec := by
  induction l generalizing s with
  | nil => rfl
  | cons a l ih => unfold flashRds; dsimp only; rw [ih, flashRd_sec]

@[simp] theorem flashWords_sec (as : List Nat) (s : State) : (flashWords as s).2.sec = s.sec := by simp [flashWords]

@[simp] theorem slotWords_sec (slot lo n : Nat) (s : State) : (slotWords slot lo n s).2.sec = s.sec := by simp [slotWords]

@[simp] theorem sectorWipe_sec (id : Nat) (s : State) : (sectorWipe id s).sec = s.sec := by simp [sectorWipe]

@[simp] theorem flashPut_sec (a : Nat) (ws : List Word) (s : State) : (flashPut a ws s).sec = s.sec := by simp [flashPut]

@[simp] theorem jrnlPut_sec (kind : Nat) (w1 w2 : Word) (q : List Word) (s : State) : (jrnlPut kind w1 w2 q s).sec = s.sec := by simp [jrnlPut]

@[simp] theorem jrnlSwitch_sec (s : State) : (jrnlSwitch s).sec = s.sec := by simp [jrnlSwitch]

@[simp] theorem jrnlRoom_sec (n : Nat) (s : State) : (jrnlRoom n s).sec = s.sec := by simp [jrnlRoom, apply_ite State.sec]

@[simp] theorem jrnlScan_sec (id n page : Nat) (s : State) : (jrnlScan id n page s).2.2.sec = s.sec := by
  induction n generalizing page s with
  | zero => rfl
  | succ n ih =>
    unfold jrnlScan
    dsimp only
    split
    · exact flashWords_sec _ _
    · rw [ih]; exact flashWords_sec _ _

@[simp] theorem recovAdd_sec (id cause : Nat) (s : State) : (recovAdd id cause s).sec = s.sec := by simp [recovAdd, apply_ite State.sec]

@[simp] theorem recovDrop_sec (id : Nat) (s : State) : (recovDrop id s).sec = s.sec := by simp [recovDrop]

@[simp] theorem jrnlBoot_sec (s : State) : (jrnlBoot s).sec = s.sec := by
  unfold jrnlBoot
  dsimp only
  split <;> (try rw [State.setB_sec]) <;> (try rw [recovAdd_sec]) <;> rw [forAll_sec _ _ (fun x s => recovAdd_sec _ _ _)] <;>
    dsimp only <;> split <;> (try rw [State.setReg_sec]) <;> rw [State.setF_sec, State.setReg_sec, jrnlScan_sec]

@[simp] theorem twinWords_sec (b : Bool) (s : State) : (twinWords b s).2.sec = s.sec := by simp [twinWords]

@[simp] theorem bootJrnlShow_sec (s : State) : (bootJrnlShow s).sec = s.sec := by
  unfold bootJrnlShow
  split <;> simp

@[simp] theorem opDescWr_sec (v : Word) (s : State) : (opDescWr v s).sec = s.sec := by simp [opDescWr, apply_ite State.sec]

@[simp] theorem opCmplRd_sec (v : Word) (s : State) : (opCmplRd v s).sec = s.sec := by simp [opCmplRd]

@[simp] theorem opRingBase_sec (v : Word) (s : State) : (opRingBase v s).sec = s.sec := by simp [opRingBase, apply_ite State.sec]

@[simp] theorem opDescFetch_sec (s : State) : (opDescFetch s).sec = s.sec := by simp [opDescFetch, apply_ite State.sec]

@[simp] theorem descSet_sec (k : Nat) (d : Desc) (s : State) : (descSet k d s).sec = s.sec := by simp [descSet]

@[simp] theorem opDescDispatch_sec (k : Nat) (s : State) : (opDescDispatch k s).sec = s.sec := by
  unfold opDescDispatch
  dsimp only
  repeat' split
  all_goals simp

@[simp] theorem pageLoop_sec (f : Nat → State → Nat × Nat × Nat × State) (h : ∀ p s, (f p s).2.2.2.sec = s.sec)
    (page n : Nat) (r : PageRun × State) : (pageLoop f page n r).2.sec = r.2.sec := by
  induction n generalizing page r with
  | zero => rfl
  | succ n ih =>
    unfold pageLoop
    dsimp only
    split
    · rw [ih, h]
    · exact h _ _

@[simp] theorem onPage_sec (id page : Nat) (g : List Word → State → Nat × Nat × State) (s : State)
    (h : ∀ ws s, (g ws s).2.2.sec = s.sec) : (onPage id page g s).2.2.2.sec = s.sec := by
  unfold onPage
  dsimp only
  split
  · exact flashRds_sec _ _
  · dsimp only; rw [h]; exact flashRds_sec _ _

@[simp] theorem bufWords_sec (d : Desc) (j : Nat) (s : State) : (bufWords d j s).2.sec = s.sec := by
  unfold bufWords
  apply foldl_snd_sec
  intro a x
  exact unitRead_sec _ _

@[simp] theorem runRead_sec (d : Desc) (page : Nat) (s : State) : (runRead d page s).2.2.2.sec = s.sec := by
  unfold runRead
  dsimp only
  split <;> simp

@[simp] theorem runProgram_sec (d : Desc) (failAt : Option Nat) (page : Nat) (s : State) : (runProgram d failAt page s).2.2.2.sec = s.sec := by
  unfold runProgram
  apply onPage_sec
  intro ws s
  dsimp only
  split
  · rfl
  · split
    · dsimp only; rw [raise_sec, flashCutAt_sec]; exact bufWords_sec _ _ _
    · dsimp only; rw [flashPut_sec]; exact bufWords_sec _ _ _

@[simp] theorem runVerify_sec (d : Desc) (page : Nat) (s : State) : (runVerify d page s).2.2.2.sec = s.sec := by
  unfold runVerify; (first | with_reducible rfl | (simp [apply_ite State.sec, *]; done) | ((try simp only [apply_ite State.sec, ite_self]); repeat' (first | with_reducible rfl | assumption | split | (simp [apply_ite State.sec, *]; done)  | (apply onPage_sec; intros; try dsimp only) | (rename_i h; replace h := congrArg (fun r => State.sec (Prod.snd r)) h; simp at h; simp [← h]; done) | simp [apply_ite State.sec])))

@[simp] theorem runBlank_sec (d : Desc) (page : Nat) (s : State) : (runBlank d page s).2.2.2.sec = s.sec := by
  unfold runBlank; (first | with_reducible rfl | (simp [apply_ite State.sec, *]; done) | ((try simp only [apply_ite State.sec, ite_self]); repeat' (first | with_reducible rfl | assumption | split | (simp [apply_ite State.sec, *]; done)  | (apply onPage_sec; intros; try dsimp only) | (rename_i h; replace h := congrArg (fun r => State.sec (Prod.snd r)) h; simp at h; simp [← h]; done) | simp [apply_ite State.sec])))

@[simp] theorem runMargin_sec (d : Desc) (page : Nat) (s : State) : (runMargin d page s).2.2.2.sec = s.sec := by
  unfold runMargin; (first | with_reducible rfl | (simp [apply_ite State.sec, *]; done) | ((try simp only [apply_ite State.sec, ite_self]); repeat' (first | with_reducible rfl | assumption | split | (simp [apply_ite State.sec, *]; done)  | (apply onPage_sec; intros; try dsimp only) | (rename_i h; replace h := congrArg (fun r => State.sec (Prod.snd r)) h; simp at h; simp [← h]; done) | simp [apply_ite State.sec])))

@[simp] theorem descRun_sec (k op : Nat) (f : Desc → State → Desc × State) (s : State) (h : ∀ d s, (f d s).2.sec = s.sec) :
    (descRun k op f s).sec = s.sec := by
  unfold descRun
  split
  · rfl
  · split
    · dsimp only; rw [descSet_sec, h]
    · rfl

@[simp] theorem descPages_sec (f : Desc → Nat → State → Nat × Nat × Nat × State) (h : ∀ d p s, (f d p s).2.2.2.sec = s.sec)
    (d : Desc) (s : State) : (descPages f d s).2.sec = s.sec := by
  unfold descPages pagesEnd
  exact pageLoop_sec _ (h d) _ _ _

@[simp] theorem eraseDone_sec (id : Nat) (window : Bool) (s : State) : (eraseDone id window s).sec = s.sec := by simp [eraseDone, apply_ite State.sec]

@[simp] theorem runErase_sec (dieOk : Bool) (d : Desc) (s : State) : (runErase dieOk d s).2.sec = s.sec := by
  unfold runErase
  split <;> simp

@[simp] theorem runSwapBoot_sec (d : Desc) (s : State) : (runSwapBoot d s).2.sec = s.sec := by
  unfold runSwapBoot
  dsimp only
  split <;> simp

@[simp] theorem opDescComplete_sec (k : Nat) (s : State) : (opDescComplete k s).sec = s.sec := by
  unfold opDescComplete
  repeat' split
  all_goals simp

@[simp] theorem opGapMove_sec (s : State) : (opGapMove s).sec = s.sec := by simp [opGapMove, apply_ite State.sec]

@[simp] theorem sectorCopy_sec (src dst : Nat) (s : State) : (sectorCopy src dst s).sec = s.sec := by
  refine (forAll_sec _ _ ?_ _).trans ?_
  · intro x s
    dsimp only
    split <;> rw [State.setFa_sec, flashRd_sec]
  · exact State.draw_sec s

@[simp] theorem opGapMoveDone_sec (s : State) : (opGapMoveDone s).sec = s.sec := by
  unfold opGapMoveDone
  dsimp only
  repeat' split
  all_goals simp

@[simp] theorem opRecoveryCheck_sec (s : State) : (opRecoveryCheck s).sec = s.sec := by
  unfold opRecoveryCheck
  generalize List.range 32768 = l
  generalize List.range 256 = l'
  split
  · rfl
  · dsimp only
    rw [forAll_sec]
    · split
      · rw [recovAdd_sec]; exact flashWords_sec _ _
      · exact flashWords_sec _ _
    · intro x s
      split
      · rw [recovAdd_sec]; rfl
      · rfl

@[simp] theorem opRecoveryErase_sec (s : State) : (opRecoveryErase s).sec = s.sec := by
  unfold opRecoveryErase
  dsimp only
  repeat' split
  all_goals simp

@[simp] theorem opRecovRead_sec (peek : Bool) (s : State) : (opRecovRead peek s).sec = s.sec := by
  unfold opRecovRead
  repeat' split
  all_goals simp

@[simp] theorem xipFill_sec (a : Nat) (s : State) : (xipFill a s).sec = s.sec := by simp [xipFill]

@[simp] theorem xipAccess_sec (w : Nat) (k : XipKind) (s : State) : (xipAccess w k s).sec = s.sec := by
  unfold xipAccess
  dsimp only
  repeat' split
  all_goals simp

@[simp] theorem opXip_sec (addr : BitVec 32) (k : XipKind) (s : State) : (opXip addr k s).sec = s.sec := by
  unfold opXip
  dsimp only
  repeat' split
  all_goals simp

end Sys2Proof.Machine
end

