-- ==== Sys2Proof/Laws/SecEngine.lean ====
section
/-! SUPPORT. What the engine leave of the security store: `_sec` lemmas say that it is unchanged, `_secOk` lemmas that it stays sound. -/

namespace Sys2Proof.Machine

/-! ### Furnish -/



/-! ### Engine -/

@[simp] theorem State.setRspQ_sec (s : State) (rq : Nat) (l : List Quad) : (State.setRspQ s rq l).sec = s.sec := by simp [State.setRspQ]

@[simp] theorem setBack_sec (rq n : Nat) (s : State) : (setBack rq n s).sec = s.sec := by simp [setBack]

@[simp] theorem setHeld_sec (rq n : Nat) (s : State) : (setHeld rq n s).sec = s.sec := by simp [setHeld]

@[simp] theorem rebalance_sec (s : State) : (rebalance s).sec = s.sec := by simp [rebalance]

@[simp] theorem allocLoad_sec (s : State) : (allocLoad s).sec = s.sec := by simp [allocLoad]

@[simp] theorem opAccept_sec (o : Op) (s : State) : (opAccept o s).sec = s.sec := by simp [opAccept]

@[simp] theorem opOffer_sec (rq : Fin 10) (who : Req) (q : Quad) (s : State) : (opOffer rq who q s).sec = s.sec := by simp [opOffer, apply_ite State.sec]

@[simp] theorem opPortRequest_sec (k : Fin 8) (q : Quad) (s : State) : (opPortRequest k q s).sec = s.sec := by
  unfold opPortRequest
  repeat' split
  all_goals simp

@[simp] theorem meshTake_sec (node : BitVec 10) (sreq : BitVec 4) (stag : BitVec 6) (q : Quad) (s : State) : (meshTake node sreq stag q s).sec = s.sec := by simp [meshTake]

@[simp] theorem waitTake_sec (s : State) : (waitTake s).sec = s.sec := by
  unfold waitTake
  repeat' split
  all_goals simp

@[simp] theorem slotFreed_sec (s : State) : (slotFreed s).sec = s.sec := by simp [slotFreed]

@[simp] theorem setOp_sec (o : Op) (s : State) : (setOp o s).sec = s.sec := by simp [setOp]

@[simp] theorem lockRelease_sec (s : State) : (lockRelease s).sec = s.sec := by simp [lockRelease]

@[simp] theorem opEnd_sec (o : Op) (r : Res) (s : State) : (opEnd o r s).sec = s.sec := by simp [opEnd]

@[simp] theorem ageFn_sec (fn : Nat) (s : State) : (ageFn fn s).sec = s.sec := by
  unfold ageFn
  split <;> simp

@[simp] theorem runAge_sec (o : Op) (s : State) : (runAge o s).sec = s.sec := by simp [runAge]

@[simp] theorem takePlace_sec (o : Op) (c : Nat) (s : State) : (takePlace o c s).sec = s.sec := by simp [takePlace, apply_ite State.sec]

@[simp] theorem opSend_sec (o : Op) (node : Nat) (s : State) : (opSend o node s).sec = s.sec := by simp [opSend]

@[simp] theorem opBegin_sec (o : Op) (s : State) : (opBegin o s).sec = s.sec := by
  unfold opBegin
  dsimp only
  repeat' split
  all_goals simp

@[simp] theorem opAdmission_sec (s : State) : (opAdmission s).sec = s.sec := by
  unfold opAdmission
  repeat' split
  all_goals simp

@[simp] theorem opRun_sec (id op : Nat) (f : Op → State → State) (s : State) (h0 : ∀ x s, (f x s).sec = s.sec) : (opRun id op f s).sec = s.sec := by
  unfold opRun
  repeat' split
  all_goals simp [*]

@[simp] theorem ageZero_sec (loc : Nat) (s : State) : (ageZero loc s).sec = s.sec := by simp [ageZero]

@[simp] theorem wcFind_sec (cls : Nat) (key : BitVec 108) (s : State) : (wcFind cls key s).2.sec = s.sec := by simp [wcFind]

@[simp] theorem opFind_sec (o : Op) (s : State) : (opFind o s).2.sec = s.sec := by
  unfold opFind
  dsimp only
  repeat' split
  all_goals simp

@[simp] theorem runLookup_sec (o : Op) (s : State) : (runLookup o s).sec = s.sec := by
  unfold runLookup; (first | with_reducible rfl | (simp [apply_ite State.sec, *]; done) | ((try simp only [apply_ite State.sec, ite_self]); repeat' (first | with_reducible rfl | assumption | split | (simp [apply_ite State.sec, *]; done)  | (rename_i h; replace h := congrArg (fun r => State.sec (Prod.snd r)) h; simp at h; simp [← h]; done) | simp [apply_ite State.sec])))

@[simp] theorem runInsert_sec (o : Op) (s : State) : (runInsert o s).sec = s.sec := by
  unfold runInsert; (first | with_reducible rfl | (simp [apply_ite State.sec, *]; done) | ((try simp only [apply_ite State.sec, ite_self]); repeat' (first | with_reducible rfl | assumption | split | (simp [apply_ite State.sec, *]; done)  | (rename_i h; replace h := congrArg (fun r => State.sec (Prod.snd r)) h; simp at h; simp [← h]; done) | simp [apply_ite State.sec])))

@[simp] theorem runDelete_sec (o : Op) (s : State) : (runDelete o s).sec = s.sec := by
  unfold runDelete
  dsimp only
  repeat' split
  all_goals simp

@[simp] theorem ctxPut_sec (c : Nat) (ws : List Word) (s : State) : (ctxPut c ws s).sec = s.sec := by simp [ctxPut]

@[simp] theorem withCtx_sec (o : Op) (r : Res) (k : List Word → State → State) (s : State) (h : ∀ x s, (k x s).sec = s.sec) :
    (withCtx o r k s).sec = s.sec := by
  unfold withCtx
  dsimp only
  split
  · exact opEnd_sec _ _ _
  · split <;> rename_i hc <;> replace hc := congrArg (fun r => State.sec (Prod.snd r)) hc <;> simp only [ctxWords_sec] at hc
    · rw [h, hc]
    · rw [opEnd_sec, hc]

@[simp] theorem runCtxRead_sec (o : Op) (s : State) : (runCtxRead o s).sec = s.sec := by simp [runCtxRead, apply_ite State.sec]

@[simp] theorem runCtxWrite_sec (o : Op) (s : State) : (runCtxWrite o s).sec = s.sec := by simp [runCtxWrite, apply_ite State.sec]

@[simp] theorem repairAdd_sec (lane key : Nat) (s : State) : (repairAdd lane key s).2.sec = s.sec := by
  unfold repairAdd
  repeat' split
  all_goals simp

@[simp] theorem repairRing_sec (key : Nat) (s : State) : (repairRing key s).sec = s.sec := by simp [repairRing, apply_ite State.sec]

@[simp] theorem repairLate_sec (s : State) : (repairLate s).sec = s.sec := by
  unfold repairLate
  dsimp only
  repeat' split
  all_goals simp

@[simp] theorem runProg_sec (o : Op) (r : Res) (x0 x1 : Word) (ws : List Word) (s : State) : (runProg o r x0 x1 ws s).sec = s.sec := by
  unfold runProg
  dsimp only
  repeat' split
  all_goals simp

@[simp] theorem runCtxRun_sec (o : Op) (s : State) : (runCtxRun o s).sec = s.sec := by simp [runCtxRun, apply_ite State.sec]

@[simp] theorem runLookupRun2_sec (o : Op) (s : State) : (runLookupRun2 o s).sec = s.sec := by simp [runLookupRun2, apply_ite State.sec]

@[simp] theorem runLookupRun_sec (o : Op) (s : State) : (runLookupRun o s).sec = s.sec := by
  unfold runLookupRun
  split
  · exact runLookupRun2_sec _ _
  · split
    · rfl
    · split <;> rename_i hc <;> replace hc := congrArg (fun r => State.sec (Prod.snd r)) hc <;> simp only [opFind_sec] at hc
      · rw [opEnd_sec, hc]
      · split
        · rw [opEnd_sec, hc]
        · dsimp only
          split
          · rw [runLookupRun2_sec, takePlace_sec, hc]
          · rw [takePlace_sec, hc]

@[simp] theorem runFence_sec (o : Op) (s : State) : (runFence o s).sec = s.sec := by simp [runFence, apply_ite State.sec]

@[simp] theorem opAge_sec (slot : Option Nat) (who : Req) (fn : Nat) (s : State) : (opAge slot who fn s).sec = s.sec := by
  unfold opAge; (first | with_reducible rfl | (simp [apply_ite State.sec, *]; done) | ((try simp only [apply_ite State.sec, ite_self]); repeat' (first | with_reducible rfl | assumption | split | (simp [apply_ite State.sec, *]; done)  | (apply gateW_sec; intros; try dsimp only) | (apply opRun_sec; intros; try dsimp only) | (rename_i h; replace h := congrArg (fun r => State.sec (Prod.snd r)) h; simp at h; simp [← h]; done) | simp [apply_ite State.sec])))

@[simp] theorem opCount_sec (o : Op) (s : State) : (opCount o s).sec = s.sec := by simp [opCount, apply_ite State.sec]

@[simp] theorem opDeliver_sec (o : Op) (s : State) : (opDeliver o s).sec = s.sec := by simp [opDeliver, apply_ite State.sec]

@[simp] theorem opComplete_sec (id : Nat) (s : State) : (opComplete id s).sec = s.sec := by
  unfold opComplete
  repeat' split
  all_goals simp

@[simp] theorem opTimeout_sec (id : Nat) (s : State) : (opTimeout id s).sec = s.sec := by
  unfold opTimeout
  repeat' split
  all_goals simp

@[simp] theorem lateDiscard_sec (s : State) : (lateDiscard s).sec = s.sec := by
  unfold lateDiscard
  split <;> simp

@[simp] theorem portTake_sec (k : Nat) (s : State) : (portTake k s).sec = s.sec := by
  unfold portTake
  repeat' split
  all_goals simp

@[simp] theorem portDiscard_sec (n : Nat) (s : State) : (portDiscard n s).sec = s.sec := by simp [portDiscard, apply_ite State.sec]

@[simp] theorem portRelease_sec (n : Nat) (s : State) : (portRelease n s).sec = s.sec := by simp [portRelease, apply_ite State.sec]

@[simp] theorem portMoved_sec (k : Nat) (s : State) : (portMoved k s).sec = s.sec := by simp [portMoved]

@[simp] theorem opStashDrain_sec (s : State) : (opStashDrain s).sec = s.sec := by
  unfold opStashDrain
  dsimp only
  split
  · exact stashCheck_sec _
  · split <;> rename_i h
    · rw [entFree_sec, (bucketPlace_sec _ _).2 _ (by rw [h]), stashCheck_sec]
    · have := (bucketPlace_sec _ _).1.symm.trans (congrArg (fun r => State.sec (Prod.snd r)) h)
      rw [← this, stashCheck_sec]

@[simp] theorem opPatrol_sec (m : EngMem) (ix : Nat) (s : State) : (opPatrol m ix s).sec = s.sec := by
  unfold opPatrol
  dsimp only
  repeat' split
  all_goals simp

@[simp] theorem opSweepStart_sec (s : State) : (opSweepStart s).sec = s.sec := by simp [opSweepStart, apply_ite State.sec]

@[simp] theorem ageEntry_sec (loc : Nat) (s : State) : (ageEntry loc s).sec = s.sec := by simp [ageEntry, apply_ite State.sec]

@[simp] theorem opSweepVisit_sec (s : State) : (opSweepVisit s).sec = s.sec := by simp [opSweepVisit, apply_ite State.sec]

@[simp] theorem opVoteFail_sec (credit : Bool) (s : State) : (opVoteFail credit s).sec = s.sec := by simp [opVoteFail, apply_ite State.sec]

@[simp] theorem opLossReport_sec (s : State) : (opLossReport s).sec = s.sec := by simp [opLossReport, apply_ite State.sec]

@[simp] theorem opAlloc_sec (n : Nat) (who : Req) (v : Word) (s : State) : (opAlloc n who v s).sec = s.sec := by simp [opAlloc, apply_ite State.sec]

@[simp] theorem opWcSegEn_sec (v : Word) (s : State) : (opWcSegEn v s).sec = s.sec := by simp [opWcSegEn]

@[simp] theorem opWcCmd_sec (v : Word) (s : State) : (opWcCmd v s).sec = s.sec := by simp [opWcCmd, apply_ite State.sec]

@[simp] theorem opKins_sec (who : Req) (v : Word) (s : State) : (opKins who v s).sec = s.sec := by simp [opKins, apply_ite State.sec]

@[simp] theorem opCmdReq_sec (i : Nat) (who : Req) (v : Word) (s : State) : (opCmdReq i who v s).sec = s.sec := by simp [opCmdReq, apply_ite State.sec]

@[simp] theorem opCmdPop_sec (peek : Bool) (s : State) : (opCmdPop peek s).sec = s.sec := by simp [opCmdPop, apply_ite State.sec]

end Sys2Proof.Machine
end

