-- ==== Sys2Proof/Laws/SecPlanes.lean ====
section
/-! SUPPORT. What planes, streams, swaps, regions and Calender leave of the security store: `_sec` lemmas say that it is unchanged, `_secOk` lemmas that it stays sound. -/

namespace Sys2Proof.Machine

/-! ### Ring -/

@[simp] theorem bankCodesLoad_sec (s : State) : (bankCodesLoad s).sec = s.sec := by simp [bankCodesLoad]

@[simp] theorem pinStdCheck_sec (i : Nat) (s : State) : (pinStdCheck i s).sec = s.sec := by simp [pinStdCheck, apply_ite State.sec]

@[simp] theorem pinRegs_sec (i : Nat) (s : State) : (pinRegs i s).sec = s.sec := by simp [pinRegs]

@[simp] theorem pinRelease_sec (i : Nat) (s : State) : (pinRelease i s).sec = s.sec := by simp [pinRelease]

@[simp] theorem pinSwitch_sec (old : State) (i f : Nat) (s : State) : (pinSwitch old i f s).sec = s.sec := by simp [pinSwitch, apply_ite State.sec]

@[simp] theorem pinExchange_sec (old : State) (i : Nat) (s : State) : (pinExchange old i s).sec = s.sec := by simp [pinExchange, apply_ite State.sec]

@[simp] theorem sysLoad_sec (s : State) : (sysLoad s).sec = s.sec := by simp [sysLoad]

@[simp] theorem gclLoad_sec (phase : Bool) (n : Nat) (s : State) : (gclLoad phase n s).sec = s.sec := by simp [gclLoad, apply_ite State.sec]

@[simp] theorem meshLoad_sec (s : State) : (meshLoad s).sec = s.sec := by simp [meshLoad]

@[simp] theorem rhxLoad_sec (s : State) : (rhxLoad s).sec = s.sec := by simp [rhxLoad]

@[simp] theorem ringRelease_sec (s : State) : (ringRelease s).sec = s.sec := by simp [ringRelease]

@[simp] theorem stMoved_sec (k : Nat) (s : State) : (stMoved k s).sec = s.sec := by simp [stMoved]

@[simp] theorem ringExchange_sec (old : State) (s : State) : (ringExchange old s).sec = s.sec := by simp [ringExchange]

/-! ### Image -/

@[simp] theorem setSlotRec_sec (slot : Nat) (r : SlotRec) (s : State) : (setSlotRec slot r s).sec = s.sec := by simp [setSlotRec]

theorem slotHeader_eq (r : List Word × State) : (if r.1.headD 0 ≠ syncWord then ((Except.error (0x213, 0) : Except (Nat × Nat) Hdr), r.2)
      else match hdrLen r.1 256 1 with
        | none => (.error (0x201, 7 <<< 28 ||| 255 <<< 3), r.2)
        | some h => (hdrCheck r.2 (r.1.take h), r.2)).2 = r.2 := by
  split
  · rfl
  · split <;> rfl

@[simp] theorem slotHeader_sec (slot : Nat) (s : State) : (slotHeader slot s).2.sec = s.sec :=
  (congrArg State.sec (slotHeader_eq (slotWords slot 0 256 s))).trans (slotWords_sec _ _ _ _)

@[simp] theorem slotSegment_sec (slot k : Nat) (s : State) : (slotSegment slot k s).2.sec = s.sec := by simp [slotSegment]

@[simp] theorem slotSegments_sec (slot k n : Nat) (s : State) : (slotSegments slot k n s).2.sec = s.sec := by
  induction n generalizing k s with
  | zero => rfl
  | succ n ih =>
    unfold slotSegments
    split <;> rename_i h <;> replace h := congrArg (fun r => State.sec (Prod.snd r)) h <;> simp only [slotSegment_sec] at h
    · exact h.symm
    · dsimp only; rw [ih, h]

@[simp] theorem slotBody_sec (slot b n : Nat) (s : State) : (slotBody slot b n s).2.sec = s.sec := by simp [slotBody]

@[simp] theorem slotFrame_sec (slot seg col minor : Nat) (s : State) : (slotFrame slot seg col minor s).2.sec = s.sec := by simp [slotFrame]

@[simp] theorem goldDerive_sec (n : Nat) (plane : Bool) (s : State) : (goldDerive n plane s).sec = s.sec := by simp [goldDerive]

@[simp] theorem fenceStage_sec (n : Nat) (plane : Bool) (s : State) : (fenceStage n plane s).sec = s.sec := by simp [fenceStage]

@[simp] theorem attrLoad_sec (n : Nat) (s : State) : (attrLoad n s).sec = s.sec := by simp [attrLoad]

@[simp] theorem segCopy_sec (n : Nat) (dst : Bool) (s : State) : (segCopy n dst s).sec = s.sec := by simp [segCopy]

@[simp] theorem segClear_sec (n : Nat) (plane : Bool) (s : State) : (segClear n plane s).sec = s.sec := by simp [segClear]

@[simp] theorem regionPreload_sec (n : Nat) (s : State) : (regionPreload n s).sec = s.sec := by simp [regionPreload]

@[simp] theorem contentFrame_sec (n col minor : Nat) (ws : List Word) (s : State) : (contentFrame n col minor ws s).sec = s.sec := by simp [contentFrame]

@[simp] theorem contentLoad_sec (slot n : Nat) (s : State) : (contentLoad slot n s).2.sec = s.sec := by
  unfold contentLoad
  apply foldl_snd_sec
  intro a c
  apply foldl_snd_sec
  intro b m
  split
  · rfl
  · split <;> rename_i h <;> replace h := congrArg (fun r => State.sec (Prod.snd r)) h <;> simp only [slotFrame_sec] at h
    · dsimp only; rw [contentFrame_sec, h]
    · exact h.symm

/-! ### Planes -/

@[simp] theorem State.setSh_sec (s : State) (n v : Nat) : (State.setSh s n v).sec = s.sec := by simp [State.setSh, apply_ite State.sec]

@[simp] theorem ringCopy_sec (s : State) : (ringCopy s).sec = s.sec := by simp [ringCopy]

@[simp] theorem tmrCount_sec (n lane : Nat) (golden : Bool) (s : State) : (tmrCount n lane golden s).sec = s.sec := by simp [tmrCount, apply_ite State.sec]

@[simp] theorem goldCell_sec (n : Nat) (plane : Bool) (ix : Nat) (s : State) : (goldCell n plane ix s).2.sec = s.sec := by
  unfold goldCell
  dsimp only
  split <;> simp

@[simp] theorem goldVote_sec (n : Nat) (plane : Bool) (cells : List Nat) (s : State) : (goldVote n plane cells s).sec = s.sec := by simp [goldVote]

@[simp] theorem goldRead_sec (key : Nat) (s : State) : (goldRead key s).sec = s.sec := by simp [goldRead, apply_ite State.sec]

@[simp] theorem goldAll_sec (n : Nat) (plane : Bool) (s : State) : (goldAll n plane s).sec = s.sec := by simp [goldAll]

@[simp] theorem State.setSw_sec (s : State) (v : Nat) : (State.setSw s v).sec = s.sec := by simp [State.setSw]

@[simp] theorem voteTo_sec (coord id : Nat) (v : Vote) (s : State) : (voteTo coord id v s).sec = s.sec := by simp [voteTo]

@[simp] theorem voteNote_sec (node : Nat) (v : Vote) (s : State) : (voteNote node v s).sec = s.sec := by simp [voteNote]

@[simp] theorem voteSend_sec (s : State) : (voteSend s).sec = s.sec := by simp [voteSend, apply_ite State.sec]

@[simp] theorem voteUpdate_sec (s : State) : (voteUpdate s).sec = s.sec := by simp [voteUpdate, apply_ite State.sec]

/-! ### Stream -/

@[simp] theorem shadowTouch_sec (lane : Nat) (s : State) : (shadowTouch lane s).sec = s.sec := by simp [shadowTouch, apply_ite State.sec]

@[simp] theorem cls2_sec (code : Code) (detail : Nat) (s : State) : (cls2 code detail s).sec = s.sec := by simp [cls2, apply_ite State.sec]

@[simp] theorem ldRefuseAs_sec (code : Code) (detail : Nat) (s : State) : (ldRefuseAs code detail s).sec = s.sec := by simp [ldRefuseAs, apply_ite State.sec]

@[simp] theorem ldRefuse_sec (code : Code) (detail : Nat) (s : State) : (ldRefuse code detail s).sec = s.sec := by simp [ldRefuse]

@[simp] theorem e201_sec (cause ix : Nat) (s : State) : (e201 cause ix s).sec = s.sec := by simp [e201]

@[simp] theorem ldStart_sec (src : BitVec 3) (who : Req) (slot : Option (Fin 4)) (s : State) : (ldStart src who slot s).sec = s.sec := by simp [ldStart]

@[simp] theorem hdrTake_sec (h : Hdr) (rest : List Word) (s : State) : (hdrTake h rest s).sec = s.sec := by
  unfold hdrTake
  repeat' split
  all_goals simp

@[simp] theorem hdrAct_sec (n : Nat) (s : State) : (hdrAct n s).sec = s.sec := by
  unfold hdrAct
  split
  · exact ldRefuse_sec _ _ _
  · exact hdrTake_sec _ _ _

@[simp] theorem ldAdvance_sec (s : State) : (ldAdvance s).sec = s.sec := by simp [ldAdvance]

@[simp] theorem frameWord_sec (j : Nat) (v : Word) (s : State) : (frameWord j v s).sec = s.sec := by simp [frameWord, apply_ite State.sec]

@[simp] theorem frameLoaded_sec (w : Word) (s : State) : (frameLoaded w s).sec = s.sec := by simp [frameLoaded, apply_ite State.sec]

@[simp] theorem frameCheck_sec (ix : Nat) (s t : State) (h : frameCheck ix s = some t) : t.sec = s.sec := by
  unfold frameCheck at h
  dsimp only at h
  split at h
  · cases h; exact ldRefuse_sec _ _ _
  · split at h
    · cases h; exact ldRefuse_sec _ _ _
    · split at h
      · cases h; exact ldRefuse_sec _ _ _
      · cases h

@[simp] theorem frameData_sec (p : Pkt) (v : Word) (s : State) : (frameData p v s).sec = s.sec := by
  unfold frameData
  dsimp only
  split <;> rename_i h
  · split at h
    · exact frameCheck_sec _ _ _ h
    · cases h
  · split <;> (try rw [ldAdvance_sec, frameLoaded_sec]) <;> rw [frameWord_sec] <;> split <;> (try rfl) <;> exact shadowTouch_sec _ _

@[simp] theorem fcmdAct_sec (v : Word) (at' : Nat) (s : State) : (fcmdAct v at' s).sec = s.sec := by simp [fcmdAct, apply_ite State.sec]

@[simp] theorem commitAccept_sec (v : Word) (s : State) : (commitAccept v s).sec = s.sec := by simp [commitAccept, apply_ite State.sec]

@[simp] theorem commitAct_sec (v : Word) (s : State) : (commitAct v s).sec = s.sec := by
  unfold commitAct
  dsimp only
  split
  · exact ldRefuse_sec _ _ _
  · split
    · exact ldRefuse_sec _ _ _
    · split
      · exact ldRefuseAs_sec _ _ _
      · split
        · exact commitAccept_sec _ _
        · split
          · split
            · rw [commitAccept_sec, setSlotRec_sec]
            · exact ldRefuse_sec _ _ _
          · split
            · split
              · rw [commitAccept_sec, setSlotRec_sec, slotHeader_sec]
              · rw [ldRefuse_sec, slotHeader_sec]
            · rw [ldRefuse_sec, slotHeader_sec]

@[simp] theorem preAct_sec (kind : Nat) (ws : List Word) (at' : Nat) (s : State) : (preAct kind ws at' s).sec = s.sec := by
  unfold preAct
  dsimp only
  repeat' split
  all_goals simp

@[simp] theorem pktAct_sec (p : Pkt) (at' : Nat) (s : State) : (pktAct p at' s).sec = s.sec := by
  unfold pktAct
  dsimp only
  split
  · exact ldRefuse_sec _ _ _
  · split
    · split
      · split
        · rfl
        · exact ldRefuse_sec _ _ _
      · exact ldRefuse_sec _ _ _
    · exact fcmdAct_sec _ _ _
    · rfl
    · split
      · rfl
      · exact ldRefuse_sec _ _ _
    · exact commitAct_sec _ _
    · rfl
    · exact streamDiscard_sec _ _
    · exact preAct_sec _ _ _ _
    · exact preAct_sec _ _ _ _
    · exact preAct_sec _ _ _ _
    · rfl

@[simp] theorem pktHead_sec (w : Word) (s : State) : (pktHead w s).sec = s.sec := by simp [pktHead, apply_ite State.sec]

@[simp] theorem pktData_sec (p : Pkt) (w : Word) (s : State) : (pktData p w s).sec = s.sec := by simp [pktData, apply_ite State.sec]

@[simp] theorem ldWord_sec (w : Word) (s : State) : (ldWord w s).sec = s.sec := by
  unfold ldWord
  dsimp only
  repeat' split
  all_goals simp

@[simp] theorem ldWords_sec (ws : List Word) (s : State) : (ldWords ws s).sec = s.sec := by
  induction ws generalizing s with
  | nil => rfl
  | cons w ws ih =>
    unfold ldWords
    split
    · rfl
    · split
      · rfl
      · rw [ih, ldWord_sec]

@[simp] theorem ldComplete_sec (s : State) : (ldComplete s).sec = s.sec := by simp [ldComplete, apply_ite State.sec]

@[simp] theorem segAct_sec (s : State) : (segAct s).sec = s.sec := by
  unfold segAct
  dsimp only
  split
  · exact ldRefuse_sec _ _ _
  · exact ldWords_sec _ _

@[simp] theorem ldPump_sec (fuel : Nat) (s : State) : (ldPump fuel s).sec = s.sec := by
  induction fuel generalizing s with
  | zero => rfl
  | succ n ih =>
    unfold ldPump
    split
    · rfl
    · split
      · split
        · rw [ih, hdrAct_sec]
        · exact ldRefuse_sec _ _ _
      · split
        · exact ldRefuse_sec _ _ _
        · rfl
    · split
      · rfl
      · split
        · rw [ih, ldWords_sec]
        · dsimp only
          split
          · exact ldComplete_sec _
          · split
            · rfl
            · rw [ih, segAct_sec]

@[simp] theorem ldCount_sec (s : State) : (ldCount s).sec = s.sec := by simp [ldCount, apply_ite State.sec]

@[simp] theorem pushAck_sec (s : State) : (pushAck s).sec = s.sec := by simp [pushAck, apply_ite State.sec]

@[simp] theorem ldPush_sec (ws : List Word) (s : State) : (ldPush ws s).sec = s.sec := by simp [ldPush, apply_ite State.sec]

@[simp] theorem ldResume_sec (s : State) : (ldResume s).sec = s.sec := by simp [ldResume]

@[simp] theorem srcRefuse_sec (src : BitVec 3) (s : State) : (srcRefuse src s).sec = s.sec := by simp [srcRefuse]

@[simp] theorem ldOffer_sec (src : BitVec 3) (who : Req) (ws : List Word) (s : State) : (ldOffer src who ws s).sec = s.sec := by
  unfold ldOffer
  repeat' split
  all_goals simp

theorem slotNext_eq (r : List Word × State) :
    ((match hdrLen (syncWord :: r.1) 256 1 with | some n => r.1.take (n - 1) | none => r.1), r.2).2 = r.2 := rfl

@[simp] theorem slotNext_sec (s : State) : (slotNext s).2.sec = s.sec := by
  unfold slotNext
  split
  · rfl
  · split
    · exact (congrArg State.sec (slotNext_eq _)).trans (slotWords_sec _ _ _ _)
    · dsimp only
      split
      · rfl
      · exact slotWords_sec _ _ _ _

@[simp] theorem ldDeliver_sec (ws : List Word) (s : State) : (ldDeliver ws s).sec = s.sec := by simp [ldDeliver, apply_ite State.sec]

@[simp] theorem loadSlot_sec (slot : Fin 4) (s : State) : (loadSlot slot s).sec = s.sec := by simp [loadSlot, apply_ite State.sec]

@[simp] theorem streamSync_sec (src : BitVec 3) (who : Req) (s : State) : (streamSync src who s).sec = s.sec := by simp [streamSync, apply_ite State.sec]

@[simp] theorem opCfgCmd_sec (v : Word) (s : State) : (opCfgCmd v s).sec = s.sec := by
  unfold opCfgCmd
  split <;> simp

@[simp] theorem opRdata_sec (peek : Bool) (s : State) : (opRdata peek s).sec = s.sec := by
  unfold opRdata
  repeat' split
  all_goals simp

@[simp] theorem fcmdDone_sec (s : State) : (fcmdDone s).sec = s.sec := by
  unfold fcmdDone
  repeat' split
  all_goals simp

@[simp] theorem opRollAdv_secOk (who : Req) (v : Word) (s : State) (hs : s.sec.ok) : (opRollAdv who v s).sec.ok := by
  unfold opRollAdv
  split
  · exact hs
  · split
    · rw [State.setB_sec]; exact hs
    · rename_i h
      simp only [not_or] at h
      refine ⟨hs.1, hs.2.1, fun t ht => ?_⟩
      cases ht
      have h1 : fld v 7 0 < 256 := by unfold fld; exact Nat.mod_lt _ (by decide)
      have h2 := h.2.1
      simp only [BitVec.toNat_ofNat]
      omega

theorem Sec.ok_zero (x : Sec) (h : x.ok) (b : List (BitVec 32)) : ({ x with keyRam := 0, keyValid := false, krWords := b } : Sec).ok :=
  ⟨fun _ => rfl, h.2.1, h.2.2⟩

theorem Sec.ok_load (x : Sec) (h : x.ok) (k : BitVec 256) (b : List (BitVec 32)) :
    ({ x with keyRam := k, keyValid := true, krWords := b } : Sec).ok :=
  ⟨(fun e => nomatch e), h.2.1, h.2.2⟩

@[simp] theorem opKrCtrl_secOk (who : Req) (v : Word) (s : State) (hs : s.sec.ok) : (opKrCtrl who v s).sec.ok := by
  unfold opKrCtrl
  have h1 : (if v.getLsbD 2 then s.setB Reg.secKrCtrl 2 false else s).sec.ok := by
    split
    · rw [State.setB_sec]; exact hs
    · exact hs
  generalize (if v.getLsbD 2 then s.setB Reg.secKrCtrl 2 false else s) = u at h1
  split
  · exact hs
  · dsimp only
    have h2 : (if v.getLsbD 5 ∧ secKey v then { u with sec := { u.sec with keyRam := 0, keyValid := false, krWords := [] } } else u).sec.ok := by
      split
      · exact Sec.ok_zero _ h1 _
      · exact h1
    generalize (if v.getLsbD 5 ∧ secKey v then { u with sec := { u.sec with keyRam := 0, keyValid := false, krWords := [] } } else u) = w at h2
    split
    · exact Sec.ok_load _ h2 _ _
    · exact h2

@[simp] theorem opKrData_secOk (who : Req) (v : Word) (s : State) (hs : s.sec.ok) : (opKrData who v s).sec.ok := by
  unfold opKrData
  split
  · exact hs
  · exact hs

/-! ### SwapOps -/

@[simp] theorem swapRefuse_sec (op reason region : Nat) (s : State) : (swapRefuse op reason region s).sec = s.sec := by simp [swapRefuse]

@[simp] theorem setScope_sec (v : Nat) (s : State) : (setScope v s).sec = s.sec := by simp [setScope]

@[simp] theorem swapCommit_sec (scope : Nat) (regions : BitVec 64) (ring : Bool) (s : State) : (swapCommit scope regions ring s).sec = s.sec := by simp [swapCommit]

@[simp] theorem swapFlood_sec (svc : Nat) (payload : List Word) (s : State) : (swapFlood svc payload s).sec = s.sec := by simp [swapFlood]

@[simp] theorem swapArm_sec (id coord : Nat) (t : BitVec 64) (mine : Bool) (s : State) : (swapArm id coord t mine s).sec = s.sec := by simp [swapArm]

@[simp] theorem meshArm_sec (s : State) : (meshArm s).sec = s.sec := by simp [meshArm]

@[simp] theorem swapAbort_sec (cause node : Nat) (s : State) : (swapAbort cause node s).sec = s.sec := by simp [swapAbort]

@[simp] theorem coordAbort_sec (cause node : Nat) (s : State) : (coordAbort cause node s).sec = s.sec := by simp [coordAbort]

@[simp] theorem swapGo_sec (s : State) : (swapGo s).sec = s.sec := by simp [swapGo]

@[simp] theorem opDeadline_sec (s : State) : (opDeadline s).sec = s.sec := by
  unfold opDeadline
  repeat' split
  all_goals simp

@[simp] theorem opSwapAt_sec (id coord : Nat) (t : BitVec 64) (s : State) : (opSwapAt id coord t s).sec = s.sec := by simp [opSwapAt, apply_ite State.sec]

@[simp] theorem opVote_sec (node id : Nat) (v : Vote) (s : State) : (opVote node id v s).sec = s.sec := by simp [opVote, apply_ite State.sec]

@[simp] theorem opGo_sec (id : Nat) (s : State) : (opGo id s).sec = s.sec := by simp [opGo, apply_ite State.sec]

@[simp] theorem opAbort_sec (id cause : Nat) (s : State) : (opAbort id cause s).sec = s.sec := by simp [opAbort, apply_ite State.sec]

@[simp] theorem opNoDecision_sec (s : State) : (opNoDecision s).sec = s.sec := by simp [opNoDecision, apply_ite State.sec]

@[simp] theorem opMirror_sec (s : State) : (opMirror s).sec = s.sec := by simp [opMirror]

@[simp] theorem mirrorEnd_sec (n : Nat) (s : State) : (mirrorEnd n s).sec = s.sec := by simp [mirrorEnd]

@[simp] theorem opMirrorDone_sec (s : State) : (opMirrorDone s).sec = s.sec := by
  unfold opMirrorDone
  split <;> simp

@[simp] theorem opSwapCmd_sec (v : Word) (s : State) : (opSwapCmd v s).sec = s.sec := by
  unfold opSwapCmd
  dsimp only
  repeat' split
  all_goals simp

@[simp] theorem lutWordCarry_sec (n : Nat) (inc : Bool) (q : Nat × Nat) (m : Word) (w : Nat) (s : State) : (lutWordCarry n inc q m w s).sec = s.sec := by simp [lutWordCarry]

@[simp] theorem quireCarry_sec (n : Nat) (inc : Bool) (q : Nat × Nat) (s : State) : (quireCarry n inc q s).sec = s.sec := by simp [quireCarry, apply_ite State.sec]

theorem parErr_sec (s : State) (p : Store Bool) : ({ s with fab := { s.fab with parErr := p } } : State).sec = s.sec := rfl

@[simp] theorem lutCarry_sec (n : Nat) (s : State) : (lutCarry n s).sec = s.sec := by
  unfold lutCarry
  refine (parErr_sec _ _).trans ((forAll_sec _ _ (fun q s => quireCarry_sec _ _ _ _) _).trans ?_)
  rw [goldAll_sec, goldAll_sec]

@[simp] theorem fifoCarry_sec (n : Nat) (s : State) : (fifoCarry n s).sec = s.sec := by simp [fifoCarry, apply_ite State.sec]

@[simp] theorem State.setLane_sec (s : State) (l : Nat) (x : Lane) : (State.setLane s l x).sec = s.sec := by simp [State.setLane]

@[simp] theorem laneVote_sec (lane : Nat) (s : State) : (laneVote lane s).sec = s.sec := by simp [laneVote]

@[simp] theorem laneRestart_sec (lane : Nat) (s : State) : (laneRestart lane s).sec = s.sec := by simp [laneRestart]

@[simp] theorem laneExchange_sec (lane : Nat) (s : State) : (laneExchange lane s).sec = s.sec := by simp [laneExchange, apply_ite State.sec]

@[simp] theorem regionExchange_sec (n : Nat) (s : State) : (regionExchange n s).sec = s.sec := by simp [regionExchange, apply_ite State.sec]

@[simp] theorem activeV_sec (slot : Nat) (s : State) : (activeV slot s).sec = s.sec := by simp [activeV]

@[simp] theorem identApply_sec (regions : List Nat) (ring : Bool) (s : State) : (identApply regions ring s).sec = s.sec := by
  unfold identApply
  dsimp only
  repeat' split
  all_goals simp

@[simp] theorem swapEnd_sec (s : State) : (swapEnd s).sec = s.sec := by simp [swapEnd]

@[simp] theorem swapCheck_sec (s : State) : (swapCheck s).sec = s.sec := by simp [swapCheck, apply_ite State.sec]

@[simp] theorem swapAsk_sec (scope : Nat) (regions : List Nat) (s : State) : (swapAsk scope regions s).sec = s.sec := by simp [swapAsk, apply_ite State.sec]

@[simp] theorem opSwapEdge_sec (s : State) : (opSwapEdge s).sec = s.sec := by simp [opSwapEdge, apply_ite State.sec]

@[simp] theorem opRepreload_sec (n : Nat) (s : State) : (opRepreload n s).sec = s.sec := by
  unfold opRepreload
  split
  · rfl
  · have h1 : (if (s.reg (Reg.cfgRact n)).getLsbD 35 then contentLoad (fld (s.reg (Reg.cfgRact n)) 34 33) n s else (false, s)).2.sec = s.sec := by
      split
      · exact contentLoad_sec _ _ _
      · rfl
    dsimp only
    generalize (if (s.reg (Reg.cfgRact n)).getLsbD 35 then contentLoad (fld (s.reg (Reg.cfgRact n)) 34 33) n s else (false, s)) = r at h1
    have h2 : (if r.1 then padsPreload n (regionPreload n r.2) else raise 0x307 0 n (fifoCarry n (lutCarry n { r.2 with fab := s.fab }))).sec = s.sec := by
      split
      · rw [padsPreload_sec, regionPreload_sec, h1]
      · rw [raise_sec, fifoCarry_sec, lutCarry_sec]; exact h1
    generalize (if r.1 then padsPreload n (regionPreload n r.2) else raise 0x307 0 n (fifoCarry n (lutCarry n { r.2 with fab := s.fab }))) = u at h2
    have h3 : (laneRestart n (u.setRg n { u.rg n with repre := false })).sec = s.sec := by
      rw [laneRestart_sec, State.setRg_sec, h2]
    generalize laneRestart n (u.setRg n { u.rg n with repre := false }) = w at h3
    split <;> split <;> (try rw [State.setSw_sec]) <;> (try rw [govAsk_sec]) <;> exact h3

@[simp] theorem swapFullRate_sec (regions : List Nat) (s : State) : (swapFullRate regions s).sec = s.sec := by simp [swapFullRate]

@[simp] theorem opEdgeLo_sec (who : Req) (s : State) : (opEdgeLo who s).sec = s.sec := by simp [opEdgeLo]

@[simp] theorem swapCmd_sec (who : Req) (v : Word) (op : Nat) (s : State) : (swapCmd who v op s).sec = s.sec := by simp [swapCmd]

/-! ### Region -/

@[simp] theorem rgnGovDrop_sec (n : Nat) (s : State) : (rgnGovDrop n s).sec = s.sec := by simp [rgnGovDrop]

@[simp] theorem rgnQuarantine_sec (n cause : Nat) (s : State) : (rgnQuarantine n cause s).sec = s.sec := by simp [rgnQuarantine]

@[simp] theorem rgnResetStart_sec (n : Nat) (s : State) : (rgnResetStart n s).sec = s.sec := by simp [rgnResetStart]

@[simp] theorem slotKnown_sec (slot : Nat) (s : State) : (slotKnown slot s).2.sec = s.sec := by
  unfold slotKnown
  dsimp only
  repeat' split
  all_goals simp

@[simp] theorem frameStore_sec (n col minor : Nat) (ws : List Word) (s : State) : (frameStore n col minor ws s).sec = s.sec := by simp [frameStore, apply_ite State.sec]

@[simp] theorem rgnReload_sec (slot n : Nat) (s : State) : (rgnReload slot n s).2.2.sec = s.sec := by
  unfold rgnReload
  generalize (List.range 29).flatMap (fun c => (List.range (allMinors n c)).map (fun m => (c, m))) = l
  suffices h : ∀ (r : Bool × List (Nat × Nat × List Word) × State), (l.foldl (fun r f =>
    if !r.1 then r
    else match slotFrame slot n f.1 f.2 r.2.2 with
      | (some ws, t) => (true, if isLutFrame f.1 f.2 then r.2.1 ++ [(f.1, f.2, ws)] else r.2.1, frameStore n f.1 f.2 ws t)
      | (none, t) => (false, r.2.1, t)) r).2.2.sec = r.2.2.sec from h _
  intro r
  induction l generalizing r with
  | nil => rfl
  | cons f l ih =>
    rw [List.foldl_cons, ih]
    split
    · rfl
    · have h := slotFrame_sec slot n f.1 f.2 r.2.2
      split <;> rename_i e <;> rw [e] at h
      · rw [frameStore_sec]; exact h
      · exact h

@[simp] theorem lutPreload_sec (n : Nat) (frames : List (Nat × Nat × List Word)) (s : State) : (lutPreload n frames s).sec = s.sec := by simp [lutPreload]

@[simp] theorem stFirst_sec (n : Nat) (s : State) : (stFirst n s).sec = s.sec := by simp [stFirst]

@[simp] theorem rgnReleased_sec (n slot : Nat) (s : State) : (rgnReleased n slot s).sec = s.sec := by simp [rgnReleased, apply_ite State.sec]

@[simp] theorem rgnResetFailed_sec (n : Nat) (s : State) : (rgnResetFailed n s).sec = s.sec := by simp [rgnResetFailed]

@[simp] theorem opRgnRelease_sec (n : Nat) (s : State) : (opRgnRelease n s).sec = s.sec := by
  unfold opRgnRelease
  split
  · rfl
  · dsimp only
    have h : (if (slotKnown (rgnSlot s n) s).1 then rgnReload (rgnSlot s n) n (slotKnown (rgnSlot s n) s).2
        else (false, [], (slotKnown (rgnSlot s n) s).2)).2.2.sec = s.sec := by
      split
      · rw [rgnReload_sec, slotKnown_sec]
      · exact slotKnown_sec _ _
    generalize (if (slotKnown (rgnSlot s n) s).1 then rgnReload (rgnSlot s n) n (slotKnown (rgnSlot s n) s).2
        else (false, [], (slotKnown (rgnSlot s n) s).2)) = r at h
    split
    · rw [rgnReleased_sec, lutPreload_sec, h]
    · rw [rgnResetFailed_sec, h]

@[simp] theorem logAck_sec (n : Nat) (s : State) : (logAck n s).sec = s.sec := by simp [logAck]

@[simp] theorem opRgnCmd_sec (n : Nat) (v : Word) (s : State) : (opRgnCmd n v s).sec = s.sec := by simp [opRgnCmd, apply_ite State.sec]

@[simp] theorem opRgnLog_sec (n : Nat) (peek : Bool) (s : State) : (opRgnLog n peek s).sec = s.sec := by
  unfold opRgnLog
  repeat' split
  all_goals simp

/-! ### Calender -/

@[simp] theorem wordReport_sec (kind bit key : Nat) (code : Code) (s : State) : (wordReport kind bit key code s).sec = s.sec := by simp [wordReport, apply_ite State.sec]

@[simp] theorem wordCorrect_sec (kind key : Nat) (w : Word) (code : Code) (s : State) : (wordCorrect kind key w code s).sec = s.sec := by simp [wordCorrect, apply_ite State.sec]

@[simp] theorem scrubWord_sec (lane key : Nat) (s : State) : (scrubWord lane key s).2.sec = s.sec := by
  unfold scrubWord
  dsimp only
  split <;> simp

theorem lanesFresh_sec (l : List Nat) (s : State) : (forAll l (fun l s =>
    s.setLane l { s.lane l with ended := false, fresh := (s.lane l).b.vote.count == 0 && (s.lane l).a.vote.count == 0 }) s).sec = s.sec := by
  refine forAll_sec l _ ?_ s
  intro _ _
  rfl

theorem passStamp_sec (s : State) (c : Cal) (e : Nat) (v : Word) :
    ({ (s.setF Reg.calPassTime 19 0 e).setReg Reg.calPassCount v with cal := c } : State).sec = s.sec := by
  simp only [State.setReg_sec, State.setF_sec]

@[simp] theorem chipPass_sec (s : State) : (chipPass s).sec = s.sec := by
  have h (c : Bool) (a : State) (h : a.sec = s.sec) : (if c then a else s).sec = s.sec := by cases c <;> [rfl; exact h]
  exact h _ _ ((passStamp_sec _ _ _ _).trans (lanesFresh_sec _ s))

@[simp] theorem passEnd_sec (lane : Nat) (s : State) : (passEnd lane s).sec = s.sec := by simp [passEnd]

@[simp] theorem mmResolve_sec (lane : Nat) (a b : CalCopy) (s : State) : (mmResolve lane a b s).2.sec = s.sec := by simp [mmResolve, apply_ite State.sec]

@[simp] theorem mmReport_sec (r : Nat × Nat) (s : State) : (mmReport r s).sec = s.sec := by simp [mmReport, apply_ite State.sec]

@[simp] theorem mmInjected_sec (r : Nat × Nat) (s : State) : (mmInjected r s).sec = s.sec := by simp [mmInjected]

theorem cal_sec (s : State) (x : Cal) : ({ s with cal := x } : State).sec = s.sec := rfl

@[simp] theorem frameEnd_sec (lane : Nat) (s : State) : (frameEnd lane s).2.sec = s.sec := by
  have hv := laneVote_sec lane s
  unfold frameEnd
  generalize laneVote lane s = u at hv
  dsimp only
  split
  · exact (mmResolve_sec _ _ _ _).trans hv
  · split
    · rw [cal_sec, mmInjected_sec, mmResolve_sec, hv]
    · dsimp only
      split
      · rw [passEnd_sec, State.setLane_sec, hv]
      · rw [State.setLane_sec, hv]

@[simp] theorem laneScrub_sec (lane : Nat) (s : State) : (laneScrub lane s).2.sec = s.sec := by
  unfold laneScrub
  dsimp only
  repeat' split
  all_goals simp

@[simp] theorem mirrorFix_sec (key : Nat) (s : State) : (mirrorFix key s).sec = s.sec := by
  unfold mirrorFix
  split <;> simp

@[simp] theorem repairWrite_sec (key : Nat) (v : Word) (s : State) : (repairWrite key v s).sec = s.sec := by simp [repairWrite, apply_ite State.sec]

@[simp] theorem repairDone_sec (e : Repair) (s : State) : (repairDone e s).sec = s.sec := by simp [repairDone]

@[simp] theorem repairFail_sec (e : Repair) (cause : Nat) (s : State) : (repairFail e cause s).sec = s.sec := by simp [repairFail, apply_ite State.sec]

@[simp] theorem repairSet_sec (e f : Repair) (s : State) : (repairSet e f s).sec = s.sec := by simp [repairSet]

@[simp] theorem repairClean_sec (e : Repair) (s : State) : (repairClean e s).sec = s.sec := by simp [repairClean, apply_ite State.sec]

@[simp] theorem repairReread_sec (e : Repair) (s : State) : (repairReread e s).sec = s.sec := by
  unfold repairReread
  dsimp only
  repeat' split
  all_goals simp

@[simp] theorem opRepair_sec (lane : Nat) (s : State) : (opRepair lane s).sec = s.sec := by
  unfold opRepair
  repeat' split
  all_goals simp

@[simp] theorem opRepairFetch_sec (lane : Nat) (s : State) : (opRepairFetch lane s).sec = s.sec := by
  unfold opRepairFetch
  dsimp only
  repeat' split
  all_goals simp

@[simp] theorem opRepairTimeout_sec (lane : Nat) (s : State) : (opRepairTimeout lane s).sec = s.sec := by
  unfold opRepairTimeout
  repeat' split
  all_goals simp

@[simp] theorem laneRead_sec (lane : Nat) (s : State) : (laneRead lane s).2.sec = s.sec := by
  unfold laneRead
  repeat' split
  all_goals simp

@[simp] theorem opScrub_sec (lanes : List Nat) (s : State) : (opScrub lanes s).sec = s.sec := by
  unfold opScrub
  dsimp only
  split <;> simp

@[simp] theorem readbackOut_sec (w : Word) (s : State) : (readbackOut w s).sec = s.sec := by
  unfold readbackOut
  repeat' split
  all_goals simp

@[simp] theorem rbGive_sec (w : Word) (unc : Bool) (s : State) : (rbGive w unc s).2.sec = s.sec := by simp [rbGive]

@[simp] theorem readbackWord_sec (key : Nat) (s : State) : (readbackWord key s).2.sec = s.sec := by
  unfold readbackWord
  dsimp only
  repeat' split
  all_goals simp

@[simp] theorem readbackStep_sec (j : Nat) (s : State) : (readbackStep j s).sec = s.sec := by simp [readbackStep, apply_ite State.sec]

@[simp] theorem opReadback_sec (s : State) : (opReadback s).sec = s.sec := by
  unfold opReadback
  dsimp only
  repeat' split
  all_goals simp

@[simp] theorem opCalCmd_sec (v : Word) (s : State) : (opCalCmd v s).sec = s.sec := by simp [opCalCmd, apply_ite State.sec]

end Sys2Proof.Machine
end

