-- ==== Sys2Proof/Laws/SecMesh.lean ====
section
/-! SUPPORT. What mesh, debug and boot leave of the security store: `_sec` lemmas say that it is unchanged, `_secOk` lemmas that it stays sound. -/

namespace Sys2Proof.Machine

/-! ### Disc -/

@[simp] theorem msgSend_sec (p svc : Nat) (fs : List (Nat × Nat)) (s : State) : (msgSend p svc fs s).sec = s.sec := by simp [msgSend, apply_ite State.sec]

@[simp] theorem helloTo_sec (p : Nat) (s : State) : (helloTo p s).sec = s.sec := by simp [helloTo]

@[simp] theorem setDisc_sec (d : Disc) (s : State) : (setDisc d s).sec = s.sec := by simp [setDisc]

@[simp] theorem lsaStore_sec (l : Lsa) (s : State) : (lsaStore l s).sec = s.sec := by simp [lsaStore]

@[simp] theorem lsaFlood_sec (except : Option Nat) (l : Lsa) (s : State) : (lsaFlood except l s).sec = s.sec := by simp [lsaFlood]

@[simp] theorem lsaRefresh_sec (s : State) : (lsaRefresh s).sec = s.sec := by simp [lsaRefresh, apply_ite State.sec]

@[simp] theorem electFlood_sec (s : State) : (electFlood s).sec = s.sec := by simp [electFlood]

@[simp] theorem epochTake_sec (e : BitVec 16) (s : State) : (epochTake e s).sec = s.sec := by simp [epochTake, apply_ite State.sec]

@[simp] theorem discStart_sec (cause : Nat) (s : State) : (discStart cause s).sec = s.sec := by simp [discStart, apply_ite State.sec]

@[simp] theorem epochMeet_sec (e : BitVec 16) (s : State) : (epochMeet e s).2.sec = s.sec := by
  unfold epochMeet
  split <;> simp

@[simp] theorem addrTake_sec (a : BitVec 10) (s : State) : (addrTake a s).sec = s.sec := by simp [addrTake, apply_ite State.sec]

@[simp] theorem assignDown_sec (count : Nat) (given : List AssignEntry) (s : State) : (assignDown count given s).sec = s.sec := by simp [assignDown]

@[simp] theorem addressed_sec (count : Nat) (given : List AssignEntry) (s : State) : (addressed count given s).sec = s.sec := by
  unfold addressed
  split <;> simp

@[simp] theorem rootAssign_sec (s : State) : (rootAssign s).sec = s.sec := by simp [rootAssign]

@[simp] theorem echoCheck_sec (s : State) : (echoCheck s).sec = s.sec := by
  unfold echoCheck
  dsimp only
  repeat' split
  all_goals simp

@[simp] theorem electTake_sec (p : Fin 8) (prio : BitVec 8) (w : BitVec 64) (dist : BitVec 7) (s : State) : (electTake p prio w dist s).sec = s.sec := by simp [electTake, apply_ite State.sec]

@[simp] theorem opElect_sec (p : Fin 8) (e : BitVec 16) (prio : BitVec 8) (w : BitVec 64) (dist : BitVec 7) (s : State) : (opElect p e prio w dist s).sec = s.sec := by simp [opElect, apply_ite State.sec]

@[simp] theorem opEcho_sec (p : Fin 8) (e : BitVec 16) (es : List EchoEntry) (s : State) : (opEcho p e es s).sec = s.sec := by simp [opEcho, apply_ite State.sec]

@[simp] theorem opAssign_sec (p : Fin 8) (e : BitVec 16) (count : BitVec 11) (given : List AssignEntry) (s : State) : (opAssign p e count given s).sec = s.sec := by simp [opAssign, apply_ite State.sec]

@[simp] theorem opLsa_sec (p : Fin 8) (l : Lsa) (s : State) : (opLsa p l s).sec = s.sec := by simp [opLsa, apply_ite State.sec]

@[simp] theorem timeReady_sec (s : State) : (timeReady s).sec = s.sec := by
  unfold timeReady
  dsimp only
  repeat' split
  all_goals simp

@[simp] theorem becomeReady_sec (root count diam : Nat) (s : State) : (becomeReady root count diam s).sec = s.sec := by simp [becomeReady, apply_ite State.sec]

@[simp] theorem readyDown_sec (root count diam : Nat) (s : State) : (readyDown root count diam s).sec = s.sec := by simp [readyDown]

@[simp] theorem doneCheck_sec (s : State) : (doneCheck s).sec = s.sec := by
  unfold doneCheck
  dsimp only
  repeat' split
  all_goals simp

@[simp] theorem opDone_sec (p : Fin 8) (e : BitVec 16) (s : State) : (opDone p e s).sec = s.sec := by simp [opDone, apply_ite State.sec]

@[simp] theorem opReady_sec (p : Fin 8) (e : BitVec 16) (root : BitVec 10) (count : BitVec 11) (diam : BitVec 7) (s : State) : (opReady p e root count diam s).sec = s.sec := by simp [opReady, apply_ite State.sec]

@[simp] theorem tableEntry_sec (fs : List FirstHop) (a : Nat) (s : State) : (tableEntry fs a s).sec = s.sec := by
  unfold tableEntry
  repeat' split
  all_goals simp

@[simp] theorem tableFull_sec (ls : List Lsa) (s : State) : (tableFull ls s).sec = s.sec := by simp [tableFull]

@[simp] theorem nodeRefused_sec (diam : Nat) (s : State) : (nodeRefused diam s).sec = s.sec := by simp [nodeRefused]

@[simp] theorem refusedPorts_sec (refused : List (BitVec 10)) (s : State) : (refusedPorts refused s).sec = s.sec := by simp [refusedPorts, apply_ite State.sec]

@[simp] theorem routesFirst_sec (s : State) : (routesFirst s).sec = s.sec := by
  unfold routesFirst
  generalize (1024 : Nat) = n
  dsimp only
  split
  · exact nodeRefused_sec _ _
  · split
    · rw [raise_sec, becomeReady_sec, setDisc_sec, tableFull_sec, refusedPorts_sec]
    · rw [doneCheck_sec, setDisc_sec, tableFull_sec, refusedPorts_sec]

@[simp] theorem nodeDeparts_sec (a : Nat) (s : State) : (nodeDeparts a s).sec = s.sec := by simp [nodeDeparts, apply_ite State.sec]

@[simp] theorem routeKeep_sec (fs : List FirstHop) (a : Nat) (s : State) : (routeKeep fs a s).sec = s.sec := by
  unfold routeKeep
  repeat' split
  all_goals simp

@[simp] theorem routesAgain_sec (s : State) : (routesAgain s).sec = s.sec := by
  unfold routesAgain
  dsimp only
  split <;> (try rw [discStart_sec]) <;> rw [State.setF_sec, setDisc_sec, forAll_sec _ _ nodeDeparts_sec, forAll_sec _ _ (routeKeep_sec _)]

@[simp] theorem opRoutes_sec (s : State) : (opRoutes s).sec = s.sec := by simp [opRoutes, apply_ite State.sec]

@[simp] theorem joinReply_sec (q svc : Nat) (fs : List (Nat × Nat)) (s : State) : (joinReply q svc fs s).sec = s.sec := by simp [joinReply, apply_ite State.sec]

@[simp] theorem joinServe_sec (q : Nat) (h : Hello) (req : Option (BitVec 10)) (links : List LsaLink) (s : State) : (joinServe q h req links s).sec = s.sec := by
  unfold joinServe
  dsimp only
  repeat' split
  all_goals simp

@[simp] theorem joinAt_sec (p : Nat) (h : Hello) (links : List LsaLink) (s : State) : (joinAt p h links s).sec = s.sec := by simp [joinAt, apply_ite State.sec]

@[simp] theorem opJoin_sec (p : Fin 8) (h : Hello) (links : List LsaLink) (s : State) : (opJoin p h links s).sec = s.sec := by simp [opJoin, apply_ite State.sec]

@[simp] theorem opJoinAck_sec (p : Fin 8) (a : BitVec 10) (root : BitVec 64) (e : BitVec 16) (count : BitVec 11) (s : State) : (opJoinAck p a root e count s).sec = s.sec := by
  unfold opJoinAck
  dsimp only
  repeat' split
  all_goals simp

@[simp] theorem opRefuse_sec (p : Fin 8) (diam : BitVec 7) (s : State) : (opRefuse p diam s).sec = s.sec := by
  unfold opRefuse
  dsimp only
  repeat' split
  all_goals simp

@[simp] theorem helloFirst_sec (p : Fin 8) (h : Hello) (s : State) : (helloFirst p h s).sec = s.sec := by simp [helloFirst, apply_ite State.sec]

@[simp] theorem opHello_sec (p : Fin 8) (h : Hello) (s : State) : (opHello p h s).sec = s.sec := by simp [opHello, apply_ite State.sec]

@[simp] theorem opHelloSend_sec (s : State) : (opHelloSend s).sec = s.sec := by simp [opHelloSend]

@[simp] theorem discActive_sec (p : Nat) (s : State) : (discActive p s).sec = s.sec := by simp [discActive, apply_ite State.sec]

@[simp] theorem discLost_sec (s : State) : (discLost s).sec = s.sec := by simp [discLost]

@[simp] theorem opFnStopped_sec (f : Func) (s : State) : (opFnStopped f s).sec = s.sec := by
  unfold opFnStopped
  split <;> simp

@[simp] theorem opNbrTimeout_sec (p : Fin 8) (s : State) : (opNbrTimeout p s).sec = s.sec := by simp [opNbrTimeout, apply_ite State.sec]

@[simp] theorem opHoldExpiry_sec (a : BitVec 10) (s : State) : (opHoldExpiry a s).sec = s.sec := by simp [opHoldExpiry, apply_ite State.sec]

@[simp] theorem opMshCmd_sec (v : Word) (s : State) : (opMshCmd v s).sec = s.sec := by simp [opMshCmd, apply_ite State.sec]

/-! ### Links -/

@[simp] theorem trainNext_sec (p l : Nat) (s : State) : (trainNext p l s).sec = s.sec := by simp [trainNext, apply_ite State.sec]

@[simp] theorem opCalibration_sec (p : Fin 8) (ok : Bool) (s : State) : (opCalibration p ok s).sec = s.sec := by simp [opCalibration, apply_ite State.sec]

@[simp] theorem opParam_sec (p : Fin 8) (nbrPort : BitVec 3) (w : BitVec 64) (s : State) : (opParam p nbrPort w s).sec = s.sec := by simp [opParam, apply_ite State.sec]

@[simp] theorem opTrainTimeout_sec (p : Fin 8) (lanes : BitVec 4) (s : State) : (opTrainTimeout p lanes s).sec = s.sec := by simp [opTrainTimeout, apply_ite State.sec]

@[simp] theorem opTrainRetry_sec (p : Fin 8) (s : State) : (opTrainRetry p s).sec = s.sec := by simp [opTrainRetry, apply_ite State.sec]

@[simp] theorem linkLost_sec (p cause : Nat) (s : State) : (linkLost p cause s).sec = s.sec := by simp [linkLost, apply_ite State.sec]

@[simp] theorem replayCount_sec (p : Nat) (s : State) : (replayCount p s).sec = s.sec := by simp [replayCount, apply_ite State.sec]

@[simp] theorem replayStart_sec (p : Nat) (s : State) : (replayStart p s).sec = s.sec := by simp [replayStart, apply_ite State.sec]

@[simp] theorem linkError_sec (p : Nat) (s : State) : (linkError p s).sec = s.sec := by simp [linkError]

@[simp] theorem opAck_sec (p : Nat) (w : Word) (s : State) : (opAck p w s).sec = s.sec := by simp [opAck, apply_ite State.sec]

@[simp] theorem opCredit_sec (p : Nat) (w : Word) (s : State) : (opCredit p w s).sec = s.sec := by simp [opCredit, apply_ite State.sec]

@[simp] theorem opReplayTimeout_sec (p : Nat) (s : State) : (opReplayTimeout p s).sec = s.sec := by simp [opReplayTimeout, apply_ite State.sec]

@[simp] theorem freeUnits_sec (p vc n : Nat) (s : State) : (freeUnits p vc n s).sec = s.sec := by simp [freeUnits]

@[simp] theorem rxNak_sec (p : Nat) (ws : List Word) (s : State) : (rxNak p ws s).sec = s.sec := by simp [rxNak, apply_ite State.sec]

@[simp] theorem opReceive_sec (p : Nat) (ws : List Word) (s : State) : (opReceive p ws s).sec = s.sec := by simp [opReceive, apply_ite State.sec]

@[simp] theorem opRstart_sec (p : Nat) (s : State) : (opRstart p s).sec = s.sec := by simp [opRstart, apply_ite State.sec]

@[simp] theorem opForward_sec (p : Option (Fin 8)) (k : Packet) (s : State) : (opForward p k s).sec = s.sec := by
  unfold opForward
  repeat' split
  all_goals simp

/-! ### Services -/

@[simp] theorem rraEnd_sec (result reason : Nat) (s : State) : (rraEnd result reason s).sec = s.sec := by simp [rraEnd]

@[simp] theorem rraDone_sec (result reason : Nat) (s : State) : (rraDone result reason s).sec = s.sec := by simp [rraDone]

@[simp] theorem opRraCmd_sec (v : Word) (s : State) : (opRraCmd v s).sec = s.sec := by simp [opRraCmd, apply_ite State.sec]

@[simp] theorem opRraRsp_sec (result reason : BitVec 4) (data : Word) (s : State) : (opRraRsp result reason data s).sec = s.sec := by simp [opRraRsp, apply_ite State.sec]

@[simp] theorem opRraTimeout_sec (s : State) : (opRraTimeout s).sec = s.sec := by simp [opRraTimeout, apply_ite State.sec]

@[simp] theorem opEngReq_sec (src : BitVec 10) (sreq : BitVec 4) (stag : BitVec 6) (q : Quad) (s : State) : (opEngReq src sreq stag q s).sec = s.sec := by simp [opEngReq, apply_ite State.sec]

@[simp] theorem opEngRsp_sec (sreq : BitVec 4) (stag : BitVec 6) (rsp : Quad) (s : State) : (opEngRsp sreq stag rsp s).sec = s.sec := by
  unfold opEngRsp
  dsimp only
  repeat' split
  all_goals simp

theorem pushCount_sec (o : Option Nat) (s : State) : (pushCount o s).2.sec = s.sec := by cases o <;> rfl

@[simp] theorem pushLength_sec (slot : Nat) (s : State) : (pushLength slot s).2.sec = s.sec :=
  (pushCount_sec _ _).trans (slotWords_sec _ _ _ _)

@[simp] theorem pushOne_sec (s : State) : (pushOne s).sec = s.sec := by
  unfold pushOne
  dsimp only
  split
  · rfl
  · rw [meshSend_sec]
    split <;> exact slotWords_sec _ _ _ _

@[simp] theorem pushSend_sec (s : State) : (pushSend s).sec = s.sec := by simp [pushSend]

@[simp] theorem pushStart_sec (slot : Fin 4) (dest : BitVec 10) (s : State) : (pushStart slot dest s).sec = s.sec := by simp [pushStart]

@[simp] theorem pushAbort_sec (s : State) : (pushAbort s).sec = s.sec := by simp [pushAbort, apply_ite State.sec]

@[simp] theorem opPushCmd_sec (v : Word) (s : State) : (opPushCmd v s).sec = s.sec := by simp [opPushCmd, apply_ite State.sec]

@[simp] theorem opImgAck_sec (n : BitVec 25) (s : State) : (opImgAck n s).sec = s.sec := by simp [opImgAck, apply_ite State.sec]

@[simp] theorem opImgResult_sec (code : Code) (s : State) : (opImgResult code s).sec = s.sec := by simp [opImgResult, apply_ite State.sec]

@[simp] theorem opImgRb_sec (n : Nat) (s : State) : (opImgRb n s).sec = s.sec := by simp [opImgRb]

@[simp] theorem opPushTimeout_sec (s : State) : (opPushTimeout s).sec = s.sec := by simp [opPushTimeout]

@[simp] theorem opImgData_sec (src : BitVec 10) (first abort : Bool) (ws : List Word) (s : State) : (opImgData src first abort ws s).sec = s.sec := by simp [opImgData, apply_ite State.sec]

@[simp] theorem setStx_sec (k : Nat) (t : St) (s : State) : (setStx k t s).sec = s.sec := by simp [setStx]

@[simp] theorem stSend_sec (k : Nat) (s : State) : (stSend k s).sec = s.sec := by simp [stSend]

@[simp] theorem opStTx_sec (k : Fin 8) (q : Quad) (dest : BitVec 13) (last : Bool) (s : State) : (opStTx k q dest last s).sec = s.sec := by simp [opStTx, apply_ite State.sec]

@[simp] theorem stLost_sec (k : Nat) (src : BitVec 10) (dropped : Bool) (s : State) : (stLost k src dropped s).sec = s.sec := by simp [stLost, apply_ite State.sec]

@[simp] theorem opUser_sec (src : BitVec 10) (srcIf dstIf : BitVec 3) (first : Bool) (seq : BitVec 8) (ts : List Quad) (s : State) : (opUser src srcIf dstIf first seq ts s).sec = s.sec := by simp [opUser, apply_ite State.sec]

@[simp] theorem opStRx_sec (k : Fin 8) (s : State) : (opStRx k s).sec = s.sec := by
  unfold opStRx
  repeat' split
  all_goals simp

@[simp] theorem opTimeSend_sec (seq : BitVec 8) (s : State) : (opTimeSend seq s).sec = s.sec := by simp [opTimeSend, apply_ite State.sec]

@[simp] theorem opTimeRequest_sec (p : Fin 8) (seq : BitVec 8) (s : State) : (opTimeRequest p seq s).sec = s.sec := by simp [opTimeRequest]

@[simp] theorem timeHoldover_sec (s : State) : (timeHoldover s).sec = s.sec := by
  unfold timeHoldover
  dsimp only
  repeat' split
  all_goals simp

@[simp] theorem timeSlew_sec (s : State) : (timeSlew s).sec = s.sec := by simp [timeSlew]

@[simp] theorem timeLock_sec (s : State) : (timeLock s).sec = s.sec := by simp [timeLock, apply_ite State.sec]

@[simp] theorem opTimeReply_sec (t2 t3 t4 : BitVec 64) (s : State) : (opTimeReply t2 t3 t4 s).sec = s.sec := by simp [opTimeReply, apply_ite State.sec]

@[simp] theorem opTimeMissed_sec (s : State) : (opTimeMissed s).sec = s.sec := by simp [opTimeMissed, apply_ite State.sec]

@[simp] theorem opTimeSet_sec (v : Word) (s : State) : (opTimeSet v s).sec = s.sec := by simp [opTimeSet, apply_ite State.sec]

@[simp] theorem opNodeCfg_sec (v : Word) (s : State) : (opNodeCfg v s).sec = s.sec := by simp [opNodeCfg, apply_ite State.sec]

/-! ### Debug -/

@[simp] theorem dbgRefuse_sec (ir : Nat) (addr : Nat) (s : State) : (dbgRefuse ir addr s).sec = s.sec := by simp [dbgRefuse]

@[simp] theorem setIr_sec (code : Nat) (s : State) : (setIr code s).sec = s.sec := by simp [setIr]

@[simp] theorem setCapture_sec (v : BitVec 2160) (s : State) : (setCapture v s).sec = s.sec := by simp [setCapture]

@[simp] theorem irSelect_sec (code : Nat) (s : State) : (irSelect code s).sec = s.sec := by
  unfold irSelect
  repeat' split
  all_goals simp

theorem tap_secOk (code : Nat) (op : State → State) (s : State) (h0 : ∀ s, s.sec.ok → (op s).sec.ok) (hs : s.sec.ok) : (tap code op s).sec.ok := by simp [tap, apply_ite State.sec, apply_ite Sec.ok, *]

@[simp] theorem tap_sec (code : Nat) (op : State → State) (s : State) (h0 : ∀ s, (op s).sec = s.sec) : (tap code op s).sec = s.sec := by simp [tap, apply_ite State.sec, *]

@[simp] theorem boundaryScan_sec (dr : BitVec 2160) (s : State) : (boundaryScan dr s).sec = s.sec := by simp [boundaryScan]

@[simp] theorem dtmcsScan_sec (s : State) : (dtmcsScan s).sec = s.sec := by simp [dtmcsScan]

@[simp] theorem coreResume_sec (s : State) : (coreResume s).sec = s.sec := by simp [coreResume, apply_ite State.sec]

@[simp] theorem opHalt_sec (s : State) : (opHalt s).sec = s.sec := by simp [opHalt, apply_ite State.sec]

@[simp] theorem opResume_sec (s : State) : (opResume s).sec = s.sec := by simp [opResume, apply_ite State.sec]

@[simp] theorem detached_sec (s : State) : (detached s).sec = s.sec := by simp [detached, apply_ite State.sec]

@[simp] theorem dbgChange_sec (old s : State) : (dbgChange old s).sec = s.sec := by simp [dbgChange, apply_ite State.sec]

@[simp] theorem setDmactive_sec (b : Bool) (s : State) : (setDmactive b s).sec = s.sec := by simp [setDmactive]

@[simp] theorem csrWrite_sec (n : Nat) (v : BitVec 32) (s : State) : (csrWrite n v s).sec = s.sec := by simp [csrWrite, apply_ite State.sec]

@[simp] theorem setCmderr_sec (e : Nat) (s : State) : (setCmderr e s).sec = s.sec := by simp [setCmderr, apply_ite State.sec]

@[simp] theorem opAbstract_sec (write : Bool) (regno : Nat) (s : State) : (opAbstract write regno s).sec = s.sec := by simp [opAbstract, apply_ite State.sec]

@[simp] theorem chalIssue_sec (level : Nat) (s : State) : (chalIssue level s).sec = s.sec := by simp [chalIssue]

@[simp] theorem newChal_sec (level : Nat) (s : State) : (newChal level s).sec = s.sec := by simp [newChal, apply_ite State.sec]

@[simp] theorem authFail_sec (level : Nat) (s : State) : (authFail level s).sec = s.sec := by simp [authFail, apply_ite State.sec]

@[simp] theorem chalFail_sec (level : Nat) (s : State) : (chalFail level s).sec = s.sec := by simp [chalFail]

@[simp] theorem chalCheck_sec (req : Nat) (s : State) : (chalCheck req s).sec = s.sec := by simp [chalCheck, apply_ite State.sec]

@[simp] theorem levelDrop_sec (s : State) : (levelDrop s).sec = s.sec := by simp [levelDrop]

@[simp] theorem opAuthCmd_sec (who : Req) (v : Word) (s : State) : (opAuthCmd who v s).sec = s.sec := by simp [opAuthCmd, apply_ite State.sec]

@[simp] theorem wdtExpire_sec (cause : Nat) (s : State) : (wdtExpire cause s).sec = s.sec := by simp [wdtExpire]

@[simp] theorem wdtRefresh_sec (s : State) : (wdtRefresh s).sec = s.sec := by simp [wdtRefresh, apply_ite State.sec]

@[simp] theorem opKick_sec (who : Req) (v : Word) (s : State) : (opKick who v s).sec = s.sec := by simp [opKick, apply_ite State.sec]

/-! ### Boot -/

@[simp] theorem safeMapLoad_sec (ws : List Word) (s : State) : (safeMapLoad ws s).sec = s.sec := by simp [safeMapLoad, apply_ite State.sec]

@[simp] theorem blockApply_sec (twin : Bool) (ws : List Word) (s : State) : (blockApply twin ws s).sec = s.sec := by simp [blockApply]

@[simp] theorem twinNamed_sec (s : State) : (twinNamed s).2.sec = s.sec := by
  unfold twinNamed
  split <;> simp

@[simp] theorem twinTry_sec (b : Bool) (s : State) : (twinTry b s).2.sec = s.sec := by simp [twinTry]

@[simp] theorem twinPick_sec (s : State) : (twinPick s).2.sec = s.sec := by
  unfold twinPick
  dsimp only
  split <;> simp

@[simp] theorem coreStart_sec (s : State) : (coreStart s).sec = s.sec := by simp [coreStart, apply_ite State.sec]

@[simp] theorem calStart_sec (s : State) : (calStart s).sec = s.sec := by simp [calStart]

@[simp] theorem serviceCold_sec (cause : Nat) (s : State) : (serviceCold cause s).sec = s.sec := by simp [serviceCold]

@[simp] theorem noImageHere_sec (detail : Nat) (s : State) : (noImageHere detail s).sec = s.sec := by simp [noImageHere, apply_ite State.sec]

@[simp] theorem slotPresent_sec (slot : Nat) (s : State) : (slotPresent slot s).2.sec = s.sec := by simp [slotPresent]

@[simp] theorem bootEnter_sec (s : State) : (bootEnter s).sec = s.sec := by simp [bootEnter]

@[simp] theorem opBootBlock_sec (s : State) : (opBootBlock s).sec = s.sec := by
  unfold opBootBlock
  dsimp only
  have h : (twinPick ((bootJrnlShow (jrnlBoot s)).setF Reg.pwrBootStatus 3 0 1)).2.sec = s.sec := by
    rw [twinPick_sec, State.setF_sec, bootJrnlShow_sec, jrnlBoot_sec]
  generalize twinPick ((bootJrnlShow (jrnlBoot s)).setF Reg.pwrBootStatus 3 0 1) = r at h
  split
  · rfl
  · split
    · rw [noImageHere_sec, h]
    · split
      · rw [safeMapLoad_sec, blockApply_sec, State.setF_sec, h]
      · split
        · rw [bootEnter_sec, safeMapLoad_sec, blockApply_sec, slotPresent_sec, State.setF_sec, h]
        · rw [noImageHere_sec, State.setF_sec, State.setB_sec, slotPresent_sec, State.setF_sec, h]

@[simp] theorem identRelease_sec (s : State) : (identRelease s).sec = s.sec := by simp [identRelease]

@[simp] theorem releaseBoth_sec (s : State) : (releaseBoth s).sec = s.sec := by simp [releaseBoth]

@[simp] theorem resetNote_sec (s : State) : (resetNote s).sec = s.sec := by
  unfold resetNote
  split <;> simp

@[simp] theorem beaterBoot_sec (s : State) : (beaterBoot s).sec = s.sec := by simp [beaterBoot, apply_ite State.sec]

@[simp] theorem releaseRun_sec (s : State) : (releaseRun s).sec = s.sec := by simp [releaseRun]

@[simp] theorem opGlobalRelease_sec (s : State) : (opGlobalRelease s).sec = s.sec := by simp [opGlobalRelease, apply_ite State.sec]

@[simp] theorem runBegin_sec (cause : Nat) (s : State) : (runBegin cause s).sec = s.sec := by simp [runBegin]

@[simp] theorem exitDone_sec (s : State) : (exitDone s).sec = s.sec := by
  unfold exitDone
  repeat' split
  all_goals simp

@[simp] theorem entryDone_sec (s : State) : (entryDone s).sec = s.sec := by simp [entryDone, apply_ite State.sec]

@[simp] theorem pulseDone_sec (s : State) : (pulseDone s).sec = s.sec := by simp [pulseDone]

@[simp] theorem rampEnd_sec (r : GovReq) (s : State) : (rampEnd r s).sec = s.sec := by
  unfold rampEnd
  split <;> simp

@[simp] theorem opSoftstart_sec (k : Nat) (s : State) : (opSoftstart k s).sec = s.sec := by
  unfold opSoftstart
  split <;> simp

@[simp] theorem bootEnd_sec (s : State) : (bootEnd s).sec = s.sec := by simp [bootEnd]

@[simp] theorem opBankEnable_sec (s : State) : (opBankEnable s).sec = s.sec := by simp [opBankEnable, apply_ite State.sec]

@[simp] theorem opBootPulse_sec (s : State) : (opBootPulse s).sec = s.sec := by
  unfold opBootPulse
  split <;> simp

end Sys2Proof.Machine
end

