-- ==== Sys2Proof/Laws/SecAccess.lean ====
section
/-! SUPPORT. What register accesses and the service port leave of the security store: `_sec` lemmas say that it is unchanged, `_secOk` lemmas that it stays sound. -/

namespace Sys2Proof.Machine

/-! ### RegAccess -/

@[simp] theorem unmapped_sec (who : Req) (s : State) : (unmapped who s).sec = s.sec := by simp [unmapped, apply_ite State.sec]

@[simp] theorem plainRead_sec (who : Req) (peek : Bool) (a : Nat) (s : State) : (plainRead who peek a s).sec = s.sec := by
  unfold plainRead
  repeat' split
  all_goals simp

theorem popRead_sec (who : Req) (peek : Bool) (a : Nat) (op : State → State) (h : popRead who peek a = some op) (s : State) :
    (op s).sec = s.sec := by
  unfold popRead at h
  repeat' split at h
  all_goals cases h <;> simp

@[simp] theorem userRead_sec (who : Req) (peek : Bool) (a : Nat) (s : State) : (userRead who peek a s).sec = s.sec := by
  unfold userRead
  dsimp only
  repeat' split
  all_goals simp

@[simp] theorem readAct_sec (who : Req) (peek : Bool) (a : Nat) (s : State) : (readAct who peek a s).sec = s.sec := by
  unfold readAct
  split
  · exact userRead_sec _ _ _ _
  · split
    · exact unmapped_sec _ _
    · have h : ∀ f, (match popRead who peek a with | some op => op | none => plainRead who peek a) = f → ∀ s, (f s).sec = s.sec := by
        intro f hf s
        split at hf <;> subst hf
        · rename_i h; exact popRead_sec who peek a _ h s
        · exact plainRead_sec _ _ _ _
      dsimp only
      split
      · exact periphOwned_sec _ _ _ _ (h _ rfl)
      · exact h _ rfl s

@[simp] theorem seqTouch_sec (who : Req) (a : Nat) (s : State) : (seqTouch who a s).sec = s.sec := by simp [seqTouch, apply_ite State.sec]

@[simp] theorem regRead_sec (who : Req) (peek : Bool) (a : Nat) (s : State) : (regRead who peek a s).sec = s.sec := by simp [regRead, apply_ite State.sec]

@[simp] theorem plainWrite_sec (a : Nat) (v : Word) (s : State) : (plainWrite a v s).sec = s.sec := by
  unfold plainWrite
  split <;> simp

theorem svcDomWrite_secOk (who : Req) (a : Nat) (v : Word) (s : State) (hs : s.sec.ok) : (svcDomWrite who a v s).sec.ok := by
  have key : ∀ f, svcDomWrite who a v = f → (f s).sec.ok := by
    intro f h
    unfold svcDomWrite at h
    repeat' split at h
    all_goals subst h; simp [hs]
  exact key _ rfl

theorem pinWrite_sec (who : Req) (a : Nat) (v : Word) (s : State) : (pinWrite who a v s).sec = s.sec := by
  have key : ∀ f, pinWrite who a v = f → (f s).sec = s.sec := by
    intro f h
    unfold pinWrite at h
    repeat' split at h
    all_goals subst h; simp
  exact key _ rfl

theorem cfgWrite_sec (who : Req) (a : Nat) (v : Word) (s : State) : (cfgWrite who a v s).sec = s.sec := by
  have key : ∀ f, cfgWrite who a v = f → (f s).sec = s.sec := by
    intro f h
    unfold cfgWrite at h
    repeat' split at h
    all_goals subst h; simp
  exact key _ rfl

theorem flcWrite_sec (a : Nat) (v : Word) (s : State) : (flcWrite a v s).sec = s.sec := by
  have key : ∀ f, flcWrite a v = f → (f s).sec = s.sec := by
    intro f h
    unfold flcWrite at h
    repeat' split at h
    all_goals subst h; simp
  exact key _ rfl

theorem scrRegWrite_sec (who : Req) (a : Nat) (v : Word) (s : State) : (scrRegWrite who a v s).sec = s.sec := by
  have key : ∀ f, scrRegWrite who a v = f → (f s).sec = s.sec := by
    intro f h
    unfold scrRegWrite at h
    repeat' split at h
    all_goals subst h; simp
  exact key _ rfl

theorem rhxWrite_sec (who : Req) (a : Nat) (v : Word) (s : State) : (rhxWrite who a v s).sec = s.sec := by
  have key : ∀ f, rhxWrite who a v = f → (f s).sec = s.sec := by
    intro f h
    unfold rhxWrite at h
    repeat' split at h
    all_goals subst h; simp
  exact key _ rfl

theorem mshWrite_sec (a : Nat) (v : Word) (s : State) : (mshWrite a v s).sec = s.sec := by
  have key : ∀ f, mshWrite a v = f → (f s).sec = s.sec := by
    intro f h
    unfold mshWrite at h
    repeat' split at h
    all_goals subst h; simp
  exact key _ rfl

@[simp] theorem opResp_sec (i : Nat) (who : Req) (v : Word) (s : State) : (opResp i who v s).sec = s.sec := by simp [opResp, apply_ite State.sec]

@[simp] theorem opWdtCfg_sec (v : Word) (s : State) : (opWdtCfg v s).sec = s.sec := by simp [opWdtCfg, apply_ite State.sec]

theorem securityWrite_secOk (who : Req) (a : Nat) (v : Word) (s : State) (hs : s.sec.ok) : (securityWrite who a v s).sec.ok := by
  have key : ∀ f, securityWrite who a v = f → (f s).sec.ok := by
    intro f h
    unfold securityWrite at h
    repeat' split at h
    all_goals subst h; simp [hs]
  exact key _ rfl

theorem rgnWrite_sec (a : Nat) (v : Word) (s : State) : (rgnWrite a v s).sec = s.sec := by
  have key : ∀ f, rgnWrite a v = f → (f s).sec = s.sec := by
    intro f h
    unfold rgnWrite at h
    repeat' split at h
    all_goals subst h; simp
  exact key _ rfl

theorem writeAct_secOk (who : Req) (a : Nat) (v : Word) (s : State) (hs : s.sec.ok) : (writeAct who a v s).sec.ok := by
  have key : ∀ f, writeAct who a v = f → (f s).sec.ok := by
    intro f h
    unfold writeAct at h
    repeat' split at h
    all_goals subst h
    all_goals simp [hs, svcDomWrite_secOk, securityWrite_secOk, pinWrite_sec, cfgWrite_sec, flcWrite_sec, scrRegWrite_sec, rhxWrite_sec, mshWrite_sec, rgnWrite_sec]
  exact key _ rfl

@[simp] theorem userWrite_sec (who : Req) (a : Nat) (v : Word) (s : State) : (userWrite who a v s).sec = s.sec := by
  unfold userWrite
  dsimp only
  repeat' split
  all_goals simp

@[simp] theorem writeGo_secOk (who : Req) (a : Nat) (v : Word) (s : State) (hs : s.sec.ok) : (writeGo who a v s).sec.ok := by
  unfold writeGo
  split
  · rw [userWrite_sec]; exact hs
  · split
    · rw [unmapped_sec]; exact hs
    · split
      · exact periphOwned_secOk _ _ _ _ (fun s h => writeAct_secOk _ _ _ _ h) hs
      · exact writeAct_secOk _ _ _ _ hs

@[simp] theorem regWrite_secOk (who : Req) (a : Nat) (v : Word) (s : State) (hs : s.sec.ok) : (regWrite who a v s).sec.ok := by simp [regWrite, apply_ite State.sec, apply_ite Sec.ok, *]

/-! ### Access -/

@[simp] theorem hifPut_secOk (a : Nat) (ws : List Word) (s : State) (hs : s.sec.ok) : (hifPut a ws s).sec.ok := by
  induction ws generalizing a s with
  | nil => exact hs
  | cons w ws ih => exact ih _ _ (regWrite_secOk _ _ _ _ hs)

@[simp] theorem setPtr_sec (ddr : Bool) (addr : Nat) (s : State) : (setPtr ddr addr s).sec = s.sec := by simp [setPtr, apply_ite State.sec]

@[simp] theorem hifWrite_secOk (ddr : Bool) (bytes : List Byte) (s : State) (hs : s.sec.ok) : (hifWrite ddr bytes s).sec.ok := by
  unfold hifWrite
  dsimp only
  repeat' split
  all_goals simp [*]

@[simp] theorem hifGet_sec (a n : Nat) (s : State) : (hifGet a n s).2.sec = s.sec := by
  induction n generalizing a s with
  | zero => rfl
  | succ n ih => unfold hifGet; dsimp only; rw [ih, regRead_sec]

@[simp] theorem hifRead_sec (n : Nat) (ddr : Bool) (s : State) : (hifRead n ddr s).sec = s.sec := by simp [hifRead]

@[simp] theorem opCoreWrite_secOk (addr : BitVec 32) (w : Width) (data : BitVec 32) (s : State) (hs : s.sec.ok) : (opCoreWrite addr w data s).sec.ok := by simp [opCoreWrite, apply_ite State.sec, apply_ite Sec.ok, *]

@[simp] theorem coreFull_sec (addr : BitVec 32) (f : Word → BitVec 32) (s : State) : (coreFull addr f s).sec = s.sec := by simp [coreFull]

@[simp] theorem opCoreRead_sec (addr : BitVec 32) (w : Width) (s : State) : (opCoreRead addr w s).sec = s.sec := by simp [opCoreRead, apply_ite State.sec]

@[simp] theorem opNibbleRead_sec (addr : BitVec 32) (s : State) : (opNibbleRead addr s).sec = s.sec := by simp [opNibbleRead, apply_ite State.sec]

@[simp] theorem rraAnswer_sec (src : Nat) (write : Bool) (s : State) : (rraAnswer src write s).sec = s.sec := by simp [rraAnswer, apply_ite State.sec]

@[simp] theorem opRraReq_secOk (src : Nat) (write : Bool) (a : Nat) (data : Word) (s : State) (hs : s.sec.ok) : (opRraReq src write a data s).sec.ok := by simp [opRraReq, apply_ite State.sec, apply_ite Sec.ok, *]

@[simp] theorem dbgCapture_sec (s : State) : (dbgCapture s).sec = s.sec := by simp [dbgCapture]

@[simp] theorem dbgAccess_secOk (write : Bool) (a : Nat) (data : Word) (s : State) (hs : s.sec.ok) : (dbgAccess write a data s).sec.ok := by simp [dbgAccess, apply_ite State.sec, apply_ite Sec.ok, *]

@[simp] theorem dbgSettle_sec (s : State) : (dbgSettle s).sec = s.sec := by
  unfold dbgSettle
  split <;> simp

@[simp] theorem sbErr_sec (e : Nat) (s : State) : (sbErr e s).sec = s.sec := by simp [sbErr, apply_ite State.sec]

@[simp] theorem sbDone_sec (f : Word → BitVec 32) (s : State) : (sbDone f s).sec = s.sec := by simp [sbDone, apply_ite State.sec]

@[simp] theorem sbFull_sec (addr : BitVec 32) (f : Word → BitVec 32) (s : State) : (sbFull addr f s).sec = s.sec := by simp [sbFull]

@[simp] theorem sbReadAt_sec (addr : BitVec 32) (s : State) : (sbReadAt addr s).sec = s.sec := by
  unfold sbReadAt
  repeat' split
  all_goals simp

@[simp] theorem sbMerge_sec (addr : BitVec 32) (f : Word → Word) (s : State) : (sbMerge addr f s).sec = s.sec := by simp [sbMerge, apply_ite State.sec]

@[simp] theorem sbWriteAt_secOk (addr data : BitVec 32) (s : State) (hs : s.sec.ok) : (sbWriteAt addr data s).sec.ok := by
  unfold sbWriteAt
  dsimp only
  repeat' split
  all_goals simp [*]

@[simp] theorem sbAccess_secOk (write : Bool) (s : State) (hs : s.sec.ok) : (sbAccess write s).sec.ok := by simp [sbAccess, apply_ite State.sec, apply_ite Sec.ok, *]

@[simp] theorem opSysBus_secOk (write : Bool) (addr data : BitVec 32) (s : State) (hs : s.sec.ok) : (opSysBus write addr data s).sec.ok := by simp [opSysBus, apply_ite State.sec, apply_ite Sec.ok, *]

@[simp] theorem dmiRead_secOk (a : Nat) (s : State) (hs : s.sec.ok) : (dmiRead a s).sec.ok := by simp [dmiRead, apply_ite State.sec, apply_ite Sec.ok, *]

@[simp] theorem dmControl_sec (v : BitVec 32) (s : State) : (dmControl v s).sec = s.sec := by simp [dmControl, apply_ite State.sec]

@[simp] theorem dmCommand_sec (v : BitVec 32) (s : State) : (dmCommand v s).sec = s.sec := by simp [dmCommand, apply_ite State.sec]

@[simp] theorem sbcsWrite_sec (v : BitVec 32) (s : State) : (sbcsWrite v s).sec = s.sec := by simp [sbcsWrite]

@[simp] theorem dmiPut_secOk (a : Nat) (v : BitVec 32) (s : State) (hs : s.sec.ok) : (dmiPut a v s).sec.ok := by
  unfold dmiPut
  dsimp only
  repeat' split
  all_goals simp [*]

@[simp] theorem dmiRefuse_sec (a : Nat) (s : State) : (dmiRefuse a s).sec = s.sec := by simp [dmiRefuse, apply_ite State.sec]

@[simp] theorem opDmi_secOk (op : Nat) (a : Nat) (v : BitVec 32) (s : State) (hs : s.sec.ok) : (opDmi op a v s).sec.ok := by simp [opDmi, apply_ite State.sec, apply_ite Sec.ok, *]

/-! ### Service -/

@[simp] theorem svcOk_sec (vals : List SvcVal) (s : State) : (svcOk vals s).sec = s.sec := by simp [svcOk]

@[simp] theorem svcRead_sec (a : Nat) (s : State) : (svcRead a s).2.sec = s.sec := by simp [svcRead]

@[simp] theorem svcReads_sec (as : List Nat) (s : State) : (svcReads as s).2.sec = s.sec := by
  induction as generalizing s with
  | nil => rfl
  | cons a as ih => unfold svcReads; dsimp only; rw [ih, svcRead_sec]

@[simp] theorem svcShow_sec (as : List Nat) (f : List Word → List SvcVal) (s : State) : (svcShow as f s).sec = s.sec := by simp [svcShow, apply_ite State.sec]

@[simp] theorem whole_sec (n : Int) (d : Int) (s : State) : (whole n d s).2.sec = s.sec := by simp [whole]

@[simp] theorem freeWords_sec (n : Nat) (s : State) : (freeWords n s).2.sec = s.sec := by simp [freeWords]

@[simp] theorem opEvtLast_sec (s : State) : (opEvtLast s).sec = s.sec := by
  unfold opEvtLast
  split <;> simp

@[simp] theorem svcScrErr_sec (before : State) (off : Nat) (write : Bool) (s : State) : (svcScrErr before off write s).sec = s.sec := by simp [svcScrErr]

@[simp] theorem svcScrReads_sec (off n : Nat) (got : List Word) (s : State) : (svcScrReads off n got s).sec = s.sec := by
  induction n generalizing off got s with
  | zero => exact svcReply_sec _ _
  | succ n ih =>
    unfold svcScrReads
    dsimp only
    split
    · rw [svcScrErr_sec, opScratch_sec]
    · rw [ih, opScratch_sec]

@[simp] theorem opEvtK_sec (k : Nat) (s : State) : (opEvtK k s).sec = s.sec := by
  unfold opEvtK
  dsimp only
  repeat' split
  all_goals simp

@[simp] theorem wholes_sec (d : Int) (ns : List Int) (s : State) : (wholes d ns s).2.sec = s.sec := by
  induction ns generalizing s with
  | nil => rfl
  | cons n ns ih => unfold wholes; dsimp only; rw [ih, whole_sec]

@[simp] theorem opTemp_sec (s : State) : (opTemp s).sec = s.sec := by simp [opTemp]

@[simp] theorem opMeshTime_sec (s : State) : (opMeshTime s).sec = s.sec := by simp [opMeshTime, apply_ite State.sec]

@[simp] theorem opSvcWdt_sec (s : State) : (opSvcWdt s).sec = s.sec := by simp [opSvcWdt]

@[simp] theorem svcBusErr_sec (before s : State) : (svcBusErr before s).sec = s.sec := by simp [svcBusErr, apply_ite State.sec]

@[simp] theorem opSvcRd_sec (a : Nat) (peek : Bool) (s : State) : (opSvcRd a peek s).sec = s.sec := by simp [opSvcRd, apply_ite State.sec]

@[simp] theorem opSvcWr_secOk (a : Nat) (v : Word) (s : State) (hs : s.sec.ok) : (opSvcWr a v s).sec.ok := by simp [opSvcWr, apply_ite State.sec, apply_ite Sec.ok, *]

@[simp] theorem opSpRd_sec (off : Nat) (s : State) : (opSpRd off s).sec = s.sec := by simp [opSpRd, apply_ite State.sec]

@[simp] theorem opSpWr_sec (off : Nat) (v : Word) (s : State) : (opSpWr off v s).sec = s.sec := by simp [opSpWr, apply_ite State.sec]

@[simp] theorem opSvcPin_sec (i : Nat) (s : State) : (opSvcPin i s).sec = s.sec := by simp [opSvcPin]

@[simp] theorem testPin_sec (i : Nat) (d : BitVec 2) (s : State) : (testPin i d s).sec = s.sec := by simp [testPin]

@[simp] theorem unTestPin_sec (i : Nat) (s : State) : (unTestPin i s).sec = s.sec := by
  unfold unTestPin
  split <;> simp

@[simp] theorem opSvcDrive_sec (i : Nat) (d : BitVec 2) (s : State) : (opSvcDrive i d s).sec = s.sec := by simp [opSvcDrive, apply_ite State.sec]

@[simp] theorem opSvcRelease_sec (i : Nat) (s : State) : (opSvcRelease i s).sec = s.sec := by simp [opSvcRelease, apply_ite State.sec]

@[simp] theorem opSvcAuth_sec (s : State) : (opSvcAuth s).sec = s.sec := by simp [opSvcAuth, apply_ite State.sec]

@[simp] theorem opSvcAuthResp_sec (r : List (BitVec 32)) (s : State) : (opSvcAuthResp r s).sec = s.sec := by simp [opSvcAuthResp, apply_ite State.sec]

@[simp] theorem svcLogout_sec (s : State) : (svcLogout s).sec = s.sec := by simp [svcLogout]

@[simp] theorem svcModeRefuse_sec (req reason : Nat) (s : State) : (svcModeRefuse req reason s).sec = s.sec := by simp [svcModeRefuse]

@[simp] theorem opService_sec (pinHigh : Bool) (s : State) : (opService pinHigh s).sec = s.sec := by
  unfold opService
  dsimp only
  repeat' split
  all_goals simp

@[simp] theorem opServiceExit_sec (s : State) : (opServiceExit s).sec = s.sec := by simp [opServiceExit, apply_ite State.sec]

@[simp] theorem opSvcWake_secOk (s : State) (hs : s.sec.ok) : (opSvcWake s).sec.ok := by simp [opSvcWake, apply_ite State.sec, apply_ite Sec.ok, *]

@[simp] theorem opReboot_secOk (toService nsafe : Bool) (s : State) (hs : s.sec.ok) : (opReboot toService nsafe s).sec.ok := by simp [opReboot, apply_ite State.sec, apply_ite Sec.ok, *]

@[simp] theorem opBaud_sec (n : Nat) (s : State) : (opBaud n s).sec = s.sec := by simp [opBaud, apply_ite State.sec]

@[simp] theorem testTake_sec (f : Func) (s : State) : (testTake f s).sec = s.sec := by simp [testTake, apply_ite State.sec]

@[simp] theorem testGive_sec (f : Func) (s : State) : (testGive f s).sec = s.sec := by simp [testGive, apply_ite State.sec]

@[simp] theorem testGov_sec (f : Func) (s : State) : (testGov f s).sec = s.sec := by
  unfold testGov
  split <;> simp

@[simp] theorem testStart_sec (id arg : Nat) (s : State) : (testStart id arg s).sec = s.sec := by
  unfold testStart
  dsimp only
  repeat' split
  all_goals simp

@[simp] theorem testLeave_sec (s : State) : (testLeave s).sec = s.sec := by
  unfold testLeave
  repeat' split
  all_goals simp

@[simp] theorem opTest_sec (id arg : Nat) (root : Bool) (s : State) : (opTest id arg root s).sec = s.sec := by simp [opTest, apply_ite State.sec]

@[simp] theorem testEnd_sec (fail : Option (Nat × Nat)) (s : State) : (testEnd fail s).sec = s.sec := by
  unfold testEnd
  split <;> simp

@[simp] theorem testRaise_sec (t : TestRun) (fail : Option (Nat × Nat)) (s : State) : (testRaise t fail s).sec = s.sec := by
  unfold testRaise
  repeat' split
  all_goals simp

@[simp] theorem opTestEnd_sec (fail : Option (Nat × Nat)) (s : State) : (opTestEnd fail s).sec = s.sec := by
  unfold opTestEnd
  repeat' split
  all_goals simp

@[simp] theorem opTestAbort_sec (s : State) : (opTestAbort s).sec = s.sec := by
  unfold opTestAbort
  repeat' split
  all_goals simp

@[simp] theorem opMarch_sec (bank : Fin 16) (ss preserve repair : Bool) (s : State) : (opMarch bank ss preserve repair s).sec = s.sec := by simp [opMarch, apply_ite State.sec]

@[simp] theorem opBeaterEnd_sec (fails : List BFail) (s : State) : (opBeaterEnd fails s).sec = s.sec := by simp [opBeaterEnd, apply_ite State.sec]

@[simp] theorem svcLine_secOk (i : SvcLine) (s : State) (hs : s.sec.ok) : (svcLine i s).sec.ok := by
  cases i <;> unfold svcLine <;> simp [hs]

@[simp] theorem svcTake_secOk (i : SvcLine) (s : State) (hs : s.sec.ok) : (svcTake i s).sec.ok := by simp [svcTake, apply_ite State.sec, apply_ite Sec.ok, *]

@[simp] theorem svcNext_secOk (s : State) (hs : s.sec.ok) : (svcNext s).sec.ok := by
  unfold svcNext
  repeat' split
  all_goals simp [*]

/-! ### Commands -/

@[simp] theorem flipCfg_sec (key bit : Nat) (s : State) : (flipCfg key bit s).sec = s.sec := by simp [flipCfg, apply_ite State.sec]

@[simp] theorem flipRam_sec (b : BlkAddr) (word bit : Nat) (s : State) : (flipRam b word bit s).sec = s.sec := by simp [flipRam]

@[simp] theorem flipScr_sec (off bit : Nat) (s : State) : (flipScr off bit s).sec = s.sec := by simp [flipScr]

@[simp] theorem flipCal_sec (lane : Nat) (engineB : Bool) (copy bit : Nat) (s : State) : (flipCal lane engineB copy bit s).sec = s.sec := by simp [flipCal]

@[simp] theorem flipGold_sec (c : CellAddr) (plane : Bool) (copy : Fin 3) (s : State) : (flipGold c plane copy s).sec = s.sec := by simp [flipGold]

@[simp] theorem opUpset_sec (t : UpsetAt) (s : State) : (opUpset t s).sec = s.sec := by
  unfold opUpset
  split <;> simp

/-! ### Tick -/

@[simp] theorem tickTime_sec (s : State) : (tickTime s).sec = s.sec := by
  unfold tickTime; (first | with_reducible rfl | (simp [apply_ite State.sec, *]; done) | ((try simp only [apply_ite State.sec, ite_self]); repeat' (first | with_reducible rfl | assumption | split | (simp [apply_ite State.sec, *]; done)  | (rename_i h; replace h := congrArg (fun r => State.sec (Prod.snd r)) h; simp at h; simp [← h]; done) | simp [apply_ite State.sec])))

@[simp] theorem tickWdt_sec (s : State) : (tickWdt s).sec = s.sec := by simp [tickWdt, apply_ite State.sec]

@[simp] theorem tickTimer_sec (k : Nat) (s : State) : (tickTimer k s).sec = s.sec := by simp [tickTimer, apply_ite State.sec]

@[simp] theorem tickPromoted_sec (s : State) : (tickPromoted s).sec = s.sec := by simp [tickPromoted]

@[simp] theorem tickEngine_sec (s : State) : (tickEngine s).sec = s.sec := by simp [tickEngine]

@[simp] theorem tickDelays_sec (s : State) : (tickDelays s).sec = s.sec := by simp [tickDelays]

@[simp] theorem padStep_sec (i : Nat) (s : State) : (padStep i s).sec = s.sec := by simp [padStep, apply_ite State.sec]

@[simp] theorem tickPads_sec (s : State) : (tickPads s).sec = s.sec := by simp [tickPads]

@[simp] theorem tick_secOk (s : State) (hs : s.sec.ok) : (tick s).sec.ok := by simp [tick, apply_ite State.sec, apply_ite Sec.ok, *]

end Sys2Proof.Machine
end

