-- ==== Sys2Proof/Laws/SecExec.lean ====
section
/-! SUPPORT. What every command leave of the security store: `_sec` lemmas say that it is unchanged, `_secOk` lemmas that it stays sound. -/

namespace Sys2Proof.Machine

/-! ### Exec -/

theorem execNrstAssert_secOk (ns : Nat) (s : State) (hs : s.sec.ok) (z : State) (h : execNrstAssert ns s = .next z) : z.sec.ok := by
  unfold execNrstAssert at h; cases h; (first | exact hs | (first | apply gateW_secOk | apply tap_secOk) <;> (intros; simp [*]; done) | (simp [apply_ite State.sec, apply_ite Sec.ok, *]; done) | ((try simp only [apply_ite State.sec, apply_ite Sec.ok]); repeat' (first | assumption | split | (simp [apply_ite State.sec, apply_ite Sec.ok, *]; done) | simp [apply_ite State.sec, apply_ite Sec.ok])))

theorem execNrstRelease_secOk (pins : ResetPins) (s : State) (hs : s.sec.ok) (z : State) (h : execNrstRelease pins s = .next z) : z.sec.ok := by
  unfold execNrstRelease at h; cases h; simp [apply_ite State.sec, hs]

theorem execSupplyOutOfWindow_secOk (rail : Fin 22) (us : Nat) (mv : BitVec 12) (s : State) (hs : s.sec.ok) (z : State) (h : execSupplyOutOfWindow rail us mv s = .next z) : z.sec.ok := by
  unfold execSupplyOutOfWindow at h; cases h; (first | exact hs | (first | apply gateW_secOk | apply tap_secOk) <;> (intros; simp [*]; done) | (simp [apply_ite State.sec, apply_ite Sec.ok, *]; done) | ((try simp only [apply_ite State.sec, apply_ite Sec.ok]); repeat' (first | assumption | split | (simp [apply_ite State.sec, apply_ite Sec.ok, *]; done) | simp [apply_ite State.sec, apply_ite Sec.ok])))

theorem execTemperatureSample_secOk (readings : List (BitVec 12)) (s : State) (hs : s.sec.ok) (z : State) (h : execTemperatureSample readings s = .next z) : z.sec.ok := by
  unfold execTemperatureSample at h; cases h; simp [apply_ite State.sec, hs]

theorem execLockedSequenceExpired_secOk (reg : SeqReg) (s : State) (hs : s.sec.ok) (z : State) (h : execLockedSequenceExpired reg s = .next z) : z.sec.ok := by
  unfold execLockedSequenceExpired at h; cases h; repeat' split
  all_goals simp [hs]

theorem execWakePinEdge_secOk (rising : Bool) (s : State) (hs : s.sec.ok) (z : State) (h : execWakePinEdge rising s = .next z) : z.sec.ok := by
  unfold execWakePinEdge at h; cases h; simp [apply_ite State.sec, hs]

theorem execRequestPromotedUrgent_secOk (target : Nat) (asker : Asker) (s : State) (hs : s.sec.ok) (z : State) (h : execRequestPromotedUrgent target asker s = .next z) : z.sec.ok := by
  unfold execRequestPromotedUrgent at h; cases h; simp [apply_ite State.sec, hs]

theorem execGovernorGrant_secOk (waitUs : Nat) (s : State) (hs : s.sec.ok) (z : State) (h : execGovernorGrant waitUs s = .next z) : z.sec.ok := by
  unfold execGovernorGrant at h; cases h; simp [hs]

theorem execSoftstartComplete_secOk (ramp : Nat) (s : State) (hs : s.sec.ok) (z : State) (h : execSoftstartComplete ramp s = .next z) : z.sec.ok := by
  unfold execSoftstartComplete at h; cases h; simp [hs]

theorem execI3cEnec_secOk (int hj : Bool) (s : State) (hs : s.sec.ok) (z : State) (h : execI3cEnec int hj s = .next z) : z.sec.ok := by
  unfold execI3cEnec at h; cases h; simp [hs]

theorem execI3cDisec_secOk (int hj : Bool) (s : State) (hs : s.sec.ok) (z : State) (h : execI3cDisec int hj s = .next z) : z.sec.ok := by
  unfold execI3cDisec at h; cases h; simp [hs]

theorem execI3cEntdaa_secOk (addr : BitVec 7) (won : Bool) (s : State) (hs : s.sec.ok) (z : State) (h : execI3cEntdaa addr won s = .next z) : z.sec.ok := by
  unfold execI3cEntdaa at h; cases h; simp [apply_ite State.sec, hs]

theorem execI3cSetdasa_secOk (static addr : BitVec 7) (s : State) (hs : s.sec.ok) (z : State) (h : execI3cSetdasa static addr s = .next z) : z.sec.ok := by
  unfold execI3cSetdasa at h; cases h; simp [apply_ite State.sec, hs]

theorem execI3cSetnewda_secOk (addr : BitVec 7) (s : State) (hs : s.sec.ok) (z : State) (h : execI3cSetnewda addr s = .next z) : z.sec.ok := by
  unfold execI3cSetnewda at h; cases h; simp [apply_ite State.sec, hs]

theorem execI3cSetmwl_secOk (len : BitVec 16) (s : State) (hs : s.sec.ok) (z : State) (h : execI3cSetmwl len s = .next z) : z.sec.ok := by
  unfold execI3cSetmwl at h; cases h; simp [apply_ite State.sec, hs]

theorem execI3cSetmrl_secOk (len : BitVec 16) (s : State) (hs : s.sec.ok) (z : State) (h : execI3cSetmrl len s = .next z) : z.sec.ok := by
  unfold execI3cSetmrl at h; cases h; simp [apply_ite State.sec, hs]

theorem execI3cRstact_secOk (action : BitVec 8) (s : State) (hs : s.sec.ok) (z : State) (h : execI3cRstact action s = .next z) : z.sec.ok := by
  unfold execI3cRstact at h; cases h; simp [apply_ite State.sec, hs]

theorem execI3cUnknownCcc_secOk (direct : Bool) (code : BitVec 8) (s : State) (hs : s.sec.ok) (z : State) (h : execI3cUnknownCcc direct code s = .next z) : z.sec.ok := by
  unfold execI3cUnknownCcc at h; cases h; simp [apply_ite State.sec, hs]

theorem execRegisterWriteTransfer_secOk (dst : BitVec 7) (bytes : List Byte) (s : State) (hs : s.sec.ok) (z : State) (h : execRegisterWriteTransfer dst bytes s = .next z) : z.sec.ok := by
  unfold execRegisterWriteTransfer at h; cases h; split <;> simp [hs]

theorem execRegisterReadTransfer_secOk (dst : BitVec 7) (words : Nat) (s : State) (hs : s.sec.ok) (z : State) (h : execRegisterReadTransfer dst words s = .next z) : z.sec.ok := by
  unfold execRegisterReadTransfer at h; cases h; simp [apply_ite State.sec, hs]

theorem execHdrDdrWrite_secOk (bytes : List Byte) (s : State) (hs : s.sec.ok) (z : State) (h : execHdrDdrWrite bytes s = .next z) : z.sec.ok := by
  unfold execHdrDdrWrite at h; cases h; split <;> simp [hs]

theorem execHdrDdrRead_secOk (words : Nat) (s : State) (hs : s.sec.ok) (z : State) (h : execHdrDdrRead words s = .next z) : z.sec.ok := by
  unfold execHdrDdrRead at h; cases h; simp [apply_ite State.sec, hs]

theorem execIbiSend_secOk (acked : Bool) (s : State) (hs : s.sec.ok) (z : State) (h : execIbiSend acked s = .next z) : z.sec.ok := by
  unfold execIbiSend at h; cases h; repeat' split
  all_goals simp [hs]

theorem execRegisterWrite_secOk (who : Req) (addr : Addr) (v : Word) (s : State) (hs : s.sec.ok) (z : State) (h : execRegisterWrite who addr v s = .next z) : z.sec.ok := by
  unfold execRegisterWrite at h; cases h; simp [hs]

theorem execEventRingEnable_secOk (who : Req) (v : Word) (s : State) (hs : s.sec.ok) (z : State) (h : execEventRingEnable who v s = .next z) : z.sec.ok := by
  unfold execEventRingEnable at h; cases h; simp [hs]

theorem execEventReadAdvance_secOk (who : Req) (v : Word) (s : State) (hs : s.sec.ok) (z : State) (h : execEventReadAdvance who v s = .next z) : z.sec.ok := by
  unfold execEventReadAdvance at h; cases h; simp [hs]

theorem execEventPop_secOk (who : Req) (peek : Bool) (s : State) (hs : s.sec.ok) (z : State) (h : execEventPop who peek s = .next z) : z.sec.ok := by
  unfold execEventPop at h; cases h; simp [hs]

theorem execCtrlEnable_secOk (who : Req) (f : Func) (v : Word) (s : State) (hs : s.sec.ok) (z : State) (h : execCtrlEnable who f v s = .next z) : z.sec.ok := by
  unfold execCtrlEnable at h; cases h; simp [hs]

theorem execCtrlDisable_secOk (who : Req) (f : Func) (v : Word) (s : State) (hs : s.sec.ok) (z : State) (h : execCtrlDisable who f v s = .next z) : z.sec.ok := by
  unfold execCtrlDisable at h; cases h; simp [hs]

theorem execProfileWrite_secOk (who : Req) (f : Func) (v : Word) (s : State) (hs : s.sec.ok) (z : State) (h : execProfileWrite who f v s = .next z) : z.sec.ok := by
  unfold execProfileWrite at h; cases h; simp [hs]

theorem execExpertWrite_secOk (who : Req) (addr : Addr) (v : Word) (s : State) (hs : s.sec.ok) (z : State) (h : execExpertWrite who addr v s = .next z) : z.sec.ok := by
  unfold execExpertWrite at h; cases h; simp [hs]

theorem execFunctionStartComplete_secOk (f : Func) (s : State) (hs : s.sec.ok) (z : State) (h : execFunctionStartComplete f s = .next z) : z.sec.ok := by
  unfold execFunctionStartComplete at h; cases h; simp [hs]

theorem execFunctionStopComplete_secOk (f : Func) (s : State) (hs : s.sec.ok) (z : State) (h : execFunctionStopComplete f s = .next z) : z.sec.ok := by
  unfold execFunctionStopComplete at h; cases h; simp [hs]

theorem execLutramWrite_secOk (e : QuireEdge) (i : QuireIn) (s : State) (hs : s.sec.ok) (z : State) (h : execLutramWrite e i s = .next z) : z.sec.ok := by
  unfold execLutramWrite at h; cases h; simp [hs]

theorem execCellShift_secOk (e : QuireEdge) (i : QuireIn) (s : State) (hs : s.sec.ok) (z : State) (h : execCellShift e i s = .next z) : z.sec.ok := by
  unfold execCellShift at h; cases h; simp [hs]

theorem execRam36Write_secOk (blk : BlkAddr) (a b : Option PortIn) (s : State) (hs : s.sec.ok) (z : State) (h : execRam36Write blk a b s = .next z) : z.sec.ok := by
  unfold execRam36Write at h; cases h; simp [hs]

theorem execRam36Read_secOk (blk : BlkAddr) (portB : Bool) (port : PortAt) (oce orst : Bool) (s : State) (hs : s.sec.ok) (z : State) (h : execRam36Read blk portB port oce orst s = .next z) : z.sec.ok := by
  unfold execRam36Read at h; cases h; simp [hs]

theorem execRam36CollClr_secOk (blk : BlkAddr) (s : State) (hs : s.sec.ok) (z : State) (h : execRam36CollClr blk s = .next z) : z.sec.ok := by
  unfold execRam36CollClr at h; cases h; simp [hs]

theorem execFifoWrite_secOk (blk : BlkAddr) (i : FifoIn) (s : State) (hs : s.sec.ok) (z : State) (h : execFifoWrite blk i s = .next z) : z.sec.ok := by
  unfold execFifoWrite at h; cases h; simp [hs]

theorem execFifoRead_secOk (e : FifoEdge) (s : State) (hs : s.sec.ok) (z : State) (h : execFifoRead e s = .next z) : z.sec.ok := by
  unfold execFifoRead at h; cases h; simp [hs]

theorem execFifoRst_secOk (blk : BlkAddr) (s : State) (hs : s.sec.ok) (z : State) (h : execFifoRst blk s = .next z) : z.sec.ok := by
  unfold execFifoRst at h; cases h; simp [hs]

theorem execSharedFifoDataRead_secOk (who : Req) (region : Fin 64) (k : Fin 4) (peek : Bool) (s : State) (hs : s.sec.ok) (z : State) (h : execSharedFifoDataRead who region k peek s = .next z) : z.sec.ok := by
  unfold execSharedFifoDataRead at h; cases h; simp [hs]

theorem execSharedFifoDataWrite_secOk (who : Req) (region : Fin 64) (k : Fin 4) (v : Word) (s : State) (hs : s.sec.ok) (z : State) (h : execSharedFifoDataWrite who region k v s = .next z) : z.sec.ok := by
  unfold execSharedFifoDataWrite at h; cases h; simp [hs]

theorem execMac36Accumulate_secOk (blk : BlkAddr) (second : Bool) (i : MacIn) (s : State) (hs : s.sec.ok) (z : State) (h : execMac36Accumulate blk second i s = .next z) : z.sec.ok := by
  unfold execMac36Accumulate at h; cases h; simp [apply_ite State.sec, hs]

theorem execBusContentionCount_secOk (region : Fin 64) (bus : Bool) (den : BitVec 32) (s : State) (hs : s.sec.ok) (z : State) (h : execBusContentionCount region bus den s = .next z) : z.sec.ok := by
  unfold execBusContentionCount at h; cases h; simp [hs]

theorem execRegionReset_secOk (who : Req) (region : Fin 64) (v : Word) (s : State) (hs : s.sec.ok) (z : State) (h : execRegionReset who region v s = .next z) : z.sec.ok := by
  unfold execRegionReset at h; cases h; simp [hs]

theorem execRegionResetRelease_secOk (region : Fin 64) (s : State) (hs : s.sec.ok) (z : State) (h : execRegionResetRelease region s = .next z) : z.sec.ok := by
  unfold execRegionResetRelease at h; cases h; simp [hs]

theorem execRegionQuarantineCommand_secOk (who : Req) (region : Fin 64) (v : Word) (s : State) (hs : s.sec.ok) (z : State) (h : execRegionQuarantineCommand who region v s = .next z) : z.sec.ok := by
  unfold execRegionQuarantineCommand at h; cases h; simp [hs]

theorem execLogAck_secOk (who : Req) (region : Fin 64) (v : Word) (s : State) (hs : s.sec.ok) (z : State) (h : execLogAck who region v s = .next z) : z.sec.ok := by
  unfold execLogAck at h; cases h; simp [hs]

theorem execRegionLogRead_secOk (who : Req) (region : Fin 64) (peek : Bool) (s : State) (hs : s.sec.ok) (z : State) (h : execRegionLogRead who region peek s = .next z) : z.sec.ok := by
  unfold execRegionLogRead at h; cases h; simp [hs]

theorem execStreamSync_secOk (src : BitVec 3) (who : Req) (s : State) (hs : s.sec.ok) (z : State) (h : execStreamSync src who s = .next z) : z.sec.ok := by
  unfold execStreamSync at h; cases h; simp [hs]

theorem execStreamWordRefused_secOk (src : BitVec 3) (who : Req) (s : State) (hs : s.sec.ok) (z : State) (h : execStreamWordRefused src who s = .next z) : z.sec.ok := by
  unfold execStreamWordRefused at h; cases h; simp [apply_ite State.sec, hs]

theorem execStreamHeader_secOk (words : List Word) (s : State) (hs : s.sec.ok) (z : State) (h : execStreamHeader words s = .next z) : z.sec.ok := by
  unfold execStreamHeader at h; cases h; simp [apply_ite State.sec, hs]

theorem execTagSegment_secOk (words : List Word) (s : State) (hs : s.sec.ok) (z : State) (h : execTagSegment words s = .next z) : z.sec.ok := by
  unfold execTagSegment at h; cases h; simp [apply_ite State.sec, hs]

theorem execLoadSlot_secOk (who : Req) (v : Word) (s : State) (hs : s.sec.ok) (z : State) (h : execLoadSlot who v s = .next z) : z.sec.ok := by
  unfold execLoadSlot at h; cases h; simp [hs]

theorem execCfgAbort_secOk (who : Req) (v : Word) (s : State) (hs : s.sec.ok) (z : State) (h : execCfgAbort who v s = .next z) : z.sec.ok := by
  unfold execCfgAbort at h; cases h; simp [hs]

theorem execSdataWrite_secOk (who : Req) (v : Word) (s : State) (hs : s.sec.ok) (z : State) (h : execSdataWrite who v s = .next z) : z.sec.ok := by
  unfold execSdataWrite at h; cases h; simp [hs]

theorem execRdataRead_secOk (who : Req) (peek : Bool) (s : State) (hs : s.sec.ok) (z : State) (h : execRdataRead who peek s = .next z) : z.sec.ok := by
  unfold execRdataRead at h; cases h; simp [hs]

theorem execRollAdv_secOk (who : Req) (v : Word) (s : State) (hs : s.sec.ok) (z : State) (h : execRollAdv who v s = .next z) : z.sec.ok := by
  unfold execRollAdv at h; cases h; (first | exact hs | (first | apply gateW_secOk | apply tap_secOk) <;> (intros; simp [*]; done) | (simp [apply_ite State.sec, apply_ite Sec.ok, *]; done) | ((try simp only [apply_ite State.sec, apply_ite Sec.ok]); repeat' (first | assumption | split | (simp [apply_ite State.sec, apply_ite Sec.ok, *]; done) | simp [apply_ite State.sec, apply_ite Sec.ok])))

theorem execKeyLoad_secOk (who : Req) (v : Word) (s : State) (hs : s.sec.ok) (z : State) (h : execKeyLoad who v s = .next z) : z.sec.ok := by
  unfold execKeyLoad at h; cases h; (first | exact hs | (first | apply gateW_secOk | apply tap_secOk) <;> (intros; simp [*]; done) | (simp [apply_ite State.sec, apply_ite Sec.ok, *]; done) | ((try simp only [apply_ite State.sec, apply_ite Sec.ok]); repeat' (first | assumption | split | (simp [apply_ite State.sec, apply_ite Sec.ok, *]; done) | simp [apply_ite State.sec, apply_ite Sec.ok])))

theorem execZeroize_secOk (who : Req) (v : Word) (s : State) (hs : s.sec.ok) (z : State) (h : execZeroize who v s = .next z) : z.sec.ok := by
  unfold execZeroize at h; cases h; (first | exact hs | (first | apply gateW_secOk | apply tap_secOk) <;> (intros; simp [*]; done) | (simp [apply_ite State.sec, apply_ite Sec.ok, *]; done) | ((try simp only [apply_ite State.sec, apply_ite Sec.ok]); repeat' (first | assumption | split | (simp [apply_ite State.sec, apply_ite Sec.ok, *]; done) | simp [apply_ite State.sec, apply_ite Sec.ok])))

theorem execKrDataWrite_secOk (who : Req) (v : Word) (s : State) (hs : s.sec.ok) (z : State) (h : execKrDataWrite who v s = .next z) : z.sec.ok := by
  unfold execKrDataWrite at h; cases h; (first | exact hs | (first | apply gateW_secOk | apply tap_secOk) <;> (intros; simp [*]; done) | (simp [apply_ite State.sec, apply_ite Sec.ok, *]; done) | ((try simp only [apply_ite State.sec, apply_ite Sec.ok]); repeat' (first | assumption | split | (simp [apply_ite State.sec, apply_ite Sec.ok, *]; done) | simp [apply_ite State.sec, apply_ite Sec.ok])))

theorem execRegionSwap_secOk (who : Req) (v : Word) (s : State) (hs : s.sec.ok) (z : State) (h : execRegionSwap who v s = .next z) : z.sec.ok := by
  unfold execRegionSwap at h; cases h; simp [hs]

theorem execChipSwap_secOk (who : Req) (v : Word) (s : State) (hs : s.sec.ok) (z : State) (h : execChipSwap who v s = .next z) : z.sec.ok := by
  unfold execChipSwap at h; cases h; simp [hs]

theorem execMeshSwap_secOk (who : Req) (v : Word) (s : State) (hs : s.sec.ok) (z : State) (h : execMeshSwap who v s = .next z) : z.sec.ok := by
  unfold execMeshSwap at h; cases h; simp [hs]

theorem execMeshCancel_secOk (who : Req) (v : Word) (s : State) (hs : s.sec.ok) (z : State) (h : execMeshCancel who v s = .next z) : z.sec.ok := by
  unfold execMeshCancel at h; cases h; simp [hs]

theorem execMirror_secOk (who : Req) (v : Word) (s : State) (hs : s.sec.ok) (z : State) (h : execMirror who v s = .next z) : z.sec.ok := by
  unfold execMirror at h; cases h; simp [hs]

theorem execRepreloadComplete_secOk (region : Fin 64) (s : State) (hs : s.sec.ok) (z : State) (h : execRepreloadComplete region s = .next z) : z.sec.ok := by
  unfold execRepreloadComplete at h; cases h; simp [hs]

theorem execSwapAtReceived_secOk (id : BitVec 8) (coord : BitVec 10) (t : BitVec 64) (s : State) (hs : s.sec.ok) (z : State) (h : execSwapAtReceived id coord t s = .next z) : z.sec.ok := by
  unfold execSwapAtReceived at h; cases h; simp [hs]

theorem execVoteReceived_secOk (node : BitVec 10) (id : BitVec 8) (ready null : Bool) (s : State) (hs : s.sec.ok) (z : State) (h : execVoteReceived node id ready null s = .next z) : z.sec.ok := by
  unfold execVoteReceived at h; cases h; simp [hs]

theorem execGoReceived_secOk (id : BitVec 8) (s : State) (hs : s.sec.ok) (z : State) (h : execGoReceived id s = .next z) : z.sec.ok := by
  unfold execGoReceived at h; cases h; simp [hs]

theorem execAbortReceived_secOk (id : BitVec 8) (cause : BitVec 4) (s : State) (hs : s.sec.ok) (z : State) (h : execAbortReceived id cause s = .next z) : z.sec.ok := by
  unfold execAbortReceived at h; cases h; simp [hs]

theorem execScrubRead_secOk (lanes : List (Fin 65)) (s : State) (hs : s.sec.ok) (z : State) (h : execScrubRead lanes s = .next z) : z.sec.ok := by
  unfold execScrubRead at h; cases h; simp [hs]

theorem execDoubleBitRepair_secOk (lane : Fin 65) (s : State) (hs : s.sec.ok) (z : State) (h : execDoubleBitRepair lane s = .next z) : z.sec.ok := by
  unfold execDoubleBitRepair at h; cases h; simp [hs]

theorem execRepairFetch_secOk (lane : Fin 65) (s : State) (hs : s.sec.ok) (z : State) (h : execRepairFetch lane s = .next z) : z.sec.ok := by
  unfold execRepairFetch at h; cases h; simp [hs]

theorem execRepairFetchTimeout_secOk (lane : Fin 65) (s : State) (hs : s.sec.ok) (z : State) (h : execRepairFetchTimeout lane s = .next z) : z.sec.ok := by
  unfold execRepairFetchTimeout at h; cases h; simp [hs]

theorem execCalRestart_secOk (who : Req) (v : Word) (s : State) (hs : s.sec.ok) (z : State) (h : execCalRestart who v s = .next z) : z.sec.ok := by
  unfold execCalRestart at h; cases h; simp [hs]

theorem execEngineRequestAccept_secOk (port : Fin 8) (req : Quad) (s : State) (hs : s.sec.ok) (z : State) (h : execEngineRequestAccept port req s = .next z) : z.sec.ok := by
  unfold execEngineRequestAccept at h; cases h; simp [hs]

theorem execEngineResponseTaken_secOk (port : Fin 8) (s : State) (hs : s.sec.ok) (z : State) (h : execEngineResponseTaken port s = .next z) : z.sec.ok := by
  unfold execEngineResponseTaken at h; cases h; simp [hs]

theorem execLookup_secOk (slot : Nat) (s : State) (hs : s.sec.ok) (z : State) (h : execLookup slot s = .next z) : z.sec.ok := by
  unfold execLookup at h; cases h; simp [hs]

theorem execInsert_secOk (slot : Nat) (s : State) (hs : s.sec.ok) (z : State) (h : execInsert slot s = .next z) : z.sec.ok := by
  unfold execInsert at h; cases h; simp [hs]

theorem execDelete_secOk (slot : Nat) (s : State) (hs : s.sec.ok) (z : State) (h : execDelete slot s = .next z) : z.sec.ok := by
  unfold execDelete at h; cases h; simp [hs]

theorem execCtxRead_secOk (slot : Nat) (s : State) (hs : s.sec.ok) (z : State) (h : execCtxRead slot s = .next z) : z.sec.ok := by
  unfold execCtxRead at h; cases h; simp [hs]

theorem execCtxWrite_secOk (slot : Nat) (s : State) (hs : s.sec.ok) (z : State) (h : execCtxWrite slot s = .next z) : z.sec.ok := by
  unfold execCtxWrite at h; cases h; simp [hs]

theorem execCtxRun_secOk (slot : Nat) (s : State) (hs : s.sec.ok) (z : State) (h : execCtxRun slot s = .next z) : z.sec.ok := by
  unfold execCtxRun at h; cases h; simp [hs]

theorem execLookupRun_secOk (slot : Nat) (s : State) (hs : s.sec.ok) (z : State) (h : execLookupRun slot s = .next z) : z.sec.ok := by
  unfold execLookupRun at h; cases h; simp [hs]

theorem execFence_secOk (slot : Nat) (s : State) (hs : s.sec.ok) (z : State) (h : execFence slot s = .next z) : z.sec.ok := by
  unfold execFence at h; cases h; simp [hs]

theorem execAgeScanReport_secOk (slot : Option Nat) (who : Req) (s : State) (hs : s.sec.ok) (z : State) (h : execAgeScanReport slot who s = .next z) : z.sec.ok := by
  unfold execAgeScanReport at h; cases h; simp [hs]

theorem execAgeScanStart_secOk (slot : Option Nat) (who : Req) (s : State) (hs : s.sec.ok) (z : State) (h : execAgeScanStart slot who s = .next z) : z.sec.ok := by
  unfold execAgeScanStart at h; cases h; simp [hs]

theorem execAgeScanPause_secOk (slot : Option Nat) (who : Req) (s : State) (hs : s.sec.ok) (z : State) (h : execAgeScanPause slot who s = .next z) : z.sec.ok := by
  unfold execAgeScanPause at h; cases h; simp [hs]

theorem execAgeScanResume_secOk (slot : Option Nat) (who : Req) (s : State) (hs : s.sec.ok) (z : State) (h : execAgeScanResume slot who s = .next z) : z.sec.ok := by
  unfold execAgeScanResume at h; cases h; simp [hs]

theorem execOperationComplete_secOk (slot : Nat) (s : State) (hs : s.sec.ok) (z : State) (h : execOperationComplete slot s = .next z) : z.sec.ok := by
  unfold execOperationComplete at h; cases h; simp [hs]

theorem execRemoteOperationTimeout_secOk (slot : Nat) (s : State) (hs : s.sec.ok) (z : State) (h : execRemoteOperationTimeout slot s = .next z) : z.sec.ok := by
  unfold execRemoteOperationTimeout at h; cases h; simp [hs]

theorem execEnginePatrol_secOk (m : EngMem) (ix : Nat) (s : State) (hs : s.sec.ok) (z : State) (h : execEnginePatrol m ix s = .next z) : z.sec.ok := by
  unfold execEnginePatrol at h; cases h; simp [hs]

theorem execEngineVoteFailure_secOk (credit : Bool) (s : State) (hs : s.sec.ok) (z : State) (h : execEngineVoteFailure credit s = .next z) : z.sec.ok := by
  unfold execEngineVoteFailure at h; cases h; simp [hs]

theorem execAllocWrite_secOk (who : Req) (n : Fin 10) (v : Word) (s : State) (hs : s.sec.ok) (z : State) (h : execAllocWrite who n v s = .next z) : z.sec.ok := by
  unfold execAllocWrite at h; cases h; simp [hs]

theorem execWcSegEnWrite_secOk (who : Req) (v : Word) (s : State) (hs : s.sec.ok) (z : State) (h : execWcSegEnWrite who v s = .next z) : z.sec.ok := by
  unfold execWcSegEnWrite at h; cases h; simp [hs]

theorem execWcEntryWrite_secOk (who : Req) (v : Word) (s : State) (hs : s.sec.ok) (z : State) (h : execWcEntryWrite who v s = .next z) : z.sec.ok := by
  unfold execWcEntryWrite at h; cases h; simp [hs]

theorem execWcEntryRead_secOk (who : Req) (v : Word) (s : State) (hs : s.sec.ok) (z : State) (h : execWcEntryRead who v s = .next z) : z.sec.ok := by
  unfold execWcEntryRead at h; cases h; simp [hs]

theorem execKinsInsert_secOk (who : Req) (v : Word) (s : State) (hs : s.sec.ok) (z : State) (h : execKinsInsert who v s = .next z) : z.sec.ok := by
  unfold execKinsInsert at h; cases h; simp [hs]

theorem execKinsDelete_secOk (who : Req) (v : Word) (s : State) (hs : s.sec.ok) (z : State) (h : execKinsDelete who v s = .next z) : z.sec.ok := by
  unfold execKinsDelete at h; cases h; simp [hs]

theorem execCmdSubmit_secOk (who : Req) (v : Word) (s : State) (hs : s.sec.ok) (z : State) (h : execCmdSubmit who v s = .next z) : z.sec.ok := by
  unfold execCmdSubmit at h; cases h; simp [hs]

theorem execCmdResponsePop_secOk (who : Req) (peek : Bool) (s : State) (hs : s.sec.ok) (z : State) (h : execCmdResponsePop who peek s = .next z) : z.sec.ok := by
  unfold execCmdResponsePop at h; cases h; simp [hs]

theorem execMeshPortCalibration_secOk (p : Fin 8) (ok : Bool) (s : State) (hs : s.sec.ok) (z : State) (h : execMeshPortCalibration p ok s = .next z) : z.sec.ok := by
  unfold execMeshPortCalibration at h; cases h; simp [hs]

theorem execLinkSignalDetect_secOk (p : Fin 8) (s : State) (hs : s.sec.ok) (z : State) (h : execLinkSignalDetect p s = .next z) : z.sec.ok := by
  unfold execLinkSignalDetect at h; cases h; simp [hs]

theorem execLinkCdrLock_secOk (p : Fin 8) (s : State) (hs : s.sec.ok) (z : State) (h : execLinkCdrLock p s = .next z) : z.sec.ok := by
  unfold execLinkCdrLock at h; cases h; simp [hs]

theorem execLinkEqDone_secOk (p : Fin 8) (s : State) (hs : s.sec.ok) (z : State) (h : execLinkEqDone p s = .next z) : z.sec.ok := by
  unfold execLinkEqDone at h; cases h; simp [hs]

theorem execLinkAlignDone_secOk (p : Fin 8) (s : State) (hs : s.sec.ok) (z : State) (h : execLinkAlignDone p s = .next z) : z.sec.ok := by
  unfold execLinkAlignDone at h; cases h; simp [hs]

theorem execLinkParamConfirm_secOk (p : Fin 8) (nbrPort : BitVec 3) (nbrWmark : BitVec 64) (s : State) (hs : s.sec.ok) (z : State) (h : execLinkParamConfirm p nbrPort nbrWmark s = .next z) : z.sec.ok := by
  unfold execLinkParamConfirm at h; cases h; simp [hs]

theorem execLinkTrainingTimeout_secOk (p : Fin 8) (lanes : BitVec 4) (s : State) (hs : s.sec.ok) (z : State) (h : execLinkTrainingTimeout p lanes s = .next z) : z.sec.ok := by
  unfold execLinkTrainingTimeout at h; cases h; simp [hs]

theorem execLinkTrainingRetry_secOk (p : Fin 8) (s : State) (hs : s.sec.ok) (z : State) (h : execLinkTrainingRetry p s = .next z) : z.sec.ok := by
  unfold execLinkTrainingRetry at h; cases h; simp [hs]

theorem execLinkPacketReceived_secOk (p : Fin 8) (words : List Word) (s : State) (hs : s.sec.ok) (z : State) (h : execLinkPacketReceived p words s = .next z) : z.sec.ok := by
  unfold execLinkPacketReceived at h; cases h; simp [hs]

theorem execAck_secOk (p : Fin 8) (w : Word) (s : State) (hs : s.sec.ok) (z : State) (h : execAck p w s = .next z) : z.sec.ok := by
  unfold execAck at h; cases h; simp [hs]

theorem execCredit_secOk (p : Fin 8) (w : Word) (s : State) (hs : s.sec.ok) (z : State) (h : execCredit p w s = .next z) : z.sec.ok := by
  unfold execCredit at h; cases h; simp [hs]

theorem execRstart_secOk (p : Fin 8) (s : State) (hs : s.sec.ok) (z : State) (h : execRstart p s = .next z) : z.sec.ok := by
  unfold execRstart at h; cases h; simp [hs]

theorem execReplayTimeout_secOk (p : Fin 8) (s : State) (hs : s.sec.ok) (z : State) (h : execReplayTimeout p s = .next z) : z.sec.ok := by
  unfold execReplayTimeout at h; cases h; simp [hs]

theorem execLinkLoss_secOk (p : Fin 8) (cause : BitVec 3) (s : State) (hs : s.sec.ok) (z : State) (h : execLinkLoss p cause s = .next z) : z.sec.ok := by
  unfold execLinkLoss at h; cases h; simp [hs]

theorem execBye_secOk (p : Fin 8) (s : State) (hs : s.sec.ok) (z : State) (h : execBye p s = .next z) : z.sec.ok := by
  unfold execBye at h; cases h; simp [hs]

theorem execHello_secOk (p : Fin 8) (h : Hello) (s : State) (hs : s.sec.ok) (z : State) (h : execHello p h s = .next z) : z.sec.ok := by
  unfold execHello at h; cases h; simp [hs]

theorem execResurvey_secOk (who : Req) (v : Word) (s : State) (hs : s.sec.ok) (z : State) (h : execResurvey who v s = .next z) : z.sec.ok := by
  unfold execResurvey at h; cases h; simp [hs]

theorem execElect_secOk (p : Fin 8) (epoch : BitVec 16) (prio : BitVec 8) (wmark : BitVec 64) (dist : BitVec 7) (s : State) (hs : s.sec.ok) (z : State) (h : execElect p epoch prio wmark dist s = .next z) : z.sec.ok := by
  unfold execElect at h; cases h; simp [hs]

theorem execEcho_secOk (p : Fin 8) (epoch : BitVec 16) (entries : List EchoEntry) (s : State) (hs : s.sec.ok) (z : State) (h : execEcho p epoch entries s = .next z) : z.sec.ok := by
  unfold execEcho at h; cases h; simp [hs]

theorem execAssign_secOk (p : Fin 8) (epoch : BitVec 16) (count : BitVec 11) (entries : List AssignEntry) (s : State) (hs : s.sec.ok) (z : State) (h : execAssign p epoch count entries s = .next z) : z.sec.ok := by
  unfold execAssign at h; cases h; simp [hs]

theorem execLsa_secOk (p : Fin 8) (l : Lsa) (s : State) (hs : s.sec.ok) (z : State) (h : execLsa p l s = .next z) : z.sec.ok := by
  unfold execLsa at h; cases h; simp [hs]

theorem execDone_secOk (p : Fin 8) (epoch : BitVec 16) (_diam : BitVec 7) (s : State) (hs : s.sec.ok) (z : State) (h : execDone p epoch _diam s = .next z) : z.sec.ok := by
  unfold execDone at h; cases h; simp [hs]

theorem execReady_secOk (p : Fin 8) (epoch : BitVec 16) (root : BitVec 10) (count : BitVec 11) (diam : BitVec 7) (s : State) (hs : s.sec.ok) (z : State) (h : execReady p epoch root count diam s = .next z) : z.sec.ok := by
  unfold execReady at h; cases h; simp [hs]

theorem execJoin_secOk (p : Fin 8) (h : Hello) (links : List LsaLink) (s : State) (hs : s.sec.ok) (z : State) (h : execJoin p h links s = .next z) : z.sec.ok := by
  unfold execJoin at h; cases h; simp [hs]

theorem execJoinAck_secOk (p : Fin 8) (addr : BitVec 10) (rootWmark : BitVec 64) (epoch : BitVec 16) (count : BitVec 11) (s : State) (hs : s.sec.ok) (z : State) (h : execJoinAck p addr rootWmark epoch count s = .next z) : z.sec.ok := by
  unfold execJoinAck at h; cases h; simp [hs]

theorem execRefuse_secOk (p : Fin 8) (diam : BitVec 7) (s : State) (hs : s.sec.ok) (z : State) (h : execRefuse p diam s = .next z) : z.sec.ok := by
  unfold execRefuse at h; cases h; simp [hs]

theorem execDiscoveryNeighbourTimeout_secOk (p : Fin 8) (s : State) (hs : s.sec.ok) (z : State) (h : execDiscoveryNeighbourTimeout p s = .next z) : z.sec.ok := by
  unfold execDiscoveryNeighbourTimeout at h; cases h; simp [hs]

theorem execAddrHoldExpiry_secOk (addr : BitVec 10) (s : State) (hs : s.sec.ok) (z : State) (h : execAddrHoldExpiry addr s = .next z) : z.sec.ok := by
  unfold execAddrHoldExpiry at h; cases h; simp [hs]

theorem execPacketForward_secOk (p : Option (Fin 8)) (pkt : Packet) (s : State) (hs : s.sec.ok) (z : State) (h : execPacketForward p pkt s = .next z) : z.sec.ok := by
  unfold execPacketForward at h; cases h; simp [hs]

theorem execRraRead_secOk (who : Req) (v : Word) (s : State) (hs : s.sec.ok) (z : State) (h : execRraRead who v s = .next z) : z.sec.ok := by
  unfold execRraRead at h; cases h; simp [hs]

theorem execRraWrite_secOk (who : Req) (v : Word) (s : State) (hs : s.sec.ok) (z : State) (h : execRraWrite who v s = .next z) : z.sec.ok := by
  unfold execRraWrite at h; cases h; simp [hs]

theorem execRraReq_secOk (src : BitVec 10) (write : Bool) (addr : Addr) (data : Word) (s : State) (hs : s.sec.ok) (z : State) (h : execRraReq src write addr data s = .next z) : z.sec.ok := by
  unfold execRraReq at h; cases h; simp [hs]

theorem execRraRsp_secOk (result reason : BitVec 4) (data : Word) (s : State) (hs : s.sec.ok) (z : State) (h : execRraRsp result reason data s = .next z) : z.sec.ok := by
  unfold execRraRsp at h; cases h; simp [hs]

theorem execEngReq_secOk (src : BitVec 10) (sreq : BitVec 4) (stag : BitVec 6) (req : Quad) (s : State) (hs : s.sec.ok) (z : State) (h : execEngReq src sreq stag req s = .next z) : z.sec.ok := by
  unfold execEngReq at h; cases h; simp [hs]

theorem execEngRsp_secOk (sreq : BitVec 4) (stag : BitVec 6) (rsp : Quad) (s : State) (hs : s.sec.ok) (z : State) (h : execEngRsp sreq stag rsp s = .next z) : z.sec.ok := by
  unfold execEngRsp at h; cases h; simp [hs]

theorem execImagePush_secOk (who : Req) (v : Word) (s : State) (hs : s.sec.ok) (z : State) (h : execImagePush who v s = .next z) : z.sec.ok := by
  unfold execImagePush at h; cases h; simp [hs]

theorem execImagePushAbort_secOk (who : Req) (v : Word) (s : State) (hs : s.sec.ok) (z : State) (h : execImagePushAbort who v s = .next z) : z.sec.ok := by
  unfold execImagePushAbort at h; cases h; simp [hs]

theorem execImgData_secOk (src : BitVec 10) (first _last abort : Bool) (_off : BitVec 25) (words : List Word) (s : State) (hs : s.sec.ok) (z : State) (h : execImgData src first _last abort _off words s = .next z) : z.sec.ok := by
  unfold execImgData at h; cases h; simp [hs]

theorem execImgAck_secOk (consumed : BitVec 25) (s : State) (hs : s.sec.ok) (z : State) (h : execImgAck consumed s = .next z) : z.sec.ok := by
  unfold execImgAck at h; cases h; simp [hs]

theorem execImgResult_secOk (code : Code) (s : State) (hs : s.sec.ok) (z : State) (h : execImgResult code s = .next z) : z.sec.ok := by
  unfold execImgResult at h; cases h; simp [hs]

theorem execImgRb_secOk (words : List Word) (s : State) (hs : s.sec.ok) (z : State) (h : execImgRb words s = .next z) : z.sec.ok := by
  unfold execImgRb at h; cases h; simp [hs]

theorem execStreamTxTransfer_secOk (k : Fin 8) (data : Quad) (dest : BitVec 13) (last : Bool) (s : State) (hs : s.sec.ok) (z : State) (h : execStreamTxTransfer k data dest last s = .next z) : z.sec.ok := by
  unfold execStreamTxTransfer at h; cases h; simp [hs]

theorem execUser_secOk (src : BitVec 10) (srcIf dstIf : BitVec 3) (first : Bool) (seq : BitVec 8) (data : List Quad) (s : State) (hs : s.sec.ok) (z : State) (h : execUser src srcIf dstIf first seq data s = .next z) : z.sec.ok := by
  unfold execUser at h; cases h; simp [hs]

theorem execStreamRxTransfer_secOk (k : Fin 8) (s : State) (hs : s.sec.ok) (z : State) (h : execStreamRxTransfer k s = .next z) : z.sec.ok := by
  unfold execStreamRxTransfer at h; cases h; simp [hs]

theorem execTimeSyncSend_secOk (seq : BitVec 8) (s : State) (hs : s.sec.ok) (z : State) (h : execTimeSyncSend seq s = .next z) : z.sec.ok := by
  unfold execTimeSyncSend at h; cases h; simp [hs]

theorem execTimeSyncRequest_secOk (p : Fin 8) (seq : BitVec 8) (s : State) (hs : s.sec.ok) (z : State) (h : execTimeSyncRequest p seq s = .next z) : z.sec.ok := by
  unfold execTimeSyncRequest at h; cases h; simp [hs]

theorem execTimeSyncReply_secOk (t2 t3 t4 : BitVec 64) (s : State) (hs : s.sec.ok) (z : State) (h : execTimeSyncReply t2 t3 t4 s = .next z) : z.sec.ok := by
  unfold execTimeSyncReply at h; cases h; simp [hs]

theorem execTimeSet_secOk (who : Req) (v : Word) (s : State) (hs : s.sec.ok) (z : State) (h : execTimeSet who v s = .next z) : z.sec.ok := by
  unfold execTimeSet at h; cases h; simp [hs]

theorem execNodeCfgWrite_secOk (who : Req) (v : Word) (s : State) (hs : s.sec.ok) (z : State) (h : execNodeCfgWrite who v s = .next z) : z.sec.ok := by
  unfold execNodeCfgWrite at h; cases h; simp [hs]

theorem execTrapEntry_secOk (interrupt : Bool) (cause : BitVec 31) (pc tval : BitVec 32) (s : State) (hs : s.sec.ok) (z : State) (h : execTrapEntry interrupt cause pc tval s = .next z) : z.sec.ok := by
  unfold execTrapEntry at h; cases h; simp [apply_ite State.sec, hs]

theorem execDoubleFault_secOk (mcause : BitVec 4) (pc : BitVec 32) (s : State) (hs : s.sec.ok) (z : State) (h : execDoubleFault mcause pc s = .next z) : z.sec.ok := by
  unfold execDoubleFault at h; cases h; simp [apply_ite State.sec, hs]

theorem execWfi_secOk (pc : BitVec 32) (s : State) (hs : s.sec.ok) (z : State) (h : execWfi pc s = .next z) : z.sec.ok := by
  unfold execWfi at h; cases h; simp [apply_ite State.sec, hs]

theorem execEbreak_secOk (pc : BitVec 32) (s : State) (hs : s.sec.ok) (z : State) (h : execEbreak pc s = .next z) : z.sec.ok := by
  unfold execEbreak at h; cases h; simp [apply_ite State.sec, hs]

theorem execCoreInterrupt_secOk (pc : BitVec 32) (s : State) (hs : s.sec.ok) (z : State) (h : execCoreInterrupt pc s = .next z) : z.sec.ok := by
  unfold execCoreInterrupt at h; cases h; simp [apply_ite State.sec, hs]

theorem execScratchpadLoad_secOk (addr : BitVec 32) (w : Width) (fetch : Bool) (s : State) (hs : s.sec.ok) (z : State) (h : execScratchpadLoad addr w fetch s = .next z) : z.sec.ok := by
  unfold execScratchpadLoad at h; cases h; simp [hs]

theorem execScratchpadStore_secOk (addr : BitVec 32) (w : Width) (data : BitVec 32) (s : State) (hs : s.sec.ok) (z : State) (h : execScratchpadStore addr w data s = .next z) : z.sec.ok := by
  unfold execScratchpadStore at h; cases h; simp [hs]

theorem execScratchpadBitSet_secOk (addr : BitVec 32) (data : BitVec 32) (s : State) (hs : s.sec.ok) (z : State) (h : execScratchpadBitSet addr data s = .next z) : z.sec.ok := by
  unfold execScratchpadBitSet at h; cases h; simp [hs]

theorem execScratchpadBitClear_secOk (addr : BitVec 32) (data : BitVec 32) (s : State) (hs : s.sec.ok) (z : State) (h : execScratchpadBitClear addr data s = .next z) : z.sec.ok := by
  unfold execScratchpadBitClear at h; cases h; simp [hs]

theorem execLr_secOk (addr : BitVec 32) (s : State) (hs : s.sec.ok) (z : State) (h : execLr addr s = .next z) : z.sec.ok := by
  unfold execLr at h; cases h; simp [hs]

theorem execSc_secOk (addr : BitVec 32) (data : BitVec 32) (s : State) (hs : s.sec.ok) (z : State) (h : execSc addr data s = .next z) : z.sec.ok := by
  unfold execSc at h; cases h; simp [hs]

theorem execAmo_secOk (op : AmoOp) (addr : BitVec 32) (data : BitVec 32) (s : State) (hs : s.sec.ok) (z : State) (h : execAmo op addr data s = .next z) : z.sec.ok := by
  unfold execAmo at h; cases h; simp [hs]

theorem execNibbleWrite_secOk (addr : BitVec 32) (data : BitVec 32) (s : State) (hs : s.sec.ok) (z : State) (h : execNibbleWrite addr data s = .next z) : z.sec.ok := by
  unfold execNibbleWrite at h; cases h; simp [apply_ite State.sec, hs]

theorem execCoreRegisterWrite_secOk (addr : BitVec 32) (w : Width) (data : BitVec 32) (s : State) (hs : s.sec.ok) (z : State) (h : execCoreRegisterWrite addr w data s = .next z) : z.sec.ok := by
  unfold execCoreRegisterWrite at h; cases h; simp [hs]

theorem execCoreRegisterRead_secOk (addr : BitVec 32) (w : Width) (s : State) (hs : s.sec.ok) (z : State) (h : execCoreRegisterRead addr w s = .next z) : z.sec.ok := by
  unfold execCoreRegisterRead at h; cases h; simp [hs]

theorem execNibbleRead_secOk (addr : BitVec 32) (s : State) (hs : s.sec.ok) (z : State) (h : execNibbleRead addr s = .next z) : z.sec.ok := by
  unfold execNibbleRead at h; cases h; simp [hs]

theorem execXipFetch_secOk (addr : BitVec 32) (kind : XipKind) (s : State) (hs : s.sec.ok) (z : State) (h : execXipFetch addr kind s = .next z) : z.sec.ok := by
  unfold execXipFetch at h; cases h; simp [hs]

theorem execScratchpadAccess_secOk (who : Req) (off : Fin 2097152) (b : Beat) (s : State) (hs : s.sec.ok) (z : State) (h : execScratchpadAccess who off b s = .next z) : z.sec.ok := by
  unfold execScratchpadAccess at h; cases h; simp [apply_ite State.sec, hs]

theorem execIrqTake_secOk (who : Req) (peek : Bool) (s : State) (hs : s.sec.ok) (z : State) (h : execIrqTake who peek s = .next z) : z.sec.ok := by
  unfold execIrqTake at h; cases h; simp [hs]

theorem execIrqDone_secOk (who : Req) (v : Word) (s : State) (hs : s.sec.ok) (z : State) (h : execIrqDone who v s = .next z) : z.sec.ok := by
  unfold execIrqDone at h; cases h; simp [hs]

theorem execBankHandover_secOk (who : Req) (bank : Fin 16) (v : Word) (s : State) (hs : s.sec.ok) (z : State) (h : execBankHandover who bank v s = .next z) : z.sec.ok := by
  unfold execBankHandover at h; cases h; simp [hs]

theorem execBankCfgWrite_secOk (who : Req) (bank : Fin 16) (v : Word) (s : State) (hs : s.sec.ok) (z : State) (h : execBankCfgWrite who bank v s = .next z) : z.sec.ok := by
  unfold execBankCfgWrite at h; cases h; simp [hs]

theorem execUartTx_secOk (who : Req) (k : Fin 2) (v : Word) (s : State) (hs : s.sec.ok) (z : State) (h : execUartTx who k v s = .next z) : z.sec.ok := by
  unfold execUartTx at h; cases h; simp [hs]

theorem execUartRxRead_secOk (who : Req) (k : Fin 2) (peek : Bool) (s : State) (hs : s.sec.ok) (z : State) (h : execUartRxRead who k peek s = .next z) : z.sec.ok := by
  unfold execUartRxRead at h; cases h; simp [hs]

theorem execUartByteReceived_secOk (k : Fin 2) (data : Byte) (parityErr frameErr : Bool) (s : State) (hs : s.sec.ok) (z : State) (h : execUartByteReceived k data parityErr frameErr s = .next z) : z.sec.ok := by
  unfold execUartByteReceived at h; cases h; simp [hs]

theorem execSpiTx_secOk (who : Req) (k : Fin 2) (v : Word) (s : State) (hs : s.sec.ok) (z : State) (h : execSpiTx who k v s = .next z) : z.sec.ok := by
  unfold execSpiTx at h; cases h; simp [hs]

theorem execI2cTx_secOk (who : Req) (k : Fin 2) (v : Word) (s : State) (hs : s.sec.ok) (z : State) (h : execI2cTx who k v s = .next z) : z.sec.ok := by
  unfold execI2cTx at h; cases h; simp [hs]

theorem execPeripheralTransferComplete_secOk (k : Fin 6) (rx : BitVec 32) (nacked : Bool) (s : State) (hs : s.sec.ok) (z : State) (h : execPeripheralTransferComplete k rx nacked s = .next z) : z.sec.ok := by
  unfold execPeripheralTransferComplete at h; cases h; simp [hs]

theorem execTimerMatch_secOk (k : Fin 16) (s : State) (hs : s.sec.ok) (z : State) (h : execTimerMatch k s = .next z) : z.sec.ok := by
  unfold execTimerMatch at h; cases h; simp [hs]

theorem execTimerCapture_secOk (k : Fin 16) (s : State) (hs : s.sec.ok) (z : State) (h : execTimerCapture k s = .next z) : z.sec.ok := by
  unfold execTimerCapture at h; cases h; simp [hs]

theorem execBeaterStart_secOk (who : Req) (v : Word) (s : State) (hs : s.sec.ok) (z : State) (h : execBeaterStart who v s = .next z) : z.sec.ok := by
  unfold execBeaterStart at h; cases h; simp [hs]

theorem execBeaterRunComplete_secOk (fails : List (Fin 16 × Fin 131072 × Fin 43)) (s : State) (hs : s.sec.ok) (z : State) (h : execBeaterRunComplete fails s = .next z) : z.sec.ok := by
  unfold execBeaterRunComplete at h; cases h; simp [hs]

theorem execBeaterAbort_secOk (who : Req) (v : Word) (s : State) (hs : s.sec.ok) (z : State) (h : execBeaterAbort who v s = .next z) : z.sec.ok := by
  unfold execBeaterAbort at h; cases h; simp [hs]

theorem execBeaterYield_secOk (who : Req) (off : Fin 2097152) (write : Option Word) (s : State) (hs : s.sec.ok) (z : State) (h : execBeaterYield who off write s = .next z) : z.sec.ok := by
  unfold execBeaterYield at h; cases h; simp [hs]

theorem execBeaterAbortOnAccess_secOk (who : Req) (off : Fin 2097152) (write : Option Word) (s : State) (hs : s.sec.ok) (z : State) (h : execBeaterAbortOnAccess who off write s = .next z) : z.sec.ok := by
  unfold execBeaterAbortOnAccess at h; cases h; simp [hs]

theorem execDescWrWrite_secOk (who : Req) (v : Word) (s : State) (hs : s.sec.ok) (z : State) (h : execDescWrWrite who v s = .next z) : z.sec.ok := by
  unfold execDescWrWrite at h; cases h; simp [hs]

theorem execCmplRdWrite_secOk (who : Req) (v : Word) (s : State) (hs : s.sec.ok) (z : State) (h : execCmplRdWrite who v s = .next z) : z.sec.ok := by
  unfold execCmplRdWrite at h; cases h; simp [hs]

theorem execDescriptorDispatch_secOk (k : Nat) (s : State) (hs : s.sec.ok) (z : State) (h : execDescriptorDispatch k s = .next z) : z.sec.ok := by
  unfold execDescriptorDispatch at h; cases h; simp [hs]

theorem execFlashRead_secOk (k : Nat) (s : State) (hs : s.sec.ok) (z : State) (h : execFlashRead k s = .next z) : z.sec.ok := by
  unfold execFlashRead at h; cases h; simp [hs]

theorem execFlashProgram_secOk (k : Nat) (dieOk : Bool) (s : State) (hs : s.sec.ok) (z : State) (h : execFlashProgram k dieOk s = .next z) : z.sec.ok := by
  unfold execFlashProgram at h; cases h; split <;> simp [hs]

theorem execFlashErase_secOk (k : Nat) (dieOk : Bool) (s : State) (hs : s.sec.ok) (z : State) (h : execFlashErase k dieOk s = .next z) : z.sec.ok := by
  unfold execFlashErase at h; cases h; simp [hs]

theorem execFlashVerify_secOk (k : Nat) (s : State) (hs : s.sec.ok) (z : State) (h : execFlashVerify k s = .next z) : z.sec.ok := by
  unfold execFlashVerify at h; cases h; simp [hs]

theorem execFlashBlank_secOk (k : Nat) (s : State) (hs : s.sec.ok) (z : State) (h : execFlashBlank k s = .next z) : z.sec.ok := by
  unfold execFlashBlank at h; cases h; simp [hs]

theorem execMarginRead_secOk (k : Nat) (s : State) (hs : s.sec.ok) (z : State) (h : execMarginRead k s = .next z) : z.sec.ok := by
  unfold execMarginRead at h; cases h; simp [hs]

theorem execSwapBoot_secOk (k : Nat) (s : State) (hs : s.sec.ok) (z : State) (h : execSwapBoot k s = .next z) : z.sec.ok := by
  unfold execSwapBoot at h; cases h; simp [hs]

theorem execDescriptorComplete_secOk (k : Nat) (s : State) (hs : s.sec.ok) (z : State) (h : execDescriptorComplete k s = .next z) : z.sec.ok := by
  unfold execDescriptorComplete at h; cases h; simp [hs]

theorem execFetchedExpiry_secOk (bank : Fin 16) (s : State) (hs : s.sec.ok) (z : State) (h : execFetchedExpiry bank s = .next z) : z.sec.ok := by
  unfold execFetchedExpiry at h; cases h; exact hs

theorem execFlcRecovRead_secOk (who : Req) (peek : Bool) (s : State) (hs : s.sec.ok) (z : State) (h : execFlcRecovRead who peek s = .next z) : z.sec.ok := by
  unfold execFlcRecovRead at h; cases h; simp [hs]

theorem execParkEnd_secOk (pin : Fin 720) (s : State) (hs : s.sec.ok) (z : State) (h : execParkEnd pin s = .next z) : z.sec.ok := by
  unfold execParkEnd at h; cases h; simp [hs]

theorem execSwitchUnmask_secOk (pin : Fin 720) (s : State) (hs : s.sec.ok) (z : State) (h : execSwitchUnmask pin s = .next z) : z.sec.ok := by
  unfold execSwitchUnmask at h; cases h; simp [hs]

theorem execGpioEdge_secOk (pin : Fin 720) (rising : Bool) (s : State) (hs : s.sec.ok) (z : State) (h : execGpioEdge pin rising s = .next z) : z.sec.ok := by
  unfold execGpioEdge at h; cases h; simp [hs]

theorem execSerialiserLock_secOk (pair : Fin 360) (locked : Bool) (s : State) (hs : s.sec.ok) (z : State) (h : execSerialiserLock pair locked s = .next z) : z.sec.ok := by
  unfold execSerialiserLock at h; cases h; simp [hs]

theorem execExtest_secOk (dr : BitVec 2160) (s : State) (hs : s.sec.ok) (z : State) (h : execExtest dr s = .next z) : z.sec.ok := by
  unfold execExtest at h; cases h; simp [hs]

theorem execSamplePreload_secOk (dr : BitVec 2160) (s : State) (hs : s.sec.ok) (z : State) (h : execSamplePreload dr s = .next z) : z.sec.ok := by
  unfold execSamplePreload at h; cases h; simp [hs]

theorem execDmi_secOk (op : BitVec 2) (addr : BitVec 7) (data : BitVec 32) (s : State) (hs : s.sec.ok) (z : State) (h : execDmi op addr data s = .next z) : z.sec.ok := by
  unfold execDmi at h; cases h; (first | exact hs | (first | apply gateW_secOk | apply tap_secOk) <;> (intros; simp [*]; done) | (simp [apply_ite State.sec, apply_ite Sec.ok, *]; done) | ((try simp only [apply_ite State.sec, apply_ite Sec.ok]); repeat' (first | assumption | split | (simp [apply_ite State.sec, apply_ite Sec.ok, *]; done) | simp [apply_ite State.sec, apply_ite Sec.ok])))

theorem execBypass_secOk (code : BitVec 8) (s : State) (hs : s.sec.ok) (z : State) (h : execBypass code s = .next z) : z.sec.ok := by
  unfold execBypass at h; cases h; simp [apply_ite State.sec, hs]

theorem execDbgregUpdate_secOk (write : Bool) (addr : Addr) (data : Word) (s : State) (hs : s.sec.ok) (z : State) (h : execDbgregUpdate write addr data s = .next z) : z.sec.ok := by
  unfold execDbgregUpdate at h; cases h; (first | exact hs | (first | apply gateW_secOk | apply tap_secOk) <;> (intros; simp [*]; done) | (simp [apply_ite State.sec, apply_ite Sec.ok, *]; done) | ((try simp only [apply_ite State.sec, apply_ite Sec.ok]); repeat' (first | assumption | split | (simp [apply_ite State.sec, apply_ite Sec.ok, *]; done) | simp [apply_ite State.sec, apply_ite Sec.ok])))

theorem execAbstractCommand_secOk (write : Bool) (regno : BitVec 16) (s : State) (hs : s.sec.ok) (z : State) (h : execAbstractCommand write regno s = .next z) : z.sec.ok := by
  unfold execAbstractCommand at h; cases h; simp [hs]

theorem execSystemBusAccess_secOk (write : Bool) (addr data : BitVec 32) (s : State) (hs : s.sec.ok) (z : State) (h : execSystemBusAccess write addr data s = .next z) : z.sec.ok := by
  unfold execSystemBusAccess at h; cases h; simp [hs]

theorem execSvcEvtK_secOk (k : Nat) (s : State) (hs : s.sec.ok) (z : State) (h : execSvcEvtK k s = .next z) : z.sec.ok := by
  unfold execSvcEvtK at h; cases h; simp [hs]

theorem execSvcRgn_secOk (n : Fin 64) (s : State) (hs : s.sec.ok) (z : State) (h : execSvcRgn n s = .next z) : z.sec.ok := by
  unfold execSvcRgn at h; cases h; simp [hs]

theorem execSvcRd_secOk (addr : Addr) (peek : Bool) (s : State) (hs : s.sec.ok) (z : State) (h : execSvcRd addr peek s = .next z) : z.sec.ok := by
  unfold execSvcRd at h; cases h; simp [hs]

theorem execSvcWr_secOk (addr : Addr) (v : Word) (s : State) (hs : s.sec.ok) (z : State) (h : execSvcWr addr v s = .next z) : z.sec.ok := by
  unfold execSvcWr at h; cases h; simp [hs]

theorem execSvcSpRd_secOk (off : Fin 2097152) (s : State) (hs : s.sec.ok) (z : State) (h : execSvcSpRd off s = .next z) : z.sec.ok := by
  unfold execSvcSpRd at h; cases h; simp [hs]

theorem execSvcSpWr_secOk (off : Fin 2097152) (v : Word) (s : State) (hs : s.sec.ok) (z : State) (h : execSvcSpWr off v s = .next z) : z.sec.ok := by
  unfold execSvcSpWr at h; cases h; simp [hs]

theorem execSvcPin_secOk (pin : Fin 720) (s : State) (hs : s.sec.ok) (z : State) (h : execSvcPin pin s = .next z) : z.sec.ok := by
  unfold execSvcPin at h; cases h; simp [hs]

theorem execSvcPinHigh_secOk (pin : Fin 720) (s : State) (hs : s.sec.ok) (z : State) (h : execSvcPinHigh pin s = .next z) : z.sec.ok := by
  unfold execSvcPinHigh at h; cases h; simp [hs]

theorem execSvcPinLow_secOk (pin : Fin 720) (s : State) (hs : s.sec.ok) (z : State) (h : execSvcPinLow pin s = .next z) : z.sec.ok := by
  unfold execSvcPinLow at h; cases h; simp [hs]

theorem execSvcPinZ_secOk (pin : Fin 720) (s : State) (hs : s.sec.ok) (z : State) (h : execSvcPinZ pin s = .next z) : z.sec.ok := by
  unfold execSvcPinZ at h; cases h; simp [hs]

theorem execSvcPinSquare_secOk (pin : Fin 720) (s : State) (hs : s.sec.ok) (z : State) (h : execSvcPinSquare pin s = .next z) : z.sec.ok := by
  unfold execSvcPinSquare at h; cases h; simp [hs]

theorem execSvcPinRelease_secOk (pin : Fin 720) (s : State) (hs : s.sec.ok) (z : State) (h : execSvcPinRelease pin s = .next z) : z.sec.ok := by
  unfold execSvcPinRelease at h; cases h; simp [hs]

theorem execSvcAuthResponse_secOk (r : List (BitVec 32)) (s : State) (hs : s.sec.ok) (z : State) (h : execSvcAuthResponse r s = .next z) : z.sec.ok := by
  unfold execSvcAuthResponse at h; cases h; simp [hs]

theorem execSvcService_secOk (pinHigh : Bool) (s : State) (hs : s.sec.ok) (z : State) (h : execSvcService pinHigh s = .next z) : z.sec.ok := by
  unfold execSvcService at h; cases h; simp [hs]

theorem execSvcReboot_secOk (how : Reboot) (s : State) (hs : s.sec.ok) (z : State) (h : execSvcReboot how s = .next z) : z.sec.ok := by
  unfold execSvcReboot at h; cases h; simp [hs]

theorem execSvcBaud_secOk (n : Nat) (s : State) (hs : s.sec.ok) (z : State) (h : execSvcBaud n s = .next z) : z.sec.ok := by
  unfold execSvcBaud at h; cases h; simp [hs]

theorem execSvcInvalidLine_secOk (reason : BitVec 4) (s : State) (hs : s.sec.ok) (z : State) (h : execSvcInvalidLine reason s = .next z) : z.sec.ok := by
  unfold execSvcInvalidLine at h; cases h; simp [hs]

theorem execTestFlash_secOk (bank : Fin 16) (s : State) (hs : s.sec.ok) (z : State) (h : execTestFlash bank s = .next z) : z.sec.ok := by
  unfold execTestFlash at h; cases h; simp [hs]

theorem execTestMeshLoop_secOk (p : Fin 8) (s : State) (hs : s.sec.ok) (z : State) (h : execTestMeshLoop p s = .next z) : z.sec.ok := by
  unfold execTestMeshLoop at h; cases h; simp [hs]

theorem execTestMesh_secOk (p : Fin 8) (s : State) (hs : s.sec.ok) (z : State) (h : execTestMesh p s = .next z) : z.sec.ok := by
  unfold execTestMesh at h; cases h; simp [hs]

theorem execMeshTestLoopback_secOk (p : Fin 8) (s : State) (hs : s.sec.ok) (z : State) (h : execMeshTestLoopback p s = .next z) : z.sec.ok := by
  unfold execMeshTestLoopback at h; cases h; simp [apply_ite State.sec, hs]

theorem execMarch_secOk (bank : Fin 16) (ss preserve repair : Bool) (s : State) (hs : s.sec.ok) (z : State) (h : execMarch bank ss preserve repair s = .next z) : z.sec.ok := by
  unfold execMarch at h; cases h; simp [hs]

theorem execTestUart_secOk (k : Fin 2) (s : State) (hs : s.sec.ok) (z : State) (h : execTestUart k s = .next z) : z.sec.ok := by
  unfold execTestUart at h; cases h; simp [hs]

theorem execTestSpi_secOk (k : Fin 2) (s : State) (hs : s.sec.ok) (z : State) (h : execTestSpi k s = .next z) : z.sec.ok := by
  unfold execTestSpi at h; cases h; simp [hs]

theorem execTestI2c_secOk (k : Fin 2) (s : State) (hs : s.sec.ok) (z : State) (h : execTestI2c k s = .next z) : z.sec.ok := by
  unfold execTestI2c at h; cases h; simp [hs]

theorem execTestTmr_secOk (k : Fin 16) (s : State) (hs : s.sec.ok) (z : State) (h : execTestTmr k s = .next z) : z.sec.ok := by
  unfold execTestTmr at h; cases h; simp [hs]

theorem execSelfTestEnd_secOk (fail : Option (Code × Word)) (s : State) (hs : s.sec.ok) (z : State) (h : execSelfTestEnd fail s = .next z) : z.sec.ok := by
  unfold execSelfTestEnd at h; cases h; simp [hs]

theorem execPowerOnResetRelease_secOk (pins : ResetPins) (busActive : Bool) (s : State) (hs : s.sec.ok) (z : State) (h : execPowerOnResetRelease pins busActive s = .next z) : z.sec.ok := by
  unfold execPowerOnResetRelease at h; cases h; simp [apply_ite State.sec, hs]

theorem execPhaseMoveComplete_secOk (line : Fin 16) (s : State) (hs : s.sec.ok) (z : State) (h : execPhaseMoveComplete line s = .next z) : z.sec.ok := by
  unfold execPhaseMoveComplete at h; cases h; exact hs

theorem execDelayMoveComplete_secOk (pin : Fin 720) (s : State) (hs : s.sec.ok) (z : State) (h : execDelayMoveComplete pin s = .next z) : z.sec.ok := by
  unfold execDelayMoveComplete at h; cases h; exact hs

theorem execOverrideMaskEnd_secOk (pin : Fin 720) (s : State) (hs : s.sec.ok) (z : State) (h : execOverrideMaskEnd pin s = .next z) : z.sec.ok := by
  unfold execOverrideMaskEnd at h; cases h; exact hs

theorem execUpset_secOk (target : UpsetAt) (s : State) (hs : s.sec.ok) (z : State) (h : execUpset target s = .next z) : z.sec.ok := by
  unfold execUpset at h; cases h; simp [hs]

theorem execRcRead_secOk (who : Req) (addr : Addr) (s : State) (hs : s.sec.ok) (z : State) (h : execRcRead who addr s = .next z) : z.sec.ok := by
  unfold execRcRead at h; cases h; simp [hs]

theorem execPowerOnReset_secOk (s : State) (hs : s.sec.ok) (z : State) (h : execPowerOnReset s = .next z) : z.sec.ok := by
  unfold execPowerOnReset at h; cases h; simp [hs]

theorem execPowerGood_secOk (s : State) (hs : s.sec.ok) (z : State) (h : execPowerGood s = .next z) : z.sec.ok := by
  unfold execPowerGood at h; cases h; simp [apply_ite State.sec, hs]

theorem execRootPllLock_secOk (s : State) (hs : s.sec.ok) (z : State) (h : execRootPllLock s = .next z) : z.sec.ok := by
  unfold execRootPllLock at h; cases h; simp [apply_ite State.sec, hs]

theorem execSvcClockReturnToRoot_secOk (s : State) (hs : s.sec.ok) (z : State) (h : execSvcClockReturnToRoot s = .next z) : z.sec.ok := by
  unfold execSvcClockReturnToRoot at h; cases h; simp [apply_ite State.sec, hs]

theorem execRefclkLost_secOk (s : State) (hs : s.sec.ok) (z : State) (h : execRefclkLost s = .next z) : z.sec.ok := by
  unfold execRefclkLost at h; cases h; simp [apply_ite State.sec, hs]

theorem execPllLockLost_secOk (s : State) (hs : s.sec.ok) (z : State) (h : execPllLockLost s = .next z) : z.sec.ok := by
  unfold execPllLockLost at h; cases h; simp [apply_ite State.sec, hs]

theorem execVbattKeyLost_secOk (s : State) (hs : s.sec.ok) (z : State) (h : execVbattKeyLost s = .next z) : z.sec.ok := by
  unfold execVbattKeyLost at h; cases h
  rw [State.setB_sec]
  exact ⟨fun _ => rfl, hs.2.1, hs.2.2⟩

theorem execNsafeAssert_secOk (s : State) (hs : s.sec.ok) (z : State) (h : execNsafeAssert s = .next z) : z.sec.ok := by
  unfold execNsafeAssert at h; cases h; simp [apply_ite State.sec, hs]

theorem execBootBlockSelect_secOk (s : State) (hs : s.sec.ok) (z : State) (h : execBootBlockSelect s = .next z) : z.sec.ok := by
  unfold execBootBlockSelect at h; cases h; simp [hs]

theorem execBootRegionPowerUp_secOk (s : State) (hs : s.sec.ok) (z : State) (h : execBootRegionPowerUp s = .next z) : z.sec.ok := by
  unfold execBootRegionPowerUp at h; cases h; simp [hs]

theorem execGlobalRelease_secOk (s : State) (hs : s.sec.ok) (z : State) (h : execGlobalRelease s = .next z) : z.sec.ok := by
  unfold execGlobalRelease at h; cases h; simp [hs]

theorem execBankOutputEnable_secOk (s : State) (hs : s.sec.ok) (z : State) (h : execBankOutputEnable s = .next z) : z.sec.ok := by
  unfold execBankOutputEnable at h; cases h; simp [hs]

theorem execRetainEntryComplete_secOk (s : State) (hs : s.sec.ok) (z : State) (h : execRetainEntryComplete s = .next z) : z.sec.ok := by
  unfold execRetainEntryComplete at h; cases h; simp [hs]

theorem execWakeTimerExpiry_secOk (s : State) (hs : s.sec.ok) (z : State) (h : execWakeTimerExpiry s = .next z) : z.sec.ok := by
  unfold execWakeTimerExpiry at h; cases h; simp [apply_ite State.sec, hs]

theorem execVccramWakeTimeout_secOk (s : State) (hs : s.sec.ok) (z : State) (h : execVccramWakeTimeout s = .next z) : z.sec.ok := by
  unfold execVccramWakeTimeout at h; cases h; simp [apply_ite State.sec, hs]

theorem execContextStoreWakeClear_secOk (s : State) (hs : s.sec.ok) (z : State) (h : execContextStoreWakeClear s = .next z) : z.sec.ok := by
  unfold execContextStoreWakeClear at h; cases h; simp [hs]

theorem execI3cRstdaa_secOk (s : State) (hs : s.sec.ok) (z : State) (h : execI3cRstdaa s = .next z) : z.sec.ok := by
  unfold execI3cRstdaa at h; cases h; simp [hs]

theorem execI3cGetmwl_secOk (s : State) (hs : s.sec.ok) (z : State) (h : execI3cGetmwl s = .next z) : z.sec.ok := by
  unfold execI3cGetmwl at h; cases h; simp [hs]

theorem execI3cGetmrl_secOk (s : State) (hs : s.sec.ok) (z : State) (h : execI3cGetmrl s = .next z) : z.sec.ok := by
  unfold execI3cGetmrl at h; cases h; simp [hs]

theorem execI3cGetpid_secOk (s : State) (hs : s.sec.ok) (z : State) (h : execI3cGetpid s = .next z) : z.sec.ok := by
  unfold execI3cGetpid at h; cases h; simp [hs]

theorem execI3cGetbcr_secOk (s : State) (hs : s.sec.ok) (z : State) (h : execI3cGetbcr s = .next z) : z.sec.ok := by
  unfold execI3cGetbcr at h; cases h; simp [hs]

theorem execI3cGetdcr_secOk (s : State) (hs : s.sec.ok) (z : State) (h : execI3cGetdcr s = .next z) : z.sec.ok := by
  unfold execI3cGetdcr at h; cases h; simp [hs]

theorem execI3cGetstatus_secOk (s : State) (hs : s.sec.ok) (z : State) (h : execI3cGetstatus s = .next z) : z.sec.ok := by
  unfold execI3cGetstatus at h; cases h; simp [hs]

theorem execI3cGetmxds_secOk (s : State) (hs : s.sec.ok) (z : State) (h : execI3cGetmxds s = .next z) : z.sec.ok := by
  unfold execI3cGetmxds at h; cases h; simp [hs]

theorem execI3cGetcaps_secOk (s : State) (hs : s.sec.ok) (z : State) (h : execI3cGetcaps s = .next z) : z.sec.ok := by
  unfold execI3cGetcaps at h; cases h; simp [hs]

theorem execI3cEnthdr0_secOk (s : State) (hs : s.sec.ok) (z : State) (h : execI3cEnthdr0 s = .next z) : z.sec.ok := by
  unfold execI3cEnthdr0 at h; cases h; simp [hs]

theorem execHdrExitPattern_secOk (s : State) (hs : s.sec.ok) (z : State) (h : execHdrExitPattern s = .next z) : z.sec.ok := by
  unfold execHdrExitPattern at h; cases h; exact hs

theorem execHotJoinRequest_secOk (s : State) (hs : s.sec.ok) (z : State) (h : execHotJoinRequest s = .next z) : z.sec.ok := by
  unfold execHotJoinRequest at h; cases h; simp [apply_ite State.sec, hs]

theorem execServiceBufferDrain_secOk (s : State) (hs : s.sec.ok) (z : State) (h : execServiceBufferDrain s = .next z) : z.sec.ok := by
  unfold execServiceBufferDrain at h; cases h; simp [hs]

theorem execFcmdComplete_secOk (s : State) (hs : s.sec.ok) (z : State) (h : execFcmdComplete s = .next z) : z.sec.ok := by
  unfold execFcmdComplete at h; cases h; simp [hs]

theorem execStreamStallTimeout_secOk (s : State) (hs : s.sec.ok) (z : State) (h : execStreamStallTimeout s = .next z) : z.sec.ok := by
  unfold execStreamStallTimeout at h; cases h; simp [apply_ite State.sec, hs]

theorem execRollAdvComplete_secOk (s : State) (hs : s.sec.ok) (z : State) (h : execRollAdvComplete s = .next z) : z.sec.ok := by
  unfold execRollAdvComplete at h; cases h
  split
  · rename_i v h
    exact ⟨hs.1, le_trans hs.2.1 (hs.2.2 v h), fun _ h => nomatch h⟩
  · exact hs

theorem execMirrorComplete_secOk (s : State) (hs : s.sec.ok) (z : State) (h : execMirrorComplete s = .next z) : z.sec.ok := by
  unfold execMirrorComplete at h; cases h; simp [hs]

theorem execSwapEdge_secOk (s : State) (hs : s.sec.ok) (z : State) (h : execSwapEdge s = .next z) : z.sec.ok := by
  unfold execSwapEdge at h; cases h; simp [hs]

theorem execMeshSwapDeadline_secOk (s : State) (hs : s.sec.ok) (z : State) (h : execMeshSwapDeadline s = .next z) : z.sec.ok := by
  unfold execMeshSwapDeadline at h; cases h; simp [hs]

theorem execMeshSwapNoDecision_secOk (s : State) (hs : s.sec.ok) (z : State) (h : execMeshSwapNoDecision s = .next z) : z.sec.ok := by
  unfold execMeshSwapNoDecision at h; cases h; simp [hs]

theorem execReadbackRead_secOk (s : State) (hs : s.sec.ok) (z : State) (h : execReadbackRead s = .next z) : z.sec.ok := by
  unfold execReadbackRead at h; cases h; simp [hs]

theorem execEngineAdmission_secOk (s : State) (hs : s.sec.ok) (z : State) (h : execEngineAdmission s = .next z) : z.sec.ok := by
  unfold execEngineAdmission at h; cases h; simp [hs]

theorem execLateResponseDiscard_secOk (s : State) (hs : s.sec.ok) (z : State) (h : execLateResponseDiscard s = .next z) : z.sec.ok := by
  unfold execLateResponseDiscard at h; cases h; simp [hs]

theorem execStashDrain_secOk (s : State) (hs : s.sec.ok) (z : State) (h : execStashDrain s = .next z) : z.sec.ok := by
  unfold execStashDrain at h; cases h; simp [hs]

theorem execAgingSweepStart_secOk (s : State) (hs : s.sec.ok) (z : State) (h : execAgingSweepStart s = .next z) : z.sec.ok := by
  unfold execAgingSweepStart at h; cases h; simp [hs]

theorem execAgingVisit_secOk (s : State) (hs : s.sec.ok) (z : State) (h : execAgingVisit s = .next z) : z.sec.ok := by
  unfold execAgingVisit at h; cases h; simp [hs]

theorem execEngineEventLossReport_secOk (s : State) (hs : s.sec.ok) (z : State) (h : execEngineEventLossReport s = .next z) : z.sec.ok := by
  unfold execEngineEventLossReport at h; cases h; simp [hs]

theorem execHelloSend_secOk (s : State) (hs : s.sec.ok) (z : State) (h : execHelloSend s = .next z) : z.sec.ok := by
  unfold execHelloSend at h; cases h; simp [hs]

theorem execRouteComputationComplete_secOk (s : State) (hs : s.sec.ok) (z : State) (h : execRouteComputationComplete s = .next z) : z.sec.ok := by
  unfold execRouteComputationComplete at h; cases h; simp [hs]

theorem execRraTimeout_secOk (s : State) (hs : s.sec.ok) (z : State) (h : execRraTimeout s = .next z) : z.sec.ok := by
  unfold execRraTimeout at h; cases h; simp [hs]

theorem execPushTimeout_secOk (s : State) (hs : s.sec.ok) (z : State) (h : execPushTimeout s = .next z) : z.sec.ok := by
  unfold execPushTimeout at h; cases h; simp [hs]

theorem execTimeSyncMissed_secOk (s : State) (hs : s.sec.ok) (z : State) (h : execTimeSyncMissed s = .next z) : z.sec.ok := by
  unfold execTimeSyncMissed at h; cases h; simp [hs]

theorem execMret_secOk (s : State) (hs : s.sec.ok) (z : State) (h : execMret s = .next z) : z.sec.ok := by
  unfold execMret at h; cases h; simp [apply_ite State.sec, hs]

theorem execBeaterBlockRestart_secOk (s : State) (hs : s.sec.ok) (z : State) (h : execBeaterBlockRestart s = .next z) : z.sec.ok := by
  unfold execBeaterBlockRestart at h; cases h; exact hs

theorem execDescriptorFetch_secOk (s : State) (hs : s.sec.ok) (z : State) (h : execDescriptorFetch s = .next z) : z.sec.ok := by
  unfold execDescriptorFetch at h; cases h; simp [hs]

theorem execGapMove_secOk (s : State) (hs : s.sec.ok) (z : State) (h : execGapMove s = .next z) : z.sec.ok := by
  unfold execGapMove at h; cases h; simp [hs]

theorem execGapMoveComplete_secOk (s : State) (hs : s.sec.ok) (z : State) (h : execGapMoveComplete s = .next z) : z.sec.ok := by
  unfold execGapMoveComplete at h; cases h; simp [hs]

theorem execRecoveryCheck_secOk (s : State) (hs : s.sec.ok) (z : State) (h : execRecoveryCheck s = .next z) : z.sec.ok := by
  unfold execRecoveryCheck at h; cases h; simp [hs]

theorem execRecoveryErase_secOk (s : State) (hs : s.sec.ok) (z : State) (h : execRecoveryErase s = .next z) : z.sec.ok := by
  unfold execRecoveryErase at h; cases h; simp [hs]

theorem execTapReset_secOk (s : State) (hs : s.sec.ok) (z : State) (h : execTapReset s = .next z) : z.sec.ok := by
  unfold execTapReset at h; cases h; simp [apply_ite State.sec, hs]

theorem execIdcode_secOk (s : State) (hs : s.sec.ok) (z : State) (h : execIdcode s = .next z) : z.sec.ok := by
  unfold execIdcode at h; cases h; simp [hs]

theorem execClamp_secOk (s : State) (hs : s.sec.ok) (z : State) (h : execClamp s = .next z) : z.sec.ok := by
  unfold execClamp at h; cases h; simp [hs]

theorem execHighz_secOk (s : State) (hs : s.sec.ok) (z : State) (h : execHighz s = .next z) : z.sec.ok := by
  unfold execHighz at h; cases h; simp [hs]

theorem execDtmcs_secOk (s : State) (hs : s.sec.ok) (z : State) (h : execDtmcs s = .next z) : z.sec.ok := by
  unfold execDtmcs at h; cases h; simp [hs]

theorem execHaltRequest_secOk (s : State) (hs : s.sec.ok) (z : State) (h : execHaltRequest s = .next z) : z.sec.ok := by
  unfold execHaltRequest at h; cases h; simp [hs]

theorem execResumeRequest_secOk (s : State) (hs : s.sec.ok) (z : State) (h : execResumeRequest s = .next z) : z.sec.ok := by
  unfold execResumeRequest at h; cases h; simp [hs]

theorem execDebuggerDetach_secOk (s : State) (hs : s.sec.ok) (z : State) (h : execDebuggerDetach s = .next z) : z.sec.ok := by
  unfold execDebuggerDetach at h; cases h; simp [hs]

theorem execChallengeExpiry_secOk (s : State) (hs : s.sec.ok) (z : State) (h : execChallengeExpiry s = .next z) : z.sec.ok := by
  unfold execChallengeExpiry at h; cases h; exact hs

theorem execWatchdogExpiry_secOk (s : State) (hs : s.sec.ok) (z : State) (h : execWatchdogExpiry s = .next z) : z.sec.ok := by
  unfold execWatchdogExpiry at h; cases h; simp [apply_ite State.sec, hs]

theorem execSvcId_secOk (s : State) (hs : s.sec.ok) (z : State) (h : execSvcId s = .next z) : z.sec.ok := by
  unfold execSvcId at h; cases h; simp [hs]

theorem execSvcMode_secOk (s : State) (hs : s.sec.ok) (z : State) (h : execSvcMode s = .next z) : z.sec.ok := by
  unfold execSvcMode at h; cases h; simp [hs]

theorem execSvcHealth_secOk (s : State) (hs : s.sec.ok) (z : State) (h : execSvcHealth s = .next z) : z.sec.ok := by
  unfold execSvcHealth at h; cases h; simp [hs]

theorem execSvcFs_secOk (s : State) (hs : s.sec.ok) (z : State) (h : execSvcFs s = .next z) : z.sec.ok := by
  unfold execSvcFs at h; cases h; simp [hs]

theorem execSvcErrLast_secOk (s : State) (hs : s.sec.ok) (z : State) (h : execSvcErrLast s = .next z) : z.sec.ok := by
  unfold execSvcErrLast at h; cases h; simp [hs]

theorem execSvcEvtLast_secOk (s : State) (hs : s.sec.ok) (z : State) (h : execSvcEvtLast s = .next z) : z.sec.ok := by
  unfold execSvcEvtLast at h; cases h; simp [hs]

theorem execSvcI3c_secOk (s : State) (hs : s.sec.ok) (z : State) (h : execSvcI3c s = .next z) : z.sec.ok := by
  unfold execSvcI3c at h; cases h; simp [hs]

theorem execSvcBoot_secOk (s : State) (hs : s.sec.ok) (z : State) (h : execSvcBoot s = .next z) : z.sec.ok := by
  unfold execSvcBoot at h; cases h; simp [hs]

theorem execSvcPwr_secOk (s : State) (hs : s.sec.ok) (z : State) (h : execSvcPwr s = .next z) : z.sec.ok := by
  unfold execSvcPwr at h; cases h; simp [hs]

theorem execSvcTemp_secOk (s : State) (hs : s.sec.ok) (z : State) (h : execSvcTemp s = .next z) : z.sec.ok := by
  unfold execSvcTemp at h; cases h; simp [hs]

theorem execSvcCalStat_secOk (s : State) (hs : s.sec.ok) (z : State) (h : execSvcCalStat s = .next z) : z.sec.ok := by
  unfold execSvcCalStat at h; cases h; simp [hs]

theorem execSvcRgnAll_secOk (s : State) (hs : s.sec.ok) (z : State) (h : execSvcRgnAll s = .next z) : z.sec.ok := by
  unfold execSvcRgnAll at h; cases h; simp [hs]

theorem execSvcImg_secOk (s : State) (hs : s.sec.ok) (z : State) (h : execSvcImg s = .next z) : z.sec.ok := by
  unfold execSvcImg at h; cases h; simp [hs]

theorem execSvcSwap_secOk (s : State) (hs : s.sec.ok) (z : State) (h : execSvcSwap s = .next z) : z.sec.ok := by
  unfold execSvcSwap at h; cases h; simp [hs]

theorem execSvcRhx_secOk (s : State) (hs : s.sec.ok) (z : State) (h : execSvcRhx s = .next z) : z.sec.ok := by
  unfold execSvcRhx at h; cases h; simp [hs]

theorem execSvcMesh_secOk (s : State) (hs : s.sec.ok) (z : State) (h : execSvcMesh s = .next z) : z.sec.ok := by
  unfold execSvcMesh at h; cases h; simp [hs]

theorem execSvcMeshTime_secOk (s : State) (hs : s.sec.ok) (z : State) (h : execSvcMeshTime s = .next z) : z.sec.ok := by
  unfold execSvcMeshTime at h; cases h; simp [hs]

theorem execSvcWdt_secOk (s : State) (hs : s.sec.ok) (z : State) (h : execSvcWdt s = .next z) : z.sec.ok := by
  unfold execSvcWdt at h; cases h; simp [hs]

theorem execSvcAuth_secOk (s : State) (hs : s.sec.ok) (z : State) (h : execSvcAuth s = .next z) : z.sec.ok := by
  unfold execSvcAuth at h; cases h; simp [hs]

theorem execSvcLogout_secOk (s : State) (hs : s.sec.ok) (z : State) (h : execSvcLogout s = .next z) : z.sec.ok := by
  unfold execSvcLogout at h; cases h; simp [hs]

theorem execSvcAuthTimeout_secOk (s : State) (hs : s.sec.ok) (z : State) (h : execSvcAuthTimeout s = .next z) : z.sec.ok := by
  unfold execSvcAuthTimeout at h; cases h; exact hs

theorem execSvcServiceExit_secOk (s : State) (hs : s.sec.ok) (z : State) (h : execSvcServiceExit s = .next z) : z.sec.ok := by
  unfold execSvcServiceExit at h; cases h; simp [hs]

theorem execSvcWake_secOk (s : State) (hs : s.sec.ok) (z : State) (h : execSvcWake s = .next z) : z.sec.ok := by
  unfold execSvcWake at h; cases h; simp [hs]

theorem execSvcBaudHoldExpiry_secOk (s : State) (hs : s.sec.ok) (z : State) (h : execSvcBaudHoldExpiry s = .next z) : z.sec.ok := by
  unfold execSvcBaudHoldExpiry at h; cases h; simp [apply_ite State.sec, hs]

theorem execTestEngine_secOk (s : State) (hs : s.sec.ok) (z : State) (h : execTestEngine s = .next z) : z.sec.ok := by
  unfold execTestEngine at h; cases h; simp [hs]

theorem execTestCal_secOk (s : State) (hs : s.sec.ok) (z : State) (h : execTestCal s = .next z) : z.sec.ok := by
  unfold execTestCal at h; cases h; simp [hs]

theorem execTestWdt_secOk (s : State) (hs : s.sec.ok) (z : State) (h : execTestWdt s = .next z) : z.sec.ok := by
  unfold execTestWdt at h; cases h; simp [hs]

theorem execTestClk_secOk (s : State) (hs : s.sec.ok) (z : State) (h : execTestClk s = .next z) : z.sec.ok := by
  unfold execTestClk at h; cases h; simp [hs]

theorem execSelfTestAbort_secOk (s : State) (hs : s.sec.ok) (z : State) (h : execSelfTestAbort s = .next z) : z.sec.ok := by
  unfold execSelfTestAbort at h; cases h; simp [hs]

theorem execVccramRunWindowEntry_secOk (s : State) (hs : s.sec.ok) (z : State) (h : execVccramRunWindowEntry s = .next z) : z.sec.ok := by
  unfold execVccramRunWindowEntry at h; cases h; simp [apply_ite State.sec, hs]

theorem execSvcRxOvf_secOk (s : State) (hs : s.sec.ok) (z : State) (h : execSvcRxOvf s = .next z) : z.sec.ok := by
  unfold execSvcRxOvf at h; cases h; exact hs

theorem execSoftResetFirstWrite_secOk (who : Req) (s : State) (hs : s.sec.ok) (z : State) (h : execSoftResetFirstWrite who s = .next z) : z.sec.ok := by
  unfold execSoftResetFirstWrite at h; cases h; (first | exact hs | (first | apply gateW_secOk | apply tap_secOk) <;> (intros; simp [*]; done) | (simp [apply_ite State.sec, apply_ite Sec.ok, *]; done) | ((try simp only [apply_ite State.sec, apply_ite Sec.ok]); repeat' (first | assumption | split | (simp [apply_ite State.sec, apply_ite Sec.ok, *]; done) | simp [apply_ite State.sec, apply_ite Sec.ok])))

theorem execSoftResetSecondWrite_secOk (who : Req) (s : State) (hs : s.sec.ok) (z : State) (h : execSoftResetSecondWrite who s = .next z) : z.sec.ok := by
  unfold execSoftResetSecondWrite at h; cases h; (first | exact hs | (first | apply gateW_secOk | apply tap_secOk) <;> (intros; simp [*]; done) | (simp [apply_ite State.sec, apply_ite Sec.ok, *]; done) | ((try simp only [apply_ite State.sec, apply_ite Sec.ok]); repeat' (first | assumption | split | (simp [apply_ite State.sec, apply_ite Sec.ok, *]; done) | simp [apply_ite State.sec, apply_ite Sec.ok])))

theorem execRetainRequest_secOk (who : Req) (s : State) (hs : s.sec.ok) (z : State) (h : execRetainRequest who s = .next z) : z.sec.ok := by
  unfold execRetainRequest at h; cases h; (first | exact hs | (first | apply gateW_secOk | apply tap_secOk) <;> (intros; simp [*]; done) | (simp [apply_ite State.sec, apply_ite Sec.ok, *]; done) | ((try simp only [apply_ite State.sec, apply_ite Sec.ok]); repeat' (first | assumption | split | (simp [apply_ite State.sec, apply_ite Sec.ok, *]; done) | simp [apply_ite State.sec, apply_ite Sec.ok])))

theorem execWakeRequest_secOk (who : Req) (s : State) (hs : s.sec.ok) (z : State) (h : execWakeRequest who s = .next z) : z.sec.ok := by
  unfold execWakeRequest at h; cases h; (first | exact hs | (first | apply gateW_secOk | apply tap_secOk) <;> (intros; simp [*]; done) | (simp [apply_ite State.sec, apply_ite Sec.ok, *]; done) | ((try simp only [apply_ite State.sec, apply_ite Sec.ok]); repeat' (first | assumption | split | (simp [apply_ite State.sec, apply_ite Sec.ok, *]; done) | simp [apply_ite State.sec, apply_ite Sec.ok])))

theorem execClockLineWrite_secOk (who : Req) (line : Fin 16) (v : Word) (s : State) (hs : s.sec.ok) (z : State) (h : execClockLineWrite who line v s = .next z) : z.sec.ok := by
  unfold execClockLineWrite at h; cases h; simp [hs]

theorem execClaim_secOk (who : Req) (addr : Addr) (v : Word) (s : State) (hs : s.sec.ok) (z : State) (h : execClaim who addr v s = .next z) : z.sec.ok := by
  unfold execClaim at h; cases h; simp [hs]

theorem execRelease_secOk (who : Req) (addr : Addr) (v : Word) (s : State) (hs : s.sec.ok) (z : State) (h : execRelease who addr v s = .next z) : z.sec.ok := by
  unfold execRelease at h; cases h; simp [hs]

theorem execTimeRead_secOk (who : Req) (s : State) (hs : s.sec.ok) (z : State) (h : execTimeRead who s = .next z) : z.sec.ok := by
  unfold execTimeRead at h; cases h; simp [hs]

theorem execPinCfgWrite_secOk (who : Req) (pin : Fin 720) (v : Word) (s : State) (hs : s.sec.ok) (z : State) (h : execPinCfgWrite who pin v s = .next z) : z.sec.ok := by
  unfold execPinCfgWrite at h; cases h; simp [hs]

theorem execGpioWrite_secOk (who : Req) (pin : Fin 720) (v : Word) (s : State) (hs : s.sec.ok) (z : State) (h : execGpioWrite who pin v s = .next z) : z.sec.ok := by
  unfold execGpioWrite at h; cases h; simp [hs]

theorem execPinDlyWrite_secOk (who : Req) (pin : Fin 720) (v : Word) (s : State) (hs : s.sec.ok) (z : State) (h : execPinDlyWrite who pin v s = .next z) : z.sec.ok := by
  unfold execPinDlyWrite at h; cases h; simp [hs]

theorem execNewChal_secOk (who : Req) (v : Word) (s : State) (hs : s.sec.ok) (z : State) (h : execNewChal who v s = .next z) : z.sec.ok := by
  unfold execNewChal at h; cases h; simp [hs]

theorem execCheck_secOk (who : Req) (v : Word) (s : State) (hs : s.sec.ok) (z : State) (h : execCheck who v s = .next z) : z.sec.ok := by
  unfold execCheck at h; cases h; simp [hs]

theorem execDrop_secOk (who : Req) (v : Word) (s : State) (hs : s.sec.ok) (z : State) (h : execDrop who v s = .next z) : z.sec.ok := by
  unfold execDrop at h; cases h; simp [hs]

theorem execWdtKickFirst_secOk (who : Req) (s : State) (hs : s.sec.ok) (z : State) (h : execWdtKickFirst who s = .next z) : z.sec.ok := by
  unfold execWdtKickFirst at h; cases h; simp [hs]

theorem execWdtKickSecond_secOk (who : Req) (s : State) (hs : s.sec.ok) (z : State) (h : execWdtKickSecond who s = .next z) : z.sec.ok := by
  unfold execWdtKickSecond at h; cases h; simp [hs]

theorem execWdtLock_secOk (who : Req) (v : Word) (s : State) (hs : s.sec.ok) (z : State) (h : execWdtLock who v s = .next z) : z.sec.ok := by
  unfold execWdtLock at h; cases h; simp [hs]

theorem execSwapEdgeRead_secOk (who : Req) (s : State) (hs : s.sec.ok) (z : State) (h : execSwapEdgeRead who s = .next z) : z.sec.ok := by
  unfold execSwapEdgeRead at h; cases h; simp [hs]

end Sys2Proof.Machine
end

