-- ==== Sys2Proof/Tests/Slice0.lean ====
section
/-! SUPPORT. The model's own tests: commands that are not well formed are refused by the check; one-step tests from the spec's words; and
for every statement that has hypotheses a concrete state and operands that meet them, clause by clause. -/

open Sys2Proof Sys2Proof.Machine

namespace Sys2Proof.Tests

set_option Elab.async false

/-- The part in RUN, nothing under way. -/
def live : State := { State.reset with mode := .run }

/-- The part in a mode. -/
def inMode (m : Mode) : State := { State.reset with mode := m }

/-- The state with other power and start-up state. -/
def atBoot (s : State) (b : Boot) : State := { s with boot := b }

/-- The state with a function in a state of R45. -/
def fnAt (s : State) (f : Func) (st : Nat) : State := s.setFn f st

/-- In RUN, with the fabric's clocks running, line 0 among them, and its outputs open. -/
def clocked : State := (atBoot live { fabricOn := true, opened := true }).setReg (Reg.clkGcl 0) 0x800000000

/-- The state with a configuration word of region 0's first plane. -/
def cfgAt (s : State) (seg col minor word : Nat) (v : Word) : State := s.setCfg (cfgKey false seg col minor word) { data := v }

/-- A FIFO in region 0, column 6, row 0, with `cnt` entries; `v` is its first settings word. -/
def fifoWith (v : Word) (cnt : Nat) : State := (cfgAt clocked 0 6 0 0 v).setRam 0 6 0 { cnt := cnt }

/-- In RUN, with the loader as given. -/
def loading (l : Loader) : State := { live with ld := l }

/-- In RUN, with the security store as given and three rollback values allowed. -/
def secAt (x : Sec) : State := { live with sec := x }

/-- Region 0's shadow is COMMITTED, its image is in a slot, and CFG.SWAP_SET names it. -/
def swapReady : State :=
  ((live.setReg Reg.cfgSwapSet0 1).setReg (Reg.cfgShState 0) 2).setReg (Reg.cfgRsh 0) 0x800000001

/-- In RUN, port 0's link ACTIVE, address 5, MSTATE `m`. -/
def meshed (m : Nat) : State := (live.setReg (Reg.mshPStatus 0) 0x300000).setReg Reg.mshNodeStatus (wd (m <<< 33 ||| 0x101400000))

theorem swapReady_ok : swapRefusal swapReady 1 (fld (0x6D1000000 : Word) 35 24) = none := by
  have h : noSlotFor swapReady (setRegions (swapSet swapReady)) = none := by
    have e : setRegions (swapSet swapReady) = [0] := by decide +kernel
    have f : (swapReady.rsh 0).getLsbD 35 = true := by decide +kernel
    rw [e]
    simp [noSlotFor, f]
  unfold swapRefusal
  simp only [h]
  decide +kernel

/-- A flash array without wrong bits is read without leaving a trace. -/
theorem flashRds_clean (l : List Nat) (s : State) (h : ∀ a, ∃ w, (s.fa a).chk = .good w) : (flashRds l s).2 = s := by
  induction l with
  | nil => rfl
  | cons a l ih =>
    obtain ⟨w, hw⟩ := h a
    unfold flashRds
    simp only [flashRd, cellRd, hw]
    exact ih

theorem factory_good (s : State) (h : s.flash.mem = factoryJournal) (a : Nat) : ∃ w, (s.fa a).chk = .good w := by
  have hz : ∀ m : Store Cell, (∀ e ∈ m, e.2.err = 0) → (Store.get (fun _ => flashErased) m a).err = 0 := by
    intro m
    induction m with
    | nil => intro _; rfl
    | cons e m ih =>
      intro hm
      unfold Store.get
      split
      · exact hm e (List.mem_cons_self ..)
      · exact ih (fun x hx => hm x (List.mem_cons_of_mem _ hx))
  have h0 : (s.fa a).err = 0 := by
    unfold State.fa
    rw [h]
    exact hz _ (by decide)
  refine ⟨(s.fa a).data, ?_⟩
  unfold Cell.chk secded
  rw [h0]
  rfl

/-- A slot of an erased array has no header. -/
theorem slotKnown_erased : slotKnown (rgnSlot (live.setReg (Reg.rgnStatus 0) 0x10) 0) (live.setReg (Reg.rgnStatus 0) 0x10) =
    (false, live.setReg (Reg.rgnStatus 0) 0x10) := by
  have e : slotHeader (rgnSlot (live.setReg (Reg.rgnStatus 0) 0x10) 0) (live.setReg (Reg.rgnStatus 0) 0x10) =
      (.error (0x213, 0), live.setReg (Reg.rgnStatus 0) 0x10) := by
    unfold slotHeader slotWords flashWords
    rw [flashRds_clean _ _ (factory_good _ rfl)]
    exact if_pos (by decide +kernel)
  unfold slotKnown
  rw [e]
  exact if_neg (by decide +kernel)

/-- In RUN, with the engine ON, its state as given. -/
def engined (e : Engine) : State := { fnAt clocked .rhx fnOn with eng := e }

/-- An admitted operation of the command window, by the first word of its request. -/
def opOf (w0 : Word) : Op := { id := 0, rq := 9, who := rqCore, req := ⟨w0, 0, 0, 0⟩, phase := .admitted }

/-- The engine with one operation in its slots. -/
def oneOp (o : Op) : State := engined { slots := [o] }

/-- A program of one instruction: RET with result 1. -/
def retProg : List Cell := [{ data := 0xFC0000001 }]

/-- The four words of an entry at a place. -/
def entAt (p : Nat) (w0 : Word) : Store Cell := [(4 * p, { data := w0 }), (4 * p + 3, { data := 0x800000000 })]

/-- Both buckets of the key 0 and the stash full with entries that lie in those two buckets. -/
def fullTables : Engine :=
  let h := buckets live 0 0
  { slots := [opOf 0x200000000],
    key := (List.range 4).flatMap (fun i => entAt (4 * h.1 + i) 1 ++ entAt (4 * h.2 + i) 1) ++
      (List.range 4).flatMap (fun i => entAt (4 * (buckets live 0 1).1 + i) 1 ++ entAt (4 * (buckets live 0 1).2 + i) 1),
    stash := (List.range 64).flatMap (fun i => entAt i 1) }

/-- No word of the engine's memories has a wrong bit. -/
def EngClean (s : State) : Prop := ∀ m ix, (s.engCell m ix).err = 0

theorem engClean_of (s : State) (hc : ∀ e ∈ s.eng.ctx, e.2.err = 0) (hk : ∀ e ∈ s.eng.key, e.2.err = 0)
    (hs : ∀ e ∈ s.eng.stash, e.2.err = 0) (hw : ∀ e ∈ s.eng.wc, e.2.err = 0) : EngClean s := by
  have hz : ∀ (m : Store Cell) (ix : Nat), (∀ e ∈ m, e.2.err = 0) → (Store.get (fun _ => {}) m ix).err = 0 := by
    intro m ix
    induction m with
    | nil => intro _; rfl
    | cons e m ih =>
      intro hm
      unfold Store.get
      split
      · exact hm e (List.mem_cons_self ..)
      · exact ih (fun x hx => hm x (List.mem_cons_of_mem _ hx))
  intro m ix
  cases m
  · exact hz _ _ hc
  · exact hz _ _ hk
  · exact hz _ _ hs
  · exact hz _ _ hw

theorem engReads_clean (s : State) (h : EngClean s) (m : EngMem) (n : Nat) :
    ∀ ix, (engReads m ix n s).2 = s ∧ (engReads m ix n s).1.any Option.isNone = false := by
  have h1 : ∀ ix, engRead m ix s = (some (s.engCell m ix).data, s) := by
    intro ix
    unfold engRead Cell.chk secded
    rw [h m ix]
    rfl
  induction n with
  | zero => exact fun ix => ⟨rfl, rfl⟩
  | succ n ih =>
    intro ix
    have e := ih (ix + 1)
    refine ⟨?_, ?_⟩
    · show (engReads m (ix + 1) n (engRead m ix s).2).2 = s
      rw [h1]
      exact e.1
    · show List.any ((engRead m ix s).1 :: (engReads m (ix + 1) n (engRead m ix s).2).1) Option.isNone = false
      rw [h1]
      exact e.2

theorem wcCheck_clean (s : State) (h : EngClean s) (i : Nat) : wcCheck i s = s := by
  unfold wcCheck
  have e := engReads_clean s h .wildcard 7 (wcIx i)
  simp only [e.1, e.2]
  rfl

theorem entCheck_clean (s : State) (h : EngClean s) (l : Nat) : entCheck l s = s := by
  unfold entCheck
  have e := engReads_clean s h (locMem l).1 4 (locMem l).2
  simp only [e.1, e.2]
  rfl

theorem forAll_clean {α : Type} (f : α → State → State) (s : State) (h : ∀ x, f x s = s) (l : List α) : forAll l f s = s := by
  unfold forAll
  induction l with
  | nil => rfl
  | cons x l ih => rw [List.foldl_cons, h x]; exact ih

theorem bucketCheck_clean (s : State) (h : EngClean s) (b : Nat) : bucketCheck b s = s :=
  forAll_clean _ s (fun _ => entCheck_clean s h _) _

theorem stashCheck_clean (s : State) (h : EngClean s) : stashCheck s = s := forAll_clean _ s (fun _ => entCheck_clean s h _) _

theorem keyFind_clean (s : State) (h : EngClean s) (cls : Nat) (key : BitVec 108) (r : Option Nat)
    (hr : (keyPlaces s cls key).find? (fun l => entMatch (entGet s l) cls key) = r) : keyFind cls key s = (r, s) := by
  unfold keyFind
  rw [forAll_clean entCheck s (fun x => entCheck_clean s h x)]
  exact congrArg (·, s) hr

theorem opFind_miss (s : State) (h : EngClean s) (o : Op) (hw : reqWc o.req = 0)
    (hr : (keyPlaces s (reqClass o.req) (opKey o)).find? (fun l => entMatch (entGet s l) (reqClass o.req) (opKey o)) = none) :
    opFind o s = (none, s) := by
  unfold opFind
  have e : (if reqWc o.req = 2 then (none, s) else keyFind (reqClass o.req) (opKey o) s) = (none, s) := by
    rw [if_neg (by rw [hw]; decide), keyFind_clean s h _ _ none hr]
  dsimp only
  rw [e]
  exact if_pos hw

theorem opFind_hit (s : State) (h : EngClean s) (o : Op) (l : Nat) (f : Found) (hw : reqWc o.req ≠ 2)
    (hr : (keyPlaces s (reqClass o.req) (opKey o)).find? (fun l => entMatch (entGet s l) (reqClass o.req) (opKey o)) = some l)
    (hf : f = ⟨entCtx (entGet s l), (hitOf l).1, (entGet s l).w3, (hitOf l).2⟩) : opFind o s = (some f, ageZero l s) := by
  unfold opFind
  have e : (if reqWc o.req = 2 then (none, s) else keyFind (reqClass o.req) (opKey o) s) = (some l, s) := by
    rw [if_neg hw, keyFind_clean s h _ _ _ hr]
  dsimp only
  rw [e, hf]

/-- In full buckets that send their entries to each other no displacement path is found. -/
theorem findPath_full (s : State) (h : EngClean s) (B : List Nat)
    (hB : ∀ b ∈ B, freeSlot s b = none ∧ ∀ i : Fin 4, otherBucket s (4 * b + i) ∈ B) (n : Nat) :
    ∀ c ∈ B, ∀ i, findPath c i n s = (none, s) := by
  induction n with
  | zero => exact fun _ _ _ => rfl
  | succ n ih =>
    intro c hc i
    have ho := (hB c hc).2 ⟨(i - 1) % 4, Nat.mod_lt _ (by decide)⟩
    unfold findPath
    simp only [bucketCheck_clean s h]
    rw [(hB _ ho).1]
    simp only [ih _ ho]

theorem keyPlace_full (s : State) (h : EngClean s) (e : Quad) (B : List Nat)
    (hB : ∀ b ∈ B, freeSlot s b = none ∧ ∀ i : Fin 4, otherBucket s (4 * b + i) ∈ B)
    (h0 : (buckets s (entClass e) (entKey e)).1 ∈ B) (h1 : (buckets s (entClass e) (entKey e)).2 ∈ B) (hs : freeStash s = none) :
    keyPlace e s = (false, s) := by
  have hb : bucketPlace e s = (none, s) := by
    unfold bucketPlace
    simp only [bucketCheck_clean s h, (hB _ h0).1, (hB _ h1).1, findPath_full s h B hB 32 _ h0 1]
  unfold keyPlace
  rw [hb]
  simp only [stashCheck_clean s h, hs]

theorem one_clean (e : Engine) (hc : e.ctx = []) (hk : e.key = []) (hw : e.wc = []) (hs : ∀ x ∈ e.stash, x.2.err = 0) : EngClean (engined e) :=
  engClean_of _ (by show ∀ x ∈ e.ctx, _; rw [hc]; nofun) (by show ∀ x ∈ e.key, _; rw [hk]; nofun) hs
    (by show ∀ x ∈ e.wc, _; rw [hw]; nofun)

theorem oneOp_clean (o : Op) : EngClean (oneOp o) := one_clean _ rfl rfl rfl (by nofun)

theorem wcBusy_clean : EngClean ((begin rqCore (engined {})).setB Reg.rhxWcStatus 0 true) := one_clean {} rfl rfl rfl (by nofun)

theorem full_clean : EngClean (engined fullTables) :=
  engClean_of _ (by nofun) (by decide +kernel) (by decide +kernel) (by nofun)

def fullB : List Nat := [(buckets live 0 0).1, (buckets live 0 0).2, (buckets live 0 1).1, (buckets live 0 1).2]

theorem fullB_closed : ∀ b ∈ fullB, freeSlot (engined fullTables) b = none ∧
    ∀ i : Fin 4, otherBucket (engined fullTables) (4 * b + i) ∈ fullB := by decide +kernel

/-- A frame of link words with no payload. -/
def frame (l0 h : Word) : List Word := [l0, h, wd (Crypto.crc32c ([l0, h].flatMap (fun w => Crypto.beBytes 5 w.toNat))).toNat]

/-- A link word with its CRC. -/
def linkWord (w : Word) : Word := wd (w.toNat + linkCrc8 w)

/-- In RUN with a link ACTIVE, the mesh's state as given. -/
def meshAt (m : Nat) (x : Mesh) : State := { meshed m with mesh := x }

def onPort (q : Port) : State := meshAt 2 { ports := [(0, q)] }

/-- A port that trains, with LINK at `l`. -/
def training (l : Nat) : State := (fnAt live (.mesh 0) fnOn).setLink 0 l

theorem pair_of {α β : Type} {a : α × β} {x : α} (h : a.1 = x) : a = (x, a.2) := by
  cases a
  cases h
  rfl

theorem pair_some {α β : Type} (a : Option α × β) (d : α) (h : a.1.isSome = true) : a = (some (a.1.getD d), a.2) := by
  obtain ⟨o, b⟩ := a
  cases o with
  | none => cases h
  | some x => rfl

/-- In RUN, the core running, every scratchpad bank written to zero. -/
def coreLive : State := { live with core := { running := true }, scr := { zeroed := 0xFFFF } }

/-- A debugger at FULL, with the debug module active. -/
def debugged (s : State) : State := { s with dbg := { level := some 2, dmactive := true } }

theorem bad_not {c : Chk} (h : c = .bad) (v : Word) : c ≠ .good v := by
  rw [h]
  nofun

/-- STREAM interface 0 in region 0, whose outputs are open, with its state as given. -/
def streaming (t : St) : State :=
  { (atBoot (meshed 2) clocked.boot).setReg (Reg.clkGcl 0) 0x800000000 with
    eng := { hosts := [(16, 1)] }, mesh := { st := [(0, t)] } }

/-- Of the first row of the scratchpad, which holds zeros, every word reads good. -/
theorem coreLive_row (j : Nat) (_ : 0 < j) (h : j / 4 = 0) : (scrCell coreLive j).chk = .good ((fun _ => 0 : Nat → Word) j) := by
  have h3 : j < 4 := by omega
  interval_cases j <;> rfl

/-- A destructive run of the Beater on bank 0. -/
def beating (b : Beater) : State := { live with scr := { zeroed := 0xFFFF, beater := b } }

/-- In RUN, the flash controller ON, with the descriptors as given. -/
def flashing (l : List Desc) : State := { fnAt coreLive .flc fnOn with flash := { descs := l } }

/-- A descriptor by its first word, the others 0: sector 0, page 0, scratchpad address 0. -/
def descOf (w0 : Word) : Desc := { d := ⟨w0, 0, 0, 0⟩ }

/-- One descriptor, dispatched with its OP. -/
def dispatched (w0 : Word) : State := flashing [{ descOf w0 with active := true }]

/-- In RUN with the safe-level store loaded: pins follow their settings. -/
def pinned : State := atBoot live { safeLoaded := true }

theorem opt_some {α : Type} (o : Option α) (d : α) (h : o.isSome = true) : o = some (o.getD d) := by
  cases o with
  | none => cases h
  | some a => rfl

/-- SERVICE with the root clock, the Write gate open for one who has authenticated. -/
def servicing : State := ((inMode .service).setReg Reg.clkRoot 2).setReg Reg.svcStatus 1

/-- A self-test under way in SERVICE. -/
def testing (t : TestRun) : State := { servicing with svc := { test := some t } }

theorem live_sec : SecInv live := ⟨fun _ => rfl, Nat.le_refl _, fun t h => by cases h⟩


/-! ### Commands that are not well formed are refused by the check -/

theorem test_ill_formed_operands : [
    Instr.temperatureSample [0], .requestPromotedUrgent 20 ⟨0, true⟩, .registerReadTransfer 0 0, .hdrDdrRead 0, .streamHeader [],
    .streamHeader (List.replicate 257 0), .tagSegment [], .linkPacketReceived 0 [0, 0], .linkPacketReceived 0 (List.replicate 68 0),
    .join 0 ⟨0, 0, false, 0, 0, 0, 0, 0, 0⟩ (List.replicate 9 ⟨0, 0, 0⟩), .lsa 0 ⟨0, 0, 0, List.replicate 9 ⟨0, 0, 0⟩⟩,
    .packetForward none ⟨0, 0, 0, 0, 0, false, 0, List.replicate 65 0⟩, .imgData 0 false false false 0 [],
    .imgData 0 false false false 0 (List.replicate 64 0), .imgRb [], .user 0 0 0 false 0 [], .svcEvtK 0, .svcEvtK 17,
    .svcAuthResponse [], .svcBaud 9600, .svcInvalidLine 0, .svcInvalidLine 4].all (fun i => !i.wf) = true := by decide +kernel

theorem test_ill_formed_upsets : [
    Instr.upset (.config false 0 29 0 0 0), .upset (.config false 0 0 64 0 0), .upset (.config false 0 6 16 0 0), .upset (.config false 64 0 2 0 0),
    .upset (.config false 79 0 4 0 0), .upset (.config false 80 0 1 0 0), .upset (.config false 88 0 34 0 0), .upset (.config false 89 0 0 0 0),
    .upset (.lut ⟨0, 6, 0, 0⟩ 0), .upset (.ram36 ⟨0, 0, 0⟩ 0 0), .upset (.golden false ⟨0, 28, 0, 0⟩ 0), .upset (.engine .key 4194304 0),
    .enginePatrol .stash 256, .enginePatrol .wildcard 57344].all (fun i => !i.wf) = true := by decide +kernel

theorem test_ill_formed_requesters : [
    Instr.registerWrite 0 0 0, .claim 7 0 0, .release 0x18 0 0, .scratchpadAccess 0x80 0 ⟨none, [], 0⟩, .rcRead 0x3F 0, .scratchpadAccess 1 2 ⟨some 0, [0, 0], 0⟩].all (fun i => !i.wf) = true := by
  decide +kernel

theorem test_well_formed : [
    Instr.temperatureSample (List.replicate 8 0), .requestPromotedUrgent 19 ⟨0, true⟩, .streamHeader (List.replicate 256 0), .svcEvtK 16, .svcBaud 115200,
    .svcInvalidLine 3, .upset (.config true 88 0 33 127 42), .upset (.engine .context 4194303 42), .registerWrite 0x7F 0 0, .rcRead 0x25 0,
    .packetForward none ⟨0, 0, 0, 0, 0, false, 0, List.replicate 64 0⟩].all (fun i => i.wf) = true := by decide +kernel

/-! ### One step at a time -/

/-- The command answers a next state with the property. -/
def after (c : Instr) (s : State) (p : State → Bool) : Bool :=
  match exec c s with
  | .next t => p t
  | _ => false

/-- R157's example: block 27:06:05 with collision-flag; word 0x123 holds 0xAA. -/
def collBlock : State :=
  let s := clocked.setCfg (cfgKey false 27 6 0 20) { data := 0x80 }
  { s with fab := { s.fab with ram := [(ramKey 27 6 5 0x123, 0xAA)] } }

/-- R157's example, steps 1 to 3. -/
theorem test_ram36_collision : after (.ram36Write ⟨27, 6, 5⟩ (some ⟨0x123, 0x111111111, true, 0xF, true, false⟩) (some ⟨0x123, 0x222222222, true, 0xF, true, false⟩)) collBlock (fun t =>
    ramWord t 27 6 5 0x123 == 0x111111111 && (t.ram 27 6 5).a.dout == 0xAA && (t.ram 27 6 5).b.dout == 0xAA &&
    (t.ram 27 6 5).coll && (t.ram 27 6 5).lost && t.getB Reg.sysEvtPend 8) = true := by decide +kernel

/-- A signed MAC36 with OVF_MODE 1, P = 2^95 - 2^70. -/
def macNear : State := (cfgAt clocked 0 13 0 0 0x4C).setMac (macKey 0 0 false) { p := 2 ^ 95 - 2 ^ 70 }

/-- R169's example: the next accumulation saturates and OVF rises. -/
theorem test_mac36_saturates : after (.mac36Accumulate ⟨0, 13, 0⟩ false ⟨0x800000000, 0x800000000, 0, 0, 1, true, false⟩) macNear (fun t =>
    (t.mac36 (macKey 0 0 false)).p == 0x7FFFFFFFFFFFFFFFFFFFFFFF && (t.mac36 (macKey 0 0 false)).ovf) = true := by decide +kernel

/-- R347: the word that AMOADD leaves, and what it returns. -/
theorem test_amo_add_wraps : after (.amo .add 0x10000004 1) { coreLive with scr := { mem := [(1, some { data := 0xFFFFFFFF })] } } (fun t =>
    scrStored t 1 == some { data := 0 } && t.core.data == 0xFFFFFFFF) = true := by decide +kernel

/-- R344: a byte store changes its lane alone. -/
theorem test_byte_store : after (.scratchpadStore 0x10000002 .byte 0xAB) { coreLive with scr := { mem := [(0, some { data := 0x512345678 })] } } (fun t =>
    (scrStored t 0).map (fun c => c.data.toNat % 2 ^ 32) == some 0x12AB5678) = true := by decide +kernel

/-- RISC-V: a trap saves pc, cause and MIE, and goes to mtvec. -/
theorem test_trap_entry : after (.trapEntry false 2 0x20000010 7) { coreLive with core := { running := true, csr := [(0x300, 8), (0x305, 0x20000100)] } } (fun t =>
    t.csr 0x341 == 0x20000010 && t.csr 0x342 == 2 && t.csr 0x343 == 7 && t.core.pc == 0x20000100 && (t.csr 0x300).getLsbD 7 && !(t.csr 0x300).getLsbD 3) =
    true := by decide +kernel

/-- R50, R51: a second claim is refused, CONFLICT and REFUSED_ID show it, and E901 is raised. -/
theorem test_claim_conflict : after (.claim rqI3c (BitVec.ofNat 24 (Reg.scrSerClaim 2)) 2) (live.setReg (Reg.scrSerClaim 2) 1) (fun t =>
    t.getF (Reg.scrSerClaim 2) 7 0 == 1 && t.getB (Reg.scrSerClaim 2) 8 && t.getF (Reg.scrSerClaim 2) 23 16 == 2 && t.getB Reg.sysEvtPend 9) = true := by
  decide +kernel

/-- R148: a region command without its key does nothing but set REFUSED. -/
theorem test_region_wrong_key : after (.regionReset rqCore 5 1) live (fun t => t.getB (Reg.rgnStatus 5) 6 && !t.getB (Reg.rgnStatus 5) 4) = true := by
  decide +kernel

/-- R352: a one-shot timer that reaches COMPARE goes OFF with its ENABLE cleared. -/
theorem test_timer_one_shot : after (.timerMatch 3) ((fnAt live (.tmr 3) fnOn).setReg (Reg.scrTmrCtrl 3) 1) (fun t =>
    t.fn (.tmr 3) != fnOn && !t.getB (Reg.scrTmrCtrl 3) 0) = true := by decide +kernel

/-- Commands run in the order in which they came. -/
theorem test_queue_order : (match step { live with pending := [.registerWrite rqCore 0x30080 7, .registerWrite rqCore 0x30080 5] } with
    | .next t => t.getF Reg.scrIrqThresh 2 0 == 7 && decide (t.pending = [.registerWrite rqCore 0x30080 5])
    | _ => false) = true := by decide +kernel


/-! ### Every statement with hypotheses: states and operands that meet them, clause by clause -/

theorem witness_StepRunsFront :
    ∃ (c : Instr) (rest : List Instr) (s : State), s.pending = c :: rest :=
  ⟨.powerOnReset, [], { State.reset with pending := [.powerOnReset] }, by decide +kernel⟩

theorem witness_ResetPinsAct :
    (∃ (s : State), s.boot.porHeld = true) ∧
    (∃ (ns : Nat) (s : State), s.boot.porHeld = false ∧ 1000 ≤ ns) ∧
    (∃ (ns : Nat), ns < 100) ∧
    (∃ (s : State), s.boot.nrstLow = true ∧ s.boot.powerGood = true ∧ s.boot.timeZero = false) ∧
    (∃ (s : State), s.boot.nrstLow = true ∧ s.boot.powerGood = false) ∧
    (∃ (s : State), s.boot.porHeld = false ∧ s.boot.nrstLow = false ∧ s.boot.nsafeLow = true) ∧
    (∃ (s : State), s.boot.porHeld = false ∧ s.boot.nrstLow = false ∧ s.boot.nsafeLow = false ∧ s.boot.timeZero = false) :=
  ⟨⟨atBoot State.reset { porHeld := true }, by decide +kernel⟩,
    ⟨1000, State.reset, by decide +kernel⟩,
    ⟨99, by decide +kernel⟩,
    ⟨atBoot State.reset { nrstLow := true, powerGood := true }, by decide +kernel⟩,
    ⟨atBoot State.reset { nrstLow := true }, by decide +kernel⟩,
    ⟨atBoot State.reset { nsafeLow := true }, by decide +kernel⟩,
    ⟨State.reset, by decide +kernel⟩⟩

theorem witness_MonitorsAct :
    (∃ (s : State), s.getB Reg.clkRoot 3 = true ∧ s.getB Reg.clkRoot 1 = true ∧ s.boot.backupByLoss = false) ∧
    (∃ (s : State), s.getB Reg.clkRoot 3 = true ∧ s.getB Reg.clkRoot 1 = true ∧ s.boot.backupByLoss = true) ∧
    (∃ (c : Instr) (code : Code) (s : State), ((c = .refclkLost ∧ code = 0x102) ∨ (c = .pllLockLost ∧ code = 0x103)) ∧ s.boot.porHeld = false ∧
      s.boot.lockedOnce = true ∧ (s.mode = .inert ∨ s.mode = .service ∨ s.mode = .failsafe)) ∧
    (∃ (c : Instr) (code : Code) (s : State), ((c = .refclkLost ∧ code = 0x102) ∨ (c = .pllLockLost ∧ code = 0x103)) ∧ s.boot.porHeld = false ∧
      s.boot.lockedOnce = true ∧ (s.mode = .boot ∨ s.mode = .run ∨ s.mode = .retain) ∧ s.boot.nrstLow = false) ∧
    (∃ (s : State) (k : Nat) (c : Nat) (w : Nat × Nat), 7 ≤ k ∧ k < 22 ∧ (c, w) ∈ [(0, (1080, 3630)), (1, (1140, 1260)), (2, (1425, 1575)), (3, (1710,
      1890)), (4, (2375, 2625)), (5, (3135, 3465))] ∧ bankCode s (k - 7) = c) ∧
    (∃ (rail : Fin 22) (us : _) (mv : BitVec 12) (s : State), s.boot.porHeld = false ∧ us ≤ supplyFilter s ∧ (¬ (rail = 5 ∧ mv.toNat < 2900 ∧ 1 ≤
      us))) ∧
    (∃ (rail : Fin 22) (us : _) (mv : BitVec 12) (s : State), s.boot.porHeld = false ∧ supplyFilter s < us ∧ railInside s rail.val mv.toNat = true) ∧
    (∃ (us : _) (mv : BitVec 12) (s : State), s.boot.porHeld = false ∧ supplyFilter s < us ∧ (mv.toNat < 1100 ∨ 3800 < mv.toNat)) ∧
    (∃ (rail : Fin 22) (us : _) (mv : BitVec 12) (s : State), s.boot.porHeld = false ∧ supplyFilter s < us ∧ s.boot.powerGood = true ∧ s.boot.nrstLow
      = false ∧ railInside s rail.val mv.toNat = false ∧ rail ≠ 6 ∧ (¬ (rail = 5 ∧ mv.toNat < 2900))) ∧
    (∃ (us : _) (mv : BitVec 12) (s : State), s.boot.porHeld = false ∧ 1 ≤ us ∧ mv.toNat < 2900) ∧
    (∃ (s : State), s.boot.porHeld = false ∧ s.boot.powerGood = false) ∧
    (∃ (r : BitVec 12) (s : State), tempTrips (sgn r.toNat 12) = true ∧ 4 * tempWarn s ≥ sgn r.toNat 12 ∧ s.boot.porHeld = false ∧ s.boot.powerGood =
      true ∧ s.boot.nrstLow = false ∧ tempNeed s ≤ Store.get (fun _ => 0) s.boot.tripCnt 0 + 1 ∧ Store.get (fun _ => false) s.boot.tripped 0 = false) ∧
    (∃ (s : State), s.boot.powerGood = true ∧ s.mode = .failsafe) ∧
    (∃ (s : State), s.boot.retain = .exitWaitRam ∧ s.boot.nrstLow = false) :=
  ⟨⟨State.reset.setReg Reg.clkRoot 0xA, by decide +kernel⟩,
    ⟨(atBoot State.reset { backupByLoss := true }).setReg Reg.clkRoot 0xA, by decide +kernel⟩,
    ⟨.refclkLost, 0x102, atBoot (inMode .failsafe) { lockedOnce := true }, by decide +kernel⟩,
    ⟨.pllLockLost, 0x103, atBoot (inMode .retain) { lockedOnce := true }, by decide +kernel⟩,
    ⟨live.setReg Reg.pwrBankV1 0x140, 21, 5, (3135, 3465), by decide +kernel⟩,
    ⟨5, 0, 0, live, by decide +kernel⟩,
    ⟨5, 33, 3465, live, by decide +kernel⟩,
    ⟨33, 1099, live, by decide +kernel⟩,
    ⟨5, 33, 2900, atBoot live { powerGood := true }, by decide +kernel⟩,
    ⟨1, 2899, live, by decide +kernel⟩,
    ⟨State.reset, by decide +kernel⟩,
    ⟨0xF38, atBoot live { powerGood := true, tripCnt := [(0, 11)] }, by unfold tempTrips; split <;> decide, by unfold tempWarn; split <;> (try split)
      <;> decide, by decide +kernel⟩,
    ⟨atBoot (inMode .failsafe) { powerGood := true }, by decide +kernel⟩,
    ⟨atBoot live { retain := .exitWaitRam }, by decide +kernel⟩⟩

theorem witness_BootSteps :
    (∃ (s : State), s.mode = .inert ∧ s.boot.timeZero = true ∧ s.getB Reg.clkRoot 1 = true ∧ s.getB Reg.pwrBootStatus 7 = false) ∧
    (∃ (s : State) (r : GovReq), s.gov.ramps.find? (fun x => decide (x.kind = GovKind.bootPulse)) = some r) ∧
    (∃ (s : State), (∀ r ∈ s.gov.ramps, r.kind ≠ .bootPulse)) ∧
    (∃ (s : State), s.mode = .boot ∧ s.boot.imageLoaded = true ∧ s.boot.released = false ∧ bootToService s = true) ∧
    (∃ (s : State), s.mode = .boot ∧ s.boot.imageLoaded = true ∧ s.boot.released = false ∧ bootToService s = false) ∧
    (∃ (s : State), s.mode = .boot ∧ s.boot.released = true ∧ exitEnded s = true ∧ s.boot.banksOn < 14) ∧
    (∃ (s : State), s.mode = .boot ∧ s.boot.released = true ∧ exitEnded s = true ∧ s.boot.banksOn = 14) :=
  ⟨⟨(atBoot State.reset { timeZero := true }).setReg Reg.clkRoot 0x2, by decide +kernel⟩,
    ⟨{ inMode .boot with gov := { ramps := [{ kind := .bootPulse }] } }, { kind := .bootPulse }, by decide +kernel⟩,
    ⟨atBoot (inMode .boot) { pulsed := 63 }, by decide +kernel⟩,
    ⟨(atBoot (inMode .boot) { imageLoaded := true }).setReg Reg.sysMode 0x100, by decide +kernel⟩,
    ⟨atBoot (inMode .boot) { imageLoaded := true }, by decide +kernel⟩,
    ⟨atBoot (inMode .boot) { released := true, fabricOn := true, banksOn := 13 }, by decide +kernel⟩,
    ⟨atBoot (inMode .boot) { released := true, fabricOn := true, banksOn := 14 }, by decide +kernel⟩⟩

theorem witness_GovernorActs :
    (∃ (s : State) (r : GovReq) (rest : List GovReq), s.gov.queue = r :: rest ∧ govFits s r = true ∧ rampMayBegin s r = true) ∧
    (∃ (s : State) (r : GovReq) (rest : List GovReq), s.gov.queue = r :: rest ∧ (govFits s r = false ∨ rampMayBegin s r = false)) ∧
    (∃ (k : Nat) (s : State) (r : GovReq), s.gov.ramps[k]? = some r ∧ (r.kind = .engineStart ∨ r.kind = .meshPort)) ∧
    (∃ (k : Nat) (s : State) (r : GovReq), s.gov.ramps[k]? = some r ∧ r.kind = .entry ∧ (∀ x ∈ s.gov.ramps, x.kind ≠ .exit)) ∧
    (∃ (k : Nat) (s : State) (r : GovReq), s.gov.ramps[k]? = some r ∧ r.kind = .exit ∧ s.mode = .retain ∧ s.boot.retain = .exitRamp) ∧
    (∃ (who : Req) (line : Fin 16) (v : Word) (s : State), Live who s ∧ s.boot.released = true ∧ fld v 35 35 = s.getF (Reg.clkGcl line.val) 35 35 ∧
      fld v 29 13 = s.getF (Reg.clkGcl line.val) 29 13) ∧
    (∃ (target : Nat) (m : Fin 15) (b : _) (s : State), asksUrgent s m.val b = false ∧ s.boot.promoted.any (fun e => e.1 == target && e.2.1 == m) =
      false) ∧
    (∃ (m : Fin 15) (b : _) (s : State), asksUrgent s m.val b = true) :=
  ⟨⟨{ live with gov := { queue := [{ kind := .regionWake, di := 25 }] } }, { kind := .regionWake, di := 25 }, [], by decide +kernel⟩,
    ⟨{ live with gov := { queue := [{ kind := .engineStart, di := 250 }], ramps := [{ kind := .chipSwap, num := 1000, den := 1 }] } },
      { kind := .engineStart, di := 250 }, [], by decide +kernel⟩,
    ⟨0, { live with gov := { ramps := [{ kind := .meshPort }] } }, { kind := .meshPort }, by decide +kernel⟩,
    ⟨0, { live with gov := { ramps := [{ kind := .entry }] } }, { kind := .entry }, by decide +kernel⟩,
    ⟨0, { atBoot (inMode .retain) { retain := .exitRamp } with gov := { ramps := [{ kind := .exit }] } }, { kind := .exit }, by decide +kernel⟩,
    ⟨rqCore, 15, (atBoot live { released := true }).reg (Reg.clkGcl 15), atBoot live { released := true }, ⟨rfl, rfl, by decide +kernel⟩,
      by decide +kernel⟩,
    ⟨0, 3, true, live, by decide +kernel⟩,
    ⟨14, true, live, by decide +kernel⟩⟩

theorem witness_SoftResetSequence :
    (∃ (who : Req) (s : State), Live who s ∧ (s.boot.seqMode = none ∨ s.boot.seqMode = some who)) ∧
    (∃ (who : Req) (m : Req) (s : State), Live who s ∧ s.boot.seqMode = some m ∧ m ≠ who) ∧
    (∃ (who : Req) (s : State) (c : Instr), Live who s ∧ (c = Instr.retainRequest who ∨ c = Instr.wakeRequest who) ∧ s.boot.seqMode = some who) ∧
    (∃ (who : Req) (s : State), Live who s ∧ s.boot.seqMode = some who ∧ s.boot.nsafeLow = true ∧ s.boot.powerGood = true ∧ s.getF Reg.pwrRailOk 21 0
      = 0x3FFFFF - 0x40 + 0x40 * s.getF Reg.pwrRailOk 6 6 ∧ s.boot.nrstLow = false) ∧
    (∃ (who : Req) (s : State), Live who s ∧ s.boot.seqMode = some who ∧ s.boot.nsafeLow = false) ∧
    (∃ (who : Req) (s : State), Live who s ∧ s.boot.seqMode = none) ∧
    (∃ (m : Req) (s : State), s.boot.seqKick = some m) :=
  ⟨⟨rqCore, atBoot live { seqMode := some rqCore }, ⟨rfl, rfl, by decide +kernel⟩, by decide +kernel⟩,
    ⟨rqCore, rqI3c, atBoot live { seqMode := some rqI3c }, ⟨rfl, rfl, by decide +kernel⟩, by decide +kernel⟩,
    ⟨rqCore, atBoot live { seqMode := some rqCore }, .wakeRequest rqCore, ⟨rfl, rfl, by decide +kernel⟩, Or.inr rfl, by decide +kernel⟩,
    ⟨rqCore, (atBoot live { seqMode := some rqCore, nsafeLow := true, powerGood := true }).setReg Reg.pwrRailOk 0x3FFFFF, ⟨rfl, rfl,
      by decide +kernel⟩, by decide +kernel⟩,
    ⟨rqCore, atBoot live { seqMode := some rqCore }, ⟨rfl, rfl, by decide +kernel⟩, by decide +kernel⟩,
    ⟨rqCore, live, ⟨rfl, rfl, by decide +kernel⟩, by decide +kernel⟩,
    ⟨rqCore, atBoot live { seqKick := some rqCore }, by decide +kernel⟩⟩

theorem witness_RetainCycle :
    (∃ (who : Req) (s : State), Live who s ∧ s.boot.seqMode = none ∧ retainReason s 0x6D1 = none) ∧
    (∃ (who : Req) (r : Nat) (s : State), Live who s ∧ s.boot.seqMode = none ∧ retainReason s 0x6D1 = some r) ∧
    (∃ (s : State), s.boot.retain = .entering ∧ s.eng.slots = [] ∧ s.cal.queue = [] ∧ govHas .entry s = false ∧ s.boot.heldService = false ∧
      s.boot.heldWake = none) ∧
    (∃ (s : State), s.mode = .retain ∧ s.boot.retain = .idle ∧ s.getB Reg.pwrRetainCfg 6 = false ∧ s.getB Reg.pwrRetainCfg 3 = true ∧ s.getF
      Reg.pwrWakeTimer 31 0 ≠ 0) ∧
    (∃ (s : State) (rising : Bool), s.mode = .retain ∧ s.boot.retain = .idle ∧ s.getB Reg.pwrRetainCfg 6 = false ∧ s.getB Reg.pwrRetainCfg 2 = true ∧
      s.getF Reg.pwrRetainCfg 5 4 = (if rising then 0 else 1) ∧ (s.pn (s.getF Reg.pwrRetainCfg 25 16)).stage = .none ∧ (s.pn (s.getF Reg.pwrRetainCfg
      25 16)).masked = false) ∧
    (∃ (s : State), s.mode = .retain ∧ s.boot.retain = .idle ∧ s.getB Reg.pwrRetainCfg 6 = false ∧ s.boot.porHeld = false ∧ s.boot.seqMode = none) ∧
    (∃ (who : Req) (s : State), s.mode = .retain ∧ s.boot.porHeld = false ∧ s.boot.seqMode = none ∧ served s who = true ∧ who ≠ rqSvc ∧ who ≠ rqI3c) ∧
    (∃ (s : State), s.boot.retain = .exitWaitRam) ∧
    (∃ (s : State), s.boot.ctxLost = true ∧ s.boot.retain = .exitRamp ∧ s.mode = .retain) :=
  ⟨⟨rqCore, live, ⟨rfl, rfl, by decide +kernel⟩, by decide +kernel⟩,
    ⟨rqCore, 4, { live with scr := { beater := { running := true } } }, ⟨rfl, rfl, by decide +kernel⟩, by decide +kernel⟩,
    ⟨atBoot live { retain := .entering }, by decide +kernel⟩,
    ⟨((inMode .retain).setReg Reg.pwrRetainCfg 0x8).setReg Reg.pwrWakeTimer 1, by decide +kernel⟩,
    ⟨(inMode .retain).setReg Reg.pwrRetainCfg 0x14, false, by decide +kernel⟩,
    ⟨inMode .retain, by decide +kernel⟩,
    ⟨rqCore, inMode .retain, by decide +kernel⟩,
    ⟨atBoot (inMode .retain) { retain := .exitWaitRam }, by decide +kernel⟩,
    ⟨atBoot (inMode .retain) { retain := .exitRamp, ctxLost := true }, by decide +kernel⟩⟩

theorem witness_I3cSettings :
    (∃ (s : State) (len : BitVec 16), hifHears s = true ∧ 8 ≤ len.toNat) ∧
    (∃ (s : State) (len : BitVec 16), hifHears s = true ∧ len.toNat < 8) ∧
    (∃ (s : State) (static : BitVec 7), hifHears s = true ∧ daValid s = false ∧ static.toNat = s.getF Reg.sysStaticAddr 6 0) ∧
    (∃ (s : State), hifHears s = true ∧ daValid s = true) :=
  ⟨⟨live, 8, by decide +kernel⟩,
    ⟨live, 7, by decide +kernel⟩,
    ⟨live.setReg Reg.sysStaticAddr 0x5C, 0x5C, by decide +kernel⟩,
    ⟨live.setReg Reg.sysHifStatus 0x10, by decide +kernel⟩⟩

theorem witness_I3cReads :
    (∃ (s : State) (c : Instr), (c = .i3cGetmwl ∨ c = .i3cGetmrl ∨ c = .i3cGetpid ∨ c = .i3cGetbcr ∨ c = .i3cGetdcr ∨ c = .i3cGetstatus ∨ c =
      .i3cGetmxds ∨ c = .i3cGetcaps) ∧ hifHears s = true ∧ daValid s = false) ∧
    (∃ (s : State) (c : Instr), (c = .i3cGetmwl ∨ c = .i3cGetmrl ∨ c = .i3cGetpid ∨ c = .i3cGetbcr ∨ c = .i3cGetdcr ∨ c = .i3cGetstatus ∨ c =
      .i3cGetmxds ∨ c = .i3cGetcaps) ∧ hifHears s = true ∧ daValid s = true) ∧
    (∃ (s : State), s.hif.hotJoin = true ∧ s.hif.hjEn = true ∧ daValid s = false ∧ s.boot.porHeld = false) ∧
    (∃ (s : State) (i : Ibi) (rest : List Ibi), s.hif.ibiQ = i :: rest ∧ daValid s = true ∧ s.hif.intEn = true ∧ hifHears s = true) :=
  ⟨⟨live, .i3cGetcaps, by decide +kernel⟩,
    ⟨live.setReg Reg.sysHifStatus 0x10, .i3cGetmwl, by decide +kernel⟩,
    ⟨{ State.reset with hif := { hotJoin := true } }, by decide +kernel⟩,
    ⟨{ live.setReg Reg.sysHifStatus 0x10 with hif := { ibiQ := [⟨1, 0x101, 0⟩] } }, ⟨1, 0x101, 0⟩, [], by decide +kernel⟩⟩

theorem witness_I3cTransfers :
    (∃ (dst : BitVec 7) (a : Byte) (b : Byte) (c : Byte) (w0 : Byte) (s : State), Live rqI3c s ∧ hifAt dst.toNat s = true ∧ w0.toNat < 16 ∧ inBlock
      ((a.toNat * 256 + b.toNat) * 256 + c.toNat) = true) ∧
    (∃ (dst : BitVec 7) (w0 : Byte) (s : State), hifAt dst.toNat s = true ∧ 16 ≤ w0.toNat) ∧
    (∃ (dst : BitVec 7) (s : State), hifAt dst.toNat s = false) ∧
    (∃ (s : State), hifDdr s = false) ∧
    (∃ (s : State), hifDdr s = true) :=
  ⟨⟨0x5C, 0, 0, 0, 15, live.setReg Reg.sysStaticAddr 0x5C, ⟨rfl, rfl, by decide +kernel⟩, by decide +kernel⟩,
    ⟨0x5C, 16, live.setReg Reg.sysStaticAddr 0x5C, by decide +kernel⟩,
    ⟨0x5D, live.setReg Reg.sysStaticAddr 0x5C, by decide +kernel⟩,
    ⟨live, by decide +kernel⟩,
    ⟨{ live.setReg Reg.sysHifStatus 0x10 with hif := { hdr := true } }, by decide +kernel⟩⟩

theorem witness_RegisterAccesses :
    (∃ (who : Req) (a : Addr) (f : Fam) (s : State), Live who s ∧ Fam.at? a.toNat = some f ∧ a.toNat < 0x3000 ∧ a.toNat ∉ [Reg.sysEvtCtrl,
      Reg.sysEvtRd, Reg.pwrGovCfg, Reg.pwrMonCfg, Reg.pwrModeReq] ∧ (∀ n, n < 16 → a.toNat ≠ Reg.clkGcl n)) ∧
    (∃ (who : Req) (a : Addr) (s : State), Live who s ∧ inBlock a.toNat = false) ∧
    (∃ (who : Req) (s : State), Live who s ∧ who ≠ rqDbg) ∧
    (∃ (s : State), Live rqDbg s) ∧
    (∃ (k : Fin 6) (id : Nat) (s : State), Live rqCore s ∧ s.getF (Reg.scrSerClaim k.val) 7 0 = 0 ∧ knownReq id ∧ id < 256) ∧
    (∃ (k : Fin 6) (id : Nat) (s : State), Live rqCore s ∧ s.getF (Reg.scrSerClaim k.val) 7 0 ≠ 0 ∧ id < 256 ∧ id ≠ 0) ∧
    (∃ (who : Req) (s : State) (c : Instr), ((∃ a v, c = Instr.registerWrite who a v) ∨ (∃ a, c = Instr.rcRead who a) ∨ (∃ f v, c = Instr.ctrlEnable
      who f v ∨ c = Instr.ctrlDisable who f v ∨ c = Instr.profileWrite who f v) ∨ (∃ a v, c = Instr.expertWrite who a v)) ∧ served s who = false) :=
  ⟨⟨rqCore, 0x000008, _, live, ⟨rfl, rfl, by decide +kernel⟩, rfl, by decide +kernel⟩,
    ⟨rqCore, 0x4000, live, ⟨rfl, rfl, by decide +kernel⟩, by decide +kernel⟩,
    ⟨rqCore, live, ⟨rfl, rfl, by decide +kernel⟩, by decide +kernel⟩,
    ⟨live, ⟨rfl, rfl, by decide +kernel⟩⟩,
    ⟨5, 0x7F, live, ⟨rfl, rfl, by decide +kernel⟩, by decide +kernel⟩,
    ⟨5, 255, live.setReg (Reg.scrSerClaim 5) 1, ⟨rfl, rfl, by decide +kernel⟩, by decide +kernel⟩,
    ⟨rqCore, inMode .failsafe, .rcRead rqCore 0x14, Or.inr (Or.inl ⟨_, rfl⟩), by decide +kernel⟩⟩

theorem witness_EventRing :
    (∃ (who : Req) (v : Word) (s : State), Live who s ∧ v.getLsbD 0 = true) ∧
    (∃ (who : Req) (v : Word) (s : State), Live who s ∧ v.getLsbD 0 = false) ∧
    (∃ (who : Req) (q : Quad) (qs : List Quad) (s : State), Live who s ∧ who ≠ rqDbg ∧ s.evt.buf = q :: qs) ∧
    (∃ (who : Req) (p : Bool) (q : Quad) (qs : List Quad) (s : State), Live who s ∧ (p = true ∨ who = rqDbg) ∧ s.evt.buf = q :: qs) ∧
    (∃ (s : State), (s.evt.buf = [] ∨ ringWritable s = false)) ∧
    (∃ (q : Quad) (qs : List Quad) (s : State), s.evt.buf = q :: qs ∧ ringWritable s = true) :=
  ⟨⟨rqCore, 1, live, ⟨rfl, rfl, by decide +kernel⟩, by decide +kernel⟩,
    ⟨rqCore, 0, live, ⟨rfl, rfl, by decide +kernel⟩, by decide +kernel⟩,
    ⟨rqCore, ⟨1, 2, 3, 4⟩, [], { live with evt := { buf := [⟨1, 2, 3, 4⟩] } }, ⟨rfl, rfl, by decide +kernel⟩, by decide +kernel⟩,
    ⟨rqDbg, false, ⟨1, 2, 3, 4⟩, [], { live with evt := { buf := [⟨1, 2, 3, 4⟩] } }, ⟨rfl, rfl, by decide +kernel⟩, by decide +kernel⟩,
    ⟨live, by decide +kernel⟩,
    ⟨⟨1, 2, 3, 4⟩, [], { live.setReg Reg.sysEvtCtrl 1 with evt := { buf := [⟨1, 2, 3, 4⟩] } }, by decide +kernel⟩⟩

theorem witness_FunctionLifecycle :
    (∃ (who : Req) (f : Func) (s : State), Live who s ∧ (f = .rhx ∨ f = .flc ∨ ∃ p, f = .mesh p) ∧ s.fn f = fnOff) ∧
    (∃ (who : Req) (f : Func) (s : State), Live who s ∧ (f = .rhx ∨ f = .flc ∨ ∃ p, f = .mesh p) ∧ (s.fn f = fnOn ∨ s.fn f = fnFault)) ∧
    (∃ (who : Req) (s : State), Live who s ∧ wdtLocked s = true) ∧
    (∃ (f : Func) (s : State), s.fn f = fnStarting ∧ startReady f s = true ∧ fnClocked f s = true ∧ s.fnEn f = true) ∧
    (∃ (f : Func) (s : State), (f = .rhx ∨ f = .flc ∨ f = .wdt ∨ (∃ p, f = .mesh p)) ∧ s.fn f = fnStarting ∧ startReady f s = true ∧ fnClocked f s =
      true ∧ s.fnEn f = false) ∧
    (∃ (f : Func) (s : State), s.fn f = fnStopping ∧ stopReady f s = true ∧ fnClocked f s = true ∧ (fnEnd f s).fnEn f = false) ∧
    (∃ (who : Req) (f : Func) (s : State), Live who s ∧ (∀ k, f = .serial k → periphMine (Reg.scrSerClaim k.val) who s = true) ∧ (∀ k, f = .tmr k →
      periphMine (Reg.scrTmrClaim k.val) who s = true) ∧ f ≠ .beater) ∧
    (∃ (who : Req) (s : State) (k : Fin 6), Live who s ∧ periphMine (Reg.scrSerClaim k.val) who s = false) ∧
    (∃ (who : Req) (s : State) (k : Fin 16), Live who s ∧ periphMine (Reg.scrTmrClaim k.val) who s = false) ∧
    (∃ (f : Func) (p : Nat) (s : State), (p ≠ 0 ∨ s.fn f ≠ fnOff)) ∧
    (∃ (f : Func) (s : State) (a : Nat) (live : Bool), expertOf a = some (f, live) ∧ s.getF (fnCtrl f) 7 4 ≠ 0 ∧ s.fn f = fnOff) ∧
    (∃ (who : Req) (v : Word) (s : State), Live who s ∧ fld v 7 4 ≠ 0 ∧ s.fn .flc = fnOff ∧ s.fnEn .flc = false ∧ v.getLsbD 0 = false) ∧
    (∃ (who : Req) (a : Addr) (s : State) (f : Func) (live : Bool), Live who s ∧ (s.fn f = fnOff ∨ live = true) ∧ expertOf a.toNat = some (f, live) ∧
      s.getB (fnCtrl f) 1 = true ∧ (¬ (f = .wdt ∧ wdtLocked s = true))) ∧
    (∃ (who : Req) (a : Addr) (s : State), Live who s ∧ (∀ f live, expertOf a.toNat = some (f, live) → s.getB (fnCtrl f) 1 = false ∨ (s.fn f ≠ fnOff ∧
      live = false) ∨ (f = .wdt ∧ wdtLocked s = true))) :=
  ⟨⟨rqCore, .mesh 7, live, ⟨rfl, rfl, by decide +kernel⟩, Or.inr (Or.inr ⟨7, rfl⟩), by decide +kernel⟩,
    ⟨rqCore, .flc, fnAt live .flc fnFault, ⟨rfl, rfl, by decide +kernel⟩, Or.inr (Or.inl rfl), by decide +kernel⟩,
    ⟨rqCore, live.setReg Reg.wdtCtrl 0x100, ⟨rfl, rfl, by decide +kernel⟩, by decide +kernel⟩,
    ⟨.wdt, (fnAt live .wdt fnStarting).setReg Reg.wdtCtrl 1, by decide +kernel⟩,
    ⟨.rhx, fnAt live .rhx fnStarting, Or.inl rfl, by decide +kernel⟩,
    ⟨.rhx, fnAt live .rhx fnStopping, by decide +kernel⟩,
    ⟨rqCore, .serial 0, live.setReg (Reg.scrSerClaim 0) 1, ⟨rfl, rfl, by decide +kernel⟩, by intro k h <;> cases h <;> decide +kernel, nofun,
      by decide +kernel⟩,
    ⟨rqCore, live.setReg (Reg.scrSerClaim 5) 3, 5, ⟨rfl, rfl, by decide +kernel⟩, by decide +kernel⟩,
    ⟨rqCore, live.setReg (Reg.scrTmrClaim 15) 3, 15, ⟨rfl, rfl, by decide +kernel⟩, by decide +kernel⟩,
    ⟨.flc, 0, fnAt live .flc fnOn, by decide +kernel⟩,
    ⟨.wdt, Tests.live.setReg Reg.wdtCtrl 0x10, Reg.wdtXcfg, false, rfl, by decide +kernel⟩,
    ⟨rqCore, 0x10, live, ⟨rfl, rfl, by decide +kernel⟩, by decide +kernel⟩,
    ⟨rqCore, 0x20008, Tests.live.setReg Reg.flcCtrl 2, .flc, true, ⟨rfl, rfl, by decide +kernel⟩, Or.inr rfl, by decide +kernel⟩,
    ⟨rqCore, 0x4000, live, ⟨rfl, rfl, by decide +kernel⟩, nofun⟩⟩

theorem witness_CellEdges :
    (∃ (c : Instr) (q : BlkAddr) (line : Fin 16) (rising : Bool) (i : QuireIn) (we : Bool), (c = .lutramWrite ⟨q, line, rising⟩ i ∧ we = true ∨ c =
      .cellShift ⟨q, line, rising⟩ i ∧ we = false) ∧ isLogicCol q.col.val = false) ∧
    (∃ (c : Instr) (q : BlkAddr) (line : Fin 16) (rising : Bool) (i : QuireIn) (we : Bool) (s : State), (c = .lutramWrite ⟨q, line, rising⟩ i ∧ we =
      true ∨ c = .cellShift ⟨q, line, rising⟩ i ∧ we = false) ∧ isLogicCol q.col.val = true ∧ (clocksOn s q.region.val = false ∨ lineRuns s line.val =
      false)) ∧
    (∃ (c : Instr) (q : BlkAddr) (line : Fin 16) (rising : Bool) (i : QuireIn) (we : Bool) (s : State), (c = .lutramWrite ⟨q, line, rising⟩ i ∧ we =
      true ∨ c = .cellShift ⟨q, line, rising⟩ i ∧ we = false) ∧ isLogicCol q.col.val = true ∧ clocksOn s q.region.val = true ∧ lineRuns s line.val =
      true) :=
  ⟨⟨.lutramWrite ⟨⟨63, 6, 31⟩, 15, true⟩ {}, ⟨63, 6, 31⟩, 15, true, {}, true, Or.inl ⟨rfl, rfl⟩, by decide +kernel⟩,
    ⟨.cellShift ⟨⟨63, 27, 31⟩, 15, false⟩ {}, ⟨63, 27, 31⟩, 15, false, {}, false, live, Or.inr ⟨rfl, rfl⟩, by decide +kernel⟩,
    ⟨.lutramWrite ⟨⟨63, 27, 31⟩, 0, true⟩ {}, ⟨63, 27, 31⟩, 0, true, {}, true, clocked, Or.inl ⟨rfl, rfl⟩, by decide +kernel⟩⟩

theorem witness_HardBlocks :
    (∃ (l : Nat), l < 4) ∧
    (∃ (n : Nat) (col : Nat) (base : Nat) (pb : _) (i : PortIn) (s : State) (k : Nat), k ≠ ramKey n col (portAct s n col base pb i).row (portAct s n
      col base pb i).word) ∧
    (∃ (blk : BlkAddr) (s : State), ramCfg s blk.region.val blk.col.val (cascBase s blk.region.val blk.col.val blk.row.val) 0 5 4 = 1) ∧
    (∃ (blk : BlkAddr) (A : Option PortIn) (B : Option PortIn) (s : State), ramCfg s blk.region.val blk.col.val (cascBase s blk.region.val blk.col.val
      blk.row.val) 0 5 4 ≠ 1 ∧ (portAsk s blk.region.val blk.col.val (cascBase s blk.region.val blk.col.val blk.row.val) false A) = none ∧ (portAsk s
      blk.region.val blk.col.val (cascBase s blk.region.val blk.col.val blk.row.val) true B) = none ∧ (B = none ∨ portRuns s blk.region.val
      blk.col.val (cascBase s blk.region.val blk.col.val blk.row.val) true = false)) ∧
    (∃ (blk : BlkAddr) (pb : _) (s : State) (en : _), ramCfg s blk.region.val blk.col.val (cascBase s blk.region.val blk.col.val blk.row.val) 0 5 4 ≠
      1 ∧ (en = false ∨ portRuns s blk.region.val blk.col.val (cascBase s blk.region.val blk.col.val blk.row.val) pb = false)) ∧
    (∃ (blk : BlkAddr) (pb : _) (s : State), ramCfg s blk.region.val blk.col.val (cascBase s blk.region.val blk.col.val blk.row.val) 0 5 4 ≠ 1 ∧
      portRuns s blk.region.val blk.col.val (cascBase s blk.region.val blk.col.val blk.row.val) pb = true) ∧
    (∃ (p : RamPort), p.pipe = []) ∧
    (∃ (p : RamPort) (h : Word × Bool) (q : List (Word × Bool)), p.pipe = h :: q) ∧
    (∃ (blk : BlkAddr) (s : State), (¬ (isFifo s blk.region.val blk.col.val (cascBase s blk.region.val blk.col.val blk.row.val) = true ∧ portRuns s
      blk.region.val blk.col.val (cascBase s blk.region.val blk.col.val blk.row.val) false = true ∧ fifoShared s blk.region.val blk.col.val (cascBase
      s blk.region.val blk.col.val blk.row.val) ≠ 2))) ∧
    (∃ (blk : BlkAddr) (s : State) (en : _), ((isFifo s blk.region.val blk.col.val (cascBase s blk.region.val blk.col.val blk.row.val) = true ∧
      portRuns s blk.region.val blk.col.val (cascBase s blk.region.val blk.col.val blk.row.val) false = true ∧ fifoShared s blk.region.val blk.col.val
      (cascBase s blk.region.val blk.col.val blk.row.val) ≠ 2)) ∧ (en = false ∨ (s.ram blk.region.val blk.col.val (cascBase s blk.region.val
      blk.col.val blk.row.val)).inReset = true)) ∧
    (∃ (blk : BlkAddr) (s : State), ((isFifo s blk.region.val blk.col.val (cascBase s blk.region.val blk.col.val blk.row.val) = true ∧ portRuns s
      blk.region.val blk.col.val (cascBase s blk.region.val blk.col.val blk.row.val) false = true ∧ fifoShared s blk.region.val blk.col.val (cascBase
      s blk.region.val blk.col.val blk.row.val) ≠ 2)) ∧ (s.ram blk.region.val blk.col.val (cascBase s blk.region.val blk.col.val blk.row.val)).inReset
      = false ∧ fifoCap s blk.region.val blk.col.val (cascBase s blk.region.val blk.col.val blk.row.val) ≤ (s.ram blk.region.val blk.col.val (cascBase
      s blk.region.val blk.col.val blk.row.val)).cntW) ∧
    (∃ (blk : BlkAddr) (s : State), ((isFifo s blk.region.val blk.col.val (cascBase s blk.region.val blk.col.val blk.row.val) = true ∧ portRuns s
      blk.region.val blk.col.val (cascBase s blk.region.val blk.col.val blk.row.val) false = true ∧ fifoShared s blk.region.val blk.col.val (cascBase
      s blk.region.val blk.col.val blk.row.val) ≠ 2)) ∧ (s.ram blk.region.val blk.col.val (cascBase s blk.region.val blk.col.val blk.row.val)).inReset
      = false ∧ (s.ram blk.region.val blk.col.val (cascBase s blk.region.val blk.col.val blk.row.val)).cntW < fifoCap s blk.region.val blk.col.val
      (cascBase s blk.region.val blk.col.val blk.row.val)) ∧
    (∃ (blk : BlkAddr) (s : State), (¬ (isFifo s blk.region.val blk.col.val (cascBase s blk.region.val blk.col.val blk.row.val) = true ∧ portRuns s
      blk.region.val blk.col.val (cascBase s blk.region.val blk.col.val blk.row.val) true = true ∧ fifoShared s blk.region.val blk.col.val (cascBase s
      blk.region.val blk.col.val blk.row.val) ≠ 1))) ∧
    (∃ (blk : BlkAddr) (s : State) (en : _), ((isFifo s blk.region.val blk.col.val (cascBase s blk.region.val blk.col.val blk.row.val) = true ∧
      portRuns s blk.region.val blk.col.val (cascBase s blk.region.val blk.col.val blk.row.val) true = true ∧ fifoShared s blk.region.val blk.col.val
      (cascBase s blk.region.val blk.col.val blk.row.val) ≠ 1)) ∧ (en = false ∨ (s.ram blk.region.val blk.col.val (cascBase s blk.region.val
      blk.col.val blk.row.val)).inReset = true)) ∧
    (∃ (blk : BlkAddr) (s : State), ((isFifo s blk.region.val blk.col.val (cascBase s blk.region.val blk.col.val blk.row.val) = true ∧ portRuns s
      blk.region.val blk.col.val (cascBase s blk.region.val blk.col.val blk.row.val) true = true ∧ fifoShared s blk.region.val blk.col.val (cascBase s
      blk.region.val blk.col.val blk.row.val) ≠ 1)) ∧ (s.ram blk.region.val blk.col.val (cascBase s blk.region.val blk.col.val blk.row.val)).inReset =
      false ∧ (s.ram blk.region.val blk.col.val (cascBase s blk.region.val blk.col.val blk.row.val)).cntR = 0) ∧
    (∃ (blk : BlkAddr) (s : State), ((isFifo s blk.region.val blk.col.val (cascBase s blk.region.val blk.col.val blk.row.val) = true ∧ portRuns s
      blk.region.val blk.col.val (cascBase s blk.region.val blk.col.val blk.row.val) true = true ∧ fifoShared s blk.region.val blk.col.val (cascBase s
      blk.region.val blk.col.val blk.row.val) ≠ 1)) ∧ (s.ram blk.region.val blk.col.val (cascBase s blk.region.val blk.col.val blk.row.val)).inReset =
      false ∧ (s.ram blk.region.val blk.col.val (cascBase s blk.region.val blk.col.val blk.row.val)).cntR ≠ 0) ∧
    (∃ (who : Req) (n : Fin 64) (s : State), Live who s ∧ s.getB (Reg.rgnStatus n.val) 0 = true) ∧
    (∃ (who : Req) (n : Fin 64) (k : Fin 4) (s : State) (p : Nat × Nat), Live who s ∧ s.getB (Reg.rgnStatus n.val) 0 = false ∧ sharedFifo s n.val
      k.val = some p ∧ (fifoOwner s n.val k.val ≠ 0 ∧ fifoOwner s n.val k.val ≠ who.toNat)) ∧
    (∃ (who : Req) (n : Fin 64) (k : Fin 4) (s : State) (p : Nat × Nat), Live who s ∧ s.getB (Reg.rgnStatus n.val) 0 = false ∧ sharedFifo s n.val
      k.val = some p ∧ (fifoOwner s n.val k.val = 0 ∨ fifoOwner s n.val k.val = who.toNat) ∧ (s.ram n.val p.1 p.2).inReset = false ∧ fifoShared s
      n.val p.1 p.2 = 2 ∧ fifoCap s n.val p.1 p.2 ≤ (s.ram n.val p.1 p.2).cntW) ∧
    (∃ (who : Req) (n : Fin 64) (k : Fin 4) (s : State) (p : Nat × Nat), Live who s ∧ s.getB (Reg.rgnStatus n.val) 0 = false ∧ sharedFifo s n.val
      k.val = some p ∧ (fifoOwner s n.val k.val = 0 ∨ fifoOwner s n.val k.val = who.toNat) ∧ (s.ram n.val p.1 p.2).inReset = false ∧ fifoShared s
      n.val p.1 p.2 = 2 ∧ (s.ram n.val p.1 p.2).cntW < fifoCap s n.val p.1 p.2) ∧
    (∃ (who : Req) (n : Fin 64) (k : Fin 4) (s : State) (p : Nat × Nat), Live who s ∧ s.getB (Reg.rgnStatus n.val) 0 = false ∧ sharedFifo s n.val
      k.val = some p ∧ (fifoOwner s n.val k.val = 0 ∨ fifoOwner s n.val k.val = who.toNat) ∧ (s.ram n.val p.1 p.2).inReset = false ∧ fifoShared s
      n.val p.1 p.2 = 1 ∧ (s.ram n.val p.1 p.2).cntR = 0) ∧
    (∃ (who : Req) (n : Fin 64) (k : Fin 4) (s : State) (p : Nat × Nat), Live who s ∧ s.getB (Reg.rgnStatus n.val) 0 = false ∧ sharedFifo s n.val
      k.val = some p ∧ (fifoOwner s n.val k.val = 0 ∨ fifoOwner s n.val k.val = who.toNat) ∧ (s.ram n.val p.1 p.2).inReset = false ∧ fifoShared s
      n.val p.1 p.2 = 1 ∧ (s.ram n.val p.1 p.2).cntR ≠ 0) ∧
    (∃ (b : BlkAddr) (second : Bool) (s : State), (b.col.val ≠ 13 ∨ clocksOn s b.region.val = false ∨ lineRuns s (fld (macCfg s b.region.val b.row.val
      second) 11 8) = false)) ∧
    (∃ (b : BlkAddr) (second : Bool) (s : State), b.col.val = 13 ∧ clocksOn s b.region.val = true ∧ lineRuns s (fld (macCfg s b.region.val b.row.val
      second) 11 8) = true) ∧
    (∃ (n : Fin 64) (bus : _) (s : State), (clocksOn s n.val = false ∨ lineRuns s (busClk s n.val bus) = false)) ∧
    (∃ (n : Fin 64) (bus : _) (s : State), clocksOn s n.val = true ∧ lineRuns s (busClk s n.val bus) = true) :=
  ⟨⟨3, by decide +kernel⟩,
    ⟨0, 6, 0, false, ⟨0, 0, true, 0, false, false⟩, clocked, 5, by decide +kernel⟩,
    ⟨⟨0, 6, 0⟩, fifoWith 0x10 0, by decide +kernel⟩,
    ⟨⟨63, 20, 31⟩, none, none, clocked, by decide +kernel⟩,
    ⟨⟨63, 20, 31⟩, false, clocked, false, by decide +kernel⟩,
    ⟨⟨63, 20, 31⟩, false, clocked, by decide +kernel⟩,
    ⟨{}, by decide +kernel⟩,
    ⟨{ pipe := [(1, false)] }, (1, false), [], by decide +kernel⟩,
    ⟨⟨63, 20, 31⟩, clocked, by decide +kernel⟩,
    ⟨⟨0, 6, 0⟩, fifoWith 0x10 1024, false, by decide +kernel⟩,
    ⟨⟨0, 6, 0⟩, fifoWith 0x10 1024, by decide +kernel⟩,
    ⟨⟨0, 6, 0⟩, fifoWith 0x10 1023, by decide +kernel⟩,
    ⟨⟨63, 20, 31⟩, clocked, by decide +kernel⟩,
    ⟨⟨0, 6, 0⟩, fifoWith 0x10 0, false, by decide +kernel⟩,
    ⟨⟨0, 6, 0⟩, fifoWith 0x10 0, by decide +kernel⟩,
    ⟨⟨0, 6, 0⟩, fifoWith 0x10 1, by decide +kernel⟩,
    ⟨rqCore, 0, (fifoWith 0x2400010 1024).setReg (Reg.rgnStatus 0) 1, ⟨rfl, rfl, by decide +kernel⟩, by decide +kernel⟩,
    ⟨rqCore, 0, 0, (fifoWith 0x2400010 1024).setReg (fifoAddr 0 0 + 2) 3, (6, 0), ⟨rfl, rfl, by decide +kernel⟩, by decide +kernel⟩,
    ⟨rqCore, 0, 0, fifoWith 0x2400010 1024, (6, 0), ⟨rfl, rfl, by decide +kernel⟩, by decide +kernel⟩,
    ⟨rqCore, 0, 0, fifoWith 0x2400010 1023, (6, 0), ⟨rfl, rfl, by decide +kernel⟩, by decide +kernel⟩,
    ⟨rqCore, 0, 0, fifoWith 0x400010 0, (6, 0), ⟨rfl, rfl, by decide +kernel⟩, by decide +kernel⟩,
    ⟨rqCore, 0, 0, fifoWith 0x400010 1, (6, 0), ⟨rfl, rfl, by decide +kernel⟩, by decide +kernel⟩,
    ⟨{ region := 0, col := 12, row := 31 }, true, clocked, by decide +kernel⟩,
    ⟨{ region := 0, col := 13, row := 31 }, true, clocked, by decide +kernel⟩,
    ⟨63, true, live, by decide +kernel⟩,
    ⟨63, true, clocked, by decide +kernel⟩⟩

theorem witness_RegionCommands :
    (∃ (who : Req) (n : Fin 64) (v : Word) (s : State), Live who s ∧ v.getLsbD 2 = false ∧ (v.getLsbD 0 = true ∨ v.getLsbD 1 = true) ∧ (fld v 35 24 ≠
      0x6D1 ∨ rgnSwapDue s n.val = true ∨ s.getB (Reg.rgnStatus n.val) 4 = true)) ∧
    (∃ (who : Req) (n : Fin 64) (v : Word) (s : State), Live who s ∧ v.getLsbD 2 = false ∧ v.getLsbD 0 = true ∧ fld v 35 24 = 0x6D1 ∧ s.swState = 0 ∧
      s.getB (Reg.rgnStatus n.val) 4 = false) ∧
    (∃ (who : Req) (n : Fin 64) (v : Word) (s : State), Live who s ∧ v.getLsbD 2 = false ∧ v.getLsbD 0 = false ∧ v.getLsbD 1 = true ∧ fld v 35 24 =
      0x6D1 ∧ s.swState = 0 ∧ s.getB (Reg.rgnStatus n.val) 4 = false ∧ s.getB (Reg.rgnStatus n.val) 0 = false ∧ s.getB (Reg.rgnAttr n.val) 0 = false ∧
      s.getB (Reg.rgnAttr n.val) 1 = false ∧ (s.rg n.val).log.length < 32) ∧
    (∃ (who : Req) (v : Word) (s : State), Live who s ∧ v.getLsbD 2 = true ∧ v.getLsbD 0 = false ∧ v.getLsbD 1 = false) ∧
    (∃ (who : Req) (n : Fin 64) (w : Word) (ws : List Word) (s : State), Live who s ∧ (s.rg n.val).log = w :: ws ∧ who ≠ rqDbg) ∧
    (∃ (who : Req) (n : Fin 64) (w : Word) (ws : List Word) (s : State) (p : Bool), Live who s ∧ (s.rg n.val).log = w :: ws ∧ (p = true ∨ who =
      rqDbg)) ∧
    (∃ (who : Req) (n : Fin 64) (s : State), Live who s ∧ (s.rg n.val).log = []) ∧
    (∃ (n : Fin 64) (s : State) (u : State), slotKnown (rgnSlot s n.val) s = (false, u) ∧ s.getB (Reg.rgnStatus n.val) 4 = true ∧ u.swState = 0 ∧
      u.getB (Reg.rgnAttr n.val) 0 = false ∧ u.getB (Reg.rgnAttr n.val) 1 = false) :=
  ⟨⟨rqCore, 63, 1, live, ⟨rfl, rfl, by decide +kernel⟩, by decide +kernel⟩,
    ⟨rqCore, 63, 0x6D1000001, live, ⟨rfl, rfl, by decide +kernel⟩, by decide +kernel⟩,
    ⟨rqCore, 63, 0x6D1000002, live.setRg 63 { log := List.replicate 31 0 }, ⟨rfl, rfl, by decide +kernel⟩, by decide +kernel⟩,
    ⟨rqCore, 4, live, ⟨rfl, rfl, by decide +kernel⟩, by decide +kernel⟩,
    ⟨rqCore, 0, 0x600000000, [0], live.setRg 0 { log := [0x600000000, 0] }, ⟨rfl, rfl, by decide +kernel⟩, by decide +kernel⟩,
    ⟨rqCore, 0, 5, [], live.setRg 0 { log := [5] }, true, ⟨rfl, rfl, by decide +kernel⟩, by decide +kernel⟩,
    ⟨rqCore, 0, live, ⟨rfl, rfl, by decide +kernel⟩, by decide +kernel⟩,
    ⟨0, live.setReg (Reg.rgnStatus 0) 0x10, live.setReg (Reg.rgnStatus 0) 0x10, slotKnown_erased, by decide +kernel⟩⟩

theorem witness_StreamLoader :
    (∃ (src : BitVec 3) (s : State), (∀ n, hostOf s 3 0 = some n → fabricLive s n = false) ∧ src = 2) ∧
    (∃ (s : State), booting s = true ∧ s.ld.st = .idle ∧ s.boot.imageLoaded = false) ∧
    (∃ (src : BitVec 3) (s : State), src ≠ 1 ∧ capHeld s src = false ∧ s.ld.st = .idle ∧ srcEnabled s src = true ∧ s.swState ≠ 1) ∧
    (∃ (src : BitVec 3) (s : State), src ≠ 1 ∧ capHeld s src = false ∧ s.ld.st = .idle ∧ srcEnabled s src = false) ∧
    (∃ (src : BitVec 3) (s : State), capHeld s src = false ∧ s.ld.st ≠ .idle ∧ s.ld.src ≠ src ∧ srcEnabled s src = true) ∧
    (∃ (who : Req) (v : Word) (s : State), Live who s ∧ s.swState ≠ 1 ∧ s.ld.st = .header ∧ s.ld.src = 4 ∧ s.ld.owner = who ∧ srcEnabled s 4 = true ∧
      hdrLen (s.ld.inbuf ++ [v]) 256 1 = none ∧ (s.ld.inbuf ++ [v]).length < 256) ∧
    (∃ (ws : List Word) (s : State), s.swState ≠ 1 ∧ s.swState ≠ 2 ∧ s.mode = .run ∧ s.ld.st = .header ∧ s.ld.src = 4 ∧ ws.head? ≠ some syncWord ∧
      hdrLen (s.ld.inbuf ++ ws) 256 1 = some (s.ld.inbuf ++ ws).length ∧ (s.ld.inbuf ++ ws).length ≤ 256 ∧ s.ld.fcmd = none ∧ s.ld.rbLeft = 0 ∧
      s.ld.waiting = [] ∧ s.ld.segNo = 0) ∧
    (∃ (ws : List Word) (s : State), ws.length = segWords s.ld.length s.ld.segNo + 4 ∧ s.swState ≠ 1 ∧ s.mode = .run ∧ s.ld.st = .body ∧ s.ld.src = 4
      ∧ s.ld.ended = true ∧ s.ld.fcmd = none ∧ s.ld.rbLeft = 0 ∧ s.ld.waiting = [] ∧ s.ld.inbuf = [] ∧ 0 < segWords s.ld.length s.ld.segNo ∧ 0 <
      segWords s.ld.length (s.ld.segNo + 1)) ∧
    (∃ (who : Req) (v : Word) (s : State), Live who s ∧ fld v 3 0 = 1 ∧ s.ld.st = .idle ∧ (slotWords (Fin.ofNat 4 (fld v 5 4)).val 0 1 (begin who
      s)).1 = [syncWord]) ∧
    (∃ (who : Req) (v : Word) (s : State), Live who s ∧ fld v 3 0 = 1 ∧ s.ld.st ≠ .idle) ∧
    (∃ (who : Req) (v : Word) (s : State), Live who s ∧ fld v 3 0 = 2 ∧ s.ld.st ≠ .idle ∧ s.ld.src ≠ 3) ∧
    (∃ (who : Req) (s : State), Live who s ∧ s.ld.rdata = []) ∧
    (∃ (who : Req) (s : State) (w : Word) (ws : List Word), Live who s ∧ s.ld.rdata = w :: ws) ∧
    (∃ (f : Fcmd) (s : State), s.ld.fcmd = some f ∧ s.mode = .run ∧ s.swState ≠ 1 ∧ s.ld.src = 4 ∧ s.ld.rbLeft = 0 ∧ s.ld.waiting = [] ∧ s.ld.inbuf =
      [] ∧ 0 < segWords s.ld.length s.ld.segNo) ∧
    (∃ (s : State), s.ld.st ≠ .idle ∧ s.ld.src = 4 ∧ s.mode = .run) ∧
    (∃ (s : State), s.ld.st ≠ .header) :=
  ⟨⟨2, live, (by intro n h <;> cases h), by decide +kernel⟩,
    ⟨inMode .boot, by decide +kernel⟩,
    ⟨4, live.setReg Reg.cfgSrcEn 7, by decide +kernel⟩,
    ⟨4, live.setReg Reg.cfgSrcEn 0, by decide +kernel⟩,
    ⟨3, (loading { st := .body, src := 4 }).setReg Reg.cfgSrcEn 7, by decide +kernel⟩,
    ⟨rqI3c, 0, (loading { st := .header, src := 4, owner := rqI3c, inbuf := [syncWord] }).setReg Reg.cfgSrcEn 7, ⟨rfl, rfl, by decide +kernel⟩,
      by decide +kernel⟩,
    ⟨[0, 0x531000000], loading { st := .header, src := 4 }, by decide +kernel⟩,
    ⟨List.replicate 4100 0, loading { st := .body, src := 4, ended := true, length := 4128 }, List.length_replicate, by decide +kernel⟩,
    ⟨rqCore, 1, { live with flash := { mem := [(slotFa 0 0, { data := syncWord })] } }, ⟨rfl, rfl, by decide +kernel⟩, by decide +kernel⟩,
    ⟨rqCore, 1, loading { st := .body }, ⟨rfl, rfl, by decide +kernel⟩, by decide +kernel⟩,
    ⟨rqCore, 2, loading { st := .body, src := 4 }, ⟨rfl, rfl, by decide +kernel⟩, by decide +kernel⟩,
    ⟨rqCore, live, ⟨rfl, rfl, by decide +kernel⟩, by decide +kernel⟩,
    ⟨rqCore, loading { rdata := [5] }, 5, [], ⟨rfl, rfl, by decide +kernel⟩, by decide +kernel⟩,
    ⟨.clear, loading { fcmd := some .clear, src := 4, length := 32 }, by decide +kernel⟩,
    ⟨loading { st := .header, src := 4 }, by decide +kernel⟩,
    ⟨live, by decide +kernel⟩⟩

theorem witness_SecurityStore :
    (∃ (who : Req) (s : State), served s who = true ∧ answersWrite s Reg.secKrData = true ∧ secWho s who = true ∧ s.sec.krWords.length ≤ 8) ∧
    (∃ (who : Req) (v : Word) (s : State), served s who = true ∧ answersWrite s Reg.secKrCtrl = true ∧ secWho s who = true ∧ fld v 35 24 = 0x6D1 ∧
      v.getLsbD 2 = false ∧ v.getLsbD 5 = false ∧ v.getLsbD 4 = true ∧ s.sec.krWords.length = 8) ∧
    (∃ (who : Req) (v : Word) (s : State), served s who = true ∧ answersWrite s Reg.secKrCtrl = true ∧ secWho s who = true ∧ v.getLsbD 2 = false ∧
      v.getLsbD 5 = false ∧ v.getLsbD 4 = true ∧ (s.sec.krWords.length ≠ 8 ∨ fld v 35 24 ≠ 0x6D1)) ∧
    (∃ (who : Req) (v : Word) (s : State), served s who = true ∧ answersWrite s Reg.secKrCtrl = true ∧ secWho s who = true ∧ fld v 35 24 = 0x6D1 ∧
      v.getLsbD 2 = false ∧ v.getLsbD 5 = true) ∧
    (∃ (who : Req) (v : Word) (s : State), served s who = true ∧ answersWrite s Reg.secRollAdv = true ∧ secWho s who = true ∧ fld v 35 24 = 0x6D1 ∧
      s.sec.rollCount.toNat < fld v 7 0 ∧ fld v 7 0 ≤ s.getF Reg.secRoll 15 8 ∧ s.sec.rollTarget = none) ∧
    (∃ (who : Req) (v : Word) (s : State), served s who = true ∧ answersWrite s Reg.secRollAdv = true ∧ secWho s who = true ∧ (fld v 35 24 ≠ 0x6D1 ∨
      fld v 7 0 ≤ s.sec.rollCount.toNat ∨ s.getF Reg.secRoll 15 8 < fld v 7 0 ∨ s.sec.rollTarget.isSome = true)) ∧
    (∃ (t : BitVec 8) (s : State), s.sec.rollTarget = some t) ∧
    (∃ (s : State) (who : Req), s.boot.porHeld = false ∧ (s.mode = .run ∨ s.mode = .service) ∧ (who = rqCore ∨ who = rqSvc)) ∧
    (∃ (who : Req) (s : State), Live who s ∧ who ≠ rqCore) :=
  ⟨⟨rqCore, secAt { krWords := List.replicate 8 0 }, by decide +kernel⟩,
    ⟨rqCore, 0x6D1000010, secAt { krWords := List.replicate 8 0 }, by decide +kernel⟩,
    ⟨rqCore, 0x10, secAt { krWords := List.replicate 7 0 }, by decide +kernel⟩,
    ⟨rqCore, 0x6D1000020, live, by decide +kernel⟩,
    ⟨rqCore, 0x6D1000001, (secAt { rollCount := 0 }).setReg Reg.secRoll 0x100, by decide +kernel⟩,
    ⟨rqCore, 0, live, by decide +kernel⟩,
    ⟨1, secAt { rollTarget := some 1 }, by decide +kernel⟩,
    ⟨live, rqSvc, by decide +kernel⟩,
    ⟨rqI3c, live, ⟨rfl, rfl, by decide +kernel⟩, by decide +kernel⟩⟩

theorem witness_PlaneSwaps :
    (∃ (who : Req) (v : Word) (s : State) (r : Nat) (n : Nat), Live who s ∧ swapRefusal s 1 (fld v 35 24) = some (r, n)) ∧
    (∃ (who : Req) (v : Word) (s : State), Live who s ∧ swapRefusal s 1 (fld v 35 24) = none) ∧
    (∃ (who : Req) (v : Word) (s : State) (r : Nat) (n : Nat), Live who s ∧ swapRefusal s 2 (fld v 35 24) = some (r, n)) ∧
    (∃ (who : Req) (v : Word) (s : State), Live who s ∧ swapRefusal s 2 (fld v 35 24) = none) ∧
    (∃ (who : Req) (v : Word) (s : State), Live who s ∧ swapRefusal s 5 (fld v 35 24) = none ∧ s.swState = 0) ∧
    (∃ (who : Req) (v : Word) (s : State) (r : Nat) (n : Nat), Live who s ∧ swapRefusal s 5 (fld v 35 24) = some (r, n)) ∧
    (∃ (s : State), s.swap.mirrors = []) ∧
    (∃ (s : State) (m : BitVec 64) (rest : List (BitVec 64)), s.swap.mirrors = m :: rest ∧ s.swState ≠ 1) ∧
    (∃ (n : Fin 64) (s : State), (s.rg n.val).repre = false) ∧
    (∃ (n : Fin 64) (s : State), (s.rg n.val).repre = true) ∧
    (∃ (s : State), (s.swState ≠ 2 ∨ s.mode ≠ .run)) ∧
    (∃ (s : State), s.swState = 2 ∧ s.mode = .run ∧ (s.getF Reg.cfgSwapStatus 6 4 = 1 ∨ shLive s 64 = false)) :=
  ⟨⟨rqCore, 0, live, 2, 0, ⟨rfl, rfl, by decide +kernel⟩, by decide +kernel⟩,
    ⟨rqCore, 0x6D1000000, swapReady, ⟨rfl, rfl, by decide +kernel⟩, swapReady_ok⟩,
    ⟨rqCore, 0, live, 2, 0, ⟨rfl, rfl, by decide +kernel⟩, by decide +kernel⟩,
    ⟨rqCore, 0x6D1000000, live.setReg Reg.cfgRingState 2, ⟨rfl, rfl, by decide +kernel⟩, by decide +kernel⟩,
    ⟨rqCore, 0x6D1000000, live.setReg Reg.cfgSwapSet0 1, ⟨rfl, rfl, by decide +kernel⟩, by decide +kernel⟩,
    ⟨rqCore, 0, live, 2, 0, ⟨rfl, rfl, by decide +kernel⟩, by decide +kernel⟩,
    ⟨live, by decide +kernel⟩,
    ⟨{ live with swap := { mirrors := [1] } }, 1, [], by decide +kernel⟩,
    ⟨63, live, by decide +kernel⟩,
    ⟨63, live.setRg 63 { repre := true }, by decide +kernel⟩,
    ⟨live, by decide +kernel⟩,
    ⟨live.setReg Reg.cfgSwapStatus 0x12, by decide +kernel⟩⟩

theorem witness_MeshSwaps :
    (∃ (who : Req) (v : Word) (s : State) (r : Nat) (n : Nat), Live who s ∧ swapRefusal s 3 (fld v 35 24) = some (r, n)) ∧
    (∃ (who : Req) (v : Word) (s : State), Live who s ∧ swapRefusal s 3 (fld v 35 24) = none) ∧
    (∃ (who : Req) (v : Word) (s : State), Live who s ∧ swapRefusal s 4 (fld v 35 24) = none) ∧
    (∃ (s : State), s.mode = .run ∧ s.swState = 0) ∧
    (∃ (id : BitVec 8) (s : State), coordBit s = true ∧ s.swState = 1 ∧ swapId s = id.toNat) ∧
    (∃ (id : BitVec 8) (s : State), s.swState = 1 ∧ swapId s = id.toNat ∧ coordBit s = false) ∧
    (∃ (s : State), coordBit s = true ∧ s.swState = 1 ∧ (∀ n ∈ s.swap.participants, ∃ v, voteIn s n = some v ∧ v.ready = true)) ∧
    (∃ (s : State) (n : BitVec 10), coordBit s = true ∧ s.swState = 1 ∧ s.swap.participants.find? (fun n => (voteIn s n).isNone) = some n) ∧
    (∃ (s : State), s.swState = 1 ∧ s.getB Reg.cfgSwapStatus 9 = true ∧ s.boot.nrstLow = false) ∧
    (∃ (s : State), s.swState = 1 ∧ s.getB Reg.cfgSwapStatus 9 = false) ∧
    (∃ (s : State), s.swState ≠ 1) :=
  ⟨⟨rqCore, 0, live, 2, 0, ⟨rfl, rfl, by decide +kernel⟩, by decide +kernel⟩,
    ⟨rqCore, 0x6D1000000, (meshed 2).setReg Reg.cfgSwapTLo 200000, ⟨rfl, rfl, by decide +kernel⟩, by decide +kernel⟩,
    ⟨rqCore, 0, (meshed 2).setReg Reg.cfgSwapStatus 0x801, ⟨rfl, rfl, by decide +kernel⟩, by decide +kernel⟩,
    ⟨live, by decide +kernel⟩,
    ⟨7, (meshed 2).setReg Reg.cfgSwapStatus 0x70801, by decide +kernel⟩,
    ⟨7, (meshed 2).setReg Reg.cfgSwapStatus 0x70001, by decide +kernel⟩,
    ⟨{ (meshed 2).setReg Reg.cfgSwapStatus 0x70801 with swap := { participants := [1], votes := [(1, { ready := true })] } }, by decide +kernel⟩,
    ⟨{ (meshed 2).setReg Reg.cfgSwapStatus 0x70801 with swap := { participants := [1, 2], votes := [(1, { ready := true })] } }, 2, by decide +kernel⟩,
    ⟨(meshed 2).setReg Reg.cfgSwapStatus 0x201, by decide +kernel⟩,
    ⟨(meshed 2).setReg Reg.cfgSwapStatus 1, by decide +kernel⟩,
    ⟨live, by decide +kernel⟩⟩

theorem witness_CalenderActs :
    (∃ (ls : List (Fin 65)) (s : State), (∀ l ∈ ls, calRuns s l.val = false ∨ laneHeld s l.val = true) ∧ (∃ m, m < 65 ∧ (s.lane m).ended = false ∧
      laneHeld s m = false)) ∧
    (∃ (ls : List (Fin 65)) (s : State), (∀ l ∈ ls, calRuns s l.val = false ∨ laneHeld s l.val = true) ∧ (∀ m, m < 65 → (s.lane m).ended = true ∨
      laneHeld s m = true)) ∧
    (∃ (l : Fin 65) (c : CalCopy) (d : CalCopy) (s : State) (w : Word), calRuns s l.val = true ∧ laneHeld s l.val = false ∧ (laneRepair s
      l.val).filter (fun e => e.wrote != 0) = none ∧ (s.lane l.val).a = triOf c ∧ (s.lane l.val).b = triOf d ∧ (s.lane l.val).beat ≠ 127 ∧ (s.lane
      l.val).ended = false ∧ (s.rg (keySeg (posKey s l.val (if ((s.lane l.val).beat.getLsbD 0) then d else c).range.toNat (((if ((s.lane
      l.val).beat.getLsbD 0) then d else c).pos.toNat + ((s.lane l.val).beat.getLsbD 0).toNat) % 128)))).goldBad = [] ∧ cfgChk s (posKey s l.val (if
      ((s.lane l.val).beat.getLsbD 0) then d else c).range.toNat (((if ((s.lane l.val).beat.getLsbD 0) then d else c).pos.toNat + ((s.lane
      l.val).beat.getLsbD 0).toNat) % 128)) = .good w) ∧
    (∃ (l : Fin 65) (c : CalCopy) (d : CalCopy) (s : State) (w : Word), calRuns s l.val = true ∧ laneHeld s l.val = false ∧ (laneRepair s
      l.val).filter (fun e => e.wrote != 0) = none ∧ (s.lane l.val).a = triOf c ∧ (s.lane l.val).b = triOf d ∧ (s.lane l.val).beat ≠ 127 ∧ (s.lane
      l.val).ended = false ∧ (s.rg (keySeg (posKey s l.val (if ((s.lane l.val).beat.getLsbD 0) then d else c).range.toNat (((if ((s.lane
      l.val).beat.getLsbD 0) then d else c).pos.toNat + ((s.lane l.val).beat.getLsbD 0).toNat) % 128)))).goldBad = [] ∧ cfgChk s (posKey s l.val (if
      ((s.lane l.val).beat.getLsbD 0) then d else c).range.toNat (((if ((s.lane l.val).beat.getLsbD 0) then d else c).pos.toNat + ((s.lane
      l.val).beat.getLsbD 0).toNat) % 128)) = .corrected w) ∧
    (∃ (l : Fin 65) (c : CalCopy) (d : CalCopy) (s : State), calRuns s l.val = true ∧ laneHeld s l.val = false ∧ (laneRepair s l.val).filter (fun e =>
      e.wrote != 0) = none ∧ (s.lane l.val).a = triOf c ∧ (s.lane l.val).b = triOf d ∧ (s.lane l.val).beat ≠ 127 ∧ (s.lane l.val).ended = false ∧
      (s.rg (keySeg (posKey s l.val (if ((s.lane l.val).beat.getLsbD 0) then d else c).range.toNat (((if ((s.lane l.val).beat.getLsbD 0) then d else
      c).pos.toNat + ((s.lane l.val).beat.getLsbD 0).toNat) % 128)))).goldBad = [] ∧ cfgChk s (posKey s l.val (if ((s.lane l.val).beat.getLsbD 0) then
      d else c).range.toNat (((if ((s.lane l.val).beat.getLsbD 0) then d else c).pos.toNat + ((s.lane l.val).beat.getLsbD 0).toNat) % 128)) = .bad ∧
      s.cal.queue = []) ∧
    (∃ (l : Fin 65) (c : CalCopy) (d : CalCopy) (s : State), calRuns s l.val = true ∧ laneHeld s l.val = false ∧ (laneRepair s l.val).filter (fun e =>
      e.wrote != 0) = none ∧ (s.lane l.val).a = triOf c ∧ (s.lane l.val).b = triOf d ∧ (s.lane l.val).beat ≠ 127 ∧ (s.lane l.val).ended = false ∧
      (s.rg (keySeg (posKey s l.val (if ((s.lane l.val).beat.getLsbD 0) then d else c).range.toNat (((if ((s.lane l.val).beat.getLsbD 0) then d else
      c).pos.toNat + ((s.lane l.val).beat.getLsbD 0).toNat) % 128)))).goldBad = [] ∧ cfgChk s (posKey s l.val (if ((s.lane l.val).beat.getLsbD 0) then
      d else c).range.toNat (((if ((s.lane l.val).beat.getLsbD 0) then d else c).pos.toNat + ((s.lane l.val).beat.getLsbD 0).toNat) % 128)) = .bad ∧
      s.cal.queue.any (fun r => r.lane == l.val && r.key == (posKey s l.val (if ((s.lane l.val).beat.getLsbD 0) then d else c).range.toNat (((if
      ((s.lane l.val).beat.getLsbD 0) then d else c).pos.toNat + ((s.lane l.val).beat.getLsbD 0).toNat) % 128))) = false ∧ 4 ≤ (s.cal.queue.filter
      (fun r => r.lane == l.val)).length) ∧
    (∃ (l : Fin 65) (c : CalCopy) (d : CalCopy) (s : State) (w : Word), calRuns s l.val = true ∧ laneHeld s l.val = false ∧ (laneRepair s
      l.val).filter (fun e => e.wrote != 0) = none ∧ (s.lane l.val).a = triOf c ∧ (s.lane l.val).b = triOf d ∧ (s.lane l.val).beat = 127 ∧ (s.lane
      l.val).ended = false ∧ (s.rg (keySeg (posKey s l.val d.range.toNat ((d.pos.toNat + 1) % 128)))).goldBad = [] ∧ cfgChk s (posKey s l.val
      d.range.toNat ((d.pos.toNat + 1) % 128)) = .good w ∧ c.shown ≠ (copyNext l.val d).shown ∧ (mmRecent s).length < 2) ∧
    (∃ (l : Fin 65) (s : State), laneRepair s l.val = none) ∧
    (∃ (l : Fin 65) (e : Repair) (s : State) (v : Word), laneRepair s l.val = some e ∧ e.wrote = 0 ∧ (s.rg (keySeg e.key)).goldBad = [] ∧ (s.rg
      (keySeg e.key)).mirroring = false ∧ repairShadow s e = none ∧ (keyIdent s e.key).getLsbD 35 = true ∧ e.fetched = some v) ∧
    (∃ (l : Fin 65) (e : Repair) (s : State) (v : Word), laneRepair s l.val = some e ∧ e.wrote = 0 ∧ (s.rg (keySeg e.key)).goldBad = [] ∧ (s.rg
      (keySeg e.key)).mirroring = false ∧ repairShadow s e = some v ∧ cfgChk s (otherPlane e.key) = .good v) ∧
    (∃ (l : Fin 65) (e : Repair) (s : State) (v : Word), laneRepair s l.val = some e ∧ e.wrote ≠ 0 ∧ (s.rg (keySeg e.key)).goldBad = [] ∧ cfgChk s
      e.key = .good v ∧ s.cal.late = []) ∧
    (∃ (l : Fin 65) (e : Repair) (s : State), (∀ v, cfgChk s e.key ≠ .good v) ∧ laneRepair s l.val = some e ∧ e.wrote ≠ 0 ∧ (s.rg (keySeg
      e.key)).goldBad = [] ∧ e.wrote = 3) ∧
    (∃ (l : Fin 65) (e : Repair) (s : State), fetchNext s = some e ∧ e.lane = l.val ∧ fetchWaits s (fld (keyIdent s e.key) 34 33) e.key = true) ∧
    (∃ (l : Fin 65) (e : Repair) (s : State), fetchNext s = some e ∧ e.lane = l.val ∧ fetchWaits s (fld (keyIdent s e.key) 34 33) e.key = false) ∧
    (∃ (l : Fin 65) (e : Repair) (s : State), laneRepair s l.val = some e ∧ needsFlash s e = true) ∧
    (∃ (s : State), s.ld.rbLeft = 0) ∧
    (∃ (s : State) (w : Word), s.mode = .run ∧ 2 ≤ s.ld.rbLeft ∧ s.ld.src = 4 ∧ s.ld.rdata.length < 512 ∧ s.ld.rbDone % 128 ≠ 127 ∧ s.ld.past = false
      ∧ inDeckle s (fawSeg s.ld.faw) = true ∧ isContent (fawSeg s.ld.faw) (fawCol s.ld.faw) (fawMinor s.ld.faw) = false ∧ s.cal.queue = [] ∧ (s.rg
      (keySeg (cfgKey (physOf s (fawSeg s.ld.faw) (fld s.ld.faw 35 34 == 1)) (fawSeg s.ld.faw) (fawCol s.ld.faw) (fawMinor s.ld.faw) (s.ld.rbDone %
      128)))).goldBad = [] ∧ cfgChk s (cfgKey (physOf s (fawSeg s.ld.faw) (fld s.ld.faw 35 34 == 1)) (fawSeg s.ld.faw) (fawCol s.ld.faw) (fawMinor
      s.ld.faw) (s.ld.rbDone % 128)) = .good w) ∧
    (∃ (s : State), s.mode = .run ∧ 2 ≤ s.ld.rbLeft ∧ s.ld.src = 4 ∧ s.ld.rdata.length < 512 ∧ s.ld.rbDone % 128 ≠ 127 ∧ s.ld.past = false ∧ inDeckle
      s (fawSeg s.ld.faw) = true ∧ isContent (fawSeg s.ld.faw) (fawCol s.ld.faw) (fawMinor s.ld.faw) = false ∧ s.cal.queue = [] ∧ (s.rg (keySeg
      (cfgKey (physOf s (fawSeg s.ld.faw) (fld s.ld.faw 35 34 == 1)) (fawSeg s.ld.faw) (fawCol s.ld.faw) (fawMinor s.ld.faw) (s.ld.rbDone %
      128)))).goldBad = [] ∧ cfgChk s (cfgKey (physOf s (fawSeg s.ld.faw) (fld s.ld.faw 35 34 == 1)) (fawSeg s.ld.faw) (fawCol s.ld.faw) (fawMinor
      s.ld.faw) (s.ld.rbDone % 128)) = .bad ∧ keyShadow s (cfgKey (physOf s (fawSeg s.ld.faw) (fld s.ld.faw 35 34 == 1)) (fawSeg s.ld.faw) (fawCol
      s.ld.faw) (fawMinor s.ld.faw) (s.ld.rbDone % 128)) = 1) ∧
    (∃ (s : State), s.mode = .run ∧ 2 ≤ s.ld.rbLeft ∧ s.ld.src = 4 ∧ s.ld.rdata.length < 512 ∧ s.ld.rbDone % 128 ≠ 127 ∧ s.ld.past = false ∧ inDeckle
      s (fawSeg s.ld.faw) = true ∧ isContent (fawSeg s.ld.faw) (fawCol s.ld.faw) (fawMinor s.ld.faw) = false ∧ s.cal.queue = [] ∧ (s.rg (keySeg
      (cfgKey (physOf s (fawSeg s.ld.faw) (fld s.ld.faw 35 34 == 1)) (fawSeg s.ld.faw) (fawCol s.ld.faw) (fawMinor s.ld.faw) (s.ld.rbDone %
      128)))).goldBad = [] ∧ cfgChk s (cfgKey (physOf s (fawSeg s.ld.faw) (fld s.ld.faw 35 34 == 1)) (fawSeg s.ld.faw) (fawCol s.ld.faw) (fawMinor
      s.ld.faw) (s.ld.rbDone % 128)) = .bad ∧ keyShadow s (cfgKey (physOf s (fawSeg s.ld.faw) (fld s.ld.faw 35 34 == 1)) (fawSeg s.ld.faw) (fawCol
      s.ld.faw) (fawMinor s.ld.faw) (s.ld.rbDone % 128)) = 0 ∧ s.ld.rbQueued = none ∧ s.ld.rbFull = false) ∧
    (∃ (who : Req) (v : Word) (s : State), Live who s ∧ (fld v 35 24 ≠ 0x6D1 ∨ v.getLsbD 0 = false)) ∧
    (∃ (who : Req) (v : Word) (s : State), Live who s ∧ fld v 35 24 = 0x6D1 ∧ v.getLsbD 0 = true) :=
  ⟨⟨[], live, by decide +kernel⟩,
    ⟨[], { live with cal := { lanes := (List.range 65).map fun i => (i, { ended := true }) } }, by decide +kernel⟩,
    ⟨0, {}, {}, live.setReg Reg.calStatus 1, 0, by decide +kernel⟩,
    ⟨0, {}, {}, (live.setReg Reg.calStatus 1).setCfg 0 { data := 1, err := 1 }, 0, by decide +kernel⟩,
    ⟨0, {}, {}, (live.setReg Reg.calStatus 1).setCfg 0 { data := 3, err := 3 }, by decide +kernel⟩,
    ⟨0, {}, {}, { (live.setReg Reg.calStatus 1).setCfg 0 { data := 3, err := 3 } with cal := { queue := List.replicate 4 { lane := 0, key := 7 } } },
      by decide +kernel⟩,
    ⟨0, {}, {}, (live.setReg Reg.calStatus 1).setLane 0 { beat := 127 }, 0, by decide +kernel⟩,
    ⟨64, live, by decide +kernel⟩,
    ⟨0, { lane := 0, key := 0, fetched := some 5 },
      { live.setReg (Reg.cfgRact 0) 0x800000000 with cal := { queue := [{ lane := 0, key := 0, fetched := some 5 }] } }, 5, by decide +kernel⟩,
    ⟨0, { lane := 0, key := 0 }, { live.setReg (Reg.cfgShState 0) 4 with cal := { queue := [{ lane := 0, key := 0 }] } }, 0, by decide +kernel⟩,
    ⟨0, { lane := 0, key := 0, wrote := 3 }, { live with cal := { queue := [{ lane := 0, key := 0, wrote := 3 }] } }, 0, by decide +kernel⟩,
    ⟨0, { lane := 0, key := 0, wrote := 3 }, { live.setCfg 0 { data := 3, err := 3 } with cal := { queue := [{ lane := 0, key := 0, wrote := 3 }] } },
      bad_not (by decide +kernel), by decide +kernel⟩,
    ⟨0, { lane := 0, key := 0 },
      { live.setReg (Reg.cfgRact 0) 0x800000000 with cal := { queue := [{ lane := 0, key := 0 }] }, flash := { descs := [{ descOf 0x200000000 with active := true }] } },
      by decide +kernel⟩,
    ⟨0, { lane := 0, key := 0 }, { live.setReg (Reg.cfgRact 0) 0x800000000 with cal := { queue := [{ lane := 0, key := 0 }] } }, by decide +kernel⟩,
    ⟨0, { lane := 0, key := 0 }, { live.setReg (Reg.cfgRact 0) 0x800000000 with cal := { queue := [{ lane := 0, key := 0 }] } }, by decide +kernel⟩,
    ⟨live, by decide +kernel⟩,
    ⟨(loading { src := 4, rbLeft := 2 }).setReg (Reg.cfgDeckle 0) 1, 0, by decide +kernel⟩,
    ⟨((loading { src := 4, rbLeft := 2, faw := 0x400000000 }).setReg (Reg.cfgDeckle 0) 1).setCfg 0x10000000 { data := 3, err := 3 },
      by decide +kernel⟩,
    ⟨((loading { src := 4, rbLeft := 2 }).setReg (Reg.cfgDeckle 0) 1).setCfg 0 { data := 3, err := 3 }, by decide +kernel⟩,
    ⟨rqCore, 0, live, ⟨rfl, rfl, by decide +kernel⟩, by decide +kernel⟩,
    ⟨rqCore, 0x6D1000001, live, ⟨rfl, rfl, by decide +kernel⟩, by decide +kernel⟩⟩

theorem witness_EngineQueue :
    (∃ (k : Fin 8) (s : State), portReady s k.val = false) ∧
    (∃ (k : Fin 8) (q : Quad) (n : Nat) (s : State), portReady s k.val = true ∧ hostOf s 0 k.val = some n ∧ tagBusy s k.val (reqTag q) = false) ∧
    (∃ (k : Fin 8) (q : Quad) (rest : List Quad) (s : State), s.rspQ k.val = q :: rest ∧ portClocked s 0 k.val = true) ∧
    (∃ (k : Fin 8) (s : State), s.rspQ k.val = []) ∧
    (∃ (s : State), (engRuns s = false ∨ nextAdmit s = none)) ∧
    (∃ (o : Op) (s : State), engRuns s = true ∧ nextAdmit s = some o ∧ (s.opAt o.id).isSome = true ∧ opBad s o = false ∧ opRemote s o = false ∧ (reqOp
      o.req = 1 ∨ reqOp o.req = 3 ∨ reqOp o.req = 7)) ∧
    (∃ (o : Op) (s : State), engRuns s = true ∧ nextAdmit s = some o ∧ (s.opAt o.id).isSome = true ∧ opBad s o = true) ∧
    (∃ (id : Nat) (o : Op) (s : State), AtWork id 8 o s) ∧
    (∃ (id : Nat) (o : Op) (s : State), AtWork id 9 o s ∧ fld o.req.w0 3 0 = 0) ∧
    (∃ (id : Nat) (o : Op) (s : State), AtWork id 9 o s ∧ fld o.req.w0 3 0 = 1) ∧
    (∃ (id : Nat) (o : Op) (s : State), AtWork id 9 o s ∧ fld o.req.w0 3 0 = 2) ∧
    (∃ (id : Nat) (o : Op) (s : State), AtWork id 9 o s ∧ fld o.req.w0 3 0 = 3) ∧
    (∃ (who : Req) (s : State), Live who s) ∧
    (∃ (id : Nat) (o : Op) (s : State), s.mode = .run ∧ s.opAt id = some o ∧ o.phase = .done ∧ opFirst s o = true ∧ o.kins = false ∧ o.drop = false ∧
      o.rq.val ≠ 8 ∧ hostDown s o.rq.val = false) ∧
    (∃ (id : Nat) (o : Op) (s : State), s.opAt id = some o ∧ o.phase = .remote) ∧
    (∃ (s : State), s.eng.late = []) ∧
    (∃ (s : State) (k : Nat × Nat × Nat) (rest : List (Nat × Nat × Nat)), s.eng.late = k :: rest) :=
  ⟨⟨0, live, by decide +kernel⟩,
    ⟨0, ⟨0, 0, 0, 0⟩, 0, engined { hosts := [(0, 1)], held := [(0, 1)] }, by decide +kernel⟩,
    ⟨7, ⟨1, 0, 0, 0⟩, [], engined { hosts := [(7, 64)], rspQ := [(7, [⟨1, 0, 0, 0⟩])] }, by decide +kernel⟩,
    ⟨7, live, by decide +kernel⟩,
    ⟨live, by decide +kernel⟩,
    ⟨{ opOf 0x100000000 with phase := .accepted }, oneOp { opOf 0x100000000 with phase := .accepted }, by decide +kernel⟩,
    ⟨{ opOf 0 with phase := .accepted }, oneOp { opOf 0 with phase := .accepted }, by decide +kernel⟩,
    ⟨0, opOf 0x800000000, oneOp (opOf 0x800000000), by decide +kernel⟩,
    ⟨0, opOf 0x900000000, oneOp (opOf 0x900000000), by decide +kernel⟩,
    ⟨0, opOf 0x900000001, oneOp (opOf 0x900000001), by decide +kernel⟩,
    ⟨0, opOf 0x900000002, oneOp (opOf 0x900000002), by decide +kernel⟩,
    ⟨0, opOf 0x900000003, oneOp (opOf 0x900000003), by decide +kernel⟩,
    ⟨rqCore, live, ⟨rfl, rfl, by decide +kernel⟩⟩,
    ⟨0, { opOf 0x100000000 with phase := .done }, oneOp { opOf 0x100000000 with phase := .done }, by decide +kernel⟩,
    ⟨0, { opOf 0x100000001 with phase := .remote }, oneOp { opOf 0x100000001 with phase := .remote }, by decide +kernel⟩,
    ⟨live, by decide +kernel⟩,
    ⟨engined { late := [(1, 2, 3)] }, (1, 2, 3), [], by decide +kernel⟩⟩

theorem witness_EngineTables :
    (∃ (id : Nat) (o : Op) (s : State), AtWork id 1 o s ∧ keyTurn s o = false) ∧
    (∃ (id : Nat) (o : Op) (s : State) (f : Found) (t : State), opFind o s = (some f, t) ∧ AtWork id 1 o s ∧ keyTurn s o = true) ∧
    (∃ (id : Nat) (o : Op) (s : State) (t : State), opFind o s = (none, t) ∧ AtWork id 1 o s ∧ keyTurn s o = true) ∧
    (∃ (id : Nat) (o : Op) (s : State), AtWork id 2 o s ∧ keyTurn s o = false) ∧
    (∃ (id : Nat) (o : Op) (s : State) (l : Nat) (t : State), keyFind (reqClass o.req) (opKey o) s = (some l, t) ∧ AtWork id 2 o s ∧ keyTurn s o =
      true) ∧
    (∃ (id : Nat) (o : Op) (s : State) (t : State) (u : State), keyFind (reqClass o.req) (opKey o) s = (none, t) ∧ keyPlace (insEntry o) t = (true, u)
      ∧ AtWork id 2 o s ∧ keyTurn s o = true) ∧
    (∃ (id : Nat) (o : Op) (s : State) (t : State) (u : State), keyFind (reqClass o.req) (opKey o) s = (none, t) ∧ keyPlace (insEntry o) t = (false,
      u) ∧ AtWork id 2 o s ∧ keyTurn s o = true) ∧
    (∃ (id : Nat) (o : Op) (s : State), AtWork id 3 o s ∧ keyTurn s o = false) ∧
    (∃ (id : Nat) (o : Op) (s : State) (l : Nat) (t : State), keyFind (reqClass o.req) (opKey o) s = (some l, t) ∧ AtWork id 3 o s ∧ keyTurn s o =
      true) ∧
    (∃ (id : Nat) (o : Op) (s : State) (t : State), keyFind (reqClass o.req) (opKey o) s = (none, t) ∧ AtWork id 3 o s ∧ keyTurn s o = true) ∧
    (∃ (id : Nat) (o : Op) (c : Nat) (s : State), AtWork id 4 o s ∧ o.ctx = some c ∧ ctxTurn s o = false) ∧
    (∃ (id : Nat) (o : Op) (c : Nat) (s : State), AtWork id 4 o s ∧ o.ctx = some c ∧ ctxTurn s o = true ∧ isPoisoned s c = true) ∧
    (∃ (id : Nat) (o : Op) (c : Nat) (s : State) (ws : List Word) (t : State), ctxWords c s = (some ws, t) ∧ AtWork id 4 o s ∧ o.ctx = some c ∧
      ctxTurn s o = true ∧ isPoisoned s c = false) ∧
    (∃ (id : Nat) (o : Op) (c : Nat) (s : State) (t : State), ctxWords c s = (none, t) ∧ AtWork id 4 o s ∧ o.ctx = some c ∧ ctxTurn s o = true ∧
      isPoisoned s c = false) ∧
    (∃ (id : Nat) (o : Op) (c : Nat) (s : State), AtWork id 5 o s ∧ o.ctx = some c ∧ ctxTurn s o = true ∧ (List.range (ctxSize s)).all (fun i => selOf
      o.req i != 0) = true) ∧
    (∃ (id : Nat) (o : Op) (c : Nat) (s : State) (ws : List Word) (t : State), ctxWords c s = (some ws, t) ∧ AtWork id 5 o s ∧ o.ctx = some c ∧
      ctxTurn s o = true ∧ (List.range (ctxSize s)).all (fun i => selOf o.req i != 0) = false ∧ isPoisoned s c = false) ∧
    (∃ (id : Nat) (o : Op) (c : Nat) (ws : List Word) (t : State) (f : Fur) (v : Nat) (s : State), ctxWords c s = (some ws, t) ∧ furRun (o.prog.map
      (fun k => k.chk.word)) t.evt.time t.evt.meshTime 17 0 { x := [o.req.w2, o.req.w3] ++ List.replicate 6 0, c := ws } = (f, .ok v) ∧ AtWork id 6 o
      s ∧ o.ctx = some c ∧ ctxTurn s o = true ∧ isPoisoned s c = false ∧ (o.prog.map Cell.chk).findIdx? (fun k => decide (k = .bad)) = none ∧ f.emits
      = []) ∧
    (∃ (id : Nat) (o : Op) (t : State) (s : State), opFind o s = (none, t) ∧ AtWork id 7 o s ∧ o.ctx = none ∧ keyTurn s o = true) ∧
    (∃ (id : Nat) (o : Op) (c : Nat) (ws : List Word) (t : State) (f : Fur) (v : Nat) (s : State), ctxWords c s = (some ws, t) ∧ furRun (o.prog.map
      (fun k => k.chk.word)) t.evt.time t.evt.meshTime 17 0 { x := [if reqK3 o.req then 0 else o.req.w3, o.hit] ++ List.replicate 6 0, c := ws } = (f,
      .ok v) ∧ AtWork id 7 o s ∧ o.ctx = some c ∧ ctxTurn s o = true ∧ isPoisoned s c = false ∧ (o.prog.map Cell.chk).findIdx? (fun k => decide (k =
      .bad)) = none ∧ f.emits = []) ∧
    (∃ (s : State), ((List.range 64).map (stashBase + ·)).find? (fun l => entValid (entGet (stashCheck s) l)) = none) ∧
    (∃ (s : State) (l : Nat) (t : State) (m : State), bucketPlace (entGet (stashCheck s) l) (stashCheck s) = (some t, m) ∧ ((List.range 64).map
      (stashBase + ·)).find? (fun l => entValid (entGet (stashCheck s) l)) = some l) ∧
    (∃ (s : State), s.getB Reg.rhxAgeCfg 35 = true ∧ engOn s = true) ∧
    (∃ (s : State), s.getB Reg.rhxAgeCfg 35 = false) ∧
    (∃ (s : State), (s.eng.sweep.running = false ∨ s.eng.sweep.paused = true)) ∧
    (∃ (s : State), s.eng.sweep.running = true ∧ s.eng.sweep.paused = false ∧ engOn s = true) ∧
    (∃ (ix : Nat) (w : Word) (t : State) (s : State), engRead .context ix s = (some w, t)) ∧
    (∃ (ix : Nat), 8192 ≤ ix / 7) :=
  ⟨⟨1, { opOf 0x100000000 with id := 1, adm := 1 }, engined { slots := [opOf 0x200000000, { opOf 0x100000000 with id := 1, adm := 1 }] },
    by decide +kernel⟩,
    ⟨0, opOf 0x100000000, engined { slots := [opOf 0x100000000], stash := [(3, { data := 0x800000005 })] }, ⟨5, 2, 0x800000005, wd (locDetail
      stashBase)⟩, ageZero stashBase (engined { slots := [opOf 0x100000000], stash := [(3, { data := 0x800000005 })] }), opFind_hit _ (one_clean _ rfl
      rfl rfl (by decide)) _ stashBase _ (by decide) (by decide +kernel) (by decide +kernel), by decide +kernel⟩,
    ⟨0, opOf 0x100000000, oneOp (opOf 0x100000000), oneOp (opOf 0x100000000), opFind_miss _ (oneOp_clean _) _ (by decide) (by decide +kernel),
      by decide +kernel⟩,
    ⟨1, { opOf 0x200000000 with id := 1, adm := 1 }, engined { slots := [opOf 0x300000000, { opOf 0x200000000 with id := 1, adm := 1 }] },
      by decide +kernel⟩,
    ⟨0, opOf 0x200000000, engined { slots := [opOf 0x200000000], stash := [(3, { data := 0x800000005 })] }, stashBase, engined
      { slots := [opOf 0x200000000], stash := [(3, { data := 0x800000005 })] }, keyFind_clean _ (one_clean _ rfl rfl rfl (by decide)) _ _ _
      (by decide +kernel), by decide +kernel⟩,
    ⟨0, opOf 0x200000000, oneOp (opOf 0x200000000), oneOp (opOf 0x200000000), _, keyFind_clean _ (oneOp_clean _) _ _ _ (by decide +kernel), pair_of
      (by decide +kernel), by decide +kernel⟩,
    ⟨0, opOf 0x200000000, engined fullTables, engined fullTables, engined fullTables, keyFind_clean _ full_clean _ _ _ (by decide +kernel),
      keyPlace_full _ full_clean _ fullB fullB_closed (by decide +kernel) (by decide +kernel) (by decide +kernel), by decide +kernel⟩,
    ⟨1, { opOf 0x300000000 with id := 1, adm := 1 }, engined { slots := [opOf 0x100000000, { opOf 0x300000000 with id := 1, adm := 1 }] },
      by decide +kernel⟩,
    ⟨0, opOf 0x300000000, engined { slots := [opOf 0x300000000], stash := [(255, { data := 0x800000005 })] }, stashBase + 63, engined
      { slots := [opOf 0x300000000], stash := [(255, { data := 0x800000005 })] }, keyFind_clean _ (one_clean _ rfl rfl rfl (by decide)) _ _ _
      (by decide +kernel), by decide +kernel⟩,
    ⟨0, opOf 0x300000000, oneOp (opOf 0x300000000), oneOp (opOf 0x300000000), keyFind_clean _ (oneOp_clean _) _ _ _ (by decide +kernel),
      by decide +kernel⟩,
    ⟨1, { opOf 0x400000000 with id := 1, ctx := some 0, place := 1 }, 0, engined
      { slots := [{ opOf 0x500000000 with ctx := some 0 }, { opOf 0x400000000 with id := 1, ctx := some 0, place := 1 }] }, by decide +kernel⟩,
    ⟨0, { opOf 0x400000000 with ctx := some 0 }, 0, engined { slots := [{ opOf 0x400000000 with ctx := some 0 }], poison := [(0, true)] },
      by decide +kernel⟩,
    ⟨0, { opOf 0x400000000 with ctx := some 0 }, 0, oneOp { opOf 0x400000000 with ctx := some 0 }, [0, 0, 0, 0], _, pair_of (by decide +kernel),
      by decide +kernel⟩,
    ⟨0, { opOf 0x400000000 with ctx := some 0 }, 0, engined { slots := [{ opOf 0x400000000 with ctx := some 0 }], ctx := [(3, { err := 3 })] }, _,
      pair_of (by decide +kernel), by decide +kernel⟩,
    ⟨0, { opOf 0x500015400 with ctx := some 0 }, 0, oneOp { opOf 0x500015400 with ctx := some 0 }, by decide +kernel⟩,
    ⟨0, { opOf 0x500000000 with ctx := some 0 }, 0, oneOp { opOf 0x500000000 with ctx := some 0 }, [0, 0, 0, 0], _, pair_of (by decide +kernel),
      by decide +kernel⟩,
    ⟨0, { opOf 0x600000000 with ctx := some 0, prog := retProg }, 0, [0, 0, 0, 0], _, { c := [0, 0, 0, 0] }, 1, oneOp
      { opOf 0x600000000 with ctx := some 0, prog := retProg }, pair_of (by decide +kernel), rfl, by decide +kernel⟩,
    ⟨0, opOf 0x700000000, oneOp (opOf 0x700000000), oneOp (opOf 0x700000000), opFind_miss _ (oneOp_clean _) _ (by decide) (by decide +kernel),
      by decide +kernel⟩,
    ⟨0, { opOf 0x700000000 with ctx := some 0, prog := retProg }, 0, [0, 0, 0, 0], _, { c := [0, 0, 0, 0] }, 1, oneOp
      { opOf 0x700000000 with ctx := some 0, prog := retProg }, pair_of (by decide +kernel), rfl, by decide +kernel⟩,
    ⟨live, by decide +kernel⟩,
    ⟨engined { stash := entAt 63 0 }, stashBase + 63, _, _, pair_some _ live (by decide +kernel), by decide +kernel⟩,
    ⟨(engined {}).setReg Reg.rhxAgeCfg 0x800000000, by decide +kernel⟩,
    ⟨live, by decide +kernel⟩,
    ⟨live, by decide +kernel⟩,
    ⟨engined { sweep := { running := true, pos := 262207 } }, by decide +kernel⟩,
    ⟨0, 0, _, live, pair_of (by decide +kernel)⟩,
    ⟨57344, by decide +kernel⟩⟩

theorem witness_EngineRegisters :
    (∃ (s : State), (s.fn .rhx = fnOff ∨ s.fn .rhx = fnFault)) ∧
    (∃ (s : State), s.fn .rhx = fnOn) ∧
    (∃ (s : State), (s.eng.evLost = 0 ∨ 64 ≤ s.eng.evBuf.length)) ∧
    (∃ (s : State), s.eng.evLost ≠ 0 ∧ s.eng.evBuf.length < 64) ∧
    (∃ (who : Req) (n : Fin 10) (v : Word) (s : State), Live who s ∧ fld v 8 0 ≤ allocLimit n.val ∧ (((List.range 10).filter (· ≠ n.val)).map (rqAlloc
      s)).sum + fld v 8 0 ≤ 512) ∧
    (∃ (who : Req) (n : Fin 10) (v : Word) (s : State), Live who s ∧ (allocLimit n.val < fld v 8 0 ∨ 512 < (((List.range 10).filter (· ≠ n.val)).map
      (rqAlloc s)).sum + fld v 8 0) ∧ s.eng.evBuf.length < 64) ∧
    (∃ (who : Req) (v : Word) (s : State), Live who s ∧ v.getLsbD 35 = false) ∧
    (∃ (who : Req) (v : Word) (s : State), Live who s ∧ v.getLsbD 35 = true ∧ s.getB Reg.rhxWcStatus 0 = true) ∧
    (∃ (who : Req) (v : Word) (s : State), Live who s ∧ wcCheck (fld v 12 0) ((begin who s).setB Reg.rhxWcStatus 0 true) = (begin who s).setB
      Reg.rhxWcStatus 0 true ∧ v.getLsbD 35 = true ∧ s.getB Reg.rhxWcStatus 0 = false) ∧
    (∃ (who : Req) (v : Word) (s : State), Live who s ∧ v.getLsbD 35 = true ∧ (s.getB Reg.rhxKinsStatus 7 = true ∨ engOn s = false)) ∧
    (∃ (who : Req) (v : Word) (s : State), Live who s ∧ v.getLsbD 35 = true ∧ s.getB Reg.rhxKinsStatus 7 = false ∧ rqCredits s 9 ≠ 0 ∧ engOn s = true) ∧
    (∃ (who : Req) (s : State), Live who s ∧ engOn s = false) ∧
    (∃ (who : Req) (s : State), Live who s ∧ engOn s = true ∧ rqCredits s 9 ≠ 0 ∧ tagBusy s 9 (reqTag (Store.get (fun _ => ⟨0, 0, 0, 0⟩) s.eng.stage
      who.toNat)) = false) ∧
    (∃ (who : Req) (s : State), Live who s ∧ s.rspQ 9 = []) ∧
    (∃ (who : Req) (s : State) (q : Quad) (rest : List Quad) (p : Bool), Live who s ∧ s.rspQ 9 = q :: rest ∧ peeks who p = true) ∧
    (∃ (who : Req) (s : State) (q : Quad) (rest : List Quad) (p : Bool), Live who s ∧ s.rspQ 9 = q :: rest ∧ peeks who p = false) :=
  ⟨⟨fnAt live .rhx fnFault, by decide +kernel⟩,
    ⟨fnAt live .rhx fnOn, by decide +kernel⟩,
    ⟨live, by decide +kernel⟩,
    ⟨engined { evLost := 1 }, by decide +kernel⟩,
    ⟨rqCore, 9, 64, live, ⟨rfl, rfl, by decide +kernel⟩, by decide +kernel⟩,
    ⟨rqCore, 0, 65, live, ⟨rfl, rfl, by decide +kernel⟩, by decide +kernel⟩,
    ⟨rqCore, 0, live, ⟨rfl, rfl, by decide +kernel⟩, by decide +kernel⟩,
    ⟨rqCore, 0x800000000, live.setReg Reg.rhxWcStatus 1, ⟨rfl, rfl, by decide +kernel⟩, by decide +kernel⟩,
    ⟨rqCore, 0x800001FFF, engined {}, ⟨rfl, rfl, by decide +kernel⟩, wcCheck_clean _ wcBusy_clean _, by decide +kernel⟩,
    ⟨rqCore, 0x800000000, live, ⟨rfl, rfl, by decide +kernel⟩, by decide +kernel⟩,
    ⟨rqCore, 0x800000000, engined { held := [(9, 1)] }, ⟨rfl, rfl, by decide +kernel⟩, by decide +kernel⟩,
    ⟨rqCore, live, ⟨rfl, rfl, by decide +kernel⟩, by decide +kernel⟩,
    ⟨rqCore, engined { held := [(9, 1)] }, ⟨rfl, rfl, by decide +kernel⟩, by decide +kernel⟩,
    ⟨rqCore, live, ⟨rfl, rfl, by decide +kernel⟩, by decide +kernel⟩,
    ⟨rqCore, engined { rspQ := [(9, [⟨1, 0, 0, 0⟩])] }, ⟨1, 0, 0, 0⟩, [], true, ⟨rfl, rfl, by decide +kernel⟩, by decide +kernel⟩,
    ⟨rqCore, engined { rspQ := [(9, [⟨1, 0, 0, 0⟩])] }, ⟨1, 0, 0, 0⟩, [], false, ⟨rfl, rfl, by decide +kernel⟩, by decide +kernel⟩⟩

theorem witness_LinkTraining :
    (∃ (p : Fin 8) (s : State), (s.fn (.mesh p) ≠ fnStarting ∨ (s.port p.val).granted = false)) ∧
    (∃ (p : Fin 8) (s : State), s.fn (.mesh p) = fnStarting ∧ (s.port p.val).granted = true) ∧
    (∃ (p : Fin 8) (c : Instr) (l : Nat) (s : State), (c, l) ∈ [(Instr.linkSignalDetect p, 1), (.linkCdrLock p, 2), (.linkEqDone p, 3),
      (.linkAlignDone p, 4)] ∧ trains s p.val = true ∧ s.link p.val = l ∧ (s.port p.val).idle = false) ∧
    (∃ (p : Fin 8) (c : Instr) (l : Nat) (s : State), (c, l) ∈ [(Instr.linkSignalDetect p, 1), (.linkCdrLock p, 2), (.linkEqDone p, 3),
      (.linkAlignDone p, 4)] ∧ (trains s p.val = false ∨ s.link p.val ≠ l ∨ (s.port p.val).idle = true)) ∧
    (∃ (p : Fin 8) (s : State), (trains s p.val = false ∨ s.link p.val ≠ 5 ∨ (s.port p.val).idle = true)) ∧
    (∃ (p : Fin 8) (s : State), trains s p.val = true ∧ s.link p.val = 5 ∧ (s.port p.val).idle = false ∧ (s.port p.val).test = true) ∧
    (∃ (p : Fin 8) (s : State), (trains s p.val = false ∨ s.link p.val < 1 ∨ 5 < s.link p.val ∨ (s.port p.val).idle = true)) ∧
    (∃ (p : Fin 8) (s : State), trains s p.val = true ∧ 1 ≤ s.link p.val ∧ s.link p.val ≤ 5 ∧ (s.port p.val).idle = false) ∧
    (∃ (p : Fin 8) (s : State), trains s p.val = true ∧ (s.port p.val).idle = true) :=
  ⟨⟨7, live, by decide +kernel⟩,
    ⟨7, (fnAt live (.mesh 7) fnStarting).setPort 7 { granted := true }, by decide +kernel⟩,
    ⟨0, .linkAlignDone 0, 4, training 4, by simp, by decide +kernel⟩,
    ⟨0, .linkSignalDetect 0, 1, training 2, by simp, by decide +kernel⟩,
    ⟨0, training 4, by decide +kernel⟩,
    ⟨0, (training 5).setPort 0 { test := true }, by decide +kernel⟩,
    ⟨0, training 6, by decide +kernel⟩,
    ⟨0, training 5, by decide +kernel⟩,
    ⟨0, (training 1).setPort 0 { idle := true }, by decide +kernel⟩⟩

theorem witness_LinkLayer :
    (∃ (p : Fin 8) (ws : List Word) (w : Word) (c : BitVec 3) (s : State) (x : Instr), x ∈ [Instr.linkPacketReceived p ws, .ack p w, .credit p w,
      .rstart p, .replayTimeout p, .linkLoss p c] ∧ s.link p.val ≠ linkActive) ∧
    (∃ (p : Fin 8) (ws : List Word) (s : State), s.link p.val = linkActive ∧ (s.port p.val).discard = false ∧ fld (ws.getD 0 0) 35 32 = 1 ∧ lenOk ws =
      true ∧ packetCrcOk ws = true ∧ fld (ws.getD 0 0) 29 18 = (s.port p.val).rxSeq.toNat) ∧
    (∃ (p : Fin 8) (ws : List Word) (s : State), s.link p.val = linkActive ∧ (s.port p.val).discard = false ∧ fld (ws.getD 0 0) 35 32 = 1 ∧ lenOk ws =
      true ∧ packetCrcOk ws = true ∧ fld (ws.getD 0 0) 29 18 ≠ (s.port p.val).rxSeq.toNat) ∧
    (∃ (p : Fin 8) (ws : List Word) (s : State), s.link p.val = linkActive ∧ (s.port p.val).discard = false ∧ fld (ws.getD 0 0) 35 32 = 1 ∧ (lenOk ws
      = false ∨ packetCrcOk ws = false)) ∧
    (∃ (p : Fin 8) (ws : List Word) (s : State), s.link p.val = linkActive ∧ (s.port p.val).discard = false ∧ 4 ≤ fld (ws.getD 0 0) 35 32) ∧
    (∃ (p : Fin 8) (ws : List Word) (s : State), s.link p.val = linkActive ∧ (s.port p.val).discard = false ∧ fld (ws.getD 0 0) 35 32 = 0) ∧
    (∃ (p : Fin 8) (ws : List Word) (s : State), s.link p.val = linkActive ∧ (s.port p.val).discard = false ∧ fld (ws.getD 0 0) 35 32 = 2) ∧
    (∃ (p : Fin 8) (ws : List Word) (s : State), s.link p.val = linkActive ∧ (s.port p.val).discard = false ∧ fld (ws.getD 0 0) 35 32 = 3) ∧
    (∃ (p : Fin 8) (s : State), s.link p.val = linkActive ∧ (s.port p.val).discard = true) ∧
    (∃ (p : Fin 8) (w : Word) (s : State), s.link p.val = linkActive ∧ (s.port p.val).discard = false ∧ linkWordOk 2 w = false) ∧
    (∃ (p : Fin 8) (w : Word) (s : State), s.link p.val = linkActive ∧ (s.port p.val).discard = false ∧ linkWordOk 3 w = false) ∧
    (∃ (p : Fin 8) (w : Word) (s : State), s.link p.val = linkActive ∧ (s.port p.val).discard = false ∧ linkWordOk 2 w = true) ∧
    (∃ (p : Fin 8) (w : Word) (s : State), s.link p.val = linkActive ∧ (s.port p.val).discard = false ∧ linkWordOk 3 w = true) ∧
    (∃ (p : Fin 8) (s : State), s.link p.val = linkActive ∧ (s.port p.val).replay = []) ∧
    (∃ (p : Fin 8) (s : State), s.link p.val = linkActive ∧ (s.port p.val).replay ≠ [] ∧ (s.port p.val).replays < 7) ∧
    (∃ (p : Fin 8) (s : State), s.link p.val = linkActive ∧ (s.port p.val).replay ≠ [] ∧ 7 ≤ (s.port p.val).replays) ∧
    (∃ (p : Fin 8) (k : Packet) (s : State), k ∉ (s.port p.val).rxq) ∧
    (∃ (p : Fin 8) (k : Packet) (s : State), k ∈ (s.port p.val).rxq) :=
  ⟨⟨7, [], 0, 0, live, .rstart 7, by simp, by decide +kernel⟩,
    ⟨0, frame 0x100000000 0, meshed 2, by decide +kernel⟩,
    ⟨0, frame 0x13FFC0000 0, meshed 2, by decide +kernel⟩,
    ⟨0, [0x100000000, 0, 0], meshed 2, by decide +kernel⟩,
    ⟨0, [0x400000000], meshed 2, by decide +kernel⟩,
    ⟨0, [0], meshed 2, by decide +kernel⟩,
    ⟨0, [0x200000000], meshed 2, by decide +kernel⟩,
    ⟨0, [0x300000000], meshed 2, by decide +kernel⟩,
    ⟨0, onPort { discard := true }, by decide +kernel⟩,
    ⟨0, 0, meshed 2, by decide +kernel⟩,
    ⟨0, 0, meshed 2, by decide +kernel⟩,
    ⟨0, withCrc8 (2 <<< 32), meshed 2, by decide +kernel⟩,
    ⟨0, linkWord 0x3C0040000, meshed 2, by decide +kernel⟩,
    ⟨0, meshed 2, by decide +kernel⟩,
    ⟨0, onPort { replay := [⟨0, 0, 0, 0, 0, false, 0, []⟩], replays := 6 }, by decide +kernel⟩,
    ⟨0, onPort { replay := [⟨0, 0, 0, 0, 0, false, 0, []⟩], replays := 7 }, by decide +kernel⟩,
    ⟨0, ⟨0, 0, 0, 0, 0, false, 0, []⟩, live, by decide +kernel⟩,
    ⟨0, ⟨0, 0, 0, 0, 0, false, 0, []⟩, onPort { rxq := [⟨0, 0, 0, 0, 0, false, 0, []⟩] }, by decide +kernel⟩⟩

theorem witness_Discovery :
    (∃ (p : Fin 8) (s : State) (u : State), u = inboxTake 0x10 s ∧ (u.link p.val ≠ linkActive ∨ (u.port p.val).test = true)) ∧
    (∃ (p : Fin 8) (h : Hello) (s : State) (u : State), u = inboxTake 0x10 s ∧ u.link p.val = linkActive ∧ (u.port p.val).test = false ∧ (u.port
      p.val).heard = true ∧ (u.port p.val).refused = false ∧ h.state ≠ 3) ∧
    (∃ (who : Req) (v : Word) (s : State), Live who s ∧ (¬ (fld v 35 24 = 0x6D1 ∧ v.getLsbD 0 = true) ∨ discPorts s = [])) ∧
    (∃ (who : Req) (v : Word) (s : State), Live who s ∧ fld v 35 24 = 0x6D1 ∧ v.getLsbD 0 = true ∧ discPorts s ≠ []) ∧
    (∃ (p : Fin 8) (s : State) (u : State), u = inboxTake 0x11 s ∧ u.link p.val ≠ linkActive) ∧
    (∃ (p : Fin 8) (e : BitVec 16) (s : State) (u : State), u = inboxTake 0x11 s ∧ u.link p.val = linkActive ∧ epochAfter e (nowEpoch u) = true) ∧
    (∃ (p : Fin 8) (e : _) (s : State) (u : State), u = inboxTake 0x11 s ∧ e = nowEpoch u ∧ u.link p.val = linkActive ∧ u.mstate = 1) ∧
    (∃ (e : BitVec 16) (s : State) (u : State), u = inboxTake 0x11 s ∧ epochAfter e (nowEpoch u) = false ∧ e ≠ nowEpoch u) ∧
    (∃ (p : Fin 8) (e : _) (s : State) (u : State), u = inboxTake 0x12 s ∧ e = nowEpoch u ∧ u.link p.val = linkActive ∧ u.mstate = 1 ∧
      (u.mesh.disc.children.contains p = true ∨ u.mesh.disc.echoed = true)) ∧
    (∃ (p : Fin 8) (e : _) (s : State) (u : State), u = inboxTake 0x12 s ∧ e = nowEpoch u ∧ u.link p.val = linkActive ∧ u.mstate = 1 ∧
      u.mesh.disc.children.contains p = false ∧ u.mesh.disc.echoed = false) ∧
    (∃ (p : Fin 8) (e : _) (s : State) (u : State), u = inboxTake 0x13 s ∧ e = nowEpoch u ∧ u.link p.val = linkActive ∧ u.mstate = 1 ∧
      (u.mesh.disc.parent ≠ some p ∨ u.mesh.disc.count ≠ 0)) ∧
    (∃ (p : Fin 8) (e : _) (s : State) (u : State), u = inboxTake 0x13 s ∧ e = nowEpoch u ∧ u.link p.val = linkActive ∧ u.mstate = 1 ∧
      u.mesh.disc.parent = some p ∧ u.mesh.disc.count = 0) ∧
    (∃ (p : Fin 8) (l : Lsa) (s : State) (u : State), u = inboxTake 0x14 s ∧ u.link p.val = linkActive ∧ l.epoch = nowEpoch u ∧ lsaFind
      u.mesh.disc.lsas l.addr.toNat = some l) ∧
    (∃ (p : Fin 8) (l : Lsa) (s : State) (u : State), u = inboxTake 0x14 s ∧ u.link p.val = linkActive ∧ l.epoch = nowEpoch u ∧ lsaFind
      u.mesh.disc.lsas l.addr.toNat ≠ some l ∧ (u.addrValid = false ∨ l.addr.toNat ≠ u.addr)) ∧
    (∃ (s : State), (s.mesh.disc.installed = true ∨ s.addrValid = false)) ∧
    (∃ (s : State), s.mesh.disc.installed = false ∧ s.addrValid = true ∧ s.mstate = 2) ∧
    (∃ (s : State), s.mesh.disc.installed = false ∧ s.addrValid = true ∧ s.mstate = 1 ∧ s.mesh.disc.count ≠ 0 ∧ s.mesh.disc.lsas.length =
      s.mesh.disc.count) ∧
    (∃ (p : Fin 8) (e : BitVec 16) (s : State) (u : State), u = inboxTake 0x15 s ∧ (u.link p.val ≠ linkActive ∨ e ≠ nowEpoch u ∨ u.mstate ≠ 1)) ∧
    (∃ (p : Fin 8) (e : _) (s : State) (u : State), u = inboxTake 0x15 s ∧ e = nowEpoch u ∧ u.link p.val = linkActive ∧ u.mstate = 1) ∧
    (∃ (p : Fin 8) (s : State) (u : State), u = inboxTake 0x16 s ∧ (u.mesh.disc.parent ≠ some p ∨ u.mesh.disc.installed = false)) ∧
    (∃ (p : Fin 8) (e : _) (s : State) (u : State), u = inboxTake 0x16 s ∧ e = nowEpoch u ∧ u.link p.val = linkActive ∧ u.mstate = 1 ∧
      u.mesh.disc.parent = some p ∧ u.mesh.disc.installed = true) ∧
    (∃ (p : Fin 8) (s : State) (u : State), u = inboxTake 0x17 s ∧ u.link p.val = linkActive ∧ u.mstate ≠ 2) ∧
    (∃ (p : Fin 8) (s : State) (u : State), u = inboxTake 0x17 s ∧ u.link p.val = linkActive ∧ u.mstate = 2 ∧ u.mesh.disc.isRoot = true) ∧
    (∃ (p : Fin 8) (s : State) (u : State), u = inboxTake 0x17 s ∧ u.link p.val = linkActive ∧ u.mstate = 2 ∧ u.mesh.disc.isRoot = false) ∧
    (∃ (p : Fin 8) (s : State) (u : State), u = inboxTake 0x18 s ∧ u.link p.val = linkActive ∧ (u.mstate = 1 ∨ u.mstate = 2 ∧ u.mesh.disc.joinFrom =
      [])) ∧
    (∃ (p : Fin 8) (s : State) (u : State) (q : Fin 8) (rest : List (Fin 8)), u = inboxTake 0x18 s ∧ u.link p.val = linkActive ∧ u.mstate = 2 ∧
      u.mesh.disc.joinFrom = q :: rest) ∧
    (∃ (p : Fin 8) (s : State) (u : State), u = inboxTake 0x18 s ∧ u.link p.val = linkActive ∧ u.mstate ≠ 1 ∧ u.mstate ≠ 2) ∧
    (∃ (p : Fin 8) (s : State) (u : State), u = inboxTake 0x19 s ∧ u.link p.val = linkActive ∧ (u.mstate = 1 ∨ u.mstate = 2 ∧ u.mesh.disc.joinFrom =
      [])) ∧
    (∃ (p : Fin 8) (s : State) (u : State), u = inboxTake 0x19 s ∧ u.link p.val = linkActive ∧ u.mstate ≠ 1 ∧ u.mstate ≠ 2) ∧
    (∃ (s : State), s.mstate ≠ 1) ∧
    (∃ (p : Fin 8) (s : State), s.mstate = 1 ∧ s.mesh.disc.isRoot = true ∧ s.mesh.disc.children.contains p = true ∧ s.link p.val ≠ linkActive) ∧
    (∃ (s : State), s.mstate = 1 ∧ s.mesh.disc.isRoot = false) :=
  ⟨⟨7, live, _, rfl, by decide +kernel⟩,
    ⟨0, ⟨0, 128, false, 0, 0, 2, 0, 0, 0⟩, onPort { heard := true }, _, rfl, by decide +kernel⟩,
    ⟨rqCore, 0x6D1000001, live, ⟨rfl, rfl, by decide +kernel⟩, by decide +kernel⟩,
    ⟨rqCore, 0x6D1000001, meshed 2, ⟨rfl, rfl, by decide +kernel⟩, by decide +kernel⟩,
    ⟨7, live, _, rfl, by decide +kernel⟩,
    ⟨0, 1, meshed 2, _, rfl, by decide +kernel⟩,
    ⟨0, _, meshed 1, _, rfl, rfl, by decide +kernel⟩,
    ⟨0x8000, meshed 1, _, rfl, by decide +kernel⟩,
    ⟨0, _, meshAt 1 { disc := { children := [0] } }, _, rfl, rfl, by decide +kernel⟩,
    ⟨0, _, meshed 1, _, rfl, rfl, by decide +kernel⟩,
    ⟨0, _, meshed 1, _, rfl, rfl, by decide +kernel⟩,
    ⟨0, _, meshAt 1 { disc := { parent := some 0 } }, _, rfl, rfl, by decide +kernel⟩,
    ⟨0, ⟨0, 5, 0, []⟩, meshAt 2 { disc := { lsas := [⟨0, 5, 0, []⟩] } }, _, rfl, by decide +kernel⟩,
    ⟨0, ⟨0, 6, 0, []⟩, meshed 2, _, rfl, by decide +kernel⟩,
    ⟨live, by decide +kernel⟩,
    ⟨meshed 2, by decide +kernel⟩,
    ⟨meshAt 1 { disc := { count := 1, lsas := [⟨0, 5, 0, []⟩] } }, by decide +kernel⟩,
    ⟨7, 0, live, _, rfl, by decide +kernel⟩,
    ⟨0, _, meshed 1, _, rfl, rfl, by decide +kernel⟩,
    ⟨0, meshed 1, _, rfl, by decide +kernel⟩,
    ⟨0, _, meshAt 1 { disc := { parent := some 0, installed := true } }, _, rfl, rfl, by decide +kernel⟩,
    ⟨0, meshed 1, _, rfl, by decide +kernel⟩,
    ⟨0, meshAt 2 { disc := { isRoot := true } }, _, rfl, by decide +kernel⟩,
    ⟨0, meshed 2, _, rfl, by decide +kernel⟩,
    ⟨0, meshed 2, _, rfl, by decide +kernel⟩,
    ⟨0, meshAt 2 { disc := { joinFrom := [3] } }, _, 3, [], rfl, by decide +kernel⟩,
    ⟨0, meshed 0, _, rfl, by decide +kernel⟩,
    ⟨0, meshed 1, _, rfl, by decide +kernel⟩,
    ⟨0, meshed 3, _, rfl, by decide +kernel⟩,
    ⟨live, by decide +kernel⟩,
    ⟨7, meshAt 1 { disc := { isRoot := true, children := [7] } }, by decide +kernel⟩,
    ⟨meshed 1, by decide +kernel⟩⟩

theorem witness_RemoteAccess :
    (∃ (who : Req) (v : Word) (s : State) (c : Instr), Live who s ∧ c ∈ [Instr.rraRead who v, .rraWrite who v] ∧ v.getLsbD 35 = false) ∧
    (∃ (who : Req) (v : Word) (s : State) (c : Instr), Live who s ∧ c ∈ [Instr.rraRead who v, .rraWrite who v] ∧ v.getLsbD 35 = true ∧ s.getB
      Reg.mshRraStatus 7 = true) ∧
    (∃ (who : Req) (v : Word) (s : State) (c : Instr), Live who s ∧ c ∈ [Instr.rraRead who v, .rraWrite who v] ∧ v.getLsbD 35 = true ∧ s.getB
      Reg.mshRraStatus 7 = false ∧ s.mstate ≠ 2) ∧
    (∃ (who : Req) (v : Word) (s : State) (c : Instr), Live who s ∧ c ∈ [Instr.rraRead who v, .rraWrite who v] ∧ v.getLsbD 35 = true ∧ s.getB
      Reg.mshRraStatus 7 = false ∧ s.mstate = 2 ∧ s.getF (Reg.mshNht (s.getF Reg.mshRraNode 9 0)) 35 34 = 0) ∧
    (∃ (who : Req) (v : Word) (s : State) (c : Instr), Live who s ∧ c ∈ [Instr.rraRead who v, .rraWrite who v] ∧ v.getLsbD 35 = true ∧ s.getB
      Reg.mshRraStatus 7 = false ∧ s.mstate = 2 ∧ s.getF (Reg.mshNht (s.getF Reg.mshRraNode 9 0)) 35 34 = 2) ∧
    (∃ (s : State) (u : State), u = inboxTake 2 s ∧ u.getB Reg.mshRraStatus 7 = false) ∧
    (∃ (result : BitVec 4) (s : State) (u : State), u = inboxTake 2 s ∧ u.getB Reg.mshRraStatus 7 = true ∧ result.toNat < 8) ∧
    (∃ (s : State) (u : State), u = inboxTake 1 s ∧ served u rqMesh = false) ∧
    (∃ (s : State) (u : State), u = inboxTake 1 s ∧ served u rqMesh = true ∧ u.getB Reg.mshRraCfg 0 = false) ∧
    (∃ (wr : Bool) (a : Addr) (s : State) (u : State), u = inboxTake 1 s ∧ served u rqMesh = true ∧ rraReason wr a.toNat u = 0) ∧
    (∃ (s : State) (u : State), u = inboxTake 3 s ∧ engOn u = false) ∧
    (∃ (s : State) (u : State), u = inboxTake 3 s ∧ engOn u = true ∧ (rqCredits u rqMeshNo = 0 ∨ u.eng.waitQ ≠ [])) ∧
    (∃ (s : State) (u : State), u = inboxTake 3 s ∧ engOn u = true ∧ rqCredits u rqMeshNo ≠ 0 ∧ u.eng.waitQ = []) ∧
    (∃ (sreq : BitVec 4) (stag : BitVec 6) (rsp : Quad) (s : State) (u : State), u = inboxTake 4 s ∧ u.eng.late.contains (sreq.toNat, stag.toNat, fld
      rsp.w1 25 16) = true) ∧
    (∃ (sreq : BitVec 4) (stag : BitVec 6) (rsp : Quad) (s : State) (u : State) (o : Op), u = inboxTake 4 s ∧ u.eng.late.contains (sreq.toNat,
      stag.toNat, fld rsp.w1 25 16) = false ∧ u.eng.slots.find? (fun o => decide (o.phase = .remote) && o.rq.val == sreq.toNat && reqTag o.req ==
      stag.toNat) = some o) ∧
    (∃ (sreq : BitVec 4) (stag : BitVec 6) (rsp : Quad) (s : State) (u : State), u = inboxTake 4 s ∧ u.eng.late.contains (sreq.toNat, stag.toNat, fld
      rsp.w1 25 16) = false ∧ u.eng.slots.find? (fun o => decide (o.phase = .remote) && o.rq.val == sreq.toNat && reqTag o.req == stag.toNat) = none) :=
  ⟨⟨rqCore, 0, live, .rraRead rqCore 0, ⟨rfl, rfl, by decide +kernel⟩, by simp, by decide +kernel⟩,
    ⟨rqCore, 0x800000000, live.setReg Reg.mshRraStatus 0x80, .rraWrite rqCore 0x800000000, ⟨rfl, rfl, by decide +kernel⟩, by simp, by decide +kernel⟩,
    ⟨rqCore, 0x800000000, live, .rraWrite rqCore 0x800000000, ⟨rfl, rfl, by decide +kernel⟩, by simp, by decide +kernel⟩,
    ⟨rqCore, 0x800000000, meshed 2, .rraRead rqCore 0x800000000, ⟨rfl, rfl, by decide +kernel⟩, by simp, by decide +kernel⟩,
    ⟨rqCore, 0x800000000, (meshed 2).setReg (Reg.mshNht 0) 0x800000000, .rraRead rqCore 0x800000000, ⟨rfl, rfl, by decide +kernel⟩, by simp,
      by decide +kernel⟩,
    ⟨live, _, rfl, by decide +kernel⟩,
    ⟨7, live.setReg Reg.mshRraStatus 0x80, _, rfl, by decide +kernel⟩,
    ⟨inMode .failsafe, _, rfl, by decide +kernel⟩,
    ⟨live, _, rfl, by decide +kernel⟩,
    ⟨false, 0, live.setReg Reg.mshRraCfg 1, _, rfl, by decide +kernel⟩,
    ⟨live, _, rfl, by decide +kernel⟩,
    ⟨engined {}, _, rfl, by decide +kernel⟩,
    ⟨engined { held := [(8, 1)] }, _, rfl, by decide +kernel⟩,
    ⟨9, 0, ⟨0, 0, 0, 0⟩, engined { late := [(9, 0, 0)] }, _, rfl, by decide +kernel⟩,
    ⟨9, 0, ⟨0, 0, 0, 0⟩, oneOp { opOf 0x100000001 with phase := .remote }, _, { opOf 0x100000001 with phase := .remote }, rfl, by decide +kernel⟩,
    ⟨9, 0, ⟨0, 0, 0, 0⟩, live, _, rfl, by decide +kernel⟩⟩

theorem witness_MeshServices :
    (∃ (who : Req) (v : Word) (s : State) (c : Instr), Live who s ∧ c ∈ [Instr.imagePush who v, .imagePushAbort who v] ∧ v.getLsbD 34 = false ∧
      v.getLsbD 35 = false) ∧
    (∃ (who : Req) (v : Word) (s : State) (c : Instr), Live who s ∧ c ∈ [Instr.imagePush who v, .imagePushAbort who v] ∧ v.getLsbD 34 = false ∧
      v.getLsbD 35 = true ∧ pushRuns s = true) ∧
    (∃ (who : Req) (v : Word) (s : State) (c : Instr), Live who s ∧ c ∈ [Instr.imagePush who v, .imagePushAbort who v] ∧ v.getLsbD 34 = false ∧
      v.getLsbD 35 = true ∧ pushRuns s = false) ∧
    (∃ (who : Req) (v : Word) (s : State) (c : Instr), Live who s ∧ c ∈ [Instr.imagePush who v, .imagePushAbort who v] ∧ v.getLsbD 34 = true ∧
      v.getLsbD 35 = false ∧ pushRuns s = true) ∧
    (∃ (who : Req) (v : Word) (s : State) (c : Instr), Live who s ∧ c ∈ [Instr.imagePush who v, .imagePushAbort who v] ∧ v.getLsbD 34 = true ∧
      v.getLsbD 35 = false ∧ pushRuns s = false) ∧
    (∃ (who : Req) (v : Word) (s : State) (c : Instr), Live who s ∧ c ∈ [Instr.imagePush who v, .imagePushAbort who v] ∧ v.getLsbD 34 = true ∧
      v.getLsbD 35 = true ∧ pushRuns s = true) ∧
    (∃ (who : Req) (v : Word) (s : State) (c : Instr), Live who s ∧ c ∈ [Instr.imagePush who v, .imagePushAbort who v] ∧ v.getLsbD 34 = true ∧
      v.getLsbD 35 = true ∧ pushRuns s = false) ∧
    (∃ (s : State) (u : State), u = inboxTake 6 s ∧ pushRuns u = true) ∧
    (∃ (s : State) (u : State), u = inboxTake 6 s ∧ pushRuns u = false) ∧
    (∃ (s : State) (u : State), u = inboxTake 7 s ∧ pushRuns u = true) ∧
    (∃ (s : State) (u : State), u = inboxTake 7 s ∧ pushRuns u = false) ∧
    (∃ (s : State) (u : State), u = inboxTake 8 s) ∧
    (∃ (abort : Bool) (s : State) (u : State), u = inboxTake 5 s ∧ u.ld.st = .idle ∧ abort = true) ∧
    (∃ (src : BitVec 10) (abort : Bool) (s : State) (u : State), u = inboxTake 5 s ∧ u.ld.st ≠ .idle ∧ u.ld.src = 3 ∧ u.mesh.pushFrom = src ∧ abort =
      true) ∧
    (∃ (src : BitVec 10) (first : Bool) (abort : Bool) (s : State) (u : State), u = inboxTake 5 s ∧ u.ld.st ≠ .idle ∧ u.ld.src = 3 ∧ u.mesh.pushFrom =
      src ∧ abort = false ∧ first = false) ∧
    (∃ (first : Bool) (abort : Bool) (s : State) (u : State), u = inboxTake 5 s ∧ u.ld.st ≠ .idle ∧ abort = false ∧ first = true) ∧
    (∃ (abort : Bool) (s : State) (u : State), u = inboxTake 5 s ∧ u.ld.st = .idle ∧ srcEnabled u 3 = true ∧ abort = false) ∧
    (∃ (k : Fin 8) (s : State), (portLive s 2 k.val = false ∨ s.mstate ≠ 2 ∨ 2048 < stTxWords k.val s + 4)) ∧
    (∃ (k : Fin 8) (s : State), ((s.stx k.val).rx = [] ∨ portClocked s 2 k.val = false)) ∧
    (∃ (k : Fin 8) (last : Bool) (s : State), portLive s 2 k.val = true ∧ s.mstate = 2 ∧ stTxWords k.val s + 4 ≤ 2048 ∧ last = false ∧ (s.stx
      k.val).tx.length < 14) ∧
    (∃ (k : Fin 8) (last : Bool) (s : State), portLive s 2 k.val = true ∧ s.mstate = 2 ∧ stTxWords k.val s + 4 ≤ 2048 ∧ (last = true ∨ 14 ≤ (s.stx
      k.val).tx.length)) ∧
    (∃ (k : Fin 8) (s : State) (x : Quad × BitVec 13 × Bool × Bool) (rest : List (Quad × BitVec 13 × Bool × Bool)), portClocked s 2 k.val = true ∧
      (s.stx k.val).rx = x :: rest) ∧
    (∃ (k : BitVec 3) (ts : List Quad) (s : State) (t : St), t = s.stx k.toNat ∧ (∀ n, hostOf s 2 k.toNat = some n → s.getB (Reg.rgnStatus n) 0 =
      false ∧ s.getB (Reg.rgnStatus n) 4 = false) ∧ hostOf s 2 k.toNat ≠ none ∧ 512 < t.rx.length + ts.length) ∧
    (∃ (k : BitVec 3) (ts : List Quad) (s : State) (t : St), t = s.stx k.toNat ∧ (∀ n, hostOf s 2 k.toNat = some n → s.getB (Reg.rgnStatus n) 0 =
      false ∧ s.getB (Reg.rgnStatus n) 4 = false) ∧ hostOf s 2 k.toNat ≠ none ∧ t.rx.length + ts.length ≤ 512) ∧
    (∃ (k : BitVec 3) (s : State) (t : St), t = s.stx k.toNat ∧ hostOf s 2 k.toNat = none) ∧
    (∃ (s : State), (s.mstate ≠ 2 ∨ isRef s = true)) ∧
    (∃ (s : State), s.mstate = 2 ∧ isRef s = false) ∧
    (∃ (s : State) (u : State), u = inboxTake 0x0A s ∧ (u.mstate ≠ 2 ∨ isRef u = true)) ∧
    (∃ (t2 : _) (t3 : _) (t4 : _) (s : State) (u : State), u = inboxTake 0x0A s ∧ u.mstate = 2 ∧ isRef u = false ∧ u.mesh.firstEx = true ∧ 256000 <
      (timeOffset u t2 t3 t4).natAbs) ∧
    (∃ (who : Req) (s : State), Live who s ∧ isRef s = true) ∧
    (∃ (who : Req) (s : State), Live who s ∧ isRef s = false) ∧
    (∃ (who : Req) (s : State), Live who s ∧ (∀ p : Fin 8, s.fn (.mesh p) = fnOff)) ∧
    (∃ (who : Req) (s : State), Live who s ∧ (∃ p : Fin 8, s.fn (.mesh p) ≠ fnOff)) :=
  ⟨⟨rqCore, 0, live, .imagePush rqCore 0, ⟨rfl, rfl, by decide +kernel⟩, by simp, by decide +kernel⟩,
    ⟨rqCore, 0x800000000, live.setReg Reg.mshPushStatus 0x200000, .imagePush rqCore 0x800000000, ⟨rfl, rfl, by decide +kernel⟩, by simp,
      by decide +kernel⟩,
    ⟨rqCore, 0x800000000, live, .imagePush rqCore 0x800000000, ⟨rfl, rfl, by decide +kernel⟩, by simp, by decide +kernel⟩,
    ⟨rqCore, 0x400000000, live.setReg Reg.mshPushStatus 0x400000, .imagePushAbort rqCore 0x400000000, ⟨rfl, rfl, by decide +kernel⟩, by simp,
      by decide +kernel⟩,
    ⟨rqCore, 0x400000000, live, .imagePushAbort rqCore 0x400000000, ⟨rfl, rfl, by decide +kernel⟩, by simp, by decide +kernel⟩,
    ⟨rqCore, 0xC00000000, live.setReg Reg.mshPushStatus 0x200000, .imagePush rqCore 0xC00000000, ⟨rfl, rfl, by decide +kernel⟩, by simp,
      by decide +kernel⟩,
    ⟨rqCore, 0xC00000000, live, .imagePush rqCore 0xC00000000, ⟨rfl, rfl, by decide +kernel⟩, by simp, by decide +kernel⟩,
    ⟨live.setReg Reg.mshPushStatus 0x200000, _, rfl, by decide +kernel⟩,
    ⟨live, _, rfl, by decide +kernel⟩,
    ⟨live.setReg Reg.mshPushStatus 0x400000, _, rfl, by decide +kernel⟩,
    ⟨live, _, rfl, by decide +kernel⟩,
    ⟨live, _, rfl⟩,
    ⟨true, live, _, rfl, by decide +kernel⟩,
    ⟨9, true, { live with ld := { st := .body, src := 3 }, mesh := { pushFrom := 9 } }, _, rfl, by decide +kernel⟩,
    ⟨9, false, false, { live with ld := { st := .body, src := 3 }, mesh := { pushFrom := 9 } }, _, rfl, by decide +kernel⟩,
    ⟨true, false, loading { st := .body, src := 4 }, _, rfl, by decide +kernel⟩,
    ⟨false, live.setReg Reg.cfgSrcEn 7, _, rfl, by decide +kernel⟩,
    ⟨0, (streaming {}).setRg 0 { gated := true }, by decide +kernel⟩,
    ⟨0, live, by decide +kernel⟩,
    ⟨0, false, streaming { tx := List.replicate 13 ⟨0, 0, 0, 0⟩ }, by decide +kernel⟩,
    ⟨0, true, streaming {}, by decide +kernel⟩,
    ⟨0, streaming { rx := [(⟨0, 0, 0, 0⟩, 0, false, false)] }, (⟨0, 0, 0, 0⟩, 0, false, false), [], by decide +kernel⟩,
    ⟨0, [⟨0, 0, 0, 0⟩], streaming { rx := List.replicate 512 (⟨0, 0, 0, 0⟩, 0, false, false) }, _, rfl, (fun n h => Option.some.inj h ▸
      (by decide +kernel)), by decide +kernel⟩,
    ⟨0, [⟨0, 0, 0, 0⟩], streaming { rx := List.replicate 511 (⟨0, 0, 0, 0⟩, 0, false, false) }, _, rfl, (fun n h => Option.some.inj h ▸
      (by decide +kernel)), by decide +kernel⟩,
    ⟨0, live, _, rfl, by decide +kernel⟩,
    ⟨live, by decide +kernel⟩,
    ⟨meshed 2, by decide +kernel⟩,
    ⟨live, _, rfl, by decide +kernel⟩,
    ⟨0x1000000, 0, 0, meshed 2, _, rfl, by decide +kernel⟩,
    ⟨rqCore, (meshed 2).setReg Reg.mshTimeStatus 0x200000000, ⟨rfl, rfl, by decide +kernel⟩, by decide +kernel⟩,
    ⟨rqCore, live, ⟨rfl, rfl, by decide +kernel⟩, by decide +kernel⟩,
    ⟨rqCore, live, ⟨rfl, rfl, by decide +kernel⟩, by decide +kernel⟩,
    ⟨rqCore, fnAt live (.mesh 7) fnOn, ⟨rfl, rfl, by decide +kernel⟩, ⟨7, by decide +kernel⟩⟩⟩

theorem witness_CoreTraps :
    (∃ (i : Bool) (cause : BitVec 31) (s : State), coreUp s = true ∧ (¬ (i = false ∧ accessFault cause.toNat = true ∧ inFault s = true))) ∧
    (∃ (s : State), coreUp s = false) ∧
    (∃ (m : BitVec 4) (s : State), coreUp s = true ∧ inFault s = true ∧ accessFault m.toNat = true ∧ attached s = true) ∧
    (∃ (m : BitVec 4) (s : State), coreUp s = true ∧ inFault s = true ∧ accessFault m.toNat = true ∧ attached s = false ∧ s.boot.nrstLow = false) ∧
    (∃ (s : State), coreRuns s = true ∧ attached s = true) ∧
    (∃ (s : State), coreRuns s = true ∧ attached s = false) ∧
    (∃ (m : BitVec 4) (s : State), (inFault s = false ∨ accessFault m.toNat = false)) ∧
    (∃ (s : State), coreUp s = true ∧ (meip s = false ∨ (s.csr csrMie).getLsbD 11 = false)) ∧
    (∃ (s : State), coreUp s = true ∧ meip s = true ∧ (s.csr csrMie).getLsbD 11 = true ∧ (s.csr csrMstatus).getLsbD 3 = false) ∧
    (∃ (s : State), coreUp s = true ∧ meip s = true ∧ (s.csr csrMie).getLsbD 11 = true ∧ (s.csr csrMstatus).getLsbD 3 = true) :=
  ⟨⟨false, 2, coreLive, by decide +kernel⟩,
    ⟨live, by decide +kernel⟩,
    ⟨5, debugged (coreLive.setReg Reg.flcXipStatus 0x800000000), by decide +kernel⟩,
    ⟨7, { coreLive.setReg Reg.flcXipStatus 0x800000000 with dbg := { level := some 2 } }, by decide +kernel⟩,
    ⟨debugged coreLive, by decide +kernel⟩,
    ⟨{ coreLive with dbg := { level := some 0 } }, by decide +kernel⟩,
    ⟨2, live, by decide +kernel⟩,
    ⟨coreLive, by decide +kernel⟩,
    ⟨({ coreLive with core := { running := true, csr := [(0x304, 0x800)] } } |> fun s => ((s.setReg (Reg.scrIrqEn 0) 2).setReg (Reg.scrIrqPrio 1)
      7).setReg (Reg.scrIrqPend 0) 2), by decide +kernel⟩,
    ⟨({ coreLive with core := { running := true, csr := [(0x300, 8), (0x304, 0x800)] } } |> fun s => ((s.setReg (Reg.scrIrqEn 0) 2).setReg
      (Reg.scrIrqPrio 1) 7).setReg (Reg.scrIrqPend 0) 2), by decide +kernel⟩⟩

theorem witness_CoreAccesses :
    (∃ (addr : BitVec 32) (wid : Width) (f : Bool) (d : BitVec 32) (op : AmoOp) (s : State) (c : Instr), c ∈ [Instr.scratchpadLoad addr wid f,
      .scratchpadStore addr wid d, .scratchpadBitSet addr d, .scratchpadBitClear addr d, .lr addr, .sc addr d, .amo op addr d, .nibbleWrite addr d,
      .nibbleRead addr, .coreRegisterRead addr wid, .coreRegisterWrite addr wid d] ∧ coreRuns s = false) ∧
    (∃ (addr : BitVec 32) (d : BitVec 32) (op : AmoOp) (s : State) (c : Instr), c ∈ [Instr.sc addr d, .amo op addr d, .scratchpadBitSet addr d,
      .scratchpadBitClear addr d, .nibbleWrite addr d] ∧ coreRuns s = true ∧ aligned addr .word = false) ∧
    (∃ (addr : BitVec 32) (wid : Width) (s : State), coreRuns s = true ∧ aligned addr wid = true ∧ scrRange addr = none) ∧
    (∃ (addr : BitVec 32) (d : BitVec 32) (op : AmoOp) (s : State) (c : Instr), c ∈ [Instr.lr addr, .sc addr d, .amo op addr d] ∧ coreRuns s = true ∧
      aligned addr .word = true ∧ scrRange addr ≠ some 0) ∧
    (∃ (addr : BitVec 32) (wid : Width) (x : Word) (s : State), coreRuns s = true ∧ WordAt s rqCore (scrOff addr) false x ∧ aligned addr wid = true ∧
      scrRange addr = some 0) ∧
    (∃ (addr : BitVec 32) (wid : Width) (x : Word) (s : State), coreRuns s = true ∧ WordAt s rqCore (scrOff addr) false x ∧ aligned addr wid = true ∧
      scrRange addr = some 1) ∧
    (∃ (addr : BitVec 32) (x : Word) (s : State), coreRuns s = true ∧ WordAt s rqCore (scrOff addr) false x ∧ scrRange addr = some 0 ∧ fld x 35 32 ≠
      0) ∧
    (∃ (addr : BitVec 32) (x : Word) (s : State), coreRuns s = true ∧ WordAt s rqCore (scrOff addr) false x ∧ scrRange addr = some 0 ∧ fld x 35 32 =
      0) ∧
    (∃ (addr : BitVec 32) (x : Word) (s : State), coreRuns s = true ∧ WordAt s rqCore (scrOff addr) false x ∧ aligned addr .word = true ∧ scrRange
      addr = some 0) ∧
    (∃ (addr : BitVec 32) (wid : Width) (x : Word) (s : State), coreRuns s = true ∧ WordAt s rqCore (scrOff addr) true x ∧ aligned addr wid = true ∧
      scrRange addr = some 0) ∧
    (∃ (addr : BitVec 32) (wid : Width) (x : Word) (s : State), coreRuns s = true ∧ WordAt s rqCore (scrOff addr) true x ∧ aligned addr wid = true ∧
      scrRange addr = some 1 ∧ addr.toNat % 4 = 0) ∧
    (∃ (addr : BitVec 32) (x : Word) (s : State), coreRuns s = true ∧ WordAt s rqCore (scrOff addr) true x ∧ aligned addr .word = true ∧ scrRange addr
      = some 2) ∧
    (∃ (addr : BitVec 32) (x : Word) (s : State), coreRuns s = true ∧ WordAt s rqCore (scrOff addr) true x ∧ aligned addr .word = true ∧ scrRange addr
      = some 3) ∧
    (∃ (addr : BitVec 32) (x : Word) (s : State), coreRuns s = true ∧ WordAt s rqCore (scrOff addr) true x ∧ aligned addr .word = true ∧ scrRange addr
      = some 0 ∧ s.core.resv.map Fin.val = some (scrOff addr)) ∧
    (∃ (addr : BitVec 32) (x : Word) (s : State), coreRuns s = true ∧ WordAt s rqCore (scrOff addr) true x ∧ aligned addr .word = true ∧ scrRange addr
      = some 0 ∧ s.core.resv.map Fin.val ≠ some (scrOff addr)) ∧
    (∃ (addr : BitVec 32) (s : State), coreRuns s = true ∧ aligned addr .word = true ∧ nibbleRange addr = true ∧ s.core.latchValid = true ∧
      s.core.latchAddr.toNat = coreReg addr) ∧
    (∃ (addr : BitVec 32) (s : State), coreRuns s = true ∧ aligned addr .word = true ∧ nibbleRange addr = true ∧ s.core.latchValid = false) ∧
    (∃ (addr : BitVec 32) (s : State), coreRuns s = true ∧ aligned addr .word = true ∧ nibbleRange addr = false) ∧
    (∃ (addr : BitVec 32) (d : BitVec 32) (s : State) (u : State), u = regWrite rqCore (coreReg addr) (wd (s.core.staging.toNat <<< 32 ||| d.toNat)) s
      ∧ coreRuns s = true ∧ aligned addr .word = true ∧ regRange addr = true ∧ u.resp.err = false) ∧
    (∃ (addr : BitVec 32) (d : BitVec 32) (s : State) (u : State), u = regWrite rqCore (coreReg addr) (wd (s.core.staging.toNat <<< 32 ||| d.toNat)) s
      ∧ coreRuns s = true ∧ aligned addr .word = true ∧ regRange addr = true ∧ u.resp.err = true) ∧
    (∃ (addr : BitVec 32) (s : State), coreRuns s = true ∧ aligned addr .word = true ∧ nibbleRange addr = true ∧ s.core.latchAddr.toNat ≠ coreReg
      addr) ∧
    (∃ (addr : BitVec 32) (wid : Width) (s : State), coreRuns s = true ∧ regRange addr = true ∧ aligned addr wid = true) ∧
    (∃ (addr : BitVec 32) (wid : Width) (s : State), coreRuns s = true ∧ regRange addr = true ∧ aligned addr wid = false) ∧
    (∃ (addr : BitVec 32) (s : State), coreRuns s = true ∧ regRange addr = false) ∧
    (∃ (addr : BitVec 32) (wid : Width) (s : State), coreRuns s = true ∧ (regRange addr = false ∨ wid ≠ .word)) ∧
    (∃ (addr : BitVec 32) (s : State), coreRuns s = true ∧ aligned addr .word = false ∧ regRange addr = true) ∧
    (∃ (addr : BitVec 32) (s : State), coreRuns s = true ∧ aligned addr .word = false ∧ nibbleRange addr = true) :=
  ⟨⟨0x10000000, .word, false, 0, .swap, live, .sc 0x10000000 0, by simp, by decide +kernel⟩,
    ⟨0x10000002, 0, .swap, coreLive, .sc 0x10000002 0, by simp, by decide +kernel⟩,
    ⟨0x10800000, .word, coreLive, by decide +kernel⟩,
    ⟨0x18000000, 0, .swap, coreLive, .lr 0x18000000, by simp, by decide +kernel⟩,
    ⟨0x107FFFFF, .byte, 0, coreLive, by decide +kernel⟩,
    ⟨0x18000000, .word, 0, coreLive, by decide +kernel⟩,
    ⟨0x10000000, 0x100000000, { coreLive with scr := { mem := [(0, some { data := 0x100000000 })] } }, by decide +kernel⟩,
    ⟨0x10000000, 1, { coreLive with scr := { mem := [(0, some { data := 1 })] } }, by decide +kernel⟩,
    ⟨0x10000000, 0, coreLive, by decide +kernel⟩,
    ⟨0x10000003, .byte, 0, coreLive, by decide +kernel⟩,
    ⟨0x18000004, .byte, 0, coreLive, by decide +kernel⟩,
    ⟨0x607FFFFC, 0, coreLive, by decide +kernel⟩,
    ⟨0x70000000, 0, coreLive, by decide +kernel⟩,
    ⟨0x10000000, 0, { coreLive with core := { running := true, resv := some 0 } }, by decide +kernel⟩,
    ⟨0x10000000, 0, { coreLive with core := { running := true, resv := some 1 } }, by decide +kernel⟩,
    ⟨0x50000040, { coreLive with core := { running := true, latchValid := true, latchAddr := 0x10 } }, by decide +kernel⟩,
    ⟨0x53FFFFFC, coreLive, by decide +kernel⟩,
    ⟨0x54000000, coreLive, by decide +kernel⟩,
    ⟨0x400C0200, 7, coreLive, _, rfl, by decide +kernel⟩,
    ⟨0x400C080C, 7, coreLive.setReg (Reg.scrSerClaim 0) 2, _, rfl, by decide +kernel⟩,
    ⟨0x53FFFFFC, coreLive, by decide +kernel⟩,
    ⟨0x43FFFFFC, .word, coreLive, by decide +kernel⟩,
    ⟨0x40000001, .half, coreLive, by decide +kernel⟩,
    ⟨0x44000000, coreLive, by decide +kernel⟩,
    ⟨0x44000000, .byte, coreLive, by decide +kernel⟩,
    ⟨0x43FFFFFD, coreLive, by decide +kernel⟩,
    ⟨0x53FFFFFE, coreLive, by decide +kernel⟩⟩

theorem witness_Scratchpad :
    (∃ (who : Req) (off : Fin 2097152) (x : Word) (s : State) (c : Req → Fin 2097152 → Option Word → Instr), Live who s ∧ (c = (fun w o x =>
      Instr.scratchpadAccess w o ⟨x, [], 0⟩) ∨ c = Instr.beaterYield ∨ c = Instr.beaterAbortOnAccess) ∧ WordAt s who off.val false x) ∧
    (∃ (who : Req) (off : Fin 2097152) (x : Word) (s : State) (c : Req → Fin 2097152 → Option Word → Instr), Live who s ∧ (c = (fun w o x =>
      Instr.scratchpadAccess w o ⟨x, [], 0⟩) ∨ c = Instr.beaterYield ∨ c = Instr.beaterAbortOnAccess) ∧ bankServes s who off.val true = 0 ∧
      s.scr.beater.running = false) ∧
    (∃ (who : Req) (off : Fin 2097152) (x : Word) (s : State) (c : Req → Fin 2097152 → Option Word → Instr), Live who s ∧ (c = (fun w o x =>
      Instr.scratchpadAccess w o ⟨x, [], 0⟩) ∨ c = Instr.beaterYield ∨ c = Instr.beaterAbortOnAccess) ∧ bankServes s who off.val false = 1) ∧
    (∃ (who : Req) (off : Fin 2097152) (x : Word) (s : State) (c : Req → Fin 2097152 → Option Word → Instr), Live who s ∧ (c = (fun w o x =>
      Instr.scratchpadAccess w o ⟨x, [], 0⟩) ∨ c = Instr.beaterYield ∨ c = Instr.beaterAbortOnAccess) ∧ bankServes s who off.val true = 2 ∧ s.getB
      Reg.scrBeaterXcfg 0 = false) ∧
    (∃ (who : Req) (off : Fin 2097152) (x : Word) (s : State) (c : Req → Fin 2097152 → Option Word → Instr) (u : State), Live who s ∧ (c = (fun w o x
      => Instr.scratchpadAccess w o ⟨x, [], 0⟩) ∨ c = Instr.beaterYield ∨ c = Instr.beaterAbortOnAccess) ∧ u = beaterDropBank who (scrBank off.val)
      (begin who s) ∧ bankServes s who off.val true = 2 ∧ s.getB Reg.scrBeaterXcfg 0 = true ∧ bankServes u who off.val true = 0) ∧
    (∃ (who : Req) (off : Fin 2097152) (x : Word) (s : State) (c : Req → Fin 2097152 → Option Word → Instr) (y : Word), Live who s ∧ (c = (fun w o x
      => Instr.scratchpadAccess w o ⟨x, [], 0⟩) ∨ c = Instr.beaterYield ∨ c = Instr.beaterAbortOnAccess) ∧ bankServes s who off.val false = 0 ∧
      s.scr.beater.running = true ∧ s.scr.beater.destruct = false ∧ s.scr.beater.active.getLsbD (scrBank off.val) = true ∧ (scrCell s off.val).chk =
      .good y) ∧
    (∃ (who : Req) (off : Fin 2097152) (x : Word) (s : State) (f : Nat → Word), Live who s ∧ (∀ j, off.val < j → j / 4 = off.val / 4 → (scrCell s
      j).chk = .good (f j)) ∧ WordAt s who off.val false x) ∧
    (∃ (who : Req) (s : State) (m : Nat) (waits : Nat), Live who s ∧ conflictIx who = some m ∧ 0 < waits) ∧
    (∃ (who : Req) (b : Fin 16) (v : Word) (s : State), Live who s ∧ bankOwner s b.val = who.toNat ∧ who ≠ 0 ∧ (fld v 7 0 = 0 ∨ knownReq (fld v 7 0) =
      true) ∧ fld v 7 0 ≠ who.toNat) ∧
    (∃ (who : Req) (b : Fin 16) (s : State), Live who s ∧ bankMine s b.val who = true) ∧
    (∃ (who : Req) (b : Fin 16) (s : State), Live who s ∧ bankMine s b.val who = false) ∧
    (∃ (who : Req) (s : State), Live who s ∧ irqBest s = 0) ∧
    (∃ (who : Req) (s : State) (peek : _), Live who s ∧ peeks who peek = true) ∧
    (∃ (who : Req) (s : State) (peek : _), Live who s ∧ peeks who peek = false ∧ irqBest s ≠ 0) :=
  ⟨⟨rqCore, 0, 0, coreLive, Instr.beaterYield, ⟨rfl, rfl, by decide +kernel⟩, Or.inr (Or.inl rfl), by decide +kernel⟩,
    ⟨rqCore, 0, 0, coreLive, fun w o x => Instr.scratchpadAccess w o ⟨x, [], 0⟩, ⟨rfl, rfl, by decide +kernel⟩, Or.inl rfl, by decide +kernel⟩,
    ⟨rqI3c, 0, 0, { coreLive.setReg (Reg.scrBankClaim 0) 1 with dbg := { level := some 0 } }, Instr.beaterYield, ⟨rfl, rfl, by decide +kernel⟩, Or.inr
      (Or.inl rfl), by decide +kernel⟩,
    ⟨rqCore, 0, 0, beating { running := true, destruct := true, banks := 1, active := 1 }, Instr.beaterAbortOnAccess, ⟨rfl, rfl, by decide +kernel⟩,
      Or.inr (Or.inr rfl), by decide +kernel⟩,
    ⟨rqCore, 0, 0, (beating { running := true, destruct := true, banks := 1, active := 1 }).setReg Reg.scrBeaterXcfg 1, Instr.beaterAbortOnAccess, _,
      ⟨rfl, rfl, by decide +kernel⟩, Or.inr (Or.inr rfl), rfl, by decide +kernel⟩,
    ⟨rqCore, 0, 0, beating { running := true, banks := 1, active := 1 }, Instr.beaterYield, 0, ⟨rfl, rfl, by decide +kernel⟩, Or.inr (Or.inl rfl),
      by decide +kernel⟩,
    ⟨rqCore, 0, 0, coreLive, fun _ => 0, ⟨rfl, rfl, by decide +kernel⟩, coreLive_row, by decide +kernel⟩,
    ⟨rqCore, live, 0, 1, ⟨rfl, rfl, by decide +kernel⟩, by decide +kernel⟩,
    ⟨rqCore, 15, 0x7F, live.setReg (Reg.scrBankClaim 15) 1, ⟨rfl, rfl, by decide +kernel⟩, by decide +kernel⟩,
    ⟨rqCore, 15, live, ⟨rfl, rfl, by decide +kernel⟩, by decide +kernel⟩,
    ⟨rqI3c, 0, live.setReg (Reg.scrBankClaim 0) 1, ⟨rfl, rfl, by decide +kernel⟩, by decide +kernel⟩,
    ⟨rqCore, live, ⟨rfl, rfl, by decide +kernel⟩, by decide +kernel⟩,
    ⟨rqCore, live, true, ⟨rfl, rfl, by decide +kernel⟩, by decide +kernel⟩,
    ⟨rqCore, ((live.setReg (Reg.scrIrqEn 0) 2).setReg (Reg.scrIrqPrio 1) 7).setReg (Reg.scrIrqPend 0) 2, false, ⟨rfl, rfl, by decide +kernel⟩,
      by decide +kernel⟩⟩

theorem witness_BeaterRuns :
    (∃ (who : Req) (v : Word) (s : State) (u : State), Live who s ∧ u = (begin who s).setReg Reg.scrBeaterCtrl (wd ((v ||| 1).toNat &&& 0xFFFF0703 |||
      ((s.reg Reg.scrBeaterCtrl).toNat &&& 0xF0))) ∧ s.fn .beater ≠ fnOff) ∧
    (∃ (who : Req) (v : Word) (s : State) (u : State) (banks : _) (d : _), Live who s ∧ u = (begin who s).setReg Reg.scrBeaterCtrl (wd ((v |||
      1).toNat &&& 0xFFFF0703 ||| ((s.reg Reg.scrBeaterCtrl).toNat &&& 0xF0))) ∧ banks = BitVec.ofNat 16 (u.getF Reg.scrBeaterCtrl 31 16) ∧ d = u.getB
      Reg.scrBeaterCtrl 9 ∧ s.fn .beater = fnOff ∧ beaterReason u banks d = 0) ∧
    (∃ (who : Req) (v : Word) (s : State) (u : State) (banks : _) (d : _), Live who s ∧ u = (begin who s).setReg Reg.scrBeaterCtrl (wd ((v |||
      1).toNat &&& 0xFFFF0703 ||| ((s.reg Reg.scrBeaterCtrl).toNat &&& 0xF0))) ∧ banks = BitVec.ofNat 16 (u.getF Reg.scrBeaterCtrl 31 16) ∧ d = u.getB
      Reg.scrBeaterCtrl 9 ∧ s.fn .beater = fnOff ∧ beaterReason u banks d ≠ 0) ∧
    (∃ (who : Req) (v : Word) (s : State) (u : State), Live who s ∧ u = (begin who s).setReg Reg.scrBeaterCtrl (wd ((v &&& ~~~(1 : Word)).toNat &&&
      0xFFFF0703 ||| ((s.reg Reg.scrBeaterCtrl).toNat &&& 0xF0))) ∧ s.scr.beater.running = false ∧ s.fn .beater ≠ fnStarting) ∧
    (∃ (who : Req) (v : Word) (s : State) (u : State), Live who s ∧ u = (begin who s).setReg Reg.scrBeaterCtrl (wd ((v &&& ~~~(1 : Word)).toNat &&&
      0xFFFF0703 ||| ((s.reg Reg.scrBeaterCtrl).toNat &&& 0xF0))) ∧ s.fn .beater = fnStarting) ∧
    (∃ (who : Req) (v : Word) (s : State) (u : State), Live who s ∧ u = (begin who s).setReg Reg.scrBeaterCtrl (wd ((v &&& ~~~(1 : Word)).toNat &&&
      0xFFFF0703 ||| ((s.reg Reg.scrBeaterCtrl).toNat &&& 0xF0))) ∧ s.scr.beater.running = true ∧ s.fn .beater ≠ fnStarting) ∧
    (∃ (s : State), (s.scr.beater.running = false ∨ s.fn .beater ≠ fnOn ∨ rootStopped s = true)) ∧
    (∃ (s : State), s.scr.beater.running = true ∧ s.fn .beater = fnOn ∧ rootStopped s = false ∧ s.scr.beater.fromSvc = false ∧ s.scr.beater.destruct =
      false) :=
  ⟨⟨rqCore, 0, fnAt live .beater fnOn, _, ⟨rfl, rfl, by decide +kernel⟩, rfl, by decide +kernel⟩,
    ⟨rqCore, 0x80000000, live, _, _, _, ⟨rfl, rfl, by decide +kernel⟩, rfl, rfl, rfl, by decide +kernel⟩,
    ⟨rqCore, 0, live, _, _, _, ⟨rfl, rfl, by decide +kernel⟩, rfl, rfl, rfl, by decide +kernel⟩,
    ⟨rqCore, 0, live, _, ⟨rfl, rfl, by decide +kernel⟩, rfl, by decide +kernel⟩,
    ⟨rqCore, 0, fnAt live .beater fnStarting, _, ⟨rfl, rfl, by decide +kernel⟩, rfl, by decide +kernel⟩,
    ⟨rqCore, 0, fnAt (beating { running := true, banks := 1 }) .beater fnOn, _, ⟨rfl, rfl, by decide +kernel⟩, rfl, by decide +kernel⟩,
    ⟨beating { running := true, banks := 1, active := 1 }, by decide +kernel⟩,
    ⟨fnAt (beating { running := true, banks := 1, active := 1 }) .beater fnOn, by decide +kernel⟩⟩

theorem witness_Peripherals :
    (∃ (who : Req) (k : Fin 2) (v : Word) (s : State) (c : Instr) (n : Nat), Live who s ∧ (c, n) ∈ [(Instr.uartTx who k v, k.val), (.spiTx who k v,
      k.val + 2), (.i2cTx who k v, k.val + 4)] ∧ periphMine (Reg.scrSerClaim n) who s = true ∧ (s.ser n).tx.length < 64) ∧
    (∃ (who : Req) (k : Fin 2) (v : Word) (s : State) (c : Instr) (n : Nat), Live who s ∧ (c, n) ∈ [(Instr.uartTx who k v, k.val), (.spiTx who k v,
      k.val + 2), (.i2cTx who k v, k.val + 4)] ∧ periphMine (Reg.scrSerClaim n) who s = true ∧ 64 ≤ (s.ser n).tx.length) ∧
    (∃ (who : Req) (k : Fin 2) (v : Word) (s : State) (c : Instr) (n : Nat), Live who s ∧ (c, n) ∈ [(Instr.uartTx who k v, k.val), (.spiTx who k v,
      k.val + 2), (.i2cTx who k v, k.val + 4)] ∧ periphMine (Reg.scrSerClaim n) who s = false) ∧
    (∃ (who : Req) (k : Fin 2) (s : State), Live who s ∧ periphMine (Reg.scrSerClaim k.val) who s = true ∧ (s.ser k.val).rx = []) ∧
    (∃ (who : Req) (k : Fin 2) (s : State) (e : Word) (rest : List Word) (peek : _), Live who s ∧ periphMine (Reg.scrSerClaim k.val) who s = true ∧
      (s.ser k.val).rx = e :: rest ∧ peeks who peek = true) ∧
    (∃ (who : Req) (k : Fin 2) (s : State) (e : Word) (rest : List Word) (peek : _), Live who s ∧ periphMine (Reg.scrSerClaim k.val) who s = true ∧
      (s.ser k.val).rx = e :: rest ∧ peeks who peek = false) ∧
    (∃ (k : Fin 2) (s : State), (s.fn (.serial (Fin.ofNat 6 k.val)) ≠ fnOn ∨ rootStopped s = true)) ∧
    (∃ (k : Fin 2) (s : State), s.fn (.serial (Fin.ofNat 6 k.val)) = fnOn ∧ rootStopped s = false ∧ s.getB (Reg.scrUartCfg k.val) 0 = false ∧ (s.pn
      (673 + 2 * k.val)).stage = .none ∧ (s.pn (673 + 2 * k.val)).masked = false ∧ pinRow s (673 + 2 * k.val) = 11) ∧
    (∃ (k : Fin 6) (s : State), ((s.ser k.val).tx = [] ∨ s.fn (.serial k) ≠ fnOn ∨ rootStopped s = true)) ∧
    (∃ (k : Fin 6) (s : State) (e : Word) (rest : List Word) (u : State), u = s.setSer k.val { s.ser k.val with tx := rest } ∧ (s.ser k.val).tx = e ::
      rest ∧ s.fn (.serial k) = fnOn ∧ rootStopped s = false ∧ k.val < 2 ∧ s.getB (Reg.scrUartCfg k.val) 0 = false) ∧
    (∃ (k : Fin 6) (s : State) (e : Word) (rest : List Word) (u : State), u = s.setSer k.val { s.ser k.val with tx := rest } ∧ (s.ser k.val).tx = e ::
      rest ∧ s.fn (.serial k) = fnOn ∧ rootStopped s = false ∧ k.val < 2 ∧ s.getB (Reg.scrUartCfg k.val) 0 = true) ∧
    (∃ (k : Fin 6) (s : State) (e : Word) (rest : List Word) (u : State), u = s.setSer k.val { s.ser k.val with tx := rest } ∧ (s.ser k.val).tx = e ::
      rest ∧ s.fn (.serial k) = fnOn ∧ rootStopped s = false ∧ 2 ≤ k.val ∧ k.val < 4) ∧
    (∃ (k : Fin 6) (s : State) (e : Word) (rest : List Word) (u : State), u = s.setSer k.val { s.ser k.val with tx := rest } ∧ (s.ser k.val).tx = e ::
      rest ∧ s.fn (.serial k) = fnOn ∧ rootStopped s = false ∧ 4 ≤ k.val) ∧
    (∃ (k : Fin 16) (s : State), (s.fn (.tmr k) ≠ fnOn ∨ rootStopped s = true)) ∧
    (∃ (k : Fin 16) (s : State), s.fn (.tmr k) = fnOn ∧ rootStopped s = false ∧ tmrMode s k.val ≠ 0) ∧
    (∃ (k : Fin 16) (s : State), s.fn (.tmr k) = fnOn ∧ rootStopped s = false ∧ tmrMode s k.val = 0 ∧ s.getB (Reg.scrTmrCfg k.val) 7 = false) ∧
    (∃ (k : Fin 16) (s : State), s.fn (.tmr k) = fnOn ∧ rootStopped s = false ∧ tmrMode s k.val = 3 ∧ s.getB (Reg.scrTmrCfg k.val) 8 = true ∧ (s.pn
      (694 + k.val)).conn = 2 ∧ (s.pn (694 + k.val)).stage = .none ∧ (s.pn (694 + k.val)).masked = false ∧ pinRow s (694 + k.val) = 11 ∧ s.getB
      (Reg.scrTmrCfg k.val) 7 = false) :=
  ⟨⟨rqCore, 1, 0, live.setSer 5 { tx := List.replicate 63 0 }, .i2cTx rqCore 1 0, 5, ⟨rfl, rfl, by decide +kernel⟩, by simp, by decide +kernel⟩,
    ⟨rqCore, 1, 0, live.setSer 3 { tx := List.replicate 64 0 }, .spiTx rqCore 1 0, 3, ⟨rfl, rfl, by decide +kernel⟩, by simp, by decide +kernel⟩,
    ⟨rqCore, 0, 0, live.setReg (Reg.scrSerClaim 0) 2, .uartTx rqCore 0 0, 0, ⟨rfl, rfl, by decide +kernel⟩, by simp, by decide +kernel⟩,
    ⟨rqCore, 1, live, ⟨rfl, rfl, by decide +kernel⟩, by decide +kernel⟩,
    ⟨rqCore, 1, live.setSer 1 { rx := [5] }, 5, [], true, ⟨rfl, rfl, by decide +kernel⟩, by decide +kernel⟩,
    ⟨rqCore, 1, live.setSer 1 { rx := [5] }, 5, [], false, ⟨rfl, rfl, by decide +kernel⟩, by decide +kernel⟩,
    ⟨1, live, by decide +kernel⟩,
    ⟨1, fnAt pinned (.serial 1) fnOn, by decide +kernel⟩,
    ⟨5, live, by decide +kernel⟩,
    ⟨1, (fnAt live (.serial 1) fnOn).setSer 1 { tx := [5] }, 5, [], _, rfl, by decide +kernel⟩,
    ⟨0, ((fnAt live (.serial 0) fnOn).setReg (Reg.scrUartCfg 0) 1).setSer 0 { tx := [5] }, 5, [], _, rfl, by decide +kernel⟩,
    ⟨3, (fnAt live (.serial 3) fnOn).setSer 3 { tx := [5] }, 5, [], _, rfl, by decide +kernel⟩,
    ⟨5, (fnAt live (.serial 5) fnOn).setSer 5 { tx := [5] }, 5, [], _, rfl, by decide +kernel⟩,
    ⟨15, live, by decide +kernel⟩,
    ⟨15, (fnAt live (.tmr 15) fnOn).setReg (Reg.scrTmrCfg 15) 1, by decide +kernel⟩,
    ⟨15, fnAt live (.tmr 15) fnOn, by decide +kernel⟩,
    ⟨0, ((fnAt pinned (.tmr 0) fnOn).setReg (Reg.scrTmrCfg 0) 0x103).setPn 694 { conn := 2 }, by decide +kernel⟩⟩

theorem witness_FlashDescriptors :
    (∃ (who : Req) (v : Word) (s : State), Live who s ∧ v.getLsbD 6 = false ∧ (s.getF Reg.flcDescWr 5 0 + 64 - s.getF Reg.flcCmplRd 5 0) % 64 ≤ (fld v
      5 0 + 64 - s.getF Reg.flcCmplRd 5 0) % 64) ∧
    (∃ (who : Req) (v : Word) (s : State), Live who s ∧ v.getLsbD 6 = false ∧ (fld v 5 0 + 64 - s.getF Reg.flcCmplRd 5 0) % 64 < (s.getF Reg.flcDescWr
      5 0 + 64 - s.getF Reg.flcCmplRd 5 0) % 64) ∧
    (∃ (s : State) (rd : _), rd = s.getF Reg.flcDescRd 5 0 ∧ (flcWorks s = false ∨ s.fn .flc ≠ fnOn ∨ 16 ≤ s.flash.descs.length ∨ rd = s.getF
      Reg.flcDescWr 5 0)) ∧
    (∃ (s : State) (rd : _) (w0 : _) (w1 : _) (w2 : _) (w3 : _), rd = s.getF Reg.flcDescRd 5 0 ∧ flcWorks s = true ∧ s.fn .flc = fnOn ∧
      s.flash.descs.length < 16 ∧ rd ≠ s.getF Reg.flcDescWr 5 0 ∧ (rd + 64 - s.getF Reg.flcCmplRd 5 0) % 64 < 63 ∧ WordAt s 0 (ringBase s + 4 * rd)
      false w0 ∧ WordAt s 0 (ringBase s + 4 * rd + 1) false w1 ∧ WordAt s 0 (ringBase s + 4 * rd + 2) false w2 ∧ WordAt s 0 (ringBase s + 4 * rd + 3)
      false w3) ∧
    (∃ (k : Nat) (s : State) (ok : Bool) (c : Instr), c ∈ [Instr.descriptorDispatch k, .flashRead k, .flashProgram k ok, .flashErase k ok,
      .flashVerify k, .flashBlank k, .marginRead k, .swapBoot k, .descriptorComplete k] ∧ s.flash.descs[k]? = none) ∧
    (∃ (k : Nat) (d : Desc) (s : State), s.flash.descs[k]? = some d ∧ d.active = false ∧ d.result = none ∧ flcWorks s = true ∧ s.fn .flc = fnStopping) ∧
    (∃ (k : Nat) (d : Desc) (s : State), s.flash.descs[k]? = some d ∧ d.active = false ∧ d.result = none ∧ flcWorks s = true ∧ s.fn .flc ≠ fnOn ∧ s.fn
      .flc ≠ fnStopping) ∧
    (∃ (k : Nat) (d : Desc) (s : State), s.flash.descs[k]? = some d ∧ d.active = false ∧ d.result = none ∧ flcWorks s = true ∧ s.fn .flc = fnOn ∧
      descBad s d = true) ∧
    (∃ (k : Nat) (d : Desc) (s : State), s.flash.descs[k]? = some d ∧ d.active = false ∧ d.result = none ∧ flcWorks s = true ∧ s.fn .flc = fnOn ∧
      descBad s d = false ∧ descWaits s k d = true) ∧
    (∃ (k : Nat) (d : Desc) (s : State), s.flash.descs[k]? = some d ∧ d.active = false ∧ d.result = none ∧ flcWorks s = true ∧ s.fn .flc = fnOn ∧
      descBad s d = false ∧ descWaits s k d = false ∧ descRefused s d ≠ 0) ∧
    (∃ (k : Nat) (d : Desc) (s : State), s.flash.descs[k]? = some d ∧ d.active = false ∧ d.result = none ∧ flcWorks s = true ∧ s.fn .flc = fnOn ∧
      descBad s d = false ∧ descWaits s k d = false ∧ descRefused s d = 0 ∧ d.op ≠ 3) ∧
    (∃ (k : Nat) (d : Desc) (s : State), s.flash.descs[k]? = some d ∧ d.active = false ∧ d.result = none ∧ flcWorks s = true ∧ s.fn .flc = fnOn ∧
      descBad s d = false ∧ descWaits s k d = false ∧ descRefused s d = 0 ∧ d.op = 3) ∧
    (∃ (k : Nat) (d : Desc) (s : State), DescAt s k 1 d) ∧
    (∃ (k : Nat) (d : Desc) (s : State), DescAt s k 2 d) ∧
    (∃ (k : Nat) (d : Desc) (s : State), DescAt s k 3 d) ∧
    (∃ (k : Nat) (d : Desc) (s : State), DescAt s k 4 d) ∧
    (∃ (k : Nat) (d : Desc) (s : State), DescAt s k 5 d) ∧
    (∃ (k : Nat) (d : Desc) (s : State), DescAt s k 6 d) ∧
    (∃ (k : Nat) (d : Desc) (s : State) (r : List Word × State) (c : Nat) (twin : Bool), r = twinWords twin s ∧ twin = d.d.w3.getLsbD 0 ∧ c =
      bootBlockChk r.1 ∧ DescAt s k 7 d) ∧
    (∃ (k : Nat) (d : Desc) (st : BitVec 4) (s : State) (n : Nat), n = s.getF Reg.flcCmplWr 5 0 ∧ s.flash.descs[k]? = some d ∧ d.result = some st ∧
      flcWorks s = true ∧ (∀ e ∈ s.flash.descs.take k, e.bank ≠ d.bank) ∧ s.scr.beater.running = false ∧ beaterHeld s = 0) :=
  ⟨⟨rqCore, 5, live, ⟨rfl, rfl, by decide +kernel⟩, by decide +kernel⟩,
    ⟨rqCore, 4, live.setReg Reg.flcDescWr 5, ⟨rfl, rfl, by decide +kernel⟩, by decide +kernel⟩,
    ⟨live, _, rfl, by decide +kernel⟩,
    ⟨(flashing []).setReg Reg.flcDescWr 1, _, 0, 0, 0, 0, rfl, by decide +kernel⟩,
    ⟨0, live, true, .swapBoot 0, by simp, by decide +kernel⟩,
    ⟨0, descOf 0x100000001, fnAt (flashing [descOf 0x100000001]) .flc fnStopping, by decide +kernel⟩,
    ⟨0, descOf 0x100000001, fnAt (flashing [descOf 0x100000001]) .flc fnOff, by decide +kernel⟩,
    ⟨0, descOf 0, flashing [descOf 0], by decide +kernel⟩,
    ⟨0, descOf 0x100000001, flashing [descOf 0x100000001, { descOf 0x100000001 with active := true }], by decide +kernel⟩,
    ⟨0, descOf 0x100400001, { flashing [] with flash := { descs := [descOf 0x100400001], recov := [145] } }, by decide +kernel⟩,
    ⟨0, descOf 0x200400100, flashing [descOf 0x200400100], by decide +kernel⟩,
    ⟨0, descOf 0x300400000, flashing [descOf 0x300400000], by decide +kernel⟩,
    ⟨0, { descOf 0x100400001 with active := true }, dispatched 0x100400001, by decide +kernel⟩,
    ⟨0, { descOf 0x200400001 with active := true }, dispatched 0x200400001, by decide +kernel⟩,
    ⟨0, { descOf 0x300400000 with active := true }, dispatched 0x300400000, by decide +kernel⟩,
    ⟨0, { descOf 0x400400001 with active := true }, dispatched 0x400400001, by decide +kernel⟩,
    ⟨0, { descOf 0x500400001 with active := true }, dispatched 0x500400001, by decide +kernel⟩,
    ⟨0, { descOf 0x600400001 with active := true }, dispatched 0x600400001, by decide +kernel⟩,
    ⟨0, { descOf 0x700000000 with active := true }, dispatched 0x700000000, _, _, _, rfl, rfl, rfl, by decide +kernel⟩,
    ⟨0, { descOf 0x100400001 with active := true, result := some 0 }, 0, flashing [{ descOf 0x100400001 with active := true, result := some 0 }], _,
      rfl, by decide +kernel⟩⟩

theorem witness_FlashWear :
    (∃ (s : State), (s.getB Reg.flcStatus 35 = false ∨ flcWorks s = false ∨ s.flash.recov ≠ [])) ∧
    (∃ (s : State), flcWorks s = true ∧ s.getB Reg.flcStatus 35 = true ∧ s.flash.move = none ∧ s.flash.recov = [] ∧ bankQuiet s (bankOf (windowSector
      (movePlan s).2)) = true ∧ bankQuiet s (jrnlBank s) = true ∧ bankTaken s (bankOf (windowSector (movePlan s).1)) = false) ∧
    (∃ (s : State), (s.flash.move = none ∨ flcWorks s = false)) ∧
    (∃ (s : State), s.flash.move ≠ none ∧ flcWorks s = true) ∧
    (∃ (s : State), flcWorks s = false) ∧
    (∃ (s : State) (q : BitVec 13) (rest : List (BitVec 13)), s.flash.recov = q :: rest ∧ flcWorks s = true ∧ bankQuiet s (bankOf q.toNat) = true ∧
      bankQuiet s (jrnlBank s) = true) ∧
    (∃ (who : Req) (s : State), Live who s ∧ s.flash.reports = []) ∧
    (∃ (who : Req) (s : State) (w : Word) (ws : List Word) (peek : _), Live who s ∧ s.flash.reports = w :: ws ∧ peeks who peek = true) ∧
    (∃ (who : Req) (s : State) (w : Word) (ws : List Word) (peek : _), Live who s ∧ s.flash.reports = w :: ws ∧ peeks who peek = false) ∧
    (∃ (s : State), coreRuns s = false) ∧
    (∃ (addr : BitVec 32) (s : State), coreRuns s = true ∧ xipRange addr = false) ∧
    (∃ (s : State), (dbgLevel s ≠ 2 ∨ allAnswer s = false)) ∧
    (∃ (addr : BitVec 32) (s : State) (w : Nat) (l : Nat) (id : Nat) (a : Nat) (u : State) (x : Word), w = addr.toNat / 4 % 2 ^ 26 ∧ l = w / 32768 ∧
      id = logicalId s l ∧ a = sectorFa id + w % 32768 ∧ u = (if (xipHit a s).isSome then s else xipFill a s) ∧ ((xipHit a s).isSome = true ∨ bankBusy
      s (bankOf id) = false) ∧ isQueued s id = false ∧ ((xipHit a s).getD (s.fa a)).chk = .good x ∧ coreRuns s = true ∧ xipRange addr = true ∧ isXo s
      l = false) ∧
    (∃ (addr : BitVec 32) (s : State) (w : Nat) (l : Nat) (id : Nat) (a : Nat) (u : State) (x : Word), w = addr.toNat / 4 % 2 ^ 26 ∧ l = w / 32768 ∧
      id = logicalId s l ∧ a = sectorFa id + w % 32768 ∧ u = (if (xipHit a s).isSome then s else xipFill a s) ∧ ((xipHit a s).isSome = true ∨ bankBusy
      s (bankOf id) = false) ∧ isQueued s id = false ∧ ((xipHit a s).getD (s.fa a)).chk = .good x ∧ dbgLevel s = 2 ∧ allAnswer s = true ∧ isXo s l =
      false) ∧
    (∃ (addr : BitVec 32) (s : State) (w : Nat) (l : Nat) (id : Nat) (a : Nat), w = addr.toNat / 4 % 2 ^ 26 ∧ l = w / 32768 ∧ id = logicalId s l ∧ a =
      sectorFa id + w % 32768 ∧ coreRuns s = true ∧ xipRange addr = true ∧ isXo s l = false ∧ (isQueued s id = true ∨ (xipHit a s = none ∧ bankBusy s
      (bankOf id) = true))) ∧
    (∃ (addr : BitVec 32) (s : State) (w : Nat) (l : Nat), w = addr.toNat / 4 % 2 ^ 26 ∧ l = w / 32768 ∧ coreRuns s = true ∧ xipRange addr = true ∧
      isXo s l = true) ∧
    (∃ (s : State) (a : Nat) (b : Nat), xipHit a s = none ∧ b / 128 = a / 128) ∧
    (∃ (lo : Nat) (n : Nat) (a : Nat), lo ≤ a ∧ a < lo + n) :=
  ⟨⟨live, by decide +kernel⟩,
    ⟨live.setReg Reg.flcStatus 0x800000000, by decide +kernel⟩,
    ⟨live, by decide +kernel⟩,
    ⟨{ live with flash := { move := some (5870, 5871) } }, by decide +kernel⟩,
    ⟨inMode .retain, by decide +kernel⟩,
    ⟨{ live with flash := { recov := [145] } }, 145, [], by decide +kernel⟩,
    ⟨rqCore, live, ⟨rfl, rfl, by decide +kernel⟩, by decide +kernel⟩,
    ⟨rqCore, { live with flash := { reports := [5] } }, 5, [], true, ⟨rfl, rfl, by decide +kernel⟩, by decide +kernel⟩,
    ⟨rqCore, { live with flash := { reports := [5] } }, 5, [], false, ⟨rfl, rfl, by decide +kernel⟩, by decide +kernel⟩,
    ⟨live, by decide +kernel⟩,
    ⟨0x30000000, coreLive, by decide +kernel⟩,
    ⟨{ live with dbg := { level := some 1 } }, by decide +kernel⟩,
    ⟨0x20000000, coreLive, _, _, _, _, _, 0xFFFFFFFFF, rfl, rfl, rfl, rfl, rfl, by decide +kernel⟩,
    ⟨0x2FFFFFFC, debugged live, _, _, _, _, _, 0xFFFFFFFFF, rfl, rfl, rfl, rfl, rfl, by decide +kernel⟩,
    ⟨0x20000000, { coreLive with flash := { recov := [BitVec.ofNat 13 (logicalId coreLive 0)] } }, _, _, _, _, rfl, rfl, rfl, rfl, by decide +kernel⟩,
    ⟨0x20000000, coreLive.setReg (Reg.flcXo 0) 0x800000001, _, _, rfl, rfl, by decide +kernel⟩,
    ⟨live, 0, 127, by decide +kernel⟩,
    ⟨0, 1, 0, by decide +kernel⟩⟩

theorem witness_PinWrites :
    (∃ (who : Req) (i : Fin 720) (v : Word) (s : State) (c : Instr) (a : Nat), Live who s ∧ (c = Instr.pinCfgWrite who i v ∧ a = Reg.pinCfg i.val ∨ c
      = Instr.gpioWrite who i v ∧ a = Reg.pinGpio i.val ∨ c = Instr.pinDlyWrite who i v ∧ a = Reg.pinDly i.val) ∧ pinWho s i.val who = false) ∧
    (∃ (who : Req) (i : Fin 720) (v : Word) (s : State) (c : Instr) (a : Nat), Live who s ∧ (c = Instr.pinCfgWrite who i v ∧ a = Reg.pinCfg i.val ∨ c
      = Instr.gpioWrite who i v ∧ a = Reg.pinGpio i.val ∨ c = Instr.pinDlyWrite who i v ∧ a = Reg.pinDly i.val) ∧ pinWho s i.val who = true ∧
      pinOddDiff s i.val = true) ∧
    (∃ (who : Req) (i : Fin 720) (v : Word) (s : State) (w : Word), Live who s ∧ w = setFld (setFld (s.reg (Reg.pinCfg i.val)) 33 22 (fld v 33 22)) 18
      14 (fld v 18 14) ∧ pinWho s i.val who = true ∧ pinOddDiff s i.val = false ∧ (s.pn i.val).stage = .none ∧ fld v 35 34 = (s.pn i.val).conn.toNat) ∧
    (∃ (who : Req) (i : Fin 720) (v : Word) (s : State) (w : Word), Live who s ∧ w = setFld (setFld (s.reg (Reg.pinCfg i.val)) 33 22 (fld v 33 22)) 18
      14 (fld v 18 14) ∧ pinWho s i.val who = true ∧ pinOddDiff s i.val = false ∧ (s.pn i.val).stage = .none ∧ fld v 35 34 ≠ (s.pn i.val).conn.toNat ∧
      (fld v 35 34 = 0 ∨ fld v 35 34 = 1 ∧ s.getB (Reg.pinCfg i.val) 11 = true)) ∧
    (∃ (who : Req) (i : Fin 720) (v : Word) (s : State) (w : Word), Live who s ∧ w = setFld (setFld (s.reg (Reg.pinCfg i.val)) 33 22 (fld v 33 22)) 18
      14 (fld v 18 14) ∧ pinWho s i.val who = true ∧ pinOddDiff s i.val = false ∧ (s.pn i.val).stage ≠ .none ∧ (fld v 35 34 = 0 ∨ fld v 35 34 = 1 ∧
      s.getB (Reg.pinCfg i.val) 11 = true)) ∧
    (∃ (who : Req) (i : Fin 720) (v : Word) (s : State) (w : Word), Live who s ∧ w = setFld (setFld (s.reg (Reg.pinCfg i.val)) 33 22 (fld v 33 22)) 18
      14 (fld v 18 14) ∧ pinWho s i.val who = true ∧ pinOddDiff s i.val = false ∧ ((s.pn i.val).stage ≠ .none ∨ fld v 35 34 ≠ (s.pn i.val).conn.toNat)
      ∧ (2 ≤ fld v 35 34 ∨ fld v 35 34 = 1 ∧ s.getB (Reg.pinCfg i.val) 11 = false)) ∧
    (∃ (who : Req) (i : Fin 720) (s : State), Live who s ∧ pinWho s i.val who = true ∧ pinOddDiff s i.val = false ∧ s.getB (Reg.pinCfg (i.val - i.val
      % 2)) 12 = false) ∧
    (∃ (who : Req) (i : Fin 720) (s : State), Live who s ∧ pinWho s i.val who = true ∧ pinOddDiff s i.val = false ∧ s.getB (Reg.pinCfg (i.val - i.val
      % 2)) 12 = true ∧ (s.pn (i.val - i.val % 2)).img3.getLsbD 4 = true) :=
  ⟨⟨rqI3c, 719, 0, { live with dbg := { level := some 0 } }.setReg (Reg.pinClaim 719) 1, .gpioWrite rqI3c 719 0, Reg.pinGpio 719, ⟨rfl, rfl,
    by decide +kernel⟩, by decide +kernel⟩,
    ⟨rqCore, 719, 0, live.setReg (Reg.pinCfg 718) 0x080000, .pinDlyWrite rqCore 719 0, Reg.pinDly 719, ⟨rfl, rfl, by decide +kernel⟩,
      by decide +kernel⟩,
    ⟨rqCore, 0, 0, live, _, ⟨rfl, rfl, by decide +kernel⟩, rfl, by decide +kernel⟩,
    ⟨rqCore, 0, 0x400000000, live.setReg (Reg.pinCfg 0) 0x800, _, ⟨rfl, rfl, by decide +kernel⟩, rfl, by decide +kernel⟩,
    ⟨rqCore, 0, 0, live.setPn 0 { stage := .parked }, _, ⟨rfl, rfl, by decide +kernel⟩, rfl, by decide +kernel⟩,
    ⟨rqCore, 719, 0x800000000, live, _, ⟨rfl, rfl, by decide +kernel⟩, rfl, by decide +kernel⟩,
    ⟨rqCore, 719, live, ⟨rfl, rfl, by decide +kernel⟩, by decide +kernel⟩,
    ⟨rqCore, 719, (live.setReg (Reg.pinCfg 718) 0x1000).setPn 718 { img3 := 0x10 }, ⟨rfl, rfl, by decide +kernel⟩, by decide +kernel⟩⟩

theorem witness_PinEvents :
    (∃ (i : Fin 720) (s : State), (s.pn i.val).stage = .parked) ∧
    (∃ (i : Fin 720) (s : State), (s.pn i.val).stage ≠ .parked) ∧
    (∃ (i : Fin 720) (s : State), (s.pn i.val).stage = .masked ∧ ((s.pn i.val).heldFunc = none ∨ (s.pn i.val).heldFunc = some (s.pn i.val).conn)) ∧
    (∃ (i : Fin 720) (s : State) (f : BitVec 2), (s.pn i.val).stage = .masked ∧ (s.pn i.val).heldFunc = some f ∧ f ≠ (s.pn i.val).conn) ∧
    (∃ (i : Fin 720) (s : State), (s.pn i.val).stage ≠ .masked) ∧
    (∃ (i : Fin 720) (rising : Bool) (s : State) (u : State), u = s.setPn i.val
      { s.pn i.val with pad := some rising, keeper := some ((pinDrive s i.val).level.getD rising) } ∧ (gpioDetects u i.val = false ∨ edgeWanted
      (s.getF (Reg.pinGpio i.val) 8 7) rising = false)) ∧
    (∃ (i : Fin 720) (rising : Bool) (s : State) (u : State), u = s.setPn i.val
      { s.pn i.val with pad := some rising, keeper := some ((pinDrive s i.val).level.getD rising) } ∧ gpioDetects u i.val = true ∧ edgeWanted (s.getF
      (Reg.pinGpio i.val) 8 7) rising = true ∧ s.getB (Reg.pinGpio i.val) 6 = false) ∧
    (∃ (i : Fin 720) (rising : Bool) (s : State) (u : State), u = s.setPn i.val
      { s.pn i.val with pad := some rising, keeper := some ((pinDrive s i.val).level.getD rising) } ∧ gpioDetects u i.val = true ∧ edgeWanted (s.getF
      (Reg.pinGpio i.val) 8 7) rising = true ∧ s.getB (Reg.pinGpio i.val) 6 = true) ∧
    (∃ (p : Fin 360) (locked : Bool) (s : State), (serRxPair s p.val = false ∨ s.getB (Reg.pinSer p.val) 0 = locked)) ∧
    (∃ (p : Fin 360) (s : State), serRxPair s p.val = true ∧ s.getB (Reg.pinSer p.val) 0 = true) ∧
    (∃ (p : Fin 360) (s : State), serRxPair s p.val = true ∧ s.getB (Reg.pinSer p.val) 0 = false) :=
  ⟨⟨719, live.setPn 719 { stage := .parked }, by decide +kernel⟩,
    ⟨719, live, by decide +kernel⟩,
    ⟨719, live.setPn 719 { stage := .masked, heldFunc := some 0 }, by decide +kernel⟩,
    ⟨719, live.setPn 719 { stage := .masked, heldFunc := some 1 }, 1, by decide +kernel⟩,
    ⟨719, live.setPn 719 { stage := .parked }, by decide +kernel⟩,
    ⟨719, true, live, _, rfl, by decide +kernel⟩,
    ⟨718, true, pinned.setReg (Reg.pinGpio 718) 0x80, _, rfl, by decide +kernel⟩,
    ⟨718, false, pinned.setReg (Reg.pinGpio 718) 0x140, _, rfl, by decide +kernel⟩,
    ⟨359, true, live, by decide +kernel⟩,
    ⟨359, ((live.setReg (Reg.pinCfg 718) 0x1000).setPn 718 { img3 := 0x10 }).setReg (Reg.pinSer 359) 1, by decide +kernel⟩,
    ⟨359, (live.setReg (Reg.pinCfg 718) 0x1000).setPn 718 { img3 := 0x10 }, by decide +kernel⟩⟩

theorem witness_TapInstructions :
    (∃ (s : State) (code : BitVec 8), s.boot.porHeld = false ∧ code ∉ [0x00#8, 0x01, 0x02, 0x03, 0x04, 0x10, 0x11, 0x12]) ∧
    (∃ (s : State), s.boot.porHeld = false ∧ dbgLevel s = 2) ∧
    (∃ (s : State) (dr : BitVec 2160) (op : _) (addr : _) (data : _) (c : Instr) (code : BitVec 8), (dbgLevel s < 2 ∧ (c = Instr.extest dr ∧ code = 0
      ∨ c = Instr.clamp ∧ code = 3 ∨ c = Instr.highz ∧ code = 4) ∨ dbgLevel s = 0 ∧ c = Instr.dmi op addr data ∧ code = 0x11) ∧ s.boot.porHeld =
      false) ∧
    (∃ (s : State) (dr : BitVec 2160) (op : _) (addr : _) (data : _) (write : _) (a : Nat) (w : Word) (code : BitVec 8) (c : Instr), c ∈
      [Instr.idcode, .tapReset, .samplePreload dr, .dtmcs, .bypass code, .extest dr, .clamp, .highz, .dmi op addr data, .dbgregUpdate write a w] ∧
      s.boot.porHeld = true) :=
  ⟨⟨live, 0x05, by decide +kernel⟩,
    ⟨debugged live, by decide +kernel⟩,
    ⟨{ live with dbg := { level := some 1 } }, 0, 0, 0, 0, .clamp, 3, Or.inl ⟨by decide +kernel, Or.inr (Or.inl ⟨rfl, rfl⟩)⟩, by decide +kernel⟩,
    ⟨atBoot State.reset { porHeld := true }, 0, 0, 0, 0, false, 0, 0, 3, .clamp, by simp, by decide +kernel⟩⟩

theorem witness_DebugRegister :
    (∃ (s : State) (d : _), d =
      { s.dbg with ir := 0x12, dbgOver := false, capture := BitVec.ofNat 2160 (s.dbg.dbgOver.toNat <<< 38 ||| s.dbg.dbgNext.isSome.toNat <<< 37 ||| s.dbg.dbgErr.toNat <<< 36 ||| s.dbg.dbgData.toNat) }
      ∧ s.boot.porHeld = false ∧ s.dbg.dbgNext.isSome = true) ∧
    (∃ (s : State) (write : Bool) (a : Addr) (d : _), d =
      { s.dbg with ir := 0x12, dbgOver := false, capture := BitVec.ofNat 2160 (s.dbg.dbgOver.toNat <<< 38 ||| s.dbg.dbgNext.isSome.toNat <<< 37 ||| s.dbg.dbgErr.toNat <<< 36 ||| s.dbg.dbgData.toNat) }
      ∧ s.boot.porHeld = false ∧ s.dbg.dbgNext = none ∧ dbgMay write a.toNat s = false) ∧
    (∃ (s : State) (write : Bool) (a : Addr) (d : _), d =
      { s.dbg with ir := 0x12, dbgOver := false, capture := BitVec.ofNat 2160 (s.dbg.dbgOver.toNat <<< 38 ||| s.dbg.dbgNext.isSome.toNat <<< 37 ||| s.dbg.dbgErr.toNat <<< 36 ||| s.dbg.dbgData.toNat) }
      ∧ s.boot.porHeld = false ∧ s.dbg.dbgNext = none ∧ dbgMay write a.toNat s = true) :=
  ⟨⟨{ live with dbg := { level := some 1, dbgNext := some (1, false) } }, _, rfl, by decide +kernel⟩,
    ⟨{ live with dbg := { level := some 1 } }, true, 0, _, rfl, by decide +kernel⟩,
    ⟨debugged live, true, 0, _, rfl, by decide +kernel⟩⟩

theorem witness_HaltAndResume :
    (∃ (s : State) (write : Bool) (n : BitVec 16) (c : Instr), dbgLevel s < 2 ∧ (c = Instr.haltRequest ∨ c = Instr.resumeRequest ∨ c =
      Instr.abstractCommand write n)) ∧
    (∃ (s : State), attached s = true ∧ s.core.halted = true ∧ s.fn .wdt = fnOff) ∧
    (∃ (s : State), attached s = true ∧ s.core.halted = true ∧ s.fn .wdt ≠ fnOff) ∧
    (∃ (s : State), attached s = true ∧ s.dbg.cmderr = 0 ∧ s.core.halted = false) ∧
    (∃ (s : State) (n : BitVec 16) (x : Nat), attached s = true ∧ s.dbg.cmderr = 0 ∧ s.core.halted = true ∧ 1 ≤ x ∧ x < 32 ∧ n.toNat = 0x1000 + x) ∧
    (∃ (s : State) (n : BitVec 16), attached s = true ∧ s.dbg.cmderr = 0 ∧ s.core.halted = true ∧ n.toNat = 0x1000) ∧
    (∃ (s : State) (n : BitVec 16), attached s = true ∧ s.dbg.cmderr = 0 ∧ s.core.halted = true ∧ n.toNat = 0x7B1) ∧
    (∃ (s : State) (n : BitVec 16), attached s = true ∧ s.dbg.cmderr = 0 ∧ s.core.halted = true ∧ (n.toNat = 0x340 ∨ n.toNat = 0x305)) ∧
    (∃ (s : State) (n : BitVec 16), attached s = true ∧ s.dbg.cmderr = 0 ∧ s.core.halted = true ∧ 0x1020 ≤ n.toNat) ∧
    (∃ (s : State) (n : BitVec 16), attached s = true ∧ s.dbg.cmderr = 0 ∧ s.core.halted = true ∧ n.toNat < 0x1000 ∧ csrExists n.toNat = false) ∧
    (∃ (s : State), attached s = true ∧ boundaryHeld s = false) ∧
    (∃ (s : State), attached s = false ∧ boundaryHeld s = false) :=
  ⟨⟨{ live with dbg := { level := some 1 } }, true, 0, .haltRequest, by decide +kernel⟩,
    ⟨{ debugged live with core := { halted := true } }, by decide +kernel⟩,
    ⟨{ debugged (fnAt live .wdt fnOn) with core := { halted := true } }, by decide +kernel⟩,
    ⟨debugged live, by decide +kernel⟩,
    ⟨{ debugged live with core := { halted := true } }, 0x101F, 31, by decide +kernel⟩,
    ⟨{ debugged live with core := { halted := true } }, 0x1000, by decide +kernel⟩,
    ⟨{ debugged live with core := { halted := true } }, 0x7B1, by decide +kernel⟩,
    ⟨{ debugged live with core := { halted := true } }, 0x305, by decide +kernel⟩,
    ⟨{ debugged live with core := { halted := true } }, 0x1020, by decide +kernel⟩,
    ⟨{ debugged live with core := { halted := true } }, 0xFFF, by decide +kernel⟩,
    ⟨debugged live, by decide +kernel⟩,
    ⟨{ live with dbg := { level := some 1 } }, by decide +kernel⟩⟩

theorem witness_DebugModule :
    (∃ (s : State) (a : BitVec 7) (d : _), d =
      { s.dbg with ir := 0x11, capture := BitVec.ofNat 2160 (s.dbg.dmiAddr.toNat <<< 34 ||| s.dbg.dmiData.toNat <<< 2) } ∧ s.boot.porHeld = false ∧ 1
      ≤ dbgLevel s ∧ a ≠ 0x12 ∧ a ≠ 0x3C) ∧
    (∃ (s : State) (d : _), d = { s.dbg with ir := 0x11, capture := BitVec.ofNat 2160 (s.dbg.dmiAddr.toNat <<< 34 ||| s.dbg.dmiData.toNat <<< 2) } ∧
      s.boot.porHeld = false ∧ 1 ≤ dbgLevel s ∧ s.dbg.sbOnData = false) ∧
    (∃ (s : State) (d : _), d = { s.dbg with ir := 0x11, capture := BitVec.ofNat 2160 (s.dbg.dmiAddr.toNat <<< 34 ||| s.dbg.dmiData.toNat <<< 2) } ∧
      s.boot.porHeld = false ∧ 1 ≤ dbgLevel s ∧ s.dbg.sbOnAddr = false) ∧
    (∃ (s : State) (v : BitVec 32) (d : _), d =
      { s.dbg with ir := 0x11, capture := BitVec.ofNat 2160 (s.dbg.dmiAddr.toNat <<< 34 ||| s.dbg.dmiData.toNat <<< 2) } ∧ s.boot.porHeld = false ∧ 1
      ≤ dbgLevel s ∧ dbgLevel s = 2 ∧ s.dbg.dmactive = true ∧ v = 0x80000001 ∧ s.core.halted = false) ∧
    (∃ (s : State) (a : BitVec 7) (d : _), d =
      { s.dbg with ir := 0x11, capture := BitVec.ofNat 2160 (s.dbg.dmiAddr.toNat <<< 34 ||| s.dbg.dmiData.toNat <<< 2) } ∧ s.boot.porHeld = false ∧ 1
      ≤ dbgLevel s ∧ dbgLevel s = 1 ∧ a ≠ 0x38 ∧ a ≠ 0x39) ∧
    (∃ (s : State) (write : Bool), s.boot.porHeld = false ∧ dbgLevel s < (if write then 2 else 1)) ∧
    (∃ (s : State) (write : Bool) (addr : BitVec 32), s.boot.porHeld = false ∧ (if write then 2 else 1) ≤ dbgLevel s ∧ s.dbg.sberror = 0 ∧ aligned
      addr .word = false) ∧
    (∃ (s : State) (addr : BitVec 32), Live rqDbg s ∧ dbgLevel s = 2 ∧ s.dbg.sberror = 0 ∧ s.dbg.sbInc = false ∧ aligned addr .word = true ∧
      nibbleRange addr = true) ∧
    (∃ (s : State) (addr : BitVec 32) (data : BitVec 32) (u : State) (x : State), Live rqDbg s ∧ u =
      { s with dbg := { s.dbg with sbAddr := addr, sbAccess := 2, sbData := data } } ∧ x = regWrite rqDbg (coreReg addr) (wd (s.dbg.sbStaging.toNat
      <<< 32 ||| data.toNat)) u ∧ dbgLevel s = 2 ∧ s.dbg.sberror = 0 ∧ s.dbg.sbInc = false ∧ aligned addr .word = true ∧ regRange addr = true ∧
      x.resp.err = false) ∧
    (∃ (s : State) (addr : BitVec 32), Live rqDbg s ∧ dbgLevel s = 2 ∧ s.dbg.sberror = 0 ∧ s.dbg.sbInc = false ∧ aligned addr .word = true ∧ regRange
      addr = false ∧ nibbleRange addr = false ∧ xipRange addr = true) :=
  ⟨⟨debugged live, 0x10, _, rfl, by decide +kernel⟩,
    ⟨debugged live, _, rfl, by decide +kernel⟩,
    ⟨debugged live, _, rfl, by decide +kernel⟩,
    ⟨debugged live, 0x80000001, _, rfl, by decide +kernel⟩,
    ⟨{ live with dbg := { level := some 1 } }, 0x10, _, rfl, by decide +kernel⟩,
    ⟨{ live with dbg := { level := some 1 } }, true, by decide +kernel⟩,
    ⟨{ live with dbg := { level := some 1 } }, false, 2, by decide +kernel⟩,
    ⟨debugged live, 0x50000000, ⟨rfl, rfl, by decide +kernel⟩, by decide +kernel⟩,
    ⟨debugged live, 0x400C0200, 7, _, _, ⟨rfl, rfl, by decide +kernel⟩, rfl, rfl, by decide +kernel⟩,
    ⟨debugged live, 0x20000000, ⟨rfl, rfl, by decide +kernel⟩, by decide +kernel⟩⟩

theorem witness_DebugAuthentication :
    (∃ (who : Req) (v : Word) (s : State) (c : Instr), Live who s ∧ who ≠ rqDbg ∧ (c = Instr.newChal who v ∨ c = Instr.check who v ∨ c = Instr.drop
      who v)) ∧
    (∃ (v : Word) (s : State) (b : _), Live rqDbg s ∧ b = begin rqDbg s ∧ v.getLsbD 8 = true ∧ v.getLsbD 9 = false ∧ v.getLsbD 10 = false) ∧
    (∃ (v : Word) (s : State) (b : _) (l : Nat), Live rqDbg s ∧ b = begin rqDbg s ∧ l = fld (s.dbg.chal.getD 6 0) 1 0 ∧ v.getLsbD 8 = false ∧
      v.getLsbD 9 = true ∧ v.getLsbD 10 = false ∧ s.getB Reg.dbgStatus 9 = true) ∧
    (∃ (v : Word) (s : State) (b : _) (l : Nat), Live rqDbg s ∧ b = begin rqDbg s ∧ l = (if s.getB Reg.dbgStatus 9 then fld (s.dbg.chal.getD 6 0) 1 0
      else fld v 1 0) ∧ v.getLsbD 8 = false ∧ v.getLsbD 9 = true ∧ v.getLsbD 10 = false ∧ (s.getB Reg.dbgStatus 9 = false ∨ respBytes s ≠ chalAnswer
      s.dbg.chal)) ∧
    (∃ (v : Word) (s : State) (b : _), Live rqDbg s ∧ b = begin rqDbg s ∧ v.getLsbD 8 = false ∧ v.getLsbD 9 = false ∧ v.getLsbD 10 = true ∧
      boundaryHeld s = false) :=
  ⟨⟨rqCore, 0, live, .check rqCore 0, ⟨rfl, rfl, by decide +kernel⟩, by decide +kernel⟩,
    ⟨0x100, live, _, ⟨rfl, rfl, by decide +kernel⟩, rfl, by decide +kernel⟩,
    ⟨0x200, live.setReg Reg.dbgStatus 0x200, _, _, ⟨rfl, rfl, by decide +kernel⟩, rfl, rfl, by decide +kernel⟩,
    ⟨0x200, live, _, _, ⟨rfl, rfl, by decide +kernel⟩, rfl, rfl, by decide +kernel⟩,
    ⟨0x400, live, _, ⟨rfl, rfl, by decide +kernel⟩, rfl, by decide +kernel⟩⟩

theorem witness_Watchdog :
    (∃ (who : Req) (s : State) (b : _), Live who s ∧ b = begin who s ∧ (s.boot.seqKick = none ∨ s.boot.seqKick = some who)) ∧
    (∃ (who : Req) (s : State) (b : _) (m : Req), Live who s ∧ b = begin who s ∧ s.boot.seqKick = some m ∧ m ≠ who) ∧
    (∃ (who : Req) (s : State) (b : _), Live who s ∧ b = begin who s ∧ s.boot.seqKick = none) ∧
    (∃ (who : Req) (s : State) (b : _), Live who s ∧ b = begin who s ∧ s.boot.seqKick = some who ∧ s.fn .wdt ≠ fnOn) ∧
    (∃ (who : Req) (s : State) (b : _), Live who s ∧ b = begin who s ∧ s.boot.seqKick = some who ∧ s.fn .wdt = fnOn ∧ (2500 * s.getF Reg.wdtCfg 15 0 ≤
      s.wdt.since ∨ s.wdt.graced = true)) ∧
    (∃ (who : Req) (s : State) (b : _), Live who s ∧ b = begin who s ∧ s.boot.seqKick = some who ∧ s.fn .wdt = fnOn ∧ s.wdt.since < 2500 * s.getF
      Reg.wdtCfg 15 0 ∧ s.wdt.graced = false ∧ s.boot.nrstLow = false) ∧
    (∃ (s : State), s.fn .wdt = fnOn ∧ s.mode ≠ .retain ∧ s.boot.nrstLow = false ∧ (s.core.halted = false ∨ s.getB Reg.wdtXcfg 0 = true)) ∧
    (∃ (s : State), (s.fn .wdt ≠ fnOn ∨ s.mode = .retain ∨ s.core.halted = true ∧ s.getB Reg.wdtXcfg 0 = false)) :=
  ⟨⟨rqCore, atBoot live { seqKick := some rqCore }, _, ⟨rfl, rfl, by decide +kernel⟩, rfl, by decide +kernel⟩,
    ⟨rqCore, atBoot live { seqKick := some rqI3c }, _, rqI3c, ⟨rfl, rfl, by decide +kernel⟩, rfl, by decide +kernel⟩,
    ⟨rqCore, live, _, ⟨rfl, rfl, by decide +kernel⟩, rfl, by decide +kernel⟩,
    ⟨rqCore, atBoot live { seqKick := some rqCore }, _, ⟨rfl, rfl, by decide +kernel⟩, rfl, by decide +kernel⟩,
    ⟨rqCore, { atBoot (fnAt live .wdt fnOn) { seqKick := some rqCore } with wdt := { since := 5000 } }.setReg Reg.wdtCfg 2, _, ⟨rfl, rfl,
      by decide +kernel⟩, rfl, by decide +kernel⟩,
    ⟨rqCore, { atBoot (fnAt live .wdt fnOn) { seqKick := some rqCore } with wdt := { since := 4999 } }.setReg Reg.wdtCfg 2, _, ⟨rfl, rfl,
      by decide +kernel⟩, rfl, by decide +kernel⟩,
    ⟨fnAt live .wdt fnOn, by decide +kernel⟩,
    ⟨live, by decide +kernel⟩⟩

theorem witness_Upsets :
    (∃ (shadow : Bool) (seg : BitVec 7) (col : BitVec 5) (minor : BitVec 9) (fword : BitVec 7) (bit : Fin 43) (s : State) (k : Nat), k = cfgKey
      (physOf s seg.toNat shadow) seg.toNat col.toNat minor.toNat fword.toNat ∧ (36 ≤ bit.val ∨ (keyMask s k).getLsbD bit.val = false)) ∧
    (∃ (shadow : Bool) (seg : BitVec 7) (col : BitVec 5) (minor : BitVec 9) (fword : BitVec 7) (bit : Fin 43) (s : State) (k : Nat), k = cfgKey
      (physOf s seg.toNat shadow) seg.toNat col.toNat minor.toNat fword.toNat ∧ bit.val < 36 ∧ (keyMask s k).getLsbD bit.val = true) ∧
    (∃ (b : BlkAddr) (w : Fin 1024) (k : Nat), k = ramKey b.region.val b.col.val b.row.val w.val) ∧
    (∃ (shadow : Bool) (c : CellAddr) (copy : Fin 3) (s : State) (e : _), e = (physOf s c.region.val shadow, (cellPos c).ix, copy)) ∧
    (∃ (c : CellAddr) (bit : Fin 64) (s : State) (k : Nat), k = cfgKey (activeOf s c.region.val) c.region.val c.col.val (bit.val / 4) (4 * c.row.val +
      bit.val % 4)) :=
  ⟨⟨true, 127, 0, 0, 0, 36, live, _, rfl, by decide +kernel⟩,
    ⟨false, 0, 0, 15, 0, 35, live.setRg 0 { gold0 := [(35, true)] }, _, rfl, by decide +kernel⟩,
    ⟨{ region := 63, col := 20, row := 31 }, 1023, _, rfl⟩,
    ⟨true, { region := 63, col := 27, row := 31, cell := 35 }, 2, live, _, rfl⟩,
    ⟨{ region := 63, col := 27, row := 31, cell := 35 }, 63, live, _, rfl⟩⟩

theorem witness_ServiceLinesWait :
    (∃ (k : Nat) (n : Nat) (r : Fin 64) (a : Addr) (peek : _) (v : Word) (o : Fin 2097152) (p : Fin 720) (h : _) (toService : _) (nsafe : _) (ws :
      List (BitVec 32)) (rej : BitVec 4) (b : Fin 16) (k16 : Fin 16) (m : Fin 8) (k2 : Fin 2) (ss : _) (pre : _) (rep : _) (c : Instr) (i : SvcLine)
      (s : State), (c, i) ∈ [(Instr.svcId, SvcLine.id), (.svcMode, .mode), (.svcHealth, .health), (.svcFs, .fs), (.svcErrLast, .errLast),
      (.svcEvtLast, .evtLast), (.svcEvtK k, .evtK k), (.svcI3c, .i3c), (.svcBoot, .boot), (.svcPwr, .pwr), (.svcTemp, .temp), (.svcCalStat, .calStat),
      (.svcRgn r, .rgn r), (.svcRgnAll, .rgnAll), (.svcImg, .img), (.svcSwap, .swap), (.svcRhx, .rhx), (.svcMesh, .mesh), (.svcMeshTime, .meshTime),
      (.svcWdt, .wdt), (.svcRd a peek, .rd a peek), (.svcWr a v, .wr a v), (.svcSpRd o, .spRd o), (.svcSpWr o v, .spWr o v), (.svcPin p, .pin p),
      (.svcPinHigh p, .pinHigh p), (.svcPinLow p, .pinLow p), (.svcPinZ p, .pinZ p), (.svcPinSquare p, .pinSquare p), (.svcPinRelease p, .pinRelease
      p), (.svcAuth, .auth), (.svcAuthResponse ws, .authResponse ws), (.svcLogout, .logout), (.svcService h, .service h), (.svcWake, .wake),
      (.svcReboot ⟨toService, nsafe⟩, .reboot toService nsafe), (.svcBaud n, .baud n), (.svcInvalidLine rej, .invalidLine rej), (.testFlash b,
      .testFlash b), (.testMeshLoop m, .testMeshLoop m), (.testMesh m, .testMesh m), (.march b ss pre rep, .march b ss pre rep), (.testEngine,
      .testEngine), (.testCal, .testCal), (.testUart k2, .testUart k2), (.testSpi k2, .testSpi k2), (.testI2c k2, .testI2c k2), (.testTmr k16,
      .testTmr k16), (.testWdt, .testWdt), (.testClk, .testClk)] ∧ s.boot.porHeld = true) ∧
    (∃ (k : Nat) (n : Nat) (r : Fin 64) (a : Addr) (peek : _) (v : Word) (o : Fin 2097152) (p : Fin 720) (h : _) (toService : _) (nsafe : _) (ws :
      List (BitVec 32)) (rej : BitVec 4) (b : Fin 16) (k16 : Fin 16) (m : Fin 8) (k2 : Fin 2) (ss : _) (pre : _) (rep : _) (c : Instr) (i : SvcLine)
      (s : State), (c, i) ∈ [(Instr.svcId, SvcLine.id), (.svcMode, .mode), (.svcHealth, .health), (.svcFs, .fs), (.svcErrLast, .errLast),
      (.svcEvtLast, .evtLast), (.svcEvtK k, .evtK k), (.svcI3c, .i3c), (.svcBoot, .boot), (.svcPwr, .pwr), (.svcTemp, .temp), (.svcCalStat, .calStat),
      (.svcRgn r, .rgn r), (.svcRgnAll, .rgnAll), (.svcImg, .img), (.svcSwap, .swap), (.svcRhx, .rhx), (.svcMesh, .mesh), (.svcMeshTime, .meshTime),
      (.svcWdt, .wdt), (.svcRd a peek, .rd a peek), (.svcWr a v, .wr a v), (.svcSpRd o, .spRd o), (.svcSpWr o v, .spWr o v), (.svcPin p, .pin p),
      (.svcPinHigh p, .pinHigh p), (.svcPinLow p, .pinLow p), (.svcPinZ p, .pinZ p), (.svcPinSquare p, .pinSquare p), (.svcPinRelease p, .pinRelease
      p), (.svcAuth, .auth), (.svcAuthResponse ws, .authResponse ws), (.svcLogout, .logout), (.svcService h, .service h), (.svcWake, .wake),
      (.svcReboot ⟨toService, nsafe⟩, .reboot toService nsafe), (.svcBaud n, .baud n), (.svcInvalidLine rej, .invalidLine rej), (.testFlash b,
      .testFlash b), (.testMeshLoop m, .testMeshLoop m), (.testMesh m, .testMesh m), (.march b ss pre rep, .march b ss pre rep), (.testEngine,
      .testEngine), (.testCal, .testCal), (.testUart k2, .testUart k2), (.testSpi k2, .testSpi k2), (.testI2c k2, .testI2c k2), (.testTmr k16,
      .testTmr k16), (.testWdt, .testWdt), (.testClk, .testClk)] ∧ s.boot.porHeld = false ∧ (svcBusy s = true ∨ s.svc.waiting ≠ [])) ∧
    (∃ (k : Nat) (n : Nat) (r : Fin 64) (a : Addr) (peek : _) (v : Word) (o : Fin 2097152) (p : Fin 720) (h : _) (toService : _) (nsafe : _) (ws :
      List (BitVec 32)) (rej : BitVec 4) (b : Fin 16) (k16 : Fin 16) (m : Fin 8) (k2 : Fin 2) (ss : _) (pre : _) (rep : _) (c : Instr) (i : SvcLine)
      (s : State), (c, i) ∈ [(Instr.svcId, SvcLine.id), (.svcMode, .mode), (.svcHealth, .health), (.svcFs, .fs), (.svcErrLast, .errLast),
      (.svcEvtLast, .evtLast), (.svcEvtK k, .evtK k), (.svcI3c, .i3c), (.svcBoot, .boot), (.svcPwr, .pwr), (.svcTemp, .temp), (.svcCalStat, .calStat),
      (.svcRgn r, .rgn r), (.svcRgnAll, .rgnAll), (.svcImg, .img), (.svcSwap, .swap), (.svcRhx, .rhx), (.svcMesh, .mesh), (.svcMeshTime, .meshTime),
      (.svcWdt, .wdt), (.svcRd a peek, .rd a peek), (.svcWr a v, .wr a v), (.svcSpRd o, .spRd o), (.svcSpWr o v, .spWr o v), (.svcPin p, .pin p),
      (.svcPinHigh p, .pinHigh p), (.svcPinLow p, .pinLow p), (.svcPinZ p, .pinZ p), (.svcPinSquare p, .pinSquare p), (.svcPinRelease p, .pinRelease
      p), (.svcAuth, .auth), (.svcAuthResponse ws, .authResponse ws), (.svcLogout, .logout), (.svcService h, .service h), (.svcWake, .wake),
      (.svcReboot ⟨toService, nsafe⟩, .reboot toService nsafe), (.svcBaud n, .baud n), (.svcInvalidLine rej, .invalidLine rej), (.testFlash b,
      .testFlash b), (.testMeshLoop m, .testMeshLoop m), (.testMesh m, .testMesh m), (.march b ss pre rep, .march b ss pre rep), (.testEngine,
      .testEngine), (.testCal, .testCal), (.testUart k2, .testUart k2), (.testSpi k2, .testSpi k2), (.testI2c k2, .testI2c k2), (.testTmr k16,
      .testTmr k16), (.testWdt, .testWdt), (.testClk, .testClk)] ∧ Taken s ∧ (∀ e1 e2 e3 e4, i = .march e1 e2 e3 e4 → s.fn .beater = fnOff ∨ s.mode ≠
      .service)) :=
  ⟨⟨1, 1, 0, 0, false, 0, 0, 0, false, false, false, [], 1, 0, 0, 0, 0, false, false, false, .svcId, .id, atBoot live { porHeld := true }, by simp,
    by decide +kernel⟩,
    ⟨1, 1, 0, 0, false, 0, 0, 0, false, false, false, [], 1, 0, 0, 0, 0, false, false, false, .svcId, .id, testing ⟨1, 0⟩, by simp, by decide +kernel⟩,
    ⟨1, 1, 0, 0, false, 0, 0, 0, false, false, false, [], 1, 0, 0, 0, 0, false, false, false, .svcId, .id, live, by simp, ⟨rfl, rfl, rfl⟩, nofun⟩⟩

theorem witness_ServiceReports :
    (∃ (s : State) (u : State) (q : Quad), Taken s ∧ u = s.count Reg.svcCntLines 35 0 ∧ s.evt.newest = some q) ∧
    (∃ (s : State) (u : State), Taken s ∧ u = s.count Reg.svcCntLines 35 0 ∧ s.evt.newest = none) ∧
    (∃ (s : State) (u : State) (k : Nat) (q : Quad), Taken s ∧ u = s.count Reg.svcCntLines 35 0 ∧ 1 ≤ k ∧ k ≤ s.evt.buf.length ∧
      s.evt.buf[s.evt.buf.length - k]? = some q) ∧
    (∃ (s : State) (u : State) (k : Nat), Taken s ∧ u = s.count Reg.svcCntLines 35 0 ∧ s.evt.buf.length < k ∧ s.getB Reg.sysEvtCtrl 0 = false) ∧
    (∃ (s : State) (u : State) (k : Nat) (w0 : _) (w1 : _) (w2 : _) (w3 : _) (off : Nat), Taken s ∧ u = s.count Reg.svcCntLines 35 0 ∧ Live rqSvc s ∧
      off = (s.reg Reg.sysEvtBase).toNat + 4 * ((s.getF Reg.sysEvtWr 9 0 + 1024 + s.evt.buf.length - k) % 1024) ∧ s.evt.buf.length < k ∧ k ≤ 16 ∧
      s.getB Reg.sysEvtCtrl 0 = true ∧ WordAt u rqSvc off false w0 ∧ WordAt u rqSvc (off + 1) false w1 ∧ WordAt u rqSvc (off + 2) false w2 ∧ WordAt u
      rqSvc (off + 3) false w3) ∧
    (∃ (s : State) (u : State) (n : Fin 64) (c : Instr) (as : List Nat) (f : List Word → List SvcVal), Taken s ∧ u = s.count Reg.svcCntLines 35 0 ∧
      (c, as, f) ∈ [(Instr.svcPwr, (List.range 22).map Reg.pwrRailV, fun ws => ws.map (fun w => SvcVal.dec (fld w 11 0))), (.svcCalStat,
      [Reg.calPassTime, Reg.calCntMismatch, Reg.calCntTmr], fun ws => ws.map (fun w => SvcVal.dec w.toNat)), (.svcRgn n, [Reg.rgnStatus n.val,
      Reg.rgnFence n.val], fun ws => ws.map hex9), (.svcRgnAll, (List.range 64).map Reg.rgnStatus, quarVals), (.svcImg, [Reg.cfgActiveId,
      Reg.cfgShadowId], fun ws => ws.map hex9), (.svcSwap, [Reg.cfgSwapStatus, Reg.cfgSwapEdgeLo], fun ws => ws.map hex9), (.svcRhx, [Reg.rhxStatus,
      Reg.rhxOccupancy, Reg.rhxCnt 2], fun ws => ws.map hex9), (.svcMesh, [Reg.mshNodeStatus, Reg.mshNodeStatus2], meshVals)] ∧ rootStopped u = false) ∧
    (∃ (s : State) (u : State) (n : Fin 64) (c : Instr) (as : List Nat) (f : List Word → List SvcVal), Taken s ∧ u = s.count Reg.svcCntLines 35 0 ∧
      (c, as, f) ∈ [(Instr.svcPwr, (List.range 22).map Reg.pwrRailV, fun ws => ws.map (fun w => SvcVal.dec (fld w 11 0))), (.svcCalStat,
      [Reg.calPassTime, Reg.calCntMismatch, Reg.calCntTmr], fun ws => ws.map (fun w => SvcVal.dec w.toNat)), (.svcRgn n, [Reg.rgnStatus n.val,
      Reg.rgnFence n.val], fun ws => ws.map hex9), (.svcRgnAll, (List.range 64).map Reg.rgnStatus, quarVals), (.svcImg, [Reg.cfgActiveId,
      Reg.cfgShadowId], fun ws => ws.map hex9), (.svcSwap, [Reg.cfgSwapStatus, Reg.cfgSwapEdgeLo], fun ws => ws.map hex9), (.svcRhx, [Reg.rhxStatus,
      Reg.rhxOccupancy, Reg.rhxCnt 2], fun ws => ws.map hex9), (.svcMesh, [Reg.mshNodeStatus, Reg.mshNodeStatus2], meshVals)] ∧ rootStopped u = true ∧
      c ≠ .svcPwr) ∧
    (∃ (s : State) (u : State) (r : Word × State), Taken s ∧ u = s.count Reg.svcCntLines 35 0 ∧ r = svcRead Reg.mshTimeStatus u ∧ rootStopped u =
      false) ∧
    (∃ (s : State) (u : State) (r : List Word × State), Taken s ∧ u = s.count Reg.svcCntLines 35 0 ∧ r = svcReads [Reg.wdtStatus, Reg.wdtRemain] u) ∧
    (∃ (s : State) (u : State) (r : List Word × State), Taken s ∧ u = s.count Reg.svcCntLines 35 0 ∧ r = svcReads ((List.range 8).map Reg.pwrTemp) u) :=
  ⟨⟨{ live with evt := { newest := some ⟨1, 0, 0, 0⟩ } }, _, ⟨1, 0, 0, 0⟩, ⟨rfl, rfl, rfl⟩, rfl, by decide +kernel⟩,
    ⟨live, _, ⟨rfl, rfl, rfl⟩, rfl, by decide +kernel⟩,
    ⟨{ live with evt := { buf := [⟨1, 0, 0, 0⟩] } }, _, 1, ⟨1, 0, 0, 0⟩, ⟨rfl, rfl, rfl⟩, rfl, by decide +kernel⟩,
    ⟨live, _, 1, ⟨rfl, rfl, rfl⟩, rfl, by decide +kernel⟩,
    ⟨coreLive.setReg Reg.sysEvtCtrl 1, _, 16, 0, 0, 0, 0, _, ⟨rfl, rfl, rfl⟩, rfl, ⟨rfl, rfl, by decide +kernel⟩, rfl, by decide +kernel⟩,
    ⟨live, _, 63, .svcPwr, _, _, ⟨rfl, rfl, rfl⟩, rfl, List.mem_cons_self .., by decide +kernel⟩,
    ⟨inMode .service, _, 63, .svcCalStat, _, _, ⟨rfl, rfl, rfl⟩, rfl, List.mem_cons_of_mem _ (List.mem_cons_self ..), by decide +kernel⟩,
    ⟨live, _, _, ⟨rfl, rfl, rfl⟩, rfl, rfl, by decide +kernel⟩,
    ⟨live, _, _, ⟨rfl, rfl, rfl⟩, rfl, rfl⟩,
    ⟨live, _, _, ⟨rfl, rfl, rfl⟩, rfl, rfl⟩⟩

theorem witness_ServiceAccesses :
    (∃ (s : State) (u : State) (a : Addr) (peek : _) (t : State), Taken s ∧ u = s.count Reg.svcCntLines 35 0 ∧ t = regRead rqSvc peek a.toNat u ∧
      (rootStopped u = false ∨ rootClocked a.toNat = false) ∧ t.resp.err = false) ∧
    (∃ (s : State) (u : State) (a : Addr) (peek : _) (t : State), Taken s ∧ u = s.count Reg.svcCntLines 35 0 ∧ t = regRead rqSvc peek a.toNat u ∧
      (rootStopped u = false ∨ rootClocked a.toNat = false) ∧ t.resp.err = true) ∧
    (∃ (s : State) (u : State), Taken s ∧ u = s.count Reg.svcCntLines 35 0 ∧ svcMayWrite u = false) ∧
    (∃ (s : State) (u : State) (a : Addr), Taken s ∧ u = s.count Reg.svcCntLines 35 0 ∧ svcMayWrite u = true ∧ rootStopped u = true ∧ rootClocked
      a.toNat = true) ∧
    (∃ (s : State) (u : State) (a : Addr) (v : Word) (t : State), Taken s ∧ u = s.count Reg.svcCntLines 35 0 ∧ t = regWrite rqSvc a.toNat v u ∧
      svcMayWrite u = true ∧ (rootStopped u = false ∨ rootClocked a.toNat = false) ∧ t.resp.err = false ∧ t.reg Reg.svcCntLines ≠ 0) ∧
    (∃ (s : State) (u : State) (a : Addr) (v : Word) (t : State), Taken s ∧ u = s.count Reg.svcCntLines 35 0 ∧ t = regWrite rqSvc a.toNat v u ∧
      svcMayWrite u = true ∧ (rootStopped u = false ∨ rootClocked a.toNat = false) ∧ t.resp.err = false ∧ t.reg Reg.svcCntLines = 0) ∧
    (∃ (s : State) (u : State) (a : Addr) (v : Word) (t : State), Taken s ∧ u = s.count Reg.svcCntLines 35 0 ∧ t = regWrite rqSvc a.toNat v u ∧
      svcMayWrite u = true ∧ (rootStopped u = false ∨ rootClocked a.toNat = false) ∧ t.resp.err = true ∧ t.evt.seq = u.evt.seq) ∧
    (∃ (s : State) (u : State) (a : Addr) (v : Word) (t : State), Taken s ∧ u = s.count Reg.svcCntLines 35 0 ∧ t = regWrite rqSvc a.toNat v u ∧
      svcMayWrite u = true ∧ (rootStopped u = false ∨ rootClocked a.toNat = false) ∧ t.resp.err = true ∧ t.evt.seq ≠ u.evt.seq) ∧
    (∃ (s : State) (u : State) (o : Fin 2097152) (w : Word), Taken s ∧ u = s.count Reg.svcCntLines 35 0 ∧ Live rqSvc s ∧ s.getB Reg.clkRoot 1 = true ∧
      WordAt u rqSvc o.val false w) ∧
    (∃ (s : State) (u : State), Taken s ∧ u = s.count Reg.svcCntLines 35 0 ∧ svcMayWrite u = true ∧ s.getB Reg.clkRoot 1 = false) ∧
    (∃ (s : State) (u : State) (o : Fin 2097152), Taken s ∧ u = s.count Reg.svcCntLines 35 0 ∧ Live rqSvc s ∧ svcMayWrite u = true ∧ s.getB
      Reg.clkRoot 1 = true ∧ bankServes u rqSvc o.val true = 0 ∧ s.scr.beater.running = false) ∧
    (∃ (s : State) (u : State) (p : Fin 720) (c : Instr) (d : BitVec 2), Taken s ∧ u = s.count Reg.svcCntLines 35 0 ∧ (c, d) ∈ [(Instr.svcPinZ p,
      0#2), (.svcPinHigh p, 1), (.svcPinLow p, 2), (.svcPinSquare p, 3)] ∧ s.mode ≠ .service) ∧
    (∃ (s : State) (u : State) (p : Fin 720) (c : Instr) (d : BitVec 2), Taken s ∧ u = s.count Reg.svcCntLines 35 0 ∧ (c, d) ∈ [(Instr.svcPinZ p,
      0#2), (.svcPinHigh p, 1), (.svcPinLow p, 2), (.svcPinSquare p, 3)] ∧ s.mode = .service ∧ pinOddDiff u p.val = true) ∧
    (∃ (s : State) (u : State) (p : Fin 720) (c : Instr) (d : BitVec 2), Taken s ∧ u = s.count Reg.svcCntLines 35 0 ∧ (c, d) ∈ [(Instr.svcPinZ p,
      0#2), (.svcPinHigh p, 1), (.svcPinLow p, 2), (.svcPinSquare p, 3)] ∧ s.mode = .service ∧ pinOddDiff u p.val = false) ∧
    (∃ (s : State) (u : State) (p : Fin 720), Taken s ∧ u = s.count Reg.svcCntLines 35 0 ∧ s.mode = .service ∧ pinOddDiff u p.val = false ∧ (s.pn
      p.val).before = none) ∧
    (∃ (s : State) (u : State) (p : Fin 720) (f : BitVec 2), Taken s ∧ u = s.count Reg.svcCntLines 35 0 ∧ s.mode = .service ∧ pinOddDiff u p.val =
      false ∧ (s.pn p.val).before = some f ∧ (s.pn p.val).stage = .none ∧ f ≠ (s.pn p.val).conn) :=
  ⟨⟨live, _, 8, false, _, ⟨rfl, rfl, rfl⟩, rfl, rfl, by decide +kernel⟩,
    ⟨live.setReg (Reg.scrSerClaim 0) 1, _, 0x30202, true, _, ⟨rfl, rfl, rfl⟩, rfl, rfl, by decide +kernel⟩,
    ⟨live, _, ⟨rfl, rfl, rfl⟩, rfl, by decide +kernel⟩,
    ⟨(inMode .service).setReg Reg.svcStatus 1, _, 0x30202, ⟨rfl, rfl, rfl⟩, rfl, by decide +kernel⟩,
    ⟨live.setReg Reg.svcStatus 1, _, 0x30080, 7, _, ⟨rfl, rfl, rfl⟩, rfl, rfl, by decide +kernel⟩,
    ⟨(atBoot live { seqMode := some rqSvc }).setReg Reg.svcStatus 1, _, BitVec.ofNat 24 Reg.pwrModeReq, 0x92E000003, _, ⟨rfl, rfl, rfl⟩, rfl, rfl,
      by decide +kernel⟩,
    ⟨(live.setReg (Reg.scrSerClaim 0) 1).setReg Reg.svcStatus 1, _, 0x30203, 7, _, ⟨rfl, rfl, rfl⟩, rfl, rfl, by decide +kernel⟩,
    ⟨(live.setReg (Reg.pinClaim 0) 1).setReg Reg.svcStatus 1, _, BitVec.ofNat 24 (Reg.pinCfg 0), 7, _, ⟨rfl, rfl, rfl⟩, rfl, rfl, by decide +kernel⟩,
    ⟨(coreLive.setReg Reg.clkRoot 2).setReg Reg.svcStatus 1, _, 0, 0, ⟨rfl, rfl, rfl⟩, rfl, ⟨rfl, rfl, by decide +kernel⟩, by decide +kernel⟩,
    ⟨live.setReg Reg.svcStatus 1, _, ⟨rfl, rfl, rfl⟩, rfl, by decide +kernel⟩,
    ⟨servicing |> fun s => { s with mode := .run }, _, 0, ⟨rfl, rfl, rfl⟩, rfl, ⟨rfl, rfl, by decide +kernel⟩, by decide +kernel⟩,
    ⟨live, _, 719, .svcPinZ 719, 0, ⟨rfl, rfl, rfl⟩, rfl, by simp, by decide +kernel⟩,
    ⟨servicing.setReg (Reg.pinCfg 718) 0x080000, _, 719, .svcPinHigh 719, 1, ⟨rfl, rfl, rfl⟩, rfl, by simp, by decide +kernel⟩,
    ⟨servicing, _, 719, .svcPinSquare 719, 3, ⟨rfl, rfl, rfl⟩, rfl, by simp, by decide +kernel⟩,
    ⟨servicing, _, 719, ⟨rfl, rfl, rfl⟩, rfl, by decide +kernel⟩,
    ⟨servicing.setPn 719 { before := some 1, conn := 3 }, _, 719, 1, ⟨rfl, rfl, rfl⟩, rfl, by decide +kernel⟩⟩

theorem witness_ServiceSession :
    (∃ (s : State) (u : State) (n : Nat), Taken s ∧ u = s.count Reg.svcCntLines 35 0 ∧ baudOk n = true) ∧
    (∃ (s : State) (u : State) (n : Nat), Taken s ∧ u = s.count Reg.svcCntLines 35 0 ∧ baudOk n = false) ∧
    (∃ (s : State) (u : State), Taken s ∧ u = s.count Reg.svcCntLines 35 0 ∧ (s.mode = .retain ∨ s.boot.retain = .entering)) ∧
    (∃ (s : State) (u : State), Taken s ∧ u = s.count Reg.svcCntLines 35 0 ∧ s.mode ≠ .retain ∧ s.boot.retain ≠ .entering) ∧
    (∃ (s : State) (u : State), Taken s ∧ u = s.count Reg.svcCntLines 35 0 ∧ s.getB Reg.svcStatus 0 = false) ∧
    (∃ (s : State) (u : State), Taken s ∧ u = s.count Reg.svcCntLines 35 0 ∧ s.getB Reg.svcStatus 0 = true) ∧
    (∃ (s : State) (high : Bool) (a : Bool), Taken s ∧ a = s.getB Reg.svcStatus 0 ∧ (s.mode = .inert ∧ s.boot.nrstLow = false ∧ a = false ∨ (s.mode =
      .run ∨ s.mode = .retain) ∧ high = false ∧ a = false)) ∧
    (∃ (s : State) (a : Bool), Taken s ∧ a = s.getB Reg.svcStatus 0 ∧ (s.mode = .boot ∨ s.mode = .service ∨ s.mode = .failsafe ∨ s.mode = .inert ∧
      s.boot.nrstLow = true)) ∧
    (∃ (s : State) (a : Bool), Taken s ∧ a = true ∧ a = s.getB Reg.svcStatus 0 ∧ s.mode = .inert ∧ s.boot.nrstLow = false) ∧
    (∃ (s : State) (high : Bool) (a : Bool), Taken s ∧ a = s.getB Reg.svcStatus 0 ∧ (s.mode = .run ∨ s.mode = .retain) ∧ (high = true ∨ a = true) ∧
      s.boot.retain ≠ .entering) ∧
    (∃ (s : State) (high : Bool) (a : Bool), Taken s ∧ a = s.getB Reg.svcStatus 0 ∧ (s.mode = .run ∨ s.mode = .retain) ∧ (high = true ∨ a = true) ∧
      s.boot.retain = .entering) ∧
    (∃ (s : State) (u : State), u = s.count Reg.svcCntLines 35 0 ∧ (Taken s ∨ s.svc.test.isSome = true) ∧ (s.mode ≠ .service ∨ noImage u = true ∨
      s.boot.released = false ∨ s.svc.test.isSome = true) ∧ s.boot.porHeld = false) ∧
    (∃ (s : State) (u : State), u = s.count Reg.svcCntLines 35 0 ∧ Taken s ∧ s.boot.porHeld = false ∧ s.mode = .service ∧ noImage u = false ∧
      s.boot.released = true ∧ s.boot.exitRun = true) ∧
    (∃ (s : State) (u : State), u = s.count Reg.svcCntLines 35 0 ∧ Taken s ∧ s.boot.porHeld = false ∧ s.mode = .service ∧ noImage u = false ∧
      s.boot.released = true ∧ s.boot.exitRun = false) ∧
    (∃ (s : State), s.getB Reg.svcCfg 17 = true) ∧
    (∃ (s : State), s.getB Reg.svcCfg 17 = false) :=
  ⟨⟨live, _, 3000000, ⟨rfl, rfl, rfl⟩, rfl, by decide +kernel⟩,
    ⟨live, _, 9600, ⟨rfl, rfl, rfl⟩, rfl, by decide +kernel⟩,
    ⟨inMode .retain, _, ⟨rfl, rfl, rfl⟩, rfl, by decide +kernel⟩,
    ⟨live, _, ⟨rfl, rfl, rfl⟩, rfl, by decide +kernel⟩,
    ⟨live, _, ⟨rfl, rfl, rfl⟩, rfl, by decide +kernel⟩,
    ⟨live.setReg Reg.svcStatus 1, _, ⟨rfl, rfl, rfl⟩, rfl, by decide +kernel⟩,
    ⟨live, false, _, ⟨rfl, rfl, rfl⟩, rfl, by decide +kernel⟩,
    ⟨inMode .failsafe, _, ⟨rfl, rfl, rfl⟩, rfl, by decide +kernel⟩,
    ⟨(inMode .inert).setReg Reg.svcStatus 1, _, ⟨rfl, rfl, rfl⟩, rfl, by decide +kernel⟩,
    ⟨live, true, _, ⟨rfl, rfl, rfl⟩, rfl, by decide +kernel⟩,
    ⟨atBoot (live.setReg Reg.svcStatus 1) { retain := .entering }, false, _, ⟨rfl, rfl, rfl⟩, rfl, by decide +kernel⟩,
    ⟨live, _, rfl, Or.inl ⟨rfl, rfl, rfl⟩, Or.inl (by decide +kernel), by decide +kernel⟩,
    ⟨atBoot (inMode .service) { released := true, exitRun := true }, _, rfl, ⟨rfl, rfl, rfl⟩, by decide +kernel⟩,
    ⟨atBoot (inMode .service) { released := true }, _, rfl, ⟨rfl, rfl, rfl⟩, by decide +kernel⟩,
    ⟨live.setReg Reg.svcCfg 0x20000, by decide +kernel⟩,
    ⟨live.setReg Reg.svcCfg 0, by decide +kernel⟩⟩

theorem witness_SelfTestStarts :
    (∃ (b : Fin 16) (k16 : Fin 16) (m : Fin 8) (k2 : Fin 2) (c : Instr) (id : Nat) (arg : Nat) (root : Bool) (s : State) (u : State), (c, id, arg,
      root) ∈ [(Instr.testFlash b, 1, b.val, true), (.testMeshLoop m, 2, m.val, true), (.testMesh m, 3, m.val, true), (.testEngine, 5, 0, true),
      (.testCal, 6, 0, true), (.testUart k2, 7, k2.val, true), (.testSpi k2, 7, 2 + k2.val, true), (.testI2c k2, 8, k2.val, true), (.testTmr k16, 9,
      k16.val, true), (.testWdt, 10, 0, false), (.testClk, 11, 0, false)] ∧ Taken s ∧ u = s.count Reg.svcCntLines 35 0 ∧ s.mode ≠ .service) ∧
    (∃ (b : Fin 16) (k16 : Fin 16) (m : Fin 8) (k2 : Fin 2) (c : Instr) (id : Nat) (arg : Nat) (root : Bool) (s : State) (u : State), (c, id, arg,
      root) ∈ [(Instr.testFlash b, 1, b.val, true), (.testMeshLoop m, 2, m.val, true), (.testMesh m, 3, m.val, true), (.testEngine, 5, 0, true),
      (.testCal, 6, 0, true), (.testUart k2, 7, k2.val, true), (.testSpi k2, 7, 2 + k2.val, true), (.testI2c k2, 8, k2.val, true), (.testTmr k16, 9,
      k16.val, true), (.testWdt, 10, 0, false), (.testClk, 11, 0, false)] ∧ Taken s ∧ u = s.count Reg.svcCntLines 35 0 ∧ s.mode = .service ∧ root =
      true ∧ s.getB Reg.clkRoot 1 = false) ∧
    (∃ (b : Fin 16) (k16 : Fin 16) (m : Fin 8) (k2 : Fin 2) (c : Instr) (id : Nat) (arg : Nat) (root : Bool) (s : State) (u : State), (c, id, arg,
      root) ∈ [(Instr.testFlash b, 1, b.val, true), (.testMeshLoop m, 2, m.val, true), (.testMesh m, 3, m.val, true), (.testEngine, 5, 0, true),
      (.testCal, 6, 0, true), (.testUart k2, 7, k2.val, true), (.testSpi k2, 7, 2 + k2.val, true), (.testI2c k2, 8, k2.val, true), (.testTmr k16, 9,
      k16.val, true), (.testWdt, 10, 0, false), (.testClk, 11, 0, false)] ∧ Taken s ∧ u = s.count Reg.svcCntLines 35 0 ∧ s.mode = .service ∧ (root =
      false ∨ s.getB Reg.clkRoot 1 = true)) ∧
    (∃ (p : Fin 8) (s : State), s.fn (.mesh p) = fnOn ∧ s.link p.val ≠ linkActive) ∧
    (∃ (p : Fin 8) (s : State), (s.fn (.mesh p) ≠ fnOn ∨ s.link p.val = linkActive)) :=
  ⟨⟨15, 15, 7, 1, .testTmr 15, 9, 15, true, live, _, by simp, ⟨rfl, rfl, rfl⟩, rfl, by decide +kernel⟩,
    ⟨15, 15, 7, 1, .testMesh 7, 3, 7, true, inMode .service, _, by simp, ⟨rfl, rfl, rfl⟩, rfl, by decide +kernel⟩,
    ⟨15, 15, 7, 1, .testSpi 1, 7, 3, true, servicing, _, by simp, ⟨rfl, rfl, rfl⟩, rfl, by decide +kernel⟩,
    ⟨7, fnAt live (.mesh 7) fnOn, by decide +kernel⟩,
    ⟨0, (fnAt live (.mesh 0) fnOn).setLink 0 linkActive, by decide +kernel⟩⟩

theorem witness_MarchTest :
    (∃ (s : State) (u : State), Taken s ∧ u = s.count Reg.svcCntLines 35 0 ∧ (s.fn .beater = fnOff ∨ s.mode ≠ .service) ∧ s.mode ≠ .service) ∧
    (∃ (s : State) (u : State), Taken s ∧ u = s.count Reg.svcCntLines 35 0 ∧ (s.fn .beater = fnOff ∨ s.mode ≠ .service) ∧ s.mode = .service ∧ s.getB
      Reg.clkRoot 1 = false) ∧
    (∃ (b : Fin 16) (pre : _) (s : State) (u : State), Taken s ∧ u = s.count Reg.svcCntLines 35 0 ∧ (s.fn .beater = fnOff ∨ s.mode ≠ .service) ∧
      s.mode = .service ∧ s.getB Reg.clkRoot 1 = true ∧ beaterReason u (bankBit b.val) (!pre) = 0) ∧
    (∃ (b : Fin 16) (pre : _) (s : State) (u : State), Taken s ∧ u = s.count Reg.svcCntLines 35 0 ∧ (s.fn .beater = fnOff ∨ s.mode ≠ .service) ∧
      s.mode = .service ∧ s.getB Reg.clkRoot 1 = true ∧ beaterReason u (bankBit b.val) (!pre) ≠ 0) ∧
    (∃ (s : State), Taken s ∧ s.fn .beater ≠ fnOff ∧ s.mode = .service) :=
  ⟨⟨live, _, ⟨rfl, rfl, rfl⟩, rfl, by decide +kernel⟩,
    ⟨inMode .service, _, ⟨rfl, rfl, rfl⟩, rfl, by decide +kernel⟩,
    ⟨15, true, servicing, _, ⟨rfl, rfl, rfl⟩, rfl, by decide +kernel⟩,
    ⟨0, false, servicing.setReg Reg.sysEvtCtrl 1, _, ⟨rfl, rfl, rfl⟩, rfl, by decide +kernel⟩,
    ⟨fnAt servicing .beater fnOn, ⟨rfl, rfl, rfl⟩, by decide +kernel⟩⟩

theorem witness_SelfTestEnds :
    (∃ (s : State), s.svc.test = none) ∧
    (∃ (s : State) (x : TestRun), s.svc.test = some x ∧ x.id = 4) ∧
    (∃ (s : State) (fail : Option (Code × Word)) (x : TestRun), s.svc.test = some x ∧ x.id ≠ 4 ∧ (fail = none ∧ x.id ≠ 6 ∨ s.cal.inject = none ∧ x.id
      = 6)) ∧
    (∃ (s : State) (fail : Option (Code × Word)) (x : TestRun) (c : Code) (d : Word) (e : Code), ((x.id ≠ 6 ∧ fail = some (e, d) ∧ c = (if (testCodes
      x.id.toNat).contains e.toNat then e else 0)) ∨ (x.id = 6 ∧ c = 0 ∧ ∃ b, s.cal.inject = some b ∧ d = if b then 2 else 1)) ∧ s.svc.test = some x ∧
      x.id ≠ 4) :=
  ⟨⟨live, by decide +kernel⟩,
    ⟨testing ⟨4, 0⟩, ⟨4, 0⟩, by decide +kernel⟩,
    ⟨testing ⟨1, 0⟩, none, ⟨1, 0⟩, by decide +kernel⟩,
    ⟨testing ⟨1, 0⟩, some (0x702, 2), ⟨1, 0⟩, 0x702, 2, 0x702, Or.inl (by decide +kernel), by decide +kernel⟩⟩

theorem witness_IdleTick :
    (∃ (s : State), s.pending = []) ∧
    (∃ (s : State), s.boot.porHeld = true) ∧
    (∃ (s : State) (n : Nat) (t : State), n = (40 * 2 ^ 32 * (1000000 + s.mesh.rate)).toNat / 1000000 ∧ t = tick s ∧ s.boot.porHeld = false ∧
      s.svc.waiting = [] ∧ s.fn .wdt = fnOn ∧ s.mode ≠ .retain ∧ wdtFrozen s = false) ∧
    (∃ (s : State) (n : Nat) (t : State), n = (40 * 2 ^ 32 * (1000000 + s.mesh.rate)).toNat / 1000000 ∧ t = tick s ∧ s.boot.porHeld = false ∧
      s.svc.waiting = [] ∧ (s.fn .wdt ≠ fnOn ∨ s.mode = .retain ∨ wdtFrozen s = true)) ∧
    (∃ (s : State) (n : Nat) (t : State) (r : Word × Bool), n = (40 * 2 ^ 32 * (1000000 + s.mesh.rate)).toNat / 1000000 ∧ t = tick s ∧ s.boot.porHeld
      = false ∧ s.svc.waiting = [] ∧ s.dbg.dbgNext = some r) ∧
    (∃ (s : State) (n : Nat) (t : State), n = (40 * 2 ^ 32 * (1000000 + s.mesh.rate)).toNat / 1000000 ∧ t = tick s ∧ s.boot.porHeld = false ∧
      s.svc.waiting = [] ∧ s.dbg.dbgNext = none) ∧
    (∃ (s : State) (n : Nat) (t : State), n = (40 * 2 ^ 32 * (1000000 + s.mesh.rate)).toNat / 1000000 ∧ t = tick s ∧ s.boot.porHeld = false ∧
      s.svc.waiting = [] ∧ (s.mode = .failsafe ∨ s.eng.evBuf = [])) ∧
    (∃ (s : State) (n : Nat) (t : State) (l : List (Code × Req × Word)) (code : Code) (src : _) (d : _), n = (40 * 2 ^ 32 * (1000000 +
      s.mesh.rate)).toNat / 1000000 ∧ t = tick s ∧ s.boot.porHeld = false ∧ s.svc.waiting = [] ∧ s.mode ≠ .failsafe ∧ s.eng.evBuf = l ++ [(code, src,
      d)]) :=
  ⟨⟨live, by decide +kernel⟩,
    ⟨atBoot live { porHeld := true }, by decide +kernel⟩,
    ⟨fnAt live .wdt fnOn, _, _, rfl, rfl, by decide +kernel⟩,
    ⟨live, _, _, rfl, rfl, by decide +kernel⟩,
    ⟨{ live with dbg := { dbgNext := some (1, false) } }, _, _, (1, false), rfl, rfl, by decide +kernel⟩,
    ⟨live, _, _, rfl, rfl, by decide +kernel⟩,
    ⟨live, _, _, rfl, rfl, by decide +kernel⟩,
    ⟨engined { evBuf := [(0x500, 1, 2)] }, _, _, [], 0x500, 1, 2, rfl, rfl, by decide +kernel⟩⟩

theorem witness_SecurityInvariant :
    ∃ (s : State) (t : State), SecInv s ∧ step s = .next t :=
  ⟨live, _, live_sec, rfl⟩

theorem witness_MemoryForm :
    ∃ (who : Req) (o : Fin 2097152) (wr : Option Word) (more : _) (waits : _) (a : BitVec 32) (w : Width) (f : Bool) (d : BitVec 32) (op : _) (target
      : _) (ns : Nat) (c : Instr) (s : State), c ∈ [Instr.scratchpadAccess who o ⟨wr, more, waits⟩, .beaterYield who o wr, .beaterAbortOnAccess who o
      wr, .scratchpadLoad a w f, .scratchpadStore a w d, .scratchpadBitSet a d, .scratchpadBitClear a d, .lr a, .sc a d, .amo op a d, .upset target,
      .powerOnReset, .nrstAssert ns] ∧ MemForm s :=
  ⟨rqCore, 0, some 5, [], 0, 0x10000000, .word, false, 0, .swap, .scratch 0 0, 100, .powerOnReset, live, by simp, ⟨rfl, by decide +kernel⟩⟩

theorem witness_IdcodeWord :
    ∃ (s : State), Live rqSvc s :=
  ⟨live, ⟨rfl, rfl, by decide +kernel⟩⟩

theorem witness_ErrLastSkips :
    (∃ (s : State), Taken s) ∧
    (∃ (p : List Code) (code : Code), p = [0x001, 0x008, 0x009, 0x106, 0x20E, 0x301, 0x303, 0x306, 0x408, 0x5C0, 0x5C1, 0x5C2, 0x5C3, 0x5C4, 0x5C5,
      0x5C6, 0x5C7, 0x5C8, 0x5C9, 0x5CA, 0x5CB, 0x5CC, 0x5CD, 0x5CE, 0x5CF, 0x601, 0x605, 0x606, 0x609, 0x707, 0x708, 0x70A, 0x70C, 0x805, 0x905,
      0xA01] ∧ code ∈ p) ∧
    (∃ (p : List Code) (code : Code) (src : Req) (d : Nat) (s : State), p = [0x001, 0x008, 0x009, 0x106, 0x20E, 0x301, 0x303, 0x306, 0x408, 0x5C0,
      0x5C1, 0x5C2, 0x5C3, 0x5C4, 0x5C5, 0x5C6, 0x5C7, 0x5C8, 0x5C9, 0x5CA, 0x5CB, 0x5CC, 0x5CD, 0x5CE, 0x5CF, 0x601, 0x605, 0x606, 0x609, 0x707,
      0x708, 0x70A, 0x70C, 0x805, 0x905, 0xA01] ∧ code ∉ p ∧ (raise code src d s).evt.ovf = false) ∧
    (∃ (p : List Code) (s : State), p = [0x001, 0x008, 0x009, 0x106, 0x20E, 0x301, 0x303, 0x306, 0x408, 0x5C0, 0x5C1, 0x5C2, 0x5C3, 0x5C4, 0x5C5,
      0x5C6, 0x5C7, 0x5C8, 0x5C9, 0x5CA, 0x5CB, 0x5CC, 0x5CD, 0x5CE, 0x5CF, 0x601, 0x605, 0x606, 0x609, 0x707, 0x708, 0x70A, 0x70C, 0x805, 0x905,
      0xA01] ∧ s.ld.st = .idle ∧ s.scr.beater.running = false) ∧
    (∃ (p : List Code) (s : State), p = [0x001, 0x008, 0x009, 0x106, 0x20E, 0x301, 0x303, 0x306, 0x408, 0x5C0, 0x5C1, 0x5C2, 0x5C3, 0x5C4, 0x5C5,
      0x5C6, 0x5C7, 0x5C8, 0x5C9, 0x5CA, 0x5CB, 0x5CC, 0x5CD, 0x5CE, 0x5CF, 0x601, 0x605, 0x606, 0x609, 0x707, 0x708, 0x70A, 0x70C, 0x805, 0x905,
      0xA01] ∧ s.ld.st ≠ .idle ∧ s.scr.beater.running = false) ∧
    (∃ (p : List Code) (s : State), p = [0x001, 0x008, 0x009, 0x106, 0x20E, 0x301, 0x303, 0x306, 0x408, 0x5C0, 0x5C1, 0x5C2, 0x5C3, 0x5C4, 0x5C5,
      0x5C6, 0x5C7, 0x5C8, 0x5C9, 0x5CA, 0x5CB, 0x5CC, 0x5CD, 0x5CE, 0x5CF, 0x601, 0x605, 0x606, 0x609, 0x707, 0x708, 0x70A, 0x70C, 0x805, 0x905,
      0xA01] ∧ s.scr.beater.running = true) ∧
    (∃ (p : List Code) (l : List (Code × Req × Nat)) (s : State) (t : State), p = [0x001, 0x008, 0x009, 0x106, 0x20E, 0x301, 0x303, 0x306, 0x408,
      0x5C0, 0x5C1, 0x5C2, 0x5C3, 0x5C4, 0x5C5, 0x5C6, 0x5C7, 0x5C8, 0x5C9, 0x5CA, 0x5CB, 0x5CC, 0x5CD, 0x5CE, 0x5CF, 0x601, 0x605, 0x606, 0x609,
      0x707, 0x708, 0x70A, 0x70C, 0x805, 0x905, 0xA01] ∧ (∀ e ∈ l, e.1 ∈ p) ∧ t = forAll l (fun e => raise e.1 e.2.1 e.2.2) s ∧ Taken t ∧
      s.evt.lastErr = 0) :=
  ⟨⟨live, ⟨rfl, rfl, rfl⟩⟩,
    ⟨_, 0xA01, rfl, by decide⟩,
    ⟨_, 0x003, 0, 0, live, rfl, by decide, by decide +kernel⟩,
    ⟨_, live, rfl, by decide +kernel⟩,
    ⟨_, loading { st := .body }, rfl, by decide +kernel⟩,
    ⟨_, beating { running := true }, rfl, by decide +kernel⟩,
    ⟨_, [(0x001, 0, 0), (0xA01, 4, 1)], live, _, rfl, by decide, rfl, ⟨rfl, rfl, rfl⟩, by decide +kernel⟩⟩

theorem witness_PinReport :
    ∃ (s : State) (u : State), Taken s ∧ u = s.count Reg.svcCntLines 35 0 :=
  ⟨live, _, ⟨rfl, rfl, rfl⟩, rfl⟩

theorem witness_DoneOutput :
    (∃ (s : State), doneReleased s = true) ∧
    (∃ (s : State) (w : Word), Taken s ∧ w = s.reg Reg.pwrBootStatus) :=
  ⟨⟨live, by decide +kernel⟩,
    ⟨live, _, ⟨rfl, rfl, rfl⟩, rfl⟩⟩

end Sys2Proof.Tests
end

section
/-! O60: the DONE output (R73), HEALTH while it is released (R456), and the BOOT line of the service port (R444, R446). -/

namespace Sys2Proof.Machine

variable {s : State} {i : SvcLine}

/-! ### DONE and HEALTH -/

theorem doneReleased_iff : doneReleased s = true ↔ s.mode = .run ∨ s.mode = .retain := by
  simp [doneReleased]

/-- In RUN code 3 stands for errors corrected or a region quarantined (R456). -/
theorem healthCode_of_run (h : s.mode = .run) : healthCode s = if s.getB Reg.calStatus 5 || anyQuar s then 3 else 2 := by
  simp [healthCode, h]

theorem healthCode_of_retain (h : s.mode = .retain) : healthCode s = 4 := by
  simp [healthCode, h]

/-- The codes that HEALTH can drive while DONE is released. -/
theorem healthCode_of_doneReleased (h : doneReleased s = true) : healthCode s = 2 ∨ healthCode s = 3 ∨ healthCode s = 4 := by
  obtain hrun | hret := doneReleased_iff.1 h
  · rw [healthCode_of_run hrun]
    split
    · exact .inr (.inl rfl)
    · exact .inl rfl
  · exact .inr (.inr (healthCode_of_retain hret))

/-! ### A line that is handled at once -/

/-- With no command executing, only MARCH can be held back, and only by the Beater in SERVICE. -/
theorem svcWaits_eq_false (hb : svcBusy s = false)
    (hm : ∀ banks ss pre rep, i = .march banks ss pre rep → s.fn .beater = fnOff ∨ s.mode ≠ .service) : svcWaits i s = false := by
  unfold svcWaits
  rw [hb, Bool.false_or]
  split
  next banks ss pre rep =>
    obtain hoff | hmode := hm banks ss pre rep rfl
    · simp [hoff]
    · simp [hmode]
  next => rfl

/-- A line that need not wait is counted and handled at once (R444). -/
theorem svcTake_of_taken (h : Taken s)
    (hm : ∀ banks ss pre rep, i = .march banks ss pre rep → s.fn .beater = fnOff ∨ s.mode ≠ .service) :
    svcTake i s = svcLine i (s.count Reg.svcCntLines 35 0) := by
  obtain ⟨hpor, hbusy, hwaiting⟩ := h
  have hfn : (s.count Reg.svcCntLines 35 0).fn .beater = s.fn .beater := getF_setF_other (by decide)
  have hw : svcWaits i (s.count Reg.svcCntLines 35 0) = false := svcWaits_eq_false hbusy (by rwa [hfn])
  simp [svcTake, hpor, hw, hwaiting]

/-! ### BOOT -/

/-- BOOT replies the fields of PWR.BOOT_STATUS as they stand when the line arrives (R446). -/
theorem exec_svcBoot_of_taken (h : Taken s) :
    exec .svcBoot s = .next (svcReply (.ok (svcBootVals (s.reg Reg.pwrBootStatus))) (s.count Reg.svcCntLines 35 0)) := by
  have hreg : (s.count Reg.svcCntLines 35 0).reg Reg.pwrBootStatus = s.reg Reg.pwrBootStatus := reg_count_other (by decide)
  calc exec .svcBoot s
    _ = .next (svcTake .boot s) := rfl
    _ = .next (svcLine .boot (s.count Reg.svcCntLines 35 0)) := by rw [svcTake_of_taken (i := .boot) h nofun]
    _ = _ := by rw [← hreg]; rfl

/-- Settles O60: DONE follows the mode alone, HEALTH's codes 2 to 4 stand for 300 to 500 mV, and BOOT is a line that nothing holds back. -/
theorem doneOutput : Obligations.DoneOutput := by
  unfold Obligations.DoneOutput
  refine ⟨fun s => doneReleased_iff, fun s h => ?_, ?_⟩
  · obtain hc | hc | hc := healthCode_of_doneReleased h <;> simp [hc]
  · rintro s h w rfl
    exact exec_svcBoot_of_taken h

end Sys2Proof.Machine
end

section
/-! O57: the IDCODE word (R422), and SYS.ID as a read shows it (R57). -/

namespace Sys2Proof.Machine

variable {s : State} {who : Req} {peek : Bool} {a code l hi lo n : Nat}

/-! ### Fields of a word built from a number -/

/-- A field that the word has room for is that field of the number. -/
theorem fld_ofNat {w : Nat} (h : hi < w) : fld (BitVec.ofNat w n) hi lo = (n >>> lo) % 2 ^ (hi + 1 - lo) := by
  apply Nat.eq_of_testBit_eq
  intro i
  rw [fld_testBit, BitVec.toNat_ofNat, Nat.testBit_mod_two_pow, Nat.testBit_mod_two_pow, Nat.testBit_shiftRight]
  by_cases hin : i < hi + 1 - lo
  · have hw : lo + i < w := by omega
    simp [hin, hw]
  · simp [hin]

/-- A number that fits some bits fits every word at least as wide. -/
theorem toNat_ofNat_of_fits {k w : Nat} (hn : n < 2 ^ k) (hk : k ≤ w) : (BitVec.ofNat w n).toNat = n := by
  rw [BitVec.toNat_ofNat]
  exact Nat.mod_eq_of_lt (hn.trans_le (Nat.pow_le_pow_right two_pos hk))

/-! ### Reads of plain registers -/

/-- A plain read answers what the register shows, whether or not it then clears fields (R6). -/
theorem plainRead_data : (plainRead who peek a s).resp.data = regShow s who a := by
  unfold plainRead
  generalize (if readDraws a then s.draw else s) = u
  split
  next => split <;> rfl
  next => rfl

/-- Outside the user window, a read that neither pops anything nor belongs to a buffer's or timer's owner is a plain read. -/
theorem readAct_plain {f : Fam} (hu : isUser a = false) (hf : Fam.at? a = some f) (hp : popRead who peek a = none)
    (hc : periphClaimOf a = none) : readAct who peek a s = plainRead who peek a s := by
  simp [readAct, hu, hf, hp, hc]

/-! ### SYS.ID -/

/-- SYS.ID shows the part's stepping in its STEPPING field, whatever the grades are (R57). -/
theorem sysId_stepping : fld (svcDomShow s who Reg.sysId) 11 8 = Config.stepping.toNat := by
  have hlt : Config.stepping.toNat < 2 ^ 4 := Config.stepping.isLt
  generalize hgrades : 0x1840 <<< 8 ||| speedGrade <<< 4 ||| (if Config.fuseGradeE then 0xE else 0xC) = grades
  have hshow : svcDomShow s who Reg.sysId = wd ((grades <<< 4 ||| Config.stepping.toNat) <<< 8 ||| 1) := by
    simp only [svcDomShow, if_true, ← hgrades, Nat.shiftLeft_or_distrib, ← Nat.shiftLeft_add]
  calc fld (svcDomShow s who Reg.sysId) 11 8
    _ = (((grades <<< 4 ||| Config.stepping.toNat) <<< 8 ||| 1) >>> 8) % 2 ^ 4 := by rw [hshow, wd, fld_ofNat (by decide)]
    _ = (grades <<< 4 + Config.stepping.toNat) % 2 ^ 4 := by
      have hlow : 1 >>> 8 = 0 := rfl
      rw [Nat.shiftRight_or_distrib, Nat.shiftLeft_shiftRight, hlow, Nat.or_zero, Nat.shiftLeft_add_eq_or_of_lt hlt]
    _ = Config.stepping.toNat := by rw [Nat.shiftLeft_eq]; omega

/-- A read of SYS.ID in RUN answers what the register shows; its address pops nothing and has no owner. -/
theorem regRead_sysId (h : Live who s) (hd : who ≠ rqDbg) :
    (regRead who peek Reg.sysId s).resp.data = svcDomShow (begin who s) who Reg.sysId := by
  have hpop : popRead who peek Reg.sysId = none := rfl
  rw [regRead_live h rfl hd, readAct_plain rfl rfl hpop rfl, plainRead_data]
  rfl

/-! ### The TAP -/

/-- An instruction whose level is held comes into force and acts; the pins follow (R421). -/
theorem tap_of_level (op : State → State) (hp : s.boot.porHeld = false) (hc : code < 256) (hl : irLevel code = some l) (hlev : l ≤ dbgLevel s) :
    tap code op s = op (pinsFrom s (setIr code s)) := by
  have hir : (pinsFrom s (setIr code s)).dbg.ir.toNat = code := by
    rw [pinsFrom_rest]
    exact (BitVec.toNat_ofNat code 8).trans (Nat.mod_eq_of_lt hc)
  simp [tap, irSelect, hp, hl, Nat.not_lt.2 hlev, hir]

/-- IDCODE needs no level: with power, the identity word is captured (R421, R422). -/
theorem exec_idcode (hp : s.boot.porHeld = false) :
    exec .idcode s = .next (setCapture (BitVec.ofNat 2160 idcodeOf) (pinsFrom s (setIr 0x01 s))) := by
  rw [← tap_of_level (setCapture (BitVec.ofNat 2160 idcodeOf)) hp (by decide) rfl (Nat.zero_le _)]
  rfl

/-! ### The identity word -/

/-- The stepping stands above the 28 fixed bits. -/
theorem idcodeOf_eq : idcodeOf = Config.stepping.toNat <<< 28 + 0x184056F := by
  have hfixed : 0x184056F < 2 ^ 28 := by decide
  exact (Nat.shiftLeft_add_eq_or_of_lt hfixed Config.stepping.toNat).symm

theorem idcodeOf_lt : idcodeOf < 2 ^ 32 := by
  have hlt : Config.stepping.toNat < 2 ^ 4 := Config.stepping.isLt
  have hval := idcodeOf_eq
  omega

/-- The identity word fits the capture register, which is sized for the boundary. -/
theorem idcode_capture_toNat : (BitVec.ofNat 2160 idcodeOf).toNat = idcodeOf := by
  have hwide : 32 ≤ 2160 := by decide
  exact toNat_ofNat_of_fits idcodeOf_lt hwide

/-- The part number, the vendor code and the marker bit lie below the stepping, so no stepping changes them. -/
theorem idcode_capture_fields : fld (BitVec.ofNat 2160 idcodeOf) 27 12 = 0x1840 ∧
    fld (BitVec.ofNat 2160 idcodeOf) 11 1 = 0x2B7 ∧ fld (BitVec.ofNat 2160 idcodeOf) 0 0 = 1 := by
  rw [fld_ofNat (by decide), fld_ofNat (by decide), fld_ofNat (by decide)]
  have hval := idcodeOf_eq
  omega

/-- Settles O57: both words hold the part's stepping, IDCODE above its fixed bits and SYS.ID in STEPPING. -/
theorem idcodeWord : Obligations.IdcodeWord := by
  unfold Obligations.IdcodeWord
  intro s hlive
  have ⟨_, hpower, _⟩ := hlive
  refine ⟨_, exec_idcode hpower, ?_, idcode_capture_fields⟩
  rw [regRead_sysId hlive (by decide), sysId_stepping]
  exact idcode_capture_toNat

end Sys2Proof.Machine
end

section
/-! O58: ERR LAST (R448). What the event unit keeps of an event (R54, R55), and what a reset leaves (R197, R362). -/

namespace Sys2Proof.Machine

variable {code : Code} {src : Req} {d : Nat} {s t : State}

/-! ### The codes that report progress -/

/-- The codes that R448 lists, in its order. -/
def progressCodes : List Code :=
  [0x001, 0x008, 0x009, 0x106, 0x20E, 0x301, 0x303, 0x306, 0x408, 0x5C0, 0x5C1, 0x5C2, 0x5C3, 0x5C4, 0x5C5, 0x5C6, 0x5C7, 0x5C8,
    0x5C9, 0x5CA, 0x5CB, 0x5CC, 0x5CD, 0x5CE, 0x5CF, 0x601, 0x605, 0x606, 0x609, 0x707, 0x708, 0x70A, 0x70C, 0x805, 0x905, 0xA01]

/-- The model's test, single codes and one range, is membership in R448's list. -/
theorem isProgress_iff : isProgress code = true ↔ code ∈ progressCodes := by
  have hperm : (progressCodes.map BitVec.toNat).Perm
      ([0x001, 0x008, 0x009, 0x106, 0x20E, 0x301, 0x303, 0x306, 0x408, 0x601, 0x605, 0x606, 0x609, 0x707, 0x708, 0x70A,
        0x70C, 0x805, 0x905, 0xA01] ++ List.range' 0x5C0 16) := by decide
  have hinj : Function.Injective (BitVec.toNat (w := 12)) := fun _ _ => BitVec.eq_of_toNat_eq
  have hrange : code.toNat ∈ List.range' 0x5C0 16 ↔ 0x5C0 ≤ code.toNat ∧ code.toNat ≤ 0x5CF := by
    rw [List.mem_range'_1]
    omega
  rw [← List.mem_map_of_injective hinj, hperm.mem_iff, List.mem_append, hrange, isProgress, Bool.or_eq_true, Bool.and_eq_true,
    List.contains_iff_mem, decide_eq_true_iff, decide_eq_true_iff]

/-! ### An event in the event unit -/

/-- The service buffer lost some of its oldest records, and nothing else of the event unit changed. -/
def Drained (s t : State) : Prop := ∃ l, l <:+ s.evt.buf ∧ t.evt = { s.evt with buf := l }

theorem Drained.refl (s : State) : Drained s s := ⟨_, List.suffix_rfl, rfl⟩

theorem Drained.trans {u : State} (h : Drained s t) (k : Drained t u) : Drained s u := by
  obtain ⟨l, hl, hevt⟩ := h
  obtain ⟨l', hl', hevt'⟩ := k
  rw [hevt] at hl' hevt'
  exact ⟨l', hl'.trans hl, hevt'⟩

theorem drainOne_drained (s : State) : Drained s (drainOne s) := by
  unfold drainOne
  split
  next => exact .refl s
  next q qs hbuf =>
    split
    · exact ⟨qs, hbuf ▸ List.suffix_cons q qs, by rw [ringWrite_evt]⟩
    · exact .refl s

theorem drainAll_drained (s : State) : Drained s (drainAll s) := by
  unfold drainAll forAll
  generalize s.evt.buf = todo
  induction todo generalizing s with
  | nil => exact .refl s
  | cons _ _ ih => exact (drainOne_drained s).trans (ih _)

/-- The event of `code` was stored: it is the code that ERR LAST reports, unless R448 skips it. -/
structure StoredBy (code : Code) (s t : State) : Prop where
  ovf : t.evt.ovf = false
  lastErr : t.evt.lastErr = if isProgress code then s.evt.lastErr else code
  buf : t.evt.buf.length ≤ s.evt.buf.length + 1

/-- The event was lost: the service buffer was full. -/
structure LostBy (s t : State) : Prop where
  full : 16 ≤ s.evt.buf.length
  ovf : t.evt.ovf = true
  lastErr : t.evt.lastErr = s.evt.lastErr

/-- An event is written to the ring, buffered, or lost (R54, R55). -/
theorem evtStore_stored_or_lost (code : Code) (src : Req) (d : Nat) (s : State) :
    StoredBy code s (evtStore code src d s) ∨ LostBy s (evtStore code src d s) := by
  unfold evtStore
  dsimp only
  split
  · left
    constructor <;> rw [evtDeliver_evt] <;> simp [evtStored, ringWrite_evt]
  · split
    · left
      constructor <;> rw [evtDeliver_evt] <;> simp [evtStored]
    next hfull => exact .inr ⟨Nat.not_lt.1 hfull, rfl, rfl⟩

/-- What raising an event does with its code: draining the service buffer first can only make room. -/
theorem raise_stored_or_lost (code : Code) (src : Req) (d : Nat) (s : State) :
    StoredBy code s (raise code src d s) ∨ LostBy s (raise code src d s) := by
  unfold raise
  obtain ⟨l, hl, hevt⟩ := drainAll_drained (lastErrField code s)
  rw [lastErrField_evt] at hl hevt
  have hlen := hl.length_le
  obtain ⟨hovf, hlast, hbuf⟩ | ⟨hfull, hovf, hlast⟩ := evtStore_stored_or_lost code src d (drainAll (lastErrField code s))
  · rw [hevt] at hlast hbuf
    exact .inl ⟨hovf, hlast, hbuf.trans (Nat.succ_le_succ hlen)⟩
  · rw [hevt] at hfull hlast
    exact .inr ⟨hfull.trans hlen, hovf, hlast⟩

/-- A code that reports progress leaves ERR LAST as it was, stored or lost. -/
theorem raise_lastErr_of_progress (h : code ∈ progressCodes) : (raise code src d s).evt.lastErr = s.evt.lastErr := by
  obtain hst | hlost := raise_stored_or_lost code src d s
  · rw [hst.lastErr, if_pos (isProgress_iff.2 h)]
  · exact hlost.lastErr

/-- Any other code becomes the one that ERR LAST reports, if its event is stored. -/
theorem raise_lastErr_of_stored (h : code ∉ progressCodes) (hovf : (raise code src d s).evt.ovf = false) :
    (raise code src d s).evt.lastErr = code := by
  obtain hst | hlost := raise_stored_or_lost code src d s
  · rw [hst.lastErr, if_neg (isProgress_iff.not.2 h)]
  · rw [hlost.ovf] at hovf
    contradiction

/-- With room in the service buffer no event is lost (R55). -/
theorem raise_stored_of_room (h : s.evt.buf.length < 16) : StoredBy code s (raise code src d s) := by
  obtain hst | hlost := raise_stored_or_lost code src d s
  · exact hst
  · exact absurd hlost.full (Nat.not_le.2 h)

theorem raise_lastErr_of_room (h : code ∉ progressCodes) (hroom : s.evt.buf.length < 16) : (raise code src d s).evt.lastErr = code :=
  raise_lastErr_of_stored h (raise_stored_of_room hroom).ovf

/-- Progress alone leaves ERR LAST as it was. -/
theorem forAll_raise_lastErr_of_progress {l : List (Code × Req × Nat)} (h : ∀ e ∈ l, e.1 ∈ progressCodes) :
    (forAll l (fun e => raise e.1 e.2.1 e.2.2) s).evt.lastErr = s.evt.lastErr := by
  unfold forAll
  induction l generalizing s with
  | nil => rfl
  | cons e l ih =>
    obtain ⟨he, hl⟩ := List.forall_mem_cons.1 h
    exact (ih hl).trans (raise_lastErr_of_progress he)

/-! ### A reset -/

/-- The registers that a reset keeps are no part of the event unit, which starts anew. -/
theorem keepRegs_keepState_evt (k : RstKind) (s : State) : (keepRegs k s (keepState k s)).evt = {} := by
  obtain ⟨hsame, _⟩ := keepRegs_same k s (keepState k s)
  rw [hsame]
  rfl

/-- A reset's own events: E212 of a stream (R197), E807 of a run of the Beater (R362), and E001, which is skipped. -/
theorem resetTo_lastErr (k : RstKind) (s : State) :
    (resetTo k s).evt.lastErr = if s.scr.beater.running then 0x807 else if s.ld.st = .idle then 0 else 0x212 := by
  have hprog : (0x001 : Code) ∈ progressCodes := by decide
  have hstream : (0x212 : Code) ∉ progressCodes := by decide
  have hbeater : (0x807 : Code) ∉ progressCodes := by decide
  have h0 := keepRegs_keepState_evt k s
  unfold resetTo
  dsimp only
  generalize keepRegs k s (keepState k s) = t0 at h0 ⊢
  have hroom0 : t0.evt.buf.length < 16 := by simp [h0]
  generalize ht1 : (if s.ld.st = .idle then t0 else raise 0x212 0 (3 <<< 3 ||| s.ld.src.toNat) t0) = t1
  have h1 : t1.evt.lastErr = (if s.ld.st = .idle then 0 else 0x212) ∧ t1.evt.buf.length < 16 := by
    rw [← ht1]
    by_cases hidle : s.ld.st = .idle
    · simp [hidle, h0]
    · have hbuf := (raise_stored_of_room (code := 0x212) (src := 0) (d := 3 <<< 3 ||| s.ld.src.toNat) hroom0).buf
      simp only [if_neg hidle]
      refine ⟨raise_lastErr_of_room hstream hroom0, hbuf.trans_lt ?_⟩
      simp [h0]
  obtain ⟨hlast1, hroom1⟩ := h1
  generalize ht2 : (if s.scr.beater.running then raise 0x807 0 (3 <<< 12 ||| lowBank s.scr.beater.active) t1 else t1) = t2
  have hlast2 : t2.evt.lastErr = if s.scr.beater.running then 0x807 else if s.ld.st = .idle then 0 else 0x212 := by
    rw [← ht2]
    split
    · exact raise_lastErr_of_room hbeater hroom1
    · exact hlast1
  split
  · exact hlast2
  · rw [raise_lastErr_of_progress hprog, hlast2]

/-! ### ERR LAST -/

/-- ERR LAST replies the code kept when the line arrives (R448). -/
theorem exec_svcErrLast_of_taken (h : Taken s) :
    exec .svcErrLast s = .next (svcReply (.ok [.code s.evt.lastErr]) (s.count Reg.svcCntLines 35 0)) := by
  calc exec .svcErrLast s
    _ = .next (svcTake .errLast s) := rfl
    _ = .next (svcLine .errLast (s.count Reg.svcCntLines 35 0)) := by rw [svcTake_of_taken (i := .errLast) h nofun]
    _ = _ := rfl

/-- Settles O58: an event's code is kept unless R448 lists it or the event is lost, and a reset's own events find the service buffer empty. -/
theorem errLastSkips : Obligations.ErrLastSkips := by
  unfold Obligations.ErrLastSkips
  refine ⟨fun s => exec_svcErrLast_of_taken, ?_⟩
  rintro p (hp : p = progressCodes)
  subst hp
  refine ⟨fun code h src d s => raise_lastErr_of_progress h, fun code h src d s => raise_lastErr_of_stored h, fun k s => ?_, ?_⟩
  · rw [resetTo_lastErr]
    refine ⟨fun hidle hrun => ?_, fun hld hrun => ?_, fun hrun => if_pos hrun⟩
    · simp [hidle, hrun]
    · simp [hld, hrun]
  · rintro l hl s t hzero rfl htaken
    rw [exec_svcErrLast_of_taken htaken, forAll_raise_lastErr_of_progress hl, hzero]

end Sys2Proof.Machine
end

section
/-! O59: the pin report of the service port (R450). -/

namespace Sys2Proof.Machine

variable {s : State} {i : Nat}

/-- The line count is no pin's configuration. -/
theorem pinFunc_count_lines (h : i < 720) : pinFunc (s.count Reg.svcCntLines 35 0) i = pinFunc s i := by
  have hne : Reg.pinCfg i ≠ Reg.svcCntLines := by
    simp only [Reg.pinCfg, Reg.svcCntLines]
    omega
  exact getF_setF_other hne

/-- A pin line handled at once replies FUNC, OWNER and the pad's level in any mode, and draws the free bit of an undriven pad (R404). -/
theorem exec_svcPin_of_taken (p : Fin 720) (h : Taken s) {u : State} (hu : u = s.count Reg.svcCntLines 35 0) :
    exec (.svcPin p) s = .next (svcReply (.ok [.dec (pinFunc s p.val), .hex 2 (pinOwner u p.val), .dec (pinLevel u p.val).toNat]) u.draw) := by
  subst hu
  calc exec (.svcPin p) s
    _ = .next (svcTake (.pin p) s) := rfl
    _ = .next (svcLine (.pin p) (s.count Reg.svcCntLines 35 0)) := by rw [svcTake_of_taken (i := .pin p) h nofun]
    _ = _ := by rw [← pinFunc_count_lines p.isLt]; rfl

/-- Settles O59: the line is counted and answered, and nothing in its way asks for the mode. -/
theorem pinReport : Obligations.PinReport := by
  unfold Obligations.PinReport
  intro p s h u hu
  refine ⟨_, exec_svcPin_of_taken p h hu, rfl, ?_⟩
  subst hu
  refine ⟨rfl, rfl, rfl, fun a ha => ?_⟩
  have hne : a ≠ Reg.svcCntLines := by simpa using ha
  exact reg_count_other hne

end Sys2Proof.Machine
end

section
/-! O1, O54 and O55: what a step is, and the security store's soundness at reset and through every step (R189, R202). -/

namespace Sys2Proof.Machine

variable {c : Instr} {rest : List Instr} {s z : State}

/-! ### A step -/

/-- A step runs the command at the front of the queue. -/
theorem step_of_cons (h : s.pending = c :: rest) : step s = exec c { s with pending := rest } := by
  simp only [step, h]

/-- A step of an empty queue is a tick. -/
theorem step_of_nil (h : s.pending = []) : step s = .next (tick s) := by
  simp only [step, h]

/-- No meaning of a command ends in a fault or a refusal. -/
theorem exec_completes (c : Instr) (s : State) : ∃ t, exec c s = .next t := by
  cases c <;> exact ⟨_, rfl⟩

/-- Settles O1: a step is `exec` of the front command, and each arm of `exec` answers a next state. -/
theorem stepRunsFront : Obligations.StepRunsFront := by
  unfold Obligations.StepRunsFront
  refine ⟨fun c s => step_of_cons rfl, exec_completes, fun c rest s h => ?_⟩
  obtain ⟨t, ht⟩ := exec_completes c { s with pending := rest }
  exact ⟨t, ht, (step_of_cons h).trans ht⟩

/-! ### The security store -/

/-- Every command keeps the security store sound: the lemma of its arm. -/
theorem exec_secOk (hs : s.sec.ok) (hz : exec c s = .next z) : z.sec.ok :=
  match c with
  | .nrstAssert ns => execNrstAssert_secOk ns _ hs _ hz
  | .nrstRelease pins => execNrstRelease_secOk pins _ hs _ hz
  | .supplyOutOfWindow rail us mv => execSupplyOutOfWindow_secOk rail us mv _ hs _ hz
  | .temperatureSample readings => execTemperatureSample_secOk readings _ hs _ hz
  | .lockedSequenceExpired reg => execLockedSequenceExpired_secOk reg _ hs _ hz
  | .wakePinEdge rising => execWakePinEdge_secOk rising _ hs _ hz
  | .requestPromotedUrgent target asker => execRequestPromotedUrgent_secOk target asker _ hs _ hz
  | .governorGrant waitUs => execGovernorGrant_secOk waitUs _ hs _ hz
  | .softstartComplete ramp => execSoftstartComplete_secOk ramp _ hs _ hz
  | .i3cEnec int hj => execI3cEnec_secOk int hj _ hs _ hz
  | .i3cDisec int hj => execI3cDisec_secOk int hj _ hs _ hz
  | .i3cEntdaa addr won => execI3cEntdaa_secOk addr won _ hs _ hz
  | .i3cSetdasa static addr => execI3cSetdasa_secOk static addr _ hs _ hz
  | .i3cSetnewda addr => execI3cSetnewda_secOk addr _ hs _ hz
  | .i3cSetmwl len => execI3cSetmwl_secOk len _ hs _ hz
  | .i3cSetmrl len => execI3cSetmrl_secOk len _ hs _ hz
  | .i3cRstact action => execI3cRstact_secOk action _ hs _ hz
  | .i3cUnknownCcc direct code => execI3cUnknownCcc_secOk direct code _ hs _ hz
  | .registerWriteTransfer dst bytes => execRegisterWriteTransfer_secOk dst bytes _ hs _ hz
  | .registerReadTransfer dst words => execRegisterReadTransfer_secOk dst words _ hs _ hz
  | .hdrDdrWrite bytes => execHdrDdrWrite_secOk bytes _ hs _ hz
  | .hdrDdrRead words => execHdrDdrRead_secOk words _ hs _ hz
  | .ibiSend acked => execIbiSend_secOk acked _ hs _ hz
  | .registerWrite who addr v => execRegisterWrite_secOk who addr v _ hs _ hz
  | .eventRingEnable who v => execEventRingEnable_secOk who v _ hs _ hz
  | .eventReadAdvance who v => execEventReadAdvance_secOk who v _ hs _ hz
  | .eventPop who peek => execEventPop_secOk who peek _ hs _ hz
  | .ctrlEnable who f v => execCtrlEnable_secOk who f v _ hs _ hz
  | .ctrlDisable who f v => execCtrlDisable_secOk who f v _ hs _ hz
  | .profileWrite who f v => execProfileWrite_secOk who f v _ hs _ hz
  | .expertWrite who addr v => execExpertWrite_secOk who addr v _ hs _ hz
  | .functionStartComplete f => execFunctionStartComplete_secOk f _ hs _ hz
  | .functionStopComplete f => execFunctionStopComplete_secOk f _ hs _ hz
  | .lutramWrite e inp => execLutramWrite_secOk e inp _ hs _ hz
  | .cellShift e inp => execCellShift_secOk e inp _ hs _ hz
  | .ram36Write blk a b => execRam36Write_secOk blk a b _ hs _ hz
  | .ram36Read blk portB port oce orst => execRam36Read_secOk blk portB port oce orst _ hs _ hz
  | .ram36CollClr blk => execRam36CollClr_secOk blk _ hs _ hz
  | .fifoWrite blk inp => execFifoWrite_secOk blk inp _ hs _ hz
  | .fifoRead e => execFifoRead_secOk e _ hs _ hz
  | .fifoRst blk => execFifoRst_secOk blk _ hs _ hz
  | .sharedFifoDataRead who region k peek => execSharedFifoDataRead_secOk who region k peek _ hs _ hz
  | .sharedFifoDataWrite who region k v => execSharedFifoDataWrite_secOk who region k v _ hs _ hz
  | .mac36Accumulate blk second inp => execMac36Accumulate_secOk blk second inp _ hs _ hz
  | .busContentionCount region bus den => execBusContentionCount_secOk region bus den _ hs _ hz
  | .regionReset who region v => execRegionReset_secOk who region v _ hs _ hz
  | .regionResetRelease region => execRegionResetRelease_secOk region _ hs _ hz
  | .regionQuarantineCommand who region v => execRegionQuarantineCommand_secOk who region v _ hs _ hz
  | .logAck who region v => execLogAck_secOk who region v _ hs _ hz
  | .regionLogRead who region peek => execRegionLogRead_secOk who region peek _ hs _ hz
  | .streamSync src who => execStreamSync_secOk src who _ hs _ hz
  | .streamWordRefused src who => execStreamWordRefused_secOk src who _ hs _ hz
  | .streamHeader words => execStreamHeader_secOk words _ hs _ hz
  | .tagSegment words => execTagSegment_secOk words _ hs _ hz
  | .loadSlot who v => execLoadSlot_secOk who v _ hs _ hz
  | .cfgAbort who v => execCfgAbort_secOk who v _ hs _ hz
  | .sdataWrite who v => execSdataWrite_secOk who v _ hs _ hz
  | .rdataRead who peek => execRdataRead_secOk who peek _ hs _ hz
  | .rollAdv who v => execRollAdv_secOk who v _ hs _ hz
  | .keyLoad who v => execKeyLoad_secOk who v _ hs _ hz
  | .zeroize who v => execZeroize_secOk who v _ hs _ hz
  | .krDataWrite who v => execKrDataWrite_secOk who v _ hs _ hz
  | .regionSwap who v => execRegionSwap_secOk who v _ hs _ hz
  | .chipSwap who v => execChipSwap_secOk who v _ hs _ hz
  | .meshSwap who v => execMeshSwap_secOk who v _ hs _ hz
  | .meshCancel who v => execMeshCancel_secOk who v _ hs _ hz
  | .mirror who v => execMirror_secOk who v _ hs _ hz
  | .repreloadComplete region => execRepreloadComplete_secOk region _ hs _ hz
  | .swapAtReceived id coord t => execSwapAtReceived_secOk id coord t _ hs _ hz
  | .voteReceived node id ready null => execVoteReceived_secOk node id ready null _ hs _ hz
  | .goReceived id => execGoReceived_secOk id _ hs _ hz
  | .abortReceived id cause => execAbortReceived_secOk id cause _ hs _ hz
  | .scrubRead lanes => execScrubRead_secOk lanes _ hs _ hz
  | .doubleBitRepair lane => execDoubleBitRepair_secOk lane _ hs _ hz
  | .repairFetch lane => execRepairFetch_secOk lane _ hs _ hz
  | .repairFetchTimeout lane => execRepairFetchTimeout_secOk lane _ hs _ hz
  | .calRestart who v => execCalRestart_secOk who v _ hs _ hz
  | .engineRequestAccept port req => execEngineRequestAccept_secOk port req _ hs _ hz
  | .engineResponseTaken port => execEngineResponseTaken_secOk port _ hs _ hz
  | .lookup slot => execLookup_secOk slot _ hs _ hz
  | .insert slot => execInsert_secOk slot _ hs _ hz
  | .delete slot => execDelete_secOk slot _ hs _ hz
  | .ctxRead slot => execCtxRead_secOk slot _ hs _ hz
  | .ctxWrite slot => execCtxWrite_secOk slot _ hs _ hz
  | .ctxRun slot => execCtxRun_secOk slot _ hs _ hz
  | .lookupRun slot => execLookupRun_secOk slot _ hs _ hz
  | .fence slot => execFence_secOk slot _ hs _ hz
  | .ageScanReport slot who => execAgeScanReport_secOk slot who _ hs _ hz
  | .ageScanStart slot who => execAgeScanStart_secOk slot who _ hs _ hz
  | .ageScanPause slot who => execAgeScanPause_secOk slot who _ hs _ hz
  | .ageScanResume slot who => execAgeScanResume_secOk slot who _ hs _ hz
  | .operationComplete slot => execOperationComplete_secOk slot _ hs _ hz
  | .remoteOperationTimeout slot => execRemoteOperationTimeout_secOk slot _ hs _ hz
  | .enginePatrol m ix => execEnginePatrol_secOk m ix _ hs _ hz
  | .engineVoteFailure credit => execEngineVoteFailure_secOk credit _ hs _ hz
  | .allocWrite who n v => execAllocWrite_secOk who n v _ hs _ hz
  | .wcSegEnWrite who v => execWcSegEnWrite_secOk who v _ hs _ hz
  | .wcEntryWrite who v => execWcEntryWrite_secOk who v _ hs _ hz
  | .wcEntryRead who v => execWcEntryRead_secOk who v _ hs _ hz
  | .kinsInsert who v => execKinsInsert_secOk who v _ hs _ hz
  | .kinsDelete who v => execKinsDelete_secOk who v _ hs _ hz
  | .cmdSubmit who v => execCmdSubmit_secOk who v _ hs _ hz
  | .cmdResponsePop who peek => execCmdResponsePop_secOk who peek _ hs _ hz
  | .meshPortCalibration p ok => execMeshPortCalibration_secOk p ok _ hs _ hz
  | .linkSignalDetect p => execLinkSignalDetect_secOk p _ hs _ hz
  | .linkCdrLock p => execLinkCdrLock_secOk p _ hs _ hz
  | .linkEqDone p => execLinkEqDone_secOk p _ hs _ hz
  | .linkAlignDone p => execLinkAlignDone_secOk p _ hs _ hz
  | .linkParamConfirm p nbrPort nbrWmark => execLinkParamConfirm_secOk p nbrPort nbrWmark _ hs _ hz
  | .linkTrainingTimeout p lanes => execLinkTrainingTimeout_secOk p lanes _ hs _ hz
  | .linkTrainingRetry p => execLinkTrainingRetry_secOk p _ hs _ hz
  | .linkPacketReceived p words => execLinkPacketReceived_secOk p words _ hs _ hz
  | .ack p w => execAck_secOk p w _ hs _ hz
  | .credit p w => execCredit_secOk p w _ hs _ hz
  | .rstart p => execRstart_secOk p _ hs _ hz
  | .replayTimeout p => execReplayTimeout_secOk p _ hs _ hz
  | .linkLoss p cause => execLinkLoss_secOk p cause _ hs _ hz
  | .bye p => execBye_secOk p _ hs _ hz
  | .hello p h => execHello_secOk p h _ hs _ hz
  | .resurvey who v => execResurvey_secOk who v _ hs _ hz
  | .elect p epoch prio wmark dist => execElect_secOk p epoch prio wmark dist _ hs _ hz
  | .echo p epoch entries => execEcho_secOk p epoch entries _ hs _ hz
  | .assign p epoch count entries => execAssign_secOk p epoch count entries _ hs _ hz
  | .lsa p l => execLsa_secOk p l _ hs _ hz
  | .done p epoch diam => execDone_secOk p epoch diam _ hs _ hz
  | .ready p epoch root count diam => execReady_secOk p epoch root count diam _ hs _ hz
  | .join p h links => execJoin_secOk p h links _ hs _ hz
  | .joinAck p addr rootWmark epoch count => execJoinAck_secOk p addr rootWmark epoch count _ hs _ hz
  | .refuse p diam => execRefuse_secOk p diam _ hs _ hz
  | .discoveryNeighbourTimeout p => execDiscoveryNeighbourTimeout_secOk p _ hs _ hz
  | .addrHoldExpiry addr => execAddrHoldExpiry_secOk addr _ hs _ hz
  | .packetForward p pkt => execPacketForward_secOk p pkt _ hs _ hz
  | .rraRead who v => execRraRead_secOk who v _ hs _ hz
  | .rraWrite who v => execRraWrite_secOk who v _ hs _ hz
  | .rraReq src write addr data => execRraReq_secOk src write addr data _ hs _ hz
  | .rraRsp result reason data => execRraRsp_secOk result reason data _ hs _ hz
  | .engReq src sreq stag req => execEngReq_secOk src sreq stag req _ hs _ hz
  | .engRsp sreq stag rsp => execEngRsp_secOk sreq stag rsp _ hs _ hz
  | .imagePush who v => execImagePush_secOk who v _ hs _ hz
  | .imagePushAbort who v => execImagePushAbort_secOk who v _ hs _ hz
  | .imgData src first last abort off words => execImgData_secOk src first last abort off words _ hs _ hz
  | .imgAck consumed => execImgAck_secOk consumed _ hs _ hz
  | .imgResult code => execImgResult_secOk code _ hs _ hz
  | .imgRb words => execImgRb_secOk words _ hs _ hz
  | .streamTxTransfer k data dest last => execStreamTxTransfer_secOk k data dest last _ hs _ hz
  | .user src srcIf dstIf first seq data => execUser_secOk src srcIf dstIf first seq data _ hs _ hz
  | .streamRxTransfer k => execStreamRxTransfer_secOk k _ hs _ hz
  | .timeSyncSend seq => execTimeSyncSend_secOk seq _ hs _ hz
  | .timeSyncRequest p seq => execTimeSyncRequest_secOk p seq _ hs _ hz
  | .timeSyncReply t2 t3 t4 => execTimeSyncReply_secOk t2 t3 t4 _ hs _ hz
  | .timeSet who v => execTimeSet_secOk who v _ hs _ hz
  | .nodeCfgWrite who v => execNodeCfgWrite_secOk who v _ hs _ hz
  | .trapEntry interrupt cause pc tval => execTrapEntry_secOk interrupt cause pc tval _ hs _ hz
  | .doubleFault mcause pc => execDoubleFault_secOk mcause pc _ hs _ hz
  | .wfi pc => execWfi_secOk pc _ hs _ hz
  | .ebreak pc => execEbreak_secOk pc _ hs _ hz
  | .coreInterrupt pc => execCoreInterrupt_secOk pc _ hs _ hz
  | .scratchpadLoad addr w fetch => execScratchpadLoad_secOk addr w fetch _ hs _ hz
  | .scratchpadStore addr w data => execScratchpadStore_secOk addr w data _ hs _ hz
  | .scratchpadBitSet addr data => execScratchpadBitSet_secOk addr data _ hs _ hz
  | .scratchpadBitClear addr data => execScratchpadBitClear_secOk addr data _ hs _ hz
  | .lr addr => execLr_secOk addr _ hs _ hz
  | .sc addr data => execSc_secOk addr data _ hs _ hz
  | .amo op addr data => execAmo_secOk op addr data _ hs _ hz
  | .nibbleWrite addr data => execNibbleWrite_secOk addr data _ hs _ hz
  | .coreRegisterWrite addr w data => execCoreRegisterWrite_secOk addr w data _ hs _ hz
  | .coreRegisterRead addr w => execCoreRegisterRead_secOk addr w _ hs _ hz
  | .nibbleRead addr => execNibbleRead_secOk addr _ hs _ hz
  | .xipFetch addr kind => execXipFetch_secOk addr kind _ hs _ hz
  | .scratchpadAccess who off beat => execScratchpadAccess_secOk who off beat _ hs _ hz
  | .irqTake who peek => execIrqTake_secOk who peek _ hs _ hz
  | .irqDone who v => execIrqDone_secOk who v _ hs _ hz
  | .bankHandover who bank v => execBankHandover_secOk who bank v _ hs _ hz
  | .bankCfgWrite who bank v => execBankCfgWrite_secOk who bank v _ hs _ hz
  | .uartTx who k v => execUartTx_secOk who k v _ hs _ hz
  | .uartRxRead who k peek => execUartRxRead_secOk who k peek _ hs _ hz
  | .uartByteReceived k data parityErr frameErr => execUartByteReceived_secOk k data parityErr frameErr _ hs _ hz
  | .spiTx who k v => execSpiTx_secOk who k v _ hs _ hz
  | .i2cTx who k v => execI2cTx_secOk who k v _ hs _ hz
  | .peripheralTransferComplete k rx nacked => execPeripheralTransferComplete_secOk k rx nacked _ hs _ hz
  | .timerMatch k => execTimerMatch_secOk k _ hs _ hz
  | .timerCapture k => execTimerCapture_secOk k _ hs _ hz
  | .beaterStart who v => execBeaterStart_secOk who v _ hs _ hz
  | .beaterRunComplete fails => execBeaterRunComplete_secOk fails _ hs _ hz
  | .beaterAbort who v => execBeaterAbort_secOk who v _ hs _ hz
  | .beaterYield who off write => execBeaterYield_secOk who off write _ hs _ hz
  | .beaterAbortOnAccess who off write => execBeaterAbortOnAccess_secOk who off write _ hs _ hz
  | .descWrWrite who v => execDescWrWrite_secOk who v _ hs _ hz
  | .cmplRdWrite who v => execCmplRdWrite_secOk who v _ hs _ hz
  | .descriptorDispatch k => execDescriptorDispatch_secOk k _ hs _ hz
  | .flashRead k => execFlashRead_secOk k _ hs _ hz
  | .flashProgram k dieOk => execFlashProgram_secOk k dieOk _ hs _ hz
  | .flashErase k dieOk => execFlashErase_secOk k dieOk _ hs _ hz
  | .flashVerify k => execFlashVerify_secOk k _ hs _ hz
  | .flashBlank k => execFlashBlank_secOk k _ hs _ hz
  | .marginRead k => execMarginRead_secOk k _ hs _ hz
  | .swapBoot k => execSwapBoot_secOk k _ hs _ hz
  | .descriptorComplete k => execDescriptorComplete_secOk k _ hs _ hz
  | .fetchedExpiry bank => execFetchedExpiry_secOk bank _ hs _ hz
  | .flcRecovRead who peek => execFlcRecovRead_secOk who peek _ hs _ hz
  | .parkEnd pin => execParkEnd_secOk pin _ hs _ hz
  | .switchUnmask pin => execSwitchUnmask_secOk pin _ hs _ hz
  | .gpioEdge pin rising => execGpioEdge_secOk pin rising _ hs _ hz
  | .serialiserLock pair locked => execSerialiserLock_secOk pair locked _ hs _ hz
  | .extest dr => execExtest_secOk dr _ hs _ hz
  | .samplePreload dr => execSamplePreload_secOk dr _ hs _ hz
  | .dmi op addr data => execDmi_secOk op addr data _ hs _ hz
  | .bypass code => execBypass_secOk code _ hs _ hz
  | .dbgregUpdate write addr data => execDbgregUpdate_secOk write addr data _ hs _ hz
  | .abstractCommand write regno => execAbstractCommand_secOk write regno _ hs _ hz
  | .systemBusAccess write addr data => execSystemBusAccess_secOk write addr data _ hs _ hz
  | .svcEvtK k => execSvcEvtK_secOk k _ hs _ hz
  | .svcRgn n => execSvcRgn_secOk n _ hs _ hz
  | .svcRd addr peek => execSvcRd_secOk addr peek _ hs _ hz
  | .svcWr addr v => execSvcWr_secOk addr v _ hs _ hz
  | .svcSpRd off => execSvcSpRd_secOk off _ hs _ hz
  | .svcSpWr off v => execSvcSpWr_secOk off v _ hs _ hz
  | .svcPin pin => execSvcPin_secOk pin _ hs _ hz
  | .svcPinHigh pin => execSvcPinHigh_secOk pin _ hs _ hz
  | .svcPinLow pin => execSvcPinLow_secOk pin _ hs _ hz
  | .svcPinZ pin => execSvcPinZ_secOk pin _ hs _ hz
  | .svcPinSquare pin => execSvcPinSquare_secOk pin _ hs _ hz
  | .svcPinRelease pin => execSvcPinRelease_secOk pin _ hs _ hz
  | .svcAuthResponse r => execSvcAuthResponse_secOk r _ hs _ hz
  | .svcService pinHigh => execSvcService_secOk pinHigh _ hs _ hz
  | .svcReboot how => execSvcReboot_secOk how _ hs _ hz
  | .svcBaud n => execSvcBaud_secOk n _ hs _ hz
  | .svcInvalidLine reason => execSvcInvalidLine_secOk reason _ hs _ hz
  | .testFlash bank => execTestFlash_secOk bank _ hs _ hz
  | .testMeshLoop p => execTestMeshLoop_secOk p _ hs _ hz
  | .testMesh p => execTestMesh_secOk p _ hs _ hz
  | .meshTestLoopback p => execMeshTestLoopback_secOk p _ hs _ hz
  | .march bank ss preserve repair => execMarch_secOk bank ss preserve repair _ hs _ hz
  | .testUart k => execTestUart_secOk k _ hs _ hz
  | .testSpi k => execTestSpi_secOk k _ hs _ hz
  | .testI2c k => execTestI2c_secOk k _ hs _ hz
  | .testTmr k => execTestTmr_secOk k _ hs _ hz
  | .selfTestEnd fail => execSelfTestEnd_secOk fail _ hs _ hz
  | .powerOnResetRelease pins busActive => execPowerOnResetRelease_secOk pins busActive _ hs _ hz
  | .phaseMoveComplete line => execPhaseMoveComplete_secOk line _ hs _ hz
  | .delayMoveComplete pin => execDelayMoveComplete_secOk pin _ hs _ hz
  | .overrideMaskEnd pin => execOverrideMaskEnd_secOk pin _ hs _ hz
  | .upset target => execUpset_secOk target _ hs _ hz
  | .rcRead who addr => execRcRead_secOk who addr _ hs _ hz
  | .powerOnReset => execPowerOnReset_secOk _ hs _ hz
  | .powerGood => execPowerGood_secOk _ hs _ hz
  | .rootPllLock => execRootPllLock_secOk _ hs _ hz
  | .svcClockReturnToRoot => execSvcClockReturnToRoot_secOk _ hs _ hz
  | .refclkLost => execRefclkLost_secOk _ hs _ hz
  | .pllLockLost => execPllLockLost_secOk _ hs _ hz
  | .vbattKeyLost => execVbattKeyLost_secOk _ hs _ hz
  | .nsafeAssert => execNsafeAssert_secOk _ hs _ hz
  | .bootBlockSelect => execBootBlockSelect_secOk _ hs _ hz
  | .bootRegionPowerUp => execBootRegionPowerUp_secOk _ hs _ hz
  | .globalRelease => execGlobalRelease_secOk _ hs _ hz
  | .bankOutputEnable => execBankOutputEnable_secOk _ hs _ hz
  | .retainEntryComplete => execRetainEntryComplete_secOk _ hs _ hz
  | .wakeTimerExpiry => execWakeTimerExpiry_secOk _ hs _ hz
  | .vccramWakeTimeout => execVccramWakeTimeout_secOk _ hs _ hz
  | .contextStoreWakeClear => execContextStoreWakeClear_secOk _ hs _ hz
  | .i3cRstdaa => execI3cRstdaa_secOk _ hs _ hz
  | .i3cGetmwl => execI3cGetmwl_secOk _ hs _ hz
  | .i3cGetmrl => execI3cGetmrl_secOk _ hs _ hz
  | .i3cGetpid => execI3cGetpid_secOk _ hs _ hz
  | .i3cGetbcr => execI3cGetbcr_secOk _ hs _ hz
  | .i3cGetdcr => execI3cGetdcr_secOk _ hs _ hz
  | .i3cGetstatus => execI3cGetstatus_secOk _ hs _ hz
  | .i3cGetmxds => execI3cGetmxds_secOk _ hs _ hz
  | .i3cGetcaps => execI3cGetcaps_secOk _ hs _ hz
  | .i3cEnthdr0 => execI3cEnthdr0_secOk _ hs _ hz
  | .hdrExitPattern => execHdrExitPattern_secOk _ hs _ hz
  | .hotJoinRequest => execHotJoinRequest_secOk _ hs _ hz
  | .serviceBufferDrain => execServiceBufferDrain_secOk _ hs _ hz
  | .fcmdComplete => execFcmdComplete_secOk _ hs _ hz
  | .streamStallTimeout => execStreamStallTimeout_secOk _ hs _ hz
  | .rollAdvComplete => execRollAdvComplete_secOk _ hs _ hz
  | .mirrorComplete => execMirrorComplete_secOk _ hs _ hz
  | .swapEdge => execSwapEdge_secOk _ hs _ hz
  | .meshSwapDeadline => execMeshSwapDeadline_secOk _ hs _ hz
  | .meshSwapNoDecision => execMeshSwapNoDecision_secOk _ hs _ hz
  | .readbackRead => execReadbackRead_secOk _ hs _ hz
  | .engineAdmission => execEngineAdmission_secOk _ hs _ hz
  | .lateResponseDiscard => execLateResponseDiscard_secOk _ hs _ hz
  | .stashDrain => execStashDrain_secOk _ hs _ hz
  | .agingSweepStart => execAgingSweepStart_secOk _ hs _ hz
  | .agingVisit => execAgingVisit_secOk _ hs _ hz
  | .engineEventLossReport => execEngineEventLossReport_secOk _ hs _ hz
  | .helloSend => execHelloSend_secOk _ hs _ hz
  | .routeComputationComplete => execRouteComputationComplete_secOk _ hs _ hz
  | .rraTimeout => execRraTimeout_secOk _ hs _ hz
  | .pushTimeout => execPushTimeout_secOk _ hs _ hz
  | .timeSyncMissed => execTimeSyncMissed_secOk _ hs _ hz
  | .mret => execMret_secOk _ hs _ hz
  | .beaterBlockRestart => execBeaterBlockRestart_secOk _ hs _ hz
  | .descriptorFetch => execDescriptorFetch_secOk _ hs _ hz
  | .gapMove => execGapMove_secOk _ hs _ hz
  | .gapMoveComplete => execGapMoveComplete_secOk _ hs _ hz
  | .recoveryCheck => execRecoveryCheck_secOk _ hs _ hz
  | .recoveryErase => execRecoveryErase_secOk _ hs _ hz
  | .tapReset => execTapReset_secOk _ hs _ hz
  | .idcode => execIdcode_secOk _ hs _ hz
  | .clamp => execClamp_secOk _ hs _ hz
  | .highz => execHighz_secOk _ hs _ hz
  | .dtmcs => execDtmcs_secOk _ hs _ hz
  | .haltRequest => execHaltRequest_secOk _ hs _ hz
  | .resumeRequest => execResumeRequest_secOk _ hs _ hz
  | .debuggerDetach => execDebuggerDetach_secOk _ hs _ hz
  | .challengeExpiry => execChallengeExpiry_secOk _ hs _ hz
  | .watchdogExpiry => execWatchdogExpiry_secOk _ hs _ hz
  | .svcId => execSvcId_secOk _ hs _ hz
  | .svcMode => execSvcMode_secOk _ hs _ hz
  | .svcHealth => execSvcHealth_secOk _ hs _ hz
  | .svcFs => execSvcFs_secOk _ hs _ hz
  | .svcErrLast => execSvcErrLast_secOk _ hs _ hz
  | .svcEvtLast => execSvcEvtLast_secOk _ hs _ hz
  | .svcI3c => execSvcI3c_secOk _ hs _ hz
  | .svcBoot => execSvcBoot_secOk _ hs _ hz
  | .svcPwr => execSvcPwr_secOk _ hs _ hz
  | .svcTemp => execSvcTemp_secOk _ hs _ hz
  | .svcCalStat => execSvcCalStat_secOk _ hs _ hz
  | .svcRgnAll => execSvcRgnAll_secOk _ hs _ hz
  | .svcImg => execSvcImg_secOk _ hs _ hz
  | .svcSwap => execSvcSwap_secOk _ hs _ hz
  | .svcRhx => execSvcRhx_secOk _ hs _ hz
  | .svcMesh => execSvcMesh_secOk _ hs _ hz
  | .svcMeshTime => execSvcMeshTime_secOk _ hs _ hz
  | .svcWdt => execSvcWdt_secOk _ hs _ hz
  | .svcAuth => execSvcAuth_secOk _ hs _ hz
  | .svcLogout => execSvcLogout_secOk _ hs _ hz
  | .svcAuthTimeout => execSvcAuthTimeout_secOk _ hs _ hz
  | .svcServiceExit => execSvcServiceExit_secOk _ hs _ hz
  | .svcWake => execSvcWake_secOk _ hs _ hz
  | .svcBaudHoldExpiry => execSvcBaudHoldExpiry_secOk _ hs _ hz
  | .testEngine => execTestEngine_secOk _ hs _ hz
  | .testCal => execTestCal_secOk _ hs _ hz
  | .testWdt => execTestWdt_secOk _ hs _ hz
  | .testClk => execTestClk_secOk _ hs _ hz
  | .selfTestAbort => execSelfTestAbort_secOk _ hs _ hz
  | .vccramRunWindowEntry => execVccramRunWindowEntry_secOk _ hs _ hz
  | .svcRxOvf => execSvcRxOvf_secOk _ hs _ hz
  | .softResetFirstWrite who => execSoftResetFirstWrite_secOk who _ hs _ hz
  | .softResetSecondWrite who => execSoftResetSecondWrite_secOk who _ hs _ hz
  | .retainRequest who => execRetainRequest_secOk who _ hs _ hz
  | .wakeRequest who => execWakeRequest_secOk who _ hs _ hz
  | .clockLineWrite who line v => execClockLineWrite_secOk who line v _ hs _ hz
  | .claim who addr v => execClaim_secOk who addr v _ hs _ hz
  | .release who addr v => execRelease_secOk who addr v _ hs _ hz
  | .timeRead who => execTimeRead_secOk who _ hs _ hz
  | .pinCfgWrite who pin v => execPinCfgWrite_secOk who pin v _ hs _ hz
  | .gpioWrite who pin v => execGpioWrite_secOk who pin v _ hs _ hz
  | .pinDlyWrite who pin v => execPinDlyWrite_secOk who pin v _ hs _ hz
  | .newChal who v => execNewChal_secOk who v _ hs _ hz
  | .check who v => execCheck_secOk who v _ hs _ hz
  | .drop who v => execDrop_secOk who v _ hs _ hz
  | .wdtKickFirst who => execWdtKickFirst_secOk who _ hs _ hz
  | .wdtKickSecond who => execWdtKickSecond_secOk who _ hs _ hz
  | .wdtLock who v => execWdtLock_secOk who v _ hs _ hz
  | .swapEdgeRead who => execSwapEdgeRead_secOk who _ hs _ hz

/-- Settles O55: the queue is no part of the security store, and neither a command nor a tick makes it unsound. -/
theorem securityInvariant : Obligations.SecurityInvariant := by
  unfold Obligations.SecurityInvariant SecInv
  intro s t hs h
  cases hp : s.pending with
  | nil =>
    rw [step_of_nil hp] at h
    obtain rfl := Host.Outcome.next.inj h
    exact tick_secOk s hs
  | cons c rest =>
    rw [step_of_cons hp] at h
    exact exec_secOk (s := { s with pending := rest }) hs h

/-- Settles O54: the key RAM is empty, the thermometer stands at the fuses, and the only memory with entries is the factory's journal. -/
theorem resetSound : Obligations.ResetSound := by
  unfold Obligations.ResetSound
  have hsec : SecInv State.reset := ⟨fun _ => rfl, Nat.le_refl _, nofun⟩
  have hflash : Store.wf (fun _ => flashErased) State.reset.flash.mem = true := by
    change Store.wf (fun _ => flashErased) factoryJournal = true
    decide
  exact ⟨hsec, rfl, hflash⟩

end Sys2Proof.Machine
end

section
/-! What a write of one place of a bank leaves in every place: registers of the kind are held in stores, so a read after a write is `Store.get_set`. -/

namespace Sys2Proof.Machine

variable {c : Instr} {s t : State} {P : State → Prop} {a i j k n : Nat} {α : Type} [DecidableEq α] {d : Nat → α} {m : Store α}

/-- A command runs to the state that `exec` answers. -/
theorem Runs.of_exec (h : exec c s = .next t) (hp : P t) : Runs c s P := ⟨t, h, hp⟩

/-- A command runs to a state that equals what `exec` answers. -/
theorem Runs.of_exec_eq {u : State} (h : exec c s = .next u) (hu : u = t) (hp : P t) : Runs c s P := ⟨t, hu ▸ h, hp⟩

theorem scrStored_set {off : Nat} {x : Option Cell} :
    scrStored { s with scr := { s.scr with mem := Store.set (fun _ => none) s.scr.mem off x } } j = if j = off then x else scrStored s j := Store.get_set

theorem Store.get_upd (f : α → α) : Store.get d (Store.upd d m k f) j = if j = k then f (Store.get d m k) else Store.get d m j := Store.get_set

theorem rg_setRg {r : Region} : (s.setRg n r).rg j = if j = n then r else s.rg j := Store.get_set

@[simp] theorem rg_setRg_same {r : Region} : (s.setRg n r).rg n = r := Store.get_set_same

theorem pn_setPn {p : Pin} : (s.setPn i p).pn j = if j = i then p else s.pn j := Store.get_set

@[simp] theorem pn_setPn_same {p : Pin} : (s.setPn i p).pn i = p := Store.get_set_same

theorem cfgCell_setCfg {x : Cell} : (s.setCfg k x).cfgCell j = if j = k then x else s.cfgCell j := Store.get_set

theorem fa_setFa {x : Cell} : (s.setFa a x).fa j = if j = a then x else s.fa j := Store.get_set

theorem lane_setLane {x : Lane} : (s.setLane n x).lane j = if j = n then x else s.lane j := Store.get_set

theorem engCell_setEng {x : Cell} (m : EngMem) : (s.setEng m k x).engCell m j = if j = k then x else s.engCell m j := by
  cases m <;> exact Store.get_set

theorem engCell_setEng_other {x : Cell} {l m : EngMem} (h : l ≠ m) : (s.setEng m k x).engCell l j = s.engCell l j := by
  revert h
  cases l <;> cases m <;> simp [State.engCell, State.setEng, engCells]

/-! ### An event, seen from a later state -/

/-- What keeps the event unit and EVT_PEND keeps the record of an event. -/
theorem Logged.of_same {code : Code} {src : Req} {n : Nat} {s u t : State} (h : Logged code src n s u) (he : t.evt = u.evt)
    (hp : t.reg Reg.sysEvtPend = u.reg Reg.sysEvtPend) : Logged code src n s t := by
  obtain ⟨hseq, hrec⟩ := h
  unfold Logged State.getB State.getF
  rw [he, hp]
  exact ⟨hseq, hrec⟩

end Sys2Proof.Machine
end

section
/-! O45: upsets (R118, R121, R165, R223, R226, R261, R358, R374). -/

namespace Sys2Proof.Machine

variable {s : State} {k bit : Nat}

/-! ### A configuration word -/

/-- A check bit, or a bit that the Calender's words cover, flips in the word and in its check mask. -/
theorem flipCfg_covered (h : 36 ≤ bit ∨ (keyMask s k).getLsbD bit = false) : flipCfg k bit s = s.setCfg k ((s.cfgCell k).flip bit) := by
  have hc : ¬ (bit < 36 ∧ (keyMask s k).getLsbD bit = true) := by
    rintro ⟨hlt, hmask⟩
    obtain h | h := h
    · omega
    · simp [h] at hmask
  exact if_neg hc

/-- A user-owned LUT bit flips in the data alone, and turns the active cell's parity (R118, R122). -/
theorem flipCfg_user (h : bit < 36) (hm : (keyMask s k).getLsbD bit = true) : ∃ par,
    flipCfg k bit s = { s.setCfg k { s.cfgCell k with data := (s.cfgCell k).data ^^^ (1 <<< bit) } with fab := { (s.setCfg k { s.cfgCell k with data := (s.cfgCell k).data ^^^ (1 <<< bit) }).fab with parErr := par } } ∧
    (keyPlane k ≠ activeOf s (keySeg k) → par = s.fab.parErr) ∧
    (keyPlane k = activeOf s (keySeg k) → par = Store.upd (fun _ => false) s.fab.parErr (keyCell k bit) (fun b => !b)) := by
  have hd : ((s.cfgCell k).flip bit).data = (s.cfgCell k).data ^^^ (1 <<< bit) := if_pos h
  unfold flipCfg
  rw [if_pos ⟨h, hm⟩, hd]
  by_cases hp : keyPlane k = activeOf s (keySeg k)
  · exact ⟨_, if_pos hp, fun hn => absurd hp hn, fun _ => rfl⟩
  · exact ⟨s.fab.parErr, if_neg hp, fun _ => rfl, fun he => absurd he hp⟩

/-! ### Every memory -/

/-- What no upset changes: registers, events, and the units without a memory of their own. -/
structure UpsetFrame (s t : State) : Prop where
  regs : t.regs = s.regs
  evt : t.evt = s.evt
  mode : t.mode = s.mode
  pin : t.pin = s.pin
  mesh : t.mesh = s.mesh
  core : t.core = s.core
  sec : t.sec = s.sec
  boot : t.boot = s.boot
  resp : t.resp = s.resp

theorem flipCfg_frame (k bit : Nat) (s : State) : UpsetFrame s (flipCfg k bit s) := by
  by_cases h : bit < 36 ∧ (keyMask s k).getLsbD bit = true
  · obtain ⟨par, ht, _⟩ := flipCfg_user h.1 h.2
    rw [ht]
    constructor <;> rfl
  · have hc : 36 ≤ bit ∨ (keyMask s k).getLsbD bit = false := by
      rw [not_and_or, Nat.not_lt, Bool.not_eq_true] at h
      exact h
    rw [flipCfg_covered hc]
    constructor <;> rfl

theorem opUpset_frame (at' : UpsetAt) (s : State) : UpsetFrame s (opUpset at' s) := by
  cases at' with
  | config => exact flipCfg_frame _ _ s
  | lut => exact flipCfg_frame _ _ s
  | engine m => cases m <;> constructor <;> rfl
  | ram36 | scratch | flash | calender | golden => constructor <;> rfl

/-- One copy of a golden map bit disagrees, or agrees again (R226). -/
theorem goldBad_flipGold (c : CellAddr) (plane : Bool) (copy : Fin 3) (s : State) :
    ((flipGold c plane copy s).rg c.region.val).goldBad = if (plane, (cellPos c).ix, copy) ∈ (s.rg c.region.val).goldBad
      then (s.rg c.region.val).goldBad.erase (plane, (cellPos c).ix, copy) else (s.rg c.region.val).goldBad ++ [(plane, (cellPos c).ix, copy)] := by
  simp [flipGold]

/-- Settles O45: each upset is one write of its memory's store, and the fields beside that store stand. -/
theorem upsets : Obligations.Upsets := by
  unfold Obligations.Upsets
  refine ⟨fun at' s => ?frame, ?config, ?ram36, ?scratch, ?engine, ?flash, ?calender, ?golden, fun c bit s k hk => by rw [hk]; rfl⟩
  case frame =>
    have h := opUpset_frame at' s
    exact .of_exec rfl ⟨h.regs, h.evt, h.mode, h.pin, h.mesh, h.core, h.sec, h.boot, h.resp⟩
  case config =>
    rintro shadow seg col minor fword bit s k rfl
    refine ⟨fun h => .of_exec_eq rfl (flipCfg_covered h) ⟨?_, fun j hj => ?_, rfl, rfl⟩, fun hlt hm => ?_⟩
    · rw [cfgCell_setCfg, if_pos rfl]
    · rw [cfgCell_setCfg, if_neg hj]
    · obtain ⟨par, ht, hshadow, hactive⟩ := flipCfg_user hlt hm
      refine .of_exec_eq rfl ht ⟨cfgCell_setCfg.trans (if_pos rfl), fun j hj => cfgCell_setCfg.trans (if_neg hj), hshadow, fun he => ?_⟩
      rw [hactive he, Store.get_upd, if_pos rfl]
  case ram36 =>
    rintro b w bit s k rfl
    refine .of_exec rfl ⟨?_, by simp [opUpset, flipRam, Store.get_upd], fun j hj => ⟨?_, by simp [opUpset, flipRam, Store.get_upd, hj]⟩⟩
    · by_cases hb : bit.val < 36 <;> simp [opUpset, flipRam, Store.get_upd, hb]
    · by_cases hb : bit.val < 36 <;> simp [opUpset, flipRam, Store.get_upd, hb, hj]
  case scratch =>
    exact fun off bit s => .of_exec rfl ⟨scrStored_set.trans (if_pos rfl), fun j hj => scrStored_set.trans (if_neg hj)⟩
  case engine =>
    refine fun m ix bit s => .of_exec rfl ⟨(engCell_setEng m).trans (if_pos rfl), fun n j h => ?_⟩
    by_cases hn : n = m
    · subst hn
      exact (engCell_setEng n).trans (if_neg (h.resolve_left (· rfl)))
    · exact engCell_setEng_other hn
  case flash =>
    exact fun fa bit s => .of_exec rfl ⟨fa_setFa.trans (if_pos rfl), fun j hj => fa_setFa.trans (if_neg hj)⟩
  case calender =>
    exact fun lane engineB copy bit s => .of_exec rfl ⟨lane_setLane.trans (if_pos rfl), fun j hj => lane_setLane.trans (if_neg hj)⟩
  case golden =>
    rintro shadow c copy s e rfl
    refine .of_exec rfl ⟨fun h => (goldBad_flipGold ..).trans (if_neg h), fun h => (goldBad_flipGold ..).trans (if_pos h), fun j hj => rg_setRg.trans (if_neg hj)⟩

end Sys2Proof.Machine
end

section
/-! O56: scratchpad accesses, upsets, events and hardware resets keep the memories in canonical form. -/

namespace Sys2Proof.Machine

variable {s : State} {who : Req} {addr : BitVec 32}

/-! ### Accesses of a master -/

theorem ite_memForm {c : Prop} [Decidable c] {t u : State} (ht : MemForm t) (hu : MemForm u) : MemForm (if c then t else u) := by
  split
  · exact ht
  · exact hu

theorem begin_memForm (who : Req) (h : MemForm s) : MemForm (begin who s) := h.of rfl rfl

theorem opScratch_memForm (who : Req) (off : Nat) (write : Option Word) (h : MemForm s) : MemForm (opScratch who off write s) := by
  have hb := begin_memForm who h
  cases write with
  | none => exact ite_memForm (scrRead_memForm who off hb) hb
  | some v => exact ite_memForm (scrWrite_memForm who off v hb) hb

theorem scrFetch_answer_memForm (off : Nat) (who : Req) (h : MemForm s) : MemForm (scrFetch off who answer s) :=
  scrFetch_memForm off who answer (fun w _ => answer_memForm w) h

theorem beatWord_memForm (who : Req) (off : Nat) (h : MemForm s) : MemForm (beatWord who off s) :=
  (scrFetch_answer_memForm off who (s := { s with resp := { s.resp with data := 0 } }) (h.of rfl rfl)).of rfl rfl

theorem opBeat_memForm (who : Req) (off : Nat) (write : Option Word) (more : List Word) (h : MemForm s) : MemForm (opBeat who off write more s) := by
  have hb := begin_memForm who h
  cases write with
  | none =>
    refine ite_memForm (scrGate_memForm who off false _ (fun u hu => ?_) hb) hb
    exact forAll_memForm _ _ (fun e _ => beatWord_memForm who e.2) (scrFetch_answer_memForm off who hu)
  | some v =>
    refine ite_memForm (scrGate_memForm who off true _ (fun u hu => ?_) hb) hb
    exact forAll_memForm _ _ (fun e _ => scrPut_memForm e.2 e.1) (scrPut_memForm off v hu)

theorem beatWaited_memForm (who : Req) (waits : Nat) (h : MemForm s) : MemForm (beatWaited who waits s) := by
  unfold beatWaited
  split
  · exact setF_memForm _ _ _ _ h
  · exact h

/-! ### Accesses of the core -/

theorem coreExc_memForm (cause : Nat) (addr : BitVec 32) (h : MemForm s) : MemForm (coreExc cause addr s) := h.of rfl rfl

theorem coreAnswer_memForm (cause : Nat) (addr : BitVec 32) (f : Word → BitVec 32) (h : MemForm s) : MemForm (coreAnswer cause addr f s) :=
  ite_memForm (coreExc_memForm cause addr h) (h.of rfl rfl)

theorem coreRead_memForm (off : Nat) (h : MemForm s) : MemForm (scrRead rqCore off (begin rqCore s)) :=
  scrRead_memForm rqCore off (begin_memForm rqCore h)

theorem coreMerge_memForm (addr : BitVec 32) (f : Word → Word) (h : MemForm s) : MemForm (coreMerge addr f s) :=
  have hm := scrMerge_memForm rqCore (scrOff addr) f (begin_memForm rqCore h)
  ite_memForm (coreExc_memForm 7 addr hm) hm

theorem opScrLoad_memForm (addr : BitVec 32) (w : Width) (fetch : Bool) (h : MemForm s) : MemForm (opScrLoad addr w fetch s) := by
  refine ite_memForm h (ite_memForm (coreExc_memForm _ _ h) ?_)
  split
  · exact coreExc_memForm _ _ h
  · have hr := coreRead_memForm (scrOff addr) h
    exact ite_memForm (coreExc_memForm _ _ h) (ite_memForm (coreExc_memForm _ _ hr) (coreAnswer_memForm _ _ _ hr))

theorem opScrStore_memForm (addr : BitVec 32) (w : Width) (data : BitVec 32) (h : MemForm s) : MemForm (opScrStore addr w data s) := by
  refine ite_memForm h (ite_memForm (coreExc_memForm _ _ h) ?_)
  split
  iterate 4 exact coreMerge_memForm addr _ h
  exact coreExc_memForm _ _ h

theorem opLr_memForm (addr : BitVec 32) (h : MemForm s) : MemForm (opLr addr s) := by
  refine ite_memForm h (ite_memForm (coreExc_memForm _ _ h) ?_)
  split
  · have ha := coreAnswer_memForm 5 addr low32 (coreRead_memForm (scrOff addr) h)
    exact ite_memForm ha (ha.of rfl rfl)
  · exact coreExc_memForm _ _ h

theorem opSc_memForm (addr data : BitVec 32) (h : MemForm s) : MemForm (opSc addr data s) := by
  refine ite_memForm h (ite_memForm (coreExc_memForm _ _ h) ?_)
  split
  · exact ite_memForm ((coreMerge_memForm addr _ h).of rfl rfl) (h.of rfl rfl)
  · exact coreExc_memForm _ _ h

theorem opAmo_memForm (op : AmoOp) (addr data : BitVec 32) (h : MemForm s) : MemForm (opAmo op addr data s) := by
  refine ite_memForm h (ite_memForm (coreExc_memForm _ _ h) ?_)
  split
  · exact coreAnswer_memForm _ _ _ (scrMerge_memForm rqCore (scrOff addr) _ (begin_memForm rqCore h))
  · exact coreExc_memForm _ _ h

/-! ### Upsets -/

theorem setCfg_memForm (k : Nat) (c : Cell) (h : MemForm s) : MemForm (s.setCfg k c) := h.of rfl rfl

theorem flipCfg_memForm (k bit : Nat) (h : MemForm s) : MemForm (flipCfg k bit s) :=
  have hc := setCfg_memForm k _ h
  ite_memForm (ite_memForm (hc.of rfl rfl) hc) (setCfg_memForm _ _ h)

theorem flipScr_memForm (off bit : Nat) (h : MemForm s) : MemForm (flipScr off bit s) := by
  obtain ⟨hscr, hflash⟩ := h
  have hset := Store.wf_set (k := off) (v := some ((scrCell s off).flip bit)) hscr
  exact ⟨hset, hflash⟩

theorem setEng_memForm (m : EngMem) (ix : Nat) (c : Cell) (h : MemForm s) : MemForm (s.setEng m ix c) := by
  cases m <;> exact h.of rfl rfl

theorem opUpset_memForm (at' : UpsetAt) (h : MemForm s) : MemForm (opUpset at' s) := by
  cases at' with
  | config => exact flipCfg_memForm _ _ h
  | lut => exact flipCfg_memForm _ _ h
  | scratch off bit => exact flipScr_memForm off.val bit.val h
  | flash fa bit => exact setFa_memForm fa.toNat _ h
  | engine m ix bit => exact setEng_memForm m ix _ h
  | ram36 | calender | golden => exact h.of rfl rfl

/-! ### Hardware resets -/

theorem powerFail_memForm (h : MemForm s) : MemForm (powerFail s) := (resetTo_memForm .power h).of rfl rfl

/-- A pulse that is taken resets; one that is not leaves the memories alone. -/
theorem execNrstAssert_memForm (ns : Nat) (h : MemForm s) : Runs (.nrstAssert ns) s MemForm := by
  have hd : MemForm (if ns < 1000 then s.draw else s) := ite_memForm (draw_memForm h) h
  refine .of_exec rfl (ite_memForm h (ite_memForm ?_ hd))
  exact setReg_memForm _ _ ((resetTo_memForm .nrst hd).of rfl rfl)

/-- Settles O56: each operation writes the memories through `Store.set` and `Store.keep` alone. -/
theorem memoryForm : Obligations.MemoryForm := by
  unfold Obligations.MemoryForm
  refine ⟨fun code src d s => raise_memForm code src d, fun who o wr more waits a w f d op target ns c hc s h => ?_⟩
  simp only [List.mem_cons, List.not_mem_nil, or_false] at hc
  obtain rfl | rfl | rfl | rfl | rfl | rfl | rfl | rfl | rfl | rfl | rfl | rfl | rfl := hc
  · exact .of_exec rfl (opBeat_memForm who o wr more (ite_memForm h (beatWaited_memForm who waits h)))
  · exact .of_exec rfl (opScratch_memForm who o wr h)
  · exact .of_exec rfl (opScratch_memForm who o wr h)
  · exact .of_exec rfl (opScrLoad_memForm a w f h)
  · exact .of_exec rfl (opScrStore_memForm a w d h)
  · exact .of_exec rfl (opScrStore_memForm a .word d h)
  · exact .of_exec rfl (opScrStore_memForm a .word d h)
  · exact .of_exec rfl (opLr_memForm a h)
  · exact .of_exec rfl (opSc_memForm a d h)
  · exact .of_exec rfl (opAmo_memForm op a d h)
  · exact .of_exec rfl (opUpset_memForm target h)
  · exact .of_exec rfl (powerFail_memForm h)
  · exact execNrstAssert_memForm ns h

end Sys2Proof.Machine
end

section
/-! O2 and O6: power-on reset, nRST, POWER_GOOD, and the soft reset's locked sequence (R65, R67, R76, R81 to R83, R432). -/

namespace Sys2Proof.Machine

variable {s : State} {who m : Req} {ns : Nat}

/-! ### nSAFE, SVC_MODE and time zero -/

/-- With nSAFE high nothing fires. -/
theorem nsafeRearm_of_high (h : s.boot.nsafeLow = false) : nsafeRearm s = s := if_neg (by simp [h])

/-- Before POWER_GOOD the trigger is not armed. -/
theorem nsafeRearm_of_unpowered (h : s.boot.powerGood = false) : nsafeRearm s = s := if_neg (by simp [h])

/-- With nSAFE low and the trigger armed the part enters FAILSAFE (R65). -/
theorem nsafeRearm_mode (hl : s.boot.nsafeLow = true) (hp : s.boot.powerGood = true) (hn : s.boot.nrstLow = false) :
    (nsafeRearm s).mode = .failsafe := by
  have harmed : s.boot.nsafeLow = true ∧ s.boot.powerGood = true ∧ ¬ s.boot.nrstLow = true := ⟨hl, hp, by simp [hn]⟩
  rw [nsafeRearm, if_pos harmed]
  exact failsafe_mode hn

/-- Time zero needs both POWER_GOOD and nRST high, and passes once (R67). -/
theorem timeZeroAt_of_ready (hp : s.boot.powerGood = true) (hn : s.boot.nrstLow = false) (hz : s.boot.timeZero = false) :
    timeZeroAt s = { s with boot := { s.boot with timeZero := true, t0 := s.evt.time } } := if_pos (by simp [hp, hn, hz])

theorem timeZeroAt_of_unpowered (hp : s.boot.powerGood = false) : timeZeroAt s = s := if_neg (by simp [hp])

/-- Time zero moves nothing that nSAFE's trigger looks at. -/
theorem timeZeroAt_boot (s : State) : ∃ z t, (timeZeroAt s).boot = { s.boot with timeZero := z, t0 := t } := by
  unfold timeZeroAt
  split
  · exact ⟨true, s.evt.time, rfl⟩
  · exact ⟨s.boot.timeZero, s.boot.t0, rfl⟩

/-- Time zero and nSAFE's trigger together, where nSAFE is low. -/
theorem nsafeRearm_timeZeroAt_mode (hl : s.boot.nsafeLow = true) (hp : s.boot.powerGood = true) (hn : s.boot.nrstLow = false) :
    (nsafeRearm (timeZeroAt s)).mode = .failsafe := by
  obtain ⟨z, t, hb⟩ := timeZeroAt_boot s
  exact nsafeRearm_mode (by rw [hb]; exact hl) (by rw [hb]; exact hp) (by rw [hb]; exact hn)

/-! ### nRST -/

theorem exec_nrstAssert_short (h : ns < 100) : exec (.nrstAssert ns) s = .next s :=
  congrArg Host.Outcome.next (if_pos (Or.inr h))

/-- A pulse of 1 us or longer is a reset whose cause is 1 (R82, R85). -/
theorem exec_nrstAssert_long (hp : s.boot.porHeld = false) (h : 1000 ≤ ns) : exec (.nrstAssert ns) s =
    .next (State.setReg { resetTo .nrst s with boot := { (resetTo .nrst s).boot with nrstLow := true } } Reg.pwrResetCause 1) := by
  have hheard : ¬ (s.boot.porHeld = true ∨ ns < 100) := by simp [hp]; omega
  have htook : (decide (1000 ≤ ns) || Config.nrstTaken s.free) = true := by simp [h]
  calc exec (.nrstAssert ns) s
    _ = execNrstAssert ns s := rfl
    _ = _ := by simp only [execNrstAssert, if_neg hheard, if_neg (Nat.not_lt.2 h), htook, if_true]

theorem exec_nrstRelease_low (pins : ResetPins) (h : s.boot.nrstLow = true) : exec (.nrstRelease pins) s = .next
    (nsafeRearm (timeZeroAt (sampleStrap pins.svcMode { s with boot := { s.boot with nrstLow := false, nsafeLow := pins.nsafe } }))) :=
  congrArg Host.Outcome.next (if_pos h)

theorem exec_nrstRelease_high (pins : ResetPins) (h : s.boot.nrstLow = false) : exec (.nrstRelease pins) s = .next s :=
  congrArg Host.Outcome.next (if_neg (by simp [h]))

/-! ### POWER_GOOD -/

/-- RAIL_OK as POWER_GOOD leaves it: every rail in its window, VBATT as it was (R67). -/
def railsGood (s : State) : State := s.setF Reg.pwrRailOk 21 0 (0x3FFFFF - 0x40 + 0x40 * s.getF Reg.pwrRailOk 6 6)

theorem exec_powerGood (hp : s.boot.porHeld = false) : exec .powerGood s = .next
    (nsafeRearm (timeZeroAt { railsGood s with boot := { s.boot with powerGood := true } })) :=
  congrArg Host.Outcome.next (if_neg (by simp [hp]))

/-- The rails' pattern has every bit of a rail but VBATT's own. -/
theorem railPattern_testBit {v : Nat} (hv : v < 2) {k : Nat} (hk : k < 22) : (0x3FFFFF - 0x40 + 0x40 * v).testBit k = if k = 6 then decide (v = 1) else true := by
  interval_cases v <;> interval_cases k <;> decide

theorem getB_railsGood {k : Nat} (hk : k < 22) : (railsGood s).getB Reg.pwrRailOk k = if k = 6 then s.getB Reg.pwrRailOk 6 else true := by
  have hv : s.getF Reg.pwrRailOk 6 6 < 2 := fld_lt _
  have hin : 0 ≤ k ∧ k ≤ 21 := by omega
  rw [railsGood, getB_setF (by decide), if_pos hin, Nat.sub_zero, railPattern_testBit hv hk]
  rfl

/-! ### What a reset keeps of the boot state -/

theorem EvtOnly.boot {s t : State} (h : EvtOnly s t) : t.boot = s.boot := by
  rw [h.rest]

theorem EvtOnly.mode {s t : State} (h : EvtOnly s t) : t.mode = s.mode := by
  rw [h.rest]

theorem SameButRegs.boot {s t : State} (h : SameButRegs s t) : t.boot = s.boot := by
  unfold SameButRegs at h
  rw [h]

/-- Raising the reset's events leaves the boot state (R81). -/
theorem resetTo_boot (k : RstKind) (s : State) : (resetTo k s).boot = (keepState k s).boot := by
  obtain ⟨hsame, -⟩ := keepRegs_same k s (keepState k s)
  exact (resetTo_after k s).boot.trans hsame.boot

theorem resetTo_mode (k : RstKind) (s : State) : (resetTo k s).mode = .inert := by
  exact (resetTo_after k s).mode.trans (keepRegs_afterReset k s).mode

/-- A soft reset of a part with its rails good keeps POWER_GOOD (R81). -/
theorem resetTo_soft_powerGood (h : s.boot.powerGood = true) (hr : s.getF Reg.pwrRailOk 21 0 = 0x3FFFFF - 0x40 + 0x40 * s.getF Reg.pwrRailOk 6 6) :
    (resetTo .soft s).boot.powerGood = true := by
  simp [resetTo_boot, keepState, h, hr]

/-- The soft reset but for nSAFE's trigger: the cause with its requester, and SVC_MODE sampled (R83, R85). -/
def softResetTo (who : Req) (s : State) : State :=
  let t := resetTo .soft s
  let zero := t.boot.powerGood && !t.boot.nrstLow
  sampleStrap t.boot.svcModePin (State.setReg { t with boot := { t.boot with softBy := some who, toService := false, timeZero := zero } }
    Reg.pwrResetCause (wd (who.toNat <<< 8 ||| 2)))

theorem softReset_request (who : Req) (s : State) : softReset who 2 false s = nsafeRearm (softResetTo who s) := by
  simp [softReset, softResetTo]

theorem softReset_mode_of_low (hl : s.boot.nsafeLow = true) (hp : s.boot.powerGood = true)
    (hr : s.getF Reg.pwrRailOk 21 0 = 0x3FFFFF - 0x40 + 0x40 * s.getF Reg.pwrRailOk 6 6) (hn : s.boot.nrstLow = false) :
    (softReset who 2 false s).mode = .failsafe := by
  have hnsafe : (resetTo .soft s).boot.nsafeLow = true := by rw [resetTo_boot]; exact hl
  have hnrst : (resetTo .soft s).boot.nrstLow = false := by rw [resetTo_boot]; exact hn
  rw [softReset_request]
  exact nsafeRearm_mode hnsafe (resetTo_soft_powerGood hp hr) hnrst

theorem softReset_of_high (h : s.boot.nsafeLow = false) : softReset who 2 false s = softResetTo who s := by
  have hnsafe : (resetTo .soft s).boot.nsafeLow = false := by rw [resetTo_boot]; exact h
  rw [softReset_request]
  exact nsafeRearm_of_high hnsafe

theorem softResetTo_cause (who : Req) (s : State) : (softResetTo who s).reg Reg.pwrResetCause = wd (who.toNat <<< 8 ||| 2) :=
  (reg_setB_other (by decide)).trans reg_setReg_same

theorem softResetTo_regs (who : Req) (s : State) : KeepRegs [Reg.pwrResetCause, Reg.sysMode] (resetTo .soft s) (softResetTo who s) := by
  intro a ha
  simp only [List.mem_cons, List.not_mem_nil, or_false, not_or] at ha
  obtain ⟨hcause, hmode⟩ := ha
  exact (reg_setB_other hmode).trans (reg_setReg_other hcause)

/-! ### PWR.MODE_REQ -/

/-- The first write of the locked sequence makes the writer's live; another master's is cancelled (R83, R432). -/
theorem opModeReq_first {v : Word} (who : Req) (s : State) (hreq : fld v 3 0 = 3) (hkey : fld v 35 24 = 0x6D1) : opModeReq who v s =
    { seqEnd Reg.pwrModeReq s.boot.seqMode who true s with boot := { (seqEnd Reg.pwrModeReq s.boot.seqMode who true s).boot with seqMode := some who } } := by
  simp [opModeReq, hreq, hkey]

/-- The second write of the owner of a live sequence resets the part (R83). -/
theorem opModeReq_second {v : Word} (hreq : fld v 3 0 = 3) (hkey : fld v 35 24 = 0x92E) (h : s.boot.seqMode = some who) : opModeReq who v s =
    softReset who 2 false { s with boot := { s.boot with seqMode := none } } := by
  simp [opModeReq, hreq, hkey, h]

/-- A second write without a first is refused with reason 6 (R86). -/
theorem opModeReq_second_alone {v : Word} (hreq : fld v 3 0 = 3) (hkey : fld v 35 24 = 0x92E) (h : s.boot.seqMode = none) : opModeReq who v s =
    raise 0x003 0 (6 <<< 8 ||| 3) { s with boot := { s.boot with seqMode := none } } := by
  simp [opModeReq, hreq, hkey, h, seqEnd, modeRefuse]

/-- What a request for RETAIN does once it has ended any live sequence: it is refused, or entry begins (R77). -/
def retainAsk (s : State) : State :=
  match retainReason s 0x6D1 with
  | some r => modeRefuse 1 r false s
  | none => retainAccept s

/-- What a request for a wake does once it has ended any live sequence (R79). -/
def wakeAsk (who : Req) (s : State) : State :=
  if s.mode ≠ .retain ∧ s.boot.retain ≠ .entering then modeRefuse 2 1 false s
  else if wakeAllowed s who then wakeEvent .register s else modeRefuse 2 8 false s

/-- A write that ends any live sequence (R83, R432). -/
def seqClear (who : Req) (s : State) : State :=
  let t := seqEnd Reg.pwrModeReq s.boot.seqMode who false s
  { t with boot := { t.boot with seqMode := none } }

theorem opModeReq_retain {v : Word} (who : Req) (s : State) (hreq : fld v 3 0 = 1) (hkey : fld v 35 24 = 0x6D1) : opModeReq who v s = retainAsk (seqClear who s) := by
  simp [opModeReq, hreq, hkey, retainAsk, seqClear] <;> rfl

theorem opModeReq_wake {v : Word} (who : Req) (s : State) (hreq : fld v 3 0 = 2) : opModeReq who v s = wakeAsk who (seqClear who s) := by
  simp [opModeReq, hreq, wakeAsk, seqClear]

theorem seqClear_of_none (h : s.boot.seqMode = none) : seqClear who s = s := by
  simp only [seqClear, seqEnd, h]
  rw [← h]

/-! ### A request of the writer's own ends its sequence -/

@[simp] theorem wakeRamp_boot (s : State) : (wakeRamp s).boot = { s.boot with retain := .exitRamp } := by simp [wakeRamp]

theorem wakeStart_seqMode (src : WakeSrc) (s : State) : (wakeStart src s).boot.seqMode = s.boot.seqMode := by
  simp only [wakeStart]
  split <;> simp

theorem wakeEvent_seqMode (src : WakeSrc) (s : State) : (wakeEvent src s).boot.seqMode = s.boot.seqMode := by
  unfold wakeEvent
  split
  · rfl
  · split
    · exact wakeStart_seqMode src s
    · rfl

@[simp] theorem modeRefuse_boot (req reason : Nat) (svc : Bool) (s : State) : (modeRefuse req reason svc s).boot = s.boot := raise_boot ..

theorem retainAsk_seqMode (s : State) : (retainAsk s).boot.seqMode = s.boot.seqMode := by
  unfold retainAsk
  split <;> simp [retainAccept]

theorem wakeAsk_seqMode (who : Req) (s : State) : (wakeAsk who s).boot.seqMode = s.boot.seqMode := by
  unfold wakeAsk
  split
  · rw [modeRefuse_boot]
  · split
    · exact wakeEvent_seqMode .register s
    · rw [modeRefuse_boot]

/-- Settles O2: the reset lemmas say what is left; nSAFE is looked at once more where POWER_GOOD or the release of nRST arms its trigger. -/
theorem resetPinsAct : Obligations.ResetPinsAct := by
  unfold Obligations.ResetPinsAct
  refine ⟨fun s => .of_exec rfl (powerFail_after s), fun m n b s h => congrArg Host.Outcome.next (if_pos h), fun ns s hp hns => ?reset, fun ns s => exec_nrstAssert_short,
    fun m s hl hg hz => ?zero, fun m n s hl hg => ?early, fun m s hl hg => ?safe, fun m n s => exec_nrstRelease_high ⟨m, n⟩, fun s hp hn hl => ?good_low, fun s hp hn hl hz => ?good⟩
  case reset => exact .of_exec (exec_nrstAssert_long hp hns) ⟨_, _, keepRegs_afterReset .nrst s, resetTo_after .nrst s, rfl⟩
  case zero =>
    rw [exec_nrstRelease_low _ hl, timeZeroAt_of_ready, nsafeRearm_of_high]
    · rfl
    · rfl
    · exact hg
    · rfl
    · exact hz
  case early =>
    rw [exec_nrstRelease_low _ hl, timeZeroAt_of_unpowered, nsafeRearm_of_unpowered]
    · rfl
    · exact hg
    · exact hg
  case safe => exact .of_exec (exec_nrstRelease_low _ hl) (nsafeRearm_timeZeroAt_mode rfl hg rfl)
  case good_low => exact .of_exec (exec_powerGood hp) (nsafeRearm_timeZeroAt_mode hl rfl hn)
  case good =>
    have hzero : timeZeroAt { railsGood s with boot := { s.boot with powerGood := true } } =
        { railsGood s with boot := { s.boot with powerGood := true, timeZero := true, t0 := s.evt.time } } := timeZeroAt_of_ready rfl hn hz
    have hhigh : nsafeRearm { railsGood s with boot := { s.boot with powerGood := true, timeZero := true, t0 := s.evt.time } } =
        { railsGood s with boot := { s.boot with powerGood := true, timeZero := true, t0 := s.evt.time } } := nsafeRearm_of_high hl
    refine .of_exec_eq (exec_powerGood hp) ((congrArg nsafeRearm hzero).trans hhigh) ⟨rfl, fun k hk hne => ?_, ?_, fun a ha => ?_⟩
    · exact (getB_railsGood hk).trans (if_neg hne)
    · exact (getB_railsGood (by decide)).trans (if_pos rfl)
    · exact reg_setF_other (by simpa using ha)

/-- A write of PWR.MODE_REQ in RUN acts at once. -/
theorem modeReq_live {op : State → State} (h : Live who s) : gateW who Reg.pwrModeReq op s = op (begin who s) := gateW_live h

/-- Settles O6: a write with the second key resets only where the writer's own sequence is live; every other write ends a live one. -/
theorem softResetSequence : Obligations.SoftResetSequence := by
  unfold Obligations.SoftResetSequence
  refine ⟨fun who s hlive hseq => ?first, fun who m s hlive hseq hne => ?cancel, fun who s hlive hseq c hc => ?own, fun who s hlive hseq hl hp hr hn => ?low,
    fun who s hlive hseq hl => ?high, fun who s hlive hseq => ?alone, fun m s hseq => ?expired, fun m s hseq => ?kick⟩
  case first =>
    have hend : seqEnd Reg.pwrModeReq (begin who s).boot.seqMode who true (begin who s) = begin who s := by
      obtain h | h := hseq <;> simp [seqEnd, h]
    calc exec (.softResetFirstWrite who) s
      _ = .next (opModeReq who (wd (0x6D1 <<< 24 ||| 3)) (begin who s)) := congrArg Host.Outcome.next (modeReq_live hlive)
      _ = _ := by rw [opModeReq_first _ _ (by decide) (by decide), hend]; rfl
  case cancel =>
    have hend : seqEnd Reg.pwrModeReq (begin who s).boot.seqMode who true (begin who s) =
        seqCancelled Reg.pwrModeReq m (if who = rqDbg then 3 else 2) (begin who s) := by simp [seqEnd, hseq, hne]
    refine .of_exec_eq rfl ((modeReq_live hlive).trans (opModeReq_first who _ (by decide) (by decide))) ⟨rfl, ?_⟩
    rw [hend]
    exact raise_logged rfl
  case own =>
    obtain rfl | rfl := hc
    · refine .of_exec_eq rfl ((modeReq_live hlive).trans (opModeReq_retain who _ (by decide) (by decide))) ?_
      exact retainAsk_seqMode _
    · refine .of_exec_eq rfl ((modeReq_live hlive).trans (opModeReq_wake who _ (by decide))) ?_
      exact wakeAsk_seqMode who _
  case low => exact .of_exec_eq rfl ((modeReq_live hlive).trans (opModeReq_second (by decide) (by decide) hseq)) (softReset_mode_of_low hl hp hr hn)
  case high =>
    have hsecond : opModeReq who (wd (0x92E <<< 24 ||| 3)) (begin who s) = softReset who 2 false { begin who s with boot := { s.boot with seqMode := none } } :=
      opModeReq_second (by decide) (by decide) hseq
    have hrun : exec (.softResetSecondWrite who) s = .next (softResetTo who { begin who s with boot := { s.boot with seqMode := none } }) :=
      congrArg Host.Outcome.next ((modeReq_live hlive).trans (hsecond.trans (softReset_of_high hl)))
    obtain ⟨hmode, hqueue, hregs, hunits, hkeys, hflash, hscr, hlevel⟩ := keepRegs_afterReset .soft { begin who s with boot := { s.boot with seqMode := none } }
    exact .of_exec hrun ⟨resetTo_mode .soft _, softResetTo_cause who _, rfl, _, _, ⟨hmode, hqueue, hregs, hunits, hkeys, hflash, hscr, hlevel⟩,
      resetTo_after .soft _, softResetTo_regs who _, rfl⟩
  case alone =>
    refine .of_exec_eq rfl ((modeReq_live hlive).trans (opModeReq_second_alone (by decide) (by decide) hseq)) ?_
    have hsame : { begin who s with boot := { (begin who s).boot with seqMode := none } } = begin who s := by rw [← hseq]; rfl
    rw [hsame]
    exact raise_raises rfl
  case expired =>
    refine .of_exec_eq rfl (t := raise 0xA06 rqDbg (1 <<< 32 ||| m.toNat <<< 24 ||| Reg.pwrModeReq) { s with boot := { s.boot with seqMode := none } }) ?_ (raise_raises rfl)
    simp only [hseq]
    rfl
  case kick =>
    refine .of_exec_eq rfl (t := raise 0xA06 rqDbg (1 <<< 32 ||| m.toNat <<< 24 ||| Reg.wdtKick) { s with boot := { s.boot with seqKick := none } }) ?_ (raise_raises rfl)
    simp only [hseq]
    rfl

end Sys2Proof.Machine
end

section
/-! O7: RETAIN (R77 to R79). -/

namespace Sys2Proof.Machine

variable {s : State} {who : Req} {src : WakeSrc}

/-! ### Requests -/

theorem retainAsk_accepted (h : retainReason s 0x6D1 = none) : retainAsk s = retainAccept s := by
  simp [retainAsk, h]

theorem retainAsk_refused {r : Nat} (h : retainReason s 0x6D1 = some r) : retainAsk s = raise 0x003 0 (r <<< 8 ||| 1) s := by
  simp [retainAsk, h, modeRefuse]

/-- Entry changes the boot state and the governor alone, whose queue holds the request for the ramp-down. -/
theorem retainAccept_rest (s : State) : retainAccept s = { s with boot := { s.boot with retain := .entering, emu := attached s }, gov := (retainAccept s).gov } := by
  unfold retainAccept
  rw [govAsk_rest]

theorem retainAccept_asks (s : State) : ∃ r ∈ (retainAccept s).gov.queue, r.kind = .entry := by
  obtain ⟨r, hr, hkind, -⟩ := govAsk_has .entry 0 (estSum (fun _ => true) { s with boot := { s.boot with retain := .entering, emu := attached s } })
    { s with boot := { s.boot with retain := .entering, emu := attached s } }
  exact ⟨r, hr, hkind⟩

/-! ### The end of entry -/

theorem retainEnd_mode (s : State) : (retainEnd s).mode = .retain := setMode_mode ..

theorem retainEnd_running (s : State) : (retainEnd s).core.running = false :=
  setMode_coreRuns ..

/-- The boot state after entry, but for what the memories and clocks do (R78). -/
theorem retainEnd_held (s : State) : (retainEnd s).boot.heldService = s.boot.heldService ∧ (retainEnd s).boot.heldWake = s.boot.heldWake := by
  constructor
  all_goals
    simp only [retainEnd, setMode_boot, State.setB_boot]
    rw [forAll_boot]
    intro p u
    split <;> simp

/-- With nothing left to end, entry ends in RETAIN; nothing was held meanwhile (R60, R78). -/
theorem opRetainEntry_end (hr : s.boot.retain = .entering) (hend : retainMayEnd s = true) (hs : s.boot.heldService = false) (hw : s.boot.heldWake = none) :
    opRetainEntry s = retainEnd s := by
  obtain ⟨hservice, hwake⟩ := retainEnd_held s
  have hservice' : (retainEnd s).boot.heldService = false := hservice.trans hs
  have hwake' : (retainEnd s).boot.heldWake = none := hwake.trans hw
  simp [opRetainEntry, hr, hend, hservice', hwake']

/-! ### A wake -/

@[simp] theorem wakeRamp_mode (s : State) : (wakeRamp s).mode = s.mode := by simp [wakeRamp]

theorem wakeRamp_core (s : State) : (wakeRamp s).core = { s.core with running := true } := by simp [wakeRamp]

theorem wakeRamp_evt (s : State) : (wakeRamp s).evt = s.evt := by
  simp only [wakeRamp]
  rw [govAsk_rest]
  rfl

theorem wakeRamp_reg (s : State) {a : Nat} (h : a ≠ Reg.calStatus) : (wakeRamp s).reg a = s.reg a := by
  simp only [wakeRamp, govAsk_reg]
  exact reg_setB_other h

theorem wakeRamp_cal (s : State) : (wakeRamp s).getB Reg.calStatus 0 = true := by
  simp only [wakeRamp]
  rw [govAsk_rest]
  exact getB_setB_same (by decide)

theorem wakeRamp_asks (s : State) : ∃ r ∈ (wakeRamp s).gov.queue, r.kind = .exit := by
  obtain ⟨r, hr, hkind, -⟩ := govAsk_has .exit 0 _ _
  exact ⟨r, hr, hkind⟩

theorem pinAt_evt (i : Nat) (u t : State) : (pinAt i u t).evt = t.evt := by rw [pinAt_rest]

theorem pinAt_core (i : Nat) (u t : State) : (pinAt i u t).core = t.core := by rw [pinAt_rest]

theorem pinAt_reg (i : Nat) (u t : State) (a : Nat) : (pinAt i u t).reg a = t.reg a := by
  rw [pinAt_rest]
  rfl

/-- A wake's exit sequence without a wait for VCCRAM: E009 with the source, and the fabric's soft-start is asked for (R79). -/
structure Woken (src : WakeSrc) (s t : State) : Prop where
  event : Logged 0x009 0 src.code s t
  retain : t.boot.retain = .exitRamp
  core : t.core.running = true
  mode : t.mode = s.mode

/-- Without pins for VRAM to wait for, the memories wake at once (R79). -/
theorem wakeStart_now (h : (raise 0x009 0 src.code s).getB Reg.pwrRetainCfg 6 = false) : wakeStart src s =
    pinAt ((raise 0x009 0 src.code s).getF Reg.pwrRetainCfg 35 26) (raise 0x009 0 src.code s) (wakeRamp (raise 0x009 0 src.code s)) := by
  unfold wakeStart
  generalize raise 0x009 0 src.code s = u at h ⊢
  simp [h]

theorem wakeEvent_woken (hm : s.mode = .retain) (hr : s.boot.retain = .idle) (hp : s.getB Reg.pwrRetainCfg 6 = false) : Woken src s (wakeEvent src s) := by
  have hstart : wakeEvent src s = wakeStart src s := by simp [wakeEvent, hr, hm]
  have hcfg : (raise 0x009 0 src.code s).getB Reg.pwrRetainCfg 6 = false := by
    rw [← hp, getB_eq, getB_eq, raise_reg _ _ _ _ _ (by decide)]
  rw [hstart, wakeStart_now hcfg]
  generalize hu : raise 0x009 0 src.code s = u at hcfg ⊢
  have hlog : Logged 0x009 0 src.code s u := hu ▸ raise_logged rfl
  have hmode : u.mode = s.mode := hu ▸ raise_mode ..
  refine ⟨hlog.of_same ((pinAt_evt ..).trans (wakeRamp_evt u)) ((pinAt_reg ..).trans (wakeRamp_reg u (by decide))), ?_, ?_, ?_⟩
  · exact congrArg Boot.retain ((pinAt_boot ..).trans (wakeRamp_boot u))
  · exact congrArg Core.running ((pinAt_core ..).trans (wakeRamp_core u))
  · exact (pinAt_mode ..).trans ((wakeRamp_mode u).trans hmode)

/-- Settles O7: a request is answered by its reason, entry ends in the mode RETAIN, and each wake source starts the same exit. -/
theorem retainCycle : Obligations.RetainCycle := by
  unfold Obligations.RetainCycle
  refine ⟨fun who s hlive hseq hreason => ?accept, fun who r s hlive hseq hreason => ?refuse, fun s hr he hc hg hs hw => ?entry, fun s hm hr hcfg => ⟨fun hen hcount => ?timer,
    fun rising hen hedge hstage hmask => ?pin, fun hp hseq => ?register⟩, fun who s hm hp hseq hserved hsvc hi3c => ?other, fun s hr => ?ram, fun s hlost hr hm => ?ctx⟩
  case accept =>
    have hask : opModeReq who (wd (0x6D1 <<< 24 ||| 1)) (begin who s) = retainAccept (begin who s) := by
      rw [opModeReq_retain who _ (by decide) (by decide), seqClear_of_none (s := begin who s) hseq, retainAsk_accepted (s := begin who s) hreason]
    refine .of_exec_eq rfl ((modeReq_live hlive).trans hask) ⟨?_, ?_, retainAccept_asks _⟩
    · rw [retainAccept_rest]
      rfl
    · conv_lhs => rw [retainAccept_rest]
      rw [congrArg State.boot (retainAccept_rest (begin who s))]
  case refuse =>
    have hask : opModeReq who (wd (0x6D1 <<< 24 ||| 1)) (begin who s) = raise 0x003 0 (r <<< 8 ||| 1) (begin who s) := by
      rw [opModeReq_retain who _ (by decide) (by decide), seqClear_of_none (s := begin who s) hseq, retainAsk_refused (s := begin who s) hreason]
    exact .of_exec_eq rfl ((modeReq_live hlive).trans hask) (raise_raises rfl)
  case entry =>
    have hend : retainMayEnd s = true := by simp [retainMayEnd, he, hc, hg]
    exact .of_exec_eq rfl (opRetainEntry_end hr hend hs hw) ⟨retainEnd_mode s, retainEnd_running s⟩
  case timer =>
    obtain ⟨hevent, hretain, hcore, hmode⟩ := wakeEvent_woken (src := .timer) hm hr hcfg
    exact .of_exec_eq rfl (if_pos ⟨hm, hen, hcount⟩) ⟨hevent, hretain, hcore, hmode.trans hm⟩
  case pin =>
    generalize hi : s.getF Reg.pwrRetainCfg 25 16 = i at hstage hmask
    have hedge' : (2 ≤ s.getF Reg.pwrRetainCfg 5 4 ∨ (s.getF Reg.pwrRetainCfg 5 4 = 0 ∧ rising = true) ∨ (s.getF Reg.pwrRetainCfg 5 4 = 1 ∧ ¬ rising = true)) := by
      cases rising <;> simp [hedge]
    have hrun : exec (.wakePinEdge rising) s = .next (wakeEvent .pin (s.setPn i { s.pn i with pad := some rising })) := by
      subst hi
      exact congrArg Host.Outcome.next (if_pos ⟨hen, hstage, by simp [hmask], hedge'⟩)
    obtain ⟨hevent, hretain, hcore, -⟩ := wakeEvent_woken (s := s.setPn i { s.pn i with pad := some rising }) (src := .pin) hm hr hcfg
    exact .of_exec hrun ⟨hevent, hretain, hcore⟩
  case register =>
    have hserved : served s rqSvc = true := by simp [served, hm, fabricAsks, rqSvc]
    have hgate : gateW rqSvc Reg.pwrModeReq (opModeReq rqSvc 2) s = opModeReq rqSvc 2 (begin rqSvc s) :=
      gateW_service hp (by simp [hm]) hserved rfl
    have hask : opModeReq rqSvc 2 (begin rqSvc s) = wakeEvent .register (begin rqSvc s) := by
      rw [opModeReq_wake rqSvc _ (by decide), seqClear_of_none (s := begin rqSvc s) hseq]
      simp [wakeAsk, hm, wakeAllowed]
    obtain ⟨hevent, hretain, hcore, -⟩ := wakeEvent_woken (s := begin rqSvc s) (src := .register) hm hr hcfg
    exact .of_exec_eq rfl (hgate.trans hask) ⟨hevent, hretain, hcore⟩
  case other =>
    have hgate : gateW who Reg.pwrModeReq (opModeReq who 2) s = opModeReq who 2 (begin who s) := gateW_service hp (by simp [hm]) hserved rfl
    have hask : opModeReq who 2 (begin who s) = raise 0x003 0 (8 <<< 8 ||| 2) (begin who s) := by
      rw [opModeReq_wake who _ (by decide), seqClear_of_none (s := begin who s) hseq]
      simp [wakeAsk, hm, wakeAllowed, hsvc, hi3c, modeRefuse]
    exact .of_exec_eq rfl (hgate.trans hask) (raise_raises rfl)
  case ram =>
    exact .of_exec_eq rfl (if_pos hr) ⟨wakeRamp_boot s, wakeRamp_core s, wakeRamp_cal s, wakeRamp_asks s⟩
  case ctx =>
    have hgone : s.boot.ctxLost = true ∧ (s.boot.retain = .exitRamp ∨ s.mode = .run ∨ s.mode = .service) := ⟨hlost, .inl hr⟩
    refine congrArg Host.Outcome.next ((if_pos hgone).trans (if_neg ?_))
    simp [hm]

end Sys2Proof.Machine
end

section
/-! O5: the governor's grants, the ends of soft-starts, and the fabric's clock lines (R26, R90, R99 to R101). -/

namespace Sys2Proof.Machine

variable {s : State} {who : Req} {r : GovReq} {rest : List GovReq} {us k n : Nat} {v : Word}

/-! ### Grants -/

theorem forAll_gov {α : Type} (l : List α) (f : α → State → State) (h : ∀ x s, (f x s).gov = s.gov) (s : State) : (forAll l f s).gov = s.gov := by
  unfold forAll
  induction l generalizing s with
  | nil => rfl
  | cons x l ih => exact (ih (f x s)).trans (h x s)

/-- What a grant does to the fabric leaves the governor and the mode. -/
theorem grantAct_gov (r : GovReq) (s : State) : (grantAct r s).gov = s.gov := by
  unfold grantAct
  split
  case h_4 => exact forAll_gov _ _ (fun n u => by split <;> rfl) s
  all_goals rfl

theorem grantAct_mode (r : GovReq) (s : State) : (grantAct r s).mode = s.mode := by
  unfold grantAct
  split
  case h_4 => exact forAll_mode _ _ (fun n u => by split <;> rfl) s
  all_goals rfl

theorem govWait_gov (r : GovReq) (us : Nat) (s : State) : (govWait r us s).gov = s.gov := by
  unfold govWait
  dsimp only
  split
  · exact raise_gov ..
  · rfl

theorem govWait_mode (r : GovReq) (us : Nat) (s : State) : (govWait r us s).mode = s.mode := by
  unfold govWait
  dsimp only
  split
  · exact raise_mode ..
  · rfl

/-- The oldest request is granted where its slope fits and its ramp may begin (R100). -/
theorem opGrant_granted (hq : s.gov.queue = r :: rest) (hf : govFits s r = true) (hb : rampMayBegin s r = true) :
    opGrant us s = grantAct r (govWait r us { s with gov := { queue := rest, ramps := s.gov.ramps ++ [govRamp s r] } }) := by
  simp [opGrant, hq, hf, hb]

theorem opGrant_waits (hq : s.gov.queue = r :: rest) (h : govFits s r = false ∨ rampMayBegin s r = false) : opGrant us s = s := by
  obtain h | h := h <;> simp [opGrant, hq, h]

/-! ### The ends of soft-starts -/

/-- The ramp that ends is taken from those under way, and has its effect (R101). -/
theorem opSoftstart_end (h : s.gov.ramps[k]? = some r) : opSoftstart k s = rampEnd r { s with gov := { s.gov with ramps := s.gov.ramps.eraseIdx k } } := by
  simp [opSoftstart, h]

theorem entryDone_alone (h : ∀ x ∈ s.gov.ramps, x.kind ≠ .exit) : entryDone s = { s with boot := { s.boot with fabricOn := false } } := by
  have hno : s.gov.ramps.any (fun r => decide (r.kind = GovKind.exit)) = false := by simpa using h
  simp [entryDone, hno]

theorem exitDone_retain (hm : s.mode = .retain) (hr : s.boot.retain = .exitRamp) : (exitDone s).mode = .run := by
  simp [exitDone, hm, hr, runBegin]

/-! ### Clock lines -/

theorem clkGcl_ne_moving (h : n < 16) : Reg.clkGcl n ≠ Reg.clkGclMoving := by
  simp only [Reg.clkGcl, Reg.clkGclMoving]
  omega

/-- After release a write that keeps EN and DIV moves PHASE alone (R89, R90). -/
theorem opGcl_phase (hr : s.boot.released = true) (hen : fld v 35 35 = s.getF (Reg.clkGcl n) 35 35) (hdiv : fld v 29 13 = s.getF (Reg.clkGcl n) 29 13) :
    ∃ differs, opGcl n v s = (s.setReg (Reg.clkGcl n) (setFld (s.reg (Reg.clkGcl n)) 11 0 (fld v 11 0))).setB Reg.clkGclMoving n (s.getB Reg.clkGclMoving n || differs) := by
  simp only [State.getF] at hen hdiv
  simp only [opGcl, hr, hen, hdiv, ne_eq, not_true, and_false, if_false, if_true]
  exact ⟨_, rfl⟩

/-- Settles O5: a grant, a ramp's end and a line's write each touch what R100, R101 and R90 name. -/
theorem governorActs : Obligations.GovernorActs := by
  unfold Obligations.GovernorActs
  refine ⟨fun us s r rest hq hf hb => ?grant, fun us s r rest hq h => congrArg _ (opGrant_waits hq h), fun k s r h hk => ?free, fun k s r h hk hx => ?entry,
    fun k s r h hk hm hr => ?exit, fun who line v s hlive hr hen hdiv => ?line, fun line s => rfl, fun target m b s hu hp => ?promoted, fun target m b s hu => ?urgent⟩
  case grant =>
    refine .of_exec_eq rfl (opGrant_granted hq hf hb) ⟨?_, ?_⟩
    · rw [grantAct_gov, govWait_gov]
    · rw [grantAct_mode, govWait_mode]
  case free =>
    refine congrArg Host.Outcome.next ((opSoftstart_end h).trans ?_)
    obtain hk | hk := hk <;> simp [rampEnd, hk]
  case entry =>
    have hend : rampEnd r { s with gov := { s.gov with ramps := s.gov.ramps.eraseIdx k } } = entryDone { s with gov := { s.gov with ramps := s.gov.ramps.eraseIdx k } } := by
      simp [rampEnd, hk]
    refine congrArg Host.Outcome.next ((opSoftstart_end h).trans (hend.trans (entryDone_alone ?_)))
    exact fun x hmem => hx x (List.mem_of_mem_eraseIdx hmem)
  case exit =>
    have hend : rampEnd r { s with gov := { s.gov with ramps := s.gov.ramps.eraseIdx k } } = exitDone { s with gov := { s.gov with ramps := s.gov.ramps.eraseIdx k } } := by
      simp [rampEnd, hk]
    exact .of_exec_eq rfl ((opSoftstart_end h).trans hend) (exitDone_retain hm hr)
  case line =>
    obtain ⟨differs, hgcl⟩ := opGcl_phase (s := begin who s) (n := line.val) (v := v) hr hen hdiv
    have hne := clkGcl_ne_moving line.isLt
    refine .of_exec_eq rfl ((gateW_live hlive).trans hgcl) ⟨?_, fun hm => ?_, fun a ha => ?_, rfl⟩
    · exact (reg_setB_other hne).trans reg_setReg_same
    · have hmoving : (begin who s).getB Reg.clkGclMoving line.val = true := hm
      rw [getB_setB_same (by omega), hmoving]
      rfl
    · simp only [List.mem_cons, List.not_mem_nil, or_false, not_or] at ha
      obtain ⟨hline, hmoving⟩ := ha
      exact (reg_setB_other hmoving).trans (reg_setReg_other hline)
  case promoted => exact congrArg Host.Outcome.next (if_neg (by rw [hu, hp]; simp))
  case urgent => exact congrArg Host.Outcome.next (if_pos (Or.inl hu))

end Sys2Proof.Machine
end

section
/-! O8, O9 and O10: the I3C target (R34 to R41, R54). -/

namespace Sys2Proof.Machine

variable {s : State} {c : Instr} {addr : BitVec 7} {out : State → List Byte} {op : State → State} {n : Nat}

/-! ### Command codes -/

theorem cccB_heard (h : hifHears s = true) : cccB op s = hifAck true [] (op s) := if_pos h

theorem cccD_unaddressed (h : hifHears s = true) (hd : daValid s = false) : cccD out s = hifAck false [] s := by
  simp [cccD, h, hd]

theorem cccD_addressed (h : hifHears s = true) (hd : daValid s = true) : cccD out s = hifAck true (out s) s := by
  simp [cccD, h, hd]

/-! ### The dynamic address -/

theorem daSet_valid (addr : BitVec 7) (s : State) : daValid (daSet addr s) = true := getB_setB_same (by decide)

theorem daSet_addr (addr : BitVec 7) (s : State) : dynAddr (daSet addr s) = addr.toNat := by
  have hfit : addr.toNat % 2 ^ (14 + 1 - 8) = addr.toNat := Nat.mod_eq_of_lt addr.isLt
  calc dynAddr (daSet addr s)
    _ = (State.setF { s with hif := { s.hif with hotJoin := false } } Reg.sysHifStatus 14 8 addr.toNat).getF Reg.sysHifStatus 14 8 :=
      getF_setF_field (by decide) (.inr (by decide))
    _ = addr.toNat := (getF_setF_same (by decide)).trans hfit

theorem daSet_regs (addr : BitVec 7) (s : State) : KeepRegs [Reg.sysHifStatus] s (daSet addr s) := by
  intro a ha
  have hne : a ≠ Reg.sysHifStatus := by simpa using ha
  exact (reg_setB_other hne).trans (reg_setF_other hne)

/-- RSTDAA's two fields (R36). -/
def daClear (s : State) : State := (s.setF Reg.sysHifStatus 14 8 0).setB Reg.sysHifStatus 4 false

theorem daClear_valid (s : State) : daValid (daClear s) = false := getB_setB_same (by decide)

theorem daClear_addr (s : State) : dynAddr (daClear s) = 0 :=
  (getF_setF_field (by decide) (.inr (by decide))).trans (getF_setF_same (by decide))

theorem daClear_regs (s : State) : KeepRegs [Reg.sysHifStatus] s (daClear s) := by
  intro a ha
  have hne : a ≠ Reg.sysHifStatus := by simpa using ha
  exact (reg_setB_other hne).trans (reg_setF_other hne)

/-- Settles O8: where the target hears a code, its arm is the code's own change and the acknowledgement. -/
theorem i3cSettings : Obligations.I3cSettings := by
  unfold Obligations.I3cSettings
  intro s h
  have hlong (len : BitVec 16) (hl : 8 ≤ len.toNat) : mwlOk len = true := decide_eq_true hl
  have hshort (len : BitVec 16) (hl : len.toNat < 8) : mwlOk len = false := decide_eq_false (Nat.not_le.2 hl)
  refine ⟨fun int hj => congrArg _ (cccB_heard h), fun int hj => congrArg _ (cccB_heard h), fun len hl => ?mwl, fun len hl => ?mwlShort, fun len hl => ?mrl,
    congrArg _ (if_pos h), congrArg _ (if_pos h), congrArg _ (cccB_heard h), fun c => ?direct, fun c => rfl, ?rstdaa, fun addr hd => ?entdaa, fun addr hd => ?lost,
    fun static addr hd hs => ?setdasa, fun addr hd => ?setnewda⟩
  case mwl => exact congrArg Host.Outcome.next ((cccB_heard h).trans (congrArg _ (if_pos (hlong len hl))))
  case mwlShort => exact congrArg Host.Outcome.next ((cccB_heard h).trans (congrArg _ (if_neg (by simp [hshort len hl]))))
  case mrl => exact congrArg Host.Outcome.next ((cccB_heard h).trans (congrArg _ (if_pos (hlong len hl))))
  case direct => exact congrArg Host.Outcome.next (if_pos (by simp [h]))
  case rstdaa => exact .of_exec_eq rfl (cccB_heard h) ⟨daClear_valid s, daClear_addr s, daClear_regs s, rfl⟩
  case entdaa =>
    refine .of_exec_eq rfl ((if_pos h).trans (if_neg (by simp [hd]))) ⟨daSet_valid addr s, daSet_addr addr s, rfl, rfl, daSet_regs addr s⟩
  case lost => exact congrArg Host.Outcome.next ((if_pos h).trans (if_neg (by simp [hd])))
  case setdasa =>
    have hmine : (!daValid s && static.toNat == staticAddr s) = true := by simp [hd, hs, staticAddr]
    exact .of_exec_eq rfl ((if_pos h).trans (if_pos hmine)) ⟨daSet_valid addr s, daSet_addr addr s, rfl, rfl, daSet_regs addr s⟩
  case setnewda => exact .of_exec_eq rfl ((if_pos h).trans (if_pos hd)) ⟨daSet_valid addr s, daSet_addr addr s, rfl, daSet_regs addr s⟩

/-! ### Direct reads -/

/-- The bytes that each direct read returns (R34, R35). -/
def ccReadBytes (c : Instr) (s : State) : List Byte :=
  match c with
  | .i3cGetmwl => be16 s.hif.mwl
  | .i3cGetmrl => be16 s.hif.mrl ++ [5]
  | .i3cGetpid => pidBytes
  | .i3cGetbcr => [bcr]
  | .i3cGetdcr => [dcr]
  | .i3cGetstatus => [0, BitVec.ofNat 8 (pendClasses s)]
  | .i3cGetmxds => [0x00, 0x00]
  | _ => [0x01, 0x01, 0x00, 0x00]

/-- The direct reads of R34. -/
def CcRead (c : Instr) : Prop := c = .i3cGetmwl ∨ c = .i3cGetmrl ∨ c = .i3cGetpid ∨ c = .i3cGetbcr ∨ c = .i3cGetdcr ∨ c = .i3cGetstatus ∨ c = .i3cGetmxds ∨ c = .i3cGetcaps

theorem exec_ccRead (h : CcRead c) (s : State) : exec c s = .next (cccD (ccReadBytes c) s) := by
  obtain rfl | rfl | rfl | rfl | rfl | rfl | rfl | rfl := h <;> rfl

/-- Settles O9: every direct read is `cccD` of its bytes. -/
theorem i3cReads : Obligations.I3cReads := by
  unfold Obligations.I3cReads
  refine ⟨fun s c hc h => ⟨fun hd => ?unaddressed, fun hd => ?addressed⟩, fun s => rfl, fun s hj he hd hp => ?join, fun s i rest hq hd hi h => ⟨?sent, ?kept⟩⟩
  case unaddressed => exact (exec_ccRead hc s).trans (congrArg _ (cccD_unaddressed h hd))
  case addressed =>
    refine .of_exec ((exec_ccRead hc s).trans (congrArg _ (cccD_addressed h hd))) ⟨rfl, ?_⟩
    refine ⟨?_, ?_, ?_, ?_, ?_, ?_, ?_, ?_⟩ <;> (rintro rfl; rfl)
  case join => exact congrArg Host.Outcome.next (if_pos (by simp [hj, he, hd, hp]))
  case sent =>
    calc exec (.ibiSend true) s
      _ = execIbiSend true s := rfl
      _ = _ := by simp [execIbiSend, hq, hd, hi, h, ibiBytes]
  case kept =>
    calc exec (.ibiSend false) s
      _ = execIbiSend false s := rfl
      _ = _ := by simp [execIbiSend, hq, hd, hi, h]

/-! ### Transfers -/

theorem addr24_toNat (a b c : Byte) : (BitVec.ofNat 24 ((a.toNat * 256 + b.toNat) * 256 + c.toNat)).toNat = (a.toNat * 256 + b.toNat) * 256 + c.toNat := by
  have ha := a.isLt
  have hb := b.isLt
  have hc := c.isLt
  rw [BitVec.toNat_ofNat]
  omega

/-- A transfer of the address alone sets it and writes nothing (R38). -/
theorem hifWrite_address (ddr : Bool) (a b c : Byte) (s : State) :
    hifWrite ddr [a, b, c] s = setPtr ddr ((a.toNat * 256 + b.toNat) * 256 + c.toNat) (hifAck true [] s) := rfl

/-- A word of 36 bits after the address is one register write (R38, R40). -/
theorem hifWrite_word {a b c w0 w1 w2 w3 w4 : Byte} (ddr : Bool) (hw : w0.toNat < 16) (s : State) : hifWrite ddr [a, b, c, w0, w1, w2, w3, w4] s =
    regWrite rqI3c ((a.toNat * 256 + b.toNat) * 256 + c.toNat) (word40 w0 w1 w2 w3 w4)
      (setPtr ddr ((a.toNat * 256 + b.toNat) * 256 + c.toNat) (hifAck true [] s)) := by
  have hwords : hifWords [w0, w1, w2, w3, w4] = ([word40 w0 w1 w2 w3 w4], false) := by simp [hifWords, Nat.not_le.2 hw]
  simp [hifWrite, hwords, hifPut]

/-- A word whose top four bits are not zero is a frame error (R38). -/
theorem hifWrite_frameErr {a b c w0 w1 w2 w3 w4 : Byte} (ddr : Bool) (hw : 16 ≤ w0.toNat) (s : State) : hifWrite ddr [a, b, c, w0, w1, w2, w3, w4] s =
    (setPtr ddr ((a.toNat * 256 + b.toNat) * 256 + c.toNat) (hifAck true [] s)).setB Reg.sysHifStatus 0 true := by
  have hwords : hifWords [w0, w1, w2, w3, w4] = ([], true) := by simp [hifWords, hw]
  simp [hifWrite, hwords, hifPut]

theorem wordBytes_length (w : Word) : (wordBytes w).length = 5 := by simp [wordBytes]

theorem hifGet_length (a n : Nat) (s : State) : (hifGet a n s).1.length = 5 * n := by
  induction n generalizing a s with
  | zero => rfl
  | succ n ih =>
    simp only [hifGet, List.length_append, wordBytes_length, ih]
    omega

/-- A read in SDR gives the words' bytes, in HDR-DDR padded to an even count (R39, R41). -/
theorem hifRead_length (n : Nat) (ddr : Bool) (s : State) : (hifRead n ddr s).hif.out.length = 5 * n + if ddr then n % 2 else 0 := by
  cases ddr with
  | false => simp [hifRead, hifAck, hifGet_length]
  | true =>
    have hlen := hifGet_length s.hif.ddrPtr.toNat n s
    by_cases hodd : (5 * n) % 2 = 1
    · simp [hifRead, hifAck, hlen, hodd]
      omega
    · simp [hifRead, hifAck, hlen, hodd]
      omega

/-- Settles O10: transfers are acknowledged at the target's address alone, and are then register accesses in turn. -/
theorem i3cTransfers : Obligations.I3cTransfers := by
  unfold Obligations.I3cTransfers
  refine ⟨fun dst a b c s h => ?address, fun dst a b c w0 w1 w2 w3 w4 s h hlive hw hb => ?word, fun dst a b c w0 w1 w2 w3 w4 s h hw => ?frame, fun dst bytes s h => congrArg _ (if_neg (by simp [h])),
    fun dst n s h => .of_exec_eq rfl (if_pos h) ⟨hifRead_length n false s, rfl⟩, fun dst n s h => congrArg _ (if_neg (by simp [h])), fun bytes s h => congrArg _ (if_neg (by simp [h])),
    fun a b c s h => ?ddr, fun s h => .of_exec_eq rfl (if_pos h) ?ddrOne, fun n s h => .of_exec_eq rfl (if_pos h) ⟨hifRead_length n true s, rfl⟩⟩
  case address => exact .of_exec_eq rfl ((if_pos h).trans (hifWrite_address false a b c s)) ⟨addr24_toNat a b c, rfl⟩
  case word =>
    refine congrArg Host.Outcome.next ((if_pos h).trans ((hifWrite_word false hw s).trans ?_))
    exact regWrite_live (s := setPtr false ((a.toNat * 256 + b.toNat) * 256 + c.toNat) (hifAck true [] s)) hlive hb
  case frame =>
    refine .of_exec_eq rfl ((if_pos h).trans (hifWrite_frameErr false hw s)) ⟨getB_setB_same (by decide), fun x hx => ?_⟩
    have hne : x ≠ Reg.sysHifStatus := by simpa using hx
    exact reg_setB_other hne
  case ddr => exact .of_exec_eq rfl ((if_pos h).trans (hifWrite_address true a b c s)) ⟨addr24_toNat a b c, rfl⟩
  case ddrOne =>
    simp [hifRead, hifGet, hifAck, wordBytes_length]

end Sys2Proof.Machine
end

section
/-! O11: register writes, reads and claims (R6, R8, R28, R42, R51, R57). -/

namespace Sys2Proof.Machine

variable {s : State} {who : Req} {a i id n : Nat} {v : Word} {f : Fam} {res : ClaimRes}

/-! ### Fields of a word -/

theorem fld_bit {n : Nat} (x : BitVec n) (i : Nat) : fld x i i = (x.getLsbD i).toNat := by
  simp [fld, BitVec.getLsbD, Nat.toNat_testBit, Nat.shiftRight_eq_div_pow]

/-! ### Writes of plain registers -/

/-- In the service domain a register that no operation of its own serves is a plain one (R6). -/
theorem writeAct_plain (ha : a < 0x3000) (hne : a ∉ [Reg.sysEvtCtrl, Reg.sysEvtRd, Reg.pwrGovCfg, Reg.pwrMonCfg, Reg.pwrModeReq]) (hgcl : ∀ n, n < 16 → a ≠ Reg.clkGcl n) :
    writeAct who a v = plainWrite a v := by
  have hctrl : ctrlFunc a = none := by
    have hbank (base n st : Nat) (hb : 0x3000 < base) : bankIx (a + 1) base n st = none := if_neg (by omega)
    have hrhx : a + 1 ≠ Reg.rhxStatus := by simp only [Reg.rhxStatus]; omega
    have hflc : a + 1 ≠ Reg.flcStatus := by simp only [Reg.flcStatus]; omega
    have hwdt : a + 1 ≠ Reg.wdtStatus := by simp only [Reg.wdtStatus]; omega
    have hstat : statusFunc (a + 1) = none := by
      simp only [statusFunc, hrhx, hflc, hwdt, if_false, hbank _ _ _ (show 0x3000 < Reg.mshPStatus 0 by decide), hbank _ _ _ (show 0x3000 < Reg.scrSerStatus 0 by decide),
        hbank _ _ _ (show 0x3000 < Reg.scrTmrStatus 0 by decide)]
    unfold ctrlFunc
    have hbeater : a ≠ Reg.scrBeaterCtrl := by simp only [Reg.scrBeaterCtrl]; omega
    rw [hstat, if_neg hbeater, ite_self]
  have hclk : bankIx a (Reg.clkGcl 0) 16 1 = none := by
    refine if_neg ?_
    rintro ⟨hlo, -, hhi⟩
    refine hgcl (a - Reg.clkGcl 0) (by simpa using hhi) ?_
    simp only [Reg.clkGcl] at hlo ⊢
    omega
  simp only [List.mem_cons, List.not_mem_nil, or_false, not_or] at hne
  obtain ⟨hctl, hrd, hgov, hmon, hreq⟩ := hne
  simp [writeAct, hctrl, ha, svcDomWrite, hctl, hrd, hgov, hmon, hreq, hclk]

theorem writeGo_plain (ha : a < 0x3000) (hf : Fam.at? a = some f)
    (hne : a ∉ [Reg.sysEvtCtrl, Reg.sysEvtRd, Reg.pwrGovCfg, Reg.pwrMonCfg, Reg.pwrModeReq]) (hgcl : ∀ n, n < 16 → a ≠ Reg.clkGcl n) :
    writeGo who a v s = plainWrite a v s := by
  have huser : isUser a = false := by simp [isUser]; omega
  have hperiph : periphClaimOf a = none := by
    rw [periphClaimOf, if_neg (by omega), if_neg (by omega)]
  simp [writeGo, huser, hf, hperiph, writeAct_plain ha hne hgcl]

theorem plainWrite_eq (hf : Fam.at? a = some f) : plainWrite a v s =
    s.setReg a (wd (((s.reg a).toNat &&& ((2 ^ 36 - 1) ^^^ f.rw) ||| v.toNat &&& f.rw) &&& ((2 ^ 36 - 1) ^^^ (v.toNat &&& f.w1c)))) := by
  simp [plainWrite, hf]

/-! ### EVT_STATUS -/

/-- Masking a field off leaves it zero. -/
theorem fld_masked (n : Nat) : fld (wd (n &&& ((2 ^ 36 - 1) ^^^ 0xFFFF))) 15 0 = 0 := by
  apply Nat.eq_of_testBit_eq
  intro j
  rw [fld_testBit, Nat.zero_testBit]
  by_cases hj : j < 16
  · have hmask : ((2 ^ 36 - 1) ^^^ 0xFFFF : Nat).testBit j = false := by interval_cases j <;> decide
    rw [wd, BitVec.toNat_ofNat, Nat.zero_add, Nat.testBit_mod_two_pow, Nat.testBit_and, hmask]
    simp
  · simp [hj]

/-- A read of EVT_STATUS that does not peek clears the loss count (R7, R57). -/
theorem plainRead_evtStatus (who : Req) (peek : Bool) (s : State) : plainRead who peek Reg.sysEvtStatus s =
    if peek then answer (evtStatRead s) s
    else (answer (evtStatRead s) s).setReg Reg.sysEvtStatus (wd ((s.reg Reg.sysEvtStatus).toNat &&& ((2 ^ 36 - 1) ^^^ 0xFFFF))) := by
  cases peek <;> rfl

theorem readAct_evtStatus (who : Req) (peek : Bool) (s : State) : readAct who peek Reg.sysEvtStatus s = plainRead who peek Reg.sysEvtStatus s := by
  have hpop : popRead who peek Reg.sysEvtStatus = none := rfl
  exact readAct_plain rfl rfl hpop rfl

/-- The debug module's reads peek (R7). -/
theorem regRead_evtStatus_dbg (h : Live rqDbg s) (peek : Bool) : regRead rqDbg peek Reg.sysEvtStatus s = answer (evtStatRead (begin rqDbg s)) (begin rqDbg s) := by
  have hread : regRead rqDbg peek Reg.sysEvtStatus s = readAct rqDbg (peeks rqDbg peek) Reg.sysEvtStatus (begin rqDbg s) := by
    have hblock : inBlock Reg.sysEvtStatus = true := by decide
    simp only [regRead, h.served, h.answersRead, hblock]
    rfl
  have hpeek : peeks rqDbg peek = true := by cases peek <;> rfl
  rw [hread, hpeek, readAct_evtStatus, plainRead_evtStatus, if_pos rfl]

/-! ### Claims -/

theorem writeGo_serClaim (k : Fin 6) : writeGo who (Reg.scrSerClaim k.val) v s = claimWrite (Reg.scrSerClaim k.val) ⟨5, k.val⟩ who v s := by
  fin_cases k <;> rfl

theorem writeGo_tmrClaim (k : Fin 16) : writeGo who (Reg.scrTmrClaim k.val) v s = claimWrite (Reg.scrTmrClaim k.val) ⟨2, k.val⟩ who v s := by
  fin_cases k <;> rfl

theorem serClaim_addr (k : Fin 6) : (BitVec.ofNat 24 (Reg.scrSerClaim k.val)).toNat = Reg.scrSerClaim k.val := by
  fin_cases k <;> rfl

theorem tmrClaim_addr (k : Fin 16) : (BitVec.ofNat 24 (Reg.scrTmrClaim k.val)).toNat = Reg.scrTmrClaim k.val := by
  fin_cases k <;> rfl

theorem serClaim_inBlock (k : Fin 6) : inBlock (Reg.scrSerClaim k.val) = true := by
  fin_cases k <;> rfl

theorem tmrClaim_inBlock (k : Fin 16) : inBlock (Reg.scrTmrClaim k.val) = true := by
  fin_cases k <;> rfl

/-- The word of a claim or release that names `id`: CONFLICT's bit is clear, and bit 35 says which it is (R51). -/
theorem claimWord (b : Nat) (hid : id < 256) : fld (setFld (wd id) 35 35 b) 7 0 = id ∧ (setFld (wd id) 35 35 b).getLsbD 8 = false ∧
    (setFld (wd id) 35 35 b).getLsbD 35 = b.testBit 0 := by
  have hval : (wd id).toNat = id := toNat_ofNat_of_fits (k := 8) hid (by decide)
  have hbit : id.testBit 8 = false := Nat.testBit_lt_two_pow hid
  refine ⟨?_, ?_, ?_⟩
  · rw [fld_setFld_other (by decide) (.inl (by decide)), fld, hval]
    omega
  · rw [BitVec.getLsbD, setFld_testBit (by decide), if_neg (by decide), hval, hbit]
  · rw [BitVec.getLsbD, setFld_testBit (by decide), if_pos (by decide)]

theorem claimWrite_claim (hid : id < 256) (hne : id ≠ 0) : claimWrite a res who (setFld (wd id) 35 35 0) s = claimGrant a res who id s := by
  obtain ⟨hfld, hconf, hrel⟩ := claimWord 0 hid
  simp only [claimWrite, hfld, hconf, hrel, hne, Nat.zero_testBit, Bool.false_eq_true, if_false]

theorem claimWrite_release (hid : id < 256) : claimWrite a res who (setFld (wd id) 35 35 1) s = claimRelease a res who id s := by
  obtain ⟨hfld, hconf, hrel⟩ := claimWord 1 hid
  simp only [claimWrite, hfld, hconf, hrel, Nat.testBit_one_zero, Bool.false_eq_true, if_false, if_true]

theorem claimGrant_free (hf : s.getF a 7 0 = 0) (hk : knownReq id = true) : claimGrant a res who id s = s.setF a 7 0 id := if_pos ⟨hf, hk⟩

theorem claimGrant_owned (hf : s.getF a 7 0 ≠ 0) : claimGrant a res who id s = claimRefuse a res who s := if_neg fun h => hf h.1

theorem knownReq_ne_zero (h : knownReq id = true) : id ≠ 0 := by
  rintro rfl
  simp [knownReq] at h

/-- Settles O11: in RUN the access reaches its register, and what the register does is its row of the table, a claim, or nothing. -/
theorem registerAccesses : Obligations.RegisterAccesses := by
  unfold Obligations.RegisterAccesses
  refine ⟨fun who a v f s hlive ha hf hne hgcl => ?plain, fun who a v s hlive hb => ?unmapped, fun who s hlive hd => ?rc, fun s hlive => ?dbg,
    fun k id s hlive hfree hk hid => ?claim, fun k id s hlive hown hid hne => ?conflict, fun k s hlive => ?release, fun who s hlive => ?time, fun who s hserved c hc => ?unserved⟩
  case plain =>
    have hblock : inBlock a.toNat = true := by simp [inBlock]; omega
    refine .of_exec_eq rfl ((regWrite_live hlive hblock).trans ((writeGo_plain ha hf hne hgcl).trans (plainWrite_eq hf))) ⟨?_, fun b hb => ?_, rfl⟩
    · rw [reg_setReg_same]
      exact BitVec.toNat_ofNat ..
    · exact reg_setReg_other (by simpa using hb)
  case unmapped =>
    have hw : regWrite who a.toNat v s = unmapped who (begin who s) := by
      simp [regWrite, hlive.served, hb]
    exact congrArg Host.Outcome.next hw
  case rc =>
    have hpeek : readAct who false Reg.sysEvtStatus (begin who s) = _ := (readAct_evtStatus who false _).trans (plainRead_evtStatus who false _)
    refine .of_exec_eq rfl ((regRead_live hlive rfl hd).trans hpeek) ⟨rfl, ?_, fun b hb => ?_⟩
    · exact (congrArg (fld · 15 0) reg_setReg_same).trans (fld_masked _)
    · exact reg_setReg_other (by simpa using hb)
  case dbg => exact .of_exec_eq rfl (regRead_evtStatus_dbg hlive false) ⟨rfl, rfl⟩
  case claim =>
    have haddr : (BitVec.ofNat 24 (Reg.scrSerClaim k.val)).toNat = Reg.scrSerClaim k.val := serClaim_addr k
    have hgrant : claimWrite (Reg.scrSerClaim k.val) ⟨5, k.val⟩ rqCore (setFld (wd id) 35 35 0) (begin rqCore s) = (begin rqCore s).setF (Reg.scrSerClaim k.val) 7 0 id :=
      (claimWrite_claim hid (knownReq_ne_zero hk)).trans (claimGrant_free hfree hk)
    refine .of_exec_eq rfl ((congrArg (regWrite rqCore · _ s) haddr).trans ((regWrite_live hlive (serClaim_inBlock k)).trans ((writeGo_serClaim k).trans hgrant))) ⟨?_, fun b hb => ?_, rfl⟩
    · exact (getF_setF_same (by decide)).trans (Nat.mod_eq_of_lt hid)
    · exact reg_setF_other (by simpa using hb)
  case conflict =>
    have haddr : (BitVec.ofNat 24 (Reg.scrSerClaim k.val)).toNat = Reg.scrSerClaim k.val := serClaim_addr k
    have hrefuse : claimWrite (Reg.scrSerClaim k.val) ⟨5, k.val⟩ rqCore (setFld (wd id) 35 35 0) (begin rqCore s) =
        claimRefuse (Reg.scrSerClaim k.val) ⟨5, k.val⟩ rqCore (begin rqCore s) :=
      (claimWrite_claim hid hne).trans (claimGrant_owned hown)
    exact .of_exec_eq rfl ((congrArg (regWrite rqCore · _ s) haddr).trans ((regWrite_live hlive (serClaim_inBlock k)).trans ((writeGo_serClaim k).trans hrefuse))) (raise_raises rfl)
  case release =>
    have haddr : (BitVec.ofNat 24 (Reg.scrTmrClaim k.val)).toNat = Reg.scrTmrClaim k.val := tmrClaim_addr k
    have howner : s.getF (Reg.scrTmrClaim k.val) 7 0 < 256 := fld_lt _
    have hrelease : claimWrite (Reg.scrTmrClaim k.val) ⟨2, k.val⟩ rqCore (setFld (wd (s.getF (Reg.scrTmrClaim k.val) 7 0)) 35 35 1) (begin rqCore s) =
        (begin rqCore s).setF (Reg.scrTmrClaim k.val) 7 0 0 := (claimWrite_release howner).trans (if_pos rfl)
    refine .of_exec_eq rfl ((congrArg (regWrite rqCore · _ s) haddr).trans ((regWrite_live hlive (tmrClaim_inBlock k)).trans ((writeGo_tmrClaim k).trans hrelease))) ⟨?_, fun b hb => ?_⟩
    · exact getF_setF_same (by decide)
    · exact reg_setF_other (by simpa using hb)
  case time => exact .of_exec_eq rfl (gateR_live hlive) ⟨rfl, Store.get_set_same, rfl⟩
  case unserved =>
    obtain ⟨a, v, rfl⟩ | ⟨a, rfl⟩ | ⟨f, v, rfl | rfl | rfl⟩ | ⟨a, v, rfl⟩ := hc
    · exact congrArg Host.Outcome.next (regWrite_unserved hserved)
    · exact congrArg Host.Outcome.next (regRead_unserved hserved)
    · exact congrArg Host.Outcome.next (gateW_unserved hserved)
    · exact congrArg Host.Outcome.next (gateW_unserved hserved)
    · exact congrArg Host.Outcome.next (gateW_unserved hserved)
    · exact congrArg Host.Outcome.next (gateW_unserved hserved)

end Sys2Proof.Machine
end

section
/-! O12: the event ring and the service buffer (R54, R55, R57). -/

namespace Sys2Proof.Machine

variable {s : State} {who : Req} {v : Word} {off j : Nat} {q : Quad} {qs : List Quad}

/-! ### Words of the ring -/

theorem beaterYield_stored (off j : Nat) (s : State) : scrStored (beaterYield off s) j = scrStored s j := by
  unfold beaterYield
  dsimp only
  split <;> rfl

theorem beaterYield_reg {a : Nat} (h : a ≠ Reg.scrBeaterStatus) (off : Nat) (s : State) : (beaterYield off s).reg a = s.reg a := by
  unfold beaterYield
  dsimp only
  split
  · exact reg_setB_other h
  · rfl

/-- A word put into the scratchpad is stored good at its offset, and nowhere else (R358). -/
theorem scrStored_scrPut : scrStored (scrPut off v s) j = if j = off then some { data := v } else scrStored s j := by
  rw [scrPut, scrStored_scrSet, beaterYield_stored]

theorem scrPut_reg {a : Nat} (h : a ≠ Reg.scrBeaterStatus) (off : Nat) (v : Word) (s : State) : (scrPut off v s).reg a = s.reg a :=
  (rfl : (scrPut off v s).reg a = (beaterYield off s).reg a).trans (beaterYield_reg h off s)

/-- The offset of the next record: EVT_BASE and four words for each record before EVT_WR (R54). -/
def ringOff (s : State) : Nat := (s.reg Reg.sysEvtBase).toNat + 4 * s.getF Reg.sysEvtWr 9 0

theorem scrStored_ringWrite : scrStored (ringWrite q s) j =
    if j = ringOff s + 3 then some { data := q.w3 } else if j = ringOff s + 2 then some { data := q.w2 } else if j = ringOff s + 1 then some { data := q.w1 }
    else if j = ringOff s then some { data := q.w0 } else scrStored s j := by
  have hput : scrStored (ringWrite q s) j =
      scrStored (scrPut (ringOff s + 3) q.w3 (scrPut (ringOff s + 2) q.w2 (scrPut (ringOff s + 1) q.w1 (scrPut (ringOff s) q.w0 s)))) j := rfl
  rw [hput, scrStored_scrPut, scrStored_scrPut, scrStored_scrPut, scrStored_scrPut]

theorem ringWrite_wr (q : Quad) (s : State) : (ringWrite q s).getF Reg.sysEvtWr 9 0 = (s.getF Reg.sysEvtWr 9 0 + 1) % 1024 := by
  refine (getF_setF_same (by decide)).trans ?_
  simp only [State.getF, scrPut_reg (show Reg.sysEvtWr ≠ Reg.scrBeaterStatus by decide)]
  rfl

/-! ### The service buffer -/

theorem drainOne_empty (h : s.evt.buf = []) : drainOne s = s := by
  simp only [drainOne, h]

theorem drainOne_unwritable (h : ringWritable s = false) : drainOne s = s := by
  cases hb : s.evt.buf with
  | nil => exact drainOne_empty hb
  | cons q qs => simp [drainOne, hb, h]

theorem drainOne_written (hb : s.evt.buf = q :: qs) (h : ringWritable s = true) : drainOne s = ringWrite q { s with evt := { s.evt with buf := qs } } := by
  simp only [drainOne, hb, h, if_true]

/-! ### EVT_CTRL and the pop -/

/-- Enabling the ring clears both pointers (R54). -/
theorem opEvtCtrl_enable (h : v.getLsbD 0 = true) : opEvtCtrl v s = ((s.setF Reg.sysEvtCtrl 0 0 1).setReg Reg.sysEvtWr 0).setReg Reg.sysEvtRd 0 := by
  simp only [opEvtCtrl, fld_bit, h, if_true, Bool.toNat_true]

theorem opEvtCtrl_disable (h : v.getLsbD 0 = false) : opEvtCtrl v s = s.setF Reg.sysEvtCtrl 0 0 0 := by
  simp only [opEvtCtrl, fld_bit, h, Bool.false_eq_true, if_false, Bool.toNat_false]

theorem opEvtPop_peek (h : s.evt.buf = q :: qs) : opEvtPop true s = answer q.w3 s := by
  simp [opEvtPop, evtPopWord, h]

theorem opEvtPop_take (h : s.evt.buf = q :: qs) : opEvtPop false s = { answer q.w3 s with evt := { s.evt with buf := qs } } := by
  simp [opEvtPop, evtPopWord, h]

/-- Settles O12: a pop takes the oldest record, a drain writes it at EVT_WR. -/
theorem eventRing : Obligations.EventRing := by
  unfold Obligations.EventRing
  refine ⟨fun who v s hlive hv => ?enable, fun who v s hlive hv => ?disable, fun who v s hlive => congrArg _ (gateW_live hlive), fun who q qs s hlive hd hb => ?pop,
    fun who p q qs s hlive hp hb => ?peek, fun s h => ?idle, fun q qs s hb hw => ?drain⟩
  case enable =>
    refine .of_exec_eq rfl ((gateW_live hlive).trans (opEvtCtrl_enable hv)) ⟨?_, ?_, reg_setReg_same, fun a ha => ?_, rfl⟩
    · have hset : ((begin who s).setF Reg.sysEvtCtrl 0 0 1).getB Reg.sysEvtCtrl 0 = true := getB_setB_same (c := true) (by decide)
      rw [getB_eq] at hset ⊢
      rwa [reg_setReg_other (by decide), reg_setReg_other (by decide)]
    · exact (reg_setReg_other (by decide)).trans reg_setReg_same
    · simp only [List.mem_cons, List.not_mem_nil, or_false, not_or] at ha
      obtain ⟨hctrl, hwr, hrd⟩ := ha
      exact (reg_setReg_other hrd).trans ((reg_setReg_other hwr).trans (reg_setF_other hctrl))
  case disable =>
    refine .of_exec_eq rfl ((gateW_live hlive).trans (opEvtCtrl_disable hv)) ⟨getB_setB_same (c := false) (by decide), fun a ha => ?_⟩
    exact reg_setF_other (by simpa using ha)
  case pop =>
    have hpeek : peeks who false = false := by simp [peeks, hd]
    have hpop : opEvtPop (peeks who false) (begin who s) = { answer q.w3 (begin who s) with evt := { s.evt with buf := qs } } := by
      rw [hpeek]
      exact opEvtPop_take hb
    exact congrArg Host.Outcome.next ((gateR_live hlive).trans hpop)
  case peek =>
    have hpeek : peeks who p = true := by
      obtain rfl | rfl := hp <;> simp [peeks]
    have hpop : opEvtPop (peeks who p) (begin who s) = answer q.w3 (begin who s) := by
      rw [hpeek]
      exact opEvtPop_peek hb
    exact congrArg Host.Outcome.next ((gateR_live hlive).trans hpop)
  case idle =>
    obtain h | h := h
    · exact congrArg Host.Outcome.next (drainOne_empty h)
    · exact congrArg Host.Outcome.next (drainOne_unwritable h)
  case drain =>
    have hstored (j : Nat) := scrStored_ringWrite (q := q) (s := { s with evt := { s.evt with buf := qs } }) (j := j)
    have hoff : ringOff { s with evt := { s.evt with buf := qs } } = ringOff s := rfl
    rw [hoff] at hstored
    refine .of_exec_eq rfl (drainOne_written hb hw) ⟨⟨?_, ?_, ?_, ?_, fun j hj => ?_⟩, ringWrite_evt q _, ringWrite_wr q _⟩
    · refine (hstored (ringOff s)).trans ?_
      simp
    · refine (hstored (ringOff s + 1)).trans ?_
      simp
    · refine (hstored (ringOff s + 2)).trans ?_
      simp
    · exact (hstored (ringOff s + 3)).trans (if_pos rfl)
    · change j < ringOff s ∨ ringOff s + 4 ≤ j at hj
      rw [hstored, if_neg (by omega), if_neg (by omega), if_neg (by omega), if_neg (by omega)]
      rfl

end Sys2Proof.Machine
end

section
/-! O13: the function lifecycle (R44 to R48, R434). -/

namespace Sys2Proof.Machine

variable {s t : State} {who : Req} {f : Func} {v : Word} {p : Nat}

/-! ### What stays on the mesh -/

/-- Only the mesh's own state may differ. -/
def MeshOnly (s t : State) : Prop := t = { s with mesh := t.mesh }

theorem MeshOnly.refl (s : State) : MeshOnly s s := rfl

theorem MeshOnly.of_mesh (s : State) (m : Mesh) : MeshOnly s { s with mesh := m } := rfl

theorem MeshOnly.trans {u : State} (h : MeshOnly s t) (k : MeshOnly t u) : MeshOnly s u := by
  unfold MeshOnly at h k ⊢
  rw [h] at k
  exact k

theorem MeshOnly.regs (h : MeshOnly s t) : t.regs = s.regs := by rw [h]

theorem MeshOnly.reg (h : MeshOnly s t) (a : Nat) : t.reg a = s.reg a := congrArg (Store.get regDefault · a) h.regs

theorem MeshOnly.evt (h : MeshOnly s t) : t.evt = s.evt := by rw [h]

theorem forAll_meshOnly {α : Type} (l : List α) (f : α → State → State) (h : ∀ x s, MeshOnly s (f x s)) (s : State) : MeshOnly s (forAll l f s) := by
  unfold forAll
  induction l generalizing s with
  | nil => exact .refl s
  | cons x l ih => exact (h x s).trans (ih _)

/-- A packet or a message sent on one link enters that link's queue (R313, R322). -/
theorem portSend_meshOnly (p : Nat) (k : Packet) (s : State) : MeshOnly s (portSend p k s) := by
  unfold portSend
  split
  · exact .of_mesh s _
  · exact .refl s

theorem msgSend_meshOnly (p svc : Nat) (fs : List (Nat × Nat)) (s : State) : MeshOnly s (msgSend p svc fs s) := by
  unfold msgSend
  dsimp only
  split
  · exact portSend_meshOnly _ _ s
  · exact forAll_meshOnly _ _ (fun _ s => portSend_meshOnly _ _ s) s

/-- A node that floods its LSA sends on its links alone (R314). -/
theorem lsaRefresh_meshOnly (s : State) : MeshOnly s (lsaRefresh s) := by
  unfold lsaRefresh
  dsimp only
  split
  · have hstore : MeshOnly s (lsaStore (ownLsa s) s) := .of_mesh s _
    have hflood : MeshOnly (lsaStore (ownLsa s) s) (lsaFlood none (ownLsa s) (lsaStore (ownLsa s) s)) := forAll_meshOnly _ _ (fun _ s => msgSend_meshOnly _ _ _ s) _
    exact (hstore.trans hflood).trans (.of_mesh _ _)
  · exact .refl s

/-! ### The registers of a function -/

/-- CTRL and STATUS of a function are no register that an event or a dropped packet changes, and no expert register. -/
theorem fnCtrl_apart (f : Func) : fnCtrl f ∉ evtRegs ∧ fnCtrl f ≠ Reg.mshCntDrop ∧ fnCtrl f ∉ [Reg.flcXcfg, Reg.wdtXcfg, Reg.scrBeaterXcfg] := by
  cases f with
  | mesh p => fin_cases p <;> decide
  | serial k => fin_cases k <;> decide
  | tmr k => fin_cases k <;> decide
  | _ => decide

theorem fnStat_apart (f : Func) : fnStat f ∉ [Reg.flcXcfg, Reg.wdtXcfg, Reg.scrBeaterXcfg] := by
  cases f with
  | mesh p => fin_cases p <;> decide
  | serial k => fin_cases k <;> decide
  | tmr k => fin_cases k <;> decide
  | _ => decide

/-- Events move a bit of the Beater's STATUS; every other STATUS stands apart from them. -/
theorem fnStat_evt (h : f ≠ .beater) : fnStat f ∉ evtRegs ∧ fnStat f ≠ Reg.mshCntDrop := by
  cases f with
  | mesh p => fin_cases p <;> decide
  | serial k => fin_cases k <;> decide
  | tmr k => fin_cases k <;> decide
  | beater => exact absurd rfl h
  | _ => decide

theorem fnStat_ne_fnCtrl (f : Func) : fnStat f ≠ fnCtrl f := Nat.succ_ne_self _

theorem fn_of_reg (h : t.reg (fnStat f) = s.reg (fnStat f)) : t.fn f = s.fn f := by
  unfold State.fn State.getF
  rw [h]

theorem fnEn_of_reg (h : t.reg (fnCtrl f) = s.reg (fnCtrl f)) : t.fnEn f = s.fnEn f := by
  simp only [State.fnEn, getB_eq, h]

theorem fnEn_setFn (st : Nat) : (s.setFn f st).fnEn f = s.fnEn f := fnEn_of_reg (reg_setF_other (fnStat_ne_fnCtrl f).symm)

theorem fn_setFn {st : Nat} (h : st < 8) : (s.setFn f st).fn f = st := (getF_setF_same (by decide)).trans (Nat.mod_eq_of_lt h)

/-! ### PROFILE -/

theorem profileLoad_of_ne (h : p ≠ 0 ∨ s.fn f ≠ fnOff) : profileLoad f p s = s := by
  refine if_neg ?_
  rintro ⟨-, hp, hoff⟩
  exact h.elim (fun hne => hne (eq_of_beq hp)) (fun hne => hne hoff)

theorem profileLoad_same (h : s.getF (fnCtrl f) 7 4 = p) : profileLoad f p s = s := if_neg fun hc => hc.1 h.symm

/-- The load of profile 0 stores PROFILE in CTRL and STATUS and gives the function's expert register its default. -/
theorem profileLoad_zero (hne : s.getF (fnCtrl f) 7 4 ≠ 0) (hoff : s.fn f = fnOff) :
    ∃ u, profileLoad f 0 s = u ∧ u.reg (fnCtrl f) = setFld (s.reg (fnCtrl f)) 7 4 0 ∧ u.reg (fnStat f) = setFld (s.reg (fnStat f)) 7 4 0 ∧
      (∀ a live, expertOf a = some (f, live) → u.reg a = regDefault a) ∧
      (∀ a, a ∉ [fnCtrl f, fnStat f, Reg.flcXcfg, Reg.wdtXcfg, Reg.scrBeaterXcfg] → u.reg a = s.reg a) ∧
      (f ≠ .wdt → f ≠ .beater → ∀ a, a ∉ [fnCtrl f, fnStat f, Reg.flcXcfg] → u.reg a = s.reg a) := by
  refine ⟨_, if_pos ⟨hne.symm, rfl, hoff⟩, ?_⟩
  have hbase : ∀ a, a ≠ fnCtrl f → a ≠ fnStat f → ((s.setF (fnCtrl f) 7 4 0).setF (fnStat f) 7 4 0).reg a = s.reg a := fun a hc hs =>
    (reg_setF_other hs).trans (reg_setF_other hc)
  have hctrl : ((s.setF (fnCtrl f) 7 4 0).setF (fnStat f) 7 4 0).reg (fnCtrl f) = setFld (s.reg (fnCtrl f)) 7 4 0 :=
    (reg_setF_other (fnStat_ne_fnCtrl f).symm).trans reg_setReg_same
  have hstat : ((s.setF (fnCtrl f) 7 4 0).setF (fnStat f) 7 4 0).reg (fnStat f) = setFld (s.reg (fnStat f)) 7 4 0 := by
    refine reg_setReg_same.trans ?_
    rw [reg_setF_other (fnStat_ne_fnCtrl f)]
  generalize (s.setF (fnCtrl f) 7 4 0).setF (fnStat f) 7 4 0 = u at hbase hctrl hstat ⊢
  obtain ⟨-, -, hcx⟩ := fnCtrl_apart f
  have hsx := fnStat_apart f
  simp only [List.mem_cons, List.not_mem_nil, or_false, not_or] at hcx hsx ⊢
  obtain ⟨hc1, hc2, hc3⟩ := hcx
  obtain ⟨hs1, hs2, hs3⟩ := hsx
  have hexp : ∀ a live, expertOf a = some (f, live) → (a = Reg.flcXcfg ∧ f = .flc) ∨ (a = Reg.wdtXcfg ∧ f = .wdt) ∨ (a = Reg.scrBeaterXcfg ∧ f = .beater) := by
    intro a live he
    unfold expertOf at he
    split at he
    · injection he with he; injection he with he; exact .inl ⟨‹_›, he.symm⟩
    · split at he
      · injection he with he; injection he with he; exact .inr (.inl ⟨‹_›, he.symm⟩)
      · split at he
        · injection he with he; injection he with he; exact .inr (.inr ⟨‹_›, he.symm⟩)
        · cases he
  cases f with
  | flc =>
    refine ⟨(reg_setReg_other hc1).trans hctrl, (reg_setReg_other hs1).trans hstat, fun a live he => ?_,
      fun a h => (reg_setReg_other h.2.2.1).trans (hbase a h.1 h.2.1), fun _ _ a h => (reg_setReg_other h.2.2).trans (hbase a h.1 h.2.1)⟩
    obtain ⟨rfl, -⟩ | ⟨-, h⟩ | ⟨-, h⟩ := hexp a live he
    · exact reg_setReg_same
    · cases h
    · cases h
  | wdt =>
    refine ⟨(reg_setReg_other hc2).trans hctrl, (reg_setReg_other hs2).trans hstat, fun a live he => ?_,
      fun a h => (reg_setReg_other h.2.2.2.1).trans (hbase a h.1 h.2.1), fun h => absurd rfl h⟩
    obtain ⟨-, h⟩ | ⟨rfl, -⟩ | ⟨-, h⟩ := hexp a live he
    · cases h
    · exact reg_setReg_same
    · cases h
  | beater =>
    refine ⟨(reg_setReg_other hc3).trans hctrl, (reg_setReg_other hs3).trans hstat, fun a live he => ?_,
      fun a h => (reg_setReg_other h.2.2.2.2).trans (hbase a h.1 h.2.1), fun _ h => absurd rfl h⟩
    obtain ⟨-, h⟩ | ⟨-, h⟩ | ⟨rfl, -⟩ := hexp a live he
    · cases h
    · cases h
    · exact reg_setReg_same
  | rhx | mesh | serial | tmr =>
    refine ⟨hctrl, hstat, fun a live he => ?_, fun a h => hbase a h.1 h.2.1, fun _ _ a h => hbase a h.1 h.2.1⟩
    obtain ⟨-, h⟩ | ⟨-, h⟩ | ⟨-, h⟩ := hexp a live he <;> cases h

/-- Either nothing is loaded, or profile 0 over another while OFF. -/
theorem profileLoad_cases (f : Func) (p : Nat) (s : State) : profileLoad f p s = s ∨ p = 0 ∧ s.getF (fnCtrl f) 7 4 ≠ 0 ∧ s.fn f = fnOff := by
  by_cases hp : p = 0
  · subst hp
    by_cases hoff : s.fn f = fnOff
    · by_cases hz : s.getF (fnCtrl f) 7 4 = 0
      · exact .inl (profileLoad_same hz)
      · exact .inr ⟨rfl, hz, hoff⟩
    · exact .inl (profileLoad_of_ne (.inr hoff))
  · exact .inl (profileLoad_of_ne (.inl hp))

theorem profileLoad_fn (f : Func) (p : Nat) (s : State) : (profileLoad f p s).fn f = s.fn f := by
  obtain h | ⟨rfl, hne, hoff⟩ := profileLoad_cases f p s
  · rw [h]
  · obtain ⟨u, hu, -, hstat, -⟩ := profileLoad_zero hne hoff
    rw [hu, State.fn, State.fn, State.getF, State.getF, hstat]
    exact fld_setFld_other (by decide) (by decide)

/-- PROFILE stands in bits 7:4 alone. -/
theorem profileLoad_ctrlBit (f : Func) (p : Nat) (s : State) {i : Nat} (hi : i < 4 ∨ 7 < i) :
    (profileLoad f p s).getB (fnCtrl f) i = s.getB (fnCtrl f) i := by
  obtain h | ⟨rfl, hne, hoff⟩ := profileLoad_cases f p s
  · rw [h]
  · obtain ⟨u, hu, hctrl, -⟩ := profileLoad_zero hne hoff
    rw [hu, getB_eq, getB_eq, hctrl, setFld_testBit (by decide), if_neg (by omega)]

theorem profileLoad_keep (hw : f ≠ .wdt) (hb : f ≠ .beater) (p : Nat) (s : State) :
    KeepRegs [fnCtrl f, fnStat f, Reg.flcXcfg] s (profileLoad f p s) := by
  obtain h | ⟨rfl, hne, hoff⟩ := profileLoad_cases f p s
  · rw [h]; exact fun _ _ => rfl
  · obtain ⟨u, hu, -, -, -, -, hk⟩ := profileLoad_zero hne hoff
    rw [hu]
    exact hk hw hb

theorem profileLoad_mode (f : Func) (p : Nat) (s : State) : (profileLoad f p s).mode = s.mode := by
  unfold profileLoad
  split
  · cases f <;> rfl
  · rfl

/-! ### The engine, the flash controller and the mesh ports -/

/-- The functions that clause by clause start and stop alike. -/
def HardFn (f : Func) : Prop := f = .rhx ∨ f = .flc ∨ ∃ p, f = .mesh p

theorem HardFn.ne (h : HardFn f) : f ≠ .wdt ∧ f ≠ .beater := by
  obtain rfl | rfl | ⟨p, rfl⟩ := h <;> simp

theorem HardFn.opCtrl_eq (h : HardFn f) (who : Req) (v : Word) (s : State) :
    opCtrl f who v s = fnDirect f ((profileLoad f (fld v 7 4) s).setF (fnCtrl f) 1 0 (fld v 1 0)) := by
  obtain rfl | rfl | ⟨p, rfl⟩ := h <;> rfl

theorem HardFn.start (h : HardFn f) (hm : s.mode = .run) : fnStart f s = fnStartHard f s := by
  refine (if_neg ?_).trans ?_
  · obtain rfl | rfl | ⟨p, rfl⟩ := h <;> simp [modeHolds, hm]
  · obtain rfl | rfl | ⟨p, rfl⟩ := h <;> rfl

/-- The hardware start of one of them moves STATE and may ask the governor. -/
theorem HardFn.startHard_reg (h : HardFn f) (a : Nat) : (fnStartHard f s).reg a = (s.setFn f fnStarting).reg a := by
  obtain rfl | rfl | ⟨p, rfl⟩ := h
  · exact govAsk_reg _ _ _ _ _
  · rfl
  · exact govAsk_reg _ _ _ _ _

theorem waitOff_meshOut (s : State) : MeshOut { s with eng := { s.eng with waitQ := [] } } (waitOff s) :=
  forAll_meshOut _ _ (fun _ s => meshSend_meshOut _ _ _ _ s) _

theorem waitOff_of_nil (h : s.eng.waitQ = []) : (waitOff s).regs = s.regs := by
  unfold waitOff
  rw [h]
  rfl

theorem fnStop_mesh_regs (p : Fin 8) (s : State) : (fnStop (.mesh p) s).regs = (s.setFn (.mesh p) fnStopping).regs := by
  unfold fnStop
  dsimp only
  split
  · exact (portSend_meshOnly _ _ _).regs
  · rfl

theorem HardFn.stop_keep (h : HardFn f) (hq : f ≠ .rhx ∨ s.eng.waitQ = []) : KeepRegs [fnStat f] s (fnStop f s) := by
  have hst : ∀ a, a ∉ [fnStat f] → (s.setFn f fnStopping).reg a = s.reg a := fun a ha => reg_setF_other fun he => ha (he ▸ .head _)
  obtain rfl | rfl | ⟨p, rfl⟩ := h
  · intro a ha
    have hregs : (fnStop .rhx s).regs = (s.setFn .rhx fnStopping).regs := waitOff_of_nil (hq.resolve_left fun h => h rfl)
    exact (congrArg (Store.get regDefault · a) hregs).trans (hst a ha)
  · exact hst
  · exact fun a ha => (congrArg (Store.get regDefault · a) (fnStop_mesh_regs p s)).trans (hst a ha)

theorem HardFn.stop_evt (h : HardFn f) : KeepRegs (fnStat f :: Reg.mshCntDrop :: evtRegs) s (fnStop f s) := by
  intro a ha
  obtain ⟨hs, ha⟩ := not_or.1 (mt List.mem_cons.2 ha)
  obtain ⟨hd, he⟩ := not_or.1 (mt List.mem_cons.2 ha)
  obtain rfl | hf := Classical.em (f = .rhx)
  · exact ((waitOff_meshOut _).regs a he hd).trans (reg_setF_other hs)
  · exact h.stop_keep (.inl hf) a (by simpa using hs)

theorem fnStop_fn (h : HardFn f ∨ f = .wdt) : (fnStop f s).fn f = fnStopping := by
  have hset : (s.setFn f fnStopping).fn f = fnStopping := fn_setFn (by decide)
  obtain ⟨he, hd⟩ : fnStat f ∉ evtRegs ∧ fnStat f ≠ Reg.mshCntDrop := fnStat_evt (h.elim (fun h => h.ne.2) (fun h => by rw [h]; decide))
  obtain (rfl | rfl | ⟨p, rfl⟩) | rfl := h
  · exact (fn_of_reg ((waitOff_meshOut _).regs _ he hd)).trans hset
  · exact hset
  · exact (fn_of_reg (congrArg (Store.get regDefault · _) (fnStop_mesh_regs p s))).trans hset
  · exact hset

theorem fnStop_rhx_waitQ (s : State) : (fnStop .rhx s).eng.waitQ = [] := by
  have h : (fnStop .rhx s).eng = _ := (waitOff_meshOut _).eng
  rw [h]

theorem opFnStopped_regs (f : Func) (s : State) : (opFnStopped f s).regs = (opStopDone f s).regs := by
  cases f with
  | mesh p => exact (lsaRefresh_meshOnly _).regs
  | _ => rfl

/-! ### CTRL writes -/

theorem setF_enable (hs : fnCtrl f = p) (v : Word) (s : State) : (s.setF p 1 0 (fld v 1 0)).fnEn f = v.getLsbD 0 := by
  subst hs
  rw [State.fnEn, getB_setF (by decide), if_pos (by decide), fld_testBit]
  simp [BitVec.getLsbD]

/-- What a CTRL write of one of these functions hands to its direction. -/
def hardStored (f : Func) (v : Word) (s : State) : State := (profileLoad f (fld v 7 4) s).setF (fnCtrl f) 1 0 (fld v 1 0)

theorem hardStored_fnEn (f : Func) (v : Word) (s : State) : (hardStored f v s).fnEn f = v.getLsbD 0 := setF_enable rfl v _

theorem hardStored_fn (f : Func) (v : Word) (s : State) : (hardStored f v s).fn f = s.fn f :=
  (fn_of_reg (reg_setF_other (fnStat_ne_fnCtrl f))).trans (profileLoad_fn f _ s)

theorem HardFn.enable (h : HardFn f) (hm : s.mode = .run) (hoff : s.fn f = fnOff) (v : Word) :
    (opCtrl f who (v ||| 1) s).fn f = fnStarting ∧ (opCtrl f who (v ||| 1) s).fnEn f = true ∧
      KeepRegs [fnCtrl f, fnStat f, Reg.flcXcfg] s (opCtrl f who (v ||| 1) s) := by
  have hen : (hardStored f (v ||| 1) s).fnEn f = true := (hardStored_fnEn f _ s).trans (by simp)
  have hmode : (hardStored f (v ||| 1) s).mode = .run := (profileLoad_mode f _ s).trans hm
  have hop : opCtrl f who (v ||| 1) s = fnStartHard f (hardStored f (v ||| 1) s) :=
    (h.opCtrl_eq who _ s).trans ((if_pos hen).trans ((if_pos ((hardStored_fn f _ s).trans hoff)).trans (h.start hmode)))
  rw [hop]
  refine ⟨(fn_of_reg (h.startHard_reg _)).trans (fn_setFn (by decide)),
    (fnEn_of_reg (h.startHard_reg _)).trans ((fnEn_setFn _).trans hen), fun a ha => ?_⟩
  obtain ⟨hc, hs, -⟩ : a ≠ fnCtrl f ∧ a ≠ fnStat f ∧ a ≠ Reg.flcXcfg := by simpa using ha
  calc (fnStartHard f (hardStored f (v ||| 1) s)).reg a
      = (hardStored f (v ||| 1) s).reg a := (h.startHard_reg a).trans (reg_setF_other hs)
    _ = (profileLoad f (fld (v ||| 1) 7 4) s).reg a := reg_setF_other hc
    _ = s.reg a := profileLoad_keep h.ne.1 h.ne.2 _ s a ha

theorem HardFn.disable (h : HardFn f) (hon : s.fn f = fnOn ∨ s.fn f = fnFault) (v : Word) :
    ∃ u, opCtrl f who (v &&& ~~~(1 : Word)) s = fnStop f u ∧ u.fnEn f = false ∧ KeepRegs [fnCtrl f] s u ∧ u.eng = s.eng := by
  have hoff : s.fn f ≠ fnOff := by
    rcases hon with h | h <;> rw [h] <;> decide
  have hload : profileLoad f (fld (v &&& ~~~(1 : Word)) 7 4) s = s := profileLoad_of_ne (.inr hoff)
  have hen : (hardStored f (v &&& ~~~(1 : Word)) s).fnEn f = false := (hardStored_fnEn f _ s).trans (by simp)
  have hon' : (hardStored f (v &&& ~~~(1 : Word)) s).fn f = fnOn ∨ (hardStored f (v &&& ~~~(1 : Word)) s).fn f = fnFault := by
    rw [hardStored_fn]; exact hon
  refine ⟨hardStored f (v &&& ~~~(1 : Word)) s, (h.opCtrl_eq who _ s).trans ((if_neg (show ¬ (hardStored f _ s).fnEn f = true by rw [hen]; decide)).trans (if_pos hon')), hen,
    fun a ha => ?_, ?_⟩
  · rw [hardStored, hload]
    exact reg_setF_other (by simpa using ha)
  · rw [hardStored, hload]
    rfl

theorem HardFn.stopped_fnEn (h : HardFn f) (hen : s.fnEn f = false) : (fnStop f s).fnEn f = false := by
  obtain ⟨he, hd, -⟩ := fnCtrl_apart f
  have hmem : fnCtrl f ∉ fnStat f :: Reg.mshCntDrop :: evtRegs := by
    simp only [List.mem_cons, not_or]
    exact ⟨(fnStat_ne_fnCtrl f).symm, hd, he⟩
  exact (fnEn_of_reg (h.stop_evt _ hmem)).trans hen

/-- A direction leaves ENABLE of the watchdog as it stands. -/
theorem fnDirect_wdt_fnEn (s : State) : (fnDirect .wdt s).fnEn .wdt = s.fnEn .wdt := by
  have hset : ∀ st, (s.setFn .wdt st).fnEn .wdt = s.fnEn .wdt := fun st => fnEn_setFn st
  unfold fnDirect
  split
  · split
    · unfold fnStart
      split
      · rfl
      · exact hset _
    · rfl
  · split
    · exact hset _
    · rfl

theorem fnDirect_wdtLocked (s : State) : wdtLocked (fnDirect .wdt s) = wdtLocked s := by
  have hset : ∀ st, wdtLocked (s.setFn .wdt st) = wdtLocked s := fun st => getB_setF_other (by decide)
  unfold fnDirect
  split
  · split
    · unfold fnStart
      split
      · rfl
      · exact hset _
    · rfl
  · split
    · exact hset _
    · rfl

/-- LOCK keeps ENABLE of the watchdog against a write of 0 (R434). -/
theorem ctrlStore_wdt_locked (hl : wdtLocked s = true) (hv : v.getLsbD 0 = false) : (ctrlStore .wdt v s).fnEn .wdt = s.fnEn .wdt := by
  have hen : ((s.setF Reg.wdtCtrl 1 1 (fld v 1 1)).setF Reg.wdtCtrl 0 0 (s.getF Reg.wdtCtrl 0 0)).getB Reg.wdtCtrl 0 = s.getB Reg.wdtCtrl 0 := by
    rw [getB_setF (by decide), if_pos (by decide)]
    unfold State.getB
    obtain h | h : s.getF Reg.wdtCtrl 0 0 = 0 ∨ s.getF Reg.wdtCtrl 0 0 = 1 := by
      have : s.getF Reg.wdtCtrl 0 0 < 2 := fld_lt _
      omega
    · rw [h]; rfl
    · rw [h]; rfl
  unfold ctrlStore
  simp only [hl, hv, fnCtrl]
  split
  · exact (getB_setF (by decide)).trans ((if_neg (by decide)).trans hen)
  · exact hen

theorem ctrlStore_wdt_lock (hv : v.getLsbD 8 = true) : wdtLocked (ctrlStore .wdt v s) = true := by
  unfold ctrlStore
  simp only [hv, if_true, fnCtrl]
  exact getB_setB_same (by decide)

/-! ### Expert registers -/

theorem opExpert_acts {a : Nat} {live : Bool} (he : expertOf a = some (f, live)) (hx : s.getB (fnCtrl f) 1 = true) (hlive : s.fn f = fnOff ∨ live = true)
    (hlock : ¬ (f = .wdt ∧ wdtLocked s = true)) :
    opExpert a v s = (s.setReg a (wd (if f = .wdt then fld v 16 0 else fld v 0 0))).setF (fnStat f) 7 4 0xF := by
  have hcond : ¬ (¬ s.getB (fnCtrl f) 1 = true ∨ (s.fn f ≠ fnOff ∧ ¬ live = true) ∨ (f = .wdt ∧ wdtLocked s = true)) := by
    rintro (h | ⟨h, h'⟩ | h)
    · exact h hx
    · exact hlive.elim h h'
    · exact hlock h
  unfold opExpert
  rw [he]
  refine (if_neg hcond).trans ?_
  cases f <;> rfl

theorem opExpert_ignored {a : Nat} (h : ∀ f live, expertOf a = some (f, live) → s.getB (fnCtrl f) 1 = false ∨ (s.fn f ≠ fnOff ∧ live = false) ∨
    (f = .wdt ∧ wdtLocked s = true)) : opExpert a v s = s := by
  unfold opExpert
  cases he : expertOf a with
  | none => rfl
  | some x =>
    obtain ⟨f, live⟩ := x
    refine if_pos ?_
    simpa using h f live he

/-! ### The peripherals -/

theorem opCtrl_mine (hb : f ≠ .beater) (hser : ∀ k, f = .serial k → periphMine (Reg.scrSerClaim k.val) who s = true)
    (htmr : ∀ k, f = .tmr k → periphMine (Reg.scrTmrClaim k.val) who s = true) : opCtrl f who v s = ctrlWrite f v s := by
  cases f with
  | beater => exact absurd rfl hb
  | serial k => exact if_pos (hser k rfl)
  | tmr k => exact if_pos (htmr k rfl)
  | _ => rfl

/-- Settles O13: the start and the stop of each function come down to `fnDirect` over the stored CTRL fields, and a stop of the engine or of a
port sends on the mesh at most. -/
theorem functionLifecycle : Obligations.FunctionLifecycle := by
  unfold Obligations.FunctionLifecycle
  refine ⟨fun who f v s hlive hf hoff => ?enable, fun who f v s hlive hf hon => ?disable, fun who v s hlive hl => ?locked, fun who v s hlive => ?lock,
    fun f s hst hr hc hen => ?startOn, fun f s hst hr hc hen => ⟨?startStop, fun hf => ?startStopping⟩, fun f s hst hr hc hen => ?stop,
    fun who f v s hlive hb hser htmr => ?write, fun who v s hlive => ?beater, fun who v s hlive => ⟨fun k hk => ?serial, fun k hk => ?tmr⟩,
    fun f p s h => profileLoad_of_ne h, fun f s hne hoff => ?load, fun who v s hlive hp hoff hen hv => ?undefined,
    fun who a v s f live hlive he hx hl hlock => ?expert, fun who a v s hlive h => ?ignored⟩
  case enable =>
    exact .of_exec_eq rfl (gateW_live hlive) (HardFn.enable (s := begin who s) hf hlive.1 hoff v)
  case disable =>
    obtain ⟨u, hop, hen, hkeep, heng⟩ := HardFn.disable (s := begin who s) (who := who) hf hon v
    have hhard : HardFn f := hf
    refine .of_exec_eq rfl ((gateW_live hlive).trans hop) ⟨fnStop_fn (.inl hf), hhard.stopped_fnEn hen, fun a ha => ?_, ?_, fun hq a ha => ?_⟩
    · obtain ⟨hc, ha⟩ := not_or.1 (mt List.mem_cons.2 ha)
      exact (hhard.stop_evt a ha).trans (hkeep a (by simpa using hc))
    · rintro rfl
      exact fnStop_rhx_waitQ u
    · obtain ⟨hc, ha⟩ := not_or.1 (mt List.mem_cons.2 ha)
      exact (hhard.stop_keep (by rw [heng]; exact hq) a ha).trans (hkeep a (by simpa using hc))
  case locked =>
    refine .of_exec_eq rfl (gateW_live hlive) ?_
    have hl' : wdtLocked (profileLoad .wdt (fld (v &&& ~~~(1 : Word)) 7 4) (begin who s)) = true :=
      (profileLoad_ctrlBit .wdt _ _ (i := 8) (by decide)).trans hl
    exact (fnDirect_wdt_fnEn _).trans ((ctrlStore_wdt_locked hl' (by simp)).trans (profileLoad_ctrlBit .wdt _ _ (i := 0) (by decide)))
  case lock =>
    refine .of_exec_eq rfl (gateW_live hlive) ((fnDirect_wdtLocked _).trans (ctrlStore_wdt_lock ?_))
    rw [BitVec.getLsbD_or, show (wd (1 <<< 8)).getLsbD 8 = true by decide, Bool.or_true]
  case startOn => exact .of_exec_eq rfl ((if_pos ⟨hst, hr, hc⟩).trans (if_pos hen)) (fn_setFn (by decide))
  case startStop => exact congrArg Host.Outcome.next ((if_pos ⟨hst, hr, hc⟩).trans (if_neg (by simp [hen])))
  case startStopping =>
    exact fnStop_fn (by simp only [HardFn]; tauto)
  case stop =>
    have hdone : opStopDone f s = (fnEnd f s).setFn f fnOff := (if_pos ⟨hst, hr, hc⟩).trans (if_neg (by rw [fnEn_setFn, hen]; decide))
    exact .of_exec rfl ((fn_of_reg (congrArg (Store.get regDefault · _) ((opFnStopped_regs f s).trans (congrArg State.regs hdone)))).trans (fn_setFn (by decide)))
  case write => exact congrArg Host.Outcome.next ((gateW_live hlive).trans (opCtrl_mine (s := begin who s) hb hser htmr))
  case beater => exact congrArg Host.Outcome.next (gateW_live hlive)
  case serial => exact congrArg Host.Outcome.next ((gateW_live hlive).trans (if_neg (by rw [show periphMine _ who (begin who s) = false from hk]; decide)))
  case tmr => exact congrArg Host.Outcome.next ((gateW_live hlive).trans (if_neg (by rw [show periphMine _ who (begin who s) = false from hk]; decide)))
  case load =>
    obtain ⟨u, hu, hctrl, hstat, hexp, -⟩ := profileLoad_zero hne hoff
    rw [hu]
    refine ⟨?_, ?_, hexp⟩
    · rw [State.getF, hctrl, fld_setFld_same (by decide)]; rfl
    · rw [State.getF, hstat, fld_setFld_same (by decide)]; rfl
  case undefined =>
    have hload : profileLoad .flc (fld v 7 4) (begin who s) = begin who s := profileLoad_of_ne (.inl hp)
    refine congrArg Host.Outcome.next ((gateW_live hlive).trans ?_)
    have hop : opCtrl .flc who v (begin who s) = fnDirect .flc (hardStored .flc v (begin who s)) := rfl
    have hen' : ¬ (hardStored .flc v (begin who s)).fnEn .flc = true := by
      rw [hardStored_fnEn, hv]; decide
    have hst : ¬ ((hardStored .flc v (begin who s)).fn .flc = fnOn ∨ (hardStored .flc v (begin who s)).fn .flc = fnFault) := by
      rw [hardStored_fn, show (begin who s).fn .flc = fnOff from hoff]; decide
    rw [hop, fnDirect, if_neg hen', if_neg hst, hardStored, hload]
    rfl
  case expert => exact congrArg Host.Outcome.next ((gateW_live hlive).trans (opExpert_acts (s := begin who s) he hx hl hlock))
  case ignored => exact congrArg Host.Outcome.next ((gateW_live hlive).trans (opExpert_ignored (s := begin who s) h))

end Sys2Proof.Machine
end

section
/-! O14: an edge at a Quire (R107 to R136). -/

namespace Sys2Proof.Machine

/-! ### One step of many -/

/-- Where step `k` alone moves a view of the state, the view after all steps is what step `k` makes of the view before them. -/
theorem forAll_range_once {α : Type} {P : State → α} {Inv : State → Prop} {f : Nat → State → State} {g : α → α} {k m : Nat}
    (hinv : ∀ j v, Inv v → Inv (f j v)) (hother : ∀ j v, Inv v → j < m → j ≠ k → P (f j v) = P v) (hstep : k < m → ∀ v, Inv v → P (f k v) = g (P v)) :
    ∀ s, Inv s → Inv (forAll (List.range m) f s) ∧ P (forAll (List.range m) f s) = if k < m then g (P s) else P s := by
  induction m with
  | zero => exact fun s hs => ⟨hs, rfl⟩
  | succ m ih =>
    intro s hs
    obtain ⟨hi, hp⟩ := ih (fun j v hv hj => hother j v hv (by omega)) (fun hk => hstep (by omega)) s hs
    have hsplit : forAll (List.range (m + 1)) f s = f m (forAll (List.range m) f s) := by simp [forAll, List.range_succ]
    rw [hsplit]
    refine ⟨hinv _ _ hi, ?_⟩
    by_cases hk : m = k
    · subst hk
      rw [hstep (Nat.lt_succ_self _) _ hi, hp, if_neg (Nat.lt_irrefl _), if_pos (Nat.lt_succ_self _)]
    · rw [hother m _ hi (Nat.lt_succ_self _) hk, hp]
      exact if_congr (by omega) rfl rfl

/-- A view that no step moves. -/
theorem forAll_keeps {α β : Type} {P : State → β} {Inv : State → Prop} {f : α → State → State} (hinv : ∀ j v, Inv v → Inv (f j v))
    (hkeep : ∀ j v, Inv v → P (f j v) = P v) (l : List α) : ∀ s, Inv s → Inv (forAll l f s) ∧ P (forAll l f s) = P s := by
  induction l with
  | nil => exact fun s hs => ⟨hs, rfl⟩
  | cons x l ih => exact fun s hs => ⟨(ih _ (hinv x s hs)).1, (ih _ (hinv x s hs)).2.trans (hkeep x s hs)⟩

/-! ### Bits of a cell -/

variable {u v : State} {c : CellPos} {i : QuireIn} {e : CellIn} {n col row k j m : Nat} {b : Bool}

theorem orFold_testBit (f : Nat → Bool) (m i : Nat) : ((List.range m).foldl (fun v i => v ||| (f i).toNat <<< i) 0).testBit i = (decide (i < m) && f i) := by
  induction m with
  | zero => simp
  | succ m ih =>
    rw [List.range_succ, List.foldl_append, List.foldl_cons, List.foldl_nil, Nat.testBit_or, ih, Nat.testBit_shiftLeft]
    rcases Nat.lt_trichotomy i m with h | h | h
    · have hd : decide (m ≤ i) = false := by simpa using h
      have h1 : i < m + 1 := by omega
      simp [h, h1, hd]
    · subst h
      cases f i <;> simp
    · have h0 : i ≠ 0 := by omega
      have hb : (f m).toNat.testBit (i - m) = false := by
        have h2 : i - m ≠ 0 := by omega
        cases f m
        · exact Nat.zero_testBit _
        · exact Nat.testBit_one_eq_true_iff_self_eq_zero.not.2 h2 |> eq_false_of_ne_true
      have h1 : ¬ i < m := by omega
      have h2 : ¬ i < m + 1 := by omega
      simp [hb, h1, h2]

theorem cellBits_testBit (s : State) (c : CellPos) (hi lo i : Nat) :
    (cellBits s c hi lo).testBit i = (decide (i < hi + 1 - lo) && cellBit s c.n c.col c.row c.k (lo + i)) :=
  orFold_testBit (fun i => cellBit s c.n c.col c.row c.k (lo + i)) _ i

theorem cellBits_one (s : State) (c : CellPos) (i : Nat) : cellBits s c i i = (cellBit s c.n c.col c.row c.k i).toNat := by
  have h : i + 1 - i = 1 := by omega
  unfold cellBits
  rw [h]
  simp

theorem cellL_bit (s : State) (c : CellPos) (h : j < 64) : (bitN (cellL s c) j == 1) = cellBit s c.n c.col c.row c.k j := by
  have hb := cellBits_testBit s c 63 0 j
  rw [Nat.zero_add, decide_eq_true (by omega : j < 63 + 1 - 0), Bool.true_and] at hb
  rw [← hb, Nat.testBit_eq_decide_div_mod_eq]
  simp only [bitN, cellL, Nat.shiftRight_eq_div_pow]
  exact beq_eq_decide ..

/-! ### Keys -/

theorem keyWord_cfgKey (p : Bool) (seg col minor : Nat) {w : Nat} (h : w < 128) : keyWord (cfgKey p seg col minor w) = w := by
  apply Nat.eq_of_testBit_eq
  intro i
  simp only [keyWord, cfgKey, show (128 : Nat) = 2 ^ 7 by rfl, Nat.testBit_mod_two_pow, Nat.testBit_or, Nat.testBit_shiftLeft]
  by_cases hi : i < 7
  · have h28 : ¬ 28 ≤ i := by omega
    have h21 : ¬ 21 ≤ i := by omega
    have h16 : ¬ 16 ≤ i := by omega
    have h7 : ¬ 7 ≤ i := by omega
    simp [hi, h28, h21, h16, h7]
  · have hw : w.testBit i = false := Nat.testBit_lt_two_pow (Nat.lt_of_lt_of_le h (Nat.pow_le_pow_right (by decide : 0 < 2) (by omega : 7 ≤ i)))
    simp [hi, hw]

theorem keyMinor_cfgKey (p : Bool) (seg col : Nat) {minor w : Nat} (hm : minor < 512) (h : w < 128) : keyMinor (cfgKey p seg col minor w) = minor := by
  apply Nat.eq_of_testBit_eq
  intro i
  have hw : w.testBit (7 + i) = false := Nat.testBit_lt_two_pow (Nat.lt_of_lt_of_le h (Nat.pow_le_pow_right (by decide : 0 < 2) (by omega : 7 ≤ 7 + i)))
  simp only [keyMinor, cfgKey, show (512 : Nat) = 2 ^ 9 by rfl, Nat.testBit_mod_two_pow, Nat.testBit_or, Nat.testBit_shiftRight, Nat.testBit_shiftLeft, hw]
  by_cases hi : i < 9
  · have h28 : ¬ 28 ≤ 7 + i := by omega
    have h21 : ¬ 21 ≤ 7 + i := by omega
    have h16 : ¬ 16 ≤ 7 + i := by omega
    simp [hi, h28, h21, h16]
  · have hm' : minor.testBit i = false := Nat.testBit_lt_two_pow (Nat.lt_of_lt_of_le hm (Nat.pow_le_pow_right (by decide : 0 < 2) (by omega : 9 ≤ i)))
    simp [hi, hm']

/-- The LUT bits of a cell stand in different words (R121). -/
theorem lutKey_inj (s : State) (c : CellPos) (hr : c.row < 32) {j l : Nat} (hj : j < 64) (hl : l < 64) (h : lutKey s c j = lutKey s c l) : j = l := by
  have hm : j / 4 = l / 4 := by
    have := congrArg keyMinor h
    rwa [lutKey, lutKey, keyMinor_cfgKey _ _ _ (by omega) (by omega), keyMinor_cfgKey _ _ _ (by omega) (by omega)] at this
  have hw : 4 * c.row + j % 4 = 4 * c.row + l % 4 := by
    have := congrArg keyWord h
    rwa [lutKey, lutKey, keyWord_cfgKey _ _ _ _ (by omega), keyWord_cfgKey _ _ _ _ (by omega)] at this
  omega

theorem cellKey_ne {n col row j k : Nat} (h : j ≠ k) : (CellPos.mk n col row j).key ≠ (CellPos.mk n col row k).key := by
  simp only [CellPos.key, CellPos.ix, cellIx]
  omega

/-! ### Which plane is active, which cells are the user's -/

/-- Roles, golden maps and parity errors stand as in `u`. -/
structure SameMaps (u v : State) : Prop where
  rgn : ∀ m, (v.rg m).role = (u.rg m).role ∧ (v.rg m).gold0 = (u.rg m).gold0 ∧ (v.rg m).gold1 = (u.rg m).gold1 ∧ (v.rg m).goldBad = (u.rg m).goldBad
  ring : v.fab.ringRole = u.fab.ringRole
  par : v.fab.parErr = u.fab.parErr

theorem SameMaps.refl (u : State) : SameMaps u u := ⟨fun _ => ⟨rfl, rfl, rfl, rfl⟩, rfl, rfl⟩

/-- A change of other parts of the fabric. -/
theorem SameMaps.fab {f : Fabric} (h : SameMaps u v) (hr : f.ringRole = v.fab.ringRole) (hp : f.parErr = v.fab.parErr) : SameMaps u { v with fab := f } :=
  ⟨h.rgn, hr.trans h.ring, hp.trans h.par⟩

theorem SameMaps.count (h : SameMaps u v) (a hi lo : Nat) : SameMaps u (v.count a hi lo) := ⟨h.rgn, h.ring, h.par⟩

theorem SameMaps.active (h : SameMaps u v) (n : Nat) : activeOf v n = activeOf u n := by
  unfold activeOf
  rw [(h.rgn n).1, h.ring]

theorem SameMaps.lutKey (h : SameMaps u v) (c : CellPos) (j : Nat) : lutKey v c j = lutKey u c j := by
  unfold Machine.lutKey
  rw [h.active]

theorem SameMaps.userOwned (h : SameMaps u v) (c : CellPos) : userOwned v c = userOwned u c := by
  obtain ⟨-, h0, h1, hb⟩ := h.rgn c.n
  unfold Machine.userOwned goldBit
  rw [h.active, h0, h1, hb]

/-! ### A write of a LUT bit -/

theorem one_shl_bit {k c : Nat} (hc : c < 36) : (BitVec.ofNat 36 (1 <<< c)).getLsbD k = decide (k = c) := by
  rw [BitVec.getLsbD_ofNat, Nat.one_shiftLeft, Nat.testBit_two_pow]
  by_cases h : k = c
  · simp [h, hc]
  · simp [h, Ne.symm h]

/-- The stored bit takes its value; no other bit of any word moves. -/
theorem cellPutL_bit (hc : c.k < 36) (hk : k < 36) (key : Nat) :
    ((cellPutL c j b v).cfgCell key).data.getLsbD k = if key = lutKey v c j ∧ k = c.k then b else (v.cfgCell key).data.getLsbD k := by
  unfold cellPutL
  dsimp only
  split
  next h =>
    split
    next he => rw [he.1, he.2, h]
    next => rfl
  next h =>
    have hflip : ∀ d : Word, (d ^^^ (1 <<< c.k)).getLsbD k = (d.getLsbD k != decide (k = c.k)) := fun d => by
      exact (BitVec.getLsbD_xor ..).trans (congrArg _ (one_shl_bit hc))
    rw [cfgCell_setCfg]
    by_cases hkey : key = lutKey v c j
    · subst hkey
      have hd : (if userOwned v c = true then { v.cfgCell (lutKey v c j) with data := (v.cfgCell (lutKey v c j)).data ^^^ (1 <<< c.k) }
          else (v.cfgCell (lutKey v c j)).flip c.k).data = (v.cfgCell (lutKey v c j)).data ^^^ (1 <<< c.k) := by
        split
        · rfl
        · simp [Cell.flip, hc]
      rw [if_pos rfl, hd, hflip]
      by_cases hkc : k = c.k
      · subst hkc
        simp only [decide_true, and_self, if_true]
        revert h
        cases (v.cfgCell (lutKey v c j)).data.getLsbD c.k <;> cases b <;> simp
      · simp [hkc]
    · simp [hkey]

theorem cellPutL_other {key : Nat} (h : key ≠ lutKey v c j) : (cellPutL c j b v).cfgCell key = v.cfgCell key := by
  unfold cellPutL
  dsimp only
  split
  · rfl
  · exact cfgCell_setCfg.trans (if_neg h)

theorem cellPutL_err (h : userOwned v c = true) (key : Nat) : ((cellPutL c j b v).cfgCell key).err = (v.cfgCell key).err := by
  unfold cellPutL
  dsimp only
  rw [if_pos h]
  split
  · rfl
  · rw [cfgCell_setCfg]
    split
    next he => rw [he]
    next => rfl

theorem cellPutL_rest (c : CellPos) (j : Nat) (b : Bool) (v : State) : ∃ g, cellPutL c j b v = { v with fab := { v.fab with cfg := g } } := by
  unfold cellPutL
  dsimp only
  split
  · exact ⟨v.fab.cfg, rfl⟩
  · exact ⟨_, rfl⟩

theorem SameMaps.put (h : SameMaps u v) : SameMaps u (cellPutL c j b v) := by
  obtain ⟨g, hg⟩ := cellPutL_rest c j b v
  rw [hg]
  exact h.fab rfl rfl

/-! ### The memory of a cell at an edge -/

/-- LUT bit `j` of a cell in the words that hold the Quire's cells in `u`. -/
def lutBit (u : State) (c : CellPos) (j k : Nat) (v : State) : Bool := (v.cfgCell (lutKey u c j)).data.getLsbD k

/-- The LUT bit after an edge that acts on its cell: a write stores AX where idx points, a shift takes the bit before it (R113, R115). -/
def lutAfter (u : State) (c : CellPos) (e : CellIn) (j : Nat) (old : Bool) : Bool :=
  if cellActs u c e = false then old
  else if cellMode u c = 2 then (if j = e.idx then e.ax else old)
  else if j = 0 then shiftIn u c e else bitN (cellL u c) (j - 1) == 1

theorem cellMem_rest (old : State) (c : CellPos) (e : CellIn) (v : State) : ∃ g p, cellMem old c e v = { v with fab := { v.fab with cfg := g, perr := p } } := by
  unfold cellMem
  split
  · exact ⟨v.fab.cfg, v.fab.perr, rfl⟩
  · split
    · obtain ⟨g, hg⟩ := cellPutL_rest c e.idx e.ax v
      dsimp only
      rw [hg]
      split
      · exact ⟨g, v.fab.perr, rfl⟩
      · exact ⟨g, _, rfl⟩
    · have hfold : ∀ (l : List Nat) (f : Nat → Bool) v, ∃ g, forAll l (fun j s => cellPutL c j (f j) s) v = { v with fab := { v.fab with cfg := g } } := by
        intro l f
        induction l with
        | nil => exact fun v => ⟨v.fab.cfg, rfl⟩
        | cons x l ih =>
          intro v
          obtain ⟨g, hg⟩ := cellPutL_rest c x (f x) v
          obtain ⟨g', hg'⟩ := ih (cellPutL c x (f x) v)
          exact ⟨g', hg'.trans (by rw [hg])⟩
      obtain ⟨g, hg⟩ := hfold (List.range 64) (fun j => if j = 0 then shiftIn old c e else bitN (cellL old c) (j - 1) == 1) v
      exact ⟨g, v.fab.perr, hg⟩

theorem SameMaps.mem (h : SameMaps u v) (old : State) : SameMaps u (cellMem old c e v) := by
  obtain ⟨g, p, hg⟩ := cellMem_rest old c e v
  rw [hg]
  exact h.fab rfl rfl

/-- What a write or a shift of one cell leaves in LUT bit `j` of cell `k`. -/
theorem cellMem_bit (h : SameMaps u v) (hc : c.k < 36) (hk : k < 36) (hr : c.row < 32) (hj : j < 64) (hidx : e.idx < 64) :
    lutBit u c j k (cellMem u c e v) = if k = c.k then lutAfter u c e j (lutBit u c j k v) else lutBit u c j k v := by
  have hput : ∀ l x w, SameMaps u w → l < 64 → lutBit u c j k (cellPutL c l x w) = if j = l ∧ k = c.k then x else lutBit u c j k w := by
    intro l x w hw hl
    refine (cellPutL_bit hc hk _).trans (if_congr ?_ rfl rfl)
    rw [hw.lutKey]
    exact and_congr ⟨fun he => lutKey_inj u c hr hj hl he, fun he => by rw [he]⟩ Iff.rfl
  unfold cellMem lutAfter
  by_cases ha : cellActs u c e = true
  · have hf : ¬ cellActs u c e = false := by rw [ha]; decide
    rw [if_neg (not_not.2 ha), if_neg hf]
    by_cases hm : cellMode u c = 2
    · rw [if_pos hm, if_pos hm]
      have hw := hput e.idx e.ax v h hidx
      dsimp only
      have hsame : ∀ w : State, lutBit u c j k (if Store.get (fun _ => false) w.fab.parErr c.key = true then w
          else { w with fab := { w.fab with perr := Store.set (fun _ => false) w.fab.perr c.key false } }) = lutBit u c j k w := by
        intro w
        split <;> rfl
      rw [hsame, hw]
      by_cases hkc : k = c.k
      · simp [hkc]
      · simp [hkc]
    · rw [if_neg hm, if_neg hm]
      have hall := forAll_range_once (P := lutBit u c j k) (Inv := SameMaps u) (k := j) (m := 64)
        (f := fun l w => cellPutL c l (if l = 0 then shiftIn u c e else bitN (cellL u c) (l - 1) == 1) w)
        (g := fun x => if k = c.k then (if j = 0 then shiftIn u c e else bitN (cellL u c) (j - 1) == 1) else x)
        (fun l w hw => hw.put) (fun l w hw hl hne => (hput l _ w hw hl).trans (if_neg fun he => hne he.1.symm))
        (fun _ w hw => (hput j _ w hw hj).trans (if_congr (by simp) rfl rfl)) v h
      exact hall.2.trans (if_pos hj)
  · rw [if_pos ha, if_pos (eq_false_of_ne_true ha)]
    split <;> rfl

/-- A write or a shift moves no word but those of the cell's LUT bits. -/
theorem cellMem_other (h : SameMaps u v) (hidx : e.idx < 64) {key : Nat} (hkey : ∀ j, j < 64 → key ≠ lutKey u c j) :
    (cellMem u c e v).cfgCell key = v.cfgCell key := by
  unfold cellMem
  split
  · rfl
  · split
    · dsimp only
      have hw : (cellPutL c e.idx e.ax v).cfgCell key = v.cfgCell key := cellPutL_other (by rw [h.lutKey]; exact hkey _ hidx)
      split
      · exact hw
      · exact hw
    · have hall := forAll_range_once (P := fun w => w.cfgCell key) (Inv := SameMaps u) (k := 64) (m := 64) (g := id)
        (f := fun l w => cellPutL c l (if l = 0 then shiftIn u c e else bitN (cellL u c) (l - 1) == 1) w)
        (fun l w hw => hw.put) (fun l w hw hl _ => cellPutL_other (by rw [hw.lutKey]; exact hkey l hl)) (fun hk => absurd hk (Nat.lt_irrefl _)) v h
      exact hall.2.trans (if_neg (Nat.lt_irrefl _))

theorem cellMem_err (h : SameMaps u v) (hu : userOwned u c = true) (old : State) (key : Nat) : ((cellMem old c e v).cfgCell key).err = (v.cfgCell key).err := by
  unfold cellMem
  split
  · rfl
  · split
    · dsimp only
      have hw : ((cellPutL c e.idx e.ax v).cfgCell key).err = (v.cfgCell key).err := cellPutL_err (by rw [h.userOwned]; exact hu) key
      split
      · exact hw
      · exact hw
    · exact (forAll_keeps (P := fun w => (w.cfgCell key).err) (Inv := SameMaps u) (fun _ _ hw => hw.put)
        (fun _ w hw => cellPutL_err (by rw [hw.userOwned]; exact hu) key) _ v h).2

/-! ### Flip-flops and parity at an edge -/

theorem cellFF_rest (old : State) (c : CellPos) (e : CellIn) (v : State) : ∃ a b, cellFF old c e v = { v with fab := { v.fab with ffA := a, ffB := b } } := by
  unfold cellFF
  split
  · exact ⟨_, _, rfl⟩
  · split
    · exact ⟨_, _, rfl⟩
    · exact ⟨v.fab.ffA, v.fab.ffB, rfl⟩

/-- SRVAL where SR is set, else D where CE is (R109). -/
def ffAfter (sr ce srval d old : Bool) : Bool := if sr = true then srval else if ce = true then d else old

theorem ffAfter_on (on sr ce srval d old : Bool) : (if on = true then ffAfter sr ce srval d old else old) =
    if on = true ∧ sr = true then srval else if on = true ∧ ce = true then d else old := by
  cases on
  · simp
  · simp [ffAfter]

theorem cellFF_ffA (key : Nat) : Store.get (fun _ => false) (cellFF u c e v).fab.ffA key =
    if key = c.key then ffAfter e.sr e.ce (cellBit u c.n c.col c.row c.k 66) (cellDA u c e) (Store.get (fun _ => false) v.fab.ffA key)
    else Store.get (fun _ => false) v.fab.ffA key := by
  unfold cellFF ffAfter
  split
  · refine Store.get_set.trans (if_congr Iff.rfl ?_ rfl)
    rw [cellBits_one]
    cases cellBit u c.n c.col c.row c.k 66 <;> rfl
  · split
    · exact Store.get_set
    · exact (ite_self _).symm

theorem cellFF_ffB (key : Nat) : Store.get (fun _ => false) (cellFF u c e v).fab.ffB key =
    if key = c.key then ffAfter e.sr e.ce (cellBit u c.n c.col c.row c.k 67) (cellDB u c e) (Store.get (fun _ => false) v.fab.ffB key)
    else Store.get (fun _ => false) v.fab.ffB key := by
  unfold cellFF ffAfter
  split
  · refine Store.get_set.trans (if_congr Iff.rfl ?_ rfl)
    rw [cellBits_one]
    cases cellBit u c.n c.col c.row c.k 67 <;> rfl
  · split
    · exact Store.get_set
    · exact (ite_self _).symm

theorem logWrite_fab (n d : Nat) (code : Code) (s : State) : (logWrite n d code s).fab = s.fab := by
  unfold logWrite
  dsimp only
  rw [raise_fab]
  split <;> rfl

theorem logWrite_maps (h : SameMaps u v) (n d : Nat) (code : Code) : SameMaps u (logWrite n d code v) := by
  refine ⟨fun m => ?_, (congrArg Fabric.ringRole (logWrite_fab ..)).trans h.ring, (congrArg Fabric.parErr (logWrite_fab ..)).trans h.par⟩
  have hrgn : ∀ w : State, (∀ m, (w.rg m).role = (u.rg m).role ∧ (w.rg m).gold0 = (u.rg m).gold0 ∧ (w.rg m).gold1 = (u.rg m).gold1 ∧ (w.rg m).goldBad = (u.rg m).goldBad) →
      ∀ d src, ((raise code src d w).rg m).role = (u.rg m).role ∧ ((raise code src d w).rg m).gold0 = (u.rg m).gold0 ∧
        ((raise code src d w).rg m).gold1 = (u.rg m).gold1 ∧ ((raise code src d w).rg m).goldBad = (u.rg m).goldBad := by
    intro w hw d src
    unfold State.rg
    rw [raise_rgn]
    exact hw m
  unfold logWrite
  dsimp only
  refine hrgn _ ?_ _ _
  split
  · intro m
    rw [rg_setRg]
    split
    next he => subst he; exact h.rgn m
    next => exact h.rgn m
  · exact h.rgn

theorem cellParity_fab (c : CellPos) (v : State) : ∃ p, (cellParity c v).fab = { v.fab with perr := p } := by
  unfold cellParity
  split
  · exact ⟨v.fab.perr, rfl⟩
  · dsimp only
    split
    · exact ⟨v.fab.perr, rfl⟩
    · exact ⟨_, logWrite_fab _ _ _ _⟩

theorem SameMaps.parity (h : SameMaps u v) : SameMaps u (cellParity c v) := by
  unfold cellParity
  split
  · exact h
  · have hw := h.count (Reg.rgnCntParity c.n) 35 0
    dsimp only
    generalize v.count (Reg.rgnCntParity c.n) 35 0 = w at hw ⊢
    split
    · exact hw
    · refine logWrite_maps (hw.fab ?_ ?_) _ _ _
      · rfl
      · rfl

theorem cellParity_clean (h : Store.get (fun _ => false) v.fab.parErr c.key = false) : cellParity c v = v := if_pos (by rw [h]; rfl)

/-! ### One cell's edge -/

/-- The state in which the flip-flops and the LUT bits of a cell move. -/
def parityRead (u : State) (c : CellPos) (e : CellIn) (v : State) : State := if cellReads u c e then cellParity c v else v

theorem parityRead_fab (u : State) (c : CellPos) (e : CellIn) (v : State) : ∃ p, (parityRead u c e v).fab = { v.fab with perr := p } := by
  unfold parityRead
  split
  · exact cellParity_fab c v
  · exact ⟨v.fab.perr, rfl⟩

theorem SameMaps.parityRead (h : SameMaps u v) : SameMaps u (parityRead u c e v) := by
  unfold Machine.parityRead
  split
  · exact h.parity
  · exact h

theorem SameMaps.ff (h : SameMaps u v) (old : State) : SameMaps u (cellFF old c e v) := by
  obtain ⟨a, b, hab⟩ := cellFF_rest old c e v
  rw [hab]
  exact h.fab rfl rfl

theorem SameMaps.edge (h : SameMaps u v) : SameMaps u (cellEdge u c e v) := (h.parityRead.ff u).mem u

theorem edge_cfg (u : State) (c : CellPos) (e : CellIn) (v : State) (key : Nat) : (cellFF u c e (parityRead u c e v)).cfgCell key = v.cfgCell key := by
  obtain ⟨a, b, hab⟩ := cellFF_rest u c e (parityRead u c e v)
  obtain ⟨p, hp⟩ := parityRead_fab u c e v
  unfold State.cfgCell
  rw [hab]
  dsimp only
  rw [hp]

theorem cellEdge_bit (h : SameMaps u v) (hc : c.k < 36) (hk : k < 36) (hr : c.row < 32) (hj : j < 64) (hidx : e.idx < 64) :
    lutBit u c j k (cellEdge u c e v) = if k = c.k then lutAfter u c e j (lutBit u c j k v) else lutBit u c j k v := by
  have hb : lutBit u c j k (cellFF u c e (parityRead u c e v)) = lutBit u c j k v := by
    unfold lutBit
    rw [edge_cfg]
  refine (cellMem_bit (h.parityRead.ff u) hc hk hr hj hidx).trans ?_
  rw [hb]

theorem cellEdge_other (h : SameMaps u v) (hidx : e.idx < 64) {key : Nat} (hkey : ∀ j, j < 64 → key ≠ lutKey u c j) :
    (cellEdge u c e v).cfgCell key = v.cfgCell key := (cellMem_other (h.parityRead.ff u) hidx hkey).trans (edge_cfg u c e v key)

theorem cellEdge_err (h : SameMaps u v) (hu : userOwned u c = true) (key : Nat) : ((cellEdge u c e v).cfgCell key).err = (v.cfgCell key).err :=
  (cellMem_err (h.parityRead.ff u) hu u key).trans (congrArg Cell.err (edge_cfg u c e v key))

theorem cellEdge_ffA (key : Nat) : Store.get (fun _ => false) (cellEdge u c e v).fab.ffA key =
    if key = c.key then ffAfter e.sr e.ce (cellBit u c.n c.col c.row c.k 66) (cellDA u c e) (Store.get (fun _ => false) v.fab.ffA key)
    else Store.get (fun _ => false) v.fab.ffA key := by
  obtain ⟨g, p, hg⟩ := cellMem_rest u c e (cellFF u c e (parityRead u c e v))
  obtain ⟨q, hq⟩ := parityRead_fab u c e v
  have hmem : (cellEdge u c e v).fab.ffA = (cellFF u c e (parityRead u c e v)).fab.ffA := congrArg (·.fab.ffA) hg
  have hpar : (parityRead u c e v).fab.ffA = v.fab.ffA := by rw [hq]
  rw [hmem, cellFF_ffA, hpar]

theorem cellEdge_ffB (key : Nat) : Store.get (fun _ => false) (cellEdge u c e v).fab.ffB key =
    if key = c.key then ffAfter e.sr e.ce (cellBit u c.n c.col c.row c.k 67) (cellDB u c e) (Store.get (fun _ => false) v.fab.ffB key)
    else Store.get (fun _ => false) v.fab.ffB key := by
  obtain ⟨g, p, hg⟩ := cellMem_rest u c e (cellFF u c e (parityRead u c e v))
  obtain ⟨q, hq⟩ := parityRead_fab u c e v
  have hmem : (cellEdge u c e v).fab.ffB = (cellFF u c e (parityRead u c e v)).fab.ffB := congrArg (·.fab.ffB) hg
  have hpar : (parityRead u c e v).fab.ffB = v.fab.ffB := by rw [hq]
  rw [hmem, cellFF_ffB, hpar]

/-- Where the cell's parity is right, an edge moves the fabric alone. -/
theorem cellEdge_clean (h : Store.get (fun _ => false) v.fab.parErr c.key = false) : cellEdge u c e v = { v with fab := (cellEdge u c e v).fab } := by
  obtain ⟨g, p, hg⟩ := cellMem_rest u c e (cellFF u c e (parityRead u c e v))
  obtain ⟨a, b, hab⟩ := cellFF_rest u c e (parityRead u c e v)
  have hpar : parityRead u c e v = v := by
    unfold parityRead
    rw [cellParity_clean h, ite_self]
  have hedge : cellEdge u c e v = { v with fab := { v.fab with ffA := a, ffB := b, cfg := g, perr := p } } := by
    refine hg.trans ?_
    rw [hab, hpar]
  rw [hedge]

/-! ### The Quire -/

theorem cellIn_idx (s : State) (i : QuireIn) (we cy : Bool) (c : CellPos) : (cellIn s i we cy c).idx < 64 := by
  have hb : ∀ w : Word, (w.getLsbD c.k).toNat ≤ 1 := fun w => Bool.toNat_le _
  have h6 := hb i.a6
  have h5 := hb i.a5
  have h4 := hb i.a4
  have h3 := hb i.a3
  have h2 := hb i.a2
  have h1 := hb i.a1
  unfold cellIn
  dsimp only
  omega

/-- Stations and Pass channels move their own places only. -/
theorem stationEdge_rest (old : State) (n col row g : Nat) (rising : Bool) (s : State) :
    ∃ st, stationEdge old n col row g rising s = { s with fab := { s.fab with stations := st } } := by
  unfold stationEdge forAll
  generalize wiresTo col row = l
  induction l generalizing s with
  | nil => exact ⟨s.fab.stations, rfl⟩
  | cons q l ih =>
    rw [List.foldl_cons]
    dsimp only
    split
    · obtain ⟨st, h⟩ := ih { s with fab := { s.fab with stations := Store.set (fun _ => false) s.fab.stations (stationKey n q.1 q.2.1 q.2.2) ((old.quireIn n q.1 q.2.1).wires.getLsbD q.2.2) } }
      exact ⟨st, h⟩
    · exact ih s

theorem passPut_rest (a n d w stage lo cnt : Nat) (x : Word) (s : State) : ∃ p, passPut a n d w stage lo cnt x s = { s with fab := { s.fab with pass := p } } := by
  unfold passPut
  split
  · exact ⟨s.fab.pass, rfl⟩
  · exact ⟨_, rfl⟩

theorem passShift_rest (old : State) (g d w lo cnt fuel n : Nat) (x : Word) (s : State) :
    ∃ p, passShift old g d w lo cnt fuel n x s = { s with fab := { s.fab with pass := p } } := by
  induction fuel generalizing n x s with
  | zero => exact ⟨s.fab.pass, rfl⟩
  | succ fuel ih =>
    unfold passShift
    split
    · exact ⟨s.fab.pass, rfl⟩
    · split
      · exact ⟨s.fab.pass, rfl⟩
      · rename_i m _
        obtain ⟨p1, h1⟩ := passPut_rest n n d w 1 lo cnt x s
        obtain ⟨p2, h2⟩ := passPut_rest m n d w 2 lo cnt (old.passReg n d w 1) (passPut n n d w 1 lo cnt x s)
        rw [h1] at h2
        dsimp only
        rw [h1, h2]
        split
        · obtain ⟨p3, h3⟩ := ih m (passOut old n d w) { s with fab := { s.fab with pass := p2 } }
          exact ⟨p3, h3⟩
        · exact ⟨p2, rfl⟩

theorem passEdge_rest (old : State) (n col row g : Nat) (i : QuireIn) (s : State) : ∃ p, passEdge old n col row g i s = { s with fab := { s.fab with pass := p } } := by
  unfold passEdge forAll
  generalize passAttach col row = l
  induction l generalizing s with
  | nil => exact ⟨s.fab.pass, rfl⟩
  | cons a l ih =>
    rw [List.foldl_cons]
    dsimp only
    split
    · exact ih s
    · obtain ⟨p, h⟩ := passShift_rest old g a.1 a.2.1 a.2.2.1 a.2.2.2 8 n (if a.1 % 2 = 0 then i.passNS else wd (i.passEW.toNat <<< a.2.2.1)) s
      rw [h]
      obtain ⟨q, k⟩ := ih { s with fab := { s.fab with pass := p } }
      exact ⟨q, k⟩

section Quire

variable {line : Nat} {rising we : Bool}

/-- Every cell of the Quire, under the inputs that stand. -/
def quireStep (u : State) (n col row line : Nat) (rising we : Bool) (i : QuireIn) (k : Nat) (v : State) : State :=
  if quireLine u n col row line rising (cellBits u ⟨n, col, row, k⟩ 75 75) then cellEdge u ⟨n, col, row, k⟩ (cellSees u i we ⟨n, col, row, k⟩) v else v

theorem quireStep_maps (k : Nat) (h : SameMaps u v) : SameMaps u (quireStep u n col row line rising we i k v) := by
  unfold quireStep
  split
  · exact h.edge
  · exact h

theorem quireStep_bit (h : SameMaps u v) (hm : m < 36) (hk : k < 36) (hr : row < 32) (hj : j < 64) :
    lutBit u ⟨n, col, row, k⟩ j k (quireStep u n col row line rising we i m v) =
      if m = k then (if quireLine u n col row line rising (cellBits u ⟨n, col, row, k⟩ 75 75) then
        lutAfter u ⟨n, col, row, k⟩ (cellSees u i we ⟨n, col, row, k⟩) j (lutBit u ⟨n, col, row, k⟩ j k v) else lutBit u ⟨n, col, row, k⟩ j k v)
      else lutBit u ⟨n, col, row, k⟩ j k v := by
  unfold quireStep
  have hbit := cellEdge_bit (c := ⟨n, col, row, m⟩) (k := k) (e := cellSees u i we ⟨n, col, row, m⟩) h hm hk hr hj (cellIn_idx _ _ _ _ _)
  by_cases hmk : m = k
  · subst hmk
    rw [if_pos rfl]
    split
    · exact hbit.trans (if_pos rfl)
    · rfl
  · rw [if_neg hmk]
    split
    · exact hbit.trans (if_neg (Ne.symm hmk))
    · rfl

theorem quireEdge_eq (u : State) : quireEdge u n col row line rising we i u = forAll (List.range 36) (quireStep u n col row line rising we i) u := rfl

theorem quireEdge_bit (hk : k < 36) (hr : row < 32) (hj : j < 64) :
    lutBit u ⟨n, col, row, k⟩ j k (quireEdge u n col row line rising we i u) =
      if quireLine u n col row line rising (cellBits u ⟨n, col, row, k⟩ 75 75) then
        lutAfter u ⟨n, col, row, k⟩ (cellSees u i we ⟨n, col, row, k⟩) j (lutBit u ⟨n, col, row, k⟩ j k u) else lutBit u ⟨n, col, row, k⟩ j k u := by
  have hall := forAll_range_once (P := lutBit u ⟨n, col, row, k⟩ j k) (Inv := SameMaps u) (k := k) (m := 36) (f := quireStep u n col row line rising we i)
    (g := fun x => if quireLine u n col row line rising (cellBits u ⟨n, col, row, k⟩ 75 75) then
        lutAfter u ⟨n, col, row, k⟩ (cellSees u i we ⟨n, col, row, k⟩) j x else x)
    (fun m v h => quireStep_maps m h) (fun m v h hm hne => (quireStep_bit h hm hk hr hj).trans (if_neg hne))
    (fun _ v h => (quireStep_bit h hk hk hr hj).trans (if_pos rfl)) u (.refl u)
  exact hall.2.trans (if_pos hk)

theorem quireEdge_maps : SameMaps u (quireEdge u n col row line rising we i u) :=
  (forAll_keeps (P := fun _ => ()) (f := quireStep u n col row line rising we i) (fun m _ h => quireStep_maps m h) (fun _ _ _ => rfl) _ u (.refl u)).1

theorem quireEdge_other {key : Nat} (hkey : ∀ j, j < 64 → key ≠ lutKey u ⟨n, col, row, 0⟩ j) :
    (quireEdge u n col row line rising we i u).cfgCell key = u.cfgCell key := by
  refine (forAll_keeps (P := fun w => w.cfgCell key) (f := quireStep u n col row line rising we i) (fun m _ h => quireStep_maps m h) (fun m v h => ?_) _ u (.refl u)).2
  unfold quireStep
  split
  · exact cellEdge_other h (cellIn_idx _ _ _ _ _) hkey
  · rfl

theorem quireEdge_err (hu : ∀ k, k < 36 → userOwned u ⟨n, col, row, k⟩ = true) (key : Nat) :
    ((quireEdge u n col row line rising we i u).cfgCell key).err = (u.cfgCell key).err := by
  have hall := forAll_range_once (P := fun w => (w.cfgCell key).err) (Inv := SameMaps u) (k := 36) (m := 36) (g := id) (f := quireStep u n col row line rising we i)
    (fun m _ h => quireStep_maps m h) (fun m v h hm _ => by
      unfold quireStep
      split
      · exact cellEdge_err h (hu m hm) key
      · rfl) (fun hk => absurd hk (Nat.lt_irrefl _)) u (.refl u)
  exact hall.2.trans (if_neg (Nat.lt_irrefl _))

theorem quireEdge_ffA (hk : k < 36) : Store.get (fun _ => false) (quireEdge u n col row line rising we i u).fab.ffA (CellPos.mk n col row k).key =
    if quireLine u n col row line rising (cellBits u ⟨n, col, row, k⟩ 75 75) then
      ffAfter (cellSees u i we ⟨n, col, row, k⟩).sr (cellSees u i we ⟨n, col, row, k⟩).ce (cellBit u n col row k 66) (cellDA u ⟨n, col, row, k⟩ (cellSees u i we ⟨n, col, row, k⟩))
        (Store.get (fun _ => false) u.fab.ffA (CellPos.mk n col row k).key)
    else Store.get (fun _ => false) u.fab.ffA (CellPos.mk n col row k).key := by
  have hall := forAll_range_once (P := fun w => Store.get (fun _ => false) w.fab.ffA (CellPos.mk n col row k).key) (Inv := fun _ => True) (k := k) (m := 36)
    (f := quireStep u n col row line rising we i) (g := fun x => if quireLine u n col row line rising (cellBits u ⟨n, col, row, k⟩ 75 75) then
      ffAfter (cellSees u i we ⟨n, col, row, k⟩).sr (cellSees u i we ⟨n, col, row, k⟩).ce (cellBit u n col row k 66) (cellDA u ⟨n, col, row, k⟩ (cellSees u i we ⟨n, col, row, k⟩)) x
      else x) (fun _ _ _ => trivial) (fun m v _ _ hne => ?_) (fun _ v _ => ?_) u trivial
  · exact hall.2.trans (if_pos hk)
  · unfold quireStep
    split
    · exact (cellEdge_ffA _).trans (if_neg (cellKey_ne hne.symm))
    · rfl
  · unfold quireStep
    split
    · exact (cellEdge_ffA _).trans (if_pos rfl)
    · rfl

theorem quireEdge_ffB (hk : k < 36) : Store.get (fun _ => false) (quireEdge u n col row line rising we i u).fab.ffB (CellPos.mk n col row k).key =
    if quireLine u n col row line rising (cellBits u ⟨n, col, row, k⟩ 75 75) then
      ffAfter (cellSees u i we ⟨n, col, row, k⟩).sr (cellSees u i we ⟨n, col, row, k⟩).ce (cellBit u n col row k 67) (cellDB u ⟨n, col, row, k⟩ (cellSees u i we ⟨n, col, row, k⟩))
        (Store.get (fun _ => false) u.fab.ffB (CellPos.mk n col row k).key)
    else Store.get (fun _ => false) u.fab.ffB (CellPos.mk n col row k).key := by
  have hall := forAll_range_once (P := fun w => Store.get (fun _ => false) w.fab.ffB (CellPos.mk n col row k).key) (Inv := fun _ => True) (k := k) (m := 36)
    (f := quireStep u n col row line rising we i) (g := fun x => if quireLine u n col row line rising (cellBits u ⟨n, col, row, k⟩ 75 75) then
      ffAfter (cellSees u i we ⟨n, col, row, k⟩).sr (cellSees u i we ⟨n, col, row, k⟩).ce (cellBit u n col row k 67) (cellDB u ⟨n, col, row, k⟩ (cellSees u i we ⟨n, col, row, k⟩)) x
      else x) (fun _ _ _ => trivial) (fun m v _ _ hne => ?_) (fun _ v _ => ?_) u trivial
  · exact hall.2.trans (if_pos hk)
  · unfold quireStep
    split
    · exact (cellEdge_ffB _).trans (if_neg (cellKey_ne hne.symm))
    · rfl
  · unfold quireStep
    split
    · exact (cellEdge_ffB _).trans (if_pos rfl)
    · rfl

theorem quireEdge_clean (hp : ∀ k, k < 36 → Store.get (fun _ => false) u.fab.parErr (CellPos.mk n col row k).key = false) :
    quireEdge u n col row line rising we i u = { u with fab := (quireEdge u n col row line rising we i u).fab } := by
  have hall := forAll_range_once (P := fun w => { w with fab := u.fab }) (Inv := SameMaps u) (k := 36) (m := 36) (g := id) (f := quireStep u n col row line rising we i)
    (fun m _ h => quireStep_maps m h) (fun m v h hm _ => by
      unfold quireStep
      split
      · have hedge := cellEdge_clean (u := u) (c := ⟨n, col, row, m⟩) (e := cellSees u i we ⟨n, col, row, m⟩) (v := v) (by rw [h.par]; exact hp m hm)
        rw [hedge]
      · rfl) (fun hk => absurd hk (Nat.lt_irrefl _)) u (.refl u)
  have hrest : { quireEdge u n col row line rising we i u with fab := u.fab } = u := hall.2.trans (if_neg (Nat.lt_irrefl _))
  exact congrArg (fun w : State => { w with fab := (quireEdge u n col row line rising we i u).fab }) hrest

end Quire

/-! ### An asynchronous SR -/

/-- What the asynchronous SR of one cell does, from the state before it. -/
def asyncStep (s : State) (n col row : Nat) (i : QuireIn) (k : Nat) (v : State) : State :=
  if cellBits s ⟨n, col, row, k⟩ 74 74 = 1 ∧ (cellIn s i false false ⟨n, col, row, k⟩).sr then ffSet s ⟨n, col, row, k⟩ v else v

theorem srAsync_eq (n col row : Nat) (i : QuireIn) (s : State) : srAsync n col row i s =
    if heldPreload s n ∨ (s.rg n).gated ∨ s.mode = .retain then s else forAll (List.range 36) (asyncStep s n col row i) s := rfl

theorem srAsync_rest (n col row : Nat) (i : QuireIn) (s : State) : ∃ a b, srAsync n col row i s = { s with fab := { s.fab with ffA := a, ffB := b } } := by
  have hstep : ∀ (l : List Nat) (v : State), ∃ a b, forAll l (asyncStep s n col row i) v = { v with fab := { v.fab with ffA := a, ffB := b } } := by
    intro l
    induction l with
    | nil => exact fun v => ⟨v.fab.ffA, v.fab.ffB, rfl⟩
    | cons x l ih =>
      intro v
      have hone : ∃ a b, asyncStep s n col row i x v = { v with fab := { v.fab with ffA := a, ffB := b } } := by
        unfold asyncStep
        split
        · exact ⟨_, _, rfl⟩
        · exact ⟨v.fab.ffA, v.fab.ffB, rfl⟩
      obtain ⟨a, b, hab⟩ := hone
      obtain ⟨a', b', hab'⟩ := ih (asyncStep s n col row i x v)
      exact ⟨a', b', hab'.trans (by rw [hab])⟩
  rw [srAsync_eq]
  split
  · exact ⟨s.fab.ffA, s.fab.ffB, rfl⟩
  · exact hstep _ s

theorem asyncStep_ffA (k m : Nat) (v : State) (s : State) : Store.get (fun _ => false) (asyncStep s n col row i m v).fab.ffA (CellPos.mk n col row k).key =
    if m = k ∧ cellBit s n col row k 74 = true ∧ cellBit s n col row k 83 = true ∧ i.sr.getLsbD (cellBit s n col row k 79).toNat = true then cellBit s n col row k 66
    else Store.get (fun _ => false) v.fab.ffA (CellPos.mk n col row k).key := by
  have hsr : ∀ m, (cellBits s ⟨n, col, row, m⟩ 74 74 = 1 ∧ (cellIn s i false false ⟨n, col, row, m⟩).sr = true) ↔
      cellBit s n col row m 74 = true ∧ cellBit s n col row m 83 = true ∧ i.sr.getLsbD (cellBit s n col row m 79).toNat = true := by
    intro m
    simp only [cellIn, Bool.and_eq_true, beq_iff_eq, cellBits_one, Bool.toNat_eq_one]
  unfold asyncStep
  by_cases hmk : m = k
  · subst hmk
    simp only [hsr, true_and]
    split
    · refine Store.get_set_same.trans ?_
      rw [cellBits_one]
      cases cellBit s n col row m 66 <;> rfl
    · rfl
  · refine Eq.trans ?_ (if_neg fun h => hmk h.1).symm
    split
    · exact Store.get_set_other (cellKey_ne (Ne.symm hmk))
    · rfl

theorem srAsync_ffA {k : Nat} (hk : k < 36) (s : State) : Store.get (fun _ => false) (srAsync n col row i s).fab.ffA (CellPos.mk n col row k).key =
    if heldPreload s n = false ∧ (s.rg n).gated = false ∧ s.mode ≠ .retain ∧ cellBit s n col row k 74 = true ∧
      cellBit s n col row k 83 = true ∧ i.sr.getLsbD (cellBit s n col row k 79).toNat = true then cellBit s n col row k 66
    else Store.get (fun _ => false) s.fab.ffA (CellPos.mk n col row k).key := by
  rw [srAsync_eq]
  by_cases hheld : heldPreload s n = true ∨ (s.rg n).gated = true ∨ s.mode = .retain
  · rw [if_pos hheld, if_neg]
    rintro ⟨h1, h2, h3, -⟩
    rcases hheld with h | h | h
    · rw [h1] at h; cases h
    · rw [h2] at h; cases h
    · exact h3 h
  · have hall := forAll_range_once (P := fun w => Store.get (fun _ => false) w.fab.ffA (CellPos.mk n col row k).key) (Inv := fun _ => True) (k := k) (m := 36)
      (f := asyncStep s n col row i) (g := fun x => if cellBit s n col row k 74 = true ∧ cellBit s n col row k 83 = true ∧
        i.sr.getLsbD (cellBit s n col row k 79).toNat = true then cellBit s n col row k 66 else x)
      (fun _ _ _ => trivial) (fun m v _ _ hne => (asyncStep_ffA k m v s).trans (if_neg fun h => hne h.1))
      (fun _ v _ => (asyncStep_ffA k k v s).trans (if_congr (by simp) rfl rfl)) s trivial
    rw [if_neg hheld]
    refine (hall.2.trans (if_pos hk)).trans (if_congr ?_ rfl rfl)
    simp only [not_or, Bool.not_eq_true] at hheld
    tauto

/-! ### The command -/

theorem lutAfter_eq (u : State) (c : CellPos) (e : CellIn) {j : Nat} (hj : j < 64) :
    lutAfter u c e j b = if e.ce = true ∧ e.sr = false ∧ e.we = true ∧ cellMode u c = 2 ∧ j = e.idx then e.ax
      else if e.ce = true ∧ e.sr = false ∧ cellMode u c = 3 then (if j = 0 then shiftIn u c e else cellBit u c.n c.col c.row c.k (j - 1)) else b := by
  have hacts : cellActs u c e = false ↔ ¬ (e.ce = true ∧ e.sr = false ∧ (e.we = true ∧ cellMode u c = 2 ∨ cellMode u c = 3)) := by
    rw [← Bool.not_eq_true]
    refine not_congr ?_
    simp only [cellActs, Bool.and_eq_true, Bool.or_eq_true, Bool.not_eq_true', beq_iff_eq]
    tauto
  unfold lutAfter
  simp only [hacts]
  by_cases ha : e.ce = true ∧ e.sr = false
  · obtain ⟨hce, hsr⟩ := ha
    by_cases hm : cellMode u c = 2
    · have h3 : ¬ cellMode u c = 3 := by omega
      by_cases hwe : e.we = true
      · simp [hce, hsr, hm, hwe]
      · simp [hce, hsr, hm, hwe]
    · by_cases h3 : cellMode u c = 3
      · have hb : (if j = 0 then shiftIn u c e else bitN (cellL u c) (j - 1) == 1) = if j = 0 then shiftIn u c e else cellBit u c.n c.col c.row c.k (j - 1) :=
          if_congr Iff.rfl rfl (cellL_bit u c (by omega))
        simp only [hce, hsr, h3, hb]
        simp
      · simp [hce, hsr, hm, h3]
  · have h1 : ¬ (e.ce = true ∧ e.sr = false ∧ (e.we = true ∧ cellMode u c = 2 ∨ cellMode u c = 3)) := fun h => ha ⟨h.1, h.2.1⟩
    have h2 : ¬ (e.ce = true ∧ e.sr = false ∧ e.we = true ∧ cellMode u c = 2 ∧ j = e.idx) := fun h => ha ⟨h.1, h.2.1⟩
    have h3 : ¬ (e.ce = true ∧ e.sr = false ∧ cellMode u c = 3) := fun h => ha ⟨h.1, h.2.1⟩
    rw [if_pos h1, if_neg h2, if_neg h3]

theorem exec_quire {c : Instr} {q : BlkAddr} {line : Fin 16} {rising we : Bool} {i : QuireIn} (s : State)
    (h : c = .lutramWrite ⟨q, line, rising⟩ i ∧ we = true ∨ c = .cellShift ⟨q, line, rising⟩ i ∧ we = false) :
    exec c s = .next (opQuire q.region.val q.col.val q.row.val line.val rising we i s) := by
  obtain ⟨rfl, rfl⟩ | ⟨rfl, rfl⟩ := h <;> rfl

/-- The state in which the Quire's cells see the inputs presented. -/
def presented (n col row : Nat) (i : QuireIn) (s : State) : State :=
  srAsync n col row i { s with fab := { s.fab with ins := Store.set (fun _ => {}) s.fab.ins (blkKey n col row) i } }

theorem presented_rest (n col row : Nat) (i : QuireIn) (s : State) : ∃ g a b, presented n col row i s = { s with fab := { s.fab with ins := g, ffA := a, ffB := b } } := by
  obtain ⟨a, b, h⟩ := srAsync_rest n col row i { s with fab := { s.fab with ins := Store.set (fun _ => {}) s.fab.ins (blkKey n col row) i } }
  exact ⟨_, a, b, h⟩

/-- Where an edge reaches the Quire its cells, the stations and the Pass channels move. -/
theorem opQuire_edge {n col row line : Nat} {rising we : Bool} {i : QuireIn} {s : State} (hl : isLogicCol col = true) (hc : clocksOn s n = true) (hr : lineRuns s line = true) :
    ∃ st ps, opQuire n col row line rising we i s = (let q := quireEdge (presented n col row i s) n col row line rising we i (presented n col row i s)
      { q with fab := { q.fab with stations := st, pass := ps } }) := by
  obtain ⟨g, a, b, hu⟩ := presented_rest n col row i s
  have hc' : clocksOn (presented n col row i s) n = true := by rw [hu]; exact hc
  have hr' : lineRuns (presented n col row i s) line = true := by rw [hu]; exact hr
  have hop : opQuire n col row line rising we i s = (let u := presented n col row i s
      let t := stationEdge u n col row line rising (quireEdge u n col row line rising we i u)
      if rising then passEdge u n col row line i t else t) := by
    refine (if_neg (by rw [hl]; decide)).trans (if_neg ?_)
    rw [not_or, not_not, not_not]
    exact ⟨hc', hr'⟩
  rw [hop]
  generalize presented n col row i s = u
  dsimp only
  generalize quireEdge u n col row line rising we i u = q
  obtain ⟨st, hst⟩ := stationEdge_rest u n col row line rising q
  rw [hst]
  cases rising with
  | false => exact ⟨st, q.fab.pass, rfl⟩
  | true =>
    obtain ⟨ps, hps⟩ := passEdge_rest u n col row line i { q with fab := { q.fab with stations := st } }
    exact ⟨st, ps, hps⟩

theorem opQuire_still {n col row line : Nat} {rising we : Bool} {i : QuireIn} {s : State} (hl : isLogicCol col = true) (h : clocksOn s n = false ∨ lineRuns s line = false) :
    opQuire n col row line rising we i s = presented n col row i s := by
  obtain ⟨g, a, b, hu⟩ := presented_rest n col row i s
  have h' : clocksOn (presented n col row i s) n = false ∨ lineRuns (presented n col row i s) line = false := by rw [hu]; exact h
  refine (if_neg (by rw [hl]; decide)).trans (if_pos ?_)
  rw [Bool.not_eq_true, Bool.not_eq_true]
  exact h'

section Edge

variable {s u : State} {n col row line k j : Nat} {rising we : Bool} {i : QuireIn}

theorem presented_bit (n col row : Nat) (i : QuireIn) (s : State) (m c r k w : Nat) : cellBit (presented n col row i s) m c r k w = cellBit s m c r k w := by
  obtain ⟨g, a, b, hu⟩ := presented_rest n col row i s
  rw [hu]
  rfl

theorem presented_bits (n col row : Nat) (i : QuireIn) (s : State) (c : CellPos) (hi lo : Nat) : cellBits (presented n col row i s) c hi lo = cellBits s c hi lo := by
  unfold cellBits
  simp only [presented_bit]

theorem presented_shiftIn (n col row : Nat) (i : QuireIn) (s : State) (c : CellPos) (e : CellIn) : shiftIn (presented n col row i s) c e = shiftIn s c e := by
  unfold shiftIn cellMode cellL
  simp only [presented_bits]

theorem presented_line (n col row : Nat) (i : QuireIn) (s : State) (m c r g : Nat) (rising : Bool) (l : Nat) :
    quireLine (presented n col row i s) m c r g rising l = quireLine s m c r g rising l := by
  obtain ⟨g, a, b, hu⟩ := presented_rest n col row i s
  rw [hu]
  rfl

/-- LUT bit `j` of cell `k` once the edge has passed. -/
theorem edge_bit (hk : k < 36) (hr : row < 32) (hj : j < 64) {t : State} (hu : u = presented n col row i s)
    (hcfg : t.fab.cfg = (quireEdge u n col row line rising we i u).fab.cfg) (hmaps : SameMaps u t) :
    cellBit t n col row k j =
      if quireLine s n col row line rising (cellBit s n col row k 75).toNat = true ∧ (cellSees u i we ⟨n, col, row, k⟩).ce = true ∧
        (cellSees u i we ⟨n, col, row, k⟩).sr = false ∧ we = true ∧ cellMode s ⟨n, col, row, k⟩ = 2 ∧ j = (cellSees u i we ⟨n, col, row, k⟩).idx
      then (cellSees u i we ⟨n, col, row, k⟩).ax
      else if quireLine s n col row line rising (cellBit s n col row k 75).toNat = true ∧ (cellSees u i we ⟨n, col, row, k⟩).ce = true ∧
        (cellSees u i we ⟨n, col, row, k⟩).sr = false ∧ cellMode s ⟨n, col, row, k⟩ = 3
      then (if j = 0 then shiftIn s ⟨n, col, row, k⟩ (cellSees u i we ⟨n, col, row, k⟩) else cellBit s n col row k (j - 1))
      else cellBit s n col row k j := by
  have hview : cellBit t n col row k j = lutBit u ⟨n, col, row, k⟩ j k (quireEdge u n col row line rising we i u) := by
    have hkey := hmaps.lutKey ⟨n, col, row, k⟩ j
    have hcell : ∀ key, t.cfgCell key = (quireEdge u n col row line rising we i u).cfgCell key := fun key => by
      unfold State.cfgCell
      rw [hcfg]
    unfold lutBit
    rw [← hkey, ← hcell]
    rfl
  have hold : lutBit u ⟨n, col, row, k⟩ j k u = cellBit u n col row k j := rfl
  have hmode : cellMode u ⟨n, col, row, k⟩ = cellMode s ⟨n, col, row, k⟩ := by
    rw [hu]
    exact presented_bits ..
  have hline : quireLine u n col row line rising (cellBits u ⟨n, col, row, k⟩ 75 75) = quireLine s n col row line rising (cellBit s n col row k 75).toNat := by
    rw [hu, presented_line, presented_bits, cellBits_one]
  have hshift : shiftIn u ⟨n, col, row, k⟩ = shiftIn s ⟨n, col, row, k⟩ := by
    funext e
    rw [hu]
    exact presented_shiftIn ..
  have hbits : ∀ w, cellBit u n col row k w = cellBit s n col row k w := fun w => by
    rw [hu]
    exact presented_bit ..
  rw [hview, quireEdge_bit hk hr hj, hline, lutAfter_eq _ _ _ hj, hold, hmode, hshift]
  simp only [hbits]
  by_cases hon : quireLine s n col row line rising (cellBit s n col row k 75).toNat = true
  · simp only [hon, if_true, true_and]
    rfl
  · simp only [hon]
    rfl

end Edge

/-- Settles O14: the cells of a Quire move one by one from the state in which the inputs stand, each its own LUT bits and flip-flops. -/
theorem cellEdges : Obligations.CellEdges := by
  unfold Obligations.CellEdges
  intro c q line rising i we s hc
  obtain ⟨g, a, b, hu⟩ := presented_rest q.region.val q.col.val q.row.val i s
  refine ⟨fun hl => ?hard, fun hl hclk => ?still, fun k => ?async, ?rest, fun hl hclk hline => ?edge⟩
  case hard => exact (exec_quire s hc).trans (congrArg Host.Outcome.next (if_pos (by rw [hl]; decide)))
  case still => exact (exec_quire s hc).trans (congrArg Host.Outcome.next (opQuire_still hl hclk))
  case async => exact srAsync_ffA k.isLt _
  case rest =>
    change presented q.region.val q.col.val q.row.val i s = _
    rw [show srAsync q.region.val q.col.val q.row.val i _ = presented q.region.val q.col.val q.row.val i s from rfl, hu]
  case edge =>
    obtain ⟨st, ps, ht⟩ := opQuire_edge (n := q.region.val) (row := q.row.val) (rising := rising) (we := we) (i := i) hl hclk hline
    have hrest : ∀ w, quireLine (presented q.region.val q.col.val q.row.val i s) q.region.val q.col.val q.row.val line.val rising w =
        quireLine s q.region.val q.col.val q.row.val line.val rising w := presented_line _ _ _ _ _ _ _ _ _ _
    have hmaps : SameMaps _ _ := quireEdge_maps (u := presented q.region.val q.col.val q.row.val i s) (n := q.region.val) (col := q.col.val)
      (row := q.row.val) (line := line.val) (rising := rising) (we := we) (i := i)
    refine .of_exec_eq (exec_quire s hc) ht ⟨fun k => ⟨fun j => ?bit, ?ffA, ?ffB⟩, fun key hkey => ?other, fun hown key => ?err, fun hpar => ?clean⟩
    case bit => exact edge_bit k.isLt q.row.isLt j.isLt rfl rfl (hmaps.fab rfl rfl)
    case ffA =>
      refine (quireEdge_ffA k.isLt).trans ?_
      rw [hrest, presented_bits, cellBits_one, presented_bit]
      exact ffAfter_on ..
    case ffB =>
      refine (quireEdge_ffB k.isLt).trans ?_
      rw [hrest, presented_bits, cellBits_one, presented_bit]
      exact ffAfter_on ..
    case other =>
      refine (quireEdge_other ?_).trans (by rw [hu]; rfl)
      rw [hu]
      exact hkey
    case err =>
      refine (quireEdge_err (fun k hk => ?_) key).trans (by rw [hu]; rfl)
      rw [hu]
      exact hown ⟨k, hk⟩
    case clean =>
      refine (congrArg (fun w : State => { w with fab := { w.fab with stations := st, pass := ps } }) (quireEdge_clean fun k hk => ?_)).trans ?_
      · rw [hu]; exact hpar ⟨k, hk⟩
      · rw [hu]

end Sys2Proof.Machine
end

section
/-! RAM36 blocks (R149 to R157, R161, R165, R166). -/

namespace Sys2Proof.Machine

variable {s t u v : State} {n col row base w first cnt b i l : Nat} {pb oce orst : Bool} {din : Word}

/-! ### The settings of a block -/

/-- The configuration reads as in `s`. -/
structure SameCfg (s t : State) : Prop where
  maps : SameMaps s t
  cfg : t.fab.cfg = s.fab.cfg

theorem SameCfg.refl (s : State) : SameCfg s s := ⟨.refl s, rfl⟩

theorem SameMaps.trans (h : SameMaps s t) (k : SameMaps t u) : SameMaps s u := by
  refine ⟨fun m => ?_, k.ring.trans h.ring, k.par.trans h.par⟩
  obtain ⟨h1, h2, h3, h4⟩ := h.rgn m
  obtain ⟨k1, k2, k3, k4⟩ := k.rgn m
  exact ⟨k1.trans h1, k2.trans h2, k3.trans h3, k4.trans h4⟩

theorem SameCfg.trans (h : SameCfg s t) (k : SameCfg t u) : SameCfg s u := ⟨h.maps.trans k.maps, k.cfg.trans h.cfg⟩

theorem SameCfg.blockWord (h : SameCfg s t) (n col row w : Nat) : blockWord t n col row w = blockWord s n col row w := by
  unfold Machine.blockWord actWord State.cfgCell
  rw [h.maps.active, h.cfg]

theorem SameCfg.ramCfg (h : SameCfg s t) (n col row w hi lo : Nat) : ramCfg t n col row w hi lo = ramCfg s n col row w hi lo := by
  unfold Machine.ramCfg
  rw [h.blockWord]

theorem SameCfg.ramDepth (h : SameCfg s t) (n col row : Nat) (pb : Bool) : ramDepth t n col row pb = ramDepth s n col row pb := by
  unfold Machine.ramDepth cascSize
  rw [h.ramCfg, h.ramCfg]

theorem SameCfg.setRam (n col row : Nat) (r : Ram36) (s : State) : SameCfg s (s.setRam n col row r) := ⟨⟨fun _ => ⟨rfl, rfl, rfl, rfl⟩, rfl, rfl⟩, rfl⟩

theorem ram_setRam {r : Ram36} {m c : Nat} : (s.setRam n col row r).ram m c b = if blkKey m c b = blkKey n col row then r else s.ram m c b := Store.get_set

@[simp] theorem ram_setRam_same {r : Ram36} : (s.setRam n col row r).ram n col row = r := Store.get_set_same

theorem ram_of_fab (h : t.fab = u.fab) (c b : Nat) : t.ram n c b = u.ram n c b := by
  unfold State.ram
  rw [h]

/-! ### Lanes -/

/-- A bit of a word whose lanes have been stored. -/
theorem laneFold_testBit (lanes : List Nat) (first : Nat) (din v : Word) (h : ∀ l ∈ lanes, l < 4) :
    (lanes.foldl (fun v i => setFld v (9 * i + 8) (9 * i) (fld din (9 * (i - first) + 8) (9 * (i - first)))) v).toNat.testBit b =
      if b / 9 ∈ lanes then din.toNat.testBit (9 * (b / 9 - first) + b % 9) else v.toNat.testBit b := by
  induction lanes generalizing v with
  | nil => rfl
  | cons l ls ih =>
    rw [List.foldl_cons, ih _ fun x hx => h x (.tail _ hx)]
    have hl : l < 4 := h l (.head _)
    by_cases hin : b / 9 ∈ ls
    · rw [if_pos hin, if_pos (.tail _ hin)]
    · rw [if_neg hin, setFld_testBit (by omega)]
      by_cases hbl : b / 9 = l
      · subst hbl
        have hlow : 9 * (b / 9) ≤ b ∧ b ≤ 9 * (b / 9) + 8 := by omega
        have hoff : b - 9 * (b / 9) = b % 9 := by omega
        rw [if_pos hlow, if_pos (.head _), hoff, fld_testBit, decide_eq_true (by omega), Bool.true_and]
      · have hout : ¬ (9 * l ≤ b ∧ b ≤ 9 * l + 8) := by omega
        rw [if_neg hout, if_neg]
        intro hmem
        rcases List.mem_cons.1 hmem with h | h
        · exact hbl h
        · exact hin h

theorem ramWord_ramPut (lanes : List Nat) : ramWord (ramPut n col row w first lanes din s) n col row w =
    lanes.foldl (fun v i => setFld v (9 * i + 8) (9 * i) (fld din (9 * (i - first) + 8) (9 * (i - first)))) (ramWord s n col row w) := Store.get_set_same

/-- Lanes that are stored take their data, and no other lane moves (R152). -/
theorem lane_ramPut (lanes : List Nat) (h : ∀ l ∈ lanes, l < 4) :
    fld (ramWord (ramPut n col row w first lanes din s) n col row w) (9 * l + 8) (9 * l) =
      if l ∈ lanes then fld din (9 * (l - first) + 8) (9 * (l - first)) else fld (ramWord s n col row w) (9 * l + 8) (9 * l) := by
  rw [ramWord_ramPut]
  apply Nat.eq_of_testBit_eq
  intro i
  rw [fld_testBit]
  by_cases hi : i < 9
  · have hdiv : (9 * l + i) / 9 = l := by omega
    have hmod : (9 * l + i) % 9 = i := by omega
    rw [laneFold_testBit lanes first din _ h, hdiv, hmod, decide_eq_true (by omega), Bool.true_and]
    split
    · rw [fld_testBit, decide_eq_true (by omega), Bool.true_and]
    · rw [fld_testBit, decide_eq_true (by omega), Bool.true_and]
  · rw [decide_eq_false (by omega), Bool.false_and]
    split
    · rw [fld_testBit, decide_eq_false (by omega), Bool.false_and]
    · rw [fld_testBit, decide_eq_false (by omega), Bool.false_and]

/-- All lanes from `first` stored read back as the low bits of the data (R151). -/
theorem ramGet_ramPut (hpos : 0 < cnt) (hfit : first + cnt ≤ 4) :
    ramGet (ramPut n col row w first ((List.range cnt).map (fun i => first + i)) din s) n col row w first cnt = wd (fld din (9 * cnt - 1) 0) := by
  unfold ramGet
  rw [ramWord_ramPut]
  congr 1
  apply Nat.eq_of_testBit_eq
  intro i
  rw [fld_testBit, fld_testBit]
  by_cases hi : i < 9 * cnt
  · rw [decide_eq_true (by omega), decide_eq_true (by omega), Bool.true_and, Bool.true_and,
      laneFold_testBit _ first din _ (by simp only [List.mem_map, List.mem_range]; rintro l ⟨x, hx, rfl⟩; omega), if_pos]
    · congr 1
      omega
    · simp only [List.mem_map, List.mem_range]
      exact ⟨i / 9, by omega, by omega⟩
  · rw [decide_eq_false (by omega), decide_eq_false (by omega)]
    simp

/-! ### What a read leaves -/

theorem SameMaps.raise (h : SameMaps s v) (code : Code) (src : Req) (d : Nat) : SameMaps s (raise code src d v) := by
  refine ⟨fun m => ?_, (congrArg Fabric.ringRole (raise_fab ..)).trans h.ring, (congrArg Fabric.parErr (raise_fab ..)).trans h.par⟩
  unfold State.rg
  rw [raise_rgn]
  exact h.rgn m

/-- What a parity mismatch leaves (R143, R165): counted, shown by the block, and the block's first logged. -/
theorem ramParity_out (n col row l : Nat) (ls : List Nat) (s : State) :
    SameCfg s (ramParity n col row (l :: ls) s) ∧
    (ramParity n col row (l :: ls) s).fab = { s.fab with ram36 := (ramParity n col row (l :: ls) s).fab.ram36 } ∧
    (ramParity n col row (l :: ls) s).resp = s.resp ∧
    (ramParity n col row (l :: ls) s).getF (Reg.rgnCntParity n) 35 0 = satInc (s.getF (Reg.rgnCntParity n) 35 0) (2 ^ 36 - 1) ∧
    (∀ c b, (ramParity n col row (l :: ls) s).ram n c b = { s.ram n c b with ppar := ((ramParity n col row (l :: ls) s).ram n c b).ppar }) ∧
    ((ramParity n col row (l :: ls) s).ram n col row).ppar = true ∧
    ((s.ram n col row).ppar = false → Logged 0x406 (BitVec.ofNat 8 (0x40 + n)) (logEntry 6 col row l 0 0 ||| n <<< 1) s (ramParity n col row (l :: ls) s)) := by
  have hcnt : (s.count (Reg.rgnCntParity n) 35 0).getF (Reg.rgnCntParity n) 35 0 = satInc (s.getF (Reg.rgnCntParity n) 35 0) (2 ^ 36 - 1) := getF_count_same (by decide)
  have hsame : SameCfg s (s.count (Reg.rgnCntParity n) 35 0) := ⟨(SameMaps.refl s).count _ _ _, rfl⟩
  unfold ramParity
  dsimp only
  by_cases hp : ((s.count (Reg.rgnCntParity n) 35 0).ram n col row).ppar = true
  · rw [if_pos hp]
    exact ⟨hsame, rfl, rfl, hcnt, fun _ _ => rfl, hp, fun h => absurd (h.symm.trans hp) (by decide)⟩
  · rw [if_neg hp]
    generalize hq : s.count (Reg.rgnCntParity n) 35 0 = q at hcnt hsame hp ⊢
    have hset : SameCfg s (q.setRam n col row { q.ram n col row with ppar := true }) := hsame.trans (.setRam ..)
    have hram : ∀ c b, q.ram n c b = s.ram n c b := fun c b => by rw [← hq]; rfl
    have hfab : (logWrite n (logEntry 6 col row l 0 0) 0x406 (q.setRam n col row { q.ram n col row with ppar := true })).fab =
        (q.setRam n col row { q.ram n col row with ppar := true }).fab := logWrite_fab _ _ _ _
    have hview : ∀ c b, (logWrite n (logEntry 6 col row l 0 0) 0x406 (q.setRam n col row { q.ram n col row with ppar := true })).ram n c b =
        if blkKey n c b = blkKey n col row then { q.ram n col row with ppar := true } else q.ram n c b := fun c b => (ram_of_fab hfab c b).trans ram_setRam
    refine ⟨⟨logWrite_maps hset.maps _ _ _, (congrArg Fabric.cfg hfab).trans hset.cfg⟩, ?fab, ?resp, ?count, ?ram, ?ppar, fun _ => ?logged⟩
    case fab =>
      rw [hfab, ← hq]
      rfl
    case resp =>
      unfold logWrite
      dsimp only
      rw [raise_resp, ← hq]
      split <;> rfl
    case count =>
      rw [← hcnt]
      have hout : Reg.rgnCntParity n ∉ evtRegs := by
        have h : ∀ x ∈ evtRegs, x < 0x80000 := by decide
        intro hm
        have := h _ hm
        simp only [Reg.rgnCntParity] at this
        omega
      have hlost : Reg.rgnCntParity n ≠ Reg.rgnLogLost n := by simp only [Reg.rgnCntParity, Reg.rgnLogLost]; omega
      unfold logWrite State.getF
      dsimp only
      rw [raise_reg _ _ _ _ _ hout]
      split
      · rfl
      · rw [reg_count_other hlost]
        rfl
    case ram =>
      intro c b
      rw [hview, hram, hram]
      split
      next h =>
        have hsr : s.ram n c b = s.ram n col row := by
          unfold State.ram
          rw [h]
        rw [hsr]
      next => rfl
    case ppar => rw [hview, if_pos rfl]
    case logged =>
      unfold logWrite
      dsimp only
      refine raise_logged ?_
      rw [← hq]
      split <;> rfl

/-- A word given to a port of the group. -/
theorem ramOut_ram (n col base : Nat) (pb oce orst : Bool) (x : Word × Bool) (s : State) (c b : Nat) : (ramOut n col base pb oce orst x s).ram n c b =
    if blkKey n c b = blkKey n col base then (s.ram n col base).setPort pb (portPush (ramDepth s n col base pb)
      (ramCfg s n col base 0 (if pb then 11 else 10) (if pb then 11 else 10) == 1) oce orst (blockWord s n col base (if pb then 2 else 1)) x ((s.ram n col base).port pb))
    else s.ram n c b := Store.get_set

theorem setPort_port (r : Ram36) (pb : Bool) (p : RamPort) : (r.setPort pb p).port pb = p ∧ (r.setPort pb p).port (!pb) = r.port (!pb) ∧
    (r.setPort pb p).ppar = r.ppar ∧ (r.setPort pb p).coll = r.coll ∧ (r.setPort pb p).lost = r.lost ∧ (r.setPort pb p).rd = r.rd ∧ (r.setPort pb p).cnt = r.cnt := by
  cases pb <;> exact ⟨rfl, rfl, rfl, rfl, rfl, rfl, rfl⟩

theorem port_ppar (r : Ram36) (pb x : Bool) : ({ r with ppar := x } : Ram36).port pb = r.port pb := by cases pb <;> rfl

/-- The lanes that a read finds with a parity mismatch. -/
def badLanes (s : State) (n col row w first cnt : Nat) : List Nat :=
  ((List.range cnt).map (fun i => first + i)).filter (fun i => (ramBad s n col row w).getLsbD i)

/-- The read finds a parity mismatch that it checks for (R165). -/
def readBad (s : State) (n col base row w first cnt : Nat) : Bool := ramCfg s n col base 0 26 26 == 1 && !(badLanes s n col row w first cnt).isEmpty

theorem readBad_iff : readBad s n col base row w first cnt = true ↔
    ramCfg s n col base 0 26 26 = 1 ∧ ∃ l, l < cnt ∧ (ramBad s n col row w).getLsbD (first + l) = true := by
  simp [readBad, badLanes, List.filter_eq_nil_iff]

/-- What a read of a port leaves (R153, R165): the word and its mismatch enter the port, the mismatch is reported, and nothing else. -/
structure ReadOut (n col base row w first cnt : Nat) (pb oce orst : Bool) (s t : State) : Prop where
  parity : ParityRead n col base row w first cnt (readBad s n col base row w first cnt) s t
  same : SameCfg s t
  fab : t.fab = { s.fab with ram36 := t.fab.ram36 }
  resp : t.resp = s.resp
  port : (t.ram n col base).port pb = portPush (ramDepth s n col base pb) (ramCfg s n col base 0 (if pb then 11 else 10) (if pb then 11 else 10) == 1) oce orst
    (blockWord s n col base (if pb then 2 else 1)) (ramGet s n col row w first cnt, readBad s n col base row w first cnt) ((s.ram n col base).port pb)
  rest : ∀ r c, ∃ p x, t.ram n r c = { (s.ram n r c).setPort pb p with ppar := x }

theorem ramReadAt_out (n col base row w first cnt : Nat) (pb oce orst : Bool) (s : State) :
    ReadOut n col base row w first cnt pb oce orst s (ramReadAt n col base row w first cnt pb oce orst s) := by
  have hread : ramReadAt n col base row w first cnt pb oce orst s =
      if readBad s n col base row w first cnt = true then ramParity n col row (badLanes s n col row w first cnt)
        (ramOut n col base pb oce orst (ramGet s n col row w first cnt, readBad s n col base row w first cnt) s)
      else ramOut n col base pb oce orst (ramGet s n col row w first cnt, readBad s n col base row w first cnt) s := rfl
  have hram := ramOut_ram n col base pb oce orst (ramGet s n col row w first cnt, readBad s n col base row w first cnt) s
  have hout : ramOut n col base pb oce orst (ramGet s n col row w first cnt, readBad s n col base row w first cnt) s =
      { s with fab := { s.fab with ram36 := (ramOut n col base pb oce orst (ramGet s n col row w first cnt, readBad s n col base row w first cnt) s).fab.ram36 } } := rfl
  have hsame : SameCfg s (ramOut n col base pb oce orst (ramGet s n col row w first cnt, readBad s n col base row w first cnt) s) := .setRam ..
  rw [hread]
  generalize ramOut n col base pb oce orst (ramGet s n col row w first cnt, readBad s n col base row w first cnt) s = q at hram hout hsame ⊢
  have hkeep : ∀ r c, ∃ p, q.ram n r c = (s.ram n r c).setPort pb p := fun r c => by
    rw [hram]
    split
    next h =>
      have hsr : s.ram n r c = s.ram n col base := by
        unfold State.ram
        rw [h]
      exact ⟨_, by rw [hsr]⟩
    next => exact ⟨(s.ram n r c).port pb, by cases pb <;> rfl⟩
  have hport : (q.ram n col base).port pb = _ := (congrArg (·.port pb) ((hram col base).trans (if_pos rfl))).trans (setPort_port _ _ _).1
  by_cases hbad : readBad s n col base row w first cnt = true
  · rw [if_pos hbad]
    obtain ⟨l, ls, hl⟩ : ∃ l ls, badLanes s n col row w first cnt = l :: ls := by
      cases hb : badLanes s n col row w first cnt with
      | nil => simp [readBad, hb] at hbad
      | cons l ls => exact ⟨l, ls, rfl⟩
    rw [hl]
    obtain ⟨hs, hf, hresp, hcnt, hr, hpp, hlog⟩ := ramParity_out n col row l ls q
    generalize ramParity n col row (l :: ls) q = t at hs hf hresp hcnt hr hpp hlog ⊢
    refine ⟨⟨readBad_iff, fun h => absurd (h.symm.trans hbad) (by decide), fun _ => ⟨?_, hpp, fun h0 => ⟨l, ?_⟩⟩⟩, hsame.trans hs, ?_, ?_, ?_, fun r c => ?_⟩
    · rw [hcnt, hout]
      rfl
    · have hq0 : (q.ram n col row).ppar = false := by
        obtain ⟨p, hp⟩ := hkeep col row
        rw [hp, (setPort_port _ _ _).2.2.1]
        exact h0
      have hlog' := hlog hq0
      rw [hout] at hlog'
      exact hlog'
    · rw [hf, hout]
    · rw [hresp, hout]
    · rw [hr, port_ppar, hport]
    · obtain ⟨p, hp⟩ := hkeep r c
      rw [hr, hp]
      exact ⟨p, _, rfl⟩
  · rw [if_neg hbad]
    refine ⟨⟨readBad_iff, fun _ => ?_, fun h => absurd h hbad⟩, hsame, congrArg (·.fab) hout, congrArg (·.resp) hout, hport, fun r c => ?_⟩
    · rw [hout]
    · obtain ⟨p, hp⟩ := hkeep r c
      exact ⟨p, (s.ram n r c).ppar, by rw [hp]; cases pb <;> rfl⟩

/-! ### An edge of the ports -/

/-- What the reads of an edge leave alone: the words, the collision flag and, without the parity check, all but the fabric. -/
structure ShowOut (n col base : Nat) (s t : State) : Prop where
  same : SameCfg s t
  words : t.fab.ram = s.fab.ram
  coll : (t.ram n col base).coll = (s.ram n col base).coll
  still : ramCfg s n col base 0 26 26 = 0 → t = { s with fab := t.fab }

theorem ShowOut.refl (s : State) : ShowOut n col base s s := ⟨.refl s, rfl, rfl, fun _ => rfl⟩

theorem ShowOut.trans (h : ShowOut n col base s t) (k : ShowOut n col base t u) : ShowOut n col base s u := by
  refine ⟨h.same.trans k.same, k.words.trans h.words, k.coll.trans h.coll, fun h0 => ?_⟩
  have h1 := h.still h0
  have k1 := k.still ((h.same.ramCfg ..).trans h0)
  rw [h1] at k1
  exact k1

theorem lostClear_out (n col base : Nat) (pb : Bool) (s : State) : ShowOut n col base s (lostClear n col base pb s) := by
  unfold lostClear
  split
  · exact ⟨.setRam .., rfl, (congrArg Ram36.coll ram_setRam_same).trans rfl, fun _ => rfl⟩
  · exact .refl s

theorem lostClear_port (n col base : Nat) (pb x : Bool) (s : State) : ((lostClear n col base pb s).ram n col base).port x = (s.ram n col base).port x := by
  unfold lostClear
  split
  · rw [ram_setRam_same]
    cases x <;> rfl
  · rfl

theorem ramReadAt_show (n col base row w first cnt : Nat) (pb oce orst : Bool) (s : State) :
    ShowOut n col base s (ramReadAt n col base row w first cnt pb oce orst s) := by
  obtain ⟨hpar, hsame, hfab, hresp, hport, hrest⟩ := ramReadAt_out n col base row w first cnt pb oce orst s
  refine ⟨hsame, by rw [hfab], ?_, fun h0 => ?_⟩
  · obtain ⟨p, x, hr⟩ := hrest col base
    rw [hr]
    exact (setPort_port (s.ram n col base) pb p).2.2.2.1
  · refine hpar.2.1 (eq_false_of_ne_true fun h => ?_)
    have := (readBad_iff.1 h).1
    omega

theorem portShow_out (n col base : Nat) (pb : Bool) (i : PortIn) (a : PortAct) (s : State) : ShowOut n col base s (portShow n col base pb i a s) := by
  by_cases h : ¬ a.lanes.isEmpty ∧ ramCfg s n col base 0 (if pb then 9 else 8) (if pb then 9 else 8) = 1
  · rw [show portShow n col base pb i a s = _ from if_pos h]
    exact ⟨.setRam .., rfl, (congrArg Ram36.coll ram_setRam_same).trans (setPort_port _ _ _).2.2.2.1, fun _ => rfl⟩
  · rw [show portShow n col base pb i a s = _ from if_neg h]
    exact ramReadAt_show ..

/-- The state in which the writes of an edge find the block: LOST has ended, and each port has read. -/
def ramShown (n col base : Nat) (clear : Bool) (pa pb : Option (PortIn × PortAct)) (s : State) : State :=
  let s := if clear then lostClear n col base true s else s
  let s := match pa with
    | some x => portShow n col base false x.1 x.2 s
    | none => s
  match pb with
    | some y => portShow n col base true y.1 y.2 s
    | none => s

theorem ramShown_out (n col base : Nat) (clear : Bool) (pa pb : Option (PortIn × PortAct)) (s : State) : ShowOut n col base s (ramShown n col base clear pa pb s) := by
  have hclear : ShowOut n col base s (if clear then lostClear n col base true s else s) := by
    split
    · exact lostClear_out ..
    · exact .refl s
  unfold ramShown
  dsimp only
  generalize (if clear = true then lostClear n col base true s else s) = q at hclear ⊢
  cases pa with
  | none => cases pb with
    | none => exact hclear
    | some y => exact hclear.trans (portShow_out ..)
  | some x => cases pb with
    | none => exact hclear.trans (portShow_out ..)
    | some y => exact (hclear.trans (portShow_out ..)).trans (portShow_out ..)

/-- Both ports write one lane of one word. -/
def portsMeet (x y : PortAct) : Bool := x.row == y.row && x.word == y.word && x.lanes.any (fun l => y.lanes.contains l)

theorem portsMeet_iff {x y : PortAct} : portsMeet x y = true ↔ x.row = y.row ∧ x.word = y.word ∧ ∃ l ∈ x.lanes, l ∈ y.lanes := by
  simp [portsMeet, and_assoc]

/-- The writes of both ports by the collision rule (R155 to R157). -/
def ramBoth (n col base : Nat) (x y : PortAct) (s : State) : State :=
  if ramCfg s n col base 0 7 6 = 1 then portStore n col y (portStore n col x s)
  else if ramCfg s n col base 0 7 6 = 2 ∧ portsMeet x y = true then collRaise n col base (portStore n col x s)
  else portStore n col x (portStore n col y s)

theorem opRam_both {a b : Option PortIn} {x y : PortIn × PortAct} (h : ramCfg s n col (cascBase s n col row) 0 5 4 ≠ 1)
    (hx : portAsk s n col (cascBase s n col row) false a = some x) (hy : portAsk s n col (cascBase s n col row) true b = some y) :
    opRam n col row a b s = ramBoth n col (cascBase s n col row) x.2 y.2
      (ramShown n col (cascBase s n col row) (b.isSome && portRuns s n col (cascBase s n col row) true) (some x) (some y) s) := by
  refine (if_neg h).trans ?_
  rw [hx, hy]
  have hrule : ∀ v : State, (match ramCfg v n col (cascBase s n col row) 0 7 6 with
      | 1 => portStore n col y.2 (portStore n col x.2 v)
      | 2 => if portsMeet x.2 y.2 then collRaise n col (cascBase s n col row) (portStore n col x.2 v) else portStore n col x.2 (portStore n col y.2 v)
      | _ => portStore n col x.2 (portStore n col y.2 v)) = ramBoth n col (cascBase s n col row) x.2 y.2 v := by
    intro v
    unfold ramBoth
    generalize ramCfg v n col (cascBase s n col row) 0 7 6 = m
    rcases m with _ | _ | _ | m
    · rfl
    · rfl
    · simp
    · simp
  exact hrule _

theorem opRam_a {a b : Option PortIn} {x : PortIn × PortAct} (h : ramCfg s n col (cascBase s n col row) 0 5 4 ≠ 1)
    (hx : portAsk s n col (cascBase s n col row) false a = some x) (hy : portAsk s n col (cascBase s n col row) true b = none) :
    opRam n col row a b s = portStore n col x.2
      (ramShown n col (cascBase s n col row) (b.isSome && portRuns s n col (cascBase s n col row) true) (some x) none s) := by
  refine (if_neg h).trans ?_
  rw [hx, hy]
  rfl

theorem opRam_b {a b : Option PortIn} {y : PortIn × PortAct} (h : ramCfg s n col (cascBase s n col row) 0 5 4 ≠ 1)
    (hx : portAsk s n col (cascBase s n col row) false a = none) (hy : portAsk s n col (cascBase s n col row) true b = some y) :
    opRam n col row a b s = portStore n col y.2
      (ramShown n col (cascBase s n col row) (b.isSome && portRuns s n col (cascBase s n col row) true) none (some y) s) := by
  refine (if_neg h).trans ?_
  rw [hx, hy]
  rfl

theorem opRam_none {a b : Option PortIn} (h : ramCfg s n col (cascBase s n col row) 0 5 4 ≠ 1)
    (hx : portAsk s n col (cascBase s n col row) false a = none) (hy : portAsk s n col (cascBase s n col row) true b = none) :
    opRam n col row a b s = if b.isSome && portRuns s n col (cascBase s n col row) true then lostClear n col (cascBase s n col row) true s else s := by
  refine (if_neg h).trans ?_
  rw [hx, hy]

theorem opRam_fifo {a b : Option PortIn} (h : ramCfg s n col (cascBase s n col row) 0 5 4 = 1) : opRam n col row a b s = s := if_pos h

/-! ### What the writes leave -/

theorem portStore_rest (n col : Nat) (a : PortAct) (s : State) : portStore n col a s =
    { s with fab := { s.fab with ram := (portStore n col a s).fab.ram, ramPar := (portStore n col a s).fab.ramPar } } := by
  unfold portStore
  split <;> rfl

theorem portStore_ram36 (n col : Nat) (a : PortAct) (s : State) : (portStore n col a s).fab.ram36 = s.fab.ram36 := by
  rw [portStore_rest]

theorem portStore_ram (n col : Nat) (a : PortAct) (s : State) (m c b : Nat) : (portStore n col a s).ram m c b = s.ram m c b := by
  unfold State.ram
  rw [portStore_ram36]

/-- The words stored follow from the words that stood there. -/
theorem portStore_words (h : t.fab.ram = s.fab.ram) (a : PortAct) : (portStore n col a t).fab.ram = (portStore n col a s).fab.ram := by
  unfold portStore
  split
  · exact h
  · simp only [ramPut, ramWord, h]

theorem portStore_lanes (n col base : Nat) (pb : Bool) (i : PortIn) (s u : State) {l : Nat} :
    fld (ramWord (portStore n col (portAct s n col base pb i) u) n col (portAct s n col base pb i).row (portAct s n col base pb i).word) (9 * l + 8) (9 * l) =
      if l ∈ (portAct s n col base pb i).lanes then fld i.din (9 * (l - (portAct s n col base pb i).first) + 8) (9 * (l - (portAct s n col base pb i).first))
      else fld (ramWord u n col (portAct s n col base pb i).row (portAct s n col base pb i).word) (9 * l + 8) (9 * l) := by
  have hlt : ∀ l ∈ (portAct s n col base pb i).lanes, l < 4 := by
    intro l hl
    have hfit : (portWord (ramWidth s n col base pb) i.addr.toNat).2.1 + (portWord (ramWidth s n col base pb) i.addr.toNat).2.2 ≤ 4 := by
      unfold portWord
      split
      · dsimp only; omega
      · dsimp only; omega
      · dsimp only; omega
    have hl' : l ∈ laneSet (portWord (ramWidth s n col base pb) i.addr.toNat).2.1 (portWord (ramWidth s n col base pb) i.addr.toNat).2.2 i.we := hl
    unfold laneSet at hl'
    split at hl'
    · exact List.mem_range.1 (List.mem_filter.1 hl').1
    · split at hl'
      · simp only [List.mem_map, List.mem_range] at hl'
        obtain ⟨x, hx, rfl⟩ := hl'
        omega
      · simp at hl'
  have hdin : (portAct s n col base pb i).din = i.din := rfl
  rw [← hdin]
  generalize portAct s n col base pb i = x at hlt ⊢
  unfold portStore
  split
  next he =>
    have hnil : x.lanes = [] := List.isEmpty_iff.1 he
    rw [if_neg (by rw [hnil]; simp)]
  next => exact lane_ramPut x.lanes hlt

theorem portStore_other (n col : Nat) (a : PortAct) (s : State) {k : Nat} (h : k ≠ ramKey n col a.row a.word) :
    Store.get (fun _ => 0) (portStore n col a s).fab.ram k = Store.get (fun _ => 0) s.fab.ram k := by
  unfold portStore
  split
  · rfl
  · exact Store.get_set_other h

/-- The collision flag rises once, with E801 (R157). -/
theorem collRaise_out (n col base : Nat) (s : State) :
    (collRaise n col base s).fab.ram = s.fab.ram ∧ ((collRaise n col base s).ram n col base).coll = true ∧ ((collRaise n col base s).ram n col base).lost = true ∧
    ((s.ram n col base).coll = true → collRaise n col base s = { s with fab := (collRaise n col base s).fab }) ∧
    ((s.ram n col base).coll = false → Logged 0x801 (BitVec.ofNat 8 (0x40 + n)) (base <<< 7 ||| (if col = 20 then 1 else 0) <<< 6 ||| n) s (collRaise n col base s)) := by
  unfold collRaise
  dsimp only
  cases hc : (s.ram n col base).coll with
  | true =>
    rw [if_pos rfl]
    exact ⟨rfl, congrArg Ram36.coll ram_setRam_same, congrArg Ram36.lost ram_setRam_same, fun _ => rfl, nofun⟩
  | false =>
    rw [if_neg (by decide)]
    have hfab : ∀ q : State, ∀ code src d, (raise code src d q).fab = q.fab := fun q _ _ _ => raise_fab ..
    refine ⟨(congrArg Fabric.ram (hfab _ _ _ _)).trans rfl, ?_, ?_, nofun, fun _ => raise_logged rfl⟩
    · rw [ram_of_fab (hfab _ _ _ _), ram_setRam_same]
    · rw [ram_of_fab (hfab _ _ _ _), ram_setRam_same]

/-! ### The write command -/

/-- Both ports write one lane of one word, and the block's rule is that of the flag (R156, R157). -/
def RamHit (s : State) (n col base : Nat) (pa pb : Option (PortIn × PortAct)) : Prop :=
  ramCfg s n col base 0 7 6 = 2 ∧ ∃ a b, pa = some a ∧ pb = some b ∧ a.2.row = b.2.row ∧ a.2.word = b.2.word ∧ ∃ l ∈ a.2.lanes, l ∈ b.2.lanes

theorem ramHit_some {x y : PortIn × PortAct} : RamHit s n col base (some x) (some y) ↔ ramCfg s n col base 0 7 6 = 2 ∧ portsMeet x.2 y.2 = true := by
  refine and_congr_right fun _ => ?_
  rw [portsMeet_iff]
  refine ⟨?_, fun h => ⟨x, y, rfl, rfl, h⟩⟩
  rintro ⟨a, b, ha, hb, h⟩
  cases ha
  cases hb
  exact h

section Edge

variable {a b : Option PortIn}

/-- Which words stand after the writes of both ports (R155 to R157). -/
theorem ramBoth_words (h : ShowOut n col base s v) (x y : PortIn × PortAct) :
    (ramCfg s n col base 0 7 6 = 1 → (ramBoth n col base x.2 y.2 v).fab.ram = (portStore n col y.2 (portStore n col x.2 s)).fab.ram) ∧
    (RamHit s n col base (some x) (some y) → (ramBoth n col base x.2 y.2 v).fab.ram = (portStore n col x.2 s).fab.ram) ∧
    (ramCfg s n col base 0 7 6 ≠ 1 → ¬ RamHit s n col base (some x) (some y) →
      (ramBoth n col base x.2 y.2 v).fab.ram = (portStore n col x.2 (portStore n col y.2 s)).fab.ram) := by
  unfold ramBoth
  rw [h.same.ramCfg]
  refine ⟨fun h1 => ?_, fun hhit => ?_, fun h1 hhit => ?_⟩
  · rw [if_pos h1]
    exact portStore_words (portStore_words h.words _) _
  · obtain ⟨h2, hm⟩ := ramHit_some.1 hhit
    rw [if_neg (by omega), if_pos ⟨h2, hm⟩]
    exact (collRaise_out n col base _).1.trans (portStore_words h.words _)
  · rw [if_neg h1, if_neg (mt ramHit_some.2 hhit)]
    exact portStore_words (portStore_words h.words _) _

theorem ramBoth_hit (h : ShowOut n col base s v) {x y : PortIn × PortAct} (hhit : RamHit s n col base (some x) (some y)) :
    ramBoth n col base x.2 y.2 v = collRaise n col base (portStore n col x.2 v) := by
  obtain ⟨h2, hm⟩ := ramHit_some.1 hhit
  unfold ramBoth
  rw [h.same.ramCfg, if_neg (by omega), if_pos ⟨h2, hm⟩]

theorem portStore_still (h : v = { s with fab := v.fab }) (x : PortAct) : portStore n col x v = { s with fab := (portStore n col x v).fab } := by
  have hr := portStore_rest n col x v
  generalize portStore n col x v = w at hr ⊢
  rw [hr, h]

theorem ramBoth_still (h : ShowOut n col base s v) (h0 : ramCfg s n col base 0 26 26 = 0) {x y : PortIn × PortAct}
    (hc : ¬ RamHit s n col base (some x) (some y) ∨ (s.ram n col base).coll = true) :
    ramBoth n col base x.2 y.2 v = { s with fab := (ramBoth n col base x.2 y.2 v).fab } := by
  have hv := h.still h0
  by_cases hhit : RamHit s n col base (some x) (some y)
  · have hcoll : ((portStore n col x.2 v).ram n col base).coll = true := by
      rw [portStore_ram, h.coll]
      exact hc.resolve_left (not_not.2 hhit)
    rw [ramBoth_hit h hhit]
    have hraise := (collRaise_out n col base (portStore n col x.2 v)).2.2.2.1 hcoll
    have hstore := portStore_still (n := n) (col := col) hv x.2
    generalize collRaise n col base (portStore n col x.2 v) = w at hraise ⊢
    rw [hraise, hstore]
  · unfold ramBoth
    rw [h.same.ramCfg, if_neg (mt ramHit_some.2 hhit)]
    split
    · exact portStore_still (portStore_still hv _) _
    · exact portStore_still (portStore_still hv _) _

theorem ramBoth_logged (h : ShowOut n col base s v) (h0 : ramCfg s n col base 0 26 26 = 0) {x y : PortIn × PortAct}
    (hhit : RamHit s n col base (some x) (some y)) (hc : (s.ram n col base).coll = false) :
    Logged 0x801 (BitVec.ofNat 8 (0x40 + n)) (base <<< 7 ||| (if col = 20 then 1 else 0) <<< 6 ||| n) s (ramBoth n col base x.2 y.2 v) := by
  have hcoll : ((portStore n col x.2 v).ram n col base).coll = false := by
    rw [portStore_ram, h.coll]
    exact hc
  have hlog := (collRaise_out n col base (portStore n col x.2 v)).2.2.2.2 hcoll
  have hstore := portStore_still (n := n) (col := col) (h.still h0) x.2
  rw [ramBoth_hit h hhit]
  generalize collRaise n col base (portStore n col x.2 v) = w at hlog ⊢
  rw [hstore] at hlog
  exact hlog

/-- Where the ports do not meet, or the flag stands, an edge without the parity check moves the fabric alone. -/
theorem opRam_still (hram : ramCfg s n col (cascBase s n col row) 0 5 4 ≠ 1) (h0 : ramCfg s n col (cascBase s n col row) 0 26 26 = 0)
    (hc : ¬ RamHit s n col (cascBase s n col row) (portAsk s n col (cascBase s n col row) false a) (portAsk s n col (cascBase s n col row) true b) ∨
      (s.ram n col (cascBase s n col row)).coll = true) : opRam n col row a b s = { s with fab := (opRam n col row a b s).fab } := by
  have hshown := fun pa pb => ramShown_out n col (cascBase s n col row) (b.isSome && portRuns s n col (cascBase s n col row) true) pa pb s
  cases hx : portAsk s n col (cascBase s n col row) false a with
  | none => cases hy : portAsk s n col (cascBase s n col row) true b with
    | none =>
      rw [opRam_none hram hx hy]
      exact (hshown none none).still h0
    | some y =>
      rw [opRam_b hram hx hy]
      exact portStore_still ((hshown _ _).still h0) _
  | some x => cases hy : portAsk s n col (cascBase s n col row) true b with
    | none =>
      rw [opRam_a hram hx hy]
      exact portStore_still ((hshown _ _).still h0) _
    | some y =>
      rw [opRam_both hram hx hy]
      exact ramBoth_still (hshown _ _) h0 (by rw [← hx, ← hy]; exact hc)

theorem opRam_hit (hram : ramCfg s n col (cascBase s n col row) 0 5 4 ≠ 1)
    (hhit : RamHit s n col (cascBase s n col row) (portAsk s n col (cascBase s n col row) false a) (portAsk s n col (cascBase s n col row) true b)) :
    ((opRam n col row a b s).ram n col (cascBase s n col row)).coll = true ∧ ((opRam n col row a b s).ram n col (cascBase s n col row)).lost = true ∧
    (ramCfg s n col (cascBase s n col row) 0 26 26 = 0 → (s.ram n col (cascBase s n col row)).coll = false →
      Logged 0x801 (BitVec.ofNat 8 (0x40 + n)) (cascBase s n col row <<< 7 ||| (if col = 20 then 1 else 0) <<< 6 ||| n) s (opRam n col row a b s)) := by
  obtain ⟨x, y, hx, hy, -⟩ := hhit.2
  have hshown := ramShown_out n col (cascBase s n col row) (b.isSome && portRuns s n col (cascBase s n col row) true) (some x) (some y) s
  rw [hx, hy] at hhit
  rw [opRam_both hram hx hy]
  refine ⟨?_, ?_, fun h0 hc => ramBoth_logged hshown h0 hhit hc⟩
  · rw [ramBoth_hit hshown hhit]
    exact (collRaise_out ..).2.1
  · rw [ramBoth_hit hshown hhit]
    exact (collRaise_out ..).2.2.1

end Edge

/-! ### The read command -/

theorem laneSet_none (first cnt : Nat) : laneSet first cnt 0 = [] := by
  unfold laneSet
  split
  · simp
  · simp

/-- A port that reads at an edge presents its word. -/
theorem portShow_read (n col base : Nat) (pb : Bool) (addr : BitVec 15) (oce orst : Bool) (s q : State) :
    portShow n col base pb ⟨addr, 0, true, 0, oce, orst⟩ (portAct s n col base pb ⟨addr, 0, true, 0, oce, orst⟩) q =
      ramReadAt n col base (portAct s n col base pb ⟨addr, 0, true, 0, oce, orst⟩).row (portAct s n col base pb ⟨addr, 0, true, 0, oce, orst⟩).word
        (portAct s n col base pb ⟨addr, 0, true, 0, oce, orst⟩).first (portAct s n col base pb ⟨addr, 0, true, 0, oce, orst⟩).cnt pb oce orst q := by
  refine if_neg fun h => h.1 ?_
  rw [show (portAct s n col base pb ⟨addr, 0, true, 0, oce, orst⟩).lanes = [] from laneSet_none _ _]
  rfl

theorem portStore_read (n col base : Nat) (pb : Bool) (addr : BitVec 15) (oce orst : Bool) (s q : State) :
    portStore n col (portAct s n col base pb ⟨addr, 0, true, 0, oce, orst⟩) q = q := by
  refine if_pos ?_
  rw [show (portAct s n col base pb ⟨addr, 0, true, 0, oce, orst⟩).lanes = [] from laneSet_none _ _]
  rfl

/-- A read command is a read of its port once LOST has ended. -/
theorem opRamRead_reads (hram : ramCfg s n col (cascBase s n col row) 0 5 4 ≠ 1) (hrun : portRuns s n col (cascBase s n col row) pb = true)
    (addr : BitVec 15) (oce orst : Bool) : opRamRead n col row pb addr true oce orst s =
      (let x := portAct s n col (cascBase s n col row) pb ⟨addr, 0, true, 0, oce, orst⟩
       ramReadAt n col (cascBase s n col row) x.row x.word x.first x.cnt pb oce orst (lostClear n col (cascBase s n col row) pb s)) := by
  have hask : portAsk s n col (cascBase s n col row) pb (some ⟨addr, 0, true, 0, oce, orst⟩) =
      some (⟨addr, 0, true, 0, oce, orst⟩, portAct s n col (cascBase s n col row) pb ⟨addr, 0, true, 0, oce, orst⟩) := if_pos (by rw [hrun]; rfl)
  cases pb with
  | false =>
    refine (opRam_a (b := none) hram hask rfl).trans ((portStore_read ..).trans ?_)
    exact portShow_read ..
  | true =>
    refine (opRam_b (a := none) hram rfl hask).trans ((portStore_read ..).trans ?_)
    rw [hrun]
    exact portShow_read ..

theorem opRamRead_idle (hram : ramCfg s n col (cascBase s n col row) 0 5 4 ≠ 1) {en : Bool} (h : en = false ∨ portRuns s n col (cascBase s n col row) pb = false)
    (addr : BitVec 15) (oce orst : Bool) : opRamRead n col row pb addr en oce orst s =
      if portRuns s n col (cascBase s n col row) pb then lostClear n col (cascBase s n col row) pb s else s := by
  have hask : portAsk s n col (cascBase s n col row) pb (some ⟨addr, 0, en, 0, oce, orst⟩) = none := by
    refine if_neg ?_
    rcases h with h | h <;> simp [h]
  cases pb with
  | false =>
    refine (opRam_none (b := none) hram hask rfl).trans ((if_neg ?_).trans (ite_self _).symm)
    simp
  | true => exact opRam_none (a := none) hram rfl hask

theorem lostClear_rest (n col base : Nat) (pb : Bool) (s : State) : ∃ f, lostClear n col base pb s = { s with fab := { s.fab with ram36 := f } } ∧
    ∀ c b, ((lostClear n col base pb s).ram n c b).ppar = (s.ram n c b).ppar := by
  unfold lostClear
  split
  · refine ⟨_, rfl, fun c b => ?_⟩
    rw [ram_setRam]
    split
    next h =>
      unfold State.ram
      rw [h]
    next => rfl
  · exact ⟨s.fab.ram36, rfl, fun _ _ => rfl⟩

/-- Ending LOST leaves what a read looks at. -/
theorem readOut_lostClear (h : ReadOut n col base row w first cnt pb oce orst (lostClear n col base pb s) t) :
    ∃ bad, ParityRead n col base row w first cnt bad s t ∧ t.fab.ram = s.fab.ram ∧
      (t.ram n col base).port pb = portPush (ramDepth s n col base pb) (ramCfg s n col base 0 (if pb then 11 else 10) (if pb then 11 else 10) == 1) oce orst
        (blockWord s n col base (if pb then 2 else 1)) (ramGet s n col row w first cnt, bad) ((s.ram n col base).port pb) := by
  have hport := lostClear_port n col base pb pb s
  obtain ⟨f, hf, hpp⟩ := lostClear_rest n col base pb s
  obtain ⟨⟨hbad, hclean, hdirty⟩, -, hfab, -, hout, -⟩ := h
  have hppar := hpp col row
  rw [hport] at hout
  rw [hf] at hbad hclean hdirty hfab hout hppar
  refine ⟨_, ⟨hbad, hclean, fun hb => ?_⟩, by rw [hfab], hout⟩
  obtain ⟨hcnt, hpt, hlog⟩ := hdirty hb
  exact ⟨hcnt, hpt, fun h0 => hlog (hppar.trans h0)⟩

/-! ### DOUT -/

/-- DOUT takes the word that reaches the end of the stages (R153). -/
theorem portPush_dout (init : Word) (x : Word × Bool) (p : RamPort) :
    (∀ oce orst, p.pipe = [] → (portPush 0 false oce orst init x p).dout = x.1) ∧
    (∀ h q, p.pipe = h :: q → (portPush (q.length + 1) true true false init x p).dout = h.1 ∧ (portPush (q.length + 1) true true false init x p).pipe = q ++ [x]) ∧
    (∀ d oce, (portPush d true oce true init x p).dout = init) ∧ (∀ d, (portPush d true false false init x p).dout = p.dout) := by
  refine ⟨fun oce orst hp => by simp [portPush, hp], fun h q hp => ?_, fun d oce => rfl, fun d => rfl⟩
  simp [portPush, hp]

end Sys2Proof.Machine
end

section
/-! FIFOs and shared FIFOs (R158 to R163). -/

namespace Sys2Proof.Machine

variable {s t u : State} {n col row base k : Nat} {din : Word} {oce orst : Bool} {who : Req}

theorem SameCfg.fifoCap (h : SameCfg s t) (n col base : Nat) : fifoCap t n col base = fifoCap s n col base := by
  unfold Machine.fifoCap ramWidth cascSize
  rw [h.ramCfg, h.ramCfg]

theorem SameCfg.fifoShared (h : SameCfg s t) (n col base : Nat) : fifoShared t n col base = fifoShared s n col base := by
  unfold Machine.fifoShared
  rw [h.ramCfg, h.ramCfg]

/-- An entry lies within the lanes of its word. -/
theorem fifoAt_fits (s : State) (n col base e : Nat) : 0 < (fifoAt s n col base e).2.2.2 ∧ (fifoAt s n col base e).2.2.1 + (fifoAt s n col base e).2.2.2 ≤ 4 := by
  unfold fifoAt portWord
  dsimp only
  split
  · dsimp only; omega
  · dsimp only; omega
  · dsimp only; omega

/-! ### Pushes -/

theorem fifoPush_inReset (h : (s.ram n col base).inReset = true) : fifoPush n col base din s = s := if_pos h

theorem fifoPush_full (hr : (s.ram n col base).inReset = false) (hf : fifoCap s n col base ≤ (s.ram n col base).cntW) :
    fifoPush n col base din s = s.setRam n col base { s.ram n col base with ovf := true } :=
  (if_neg (by rw [hr]; decide)).trans (if_pos (by simp [fifoFull, hf]))

theorem fifoPush_room (hr : (s.ram n col base).inReset = false) (hf : (s.ram n col base).cntW < fifoCap s n col base) :
    fifoPush n col base din s = (let p := fifoAt s n col base (((s.ram n col base).rd + (s.ram n col base).cnt) % fifoCap s n col base)
      let v := ramPut n col p.1 p.2.1 p.2.2.1 ((List.range p.2.2.2).map (fun i => p.2.2.1 + i)) din s
      v.setRam n col base { v.ram n col base with cnt := (s.ram n col base).cnt + 1, farW := (s.ram n col base).farW ++ [fifoDelayR s n col base] }) :=
  (if_neg (by rw [hr]; decide)).trans (if_neg (by simp [fifoFull, hr, hf]))

/-- A push stores its entry, counts it and changes nothing but the fabric (R158, R159). -/
theorem fifoPush_out (hr : (s.ram n col base).inReset = false) (hf : (s.ram n col base).cntW < fifoCap s n col base) :
    (let p := fifoAt s n col base (((s.ram n col base).rd + (s.ram n col base).cnt) % fifoCap s n col base)
     ramGet (fifoPush n col base din s) n col p.1 p.2.1 p.2.2.1 p.2.2.2 = wd (fld din (9 * p.2.2.2 - 1) 0)) ∧
    (fifoPush n col base din s).ram n col base =
      { s.ram n col base with cnt := (s.ram n col base).cnt + 1, farW := (s.ram n col base).farW ++ [fifoDelayR s n col base] } ∧
    fifoPush n col base din s = { s with fab := (fifoPush n col base din s).fab } := by
  rw [fifoPush_room hr hf]
  obtain ⟨hpos, hfit⟩ := fifoAt_fits s n col base (((s.ram n col base).rd + (s.ram n col base).cnt) % fifoCap s n col base)
  exact ⟨ramGet_ramPut hpos hfit, ram_setRam_same, rfl⟩

theorem opFifoWrite_other (h : ¬ (isFifo s n col (cascBase s n col row) = true ∧ portRuns s n col (cascBase s n col row) false = true ∧
    fifoShared s n col (cascBase s n col row) ≠ 2)) (en : Bool) : opFifoWrite n col row en din s = s := by
  refine if_pos ?_
  simp only [Bool.not_eq_true]
  by_contra hc
  simp only [not_or, Bool.not_eq_false] at hc
  exact h ⟨hc.2.1, hc.1, hc.2.2⟩

theorem opFifoWrite_edge (h : isFifo s n col (cascBase s n col row) = true ∧ portRuns s n col (cascBase s n col row) false = true ∧
    fifoShared s n col (cascBase s n col row) ≠ 2) (en : Bool) : opFifoWrite n col row en din s =
      fifoEdgeW n col (cascBase s n col row) (if en then fifoPush n col (cascBase s n col row) din s else s) := by
  obtain ⟨h1, h2, h3⟩ := h
  exact if_neg (by simp [h1, h2, h3])

theorem fifoEdgeW_out (n col base : Nat) (s : State) : (fifoEdgeW n col base s).ram n col base = (s.ram n col base).edgeW ∧
    (fifoEdgeW n col base s).fab.ram = s.fab.ram ∧ fifoEdgeW n col base s = { s with fab := (fifoEdgeW n col base s).fab } := ⟨ram_setRam_same, rfl, rfl⟩

theorem fifoEdgeW_still {v : State} (h : v = { s with fab := v.fab }) : fifoEdgeW n col base v = { s with fab := (fifoEdgeW n col base v).fab } := by
  have hedge := (fifoEdgeW_out n col base v).2.2
  generalize fifoEdgeW n col base v = w at hedge ⊢
  rw [hedge, h]

/-! ### Pops -/

theorem fifoPop_inReset (h : (s.ram n col base).inReset = true) : fifoPop n col base oce orst s = s := if_pos h

theorem fifoPop_empty (hr : (s.ram n col base).inReset = false) (h0 : (s.ram n col base).cntR = 0) :
    fifoPop n col base oce orst s = s.setRam n col base { s.ram n col base with udf := true } :=
  (if_neg (by rw [hr]; decide)).trans (if_pos (by simp [fifoEmpty, h0]))

theorem fifoPop_entry (hr : (s.ram n col base).inReset = false) (h0 : (s.ram n col base).cntR ≠ 0) : fifoPop n col base oce orst s =
    (let p := fifoAt s n col base (s.ram n col base).rd
     fifoDrop n col base (ramReadAt n col base p.1 p.2.1 p.2.2.1 p.2.2.2 true oce orst s)) :=
  (if_neg (by rw [hr]; decide)).trans (if_neg (by simp [fifoEmpty, hr, h0]))

/-- Changes of a FIFO's pointers and counts keep what a parity check has left. -/
theorem ParityRead.of_ram {m w first cnt : Nat} {bad : Bool} (h : ParityRead n col base m w first cnt bad s t) (hu : u = { t with fab := u.fab })
    (hpp : (u.ram n col m).ppar = (t.ram n col m).ppar) : ParityRead n col base m w first cnt bad s u := by
  obtain ⟨hbad, hclean, hdirty⟩ := h
  have hreg : ∀ a, u.reg a = t.reg a := fun a => by rw [hu]; rfl
  have hevt : u.evt = t.evt := by rw [hu]
  refine ⟨hbad, fun h => ?_, fun h => ?_⟩
  · have h1 := hclean h
    rw [hu, h1]
  · obtain ⟨hcnt, hp, hlog⟩ := hdirty h
    refine ⟨?_, hpp.trans hp, fun h0 => ?_⟩
    · rw [← hcnt]
      unfold State.getF
      rw [hreg]
    · obtain ⟨l, hl⟩ := hlog h0
      exact ⟨l, hl.of_same hevt (hreg _)⟩

/-- The read pointer moves and the entry is no longer counted; ports, flags and the words stay. -/
theorem fifoDrop_ram (n col base : Nat) (s : State) : (fifoDrop n col base s).ram n col base =
    { s.ram n col base with
      rd := ((s.ram n col base).rd + 1) % fifoCap s n col base
      cnt := (s.ram n col base).cnt - 1
      farR := (s.ram n col base).farR ++ [fifoDelayW s n col base] } := ram_setRam_same

theorem setRam_ppar {r : Ram36} {m : Nat} (h : r.ppar = (s.ram n col base).ppar) : ((s.setRam n col base r).ram n col m).ppar = (s.ram n col m).ppar := by
  rw [ram_setRam]
  split
  next he =>
    rw [h]
    unfold State.ram
    rw [he]
  next => rfl

theorem opFifoRead_other (h : ¬ (isFifo s n col (cascBase s n col row) = true ∧ portRuns s n col (cascBase s n col row) true = true ∧
    fifoShared s n col (cascBase s n col row) ≠ 1)) (en : Bool) : opFifoRead n col row en oce orst s = s := by
  refine if_pos ?_
  simp only [Bool.not_eq_true]
  by_contra hc
  simp only [not_or, Bool.not_eq_false] at hc
  exact h ⟨hc.2.1, hc.1, hc.2.2⟩

theorem opFifoRead_edge (h : isFifo s n col (cascBase s n col row) = true ∧ portRuns s n col (cascBase s n col row) true = true ∧
    fifoShared s n col (cascBase s n col row) ≠ 1) (en : Bool) : opFifoRead n col row en oce orst s =
      fifoEdgeR n col (cascBase s n col row) (if en then fifoPop n col (cascBase s n col row) oce orst s else s) := by
  obtain ⟨h1, h2, h3⟩ := h
  exact if_neg (by simp [h1, h2, h3])

/-- What the pointers' move leaves: the FIFO's new counts, the flags of every block, all but the blocks' registers. -/
theorem fifoDrop_edge (n col base : Nat) (q : State) : ∃ f, fifoEdgeR n col base (fifoDrop n col base q) = { q with fab := { q.fab with ram36 := f } } ∧
    (∀ m, ((fifoEdgeR n col base (fifoDrop n col base q)).ram n col m).ppar = (q.ram n col m).ppar) ∧
    ((fifoEdgeR n col base (fifoDrop n col base q)).ram n col base).b = (q.ram n col base).b ∧
    ((fifoEdgeR n col base (fifoDrop n col base q)).ram n col base).rd = ((q.ram n col base).rd + 1) % fifoCap q n col base ∧
    ((fifoEdgeR n col base (fifoDrop n col base q)).ram n col base).cnt = (q.ram n col base).cnt - 1 := by
  have hram : (fifoEdgeR n col base (fifoDrop n col base q)).ram n col base = ((fifoDrop n col base q).ram n col base).edgeR := ram_setRam_same
  rw [fifoDrop_ram] at hram
  have hdrop : ∀ m, ((fifoDrop n col base q).ram n col m).ppar = (q.ram n col m).ppar := fun m => by
    unfold fifoDrop
    exact setRam_ppar rfl
  have hedge : ∀ (v : State) m, ((fifoEdgeR n col base v).ram n col m).ppar = (v.ram n col m).ppar := fun v m => by
    unfold fifoEdgeR
    exact setRam_ppar rfl
  exact ⟨_, rfl, fun m => (hedge _ m).trans (hdrop m), (congrArg Ram36.b hram).trans rfl, (congrArg Ram36.rd hram).trans rfl,
    (congrArg Ram36.cnt hram).trans rfl⟩

/-- A pop presents the head as a read of port B does and moves the read pointer (R158, R159). -/
theorem fifoPop_out (hr : (s.ram n col base).inReset = false) (h0 : (s.ram n col base).cntR ≠ 0) :
    let p := fifoAt s n col base (s.ram n col base).rd
    ∃ bad, ParityRead n col base p.1 p.2.1 p.2.2.1 p.2.2.2 bad s (fifoEdgeR n col base (fifoPop n col base oce orst s)) ∧
      (fifoEdgeR n col base (fifoPop n col base oce orst s)).fab.ram = s.fab.ram ∧
      ((fifoEdgeR n col base (fifoPop n col base oce orst s)).ram n col base).b =
        portPush (ramDepth s n col base true) (ramCfg s n col base 0 11 11 == 1) oce orst (blockWord s n col base 2)
          (ramGet s n col p.1 p.2.1 p.2.2.1 p.2.2.2, bad) (s.ram n col base).b ∧
      ((fifoEdgeR n col base (fifoPop n col base oce orst s)).ram n col base).rd = ((s.ram n col base).rd + 1) % fifoCap s n col base ∧
      ((fifoEdgeR n col base (fifoPop n col base oce orst s)).ram n col base).cnt = (s.ram n col base).cnt - 1 := by
  intro p
  have hread := ramReadAt_out n col base p.1 p.2.1 p.2.2.1 p.2.2.2 true oce orst s
  have hpop : fifoPop n col base oce orst s = fifoDrop n col base (ramReadAt n col base p.1 p.2.1 p.2.2.1 p.2.2.2 true oce orst s) := fifoPop_entry hr h0
  rw [hpop]
  generalize ramReadAt n col base p.1 p.2.1 p.2.2.1 p.2.2.2 true oce orst s = q at hread ⊢
  obtain ⟨hpar, hsame, hfab, -, hport, hrest⟩ := hread
  obtain ⟨pp, x, hq⟩ := hrest col base
  obtain ⟨-, -, -, -, -, hrd, hcnt⟩ := setPort_port (s.ram n col base) true pp
  have hrd' : (q.ram n col base).rd = (s.ram n col base).rd := (congrArg Ram36.rd hq).trans hrd
  have hcnt' : (q.ram n col base).cnt = (s.ram n col base).cnt := (congrArg Ram36.cnt hq).trans hcnt
  obtain ⟨f, hv, hpp, hb, hvrd, hvcnt⟩ := fifoDrop_edge n col base q
  generalize fifoEdgeR n col base (fifoDrop n col base q) = v at hv hpp hb hvrd hvcnt ⊢
  refine ⟨_, hpar.of_ram (by rw [hv]) (hpp _), by rw [hv, hfab], hb.trans hport, ?_, ?_⟩
  · rw [hvrd, hrd', hsame.fifoCap]
  · rw [hvcnt, hcnt']

/-! ### Shared FIFOs -/

theorem fifoFor_quarantined {op : Nat × Nat → State → State} (h : s.getB (Reg.rgnStatus n) 0 = true) : fifoFor n k who op s = busErr s := if_pos h

theorem fifoFor_other {op : Nat × Nat → State → State} {p : Nat × Nat} (h : s.getB (Reg.rgnStatus n) 0 = false) (hp : sharedFifo s n k = some p)
    (ho : fifoOwner s n k ≠ 0 ∧ fifoOwner s n k ≠ who.toNat) : fifoFor n k who op s = busErr s := by
  refine (if_neg (by rw [h]; decide)).trans ?_
  rw [hp]
  exact if_neg (not_or.2 ho)

theorem fifoFor_mine {op : Nat × Nat → State → State} {p : Nat × Nat} (h : s.getB (Reg.rgnStatus n) 0 = false) (hp : sharedFifo s n k = some p)
    (ho : fifoOwner s n k = 0 ∨ fifoOwner s n k = who.toNat) : fifoFor n k who op s = fifoEdgeShared n p.1 p.2 (op p s) := by
  refine (if_neg (by rw [h]; decide)).trans ?_
  rw [hp]
  exact if_pos ho

theorem fifoEdgeShared_out (n col base : Nat) (s : State) : (fifoEdgeShared n col base s).resp = s.resp ∧
    ((fifoEdgeShared n col base s).ram n col base).cnt = (s.ram n col base).cnt := by
  unfold fifoEdgeShared
  split
  · exact ⟨rfl, (congrArg Ram36.cnt ram_setRam_same).trans rfl⟩
  · exact ⟨rfl, (congrArg Ram36.cnt ram_setRam_same).trans rfl⟩

theorem ramParity_keep (n col row : Nat) (lanes : List Nat) (s : State) :
    (ramParity n col row lanes s).resp = s.resp ∧ ∀ c b, ((ramParity n col row lanes s).ram n c b).cnt = (s.ram n c b).cnt := by
  cases lanes with
  | nil => exact ⟨rfl, fun _ _ => rfl⟩
  | cons l ls =>
    obtain ⟨-, -, hresp, -, hram, -⟩ := ramParity_out n col row l ls s
    exact ⟨hresp, fun c b => (congrArg Ram36.cnt (hram c b)).trans rfl⟩

theorem fifoData_empty {p : Nat × Nat} {peek : Bool} (hs : fifoShared s n p.1 p.2 = 1) (hr : (s.ram n p.1 p.2).inReset = false) (h0 : (s.ram n p.1 p.2).cntR = 0) :
    fifoData n peek p s = if peek then s else s.setRam n p.1 p.2 { s.ram n p.1 p.2 with udf := true } :=
  (if_neg (by simp [hs, hr])).trans (if_pos (by simp [fifoEmpty, h0]))

/-- A read of DATA answers the head and, unless it peeks, drops it (R163). -/
theorem fifoData_entry {p : Nat × Nat} {peek : Bool} (hs : fifoShared s n p.1 p.2 = 1) (hr : (s.ram n p.1 p.2).inReset = false) (h0 : (s.ram n p.1 p.2).cntR ≠ 0) :
    (fifoData n peek p s).resp = { s.resp with data := (let q := fifoAt s n p.1 p.2 (s.ram n p.1 p.2).rd
      ramGet s n p.1 q.1 q.2.1 q.2.2.1 q.2.2.2) } ∧
    ((fifoData n peek p s).ram n p.1 p.2).cnt = (s.ram n p.1 p.2).cnt - (!peek).toNat := by
  unfold fifoData
  dsimp only
  rw [if_neg (by simp [hs, hr]), if_neg (by simp [fifoEmpty, hr, h0])]
  generalize hw : ramGet s n p.1 (fifoAt s n p.1 p.2 (s.ram n p.1 p.2).rd).1 (fifoAt s n p.1 p.2 (s.ram n p.1 p.2).rd).2.1
    (fifoAt s n p.1 p.2 (s.ram n p.1 p.2).rd).2.2.1 (fifoAt s n p.1 p.2 (s.ram n p.1 p.2).rd).2.2.2 = w
  cases peek with
  | true => exact ⟨rfl, rfl⟩
  | false =>
    rw [if_neg (by decide)]
    split
    · obtain ⟨hresp, hram⟩ := ramParity_keep n p.1 (fifoAt s n p.1 p.2 (s.ram n p.1 p.2).rd).1
        (((List.range (fifoAt s n p.1 p.2 (s.ram n p.1 p.2).rd).2.2.2).map (fun i => (fifoAt s n p.1 p.2 (s.ram n p.1 p.2).rd).2.2.1 + i)).filter
          (fun i => (ramBad (answer w s) n p.1 (fifoAt s n p.1 p.2 (s.ram n p.1 p.2).rd).1 (fifoAt s n p.1 p.2 (s.ram n p.1 p.2).rd).2.1).getLsbD i)) (answer w s)
      refine ⟨hresp, ?_⟩
      rw [fifoDrop_ram]
      exact congrArg (· - 1) (hram _ _)
    · refine ⟨rfl, ?_⟩
      rw [fifoDrop_ram]
      rfl

end Sys2Proof.Machine
end

section
/-! O15: MAC36 blocks (R167 to R173), buses (R137 to R140), and the statement over RAM36, FIFO, MAC36 and bus. -/

namespace Sys2Proof.Machine

variable {s : State} {n row k : Nat} {second bus : Bool} {i : MacIn} {den : BitVec 32}

/-! ### MAC36 -/

theorem mac36_setMac {m : Mac36} {j : Nat} : (s.setMac k m).mac36 j = if j = k then m else s.mac36 j := Store.get_set

theorem opMac_still (h : clocksOn s n = false ∨ lineRuns s (fld (macCfg s n row second) 11 8) = false) : opMac n row second i s = s :=
  if_pos (by simpa using h)

/-- What feeds the accumulator at an edge. -/
def macFed (s : State) (n row : Nat) (second : Bool) (i : MacIn) : Word × Word × BitVec 96 :=
  let cfg := macCfg s n row second
  macFeed cfg (if cfg.getLsbD 18 then s.mac36 (macKey n row second) else macPipe cfg (s.mac36 (macKey n row second)) i) i

/-- An edge moves its own block: P clears, takes what OPMODE selects, or holds (R168). -/
theorem opMac_edge (hc : clocksOn s n = true) (hl : lineRuns s (fld (macCfg s n row second) 11 8) = true) :
    ∃ m, opMac n row second i s = s.setMac (macKey n row second) m ∧
      m.p = (if i.rstP then 0 else if i.ce then (macNext (macCfg s n row second) i.opmode.toNat (s.mac36 (macKey n row second)).p (macPcin s n row second)
        (macFed s n row second i).2.2 (macFed s n row second i).1 (macFed s n row second i).2.1).1 else (s.mac36 (macKey n row second)).p) ∧
      (i.rstP = true → m.ovfS = false) := by
  refine ⟨_, if_neg (by simp [hc, hl]), rfl, fun h => ?_⟩
  simp [h]

/-- An unsplit, unsigned block without registers multiplies its operands. -/
theorem macFed_plain (h : macCfg s n row second = 0) : macFed s n row second i = (i.a, i.b, i.c) := by
  unfold macFed
  rw [h]
  rfl

theorem fld_all {w : Nat} (x : BitVec (w + 1)) : fld x w 0 = x.toNat := by
  simp [fld]

theorem macNext_plain (op : Nat) (p pcin c : BitVec 96) (a b : Word) :
    (macNext 0 op p pcin c a b).1 = BitVec.ofNat 96 (macLane 96 false false op p.toNat pcin.toNat c.toNat ((a.toNat : Int) * b.toNat)).1 := by
  have hl : macLanes (fld (0 : Word) 1 0) = (1, 36, 96) := rfl
  have ha : ∀ x : Word, fld x 35 0 = x.toNat := fun x => fld_all x
  have hp : ∀ x : BitVec 96, fld x 95 0 = x.toNat := fun x => fld_all x
  unfold macNext
  rw [hl]
  simp [ha, hp, macVal]

theorem unsgn_ofNat (v : Nat) (w : Nat) : unsgn (v : Int) w = v % 2 ^ w := by
  unfold unsgn
  rw [← Int.natCast_mod, Int.toNat_natCast]

/-- OPMODE 0 takes the product, OPMODE 1 adds it to P (R168). -/
theorem macNext_product (p pcin c : BitVec 96) (a b : Word) : (macNext 0 0 p pcin c a b).1.toNat = a.toNat * b.toNat := by
  have hlt : a.toNat * b.toNat < 2 ^ 96 := lt_of_lt_of_le (Nat.mul_lt_mul'' a.isLt b.isLt) (by decide)
  have hlane : (macLane 96 false false 0 p.toNat pcin.toNat c.toNat ((a.toNat : Int) * b.toNat)).1 = unsgn ((a.toNat * b.toNat : Nat) : Int) 96 := by
    simp [macLane]
  rw [macNext_plain, hlane, unsgn_ofNat, BitVec.toNat_ofNat, Nat.mod_mod, Nat.mod_eq_of_lt hlt]

theorem macNext_sum (p pcin c : BitVec 96) (a b : Word) : (macNext 0 1 p pcin c a b).1.toNat = (p.toNat + a.toNat * b.toNat) % 2 ^ 96 := by
  have hlane : (macLane 96 false false 1 p.toNat pcin.toNat c.toNat ((a.toNat : Int) * b.toNat)).1 = unsgn ((p.toNat + a.toNat * b.toNat : Nat) : Int) 96 := by
    simp [macLane, macVal]
  rw [macNext_plain, hlane, unsgn_ofNat, BitVec.toNat_ofNat, Nat.mod_mod]

/-! ### Buses -/

theorem busMasked_lt (ws : List Word) (bus : Bool) (den : BitVec 32) : ∀ r ∈ busMasked ws bus den, r < 32 := by
  have hfold : ∀ (l : List Nat) (a : BitVec 36 × List Nat), (∀ r ∈ a.2, r < 32) → (∀ r ∈ l, r < 32) → ∀ r ∈ (l.foldl (fun (a : BitVec 36 × List Nat) r =>
      if busMode ws bus r = 2 ∧ den.getLsbD r then
        (a.1 ||| busMask ws bus r, if a.1 &&& busMask ws bus r = 0 then a.2 else a.2 ++ [r]) else a) a).2, r < 32 := by
    intro l
    induction l with
    | nil => exact fun a ha _ => ha
    | cons x l ih =>
      intro a ha hl
      refine ih _ ?_ fun r hr => hl r (.tail _ hr)
      dsimp only
      split
      · dsimp only
        split
        · exact ha
        · intro r hr
          rcases List.mem_append.1 hr with h | h
          · exact ha r h
          · rw [List.mem_singleton.1 h]
            exact hl x (.head _)
      · exact ha
  exact hfold _ _ (by simp) fun r hr => List.mem_range.1 hr

/-- Rows marked one by one: each is set, and the rest of the state stays. -/
theorem setRows_out (a : Nat) (rows : List Nat) (h : ∀ r ∈ rows, r < 32) (s : State) :
    (∀ r ∈ rows, (forAll rows (fun r s => s.setB a r true) s).getB a r = true) ∧
    (∀ r, s.getB a r = true → (forAll rows (fun r s => s.setB a r true) s).getB a r = true) ∧
    (∀ b, b ≠ a → (forAll rows (fun r s => s.setB a r true) s).reg b = s.reg b) ∧
    ∃ g, forAll rows (fun r s => s.setB a r true) s = { s with regs := g } := by
  induction rows generalizing s with
  | nil => exact ⟨nofun, fun _ h => h, fun _ _ => rfl, s.regs, rfl⟩
  | cons x rows ih =>
    have hx : x < 32 := h x (.head _)
    obtain ⟨h1, h2, h3, g, hg⟩ := ih (fun r hr => h r (.tail _ hr)) (s.setB a x true)
    have hset : (s.setB a x true).getB a x = true := getB_setB_same (by omega)
    have hkeep : ∀ r, s.getB a r = true → (s.setB a x true).getB a r = true := fun r hr => by
      by_cases hrx : r = x
      · subst hrx; exact hset
      · rw [show s.setB a x true = s.setF a x x 1 from rfl, getB_setF (by omega), if_neg (by omega)]
        exact hr
    refine ⟨fun r hr => ?_, fun r hr => h2 r (hkeep r hr), fun b hb => (h3 b hb).trans (reg_setB_other hb), g, hg⟩
    rcases List.mem_cons.1 hr with rfl | hr
    · exact h2 _ hset
    · exact h1 r hr

theorem opContention_still (h : clocksOn s n = false ∨ lineRuns s (busClk s n bus) = false) : opContention n bus den s = s :=
  if_pos (by simpa using h)

/-- What a sample of a bus leaves (R139, R140). -/
theorem opContention_edge (hc : clocksOn s n = true) (hl : lineRuns s (busClk s n bus) = true) :
    (opContention n bus den s).getF (Reg.rgnCntCont n bus.toNat) 31 0 =
      min (2 ^ 32 - 1) (s.getF (Reg.rgnCntCont n bus.toNat) 31 0 + (busMasked (busWords s n) bus den).length) ∧
    (∀ r ∈ busMasked (busWords s n) bus den, (opContention n bus den s).getB (Reg.rgnContRows n bus.toNat) r = true) ∧
    Store.get (fun _ => 0) (opContention n bus den s).fab.bus (2 * n + bus.toNat) = busLines s n bus den ∧
    KeepRegs [Reg.rgnCntCont n bus.toNat, Reg.rgnContRows n bus.toNat] s (opContention n bus den s) ∧
    opContention n bus den s = { s with regs := (opContention n bus den s).regs, fab := { s.fab with bus := (opContention n bus den s).fab.bus } } := by
  have hne : Reg.rgnCntCont n bus.toNat ≠ Reg.rgnContRows n bus.toNat := by simp only [Reg.rgnCntCont, Reg.rgnContRows]; omega
  have hop : opContention n bus den s = forAll (busMasked (busWords s n) bus den) (fun r s => s.setB (Reg.rgnContRows n bus.toNat) r true)
      (State.setF { s with fab := { s.fab with bus := Store.set (fun _ => 0) s.fab.bus (2 * n + bus.toNat) (busLines s n bus den) } } (Reg.rgnCntCont n bus.toNat) 31 0
        (min (2 ^ 32 - 1) (s.getF (Reg.rgnCntCont n bus.toNat) 31 0 + (busMasked (busWords s n) bus den).length))) := if_neg (by simp [hc, hl])
  obtain ⟨hset, -, hkeep, g, hg⟩ := setRows_out (Reg.rgnContRows n bus.toNat) _ (busMasked_lt (busWords s n) bus den)
    (State.setF { s with fab := { s.fab with bus := Store.set (fun _ => 0) s.fab.bus (2 * n + bus.toNat) (busLines s n bus den) } } (Reg.rgnCntCont n bus.toNat) 31 0
        (min (2 ^ 32 - 1) (s.getF (Reg.rgnCntCont n bus.toNat) 31 0 + (busMasked (busWords s n) bus den).length)))
  rw [hop]
  refine ⟨?_, hset, ?_, fun b hb => ?_, ?_⟩
  · refine (congrArg (fld · 31 0) (hkeep _ hne)).trans ((getF_setF_same (by decide)).trans (Nat.mod_eq_of_lt ?_))
    omega
  · rw [hg]
    exact Store.get_set_same
  · simp only [List.mem_cons, List.not_mem_nil, or_false, not_or] at hb
    exact (hkeep b hb.2).trans (reg_setF_other hb.1)
  · rw [hg]
    rfl

/-! ### The statement -/

/-- Settles O15: each command is an edge of its block's ports, and the pieces of an edge (`ShowOut`, `ReadOut`, `ramBoth_words`, `fifoPush_out`,
`fifoPop_out`, `opMac_edge`, `opContention_edge`) say what it leaves. -/
theorem hardBlocks : Obligations.HardBlocks := by
  unfold Obligations.HardBlocks
  refine ⟨fun n col base pb i s u => ⟨fun l _ => portStore_lanes n col base pb i s u, fun k hk => portStore_other n col _ u hk⟩,
    fun blk A B s => ⟨fun h => ?fifo, fun hram hx hy h => ?noPort, fun hram => ?write⟩,
    fun blk pb addr oce orst s => ⟨fun h en => ?fifoRead, fun hram en h => ?idle, fun hram hrun => ?read⟩,
    fun init w p => portPush_dout init w p, fun blk s => rfl,
    fun blk s => ⟨fun en din h => ?wOther, fun en din h h' => ?wIdle, fun din h hr hf => ?wFull, fun din h hr hf => ?wPush,
      fun en oce orst h => ?rOther, fun en oce orst h h' => ?rIdle, fun oce orst h hr h0 => ?rEmpty, fun oce orst h hr h0 => ?rPop, rfl⟩,
    fun who n k s hlive => ⟨fun hq => ⟨fun v => ?qWrite, fun p => ?qRead⟩, fun p hq hp => ⟨fun ho => ⟨fun v => ?oWrite, fun pk => ?oRead⟩,
      fun ho hr => ⟨fun v hs hf => ?sFull, fun v hs hf => ⟨?sPush, ?sCount⟩, fun pk hs h0 => ?sEmpty, fun pk hs h0 => ?sPop⟩⟩⟩,
    fun b second i s => ⟨fun h => ?macStill, fun hcol hc hl => ?mac⟩, fun n bus den s => ⟨fun h => ?busStill, fun hc hl => ?bus⟩⟩
  case fifo => exact congrArg Host.Outcome.next (opRam_fifo h)
  case noPort =>
    refine congrArg Host.Outcome.next ((opRam_none hram hx hy).trans (if_neg ?_))
    rcases h with h | h <;> simp [h]
  case write =>
    have hshown := fun pa pb => ramShown_out blk.region.val blk.col.val (cascBase s blk.region.val blk.col.val blk.row.val)
      (B.isSome && portRuns s blk.region.val blk.col.val (cascBase s blk.region.val blk.col.val blk.row.val) true) pa pb s
    refine .of_exec rfl ⟨fun a hx hy => ?a, fun b hx hy => ?b, fun a b hx hy => ?both, fun hhit => ?coll, fun h0 hc => opRam_still hram h0 hc,
      fun h0 hhit hc => (opRam_hit hram hhit).2.2 h0 hc⟩
    case a =>
      rw [opRam_a hram hx hy]
      exact portStore_words (hshown _ _).words _
    case b =>
      rw [opRam_b hram hx hy]
      exact portStore_words (hshown _ _).words _
    case both =>
      have hwords := ramBoth_words (hshown (some a) (some b)) a b
      rw [← hx, ← hy] at hwords
      rw [opRam_both hram hx hy, ← hx, ← hy]
      exact hwords
    case coll => exact ⟨(opRam_hit hram hhit).1, (opRam_hit hram hhit).2.1⟩
  case fifoRead =>
    refine congrArg Host.Outcome.next ?_
    cases pb <;> exact opRam_fifo h
  case idle => exact congrArg Host.Outcome.next (opRamRead_idle hram h addr oce orst)
  case read => exact .of_exec_eq rfl (opRamRead_reads hram hrun addr oce orst) (readOut_lostClear (ramReadAt_out ..))
  case wOther => exact congrArg Host.Outcome.next (opFifoWrite_other h en)
  case wIdle =>
    refine congrArg Host.Outcome.next ((opFifoWrite_edge h en).trans (congrArg _ ?_))
    rcases h' with rfl | h'
    · rfl
    · rw [fifoPush_inReset h', ite_self]
  case wFull => exact congrArg Host.Outcome.next ((opFifoWrite_edge h true).trans (congrArg _ (fifoPush_full hr hf)))
  case wPush =>
    obtain ⟨hword, hram, hrest⟩ := fifoPush_out (din := din) hr hf
    refine .of_exec_eq rfl (opFifoWrite_edge h true) ⟨hword, (fifoEdgeW_out ..).1.trans (congrArg Ram36.edgeW hram), fifoEdgeW_still hrest⟩
  case rOther => exact congrArg Host.Outcome.next (opFifoRead_other h en)
  case rIdle =>
    refine congrArg Host.Outcome.next ((opFifoRead_edge h en).trans (congrArg _ ?_))
    rcases h' with rfl | h'
    · rfl
    · rw [fifoPop_inReset h', ite_self]
  case rEmpty => exact congrArg Host.Outcome.next ((opFifoRead_edge h true).trans (congrArg _ (fifoPop_empty hr h0)))
  case rPop => exact .of_exec_eq rfl (opFifoRead_edge h true) (fifoPop_out hr h0)
  case qWrite => exact congrArg Host.Outcome.next ((gateW_live hlive).trans (fifoFor_quarantined (s := begin who s) hq))
  case qRead => exact congrArg Host.Outcome.next ((gateR_live hlive).trans (fifoFor_quarantined (s := begin who s) hq))
  case oWrite => exact congrArg Host.Outcome.next ((gateW_live hlive).trans (fifoFor_other (s := begin who s) hq hp ho))
  case oRead => exact congrArg Host.Outcome.next ((gateR_live hlive).trans (fifoFor_other (s := begin who s) hq hp ho))
  case sFull =>
    exact congrArg Host.Outcome.next ((gateW_live hlive).trans ((fifoFor_mine (s := begin who s) hq hp ho).trans
      (congrArg _ ((if_pos hs).trans (fifoPush_full (s := begin who s) hr hf)))))
  case sPush => exact congrArg Host.Outcome.next ((gateW_live hlive).trans ((fifoFor_mine (s := begin who s) hq hp ho).trans (congrArg _ (if_pos hs))))
  case sCount =>
    exact congrArg Ram36.cnt (fifoPush_out (s := begin who s) hr hf).2.1
  case sEmpty =>
    exact congrArg Host.Outcome.next ((gateR_live hlive).trans ((fifoFor_mine (s := begin who s) hq hp ho).trans
      (congrArg _ (fifoData_empty (s := begin who s) hs hr h0))))
  case sPop =>
    obtain ⟨hresp, hcnt⟩ := fifoData_entry (s := begin who s) (peek := peeks who pk) hs hr h0
    obtain ⟨heresp, hecnt⟩ := fifoEdgeShared_out n.val p.1 p.2 (fifoData n.val (peeks who pk) p (begin who s))
    rw [hresp] at heresp
    exact .of_exec_eq rfl ((gateR_live hlive).trans (fifoFor_mine (s := begin who s) hq hp ho))
      ⟨congrArg Resp.err heresp, congrArg Resp.data heresp, hecnt.trans hcnt⟩
  case macStill =>
    refine congrArg Host.Outcome.next ?_
    by_cases hcol : b.col.val = 13
    · exact (if_pos hcol).trans (opMac_still (h.resolve_left (not_not.2 hcol)))
    · exact if_neg hcol
  case mac =>
    obtain ⟨m, hop, hp, hovf⟩ := opMac_edge (i := i) hc hl
    have hk : ∀ j, (s.setMac (macKey b.region.val b.row.val second) m).mac36 j = if j = macKey b.region.val b.row.val second then m else s.mac36 j := fun j => mac36_setMac
    refine .of_exec_eq rfl ((if_pos hcol).trans hop) ⟨rfl, fun j hj => (hk j).trans (if_neg hj), fun hr => ?clear, fun hr hce => ?hold, fun hr hce => ?take,
      fun h0 hr hce hopm => ?product, fun h0 hr hce hopm => ?sum⟩
    all_goals rw [hk, if_pos rfl]
    case clear => exact ⟨hp.trans (if_pos hr), hovf hr⟩
    case hold => exact hp.trans ((if_neg (by simp [hr])).trans (if_neg (by simp [hce])))
    case take => exact hp.trans ((if_neg (by simp [hr])).trans (if_pos hce))
    case product =>
      rw [hp, if_neg (by simp [hr]), if_pos hce, macFed_plain h0, h0, hopm]
      exact macNext_product ..
    case sum =>
      rw [hp, if_neg (by simp [hr]), if_pos hce, macFed_plain h0, h0, hopm]
      exact macNext_sum ..
  case busStill => exact congrArg Host.Outcome.next (opContention_still h)
  case bus =>
    obtain ⟨hcnt, hrows, hlines, hkeep, hrest⟩ := opContention_edge (den := den) hc hl
    exact .of_exec rfl ⟨⟨hcnt, hrows⟩, hlines, hkeep, hrest⟩

end Sys2Proof.Machine
end

section
/-! O16: RGN.CMD, the region error log and the end of a region reset (R84, R119, R143 to R148). -/

namespace Sys2Proof.Machine

variable {s u : State} {n : Nat} {v : Word}

/-! ### RGN.CMD -/

theorem rgnSwapDue_idle (h : s.swState = 0) (n : Nat) : rgnSwapDue s n = false := by
  unfold rgnSwapDue
  rw [h]
  rfl

theorem opRgnCmd_refused (h2 : v.getLsbD 2 = false) (h01 : v.getLsbD 0 = true ∨ v.getLsbD 1 = true)
    (h : fld v 35 24 ≠ 0x6D1 ∨ rgnSwapDue s n = true ∨ s.getB (Reg.rgnStatus n) 4 = true) : opRgnCmd n v s = s.setB (Reg.rgnStatus n) 6 true := by
  unfold opRgnCmd
  dsimp only
  rw [h2, if_neg (by decide : ¬ false = true), if_neg (by rcases h01 with h | h <;> simp [h])]
  refine if_pos ?_
  tauto

theorem opRgnCmd_ack (h2 : v.getLsbD 2 = true) (h0 : v.getLsbD 0 = false) (h1 : v.getLsbD 1 = false) : opRgnCmd n v s = logAck n s := by
  unfold opRgnCmd
  dsimp only
  rw [h2, if_pos rfl, if_pos ⟨by rw [h0]; rfl, by rw [h1]; rfl⟩]

/-- A command with the key, in RUN, with no swap due and no reset under way. -/
theorem opRgnCmd_acts (h2 : v.getLsbD 2 = false) (h01 : v.getLsbD 0 = true ∨ v.getLsbD 1 = true) (hkey : fld v 35 24 = 0x6D1) (hm : s.mode = .run)
    (hsw : s.swState = 0) (h4 : s.getB (Reg.rgnStatus n) 4 = false) : opRgnCmd n v s = if v.getLsbD 0 then rgnResetStart n s else rgnQuarantine n 3 s := by
  unfold opRgnCmd
  dsimp only
  rw [h2, if_neg (by decide : ¬ false = true), if_neg (by rcases h01 with h | h <;> simp [h])]
  exact if_neg (by simp [hkey, hm, rgnSwapDue_idle hsw, h4])

theorem swState_of_reg {t : State} (h : t.reg Reg.cfgSwapStatus = s.reg Reg.cfgSwapStatus) : t.swState = s.swState := by
  unfold State.swState State.getF
  rw [h]

theorem rgnStatus_ne_swap (n : Nat) : Reg.cfgSwapStatus ≠ Reg.rgnStatus n := by
  simp only [Reg.cfgSwapStatus, Reg.rgnStatus]
  omega

/-- The region with RESET set, its clocks gated, its requests and repairs dropped. -/
def rgnStopped (n : Nat) (s : State) : State :=
  let s := rgnGovDrop n (s.setB (Reg.rgnStatus n) 4 true)
  let s := s.setRg n { s.rg n with gated := true, repre := false, awaiting := false }
  { s with cal := { s.cal with queue := s.cal.queue.filter (fun r => r.lane != n) } }

theorem rgnResetStart_eq (n : Nat) (s : State) : rgnResetStart n s = swapCheck (pinsFrom s (portDiscard n (rgnStopped n s))) := rfl

/-- A region reset sets RESET and gates the region; nothing of another region or of the fabric moves (R84). -/
theorem rgnResetStart_out (hsw : s.swState = 0) (n : Nat) : (rgnResetStart n s).getB (Reg.rgnStatus n) 4 = true ∧ ((rgnResetStart n s).rg n).gated = true ∧
    KeepRegs [Reg.rgnStatus n] s (rgnResetStart n s) ∧ (∀ m, m ≠ n → (rgnResetStart n s).rg m = s.rg m) ∧ (rgnResetStart n s).fab = s.fab := by
  rw [rgnResetStart_eq]
  generalize hq : rgnStopped n s = q
  have hregs : q.regs = (s.setB (Reg.rgnStatus n) 4 true).regs := by rw [← hq]; rfl
  have hrg : ∀ m, q.rg m = if m = n then { s.rg n with gated := true, repre := false, awaiting := false } else s.rg m := fun m => by
    rw [← hq]
    exact rg_setRg
  have hfab : q.fab = s.fab := by rw [← hq]; rfl
  obtain ⟨e, he⟩ := portDiscard_ex n q
  obtain ⟨p, hp⟩ := pinsFrom_ex s (portDiscard n q)
  have hout : pinsFrom s (portDiscard n q) = { q with eng := e, pin := p } := by rw [hp, he]
  have hreg : ∀ a, (pinsFrom s (portDiscard n q)).reg a = (s.setB (Reg.rgnStatus n) 4 true).reg a := fun a => by
    rw [hout]
    exact congrArg (Store.get regDefault · a) hregs
  have hidle : swapCheck (pinsFrom s (portDiscard n q)) = pinsFrom s (portDiscard n q) :=
    swapCheck_idle _ ((swState_of_reg ((hreg _).trans (reg_setB_other (rgnStatus_ne_swap n)))).trans hsw)
  rw [hidle]
  refine ⟨?_, ?_, fun a ha => (hreg a).trans (reg_setB_other (by simpa using ha)), fun m hm => ?_, ?_⟩
  · rw [getB_eq, hreg, ← getB_eq]
    exact getB_setB_same (by decide)
  · rw [hout]
    exact (congrArg Region.gated ((hrg n).trans (if_pos rfl))).trans rfl
  · rw [hout]
    exact (hrg m).trans (if_neg hm)
  · rw [hout]
    exact hfab

/-- What a quarantine of a region that is not CRITICAL and does not escalate leaves (R144 to R147). -/
theorem rgnQuarantine_out {cause : Nat} (hn : n < 64) (hc : cause < 8) (h0 : s.getB (Reg.rgnStatus n) 0 = false) (ha : s.getB (Reg.rgnAttr n) 0 = false)
    (hb : s.getB (Reg.rgnAttr n) 1 = false) (hsw : s.swState = 0) :
    (rgnQuarantine n cause s).getF (Reg.rgnStatus n) 3 0 = (cause <<< 1 ||| 1) % 16 ∧ ((rgnQuarantine n cause s).rg n).gated = true ∧
    ((s.rg n).log.length < 32 → ((rgnQuarantine n cause s).rg n).log = (s.rg n).log ++ [wd (7 <<< 32 ||| cause <<< 8)]) ∧
    Logged 0x407 (BitVec.ofNat 8 (0x40 + n)) (7 <<< 32 ||| cause <<< 8 ||| n <<< 1) s (rgnQuarantine n cause s) ∧ (rgnQuarantine n cause s).mode = s.mode ∧
    (∀ i, 4 ≤ i → (rgnQuarantine n cause s).getB (Reg.rgnStatus n) i = s.getB (Reg.rgnStatus n) i) := by
  unfold rgnQuarantine
  dsimp only
  generalize hq : (rgnGovDrop n s).setRg n { (rgnGovDrop n s).rg n with awaiting := false } = q
  have hregs : q.regs = s.regs := by rw [← hq]; rfl
  have hreg : ∀ a, q.reg a = s.reg a := fun a => congrArg (Store.get regDefault · a) hregs
  have hbit : ∀ a i, q.getB a i = s.getB a i := fun a i => by rw [getB_eq, getB_eq, hreg]
  have hrg : q.rg n = { s.rg n with awaiting := false } := by rw [← hq]; exact rg_setRg_same
  have hevt : q.evt = s.evt := by rw [← hq]; rfl
  have hmode : q.mode = s.mode := by rw [← hq]; rfl
  obtain ⟨u, hquar, hfld, hurg, huevt, humode, hukeep, husw⟩ := quar_out n cause hn q hc ((hbit _ _).trans h0) ((hbit _ _).trans ha) ((hbit _ _).trans hb)
  obtain ⟨hlog, hst, hlogs, hgate, hlmode, hlsw⟩ := logWrite_out n (7 <<< 32 ||| cause <<< 8) hn 0x407 u
  have hidle : swapCheck (quarantine n cause q) = quarantine n cause q := by
    refine swapCheck_idle _ ?_
    rw [hquar, hlsw, husw, swState_of_reg (hreg _)]
    exact hsw
  rw [hidle, hquar]
  generalize logWrite n (7 <<< 32 ||| cause <<< 8) 0x407 u = w at hlog hst hlogs hgate hlmode ⊢
  refine ⟨?_, ?_, fun hlen => ?_, ?_, ?_, fun i hi => ?_⟩
  · rw [State.getF, hst]
    exact hfld
  · rw [hgate, hurg]
  · rw [hlogs (by rw [hurg, hrg]; exact hlen), hurg, hrg]
  · unfold Logged at hlog ⊢
    rw [huevt, hevt] at hlog
    exact hlog
  · rw [hlmode, humode, hmode]
  · rw [getB_eq, hst, ← getB_eq, hukeep i hi, hbit]

/-! ### The end of a region reset -/

theorem opRgnRelease_other (h : s.getB (Reg.rgnStatus n) 4 = false) : opRgnRelease n s = s := if_pos (by rw [h]; rfl)

theorem opRgnRelease_known (h4 : s.getB (Reg.rgnStatus n) 4 = true) (hk : (slotKnown (rgnSlot s n) s).1 = true)
    (hv : (rgnReload (rgnSlot s n) n (slotKnown (rgnSlot s n) s).2).1 = true) :
    opRgnRelease n s = rgnReleased n (rgnSlot s n) (lutPreload n (rgnReload (rgnSlot s n) n (slotKnown (rgnSlot s n) s).2).2.1
      (rgnReload (rgnSlot s n) n (slotKnown (rgnSlot s n) s).2).2.2) := by
  unfold opRgnRelease
  dsimp only
  rw [if_neg (by rw [h4]; decide), hk, if_pos rfl, if_pos hv]

theorem opRgnRelease_unknown (h4 : s.getB (Reg.rgnStatus n) 4 = true) (hk : slotKnown (rgnSlot s n) s = (false, u)) : opRgnRelease n s = rgnResetFailed n u := by
  unfold opRgnRelease
  dsimp only
  rw [if_neg (by rw [h4]; decide), hk]
  rfl

theorem rgnAttr_ne_status (n : Nat) : Reg.rgnAttr n ≠ Reg.rgnStatus n := by
  simp only [Reg.rgnAttr, Reg.rgnStatus]
  omega

/-- A failed reset quarantines the region with cause 2 (R84, R144). -/
theorem rgnResetFailed_out (hn : n < 64) (hsw : u.swState = 0) (ha : u.getB (Reg.rgnAttr n) 0 = false) (hb : u.getB (Reg.rgnAttr n) 1 = false) :
    (rgnResetFailed n u).getB (Reg.rgnStatus n) 4 = false ∧ (rgnResetFailed n u).getF (Reg.rgnStatus n) 3 0 = 5 ∧ ((rgnResetFailed n u).rg n).gated = true ∧
    Logged 0x407 (BitVec.ofNat 8 (0x40 + n)) (7 <<< 32 ||| 2 <<< 8 ||| n <<< 1) (raise 0x008 0 (1 <<< 8 ||| n) u) (rgnResetFailed n u) := by
  obtain ⟨hst, hat⟩ := rgnStatus_evt n
  generalize hz : (u.setB (Reg.rgnStatus n) 4 false).setF (Reg.rgnStatus n) 3 0 0 = z
  have hfail : rgnResetFailed n u = rgnQuarantine n 2 (raise 0x008 0 (1 <<< 8 ||| n) z) := by rw [← hz]; rfl
  have hzreg : ∀ a, a ≠ Reg.rgnStatus n → z.reg a = u.reg a := fun a h => by
    rw [← hz]
    exact (reg_setF_other h).trans (reg_setB_other h)
  have hzbit : ∀ i, z.getB (Reg.rgnStatus n) i = if i ≤ 3 then false else (u.setB (Reg.rgnStatus n) 4 false).getB (Reg.rgnStatus n) i := fun i => by
    rw [← hz, getB_setF (by decide)]
    refine if_congr (by omega) ?_ rfl
    exact Nat.zero_testBit _
  have hseq : (raise 0x008 0 (1 <<< 8 ||| n) z).evt.seq = (raise 0x008 0 (1 <<< 8 ||| n) u).evt.seq := by
    have h1 : (raise 0x008 0 (1 <<< 8 ||| n) z).evt.seq = z.evt.seq + 1 := (raise_logged rfl).1
    have h2 : (raise 0x008 0 (1 <<< 8 ||| n) u).evt.seq = u.evt.seq + 1 := (raise_logged rfl).1
    rw [h1, h2, ← hz]
    rfl
  have hrbit : ∀ i, (raise 0x008 0 (1 <<< 8 ||| n) z).getB (Reg.rgnStatus n) i = z.getB (Reg.rgnStatus n) i := fun i => by
    rw [getB_eq, getB_eq, raise_reg _ _ _ _ _ hst]
  have habit : ∀ i, (raise 0x008 0 (1 <<< 8 ||| n) z).getB (Reg.rgnAttr n) i = u.getB (Reg.rgnAttr n) i := fun i => by
    rw [getB_eq, getB_eq, raise_reg _ _ _ _ _ hat, hzreg _ (rgnAttr_ne_status n)]
  have hrsw : (raise 0x008 0 (1 <<< 8 ||| n) z).swState = 0 :=
    (raise_swState _ _ _ _).trans ((swState_of_reg (hzreg _ (rgnStatus_ne_swap n))).trans hsw)
  obtain ⟨hfld, hgate, -, hlog, -, hkeep⟩ := rgnQuarantine_out (cause := 2) hn (by decide) ((hrbit 0).trans ((hzbit 0).trans (if_pos (by decide))))
    ((habit 0).trans ha) ((habit 1).trans hb) hrsw
  rw [hfail]
  refine ⟨?_, hfld, hgate, ?_⟩
  · rw [hkeep 4 (by decide), hrbit, hzbit, if_neg (by decide)]
    exact getB_setB_same (by decide)
  · unfold Logged at hlog ⊢
    rw [hseq] at hlog
    exact hlog

theorem rgnStatus_ne_tmr (n : Nat) : Reg.rgnStatus n ≠ Reg.calCntTmr := by
  simp only [Reg.rgnStatus, Reg.calCntTmr]
  omega

/-- A reloaded region leaves its reset with STATE 0 and asks for the region-wake token (R84). -/
theorem rgnReleased_out (hn : n < 64) (slot : Nat) (s : State) : (rgnReleased n slot s).getB (Reg.rgnStatus n) 4 = false ∧
    (rgnReleased n slot s).getF (Reg.rgnStatus n) 3 0 = 0 ∧ (∃ r ∈ (rgnReleased n slot s).gov.queue, r.kind = .regionWake ∧ r.ix = n) ∧
    (rgnReleased n slot s).mode = s.mode := by
  obtain ⟨hst, -⟩ := rgnStatus_evt n
  unfold rgnReleased
  dsimp only
  generalize hz : (if (!(s.reg (Reg.cfgRact n)).getLsbD 35) = true then s.setReg (Reg.cfgRact n) (identWord true slot (s.slotRec slot).imageId) else s) = z
  have hzm : z.mode = s.mode := by
    rw [← hz]
    split <;> rfl
  generalize hy : padsPreload n (regionPreload n (attrLoad n (fenceStage n (activeOf z n) (goldDerive n (activeOf z n) z)))) = y
  have hym : y.mode = s.mode := by
    rw [← hy, ← hzm]
    exact forAll_mode _ padPreload (fun _ _ => rfl) _
  generalize hx : (y.setB (Reg.rgnStatus n) 4 false).setF (Reg.rgnStatus n) 3 0 0 = x
  have hx4 : x.getB (Reg.rgnStatus n) 4 = false := by
    rw [← hx, getB_setF (by decide), if_neg (by decide)]
    exact getB_setB_same (by decide)
  have hx3 : x.getF (Reg.rgnStatus n) 3 0 = 0 := by
    rw [← hx]
    exact getF_setF_same (by decide)
  have hxm : x.mode = s.mode := by rw [← hx]; exact hym
  generalize hw : stFirst n (portRelease n (laneRestart n (pinsFrom s x))) = w
  have hwreg : w.reg (Reg.rgnStatus n) = x.reg (Reg.rgnStatus n) := by
    rw [← hw, stFirst_reg, portRelease_reg, laneRestart_reg hst (rgnStatus_ne_tmr n), pinsFrom_reg]
  have hwm : w.mode = s.mode := by
    rw [← hw, stFirst_mode, portRelease_mode, laneRestart_mode, pinsFrom_rest]
    exact hxm
  obtain ⟨-, hlst, -, -, hlm, -⟩ := logWrite_out n (8 <<< 32) hn 0x408 (raise 0x008 0 n w)
  generalize logWrite n (8 <<< 32) 0x408 (raise 0x008 0 n w) = l at hlst hlm ⊢
  have hlreg : l.reg (Reg.rgnStatus n) = x.reg (Reg.rgnStatus n) := by rw [hlst, raise_reg _ _ _ _ _ hst, hwreg]
  refine ⟨?_, ?_, ?_, ?_⟩
  · rw [getB_eq, govAsk_reg, hlreg, ← getB_eq]
    exact hx4
  · rw [State.getF, govAsk_reg, hlreg]
    exact hx3
  · exact govAsk_has _ _ _ _
  · rw [govAsk_rest]
    exact hlm.trans ((raise_mode ..).trans hwm)

theorem lutPreload_mode (n : Nat) (frames : List (Nat × Nat × List Word)) (s : State) : (lutPreload n frames s).mode = s.mode := by
  unfold lutPreload
  refine forAll_mode _ _ (fun f s => ?_) s
  refine forAll_mode _ _ (fun w s => ?_) s
  rfl

/-! ### The error log -/

theorem opRgnLog_empty {peek : Bool} (h : (s.rg n).log = []) : opRgnLog n peek s = answer 1 s := by
  unfold opRgnLog
  rw [h]

theorem opRgnLog_entry {peek : Bool} {w : Word} {ws : List Word} (h : (s.rg n).log = w :: ws) :
    opRgnLog n peek s = answer w (if peek then s else s.setRg n { s.rg n with log := ws }) := by
  unfold opRgnLog
  rw [h]

/-- Settles O16: RGN.CMD's cases, the log's port, and the two ends of a region reset. -/
theorem regionCommands : Obligations.RegionCommands := by
  unfold Obligations.RegionCommands
  refine ⟨fun who n v s hlive h2 h01 h => ⟨?refused, ?refused'⟩, fun who n v s hlive h2 h0 hkey hsw h4 => ?reset,
    fun who n v s hlive h2 h0 h1 hkey hsw h4 hst ha hb hlen => ?quarantine, fun who n v s hlive h2 h0 h1 => ?ack,
    fun who n w ws s hlive hlog => ⟨fun hwho => ?pop, fun p hp => ?peek⟩, fun who n p s hlive hlog => ?empty,
    fun n s h4 => congrArg Host.Outcome.next (opRgnRelease_other h4), fun n s u h4 hk hsw ha hb => ?failed, fun n s h4 => ?released⟩
  case refused | refused' => exact congrArg Host.Outcome.next ((gateW_live hlive).trans (opRgnCmd_refused (s := begin who s) h2 h01 h))
  case reset =>
    obtain ⟨hbit, hgate, hkeep, hrg, hfab⟩ := rgnResetStart_out (s := begin who s) hsw n.val
    exact .of_exec_eq rfl ((gateW_live hlive).trans ((opRgnCmd_acts (s := begin who s) h2 (.inl h0) hkey hlive.1 hsw h4).trans (if_pos h0)))
      ⟨hbit, hgate, hkeep, hrg, hfab⟩
  case quarantine =>
    obtain ⟨hfld, hgate, hlogs, hlog, hmode, -⟩ := rgnQuarantine_out (s := begin who s) (cause := 3) n.isLt (by decide) hst ha hb hsw
    refine .of_exec_eq rfl ((gateW_live hlive).trans ((opRgnCmd_acts (s := begin who s) h2 (.inr h1) hkey hlive.1 hsw h4).trans (if_neg (by rw [h0]; decide))))
      ⟨hfld, hgate, hlogs hlen, hlog, hmode.trans hlive.1⟩
  case ack =>
    refine .of_exec_eq rfl ((gateW_live hlive).trans (opRgnCmd_ack h2 h0 h1)) ⟨fun k hk hk' => ?_, fun k hk => ?_, rfl, rfl⟩
    · exact (logAck_perr n.val _ k).trans (if_pos ⟨hk, hk'⟩)
    · exact (logAck_perr n.val _ k).trans (if_neg hk)
  case pop =>
    have hpeek : peeks who false = false := by simp [peeks, hwho]
    exact congrArg Host.Outcome.next ((gateR_live hlive).trans ((opRgnLog_entry (s := begin who s) hlog).trans (by rw [hpeek]; rfl)))
  case peek =>
    have hpeek : peeks who p = true := by
      rcases hp with rfl | rfl
      · rfl
      · simp [peeks]
    exact congrArg Host.Outcome.next ((gateR_live hlive).trans ((opRgnLog_entry (s := begin who s) hlog).trans (by rw [hpeek]; rfl)))
  case empty => exact congrArg Host.Outcome.next ((gateR_live hlive).trans (opRgnLog_empty (s := begin who s) hlog))
  case failed => exact .of_exec_eq rfl (opRgnRelease_unknown h4 hk) (rgnResetFailed_out n.isLt hsw ha hb)
  case released =>
    refine .of_exec rfl fun hk hv => ?_
    rw [opRgnRelease_known h4 hk hv]
    obtain ⟨hbit, hfld, hreq, hmode⟩ := rgnReleased_out n.isLt (rgnSlot s n.val) (lutPreload n.val (rgnReload (rgnSlot s n.val) n.val (slotKnown (rgnSlot s n.val) s).2).2.1
      (rgnReload (rgnSlot s n.val) n.val (slotKnown (rgnSlot s n.val) s).2).2.2)
    exact ⟨hbit, hfld, hreq, hmode.trans (lutPreload_mode ..)⟩

end Sys2Proof.Machine
end

section
/-! O18: the registers of SEC (R202). -/

namespace Sys2Proof.Machine

variable {s : State} {who : Req} {v : Word} {a : Nat}

/-- Where the interconnect and the block answer, a write is the register's own action. -/
theorem gateW_answered {op : State → State} (hs : served s who = true) (ha : answersWrite s a = true) : gateW who a op s = op (begin who s) := by
  have hs' : served (begin who s) who = true := hs
  have ha' : answersWrite (begin who s) a = true := ha
  simp [gateW, hs', ha']

theorem secWho_iff : secWho s who = true ↔ s.mode = .run ∧ who = rqCore ∨ s.mode = .service ∧ who = rqSvc := by
  simp [secWho]

theorem secKey_iff : secKey v = true ↔ fld v 35 24 = 0x6D1 := by
  simp [secKey]

/-! ### KR_DATA and KR_CTRL -/

theorem opKrData_takes (hw : secWho s who = true) (hlen : s.sec.krWords.length ≤ 8) :
    opKrData who v s = { s with sec := { s.sec with krWords := s.sec.krWords ++ [BitVec.ofNat 32 v.toNat] } } := by
  refine (if_pos hw).trans ?_
  rw [List.take_of_length_le (by rw [List.length_append, List.length_singleton]; omega)]

theorem opKrData_other (hw : secWho s who = false) : opKrData who v s = s := if_neg (by rw [hw]; decide)

theorem opKrCtrl_other (hw : secWho s who = false) : opKrCtrl who v s = s := if_pos (by rw [hw]; rfl)

theorem opKrCtrl_load (hw : secWho s who = true) (h2 : v.getLsbD 2 = false) (h5 : v.getLsbD 5 = false) : opKrCtrl who v s =
    if v.getLsbD 4 ∧ secKey v ∧ s.sec.krWords.length = 8 then
      { s with sec := { s.sec with keyRam := BitVec.ofNat 256 (s.sec.krWords.foldl (fun a w => a * 2 ^ 32 + w.toNat) 0), keyValid := true, krWords := [] } }
    else s := by
  unfold opKrCtrl
  dsimp only
  rw [hw, h2, h5]
  rfl

theorem opKrCtrl_zeroize (hw : secWho s who = true) (h2 : v.getLsbD 2 = false) (h5 : v.getLsbD 5 = true) (hk : secKey v = true) :
    opKrCtrl who v s = { s with sec := { s.sec with keyRam := 0, keyValid := false, krWords := [] } } := by
  unfold opKrCtrl
  dsimp only
  rw [hw, h2, h5, hk]
  simp

/-! ### ROLL_ADV -/

theorem opRollAdv_other (hw : secWho s who = false) : opRollAdv who v s = s := if_pos (by rw [hw]; rfl)

theorem opRollAdv_refused (hw : secWho s who = true) (h : fld v 35 24 ≠ 0x6D1 ∨ fld v 7 0 ≤ s.sec.rollCount.toNat ∨ s.getF Reg.secRoll 15 8 < fld v 7 0 ∨
    s.sec.rollTarget.isSome = true) : opRollAdv who v s = s.setB Reg.secRoll 17 true := by
  refine (if_neg (by rw [hw]; decide)).trans (if_pos ?_)
  rw [Bool.not_eq_true', ← Bool.not_eq_true, secKey_iff]
  exact h

theorem opRollAdv_sets (hw : secWho s who = true) (hk : fld v 35 24 = 0x6D1) (hlt : s.sec.rollCount.toNat < fld v 7 0) (hle : fld v 7 0 ≤ s.getF Reg.secRoll 15 8)
    (hnone : s.sec.rollTarget = none) : opRollAdv who v s = { s with sec := { s.sec with rollTarget := some (BitVec.ofNat 8 (fld v 7 0)) } } := by
  refine (if_neg (by rw [hw]; decide)).trans (if_neg ?_)
  rw [secKey_iff.2 hk, hnone]
  simp only [Bool.not_true, Option.isSome_none, not_or]
  exact ⟨by decide, by omega, by omega, by decide⟩

/-! ### Who is served -/

theorem answersWrite_of_mode (hp : s.boot.porHeld = false) (hm : s.mode = .run ∨ s.mode = .service) : answersWrite s a = true := by
  rcases hm with hm | hm
  · simp [answersWrite, allAnswer, hp, hm]
  · simp [answersWrite, allAnswer, hp, hm]

theorem secWho_live (h : Live who s) (hne : who ≠ rqCore) : secWho s who = false := by
  obtain ⟨hrun, -, -⟩ := h
  simp [secWho, hrun, hne]

/-- Settles O18: each register of SEC acts for the requester that SEC accepts. -/
theorem securityStore : Obligations.SecurityStore := by
  unfold Obligations.SecurityStore
  refine ⟨fun who v s hs ha hw hlen => ?data, fun who v s hs ha hw hk h2 h5 h4 hlen => ?load, fun who v s hs ha hw h2 h5 h4 h => ?noLoad,
    fun who v s hs ha hw hk h2 h5 => ?zeroize, fun who v s hs ha hw hk hlt hle hnone => ?sets, fun who v s hs ha hw h => ?refused,
    fun t s ht => ?blown, fun s hnone => ?idle, fun s who => secWho_iff, fun s who hp hm => ⟨?data', ?ctrl', ?roll', fun hwho => ?served⟩,
    fun who v s hlive hne => ?others⟩
  case data => exact congrArg Host.Outcome.next ((gateW_answered hs ha).trans (opKrData_takes (s := begin who s) hw hlen))
  case load =>
    exact congrArg Host.Outcome.next ((gateW_answered hs ha).trans ((opKrCtrl_load (s := begin who s) hw h2 h5).trans (if_pos ⟨h4, secKey_iff.2 hk, hlen⟩)))
  case noLoad =>
    refine congrArg Host.Outcome.next ((gateW_answered hs ha).trans ((opKrCtrl_load (s := begin who s) hw h2 h5).trans (if_neg ?_)))
    rintro ⟨-, hk, hlen⟩
    exact h.elim (fun h => h hlen) (fun h => h (secKey_iff.1 hk))
  case zeroize =>
    exact congrArg Host.Outcome.next ((gateW_answered hs ha).trans (opKrCtrl_zeroize (s := begin who s) hw h2 h5 (secKey_iff.2 hk)))
  case sets => exact congrArg Host.Outcome.next ((gateW_answered hs ha).trans (opRollAdv_sets (s := begin who s) hw hk hlt hle hnone))
  case refused => exact congrArg Host.Outcome.next ((gateW_answered hs ha).trans (opRollAdv_refused (s := begin who s) hw h))
  case blown =>
    refine congrArg Host.Outcome.next ?_
    rw [ht]
  case idle =>
    refine congrArg Host.Outcome.next ?_
    rw [hnone]
  case data' | ctrl' | roll' =>
    exact answersWrite_of_mode hp hm
  case served =>
    unfold served fabricAsks
    rcases hm with hm | hm <;> rcases hwho with rfl | rfl <;> rw [hm] <;> rfl
  case others =>
    have hw : secWho (begin who s) who = false := secWho_live hlive hne
    exact ⟨congrArg Host.Outcome.next ((gateW_live hlive).trans (opKrData_other hw)), congrArg Host.Outcome.next ((gateW_live hlive).trans (opKrCtrl_other hw)),
      congrArg Host.Outcome.next ((gateW_live hlive).trans (opKrCtrl_other hw)), congrArg Host.Outcome.next ((gateW_live hlive).trans (opRollAdv_other hw))⟩

end Sys2Proof.Machine
end

section
/-! O19: plane swaps, MIRROR, the swap edge and re-preload (R203 to R211, R219). -/

namespace Sys2Proof.Machine

variable {s t u v : State} {n m k : Nat} {w : Word}

/-! ### Shadow states -/

theorem shState_apart (k n : Nat) (hk : k < 8) : Reg.cfgShState k ≠ Reg.rgnStatus n ∧ Reg.cfgShState k ≠ Reg.cfgSwapStatus ∧ Reg.cfgShState k ≠ Reg.calCntTmr ∧
    Reg.cfgShState k ≠ Reg.cfgRsh n ∧ Reg.cfgShState k ∉ evtRegs := by
  refine ⟨?_, ?_, ?_, ?_, ?_⟩
  · simp only [Reg.cfgShState, Reg.rgnStatus]; omega
  · simp only [Reg.cfgShState, Reg.cfgSwapStatus]; omega
  · simp only [Reg.cfgShState, Reg.calCntTmr]; omega
  · simp only [Reg.cfgShState, Reg.cfgRsh]; omega
  · have h : ∀ x ∈ evtRegs, x < 0x10030 ∨ 0x10038 ≤ x := by decide
    intro hm
    have := h _ hm
    simp only [Reg.cfgShState] at this
    omega

/-- A shadow state reads what was stored for its region, and no other region's moves (R204, R206). -/
theorem sh_setSh (hn : n < 64) (hm : m < 64) {x : Nat} (hx : x < 16) : (s.setSh n x).sh m = if m = n then x else s.sh m := by
  have hk : n / 8 < 8 := by omega
  have hm8 : m / 8 < 8 := by omega
  have hother : ∀ a, a ≠ Reg.rgnStatus n → (s.setSh n x).reg a = (s.setF (Reg.cfgShState (n / 8)) (4 * (n % 8) + 3) (4 * (n % 8)) x).reg a := fun a ha => by
    unfold State.setSh
    rw [if_pos hn]
    exact reg_setB_other ha
  have hview : (s.setSh n x).sh m = (s.setF (Reg.cfgShState (n / 8)) (4 * (n % 8) + 3) (4 * (n % 8)) x).getF (Reg.cfgShState (m / 8)) (4 * (m % 8) + 3) (4 * (m % 8)) := by
    unfold State.sh
    rw [if_pos hm]
    exact congrArg (fld · (4 * (m % 8) + 3) (4 * (m % 8))) (hother _ (shState_apart (m / 8) n hm8).1)
  have hold : s.sh m = s.getF (Reg.cfgShState (m / 8)) (4 * (m % 8) + 3) (4 * (m % 8)) := if_pos hm
  rw [hview]
  by_cases h : m = n
  · subst h
    have h4 : 4 * (m % 8) + 3 + 1 - 4 * (m % 8) = 4 := by omega
    rw [if_pos rfl, getF_setF_same (by omega), h4]
    exact Nat.mod_eq_of_lt hx
  · rw [if_neg h, hold]
    by_cases h8 : m / 8 = n / 8
    · rw [h8]
      exact getF_setF_field (by omega) (by omega)
    · refine getF_setF_other ?_
      simp only [Reg.cfgShState]
      omega

theorem sh_of_reg (hn : n < 64) (h : t.reg (Reg.cfgShState (n / 8)) = s.reg (Reg.cfgShState (n / 8))) : t.sh n = s.sh n := by
  unfold State.sh State.getF
  rw [if_pos hn, if_pos hn, h]

theorem swState_setSh (hn : n < 64) (x : Nat) : (s.setSh n x).swState = s.swState := by
  refine swState_of_reg ?_
  unfold State.setSh
  rw [if_pos hn]
  exact (reg_setB_other (rgnStatus_ne_swap n)).trans (reg_setF_other (shState_apart (n / 8) n (by omega)).2.1.symm)

theorem setSh_rest (n x : Nat) (s : State) : ∃ g, s.setSh n x = { s with regs := g } := by
  unfold State.setSh
  split
  · exact ⟨_, rfl⟩
  · exact ⟨_, rfl⟩

theorem mem_setRegions {b : BitVec 64} : n ∈ setRegions b ↔ n < 64 ∧ b.getLsbD n = true := by
  simp [setRegions]

/-! ### What the operations on a region's planes leave alone -/

/-- The swap's record and state, the regions' roles and holds, and the shadow states. -/
structure PlaneKeep (s t : State) : Prop where
  swap : t.swap = s.swap
  sw : t.swState = s.swState
  rg : ∀ m, (t.rg m).role = (s.rg m).role ∧ (t.rg m).repre = (s.rg m).repre ∧ (t.rg m).mirroring = (s.rg m).mirroring
  sh : ∀ m, m < 64 → t.sh m = s.sh m

theorem PlaneKeep.refl (s : State) : PlaneKeep s s := ⟨rfl, rfl, fun _ => ⟨rfl, rfl, rfl⟩, fun _ _ => rfl⟩

theorem PlaneKeep.trans (h : PlaneKeep s t) (k : PlaneKeep t u) : PlaneKeep s u := by
  refine ⟨k.swap.trans h.swap, k.sw.trans h.sw, fun m => ?_, fun m hm => (k.sh m hm).trans (h.sh m hm)⟩
  obtain ⟨h1, h2, h3⟩ := h.rg m
  obtain ⟨k1, k2, k3⟩ := k.rg m
  exact ⟨k1.trans h1, k2.trans h2, k3.trans h3⟩

/-- A change that leaves registers, regions and the swap's record. -/
theorem PlaneKeep.of_same (hr : t.regs = s.regs) (hg : t.rgn = s.rgn) (hw : t.swap = s.swap) : PlaneKeep s t := by
  have hreg : ∀ a, t.reg a = s.reg a := fun a => congrArg (Store.get regDefault · a) hr
  refine ⟨hw, swState_of_reg (hreg _), fun m => ?_, fun m hm => sh_of_reg hm (hreg _)⟩
  unfold State.rg
  rw [hg]
  exact ⟨rfl, rfl, rfl⟩

theorem raise_planeKeep (code : Code) (src : Req) (d : Nat) (s : State) : PlaneKeep s (raise code src d s) := by
  refine ⟨raise_swap .., raise_swState .., fun m => ?_, fun m hm => sh_of_reg hm (raise_reg _ _ _ _ _ (shState_apart (m / 8) 0 (by omega)).2.2.2.2)⟩
  unfold State.rg
  rw [raise_rgn]
  exact ⟨rfl, rfl, rfl⟩

theorem forAll_planeKeep {α : Type} (l : List α) (f : α → State → State) (h : ∀ x s, PlaneKeep s (f x s)) (s : State) : PlaneKeep s (forAll l f s) := by
  unfold forAll
  induction l generalizing s with
  | nil => exact .refl s
  | cons x l ih => exact (h x s).trans (ih _)

/-- A register that is no shadow state and not the swap's. -/
theorem setReg_planeKeep {a : Nat} (ha : a ≠ Reg.cfgSwapStatus) (hs : ∀ k, k < 8 → Reg.cfgShState k ≠ a) (w : Word) (s : State) : PlaneKeep s (s.setReg a w) :=
  ⟨rfl, swState_of_reg (reg_setReg_other ha.symm), fun _ => ⟨rfl, rfl, rfl⟩, fun m hm => sh_of_reg hm (reg_setReg_other (hs _ (by omega)))⟩

theorem tmrCount_planeKeep (n lane : Nat) (g : Bool) (s : State) : PlaneKeep s (tmrCount n lane g s) := by
  unfold tmrCount
  split
  · exact .refl s
  · have hcnt : PlaneKeep s ((forAll (List.range n) (fun _ s => s.count Reg.calCntTmr 35 0) s).setB Reg.calStatus 5 true) :=
      (forAll_planeKeep _ _ (fun _ s => setReg_planeKeep (by decide) (fun k hk => (shState_apart k 0 hk).2.2.1) _ s) s).trans
        (setReg_planeKeep (by decide) (fun k hk => by simp only [Reg.cfgShState, Reg.calStatus]; omega) _ _)
    dsimp only
    generalize (forAll (List.range n) (fun _ s => s.count Reg.calCntTmr 35 0) s).setB Reg.calStatus 5 true = q at hcnt ⊢
    split
    · exact hcnt
    · refine (hcnt.trans ?_).trans (raise_planeKeep ..)
      split
      · exact .of_same rfl rfl rfl
      · exact .of_same rfl rfl rfl

theorem setRg_planeKeep {r : Region} (hr : r.role = (s.rg n).role) (hp : r.repre = (s.rg n).repre) (hm : r.mirroring = (s.rg n).mirroring) :
    PlaneKeep s (s.setRg n r) := by
  refine ⟨rfl, rfl, fun m => ?_, fun _ _ => rfl⟩
  rw [rg_setRg]
  split
  next h => subst h; exact ⟨hr, hp, hm⟩
  next => exact ⟨rfl, rfl, rfl⟩

theorem goldCell_planeKeep (n : Nat) (plane : Bool) (ix : Nat) (s : State) : PlaneKeep s (goldCell n plane ix s).2 := by
  unfold goldCell
  dsimp only
  split
  · exact .refl s
  · cases plane
    · exact setRg_planeKeep rfl rfl rfl
    · exact setRg_planeKeep rfl rfl rfl

theorem goldVote_planeKeep (n : Nat) (plane : Bool) (cells : List Nat) (s : State) : PlaneKeep s (goldVote n plane cells s) := by
  have hcells : ∀ (l : List Nat) (r : Nat × State), PlaneKeep s r.2 →
      PlaneKeep s (l.foldl (fun r ix => (r.1 + (goldCell n plane ix r.2).1.toNat, (goldCell n plane ix r.2).2)) r).2 := by
    intro l
    induction l with
    | nil => exact fun r h => h
    | cons x l ih => exact fun r h => ih _ (h.trans (goldCell_planeKeep ..))
  exact (hcells cells (0, s) (.refl s)).trans (tmrCount_planeKeep ..)

theorem goldAll_planeKeep (n : Nat) (plane : Bool) (s : State) : PlaneKeep s (goldAll n plane s) := goldVote_planeKeep ..

theorem goldAll_agreeing (h : (s.rg n).goldBad = []) (plane : Bool) : goldAll n plane s = s := by
  unfold goldAll
  rw [h]
  rfl

theorem laneVote_planeKeep (lane : Nat) (s : State) : PlaneKeep s (laneVote lane s) := by
  unfold laneVote
  have hset : ∀ x, PlaneKeep s (s.setLane lane x) := fun x => .of_same rfl rfl rfl
  exact (hset _).trans (tmrCount_planeKeep ..)

theorem laneRestart_planeKeep (lane : Nat) (s : State) : PlaneKeep s (laneRestart lane s) := by
  have hvote := laneVote_planeKeep lane s
  unfold laneRestart
  dsimp only
  generalize laneVote lane s = q at hvote ⊢
  have hset : ∀ x, PlaneKeep q (q.setLane lane x) := fun x => .of_same rfl rfl rfl
  exact hvote.trans (hset _)

theorem segCopy_planeKeep (n : Nat) (dst : Bool) (s : State) : PlaneKeep s (segCopy n dst s) := .of_same rfl rfl rfl

theorem quireCarry_planeKeep (n : Nat) (inc : Bool) (q : Nat × Nat) (s : State) : PlaneKeep s (quireCarry n inc q s) := by
  unfold quireCarry
  dsimp only
  split
  · exact .refl s
  · refine forAll_planeKeep _ _ (fun w s => ?_) s
    unfold lutWordCarry
    exact .of_same rfl rfl rfl

/-- The Quires' words as `lutCarry` leaves them, before the parity errors. -/
def quiresCarried (n : Nat) (s : State) : State :=
  forAll quireList (quireCarry n (activeOf s n)) (goldAll n (!activeOf s n) (goldAll n (activeOf s n) s))

theorem lutCarry_rest (n : Nat) (s : State) : ∃ f, lutCarry n s = { quiresCarried n s with fab := f } := ⟨_, rfl⟩

theorem quiresCarried_planeKeep (n : Nat) (s : State) : PlaneKeep s (quiresCarried n s) := by
  unfold quiresCarried
  have hgold := (goldAll_planeKeep n (activeOf s n) s).trans (goldAll_planeKeep n (!activeOf s n) _)
  exact hgold.trans (forAll_planeKeep _ _ (fun q s => quireCarry_planeKeep n _ q s) _)

theorem setFab_planeKeep (h : PlaneKeep s t) (f : Fabric) : PlaneKeep s { t with fab := f } := h.trans (.of_same rfl rfl rfl)

theorem lutCarry_planeKeep (n : Nat) (s : State) : PlaneKeep s (lutCarry n s) := by
  obtain ⟨f, hf⟩ := lutCarry_rest n s
  rw [hf]
  exact setFab_planeKeep (quiresCarried_planeKeep n s) f

theorem fifoCarry_planeKeep (n : Nat) (s : State) : PlaneKeep s (fifoCarry n s) := by
  unfold fifoCarry
  dsimp only
  refine forAll_planeKeep _ _ (fun q s => ?_) s
  split
  · exact .refl s
  · exact .of_same rfl rfl rfl

theorem govAsk_planeKeep (k : GovKind) (ix di : Nat) (s : State) : PlaneKeep s (govAsk k ix di s) := by
  rw [govAsk_rest]
  exact .of_same rfl rfl rfl

theorem pinsFrom_planeKeep (s t : State) : PlaneKeep t (pinsFrom s t) := by
  rw [pinsFrom_rest]
  exact .of_same rfl rfl rfl

/-! ### Requests -/

/-- The key and the operation of a command's word. -/
theorem swapWord (v : Word) (op : Nat) (h : op < 16) : fld (setFld v 3 0 op) 3 0 = op ∧ fld (setFld v 3 0 op) 35 24 = fld v 35 24 := by
  refine ⟨?_, fld_setFld_other (by decide) (by decide)⟩
  rw [fld_setFld_same (by decide)]
  exact Nat.mod_eq_of_lt h

theorem opSwapCmd_refused {op r : Nat} (hop : 1 ≤ op ∧ op ≤ 5) (h : swapRefusal s op (fld w 35 24) = some (r, n)) :
    opSwapCmd (setFld w 3 0 op) s = swapRefuse op r n s := by
  obtain ⟨hf, hk⟩ := swapWord w op (by omega)
  unfold opSwapCmd
  dsimp only
  rw [hf, hk, if_neg (by omega), h]

theorem opSwapCmd_region (h : swapRefusal s 1 (fld w 35 24) = none) : opSwapCmd (setFld w 3 0 1) s = swapCommit 1 (swapSet s) false s := by
  obtain ⟨hf, hk⟩ := swapWord w 1 (by decide)
  unfold opSwapCmd
  dsimp only
  rw [hf, hk, if_neg (by decide), h]
  rfl

theorem opSwapCmd_chip (h : swapRefusal s 2 (fld w 35 24) = none) : opSwapCmd (setFld w 3 0 2) s = swapCommit 2 (maskOf (chipSet s)) (shLive s 64) s := by
  obtain ⟨hf, hk⟩ := swapWord w 2 (by decide)
  unfold opSwapCmd
  dsimp only
  rw [hf, hk, if_neg (by decide), h]
  rfl

theorem opSwapCmd_mirror (h : swapRefusal s 5 (fld w 35 24) = none) : opSwapCmd (setFld w 3 0 5) s = opMirror s := by
  obtain ⟨hf, hk⟩ := swapWord w 5 (by decide)
  unfold opSwapCmd
  dsimp only
  rw [hf, hk, if_neg (by decide), h]
  rfl

/-- An accepted region or chip swap is COMMITTED with its scope and set, and nothing else (R206). -/
theorem swapCommit_out {scope : Nat} (hs : scope < 8) (regions : BitVec 64) (ring : Bool) (s : State) :
    (swapCommit scope regions ring s).swState = 2 ∧ (swapCommit scope regions ring s).getF Reg.cfgSwapStatus 6 4 = scope ∧
    (swapCommit scope regions ring s).swap = { s.swap with regions := regions, ring := ring } ∧ KeepRegs [Reg.cfgSwapStatus] s (swapCommit scope regions ring s) ∧
    (swapCommit scope regions ring s).rgn = s.rgn ∧ (swapCommit scope regions ring s).fab = s.fab := by
  refine ⟨?_, ?_, rfl, fun a ha => ?_, rfl, rfl⟩
  · unfold swapCommit setScope State.swState
    rw [getF_setF_field (by decide) (by decide)]
    exact getF_setF_same (by decide)
  · unfold swapCommit setScope
    rw [getF_setF_same (by decide)]
    exact Nat.mod_eq_of_lt hs
  · have ha' : a ≠ Reg.cfgSwapStatus := by simpa using ha
    exact (reg_setF_other ha').trans (reg_setF_other ha')

/-! ### MIRROR -/

/-- The copy of one region begins. -/
def mirrorBegin (n : Nat) (s : State) : State :=
  State.setRg ((s.setSh n shMirroring).setReg (Reg.cfgRsh n) (s.reg (Reg.cfgRact n))) n { s.rg n with mirroring := true }

theorem mirrorBegin_out (hn : n < 64) (s : State) : (mirrorBegin n s).swap = s.swap ∧ (mirrorBegin n s).fab = s.fab ∧ (mirrorBegin n s).swState = s.swState ∧
    ∀ m, m < 64 → (mirrorBegin n s).sh m = if m = n then shMirroring else s.sh m := by
  have hrsh : Reg.cfgSwapStatus ≠ Reg.cfgRsh n := by simp only [Reg.cfgSwapStatus, Reg.cfgRsh]; omega
  obtain ⟨g, hg⟩ := setSh_rest n shMirroring s
  refine ⟨?_, ?_, ?_, fun m hm => ?_⟩
  · unfold mirrorBegin; rw [hg]; rfl
  · unfold mirrorBegin; rw [hg]; rfl
  · exact (swState_of_reg (reg_setReg_other hrsh)).trans (swState_setSh hn _)
  · exact (sh_of_reg hm (reg_setReg_other (shState_apart (m / 8) n (by omega)).2.2.2.1)).trans (sh_setSh hn hm (by decide))

theorem forAll_mirrorBegin (l : List Nat) (hl : ∀ n ∈ l, n < 64) (s : State) : (forAll l mirrorBegin s).swap = s.swap ∧ (forAll l mirrorBegin s).fab = s.fab ∧
    (forAll l mirrorBegin s).swState = s.swState ∧ ∀ m, m < 64 → (forAll l mirrorBegin s).sh m = if m ∈ l then shMirroring else s.sh m := by
  induction l generalizing s with
  | nil => exact ⟨rfl, rfl, rfl, fun m _ => (if_neg List.not_mem_nil).symm⟩
  | cons x l ih =>
    obtain ⟨h1, h2, h3, h4⟩ := mirrorBegin_out (hl x (.head _)) s
    obtain ⟨k1, k2, k3, k4⟩ := ih (fun n hn => hl n (.tail _ hn)) (mirrorBegin x s)
    refine ⟨k1.trans h1, k2.trans h2, k3.trans h3, fun m hm => (k4 m hm).trans ?_⟩
    rw [h4 m hm]
    by_cases hx : m = x
    · simp [hx]
    · simp [hx]

theorem voteUpdate_unscheduled (h : s.swState ≠ 1) : voteUpdate s = s := if_pos h

/-- MIRROR marks every named region and joins the running copy commands (R204). -/
theorem opMirror_out (hsw : s.swState = 0) :
    (let new := (setRegions (swapSet s)).filter (fun n => s.sh n != shMirroring)
     (opMirror s).swap = { s.swap with mirrors := s.swap.mirrors.map (fun m => m &&& ~~~maskOf new) ++ [maskOf new] }) ∧
    (opMirror s).swState = 0 ∧ (opMirror s).fab = s.fab ∧ ∀ n, n < 64 → (swapSet s).getLsbD n = true → (opMirror s).sh n = shMirroring := by
  have hop : opMirror s = voteUpdate (let v := forAll ((setRegions (swapSet s)).filter (fun n => s.sh n != shMirroring)) mirrorBegin s
      { v with swap := { v.swap with mirrors := v.swap.mirrors.map (fun m => m &&& ~~~maskOf ((setRegions (swapSet s)).filter (fun n => s.sh n != shMirroring))) ++
        [maskOf ((setRegions (swapSet s)).filter (fun n => s.sh n != shMirroring))] } }) := rfl
  obtain ⟨h1, h2, h3, h4⟩ := forAll_mirrorBegin ((setRegions (swapSet s)).filter (fun n => s.sh n != shMirroring))
    (fun n hn => (mem_setRegions.1 (List.mem_filter.1 hn).1).1) s
  rw [hop]
  generalize forAll ((setRegions (swapSet s)).filter (fun n => s.sh n != shMirroring)) mirrorBegin s = v at h1 h2 h3 h4
  rw [voteUpdate_unscheduled (by show v.swState ≠ 1; rw [h3, hsw]; decide)]
  refine ⟨?_, h3.trans hsw, h2, fun n hn hset => (h4 n hn).trans ?_⟩
  · dsimp only
    rw [h1]
  · split
    · rfl
    next hnot =>
      by_contra hne
      exact hnot (List.mem_filter.2 ⟨mem_setRegions.2 ⟨hn, hset⟩, by simpa using hne⟩)

/-- What the end of one region's copy leaves (R204). -/
theorem mirrorEnd_out (hn : n < 64) (s : State) : (mirrorEnd n s).swap = s.swap ∧ (mirrorEnd n s).swState = s.swState ∧
    (∀ m, m < 64 → (mirrorEnd n s).sh m = if m = n then shMirror else s.sh m) ∧
    ((∀ m, (s.rg m).goldBad = []) → (mirrorEnd n s).evt = s.evt ∧ ∀ m, ((mirrorEnd n s).rg m).goldBad = []) := by
  have hkeep : PlaneKeep s (segCopy n (!activeOf s n) (goldAll n (activeOf s n) s)) := (goldAll_planeKeep ..).trans (segCopy_planeKeep ..)
  have hcalm : (∀ m, (s.rg m).goldBad = []) → (segCopy n (!activeOf s n) (goldAll n (activeOf s n) s)).evt = s.evt ∧
      ∀ m, ((segCopy n (!activeOf s n) (goldAll n (activeOf s n) s)).rg m).goldBad = [] := fun h => by
    rw [goldAll_agreeing (h n)]
    exact ⟨rfl, h⟩
  unfold mirrorEnd
  dsimp only
  generalize segCopy n (!activeOf s n) (goldAll n (activeOf s n) s) = q at hkeep hcalm ⊢
  generalize hr : (if activeOf s n = true then _ else _ : Region) = r
  have hbad : (q.rg n).goldBad = [] → r.goldBad = [] := fun h => by
    rw [← hr]
    split
    · simp [h]
    · simp [h]
  obtain ⟨g, hg⟩ := setSh_rest n shMirror (q.setRg n r)
  refine ⟨?_, ?_, fun m hm => ?_, fun h => ⟨?_, fun m => ?_⟩⟩
  · rw [hg]; exact hkeep.swap
  · exact (swState_setSh hn _).trans hkeep.sw
  · rw [sh_setSh hn hm (by decide)]
    exact if_congr Iff.rfl rfl (hkeep.sh m hm)
  · rw [hg]; exact (hcalm h).1
  · rw [hg]
    show ((q.setRg n r).rg m).goldBad = []
    rw [rg_setRg]
    split
    · exact hbad ((hcalm h).2 n)
    · exact (hcalm h).2 m

theorem forAll_mirrorEnd (l : List Nat) (hl : ∀ n ∈ l, n < 64) (s : State) : (forAll l mirrorEnd s).swap = s.swap ∧ (forAll l mirrorEnd s).swState = s.swState ∧
    (∀ m, m < 64 → (forAll l mirrorEnd s).sh m = if m ∈ l then shMirror else s.sh m) ∧
    ((∀ m, (s.rg m).goldBad = []) → (forAll l mirrorEnd s).evt = s.evt) := by
  induction l generalizing s with
  | nil => exact ⟨rfl, rfl, fun m _ => (if_neg List.not_mem_nil).symm, fun _ => rfl⟩
  | cons x l ih =>
    obtain ⟨h1, h2, h3, h4⟩ := mirrorEnd_out (hl x (.head _)) s
    obtain ⟨k1, k2, k3, k4⟩ := ih (fun n hn => hl n (.tail _ hn)) (mirrorEnd x s)
    refine ⟨k1.trans h1, k2.trans h2, fun m hm => (k3 m hm).trans ?_, fun hg => (k4 (h4 hg).2).trans (h4 hg).1⟩
    rw [h3 m hm]
    by_cases hx : m = x
    · simp [hx]
    · simp [hx]

theorem opMirrorDone_idle (h : s.swap.mirrors = []) : opMirrorDone s = s := by
  unfold opMirrorDone
  rw [h]

/-- The oldest command's copies end: exactly its regions stand MIRROR, and E306 names their count (R204). -/
theorem opMirrorDone_out {b : BitVec 64} {rest : List (BitVec 64)} (h : s.swap.mirrors = b :: rest) (hsw : s.swState ≠ 1) :
    (opMirrorDone s).swap = { s.swap with mirrors := rest } ∧
    (let done := (setRegions b).filter (fun n => (s.rg n).mirroring && s.sh n == shMirroring)
     (∀ n, n < 64 → (opMirrorDone s).sh n = if n ∈ done then shMirror else s.sh n) ∧
     ((∀ n, (s.rg n).goldBad = []) → Logged 0x306 0 done.length s (opMirrorDone s))) := by
  have hop : opMirrorDone s = voteUpdate (raise 0x306 0 ((setRegions b).filter (fun n => (s.rg n).mirroring && s.sh n == shMirroring)).length
      (forAll ((setRegions b).filter (fun n => (s.rg n).mirroring && s.sh n == shMirroring)) mirrorEnd { s with swap := { s.swap with mirrors := rest } })) := by
    unfold opMirrorDone
    rw [h]
  obtain ⟨h1, h2, h3, h4⟩ := forAll_mirrorEnd ((setRegions b).filter (fun n => (s.rg n).mirroring && s.sh n == shMirroring))
    (fun n hn => (mem_setRegions.1 (List.mem_filter.1 hn).1).1) { s with swap := { s.swap with mirrors := rest } }
  rw [hop]
  generalize (setRegions b).filter (fun n => (s.rg n).mirroring && s.sh n == shMirroring) = done at h1 h2 h3 h4 ⊢
  generalize forAll done mirrorEnd { s with swap := { s.swap with mirrors := rest } } = v at h1 h2 h3 h4 ⊢
  have hraise := raise_planeKeep 0x306 0 done.length v
  rw [voteUpdate_unscheduled (by rw [hraise.sw, h2]; exact hsw)]
  exact ⟨hraise.swap.trans h1, fun n hn => (hraise.sh n hn).trans (h3 n hn), fun hg => raise_logged (by rw [h4 hg])⟩

/-! ### Re-preload -/

theorem opRepreload_free (h : (s.rg n).repre = false) : opRepreload n s = s := if_pos (by rw [h]; rfl)

theorem opRepreload_ends (h : (s.rg n).repre = true) : ((opRepreload n s).rg n).repre = false := by
  unfold opRepreload
  dsimp only
  rw [if_neg (by rw [h]; decide)]
  generalize (if (s.reg (Reg.cfgRact n)).getLsbD 35 = true then contentLoad (fld (s.reg (Reg.cfgRact n)) 34 33) n s else (false, s)) = r
  generalize (if r.1 = true then padsPreload n (regionPreload n r.2) else raise 0x307 0 n (fifoCarry n (lutCarry n { r.2 with fab := s.fab }))) = q
  have hheld : ((laneRestart n (q.setRg n { q.rg n with repre := false })).rg n).repre = false := by
    refine ((laneRestart_planeKeep ..).rg n).2.1.trans ?_
    rw [rg_setRg_same]
  generalize laneRestart n (q.setRg n { q.rg n with repre := false }) = v at hheld ⊢
  have hask : ((if (v.rg n).awaiting = true then govAsk .regionSwap n (v.getF (Reg.pwrRgnEst n) 11 0) v else v).rg n).repre = false := by
    split
    · exact ((govAsk_planeKeep ..).rg n).2.1.trans hheld
    · exact hheld
  generalize (if (v.rg n).awaiting = true then govAsk .regionSwap n (v.getF (Reg.pwrRgnEst n) 11 0) v else v) = z at hask ⊢
  split
  · exact hask
  · exact hask

/-! ### The swap edge -/

/-- What the rest of the swap edge leaves of the edge's record and of the roles. -/
structure EdgeKeep (s t : State) : Prop where
  time : t.swap.edgeTime = s.swap.edgeTime
  ring : t.swap.ringEx = s.swap.ringEx
  count : t.swap.exchanged = s.swap.exchanged
  role : ∀ m, (t.rg m).role = (s.rg m).role

theorem EdgeKeep.refl (s : State) : EdgeKeep s s := ⟨rfl, rfl, rfl, fun _ => rfl⟩

theorem EdgeKeep.trans (h : EdgeKeep s t) (k : EdgeKeep t u) : EdgeKeep s u :=
  ⟨k.time.trans h.time, k.ring.trans h.ring, k.count.trans h.count, fun m => (k.role m).trans (h.role m)⟩

theorem PlaneKeep.edge (h : PlaneKeep s t) : EdgeKeep s t := ⟨by rw [h.swap], by rw [h.swap], by rw [h.swap], fun m => (h.rg m).1⟩

theorem EdgeKeep.of_same (hg : t.rgn = s.rgn) (hw : t.swap = s.swap) : EdgeKeep s t := by
  refine ⟨by rw [hw], by rw [hw], by rw [hw], fun m => ?_⟩
  unfold State.rg
  rw [hg]

theorem forAll_edgeKeep {α : Type} (l : List α) (f : α → State → State) (h : ∀ x s, EdgeKeep s (f x s)) (s : State) : EdgeKeep s (forAll l f s) := by
  unfold forAll
  induction l generalizing s with
  | nil => exact .refl s
  | cons x l ih => exact (h x s).trans (ih _)

/-- Exchanging a region's planes turns its role and no other (R203, R208). -/
theorem laneExchange_out (hn : n < 64) (s : State) : (laneExchange n s).swap = s.swap ∧
    ∀ m, ((laneExchange n s).rg m).role = if m = n then !(s.rg n).role else (s.rg m).role := by
  generalize hq : (s.setRg n { s.rg n with role := !(s.rg n).role, gated := true, awaiting := !s.getB (Reg.rgnStatus n) 0 }) = q
  have hex : laneExchange n s = laneRestart n (State.setSh ((q.setReg (Reg.cfgRsh n) (q.reg (Reg.cfgRact n))).setReg (Reg.cfgRact n) (s.rsh n)) n shPrevious) := by
    unfold laneExchange
    dsimp only
    rw [if_pos hn, hq]
  obtain ⟨g, hg⟩ := setSh_rest n shPrevious ((q.setReg (Reg.cfgRsh n) (q.reg (Reg.cfgRact n))).setReg (Reg.cfgRact n) (s.rsh n))
  have hkeep := laneRestart_planeKeep n (State.setSh ((q.setReg (Reg.cfgRsh n) (q.reg (Reg.cfgRact n))).setReg (Reg.cfgRact n) (s.rsh n)) n shPrevious)
  rw [hg] at hkeep
  rw [hex, hg]
  refine ⟨hkeep.swap.trans (by rw [← hq]; rfl), fun m => (hkeep.rg m).1.trans ?_⟩
  show (q.rg m).role = _
  rw [← hq, rg_setRg]
  split
  · rfl
  · rfl

theorem regionExchange_out (hn : n < 64) (s : State) : (regionExchange n s).swap = s.swap ∧
    ∀ m, ((regionExchange n s).rg m).role = if m = n then !(s.rg n).role else (s.rg m).role := by
  obtain ⟨hswap, hrole⟩ := laneExchange_out hn s
  have hkeep : ∀ v : State, EdgeKeep (laneExchange n s) v ∧ v.swap = (laneExchange n s).swap → v.swap = s.swap ∧
      ∀ m, (v.rg m).role = if m = n then !(s.rg n).role else (s.rg m).role := fun v h => ⟨h.2.trans hswap, fun m => (h.1.role m).trans (hrole m)⟩
  unfold regionExchange
  dsimp only
  refine hkeep _ ?_
  generalize laneExchange n s = q
  have hattr : EdgeKeep q (attrLoad n q) ∧ (attrLoad n q).swap = q.swap := ⟨.of_same rfl rfl, rfl⟩
  generalize attrLoad n q = a at hattr ⊢
  obtain ⟨hedge, hsw⟩ := hattr
  split
  · refine ⟨hedge.trans ⟨rfl, rfl, rfl, fun m => ?_⟩, hsw⟩
    rw [rg_setRg]
    split
    next h => rw [h]
    next => rfl
  · have hcarry := (lutCarry_planeKeep n a).trans (fifoCarry_planeKeep n _)
    exact ⟨hedge.trans hcarry.edge, hcarry.swap.trans hsw⟩

theorem forAll_regionExchange (l : List Nat) (hl : ∀ n ∈ l, n < 64) (hd : l.Nodup) (s : State) : (forAll l regionExchange s).swap = s.swap ∧
    ∀ m, ((forAll l regionExchange s).rg m).role = if m ∈ l then !(s.rg m).role else (s.rg m).role := by
  induction l generalizing s with
  | nil => exact ⟨rfl, fun m => (if_neg List.not_mem_nil).symm⟩
  | cons x l ih =>
    obtain ⟨hx, hdl⟩ := List.nodup_cons.1 hd
    obtain ⟨h1, h2⟩ := regionExchange_out (hl x (.head _)) s
    obtain ⟨k1, k2⟩ := ih (fun n hn => hl n (.tail _ hn)) hdl (regionExchange x s)
    refine ⟨k1.trans h1, fun m => (k2 m).trans ?_⟩
    rw [h2 m]
    by_cases hm : m = x
    · subst hm
      simp [hx]
    · simp [hm]

theorem identApply_edgeKeep (regions : List Nat) (ring : Bool) (s : State) : EdgeKeep s (identApply regions ring s) := by
  unfold identApply
  dsimp only
  split
  · exact .refl s
  · split
    · rename_i x rest _ _
      have hact : EdgeKeep s (State.setF { s with swap := { s.swap with ringAct := x } } Reg.cfgActiveId 31 0 (identImg x)) := ⟨rfl, rfl, rfl, fun _ => rfl⟩
      refine (hact.trans (forAll_edgeKeep ((List.range 64).filter (fun n => !regions.contains n)) (fun n s => s.setReg (Reg.cfgRact n) x) (fun _ _ => .of_same rfl rfl) _)).trans ?_
      exact .of_same rfl rfl
    · exact .refl s

theorem swapAsk_edgeKeep (scope : Nat) (regions : List Nat) (s : State) : EdgeKeep s (swapAsk scope regions s) := by
  unfold swapAsk
  dsimp only
  split
  · exact forAll_edgeKeep _ _ (fun n s => (govAsk_planeKeep ..).edge) s
  · split
    · exact .refl s
    · exact (govAsk_planeKeep ..).edge

theorem swapEnd_edgeKeep (s : State) : EdgeKeep s (swapEnd s) := by
  unfold swapEnd
  dsimp only
  have hset : EdgeKeep s (setScope 0 ((s.setSw swIdle).setB Reg.cfgSwapStatus 11 false)) := .of_same rfl rfl
  generalize setScope 0 ((s.setSw swIdle).setB Reg.cfgSwapStatus 11 false) = q at hset ⊢
  refine (hset.trans (forAll_edgeKeep _ _ (fun p s => ?_) q)).trans (raise_planeKeep ..).edge
  exact .of_same rfl rfl

theorem swapCheck_edgeKeep (s : State) : EdgeKeep s (swapCheck s) := by
  unfold swapCheck
  split
  · exact swapEnd_edgeKeep s
  · exact .refl s

/-- The regions that a swap edge exchanges. -/
def edgeRegions (s : State) : List Nat := if s.getF Reg.cfgSwapStatus 6 4 = 1 then setRegions s.swap.regions else chipSet s

theorem edgeRegions_out (s : State) : (edgeRegions s).Nodup ∧ ∀ n ∈ edgeRegions s, n < 64 := by
  unfold edgeRegions
  split
  · exact ⟨List.nodup_range.filter _, fun n hn => (mem_setRegions.1 hn).1⟩
  · exact ⟨List.nodup_range.filter _, fun n hn => List.mem_range.1 (List.mem_filter.1 hn).1⟩

theorem opSwapEdge_idle (h : s.swState ≠ 2 ∨ s.mode ≠ .run) : opSwapEdge s = s := if_pos h

/-- The record of an edge without the ring, as it is made before the exchange. -/
def edgeLatched (s : State) : State :=
  State.setReg { s with swap := { s.swap with edgeTime := s.evt.time, edgeMesh := s.evt.meshTime, exchanged := (edgeRegions s).length, ringEx := false } }
    Reg.cfgSwapEdgeLo (wd s.evt.time.toNat)

theorem opSwapEdge_regions (hsw : s.swState = 2) (hm : s.mode = .run) (hring : s.getF Reg.cfgSwapStatus 6 4 = 1 ∨ shLive s 64 = false) :
    ∃ x, opSwapEdge s = pinsFrom s (swapCheck (swapAsk (s.getF Reg.cfgSwapStatus 6 4) (edgeRegions s)
      ((identApply (edgeRegions s) false (forAll (edgeRegions s) regionExchange (edgeLatched s))).setSw x))) := by
  have hr : (decide (s.getF Reg.cfgSwapStatus 6 4 ≠ 1) && shLive s 64) = false := by
    rcases hring with h | h <;> simp [h]
  have hgo : ¬ (s.swState ≠ swCommitted ∨ s.mode ≠ .run) := by
    rw [hsw, hm]
    decide
  unfold opSwapEdge
  dsimp only
  rw [if_neg hgo, hr]
  exact ⟨_, rfl⟩

/-- An edge without the ring latches the time and exchanges the planes of exactly its regions (R208). -/
theorem opSwapEdge_out (hsw : s.swState = 2) (hm : s.mode = .run) (hring : s.getF Reg.cfgSwapStatus 6 4 = 1 ∨ shLive s 64 = false) :
    (opSwapEdge s).swap.edgeTime = s.evt.time ∧ (opSwapEdge s).swap.ringEx = false ∧ (opSwapEdge s).swap.exchanged = (edgeRegions s).length ∧
    ∀ n, ((opSwapEdge s).rg n).role = if n ∈ edgeRegions s then !(s.rg n).role else (s.rg n).role := by
  obtain ⟨hd, hl⟩ := edgeRegions_out s
  obtain ⟨hswap, hrole⟩ := forAll_regionExchange (edgeRegions s) hl hd (edgeLatched s)
  obtain ⟨x, hop⟩ := opSwapEdge_regions hsw hm hring
  rw [hop]
  generalize forAll (edgeRegions s) regionExchange (edgeLatched s) = q at hswap hrole ⊢
  have hident := identApply_edgeKeep (edgeRegions s) false q
  generalize identApply (edgeRegions s) false q = z at hident ⊢
  have hset : EdgeKeep z (z.setSw x) := .of_same rfl rfl
  have hrest := (((hident.trans hset).trans (swapAsk_edgeKeep (s.getF Reg.cfgSwapStatus 6 4) (edgeRegions s) _)).trans (swapCheck_edgeKeep _)).trans
    (pinsFrom_planeKeep s _).edge
  exact ⟨hrest.time.trans (by rw [hswap]; rfl), hrest.ring.trans (by rw [hswap]; rfl), hrest.count.trans (by rw [hswap]; rfl),
    fun n => (hrest.role n).trans (hrole n)⟩

/-- Settles O19: requests by their operation, MIRROR's copies one region at a time, the edge's exchanges one region at a time. -/
theorem planeSwaps : Obligations.PlaneSwaps := by
  unfold Obligations.PlaneSwaps
  refine ⟨fun who v s hlive => ⟨fun r n h => ?region, fun h => ?regionGo⟩, fun who v s hlive => ⟨fun r n h => ?chip, fun h => ?chipGo⟩,
    fun who v s hlive h hsw => ?mirror, fun who v s hlive r n h => ?mirrorRefused, fun s => ⟨fun h => ?idle, fun m rest h hsw => ?done⟩,
    fun n s => ⟨fun h => ?free, fun h => ?repre⟩, fun s => ⟨fun h => ?noEdge, fun hsw hm hring => ?edge⟩, fun who s hlive => ?time⟩
  case region => exact .of_exec_eq rfl ((gateW_live hlive).trans (opSwapCmd_refused (s := begin who s) (by decide) h)) (raise_raises rfl)
  case chip => exact .of_exec_eq rfl ((gateW_live hlive).trans (opSwapCmd_refused (s := begin who s) (by decide) h)) (raise_raises rfl)
  case mirrorRefused => exact .of_exec_eq rfl ((gateW_live hlive).trans (opSwapCmd_refused (s := begin who s) (by decide) h)) (raise_raises rfl)
  case regionGo =>
    exact .of_exec_eq rfl ((gateW_live hlive).trans (opSwapCmd_region (s := begin who s) h)) (swapCommit_out (by decide) _ _ (begin who s))
  case chipGo =>
    exact .of_exec_eq rfl ((gateW_live hlive).trans (opSwapCmd_chip (s := begin who s) h)) (swapCommit_out (by decide) _ _ (begin who s))
  case mirror => exact .of_exec_eq rfl ((gateW_live hlive).trans (opSwapCmd_mirror (s := begin who s) h)) (opMirror_out (s := begin who s) hsw)
  case idle => exact congrArg Host.Outcome.next (opMirrorDone_idle h)
  case done => exact .of_exec rfl (opMirrorDone_out h hsw)
  case free => exact congrArg Host.Outcome.next (opRepreload_free h)
  case repre => exact .of_exec rfl (opRepreload_ends h)
  case noEdge => exact congrArg Host.Outcome.next (opSwapEdge_idle h)
  case edge =>
    obtain ⟨htime, hringEx, hcount, hrole⟩ := opSwapEdge_out hsw hm hring
    exact .of_exec rfl ⟨htime, hringEx, hcount, fun n _ => hrole n⟩
  case time => exact congrArg Host.Outcome.next (gateR_live hlive)

end Sys2Proof.Machine
end

section
/-! O21: the Calender (R124, R220 to R230, R234). -/

namespace Sys2Proof.Machine

variable {s t u v : State} {l m key : Nat} {c d : CalCopy}

/-! ### Reports: nothing of the fabric, the Calender or the holds moves -/

/-- `t` is `s` after `n` events of the Calender's own: nothing of the fabric, of the Calender or of what holds a lane has moved. -/
structure CalReport (n : BitVec 16) (s t : State) : Prop where
  fab : t.fab = s.fab
  cal : t.cal = s.cal
  mode : t.mode = s.mode
  seq : t.evt.seq = s.evt.seq + n
  time : t.evt.time = s.evt.time
  status : ∀ k, t.reg (Reg.rgnStatus k) = s.reg (Reg.rgnStatus k)
  repre : ∀ k, (t.rg k).repre = (s.rg k).repre

theorem CalReport.refl (s : State) : CalReport 0 s s := ⟨rfl, rfl, rfl, (BitVec.add_zero _).symm, rfl, fun _ => rfl, fun _ => rfl⟩

theorem CalReport.trans {n k : BitVec 16} (h : CalReport n s t) (g : CalReport k t u) : CalReport (n + k) s u :=
  ⟨g.fab.trans h.fab, g.cal.trans h.cal, g.mode.trans h.mode, by rw [g.seq, h.seq, BitVec.add_assoc], g.time.trans h.time,
    fun a => (g.status a).trans (h.status a), fun a => (g.repre a).trans (h.repre a)⟩

theorem CalReport.setReg {a : Nat} (h : a < 0x80000) (w : Word) (s : State) : CalReport 0 s (s.setReg a w) :=
  ⟨rfl, rfl, rfl, (BitVec.add_zero _).symm, rfl, fun k => reg_setReg_other (by simp only [Reg.rgnStatus]; omega), fun _ => rfl⟩

theorem CalReport.raise (code : Code) (src : Req) (d : Nat) (s : State) : CalReport 1 s (Machine.raise code src d s) :=
  ⟨raise_fab .., raise_cal .., raise_mode .., raise_seq .., raise_evt_time .., fun k => raise_reg _ _ _ _ _ (rgnStatus_evt k).1,
    fun k => by unfold State.rg; rw [raise_rgn]⟩

theorem CalReport.held {n : BitVec 16} (h : CalReport n s t) (l : Nat) : laneHeld t l = laneHeld s l := by
  unfold laneHeld
  rw [getB_eq, getB_eq, getB_eq, getB_eq, h.status, h.repre]

theorem CalReport.lane {n : BitVec 16} (h : CalReport n s t) (l : Nat) : t.lane l = s.lane l := by
  unfold State.lane
  rw [h.cal]

theorem rgnCnt_reports (n hi lo : Nat) {a : Nat} (h : a = Reg.rgnCntSbe n ∨ a = Reg.rgnCntRepair n ∨ a = Reg.rgnLogLost n) (s : State) :
    CalReport 0 s (s.count a hi lo) :=
  ⟨rfl, rfl, rfl, (BitVec.add_zero _).symm, rfl, fun k => reg_setReg_other (by
    rcases h with h | h | h <;> subst h <;> simp only [Reg.rgnStatus, Reg.rgnCntSbe, Reg.rgnCntRepair, Reg.rgnLogLost] <;> omega), fun _ => rfl⟩

theorem logWrite_reports (n entry : Nat) (code : Code) (s : State) : CalReport 1 s (logWrite n entry code s) := by
  unfold logWrite
  refine (CalReport.trans (n := 0) ?_ (.raise ..))
  split
  · exact ⟨rfl, rfl, rfl, (BitVec.add_zero _).symm, rfl, fun _ => rfl, fun k => by
      rw [rg_setRg]
      split
      next h => rw [h]
      next => rfl⟩
  · exact rgnCnt_reports n 15 0 (.inr (.inr rfl)) s

theorem wordReport_reports (kind bit key : Nat) (code : Code) (s : State) : CalReport 1 s (wordReport kind bit key code s) := by
  have hset : CalReport 0 s (s.setB Reg.calStatus 5 true) := .setReg (by decide) _ _
  unfold wordReport
  dsimp only
  generalize s.setB Reg.calStatus 5 true = q at hset ⊢
  split
  · exact hset.trans (logWrite_reports ..)
  · exact hset.trans (.raise ..)

/-! ### Lanes whose copies agree -/

theorem maj_same {n : Nat} (a : BitVec n) : maj a a a = a := by simp [maj]

@[simp] theorem vote_triOf (c : CalCopy) : (triOf c).vote = c := by
  simp only [Tri.vote, triOf, maj_same]

@[simp] theorem odd_triOf (c : CalCopy) : (triOf c).odd = 0 := by
  unfold Tri.odd
  rw [vote_triOf]
  simp [triOf]

theorem triOf_vote_of_even {t : Tri} (h : t.odd = 0) : triOf t.vote = t := by
  have hz : ∀ {p : Prop} [Decidable p], (decide p).toNat = 0 → ¬ p := by
    intro p _ hp
    by_cases h : p <;> simp_all
  have h0 : ¬ t.c0 ≠ t.vote := hz (by unfold Tri.odd at h; omega)
  have h1 : ¬ t.c1 ≠ t.vote := hz (by unfold Tri.odd at h; omega)
  have h2 : ¬ t.c2 ≠ t.vote := hz (by unfold Tri.odd at h; omega)
  unfold triOf
  exact congr (congr (congrArg Tri.mk (not_not.1 h0).symm) (not_not.1 h1).symm) (not_not.1 h2).symm

theorem LaneStep.set {x : Lane} (s : State) (l : Nat) : LaneStep l x s (s.setLane l x) := ⟨fun _ => lane_setLane, rfl⟩

/-- A vote of copies that agree: the lane is written back as it was. -/
theorem laneVote_even (h : (s.lane l).a.odd = 0 ∧ (s.lane l).b.odd = 0) : laneVote l s = s.setLane l (s.lane l) := by
  unfold laneVote
  dsimp only
  rw [h.1, h.2, triOf_vote_of_even h.1, triOf_vote_of_even h.2]
  rfl

theorem lane_even (ha : (s.lane l).a = triOf c) (hb : (s.lane l).b = triOf d) : (s.lane l).a.odd = 0 ∧ (s.lane l).b.odd = 0 := by
  rw [ha, hb]
  exact ⟨odd_triOf c, odd_triOf d⟩

/-- Nothing but how the lanes are written differs. -/
def OnlyLanes (s t : State) : Prop := { t with cal := { t.cal with lanes := s.cal.lanes } } = s

theorem OnlyLanes.eq (h : OnlyLanes s t) : t = { s with cal := { s.cal with lanes := t.cal.lanes } } := by
  have h2 : { { t with cal := { t.cal with lanes := s.cal.lanes } } with cal := { ({ t with cal := { t.cal with lanes := s.cal.lanes } } : State).cal with
      lanes := t.cal.lanes } } = t := rfl
  unfold OnlyLanes at h
  rw [h] at h2
  exact h2.symm

theorem OnlyLanes.trans (h : OnlyLanes s t) (g : OnlyLanes t u) : OnlyLanes s u := by
  have h2 := g.eq
  rw [h2, h.eq]
  rfl

theorem OnlyLanes.set (s : State) (l : Nat) (x : Lane) : OnlyLanes s (s.setLane l x) := rfl

/-- A lane is held by registers and region records alone. -/
theorem OnlyLanes.held (h : OnlyLanes s t) (m : Nat) : laneHeld t m = laneHeld s m := by
  rw [h.eq]
  rfl

theorem lane_rewrite (s : State) (l m : Nat) : (s.setLane l (s.lane l)).lane m = s.lane m := by
  refine lane_setLane.trans ?_
  split
  next h => rw [h]
  next => rfl

/-! ### Golden maps without disagreeing copies -/

theorem goldVote_agreeing {n : Nat} (h : (s.rg n).goldBad = []) (plane : Bool) (cells : List Nat) : goldVote n plane cells s = s := by
  have hcells : ∀ l : List Nat, l.foldl (fun r ix => (r.1 + (goldCell n plane ix r.2).1.toNat, (goldCell n plane ix r.2).2)) (0, s) = (0, s) := by
    intro l
    induction l with
    | nil => rfl
    | cons x l ih =>
      have hx : goldCell n plane x s = (false, s) := by
        unfold goldCell
        exact if_pos (by rw [h]; rfl)
      rw [List.foldl_cons, hx]
      exact ih
  unfold goldVote
  dsimp only
  rw [hcells]
  rfl

theorem goldRead_agreeing (h : (s.rg (keySeg key)).goldBad = []) : goldRead key s = s := by
  unfold goldRead
  split
  · exact goldVote_agreeing h ..
  · rfl

/-! ### The end of a CK_CFG cycle -/

/-- A full chip pass does not end while a lane that is not held has not ended its own (R221). -/
theorem chipPass_waits (hm : m < 65) (he : (s.lane m).ended = false) (hh : laneHeld s m = false) : chipPass s = s :=
  if_neg (fun h => by
    have := List.all_eq_true.1 h m (List.mem_range.2 hm)
    simp [he, hh] at this)

/-- What a lane's record becomes at the end of a full chip pass. -/
def laneAgain (x : Lane) : Lane := { x with ended := false, fresh := x.b.vote.count == 0 && x.a.vote.count == 0 }

/-- Lanes at the end of a full chip pass. -/
def lanesAgain (ls : List Nat) (s : State) : State := forAll ls (fun l s => s.setLane l (laneAgain (s.lane l))) s

theorem lanesAgain_only (ls : List Nat) (s : State) : OnlyLanes s (lanesAgain ls s) := by
  unfold lanesAgain forAll
  induction ls generalizing s with
  | nil => rfl
  | cons x ls ih => exact (OnlyLanes.set s x _).trans (ih _)

theorem lanesAgain_ended {n : Nat} (hm : m < n) (s : State) : ((lanesAgain (List.range n) s).lane m).ended = false := by
  have h := (forAll_range_once (P := fun v : State => v.lane m) (Inv := fun _ => True) (f := fun l s => s.setLane l (laneAgain (s.lane l))) (g := laneAgain)
    (k := m) (m := n) (fun _ _ _ => trivial) (fun j v _ _ hj => lane_setLane.trans (if_neg (Ne.symm hj)))
    (fun _ v _ => lane_setLane.trans (if_pos rfl)) s trivial).2
  rw [if_pos hm] at h
  unfold lanesAgain
  rw [h]
  rfl

/-- The pass's time and number, and the start of the next. -/
def passNoted (s : State) : State :=
  let s := s.setF Reg.calPassTime 19 0 (min (2 ^ 20 - 1) ((s.evt.time - s.cal.passStart).toNat / 1000))
  let s := s.setReg Reg.calPassCount (s.reg Reg.calPassCount + 1)
  { s with cal := { s.cal with passStart := s.evt.time, tmrRaised := false } }

theorem chipPass_ends (h : ∀ m, m < 65 → (s.lane m).ended = true ∨ laneHeld s m = true) : chipPass s = passNoted (lanesAgain (List.range 65) s) :=
  if_pos (List.all_eq_true.2 (fun m hm => by
    rcases h m (List.mem_range.1 hm) with h | h <;> simp [h]))

theorem passNoted_out (s : State) : (passNoted s).reg Reg.calPassCount = s.reg Reg.calPassCount + 1 ∧
    (passNoted s).getF Reg.calPassTime 19 0 = min (2 ^ 20 - 1) ((s.evt.time - s.cal.passStart).toNat / 1000) ∧
    KeepRegs [Reg.calPassTime, Reg.calPassCount] s (passNoted s) := by
  refine ⟨?_, ?_, fun a ha => ?_⟩
  · refine (reg_setReg_same (s := s.setF Reg.calPassTime 19 0 _)).trans ?_
    exact congrArg (· + 1) (reg_setReg_other (s := s) (by decide))
  · refine (congrArg (fld · 19 0) (reg_setReg_other (s := s.setF Reg.calPassTime 19 0 _) (by decide))).trans ?_
    refine (getF_setF_same (s := s) (by decide)).trans (Nat.mod_eq_of_lt ?_)
    omega
  · simp only [List.mem_cons, List.not_mem_nil, or_false, not_or] at ha
    exact (reg_setReg_other (s := s.setF Reg.calPassTime 19 0 _) ha.2).trans (reg_setReg_other (s := s) ha.1)

theorem chipPass_out (h : ∀ m, m < 65 → (s.lane m).ended = true ∨ laneHeld s m = true) :
    (chipPass s).reg Reg.calPassCount = s.reg Reg.calPassCount + 1 ∧
    (chipPass s).getF Reg.calPassTime 19 0 = min (2 ^ 20 - 1) ((s.evt.time - s.cal.passStart).toNat / 1000) ∧
    (∀ m, m < 65 → ((chipPass s).lane m).ended = false) ∧ KeepRegs [Reg.calPassTime, Reg.calPassCount] s (chipPass s) ∧ (chipPass s).fab = s.fab := by
  rw [chipPass_ends h]
  have honly := (lanesAgain_only (List.range 65) s).eq
  have hend : ∀ m, m < 65 → ((lanesAgain (List.range 65) s).lane m).ended = false := fun m hm => lanesAgain_ended hm s
  generalize lanesAgain (List.range 65) s = q at honly hend ⊢
  obtain ⟨hcount, htime, hkeep⟩ := passNoted_out q
  have hregs : q.regs = s.regs := by rw [honly]
  have hreg : ∀ a, q.reg a = s.reg a := fun a => congrArg (Store.get regDefault · a) hregs
  refine ⟨hcount.trans (congrArg (· + 1) (hreg _)), htime.trans ?_, hend, fun a ha => (hkeep a ha).trans (hreg a), ?_⟩
  · rw [honly]
  · rw [honly]
    rfl

/-! ### What a scrub read reads, and where it leads -/

/-- The state of the engine that reads next: engine A at even reads, engine B at odd ones (R223). -/
def scrubCopy (s : State) (l : Nat) (c d : CalCopy) : CalCopy := if (s.lane l).beat.getLsbD 0 then d else c

/-- The word that it reads. -/
def scrubKey (s : State) (l : Nat) (c d : CalCopy) : Nat :=
  posKey s l (scrubCopy s l c d).range.toNat (((scrubCopy s l c d).pos.toNat + ((s.lane l).beat.getLsbD 0).toNat) % 128)

/-- The lane after the read. -/
def scrubNext (s : State) (l : Nat) (c d : CalCopy) : Lane :=
  let x := { s.lane l with stalled := false, beat := (s.lane l).beat + 1 }
  if (s.lane l).beat.getLsbD 0 then { x with b := triOf (copyNext l (scrubCopy s l c d)) } else { x with a := triOf (copyNext l (scrubCopy s l c d)) }

theorem scrubNext_ended (s : State) (l : Nat) (c d : CalCopy) : (scrubNext s l c d).ended = (s.lane l).ended := by
  unfold scrubNext
  dsimp only
  split <;> rfl

/-- What a scrub read makes of the answer of its word's read. -/
def scrubAfter (s : State) (l : Nat) (c d : CalCopy) (r : Bool × State) : Option (Nat × Nat) × State :=
  if !r.1 then (none, r.2.setLane l { r.2.lane l with stalled := true })
  else if (s.lane l).beat + 1 = 0 then frameEnd l (r.2.setLane l (scrubNext s l c d)) else (none, r.2.setLane l (scrubNext s l c d))

theorem laneScrub_eq (ha : (s.lane l).a = triOf c) (hb : (s.lane l).b = triOf d) :
    laneScrub l s = scrubAfter s l c d (scrubWord l (scrubKey s l c d) (s.setLane l (s.lane l))) := by
  have hcopy : (if (s.lane l).beat.getLsbD 0 then (s.lane l).b else (s.lane l).a).vote = scrubCopy s l c d := by
    rw [ha, hb, apply_ite Tri.vote, vote_triOf, vote_triOf]
    rfl
  unfold laneScrub
  rw [laneVote_even (lane_even ha hb)]
  dsimp only
  rw [lane_rewrite, hcopy]
  rfl

theorem scrubWord_good {w : Word} (hg : (s.rg (keySeg key)).goldBad = []) (h : cfgChk s key = .good w) : scrubWord l key s = (true, s) := by
  unfold scrubWord
  rw [goldRead_agreeing hg]
  dsimp only
  rw [h]

theorem scrubWord_corrected {w : Word} (hg : (s.rg (keySeg key)).goldBad = []) (h : cfgChk s key = .corrected w) :
    scrubWord l key s = (true, wordCorrect 1 key w 0x401 s) := by
  unfold scrubWord
  rw [goldRead_agreeing hg]
  dsimp only
  rw [h]

theorem scrubWord_bad (hg : (s.rg (keySeg key)).goldBad = []) (h : cfgChk s key = .bad) : scrubWord l key s = repairAdd l key s := by
  unfold scrubWord
  rw [goldRead_agreeing hg]
  dsimp only
  rw [h]

theorem repairAdd_empty (h : s.cal.queue = []) : repairAdd l key s = (true, { s with cal := { s.cal with queue := [{ lane := l, key := key }] } }) := by
  unfold repairAdd
  rw [h]
  rfl

theorem repairAdd_full (h : s.cal.queue.any (fun r => r.lane == l && r.key == key) = false) (hf : 4 ≤ (s.cal.queue.filter (fun r => r.lane == l)).length) :
    repairAdd l key s = (false, s) :=
  (if_neg (by rw [h]; decide)).trans (if_pos hf)

/-- A correction in place, counted and reported. -/
theorem wordCorrect_reports (kind key : Nat) (w : Word) (code : Code) (s : State) :
    CalReport 1 (s.setCfg key { data := w }) (wordCorrect kind key w code s) := by
  unfold wordCorrect
  dsimp only
  refine (CalReport.trans (n := 0) ?_ (wordReport_reports ..))
  split
  · exact rgnCnt_reports _ _ _ (.inl rfl) _
  · exact .setReg (by decide) _ _

/-! ### A CK_CFG cycle in which one lane reads, or none -/

theorem laneRead_idle (h : calRuns s l = false ∨ laneHeld s l = true) : laneRead l s = (none, s) :=
  if_pos (by rcases h with h | h <;> simp [h])

theorem laneRead_scrubs (hr : calRuns s l = true) (hh : laneHeld s l = false) (hq : (laneRepair s l).filter (fun e => e.wrote != 0) = none) :
    laneRead l s = laneScrub l s := by
  unfold laneRead
  rw [if_neg (by simp [hr, hh]), hq]

theorem opScrub_idle (ls : List Nat) (h : ∀ l ∈ ls, calRuns s l = false ∨ laneHeld s l = true) : opScrub ls s = chipPass s := by
  have hfold : ls.foldl (fun r l => (r.1 <|> (laneRead l r.2).1, (laneRead l r.2).2)) ((none : Option (Nat × Nat)), s) = (none, s) := by
    induction ls with
    | nil => rfl
    | cons x ls ih =>
      rw [List.foldl_cons, laneRead_idle (h x (List.mem_cons_self ..))]
      exact ih (fun l hl => h l (List.mem_cons_of_mem _ hl))
  unfold opScrub
  dsimp only
  rw [hfold]

theorem opScrub_none (h : laneRead l s = (none, u)) : opScrub [l] s = chipPass u := by
  unfold opScrub
  dsimp only [List.foldl]
  rw [h]
  rfl

theorem opScrub_some {r : Nat × Nat} (h : laneRead l s = (some r, u)) : opScrub [l] s = chipPass (mmReport r u) := by
  unfold opScrub
  dsimp only [List.foldl]
  rw [h]
  rfl

/-- A lane that scrubs and has neither ended its pass nor a repair to re-read. -/
structure LaneScrubs (s : State) (l : Nat) (c d : CalCopy) : Prop where
  small : l < 65
  runs : calRuns s l = true
  held : laneHeld s l = false
  repair : (laneRepair s l).filter (fun e => e.wrote != 0) = none
  a : (s.lane l).a = triOf c
  b : (s.lane l).b = triOf d
  ended : (s.lane l).ended = false
  gold : (s.rg (keySeg (scrubKey s l c d))).goldBad = []

theorem LaneScrubs.read (h : LaneScrubs s l c d) : laneRead l s = scrubAfter s l c d (scrubWord l (scrubKey s l c d) (s.setLane l (s.lane l))) :=
  (laneRead_scrubs h.runs h.held h.repair).trans (laneScrub_eq h.a h.b)

/-- The state in which the word is read: the vote has written the lane back as it was. -/
abbrev laneRead0 (s : State) (l : Nat) : State := s.setLane l (s.lane l)

theorem LaneScrubs.good {w : Word} (h : LaneScrubs s l c d) (hk : cfgChk s (scrubKey s l c d) = .good w) :
    scrubWord l (scrubKey s l c d) (laneRead0 s l) = (true, laneRead0 s l) :=
  scrubWord_good (s := laneRead0 s l) (w := w) h.gold hk

theorem LaneScrubs.corrected {w : Word} (h : LaneScrubs s l c d) (hk : cfgChk s (scrubKey s l c d) = .corrected w) :
    scrubWord l (scrubKey s l c d) (laneRead0 s l) = (true, wordCorrect 1 (scrubKey s l c d) w 0x401 (laneRead0 s l)) :=
  scrubWord_corrected (s := laneRead0 s l) h.gold hk

theorem LaneScrubs.bad (h : LaneScrubs s l c d) (hk : cfgChk s (scrubKey s l c d) = .bad) :
    scrubWord l (scrubKey s l c d) (laneRead0 s l) = repairAdd l (scrubKey s l c d) (laneRead0 s l) :=
  scrubWord_bad (s := laneRead0 s l) h.gold hk

/-- The word was read, and the frame goes on: the lane moves on, and no pass ends. -/
theorem LaneScrubs.moves (h : LaneScrubs s l c d) (hbeat : (s.lane l).beat ≠ 127) (hw : scrubWord l (scrubKey s l c d) (s.setLane l (s.lane l)) = (true, u))
    (hh : laneHeld u l = laneHeld s l) : opScrub [l] s = u.setLane l (scrubNext s l c d) := by
  have hnext : (s.lane l).beat + 1 ≠ 0 := by
    intro h0
    exact hbeat (by bv_omega)
  refine (opScrub_none (u := u.setLane l (scrubNext s l c d)) ?_).trans (chipPass_waits h.small ?_ (hh.trans h.held))
  · rw [h.read, hw]
    exact (if_neg Bool.false_ne_true).trans (if_neg hnext)
  · exact (congrArg Lane.ended (lane_setLane.trans (if_pos rfl))).trans ((scrubNext_ended ..).trans h.ended)

/-- The repair queue has no room: the lane waits at its word (R228). -/
theorem LaneScrubs.stalls (h : LaneScrubs s l c d) (hw : scrubWord l (scrubKey s l c d) (s.setLane l (s.lane l)) = (false, s.setLane l (s.lane l))) :
    LaneStep l { s.lane l with stalled := true } s (opScrub [l] s) := by
  have hlane : (s.setLane l (s.lane l)).lane l = s.lane l := lane_rewrite s l l
  have hstep : opScrub [l] s = (s.setLane l (s.lane l)).setLane l { s.lane l with stalled := true } := by
    refine (opScrub_none (u := (s.setLane l (s.lane l)).setLane l { s.lane l with stalled := true }) ?_).trans (chipPass_waits h.small ?_ h.held)
    · rw [h.read, hw]
      refine (if_pos rfl).trans ?_
      dsimp only
      rw [hlane]
    · exact (congrArg Lane.ended (lane_setLane.trans (if_pos rfl))).trans h.ended
  rw [hstep]
  refine ⟨fun m => lane_setLane.trans ?_, rfl⟩
  rw [lane_rewrite]

/-! ### A frame's end with signatures that differ (R224, R225) -/

theorem laneRestart_even (h : (s.lane l).a.odd = 0 ∧ (s.lane l).b.odd = 0) : OnlyLanes s (laneRestart l s) ∧
    ((laneRestart l s).lane l).ended = (s.lane l).ended := by
  unfold laneRestart
  dsimp only
  rw [laneVote_even h]
  refine ⟨rfl, (congrArg Lane.ended (lane_setLane.trans (if_pos rfl))).trans ?_⟩
  show ((s.setLane l (s.lane l)).lane l).ended = _
  rw [lane_rewrite]

theorem mmResolve_out (h : (s.lane l).a.odd = 0 ∧ (s.lane l).b.odd = 0) (c d : CalCopy) : OnlyLanes s (mmResolve l c d s).2 ∧
    ((mmResolve l c d s).2.lane l).ended = (s.lane l).ended ∧ (c.count ≠ d.count → ((mmResolve l c d s).2.lane l).a = ((mmResolve l c d s).2.lane l).b) := by
  by_cases hc : c.count = d.count
  · have hboth : (mmResolve l c d s).2 = laneRestart l s := if_pos (decide_eq_true hc)
    rw [hboth]
    exact ⟨(laneRestart_even h).1, (laneRestart_even h).2, fun hn => absurd hc hn⟩
  · have hlag : ∃ e, (mmResolve l c d s).2 = s.setLane l { s.lane l with a := triOf e, b := triOf e, a0 := e, b0 := e, beat := 0 } :=
      ⟨_, if_neg (by simp [hc])⟩
    obtain ⟨e, he⟩ := hlag
    have hlane : (s.setLane l { s.lane l with a := triOf e, b := triOf e, a0 := e, b0 := e, beat := 0 }).lane l =
        { s.lane l with a := triOf e, b := triOf e, a0 := e, b0 := e, beat := 0 } := lane_setLane.trans (if_pos rfl)
    rw [he, hlane]
    exact ⟨rfl, rfl, fun _ => rfl⟩

theorem frameEnd_mismatch (ha : (s.lane l).a = triOf c) (hb : (s.lane l).b = triOf d) (h : c.shown ≠ d.shown) :
    frameEnd l s = (some (mmResolve l c d (s.setLane l (s.lane l))).1, (mmResolve l c d (s.setLane l (s.lane l))).2) := by
  unfold frameEnd
  rw [laneVote_even (lane_even ha hb)]
  dsimp only
  rw [lane_rewrite, ha, hb, vote_triOf, vote_triOf]
  exact if_pos h

theorem mmReport_reports (r : Nat × Nat) (h : (mmRecent s).length < 2) :
    CalReport 1 { s with cal := { s.cal with mmTimes := mmRecent s ++ [s.evt.time] } } (mmReport r s) := by
  have hlen : ¬ 3 ≤ (mmRecent s ++ [s.evt.time]).length := by
    rw [List.length_append]
    exact fun h3 => absurd (Nat.lt_of_succ_le h3) (by simp only [List.length_cons, List.length_nil]; omega)
  have hregs : ∀ v : State, CalReport 0 v (((v.setReg Reg.calLastMm (wd r.2)).count Reg.calCntMismatch 35 0).setB Reg.calStatus 5 true) := fun v =>
    ((CalReport.setReg (by decide) _ v).trans (.setReg (by decide) _ _)).trans (.setReg (by decide) _ _)
  have heq : mmReport r s = raise 0x409 0 r.1 (((({ s with cal := { s.cal with mmTimes := mmRecent s ++ [s.evt.time] } } : State).setReg Reg.calLastMm
      (wd r.2)).count Reg.calCntMismatch 35 0).setB Reg.calStatus 5 true) := if_neg hlen
  rw [heq]
  exact (hregs _).trans (.raise ..)

/-- Engine B read the frame's last word, and its signature is not engine A's: one mismatch, and a laggard stands where the other engine does. -/
theorem LaneScrubs.mismatch (h : LaneScrubs s l c d) {w : Word} (hbeat : (s.lane l).beat = 127) (hgood : cfgChk s (scrubKey s l c d) = .good w)
    (hshown : c.shown ≠ (copyNext l d).shown) (hrecent : (mmRecent s).length < 2) : (opScrub [l] s).evt.seq = s.evt.seq + 1 ∧
      (opScrub [l] s).cal.mmTimes = mmRecent s ++ [s.evt.time] ∧ (opScrub [l] s).mode = s.mode ∧
      (c.count ≠ (copyNext l d).count → ((opScrub [l] s).lane l).a = ((opScrub [l] s).lane l).b) := by
  generalize hu : (s.setLane l (s.lane l)).setLane l (scrubNext s l c d) = u
  have hcopy : scrubCopy s l c d = d := by
    unfold scrubCopy
    rw [hbeat]
    rfl
  have hlane : u.lane l = scrubNext s l c d := by rw [← hu]; exact lane_setLane.trans (if_pos rfl)
  have hnext : scrubNext s l c d = { s.lane l with stalled := false, beat := (s.lane l).beat + 1, b := triOf (copyNext l d) } := by
    unfold scrubNext
    rw [hcopy, hbeat]
    rfl
  have ha : (u.lane l).a = triOf c := by rw [hlane, hnext]; exact h.a
  have hb : (u.lane l).b = triOf (copyNext l d) := by rw [hlane, hnext]
  have honly : OnlyLanes s u := by rw [← hu]; rfl
  have hread : laneRead l s = frameEnd l u := by
    rw [h.read, h.good hgood, ← hu]
    exact (if_neg Bool.false_ne_true).trans (if_pos (by rw [hbeat]; rfl))
  rw [frameEnd_mismatch ha hb hshown] at hread
  have heven : ((u.setLane l (u.lane l)).lane l).a.odd = 0 ∧ ((u.setLane l (u.lane l)).lane l).b.odd = 0 := by
    rw [lane_rewrite]
    exact lane_even ha hb
  obtain ⟨hres, hend, hlag⟩ := mmResolve_out heven c (copyNext l d)
  rw [opScrub_some hread]
  generalize hr : mmResolve l c (copyNext l d) (u.setLane l (u.lane l)) = r at hres hend hlag
  have hall : OnlyLanes s r.2 := (honly.trans (OnlyLanes.set u l _)).trans hres
  have hrec : mmRecent r.2 = mmRecent s := by rw [hall.eq]; rfl
  have hevt : r.2.evt = s.evt := by rw [hall.eq]
  have hmode : r.2.mode = s.mode := by rw [hall.eq]
  have hrep := mmReport_reports r.1 (hrec.symm ▸ hrecent)
  have hlanes : (mmReport r.1 r.2).lane l = r.2.lane l := hrep.lane l
  rw [chipPass_waits h.small (by rw [hlanes, hend, lane_rewrite, hlane, scrubNext_ended, h.ended]) ((hrep.held l).trans ((hall.held l).trans h.held)), hlanes]
  refine ⟨hrep.seq.trans (congrArg (·.seq + 1) hevt), ?_, hrep.mode.trans hmode, hlag⟩
  rw [hrep.cal]
  show mmRecent r.2 ++ [r.2.evt.time] = _
  rw [hrec, hevt]

/-! ### Repair (R227 to R229) -/

theorem opRepair_none (h : laneRepair s l = none) : opRepair l s = s := by
  unfold opRepair
  rw [h]

theorem opRepairTimeout_none (h : laneRepair s l = none) : opRepairTimeout l s = s := by
  unfold opRepairTimeout
  rw [h]

theorem opRepairTimeout_fails {e : Repair} (h : laneRepair s l = some e) (hn : needsFlash s e = true) :
    opRepairTimeout l s = repairSet e { e with failed := 2 } s := by
  unfold opRepairTimeout
  rw [h]
  exact if_pos hn

/-- A word written where no copy of the golden map disagrees and no MIRROR copies the region. -/
theorem repairWrite_plain (hg : (s.rg (keySeg key)).goldBad = []) (hm : (s.rg (keySeg key)).mirroring = false) (w : Word) :
    repairWrite key w s = s.setCfg key { data := ((s.cfgCell key).data &&& keyMask s key) ||| (w &&& ~~~keyMask s key) } := by
  unfold repairWrite
  rw [goldRead_agreeing hg]
  dsimp only
  refine if_neg (fun h => ?_)
  have hrg : ((s.setCfg key { data := ((s.cfgCell key).data &&& keyMask s key) ||| (w &&& ~~~keyMask s key) }).rg (keySeg key)).mirroring = false := hm
  rw [hrg] at h
  exact absurd h.2.1 (by decide)

theorem opRepair_shadow {e : Repair} {w : Word} (h : laneRepair s l = some e) (hw : e.wrote = 0) (hs : repairShadow s e = some w) :
    opRepair l s = repairSet e { e with wrote := 3 } (repairWrite e.key w (mirrorFix e.key s)) := by
  unfold opRepair
  rw [h]
  dsimp only
  rw [if_neg (not_not.2 hw), hs]

theorem opRepair_flash {e : Repair} {w : Word} (h : laneRepair s l = some e) (hw : e.wrote = 0) (hs : repairShadow s e = none)
    (hk : (keyIdent s e.key).getLsbD 35 = true) (hf : e.fetched = some w) : opRepair l s = repairSet e { e with wrote := 4 } (repairWrite e.key w s) := by
  unfold opRepair
  rw [h]
  dsimp only
  rw [if_neg (not_not.2 hw), hs]
  dsimp only
  rw [hk, if_neg (by decide), hf]

theorem opRepair_rereads {e : Repair} (h : laneRepair s l = some e) (hw : e.wrote ≠ 0) : opRepair l s = repairReread e s := by
  unfold opRepair
  rw [h]
  exact if_pos hw

theorem mirrorFix_good {w : Word} (h : cfgChk s (otherPlane key) = .good w) : mirrorFix key s = s := by
  unfold mirrorFix
  rw [h]

/-- The queue without an entry, where no ring word waits for its place. -/
theorem repairDone_eq (e : Repair) (h : s.cal.late = []) :
    repairDone e s = { s with cal := { s.cal with queue := s.cal.queue.filter (fun r => !(r.lane == e.lane && r.key == e.key)) } } := by
  unfold repairDone repairLate
  dsimp only
  rw [h]

theorem repairClean_reports (e : Repair) (s : State) : CalReport 1 (repairDone e s) (repairClean e s) := by
  unfold repairClean
  dsimp only
  generalize repairDone e s = q
  split
  · exact (rgnCnt_reports _ _ _ (.inr (.inl rfl)) q).trans (wordReport_reports ..)
  · refine CalReport.trans (n := 0) ?_ (wordReport_reports ..)
    split
    · exact rgnCnt_reports _ _ _ (.inr (.inl rfl)) q
    · exact .setReg (by decide) _ q

theorem repairReread_clean {e : Repair} {w : Word} (hg : (s.rg (keySeg e.key)).goldBad = []) (h : cfgChk s e.key = .good w) :
    repairReread e s = repairClean e s := by
  unfold repairReread
  rw [goldRead_agreeing hg]
  dsimp only
  rw [h]

theorem repairReread_unclean {e : Repair} (hg : (s.rg (keySeg e.key)).goldBad = []) (h : ∀ w, cfgChk s e.key ≠ .good w) (hw : e.wrote = 3) :
    repairReread e s = repairSet e { e with wrote := 0, tried := true } s := by
  unfold repairReread
  rw [goldRead_agreeing hg]
  dsimp only
  split
  next w hc => exact absurd hc (h w)
  next => exact if_pos hw

theorem opRepairFetch_waits {e : Repair} (h : fetchNext s = some e) (hw : e.lane ≠ l ∨ fetchWaits s (fld (keyIdent s e.key) 34 33) e.key = true) :
    opRepairFetch l s = s := by
  unfold opRepairFetch
  rw [h]
  exact if_pos hw

/-- The entry after its fetch: the word of the frame, or the failure (R229). -/
def fetchedEntry (e : Repair) (f : Option (List Word)) : Repair :=
  match f with
  | some ws => { e with fetched := some (ws.getD (keyWord e.key) 0) }
  | none => { e with failed := 1 }

theorem opRepairFetch_fetches {e : Repair} (h : fetchNext s = some e) (hl : e.lane = l) (hw : fetchWaits s (fld (keyIdent s e.key) 34 33) e.key = false) :
    opRepairFetch l s = (fun f : Option (List Word) × State => repairSet e (fetchedEntry e f.1) f.2)
      (slotFrame (fld (keyIdent s e.key) 34 33) (keySeg e.key) (keyCol e.key) (keyMinor e.key) s) := by
  unfold opRepairFetch
  rw [h]
  dsimp only
  rw [if_neg (by rw [hw]; exact fun h => h.elim (fun h => h hl) (by decide))]
  generalize slotFrame (fld (keyIdent s e.key) 34 33) (keySeg e.key) (keyCol e.key) (keyMinor e.key) s = f
  obtain ⟨f1, q⟩ := f
  cases f1 <;> rfl

/-! ### Readback (R124, R199, R230) -/

/-- A word handed to the register path in the middle of a frame, with its flag and the queue that it leaves. -/
def readbackGiven (s : State) (w : Word) (u : Bool) (q : List Repair) : State := { s with
  ld := { s.ld with rdata := s.ld.rdata ++ [w], rbLeft := s.ld.rbLeft - 1, rbDone := s.ld.rbDone + 1, unc := u, rbQueued := none, rbFull := false },
  cal := { s.cal with queue := q } }

theorem queue_eq {q : List Repair} (h : s.cal.queue = q) : { s.cal with queue := q } = s.cal := by rw [← h]

theorem readbackWord_good {w : Word} (hg : (s.rg (keySeg key)).goldBad = []) (hq : s.cal.queue = []) (h : cfgChk s key = .good w) :
    readbackWord key s = rbGive w false s := by
  unfold readbackWord
  rw [goldRead_agreeing hg]
  dsimp only
  rw [hq, h]
  rfl

theorem readbackWord_shadow (hg : (s.rg (keySeg key)).goldBad = []) (hq : s.cal.queue = []) (h : cfgChk s key = .bad) (hs : keyShadow s key = 1) :
    readbackWord key s = rbGive (s.cfgCell key).data true s := by
  unfold readbackWord
  rw [goldRead_agreeing hg]
  dsimp only
  rw [hq, h]
  exact (if_neg Bool.false_ne_true).trans (if_pos (.inl hs))

theorem readbackWord_queues (hg : (s.rg (keySeg key)).goldBad = []) (hq : s.cal.queue = []) (h : cfgChk s key = .bad) (hs : keyShadow s key = 0)
    (hn : s.ld.rbQueued = none) (hf : s.ld.rbFull = false) : readbackWord key s = rbGive (s.cfgCell key).data true
      { s with cal := { s.cal with queue := [{ lane := laneOf (keySeg key), key := key }] } } := by
  unfold readbackWord
  rw [goldRead_agreeing hg]
  dsimp only
  rw [hq, h, repairAdd_empty hq]
  dsimp only
  rw [List.any_nil, if_neg Bool.false_ne_true, if_neg (by rw [hs, hn]; simp), Bool.not_true, if_neg Bool.false_ne_true, hf, if_neg Bool.false_ne_true]

/-- One readback read in the middle of a frame, of a configuration word of the region that the register source asked for. -/
theorem opReadback_reads (hm : s.mode = .run) (hleft : 2 ≤ s.ld.rbLeft) (hsrc : s.ld.src = 4) (hroom : s.ld.rdata.length < 512)
    (hj : s.ld.rbDone % 128 ≠ 127) (hpast : s.ld.past = false) (hdeckle : inDeckle s (fawSeg s.ld.faw) = true)
    (hcont : isContent (fawSeg s.ld.faw) (fawCol s.ld.faw) (fawMinor s.ld.faw) = false) {w : Word} {un : Bool} {q : List Repair}
    (hr : readbackWord (cfgKey (physOf s (fawSeg s.ld.faw) (fld s.ld.faw 35 34 == 1)) (fawSeg s.ld.faw) (fawCol s.ld.faw) (fawMinor s.ld.faw)
      (s.ld.rbDone % 128)) s = rbGive w un { s with cal := { s.cal with queue := q } }) : opReadback s = readbackGiven s w un q := by
  have hboot : booting s = false := by
    unfold booting
    rw [hm]
    rfl
  unfold opReadback
  rw [if_neg (by omega)]
  dsimp only
  rw [if_neg (by rw [hpast]; simp), if_neg (by rw [hdeckle]; simp), if_neg (by simp [readbackRoom, hroom]), hcont, if_neg Bool.false_ne_true, hboot,
    if_neg Bool.false_ne_true, hr]
  show readbackStep _ (readbackOut w _) = _
  have hout : readbackOut w (rbGive w un { s with cal := { s.cal with queue := q } }).2 = { s with
      ld := { s.ld with rdata := s.ld.rdata ++ [w], unc := un, rbQueued := none, rbFull := false },
      cal := { s.cal with queue := q } } := by
    unfold readbackOut rbGive
    dsimp only
    rw [hsrc]
    rfl
  rw [hout]
  unfold readbackStep
  dsimp only
  rw [if_neg hj]
  exact if_neg (by dsimp only; omega)

/-! ### CAL.CMD (R234) -/

theorem tmrCount_lane (n k : Nat) (g : Bool) (s : State) (m : Nat) : (tmrCount n k g s).lane m = s.lane m := by
  have hforall : (forAll (List.range n) (fun _ s => s.count Reg.calCntTmr 35 0) s).cal.lanes = s.cal.lanes :=
    (forAll_keeps (P := fun v => v.cal.lanes) (f := fun _ s => s.count Reg.calCntTmr 35 0) (Inv := fun _ => True) (fun _ _ _ => trivial) (fun _ _ _ => rfl) (List.range n) s trivial).2
  have hlanes : (tmrCount n k g s).cal.lanes = s.cal.lanes := by
    unfold tmrCount
    split
    · rfl
    · dsimp only
      split
      · exact hforall
      · rw [raise_cal]
        split
        · exact hforall
        · exact hforall
  unfold State.lane
  rw [hlanes]

/-- A lane that starts again. -/
def laneStarted (x : Lane) : Lane :=
  let a : CalCopy := { pass := x.a.vote.pass + 1 }
  let b : CalCopy := { pass := x.b.vote.pass + 1 }
  { x with a := triOf a, b := triOf b, a0 := a, b0 := b, beat := 0, stalled := false, fresh := true }

theorem laneRestart_lane (l : Nat) (s : State) (m : Nat) : (laneRestart l s).lane m = if m = l then laneStarted (s.lane l) else s.lane m := by
  have hvote : ∀ m, (laneVote l s).lane m = if m = l then { s.lane l with a := triOf (s.lane l).a.vote, b := triOf (s.lane l).b.vote } else s.lane m :=
    fun m => (tmrCount_lane ..).trans lane_setLane
  unfold laneRestart
  dsimp only
  refine lane_setLane.trans ?_
  rw [hvote l, hvote m, if_pos rfl, vote_triOf, vote_triOf]
  split <;> rfl

theorem restartAll_lane (hm : m < 65) (s : State) : (forAll (List.range 65) laneRestart s).lane m = laneStarted (s.lane m) := by
  have h := (forAll_range_once (P := fun v : State => v.lane m) (Inv := fun _ => True) (f := laneRestart) (g := laneStarted) (k := m) (m := 65)
    (fun _ _ _ => trivial) (fun j v _ _ hj => (laneRestart_lane j v m).trans (if_neg (Ne.symm hj)))
    (fun _ v _ => (laneRestart_lane m v m).trans (if_pos rfl)) s trivial).2
  exact h.trans (if_pos hm)

theorem laneStarted_even (x : Lane) : (laneStarted x).a.odd = 0 ∧ (laneStarted x).b.odd = 0 := ⟨odd_triOf _, odd_triOf _⟩

theorem restartList_even (ls : List Nat) (hl : ∀ l ∈ ls, l < 65) (h : ∀ l, l < 65 → (s.lane l).a.odd = 0 ∧ (s.lane l).b.odd = 0) :
    (forAll ls laneRestart s).regs = s.regs := by
  unfold forAll
  induction ls generalizing s with
  | nil => rfl
  | cons x ls ih =>
    have hx := h x (hl x (List.mem_cons_self ..))
    refine (ih (fun l hm => hl l (List.mem_cons_of_mem _ hm)) (fun l hm => ?_)).trans ((congrArg State.regs (laneRestart_even hx).1.eq).trans rfl)
    rw [laneRestart_lane]
    split
    · exact laneStarted_even _
    · exact h l hm

/-- Settles O21: each read, repair step and readback of the Calender is the lemma of its case. -/
theorem calenderActs : Obligations.CalenderActs := by
  unfold Obligations.CalenderActs
  refine ⟨fun ls s hidle => ⟨fun ⟨m, hm, he, hh⟩ => ?waits, fun hall => ?passes⟩, fun l c d s hr hh hq ha hb hbeat he hg => ?scrub,
    fun l c d s w hr hh hq ha hb hbeat he hg hgood hshown hrecent => ?mismatch, fun l s h => ⟨?norepair, ?nofetch⟩,
    fun l e s h hw hg hm => ⟨fun v hs hk hf => ?flash, fun v hs hgood => ?shadow⟩,
    fun l e s h hw hg => ⟨fun v hgood hlate => ?clean, fun hbad h3 => ?unclean⟩, fun l e s h hl => ⟨fun hw => ?fetchwaits, fun hw => ?fetches⟩,
    fun l e s h hn => ?timeout, fun s h => ?noread,
    fun s hm hleft hsrc hroom hj hpast hdeckle hcont hq hg => ⟨fun w hgood => ?given, fun hbad hs => ?unc, fun hbad hs hn hf => ?queued⟩,
    fun who v s hlive => ⟨fun h => ?ignored, fun hk h0 => ?restarts⟩⟩
  case waits =>
    have hidle' : ∀ l ∈ ls.map Fin.val, calRuns s l = false ∨ laneHeld s l = true := List.forall_mem_map.2 hidle
    exact congrArg Host.Outcome.next ((opScrub_idle _ hidle').trans (chipPass_waits hm he hh))
  case passes =>
    have hidle' : ∀ l ∈ ls.map Fin.val, calRuns s l = false ∨ laneHeld s l = true := List.forall_mem_map.2 hidle
    exact .of_exec_eq rfl (opScrub_idle _ hidle') (chipPass_out hall)
  case scrub =>
    have hscrubs : LaneScrubs s l.val c d := ⟨l.isLt, hr, hh, hq, ha, hb, he, hg⟩
    have hlanes : ∀ m, ((s.setLane l.val (s.lane l.val)).setLane l.val (scrubNext s l.val c d)).lane m =
        if m = l.val then scrubNext s l.val c d else s.lane m := fun m => lane_setLane.trans (by rw [lane_rewrite])
    refine ⟨fun w hgood => ?_, fun w hcor => ?_, fun hbad hempty => ?_, fun hbad hany hfull => ?_⟩
    · exact .of_exec_eq rfl (hscrubs.moves hbeat (hscrubs.good hgood) rfl) ⟨hlanes, rfl⟩
    · have hrep := wordCorrect_reports 1 (scrubKey s l.val c d) w 0x401 (laneRead0 s l.val)
      refine .of_exec_eq rfl (hscrubs.moves hbeat (hscrubs.corrected hcor) (hrep.held l.val)) ?_
      generalize wordCorrect 1 (scrubKey s l.val c d) w 0x401 (laneRead0 s l.val) = t at hrep ⊢
      have hcell : ∀ k, t.cfgCell k = if k = scrubKey s l.val c d then { data := w } else s.cfgCell k := fun k => by
        unfold State.cfgCell
        rw [hrep.fab]
        exact Store.get_set
      exact ⟨(hcell _).trans (if_pos rfl), fun k hk => (hcell k).trans (if_neg hk), lane_setLane.trans (if_pos rfl), hrep.seq, hrep.mode⟩
    · have hadd := (hscrubs.bad hbad).trans (repairAdd_empty (s := laneRead0 s l.val) hempty)
      exact .of_exec_eq rfl (hscrubs.moves hbeat hadd rfl) ⟨hlanes, rfl⟩
    · have hadd := (hscrubs.bad hbad).trans (repairAdd_full (s := laneRead0 s l.val) hany hfull)
      exact .of_exec rfl (hscrubs.stalls hadd)
  case mismatch =>
    have hcopy : scrubCopy s l.val c d = d := by
      unfold scrubCopy
      rw [hbeat]
      rfl
    have hkey : scrubKey s l.val c d = posKey s l.val d.range.toNat ((d.pos.toNat + 1) % 128) := by
      unfold scrubKey
      rw [hcopy, hbeat]
      rfl
    have hscrubs : LaneScrubs s l.val c d := ⟨l.isLt, hr, hh, hq, ha, hb, he, hkey ▸ hg⟩
    exact .of_exec rfl (hscrubs.mismatch hbeat (hkey ▸ hgood) hshown hrecent)
  case norepair => exact congrArg Host.Outcome.next (opRepair_none h)
  case nofetch => exact congrArg Host.Outcome.next (opRepairTimeout_none h)
  case flash => exact congrArg Host.Outcome.next ((opRepair_flash h hw hs hk hf).trans (congrArg _ (repairWrite_plain hg hm v)))
  case shadow =>
    refine congrArg Host.Outcome.next ((opRepair_shadow h hw hs).trans ?_)
    rw [mirrorFix_good hgood, repairWrite_plain hg hm]
  case clean =>
    have hrep := repairClean_reports e s
    rw [repairDone_eq e hlate] at hrep
    refine .of_exec_eq rfl ((opRepair_rereads h hw).trans (repairReread_clean hg hgood)) ⟨?_, hrep.fab, hrep.seq, hrep.mode⟩
    rw [hrep.cal]
  case unclean => exact congrArg Host.Outcome.next ((opRepair_rereads h hw).trans (repairReread_unclean hg hbad h3))
  case fetchwaits => exact congrArg Host.Outcome.next (opRepairFetch_waits h (.inr hw))
  case fetches =>
    refine congrArg Host.Outcome.next ((opRepairFetch_fetches h hl hw).trans ?_)
    generalize slotFrame (fld (keyIdent s e.key) 34 33) (keySeg e.key) (keyCol e.key) (keyMinor e.key) s = f
    obtain ⟨f1, q⟩ := f
    cases f1 <;> rfl
  case timeout => exact congrArg Host.Outcome.next (opRepairTimeout_fails h hn)
  case noread => exact congrArg Host.Outcome.next (if_pos h)
  case given =>
    refine congrArg Host.Outcome.next (opReadback_reads hm hleft hsrc hroom hj hpast hdeckle hcont ((readbackWord_good hg hq hgood).trans ?_))
    rw [queue_eq hq]
  case unc =>
    refine congrArg Host.Outcome.next (opReadback_reads hm hleft hsrc hroom hj hpast hdeckle hcont ((readbackWord_shadow hg hq hbad hs).trans ?_))
    rw [queue_eq hq]
  case queued =>
    exact congrArg Host.Outcome.next (opReadback_reads hm hleft hsrc hroom hj hpast hdeckle hcont (readbackWord_queues hg hq hbad hs hn hf))
  case ignored =>
    refine congrArg Host.Outcome.next ((gateW_live hlive).trans (if_neg (fun hc => ?_)))
    rcases h with h | h
    · exact h hc.1
    · rw [h] at hc
      exact absurd hc.2 (by decide)
  case restarts =>
    refine .of_exec_eq rfl ((gateW_live hlive).trans (if_pos ⟨hk, h0⟩)) ⟨fun l hl => ?_, fun heven => ?_⟩
    · rw [restartAll_lane hl]
      exact ⟨rfl, rfl, rfl⟩
    · exact restartList_even (s := begin who s) (List.range 65) (fun l hl => List.mem_range.1 hl) heven

end Sys2Proof.Machine
end

section
/-! O22: the Rhorax engine's slots (R245, R246, R249, R250, R255, R271, R272). -/

namespace Sys2Proof.Machine

variable {s t u : State} {o p : Op} {id : Nat}

/-! ### Operations in their slots -/

theorem opAt_setOp (h : (s.opAt o.id).isSome = true) : (setOp o s).opAt o.id = some o := by
  have key : ∀ l : List Op, (l.find? (fun q => q.id == o.id)).isSome = true →
      (l.map (fun q => if q.id = o.id then o else q)).find? (fun q => q.id == o.id) = some o := by
    intro l
    induction l with
    | nil => exact fun h => absurd h (by simp)
    | cons q l ih =>
      intro hl
      by_cases hq : q.id = o.id
      · rw [List.map_cons, if_pos hq, List.find?_cons_of_pos (by simp)]
      · rw [List.map_cons, if_neg hq, List.find?_cons_of_neg (by simpa using hq)]
        rw [List.find?_cons_of_neg (by simpa using hq)] at hl
        exact ih hl
  exact key _ h

/-- An operation that ends stands in its slot with its status and its response (R272). -/
theorem opAt_opEnd (h : (s.opAt o.id).isSome = true) (r : Res) :
    (opEnd o r s).opAt o.id = some { o with phase := .done, status := BitVec.ofNat 6 r.st, rsp := resQuad s o.req r } :=
  opAt_setOp (o := { o with phase := .done, status := BitVec.ofNat 6 r.st, rsp := resQuad s o.req r }) h

theorem opRun_atWork {op : Nat} (h : AtWork id op o s) (f : Op → State → State) : opRun id op f s = f o s := by
  obtain ⟨hat, hadm, hop, hruns⟩ := h
  unfold opRun
  rw [hat]
  exact if_pos ⟨hruns, hadm, hop⟩

/-- AGE_SCAN in a slot: the sweep moves as FN says, and the operation ends with where it stands (R271). -/
theorem opAge_atWork {fn : Nat} {who : Req} (h : AtWork id 9 o s) (hf : fld o.req.w0 3 0 = fn) : opAge (some id) who fn s =
    opEnd o { d0 := wd (ageFn fn s).eng.sweep.pos, d1 := wd (ageFn fn s).eng.sweep.done } (ageFn fn s) := by
  subst hf
  exact (opRun_atWork h (fun p v => if fld p.req.w0 3 0 = fld o.req.w0 3 0 then runAge p v else v)).trans (if_pos rfl)

/-! ### Slots that become free -/

/-- Slots may move in the engine; the responses stay, and so does the rest of the state. -/
structure SlotsOnly (s t : State) : Prop where
  eng : EngOnly s t
  out : t.eng.out = s.eng.out
  rspQ : t.eng.rspQ = s.eng.rspQ

theorem SlotsOnly.refl (s : State) : SlotsOnly s s := ⟨rfl, rfl, rfl⟩

theorem SlotsOnly.trans (h : SlotsOnly s t) (k : SlotsOnly t u) : SlotsOnly s u := ⟨h.eng.trans k.eng, k.out.trans h.out, k.rspQ.trans h.rspQ⟩

theorem forAll_slotsOnly {α : Type} (l : List α) (f : α → State → State) (h : ∀ x s, SlotsOnly s (f x s)) (s : State) : SlotsOnly s (forAll l f s) := by
  unfold forAll
  induction l generalizing s with
  | nil => exact .refl s
  | cons x l ih => exact (h x s).trans (ih _)

theorem setHeld_slotsOnly (r n : Nat) (s : State) : SlotsOnly s (setHeld r n s) := ⟨rfl, rfl, rfl⟩

theorem waitTake_slotsOnly (s : State) : SlotsOnly s (waitTake s) := by
  unfold waitTake
  split
  · split
    · exact .refl s
    · exact ⟨(setWait_engOnly _ _).trans (meshTake_engOnly _ _ _ _ _), rfl, rfl⟩
  · exact .refl s

theorem slotFreed_slotsOnly (s : State) : SlotsOnly s (slotFreed s) := by
  have hbal : SlotsOnly s (rebalance s) :=
    (forAll_slotsOnly _ _ (fun r s => setHeld_slotsOnly r _ s) s).trans (forAll_slotsOnly _ _ (fun r s => setHeld_slotsOnly r _ s) _)
  exact hbal.trans (forAll_slotsOnly _ _ (fun _ => waitTake_slotsOnly) _)

theorem SlotsOnly.queue (h : SlotsOnly s t) (k : Nat) : t.rspQ k = s.rspQ k := by
  unfold State.rspQ
  rw [h.rspQ]

theorem SlotsOnly.field (h : SlotsOnly s t) (a hi lo : Nat) : t.getF a hi lo = s.getF a hi lo := congrArg (fld · hi lo) (h.eng.reg a)

theorem rspQ_setRspQ {k : Nat} {l : List Quad} : (s.setRspQ k l).rspQ k = l := Store.get_set_same

/-! ### The engine ports -/

theorem opPortRequest_unready {k : Fin 8} (q : Quad) (h : portReady s k.val = false) : opPortRequest k q s = s := by
  unfold opPortRequest
  split
  · exact if_neg (by rw [h]; decide)
  · rfl

theorem opPortRequest_accepts {k : Fin 8} {q : Quad} {n : Nat} (h : portReady s k.val = true) (hn : hostOf s 0 k.val = some n)
    (ht : tagBusy s k.val (reqTag q) = false) :
    opPortRequest k q s = opAccept { id := 0, rq := ⟨k.val, by omega⟩, who := BitVec.ofNat 8 (0x40 + n), req := q } s := by
  unfold opPortRequest
  rw [hn]
  exact (if_pos h).trans (if_neg (by rw [ht]; decide))

theorem portTake_empty {k : Nat} (h : s.rspQ k = []) : portTake k s = s := by
  unfold portTake
  rw [h]

theorem portTake_takes {k : Nat} {q : Quad} {rest : List Quad} (h : s.rspQ k = q :: rest) (hc : portClocked s 0 k = true) :
    portTake k s = slotFreed { s.setRspQ k rest with eng := { (s.setRspQ k rest).eng with out := q } } := by
  unfold portTake
  rw [h]
  exact if_pos hc

/-! ### Admission (R250, R269, R273) -/

/-- The operation that is admitted next, with its number in the order of admission. -/
def admitted (s : State) (o : Op) : Op := { o with adm := s.eng.nextId }

/-- The round robin and the order of admission move on. -/
def admitNoted (s : State) (o : Op) : State := { s with eng := { s.eng with rr := o.rq, nextId := s.eng.nextId + 1 } }

/-- The state in which its admission is decided. -/
def admitState (s : State) (o : Op) : State := setOp (admitted s o) (admitNoted s o)

theorem admitState_has (h : (s.opAt o.id).isSome = true) : ((admitState s o).opAt (admitted s o).id).isSome = true := by
  unfold admitState
  rw [opAt_setOp (o := admitted s o) (s := admitNoted s o) h]
  rfl

theorem opAdmission_none (h : engRuns s = false ∨ nextAdmit s = none) : opAdmission s = s := by
  unfold opAdmission
  rcases h with h | h
  · exact if_pos (by rw [h]; decide)
  · rw [h]
    exact ite_self _

theorem opAdmission_one (h : engRuns s = true) (hn : nextAdmit s = some o) : opAdmission s = opBegin (admitted s o) (admitState s o) := by
  unfold opAdmission
  rw [if_neg (not_not.2 h), hn]
  rfl

theorem opBegin_bad (h : opBad s o = true) : opBegin o s = opEnd o { st := stBadReq } s := if_pos h

/-- A keyed operation of this node that names no context waits in its slot, admitted. -/
theorem opBegin_keyed (hb : opBad s o = false) (hr : opRemote s o = false) (hop : reqOp o.req = 1 ∨ reqOp o.req = 3 ∨ reqOp o.req = 7) :
    opBegin o s = setOp { o with phase := .admitted } s := by
  have hix : opIndex o = none := by
    unfold opIndex
    rcases hop with h | h | h <;> rw [h] <;> rfl
  unfold opBegin
  rw [if_neg (by rw [hb]; decide), if_neg (fun h => by rcases hop with h' | h' | h' <;> rw [h'] at h <;> exact absurd h.1 (by decide)),
    if_neg (by rw [hr]; decide), hix]

/-! ### Completion (R249, R252) -/

/-- The counters that a completion moves hold nothing of a region. -/
theorem rhxCnt_apart (i n : Nat) (h : i < 16) : Reg.rgnStatus n ≠ Reg.rhxCnt i := by
  simp only [Reg.rgnStatus, Reg.rhxCnt]
  omega

theorem opCount_out (o : Op) (s : State) : (opCount o s).getF (Reg.rhxCnt 0) 35 0 = satInc (s.getF (Reg.rhxCnt 0) 35 0) (2 ^ 36 - 1) ∧
    (∀ n, (opCount o s).reg (Reg.rgnStatus n) = s.reg (Reg.rgnStatus n)) ∧ (opCount o s).eng = s.eng := by
  have hone : ∀ (c : Prop) [Decidable c] (i : Nat), 0 < i → i < 16 → ∀ v : State,
      (if c then v.count (Reg.rhxCnt i) 35 0 else v).getF (Reg.rhxCnt 0) 35 0 = v.getF (Reg.rhxCnt 0) 35 0 ∧
      (∀ n, (if c then v.count (Reg.rhxCnt i) 35 0 else v).reg (Reg.rgnStatus n) = v.reg (Reg.rgnStatus n)) ∧
      (if c then v.count (Reg.rhxCnt i) 35 0 else v).eng = v.eng := by
    intro c _ i hi h16 v
    split
    · exact ⟨getF_setF_other (by simp only [Reg.rhxCnt]; omega), fun n => reg_count_other (rhxCnt_apart i n h16), rfl⟩
    · exact ⟨rfl, fun _ => rfl, rfl⟩
  unfold opCount
  obtain ⟨hf6, hr6, he6⟩ := hone (o.status.toNat = stProgErr) 6 (by decide) (by decide)
    (if o.status.toNat = stTimeout then (s.count (Reg.rhxCnt 0) 35 0).count (Reg.rhxCnt 5) 35 0 else s.count (Reg.rhxCnt 0) 35 0)
  obtain ⟨hf5, hr5, he5⟩ := hone (o.status.toNat = stTimeout) 5 (by decide) (by decide) (s.count (Reg.rhxCnt 0) 35 0)
  exact ⟨(hf6.trans hf5).trans (getF_count_same (by decide)), fun n => ((hr6 n).trans (hr5 n)).trans (reg_count_other (rhxCnt_apart 0 n (by decide))),
    he6.trans he5⟩

theorem hostDown_of (h : ∀ n, t.reg (Reg.rgnStatus n) = s.reg (Reg.rgnStatus n)) (he : t.eng.hosts = s.eng.hosts) (k : Nat) : hostDown t k = hostDown s k := by
  have hbit : ∀ n i, t.getB (Reg.rgnStatus n) i = s.getB (Reg.rgnStatus n) i := fun n i => by rw [getB_eq, getB_eq, h]
  have hhost : hostOf t 0 k = hostOf s 0 k := by
    unfold hostOf
    rw [he]
  unfold hostDown
  rw [hhost]
  cases hostOf s 0 k with
  | none => rfl
  | some n => simp only [hbit]

theorem opDeliver_port (hk : o.kins = false) (hd : o.drop = false) (h8 : o.rq.val ≠ 8) (hh : hostDown s o.rq.val = false) :
    opDeliver o s = s.setRspQ o.rq.val (s.rspQ o.rq.val ++ [o.rsp]) := by
  unfold opDeliver
  rw [hk, hd, if_neg Bool.false_ne_true, if_neg Bool.false_ne_true, if_neg (show ¬ o.rq.val = rqMeshNo from h8), hh, if_neg Bool.false_ne_true]

/-- The state without the slot of an operation that has completed. -/
def slotGone (id : Nat) (s : State) : State := { s with eng := { s.eng with slots := s.eng.slots.filter (fun p => p.id != id) } }

theorem opComplete_completes (hat : s.opAt id = some o) (hp : o.phase = .done) (hf : opFirst s o = true) (hm : s.mode = .run) :
    opComplete id s = slotFreed (opDeliver o (opCount o (slotGone id s))) := by
  unfold opComplete
  rw [hat]
  exact if_pos ⟨hp, hf, hm⟩

/-- Settles O22: each step of a slot is the lemma of its case. -/
theorem engineQueue : Obligations.EngineQueue := by
  unfold Obligations.EngineQueue
  refine ⟨fun o r s h => ⟨_, opAt_opEnd h r, rfl, rfl, rfl, rfl⟩, fun k q s h => congrArg Host.Outcome.next (opPortRequest_unready q h),
    fun k q n s h hn ht => .of_exec_eq rfl (opPortRequest_accepts h hn ht) ⟨_, rfl, rfl, rfl, rfl, rfl, rfl, rfl⟩,
    fun k q rest s h hc => ?taken, fun k s h => congrArg Host.Outcome.next (portTake_empty h),
    fun s h => congrArg Host.Outcome.next (opAdmission_none h), fun o s hr hn hat hb hrem hop => ?admits, fun o s hr hn hat hb => ?refuses,
    fun id o s h => congrArg Host.Outcome.next (opRun_atWork h runFence), fun id o who s h => ⟨fun hf => ?report, fun hf => ?start, fun hf => ?pause, fun hf => ?resume⟩,
    fun who s hlive => ⟨congrArg Host.Outcome.next (gateW_live hlive), congrArg Host.Outcome.next (gateW_live hlive),
      congrArg Host.Outcome.next (gateW_live hlive), congrArg Host.Outcome.next (gateW_live hlive)⟩,
    fun id o s hm hat hp hf hk hd h8 hh => ?complete, fun id o s hat hp => ?timeout, fun s => ⟨fun h => ?nolate, fun k rest h => ?late⟩⟩
  case taken =>
    have hfree := slotFreed_slotsOnly { s.setRspQ k.val rest with eng := { (s.setRspQ k.val rest).eng with out := q } }
    exact .of_exec_eq rfl (portTake_takes h hc) ⟨hfree.out, (hfree.queue _).trans (rspQ_setRspQ (s := s)), hfree.eng⟩
  case admits =>
    have hbegin : opBegin (admitted s o) (admitState s o) = setOp { admitted s o with phase := .admitted } (admitState s o) := opBegin_keyed hb hrem hop
    exact .of_exec_eq rfl ((opAdmission_one hr hn).trans hbegin)
      ⟨⟨_, opAt_setOp (o := { admitted s o with phase := .admitted }) (admitState_has hat), rfl, rfl, rfl⟩, rfl, rfl⟩
  case refuses =>
    have hbegin : opBegin (admitted s o) (admitState s o) = opEnd (admitted s o) { st := stBadReq } (admitState s o) := opBegin_bad hb
    exact .of_exec_eq rfl ((opAdmission_one hr hn).trans hbegin) ⟨⟨_, opAt_opEnd (o := admitted s o) (admitState_has hat) _, rfl, rfl⟩, rfl⟩
  case report => exact congrArg Host.Outcome.next (opAge_atWork h hf)
  case start => exact .of_exec_eq rfl (opAge_atWork h hf) ⟨rfl, rfl, rfl⟩
  case pause => exact .of_exec_eq rfl (opAge_atWork h hf) rfl
  case resume => exact .of_exec_eq rfl (opAge_atWork h hf) rfl
  case complete =>
    obtain ⟨hcnt, hst, heng⟩ := opCount_out o (slotGone id s)
    have hdown : hostDown (opCount o (slotGone id s)) o.rq.val = false := (hostDown_of (s := s) hst (by rw [heng]; rfl) _).trans hh
    have hq : (opCount o (slotGone id s)).rspQ o.rq.val = s.rspQ o.rq.val := by
      unfold State.rspQ
      rw [heng]
      rfl
    refine .of_exec_eq rfl ((opComplete_completes hat hp hf hm).trans (congrArg slotFreed (opDeliver_port hk hd h8 hdown))) ?_
    have hfree := slotFreed_slotsOnly ((opCount o (slotGone id s)).setRspQ o.rq.val ((opCount o (slotGone id s)).rspQ o.rq.val ++ [o.rsp]))
    rw [hq] at hfree ⊢
    exact ⟨(hfree.queue _).trans rspQ_setRspQ, (hfree.field _ _ _).trans hcnt⟩
  case timeout =>
    refine congrArg Host.Outcome.next ?_
    show opTimeout id s = _
    unfold opTimeout
    rw [hat]
    exact if_pos hp
  case nolate =>
    refine congrArg Host.Outcome.next ?_
    show lateDiscard s = _
    unfold lateDiscard
    rw [h]
  case late =>
    refine congrArg Host.Outcome.next ?_
    show lateDiscard s = _
    unfold lateDiscard
    rw [h]

end Sys2Proof.Machine
end

section
/-! O24: FAULT, the loss report and the registers of RHX (R248, R282, R285, R288, R289). -/

namespace Sys2Proof.Machine

variable {s t u : State} {v : Word} {who : Req}

/-! ### A vote failure and the loss report -/

theorem engEvent_room (h : s.eng.evBuf.length < 64) (code : Code) (src : Req) (d : Nat) :
    engEvent code src d s = { s with eng := { s.eng with evBuf := s.eng.evBuf ++ [(code, src, wd d)] } } := if_pos h

theorem engEvent_reg (code : Code) (src : Req) (d : Nat) {a : Nat} (h : a ≠ Reg.rhxCnt 7) (s : State) : (engEvent code src d s).reg a = s.reg a := by
  unfold engEvent
  split
  · rfl
  · exact reg_count_other h

/-- Operations that end in their slots move no event and no register. -/
structure SlotsEnd (s t : State) : Prop where
  eng : EngOnly s t
  evBuf : t.eng.evBuf = s.eng.evBuf

theorem SlotsEnd.refl (s : State) : SlotsEnd s s := ⟨rfl, rfl⟩

theorem SlotsEnd.trans (h : SlotsEnd s t) (k : SlotsEnd t u) : SlotsEnd s u := ⟨h.eng.trans k.eng, k.evBuf.trans h.evBuf⟩

theorem opEnd_slotsEnd (o : Op) (r : Res) (s : State) : SlotsEnd s (opEnd o r s) := ⟨rfl, rfl⟩

theorem opsEnd_slotsEnd (l : List Op) (f : Op → State → Nat) (s : State) :
    SlotsEnd s (forAll l (fun o s => if o.phase = .done then s else opEnd o { st := f o s } s) s) := by
  unfold forAll
  induction l generalizing s with
  | nil => exact .refl s
  | cons o l ih =>
    refine SlotsEnd.trans ?_ (ih _)
    dsimp only
    split
    · exact .refl s
    · exact opEnd_slotsEnd ..

/-- The waiting MESH requests are answered, and none waits (R288). -/
theorem waitOff_out (s : State) : (waitOff s).eng = { s.eng with waitQ := [] } ∧ (∀ a, a ∉ evtRegs → a ≠ Reg.mshCntDrop → (waitOff s).reg a = s.reg a) := by
  have h : MeshOut { s with eng := { s.eng with waitQ := [] } } (waitOff s) := by
    unfold waitOff
    exact forAll_meshOut _ _ (fun _ _ => meshSend_meshOut ..) _
  exact ⟨h.eng, h.regs⟩

/-- The engine in FAULT, with the copies named and E509 in its buffer. -/
def voteFailed (c : Nat) (s : State) : State := engEvent 0x509 rqEvt c ((fnFaultNow .rhx s).setF Reg.rhxStatus 29 26 c)

/-- Its operations end. -/
def voteEnded (s : State) : State :=
  forAll s.eng.slots (fun o s => if o.phase = .done then s else opEnd o { st := if opBad s o then stBadReq else stEngFault } s) s

theorem opVoteFail_off (h : s.fn .rhx = fnOff ∨ s.fn .rhx = fnFault) (credit : Bool) : opVoteFail credit s = s := if_pos h

theorem opVoteFail_on (h : s.fn .rhx = fnOn) (credit : Bool) : opVoteFail credit s = waitOff (voteEnded (voteFailed (if credit then 2 else 1) s)) :=
  if_neg (by rw [h]; decide)

theorem opVoteFail_out (h : s.fn .rhx = fnOn) (credit : Bool) : (opVoteFail credit s).fn .rhx = fnFault ∧
    (opVoteFail credit s).getF Reg.rhxStatus 29 26 = (if credit then 2 else 1) ∧ (opVoteFail credit s).eng.waitQ = [] ∧
    (s.eng.evBuf.length < 64 → (opVoteFail credit s).eng.evBuf = s.eng.evBuf ++ [(0x509, rqEvt, wd (if credit then 2 else 1))]) := by
  rw [opVoteFail_on h]
  generalize hc : (if credit then 2 else 1 : Nat) = c
  have hlt : c < 16 := by rw [← hc]; cases credit <;> decide
  obtain ⟨hoff, hregs⟩ := waitOff_out (voteEnded (voteFailed c s))
  have hend : SlotsEnd (voteFailed c s) (voteEnded (voteFailed c s)) := opsEnd_slotsEnd _ _ _
  have hnow : fnFaultNow .rhx s = s.setFn .rhx fnFault := if_pos (.inr h)
  have hreg : (waitOff (voteEnded (voteFailed c s))).reg Reg.rhxStatus = ((s.setFn .rhx fnFault).setF Reg.rhxStatus 29 26 c).reg Reg.rhxStatus := by
    refine (hregs _ (by decide) (by decide)).trans ((hend.eng.reg _).trans ?_)
    unfold voteFailed
    rw [hnow]
    exact engEvent_reg _ _ _ (by decide) _
  refine ⟨?_, ?_, ?_, fun hroom => ?_⟩
  · exact (congrArg (fld · 2 0) hreg).trans ((getF_setF_field (by decide) (.inl (by decide))).trans ((getF_setF_same (by decide)).trans (by decide)))
  · exact (congrArg (fld · 29 26) hreg).trans ((getF_setF_same (by decide)).trans (Nat.mod_eq_of_lt hlt))
  · rw [hoff]
  · rw [hoff]
    refine hend.evBuf.trans ?_
    unfold voteFailed
    rw [hnow, engEvent_room (by exact hroom)]
    rfl

/-! ### Allocations (R248) -/

theorem opAlloc_takes {n : Nat} (h1 : fld v 8 0 ≤ allocLimit n) (h2 : (((List.range 10).filter (· ≠ n)).map (rqAlloc s)).sum + fld v 8 0 ≤ 512) :
    opAlloc n who v s = slotFreed (s.setF (Reg.rhxAlloc n) 8 0 (fld v 8 0)) := if_pos ⟨h1, h2⟩

theorem opAlloc_refuses {n : Nat} (h : allocLimit n < fld v 8 0 ∨ 512 < (((List.range 10).filter (· ≠ n)).map (rqAlloc s)).sum + fld v 8 0) :
    opAlloc n who v s = engEvent 0x507 who ((decide (fld v 8 0 ≤ allocLimit n)).toNat <<< 13 ||| fld v 8 0 <<< 4 ||| n) (s.setB Reg.rhxAllocStatus 10 true) :=
  if_neg (fun hc => h.elim (fun h => absurd hc.1 (Nat.not_le.2 h)) (fun h => absurd hc.2 (Nat.not_le.2 h)))

theorem opAlloc_refused {n : Nat} (h : allocLimit n < fld v 8 0 ∨ 512 < (((List.range 10).filter (· ≠ n)).map (rqAlloc s)).sum + fld v 8 0)
    (hroom : s.eng.evBuf.length < 64) : opAlloc n who v s = { s.setB Reg.rhxAllocStatus 10 true with eng := { s.eng with evBuf := s.eng.evBuf ++
      [((0x507 : Code), who, wd ((decide (fld v 8 0 ≤ allocLimit n)).toNat <<< 13 ||| fld v 8 0 <<< 4 ||| n))] } } := by
  rw [opAlloc_refuses h, engEvent_room]
  · rfl
  · exact hroom

/-! ### WC_CMD and KINS_CTL -/

theorem bit_setFld (i : Nat) {x : Nat} (h : i < 36) : (setFld v 34 34 x).getLsbD i = if i = 34 then x.testBit 0 else v.getLsbD i := by
  rw [← BitVec.testBit_toNat, setFld_testBit (by decide), BitVec.testBit_toNat]
  by_cases hi : i = 34
  · subst hi; rfl
  · rw [if_neg (by omega), if_neg hi]

theorem fld_setFld34 {hi lo : Nat} (x : Nat) (h : hi < 34) : fld (setFld v 34 34 x) hi lo = fld v hi lo := fld_setFld_other (by decide) (.inl h)

theorem opWcCmd_idle (h : v.getLsbD 35 = false) (s : State) : opWcCmd v s = s := if_pos (by rw [h]; rfl)

theorem opWcCmd_busy (h : v.getLsbD 35 = true) (hb : s.getB Reg.rhxWcStatus 0 = true) : opWcCmd v s = s.setB Reg.rhxWcStatus 1 true := by
  unfold opWcCmd
  rw [h, if_neg (by decide), if_pos hb]

theorem opWcCmd_writes (h : v.getLsbD 35 = true) (hb : s.getB Reg.rhxWcStatus 0 = false) (h34 : v.getLsbD 34 = false) :
    opWcCmd v s = engPuts .wildcard (wcIx (fld v 12 0)) ((List.range 7).map (fun k => s.reg (Reg.rhxWcData k))) (s.setB Reg.rhxWcStatus 0 true) := by
  have hdata : (List.range 7).map (fun k => (s.setB Reg.rhxWcStatus 0 true).reg (Reg.rhxWcData k)) = (List.range 7).map (fun k => s.reg (Reg.rhxWcData k)) :=
    List.map_congr_left (fun k hk => reg_setB_other (by
      have := List.mem_range.1 hk
      simp only [Reg.rhxWcData, Reg.rhxWcStatus]
      omega))
  unfold opWcCmd
  rw [h, if_neg (by decide), hb, if_neg (by decide)]
  dsimp only
  rw [h34, if_neg (by decide), hdata]

theorem opWcCmd_reads (h : v.getLsbD 35 = true) (hb : s.getB Reg.rhxWcStatus 0 = false) (h34 : v.getLsbD 34 = true)
    (hc : wcCheck (fld v 12 0) (s.setB Reg.rhxWcStatus 0 true) = s.setB Reg.rhxWcStatus 0 true) :
    opWcCmd v s = forAll (wcGet s (fld v 12 0)).zipIdx (fun w s => s.setReg (Reg.rhxWcData w.2) w.1) (s.setB Reg.rhxWcStatus 0 true) := by
  unfold opWcCmd
  rw [h, if_neg (by decide), hb, if_neg (by decide)]
  dsimp only
  rw [h34, if_pos rfl, hc]
  rfl

theorem opKins_idle (h : v.getLsbD 35 = false) (s : State) : opKins who v s = s := if_pos (by rw [h]; rfl)

theorem opKins_refused (h : v.getLsbD 35 = true) (hc : s.getB Reg.rhxKinsStatus 7 = true ∨ engOn s = false) :
    opKins who v s = s.setB Reg.rhxKinsStatus 8 true := by
  unfold opKins
  rw [h, if_neg (by decide)]
  exact if_pos (hc.elim .inl (fun hoff => .inr (.inr (by rw [hoff]; rfl))))

/-- The operation that KINS_CTL makes of the staged key. -/
def kinsOp (who : Req) (v : Word) (s : State) : Op :=
  let del := v.getLsbD 34
  let w0 := wd ((if del then 3 else 2) <<< 32 ||| fld v 27 24 <<< 22 ||| (if del then 0 else fld v 33 33 <<< 10) ||| ownNode s)
  { id := 0, rq := 9, who := who, req := ⟨w0, s.reg (Reg.rhxKinsKey 0), s.reg (Reg.rhxKinsKey 1), wd (if del then 0 else fld v 19 0)⟩, kins := true,
    key2 := s.reg (Reg.rhxKinsKey 2) }

theorem kinsOp_code (who : Req) (v : Word) (s : State) : reqOp (kinsOp who v s).req = if v.getLsbD 34 then 3 else 2 := by
  have hop : ∀ op cls k n : Nat, op < 16 → cls < 16 → k < 2 → n < 1024 → fld (wd (op <<< 32 ||| cls <<< 22 ||| k <<< 10 ||| n)) 35 32 = op := by
    intro op cls k n ho hc hk hn
    have hlow : cls <<< 22 ||| (k <<< 10 ||| n) < 2 ^ 32 := by
      refine Nat.or_lt_two_pow ?_ (Nat.or_lt_two_pow ?_ ?_)
      · rw [Nat.shiftLeft_eq]; omega
      · rw [Nat.shiftLeft_eq]; omega
      · omega
    have hsum : op <<< 32 ||| cls <<< 22 ||| k <<< 10 ||| n = op * 2 ^ 32 + (cls <<< 22 ||| (k <<< 10 ||| n)) := by
      rw [Nat.or_assoc, Nat.or_assoc, ← Nat.shiftLeft_add_eq_or_of_lt hlow, Nat.shiftLeft_eq]
    rw [hsum]
    generalize cls <<< 22 ||| (k <<< 10 ||| n) = r at hlow
    unfold fld wd
    rw [BitVec.toNat_ofNat, Nat.shiftRight_eq_div_pow]
    omega
  have hcls : fld v 27 24 < 16 := fld_lt v
  have hbit : fld v 33 33 < 2 := fld_lt v
  have hnode : ownNode s < 1024 := by
    unfold ownNode
    split
    · exact fld_lt _
    · decide
  unfold kinsOp reqOp
  cases v.getLsbD 34
  · exact hop 2 _ _ _ (by decide) hcls hbit hnode
  · exact hop 3 _ 0 _ (by decide) hcls (by decide) hnode

theorem opKins_starts (h : v.getLsbD 35 = true) (h7 : s.getB Reg.rhxKinsStatus 7 = false) (hc : rqCredits s 9 ≠ 0) (hon : engOn s = true) :
    ∃ o, (opKins who v s).eng.slots = s.eng.slots ++ [o] ∧ (opKins who v s).getB Reg.rhxKinsStatus 7 = true ∧ o.kins = true ∧
      reqOp o.req = (if v.getLsbD 34 then 3 else 2) ∧ o.req.w1 = s.reg (Reg.rhxKinsKey 0) ∧ o.req.w2 = s.reg (Reg.rhxKinsKey 1) ∧
      o.key2 = s.reg (Reg.rhxKinsKey 2) := by
  have hop : opKins who v s = opAccept (kinsOp who v s) (s.setB Reg.rhxKinsStatus 7 true) := by
    unfold opKins
    rw [h, if_neg (by decide)]
    exact if_neg (by rw [h7, hon]; simpa using (show ¬ rqCredits s rqCmdNo = 0 from hc))
  rw [hop]
  exact ⟨_, rfl, getB_setB_same (s := s) (by decide), rfl, kinsOp_code who v s, rfl, rfl, rfl⟩

/-! ### The command window -/

/-- The staging of a master with its third word written. -/
def staged3 (who : Req) (v : Word) (s : State) : Quad := { Store.get (fun _ => (⟨0, 0, 0, 0⟩ : Quad)) s.eng.stage who.toNat with w3 := v }

def stageState (who : Req) (v : Word) (s : State) : State :=
  { s with eng := { s.eng with stage := Store.set (fun _ => ⟨0, 0, 0, 0⟩) s.eng.stage who.toNat (staged3 who v s) } }

theorem opCmdReq_three (who : Req) (v : Word) (s : State) : opCmdReq 3 who v s = if engOn s ∧ rqCredits s rqCmdNo ≠ 0 then
    opOffer 9 who (staged3 who v s) (stageState who v s) else (stageState who v s).setB Reg.rhxCmdStatus 16 true := by
  unfold opCmdReq
  dsimp only
  rw [if_neg (by decide : ¬ (3 : Nat) ≠ 3)]
  rfl

theorem opCmdReq_off (h : engOn s = false) : opCmdReq 3 who v s = (stageState who v s).setB Reg.rhxCmdStatus 16 true :=
  (opCmdReq_three who v s).trans (if_neg (by rw [h]; exact fun hc => absurd hc.1 (by decide)))

theorem opCmdReq_submits (h : engOn s = true) (hc : rqCredits s 9 ≠ 0) : opCmdReq 3 who v s = opOffer 9 who (staged3 who v s) (stageState who v s) :=
  (opCmdReq_three who v s).trans (if_pos ⟨h, hc⟩)

theorem opOffer_accepts {rq : Fin 10} {q : Quad} (h : tagBusy s rq.val (reqTag q) = false) : opOffer rq who q s = opAccept { id := 0, rq := rq, who := who, req := q } s :=
  if_neg (by rw [h]; decide)

theorem opCmdPop_keeps {peek : Bool} (h : peek = true ∨ s.rspQ 9 = []) : opCmdPop peek s = answer (cmdRspWord s 3) s := by
  refine if_pos (h.imp id (fun h => ?_))
  show (s.rspQ 9).isEmpty = true
  rw [h]
  rfl

theorem opCmdPop_pops {q : Quad} {rest : List Quad} (h : s.rspQ 9 = q :: rest) :
    opCmdPop false s = slotFreed ((answer (cmdRspWord s 3) s).setRspQ 9 rest) := by
  have hpop : opCmdPop false s = slotFreed ((answer (cmdRspWord s 3) s).setRspQ 9 ((s.rspQ 9).drop 1)) := by
    refine if_neg (fun hc => hc.elim (by decide) (fun hc => ?_))
    have hc' : (s.rspQ 9).isEmpty = true := hc
    rw [h] at hc'
    exact absurd hc' Bool.false_ne_true
  rw [hpop, h]
  rfl

theorem cmdRspWord_of {q : Quad} {rest : List Quad} (h : s.rspQ 9 = q :: rest) : cmdRspWord s 3 = q.w3 := by
  show (match s.rspQ 9 with
    | [] => 0
    | q :: _ => q.w3) = q.w3
  rw [h]

/-- Settles O24: each register and event of the engine is the lemma of its case. -/
theorem engineRegisters : Obligations.EngineRegisters := by
  unfold Obligations.EngineRegisters
  refine ⟨fun credit s => ⟨fun h => congrArg Host.Outcome.next (opVoteFail_off h credit), fun h => .of_exec rfl (opVoteFail_out h credit)⟩,
    fun s => ⟨fun h => congrArg Host.Outcome.next (if_pos h), fun hl hroom => ?loss⟩,
    fun who n v s hlive => ⟨fun h1 h2 => ?alloc, fun h hroom => ?refused⟩, fun who v s hlive => congrArg Host.Outcome.next (gateW_live hlive),
    fun who v s hlive => ⟨fun h => ⟨?wcIdle, ?wcIdleRead⟩, fun h hb => ⟨?wcBusy, ?wcBusyRead⟩, fun h hb => ?wcWrites, fun h hb hc => ?wcReads⟩,
    fun who v s hlive => ⟨fun h => ⟨?kinsIdle, ?kinsIdleDel⟩, fun h hc => ⟨?kinsRefused, ?kinsRefusedDel⟩, fun h h7 hc hon => ⟨?kinsInsert, ?kinsDelete⟩⟩,
    fun who v s hlive => ⟨fun hoff => ?cmdOff, fun hon hc ht => ?cmdSubmits⟩,
    fun who s hlive => ⟨fun he p => ?popEmpty, fun q rest p hq => ⟨fun hp => ?popPeeks, fun hp => ?pops⟩⟩⟩
  case loss =>
    refine congrArg Host.Outcome.next ((if_neg (fun hc => hc.elim hl (fun hc => absurd hroom (Nat.not_lt.2 hc)))).trans ?_)
    exact engEvent_room (s := { s with eng := { s.eng with evLost := 0 } }) hroom _ _ _
  case alloc =>
    have hfree := slotFreed_slotsOnly ((begin who s).setF (Reg.rhxAlloc n.val) 8 0 (fld v 8 0))
    refine .of_exec_eq rfl ((gateW_live hlive).trans (opAlloc_takes h1 h2)) ⟨?_, fun a ha => ?_⟩
    · exact (hfree.field _ _ _).trans ((getF_setF_same (by decide)).trans (Nat.mod_eq_of_lt (fld_lt v)))
    · exact (hfree.eng.reg a).trans (reg_setF_other (s := begin who s) (by simpa using ha))
  case refused =>
    exact congrArg Host.Outcome.next ((gateW_live hlive).trans (opAlloc_refused (s := begin who s) h hroom))
  case wcIdle => exact congrArg Host.Outcome.next ((gateW_live hlive).trans (opWcCmd_idle ((bit_setFld 35 (by decide)).trans h) _))
  case wcIdleRead => exact congrArg Host.Outcome.next ((gateW_live hlive).trans (opWcCmd_idle ((bit_setFld 35 (by decide)).trans h) _))
  case wcBusy => exact congrArg Host.Outcome.next ((gateW_live hlive).trans (opWcCmd_busy (s := begin who s) ((bit_setFld 35 (by decide)).trans h) hb))
  case wcBusyRead => exact congrArg Host.Outcome.next ((gateW_live hlive).trans (opWcCmd_busy (s := begin who s) ((bit_setFld 35 (by decide)).trans h) hb))
  case wcWrites =>
    have hw := opWcCmd_writes (v := setFld v 34 34 0) (s := begin who s) ((bit_setFld 35 (by decide)).trans h) hb (bit_setFld 34 (by decide))
    rw [fld_setFld34 0 (by decide)] at hw
    exact congrArg Host.Outcome.next ((gateW_live hlive).trans hw)
  case wcReads =>
    have hr := opWcCmd_reads (v := setFld v 34 34 1) (s := begin who s) ((bit_setFld 35 (by decide)).trans h) hb (bit_setFld 34 (by decide))
    rw [fld_setFld34 1 (by decide)] at hr
    exact congrArg Host.Outcome.next ((gateW_live hlive).trans (hr hc))
  case kinsIdle => exact congrArg Host.Outcome.next ((gateW_live hlive).trans (opKins_idle ((bit_setFld 35 (by decide)).trans h) _))
  case kinsIdleDel => exact congrArg Host.Outcome.next ((gateW_live hlive).trans (opKins_idle ((bit_setFld 35 (by decide)).trans h) _))
  case kinsRefused => exact congrArg Host.Outcome.next ((gateW_live hlive).trans (opKins_refused (s := begin who s) ((bit_setFld 35 (by decide)).trans h) hc))
  case kinsRefusedDel => exact congrArg Host.Outcome.next ((gateW_live hlive).trans (opKins_refused (s := begin who s) ((bit_setFld 35 (by decide)).trans h) hc))
  case kinsInsert =>
    obtain ⟨o, hslots, hb7, hk, hop, h1, h2, h3⟩ := opKins_starts (who := who) (v := setFld v 34 34 0) (s := begin who s)
      ((bit_setFld 35 (by decide)).trans h) h7 hc hon
    rw [bit_setFld 34 (by decide)] at hop
    exact .of_exec_eq rfl (gateW_live hlive) ⟨hb7, o, hslots, hk, hop, h1, h2, h3⟩
  case kinsDelete =>
    obtain ⟨o, hslots, hb7, hk, hop, h1, h2, h3⟩ := opKins_starts (who := who) (v := setFld v 34 34 1) (s := begin who s)
      ((bit_setFld 35 (by decide)).trans h) h7 hc hon
    rw [bit_setFld 34 (by decide)] at hop
    exact .of_exec_eq rfl (gateW_live hlive) ⟨hb7, o, hslots, hk, hop, h1, h2, h3⟩
  case cmdOff =>
    refine .of_exec_eq rfl ((gateW_live hlive).trans (opCmdReq_off (s := begin who s) hoff)) ⟨getB_setB_same (by decide), rfl, fun a ha => ?_⟩
    exact reg_setB_other (s := stageState who v (begin who s)) (by simpa using ha)
  case cmdSubmits =>
    have ht' : tagBusy (stageState who v (begin who s)) (9 : Fin 10).val (reqTag (staged3 who v (begin who s))) = false := ht
    exact .of_exec_eq rfl ((gateW_live hlive).trans ((opCmdReq_submits (s := begin who s) hon hc).trans (opOffer_accepts ht'))) ⟨_, rfl, rfl, rfl, rfl⟩
  case popEmpty =>
    refine congrArg Host.Outcome.next ((gateR_live hlive).trans ((opCmdPop_keeps (s := begin who s) (.inr he)).trans ?_))
    have hw : cmdRspWord (begin who s) 3 = 0 := by
      unfold cmdRspWord
      rw [show (begin who s).rspQ rqCmdNo = [] from he]
    rw [hw]
    rfl
  case popPeeks =>
    refine congrArg Host.Outcome.next ((gateR_live hlive).trans ((opCmdPop_keeps (s := begin who s) (.inl hp)).trans ?_))
    rw [cmdRspWord_of (s := begin who s) hq]
    rfl
  case pops =>
    have hfree := slotFreed_slotsOnly ((answer (cmdRspWord (begin who s) 3) (begin who s)).setRspQ 9 rest)
    have hpop := opCmdPop_pops (s := begin who s) hq
    refine .of_exec_eq rfl ((gateR_live hlive).trans ((congrArg (opCmdPop · (begin who s)) hp).trans hpop)) ⟨?_, (hfree.queue _).trans rspQ_setRspQ⟩
    rw [hfree.eng, cmdRspWord_of (s := begin who s) hq]
    rfl

end Sys2Proof.Machine
end

section
/-! O25: receiver calibration and link training (R294, R297, R298). O26: link words, replay and loss (R300 to R303, R313, R322). -/

namespace Sys2Proof.Machine

variable {s t u : State} {p : Nat} {w : Word} {ws : List Word}

/-! ### Ports and LINK -/

theorem port_setPort_same {q : Port} : (s.setPort p q).port p = q := Store.get_set_same

theorem link_setLink {l : Nat} (h : l < 8) : (s.setLink p l).link p = l := (getF_setF_same (by decide)).trans (Nat.mod_eq_of_lt h)

theorem link_of_reg (h : t.reg (Reg.mshPStatus p) = s.reg (Reg.mshPStatus p)) : t.link p = s.link p := congrArg (fld · 21 19) h

/-- No register from the engine's block on is an event's. -/
theorem not_evtReg {a : Nat} (h : 0x40000 ≤ a) : a ∉ evtRegs := fun hm =>
  absurd ((by decide : ∀ x ∈ evtRegs, x < 0x40000) a hm) (Nat.not_lt.2 h)

theorem mshPStatus_evt (p : Nat) : Reg.mshPStatus p ∉ evtRegs := not_evtReg (by unfold Reg.mshPStatus; omega)

theorem raise_link (code : Code) (src : Req) (d : Nat) (s : State) (p : Nat) : (raise code src d s).link p = s.link p := link_of_reg (raise_reg _ _ _ _ _ (mshPStatus_evt p))

theorem raise_port (code : Code) (src : Req) (d : Nat) (s : State) (p : Nat) : (raise code src d s).port p = s.port p := by
  unfold State.port
  rw [raise_mesh]

theorem fnStat_mesh (p : Fin 8) : fnStat (.mesh p) = Reg.mshPStatus p.val := by
  simp only [fnStat, fnCtrl, Reg.mshPCtrl, Reg.mshPStatus]
  omega

/-- FAULT, where it comes, leaves LINK. -/
theorem fnFaultNow_link (p : Fin 8) (s : State) : (fnFaultNow (.mesh p) s).link p.val = s.link p.val := by
  unfold fnFaultNow
  split
  · unfold State.setFn
    rw [fnStat_mesh]
    exact getF_setF_field (by decide) (.inr (by decide))
  · rfl

/-! ### Calibration and training -/

theorem opCalibration_awaits {p : Fin 8} (h : s.fn (.mesh p) ≠ fnStarting ∨ (s.port p.val).granted = false) (ok : Bool) : opCalibration p ok s = s :=
  if_pos (h.imp id (fun h => by rw [h]; rfl))

/-- The port without its grant and its ramp, in FAULT. -/
def calFailed (p : Fin 8) (s : State) : State :=
  let s := { s.draw with gov := { s.gov with ramps := s.gov.ramps.filter (fun r => !(decide (r.kind = GovKind.meshPort) && r.ix == p.val)) } }
  fnFaultNow (.mesh p) (s.setPort p.val { s.port p.val with granted := false })

theorem opCalibration_starting {p : Fin 8} (h : s.fn (.mesh p) = fnStarting) (hg : (s.port p.val).granted = true) (ok : Bool) : opCalibration p ok s =
    if ok then opStartDone (.mesh p) s
    else raise 0x602 0 (((Config.freeWord s.free).toNat % 16) <<< 7 ||| (calFailed p s).link p.val <<< 4 ||| p.val) (calFailed p s) :=
  if_neg (by rw [h, hg]; exact fun hc => hc.elim (fun hc => hc rfl) (fun hc => absurd hc (by decide)))

theorem calFailed_out {p : Fin 8} (h : s.fn (.mesh p) = fnStarting) : (calFailed p s).fn (.mesh p) = fnFault ∧ ((calFailed p s).port p.val).granted = false ∧
    (calFailed p s).evt = s.evt ∧ (calFailed p s).link p.val = s.link p.val := by
  unfold calFailed
  dsimp only
  generalize hq : { s.draw with gov := { s.gov with ramps := s.gov.ramps.filter (fun r => !(decide (r.kind = GovKind.meshPort) && r.ix == p.val)) } } = q
  have hregs : q.regs = s.regs := by rw [← hq]; rfl
  have hevt : q.evt = s.evt := by rw [← hq]; rfl
  have hreg : ∀ a, q.reg a = s.reg a := fun a => congrArg (Store.get regDefault · a) hregs
  have hfn : (q.setPort p.val { q.port p.val with granted := false }).fn (.mesh p) = fnStarting := (fn_of_reg (hreg _)).trans h
  have hnow : fnFaultNow (.mesh p) (q.setPort p.val { q.port p.val with granted := false }) =
      (q.setPort p.val { q.port p.val with granted := false }).setFn (.mesh p) fnFault := if_pos (.inl hfn)
  refine ⟨?_, ?_, ?_, (fnFaultNow_link p _).trans (link_of_reg (hreg _))⟩
  · rw [hnow]
    exact fn_setFn (by decide)
  · rw [hnow]
    exact congrArg Port.granted (port_setPort_same (s := q))
  · rw [hnow]
    exact hevt

theorem trainNext_moves {l : Nat} (h : trains s p = true) (hl : s.link p = l) (hi : (s.port p).idle = false) : trainNext p l s = s.setLink p (l + 1) :=
  if_pos ⟨h, hl, by rw [hi]; rfl⟩

theorem trainNext_stays {l : Nat} (h : trains s p = false ∨ s.link p ≠ l ∨ (s.port p).idle = true) : trainNext p l s = s :=
  if_neg (fun ⟨ht, hl, hi⟩ => by
    rcases h with h | h | h
    · rw [h] at ht; exact absurd ht (by decide)
    · exact h hl
    · rw [h] at hi; exact absurd hi (by decide))

/-- A training state is left for the next, and nothing else moves. -/
theorem trainNext_out {l : Nat} (h : trains s p = true) (hl : s.link p = l) (h6 : l < 7) (hi : (s.port p).idle = false) :
    (trainNext p l s).link p = l + 1 ∧ (trainNext p l s).mesh = s.mesh ∧ KeepRegs [Reg.mshPStatus p] s (trainNext p l s) := by
  rw [trainNext_moves h hl hi]
  exact ⟨link_setLink (by omega), rfl, fun a ha => reg_setF_other (by simpa using ha)⟩

theorem opParam_stays {p : Fin 8} (h : trains s p.val = false ∨ s.link p.val ≠ 5 ∨ (s.port p.val).idle = true) (nbr : BitVec 3) (x : BitVec 64) :
    opParam p nbr x s = s :=
  if_pos (h.imp (fun h => by rw [h]; rfl) id)

/-- The parameters of a test link: ACTIVE, with the neighbour's port, and a link layer that starts afresh. -/
theorem opParam_test {p : Fin 8} (h : trains s p.val = true) (hl : s.link p.val = 5) (hi : (s.port p.val).idle = false) (ht : (s.port p.val).test = true)
    (nbr : BitVec 3) (x : BitVec 64) : opParam p nbr x s = State.setF (State.setLink (State.setPort (s.setF Reg.mshNodeStatus 35 33 s.mstate)
      p.val { nbrWmark := x, test := (s.port p.val).test }) p.val linkActive) (Reg.mshPStatus p.val) 24 22 nbr.toNat := by
  unfold opParam
  dsimp only
  rw [if_neg (by rw [h, hl, hi]; decide), if_pos ht]

/-- What a training attempt that has run out leaves: LINK 0, one more failure, electrical idle. -/
def trainFailed (p : Nat) (s : State) : State :=
  ((s.count (Reg.mshPTrainFail p) 35 0).setLink p 0).setPort p { s.port p with idle := true, fails := (s.port p).fails + 1 }

theorem opTrainTimeout_stays {p : Fin 8} (h : trains s p.val = false ∨ s.link p.val < 1 ∨ 5 < s.link p.val ∨ (s.port p.val).idle = true) (lanes : BitVec 4) :
    opTrainTimeout p lanes s = s :=
  if_pos (h.imp (fun h => by rw [h]; rfl) id)

theorem opTrainTimeout_fails {p : Fin 8} (h : trains s p.val = true) (h1 : 1 ≤ s.link p.val) (h5 : s.link p.val ≤ 5) (hi : (s.port p.val).idle = false)
    (lanes : BitVec 4) : opTrainTimeout p lanes s = if (s.port p.val).fails % 256 = 0 then
      raise 0x602 0 (1 <<< 11 ||| lanes.toNat <<< 7 ||| s.link p.val <<< 4 ||| p.val) (trainFailed p.val s) else trainFailed p.val s :=
  if_neg (by rw [h, hi]; simp only [Bool.not_true, Bool.false_eq_true, or_false, false_or]; omega)

theorem trainFailed_out (p : Nat) (s : State) : (trainFailed p s).link p = 0 ∧
    (trainFailed p s).getF (Reg.mshPTrainFail p) 35 0 = satInc (s.getF (Reg.mshPTrainFail p) 35 0) (2 ^ 36 - 1) ∧
    (trainFailed p s).port p = { s.port p with idle := true, fails := (s.port p).fails + 1 } := by
  refine ⟨?_, ?_, port_setPort_same⟩
  · exact link_setLink (s := s.count (Reg.mshPTrainFail p) 35 0) (by decide)
  · refine (getF_setF_other (s := s.count (Reg.mshPTrainFail p) 35 0) ?_).trans (getF_count_same (by decide))
    unfold Reg.mshPTrainFail Reg.mshPStatus
    omega

theorem opTrainRetry_acts {p : Fin 8} (h : trains s p.val = true) (hi : (s.port p.val).idle = true) :
    opTrainRetry p s = (s.setPort p.val { s.port p.val with idle := false }).setLink p.val 1 := if_pos ⟨h, hi⟩

/-- Settles O25: each step of calibration and training is the lemma of its case. -/
theorem linkTraining : Obligations.LinkTraining := by
  unfold Obligations.LinkTraining
  refine ⟨fun p ok s h => congrArg Host.Outcome.next (opCalibration_awaits h ok), fun p s h hg => ⟨congrArg Host.Outcome.next (opCalibration_starting h hg true), ?fails⟩,
    fun p c l s hc => ⟨fun h hl hi => ?moves, fun h => ?stays⟩,
    fun p nbr w s => ⟨fun h => congrArg Host.Outcome.next (opParam_stays h nbr w), fun h hl hi ht => ?param⟩,
    fun p lanes s => ⟨fun h => congrArg Host.Outcome.next (opTrainTimeout_stays h lanes), fun h h1 h5 hi => ?timeout⟩,
    fun p s => ⟨fun h hi => ?retry, fun hi => ?noretry⟩⟩
  case fails =>
    obtain ⟨hfn, hgrant, hevt, hlink⟩ := calFailed_out h
    refine .of_exec_eq rfl ((opCalibration_starting h hg false).trans (if_neg Bool.false_ne_true)) ⟨?_, ?_, (Config.freeWord s.free).toNat % 16, Nat.mod_lt _ (by decide), ?_⟩
    · exact (fn_of_reg (f := .mesh p) (raise_reg _ _ _ _ _ (by rw [fnStat_mesh]; exact mshPStatus_evt p.val))).trans hfn
    · exact (congrArg Port.granted (raise_port ..)).trans hgrant
    · rw [← hlink]
      exact raise_logged (congrArg (·.seq) hevt)
  case moves =>
    simp only [List.mem_cons, Prod.mk.injEq, List.not_mem_nil, or_false] at hc
    rcases hc with ⟨rfl, rfl⟩ | ⟨rfl, rfl⟩ | ⟨rfl, rfl⟩ | ⟨rfl, rfl⟩ <;> exact .of_exec rfl (trainNext_out h hl (by decide) hi)
  case stays =>
    simp only [List.mem_cons, Prod.mk.injEq, List.not_mem_nil, or_false] at hc
    rcases hc with ⟨rfl, rfl⟩ | ⟨rfl, rfl⟩ | ⟨rfl, rfl⟩ | ⟨rfl, rfl⟩ <;> exact congrArg Host.Outcome.next (trainNext_stays h)
  case param =>
    refine .of_exec_eq rfl (opParam_test h hl hi ht nbr w) ⟨?_, ?_, ?_⟩
    · refine (getF_setF_field (by decide) (.inl (by decide))).trans (link_setLink (by decide))
    · exact (getF_setF_same (by decide)).trans (Nat.mod_eq_of_lt nbr.isLt)
    · refine (port_setPort_same (s := s.setF Reg.mshNodeStatus 35 33 s.mstate)).trans ?_
      rw [ht]
  case timeout =>
    obtain ⟨hlink, hcount, hport⟩ := trainFailed_out p.val s
    refine .of_exec_eq rfl (opTrainTimeout_fails h h1 h5 hi lanes) ?_
    split
    next h0 =>
      have hfail : Reg.mshPTrainFail p.val ∉ evtRegs := not_evtReg (by unfold Reg.mshPTrainFail; omega)
      exact ⟨(raise_link ..).trans hlink, (congrArg (fld · 35 0) (raise_reg _ _ _ _ _ hfail)).trans hcount, (raise_port ..).trans hport,
        fun _ => raise_logged rfl, fun hne => absurd h0 hne⟩
    next hne => exact ⟨hlink, hcount, hport, fun h0 => absurd h0 hne, fun _ => rfl⟩
  case retry =>
    refine .of_exec_eq rfl (opTrainRetry_acts h hi) ⟨link_setLink (by decide), port_setPort_same, fun a ha => ?_⟩
    exact reg_setF_other (s := s.setPort p.val { s.port p.val with idle := false }) (by simpa using ha)
  case noretry => exact congrArg Host.Outcome.next (if_neg (fun hc => by rw [hi] at hc; exact absurd hc.2 (by decide)))

/-! ### Link words -/

theorem linkActive_not (h : s.link p ≠ linkActive) : opReceive p ws s = s ∧ opAck p w s = s ∧ opCredit p w s = s ∧ opRstart p s = s ∧ opReplayTimeout p s = s ∧
    ∀ c, linkLost p c s = s :=
  ⟨if_pos h, if_pos (.inl h), if_pos (.inl h), if_neg h, if_neg (fun hc => h hc.1), fun _ => if_pos h⟩

theorem opReceive_discards (h : s.link p = linkActive) (hd : (s.port p).discard = true) : opReceive p ws s =
    if fld (ws.getD 0 0) 35 32 = 1 ∧ lenOk ws = true then freeUnits p (fld (ws.getD 0 0) 31 30) ((ws.length + 3) / 4) s else s :=
  (if_neg (not_not.2 h)).trans (if_pos hd)

/-- Words where a packet may start on an ACTIVE link that does not discard: by their kind (R300). -/
theorem opReceive_listens (h : s.link p = linkActive) (hd : (s.port p).discard = false) : opReceive p ws s =
    if fld (ws.getD 0 0) 35 32 = 0 then (if ws.getD 0 0 = 0 then s else linkError p s)
    else if fld (ws.getD 0 0) 35 32 = 2 then opAck p (ws.getD 0 0) s
    else if fld (ws.getD 0 0) 35 32 = 3 then opCredit p (ws.getD 0 0) s
    else if fld (ws.getD 0 0) 35 32 ≠ 1 ∨ !lenOk ws ∨ !packetCrcOk ws then rxNak p ws (linkError p s)
    else if fld (ws.getD 0 0) 29 18 ≠ (s.port p).rxSeq.toNat then rxNak p ws s
    else s.setPort p { s.port p with
      rxSeq := (s.port p).rxSeq + 1
      rxq := (s.port p).rxq ++ [packetOf ws]
      lastAck := some ((s.port p).rxSeq + 1, false)
      ackWord := ackOf ((s.port p).rxSeq + 1) false } :=
  (if_neg (not_not.2 h)).trans (if_neg (by rw [hd]; decide))

theorem opReceive_packet (h : s.link p = linkActive) (hd : (s.port p).discard = false) (hk : fld (ws.getD 0 0) 35 32 = 1) (hlen : lenOk ws = true)
    (hcrc : packetCrcOk ws = true) : opReceive p ws s = if fld (ws.getD 0 0) 29 18 ≠ (s.port p).rxSeq.toNat then rxNak p ws s
    else s.setPort p { s.port p with
      rxSeq := (s.port p).rxSeq + 1
      rxq := (s.port p).rxq ++ [packetOf ws]
      lastAck := some ((s.port p).rxSeq + 1, false)
      ackWord := ackOf ((s.port p).rxSeq + 1) false } := by
  rw [opReceive_listens h hd, if_neg (by rw [hk]; decide), if_neg (by rw [hk]; decide), if_neg (by rw [hk]; decide),
    if_neg (by rw [hk, hlen, hcrc]; decide)]

/-- No packet, no ACK and no CREDIT: an error and a NAK. -/
theorem opReceive_errs (h : s.link p = linkActive) (hd : (s.port p).discard = false)
    (hk : 4 ≤ fld (ws.getD 0 0) 35 32 ∨ fld (ws.getD 0 0) 35 32 = 1 ∧ (lenOk ws = false ∨ packetCrcOk ws = false)) :
    opReceive p ws s = rxNak p ws (linkError p s) := by
  have hbad : fld (ws.getD 0 0) 35 32 ≠ 1 ∨ (!lenOk ws) = true ∨ (!packetCrcOk ws) = true := by
    rcases hk with hk | ⟨-, hk | hk⟩
    · exact .inl (by omega)
    · exact .inr (.inl (by rw [hk]; rfl))
    · exact .inr (.inr (by rw [hk]; rfl))
  rw [opReceive_listens h hd, if_neg (by omega), if_neg (by omega), if_neg (by omega), if_pos hbad]

theorem rxNak_out (p : Nat) (ws : List Word) (s : State) : (rxNak p ws s).regs = s.regs ∧ ((rxNak p ws s).port p).discard = true ∧
    ((rxNak p ws s).port p).lastAck = some ((s.port p).rxSeq, true) ∧ ((rxNak p ws s).port p).ackWord = ackOf (s.port p).rxSeq true ∧
    ((rxNak p ws s).port p).rxq = (s.port p).rxq := by
  have hfree : ∀ u : State, u.regs = s.regs → (u.port p).rxSeq = (s.port p).rxSeq → (u.port p).rxq = (s.port p).rxq →
      let v := u.setPort p { u.port p with discard := true, lastAck := some ((u.port p).rxSeq, true), ackWord := ackOf (u.port p).rxSeq true }
      v.regs = s.regs ∧ (v.port p).discard = true ∧ (v.port p).lastAck = some ((s.port p).rxSeq, true) ∧
      (v.port p).ackWord = ackOf (s.port p).rxSeq true ∧ (v.port p).rxq = (s.port p).rxq := by
    intro u hr hs hq
    dsimp only
    rw [port_setPort_same, hs]
    exact ⟨hr, rfl, rfl, rfl, hq⟩
  unfold rxNak
  dsimp only
  split
  · refine hfree _ rfl ?_ ?_
    · unfold freeUnits
      rw [port_setPort_same]
    · unfold freeUnits
      rw [port_setPort_same]
  · exact hfree s rfl rfl rfl

/-- A word in error counts, and is answered with a NAK; the packets accepted stay. -/
theorem opReceive_errs_out (h : s.link p = linkActive) (hd : (s.port p).discard = false)
    (hk : 4 ≤ fld (ws.getD 0 0) 35 32 ∨ fld (ws.getD 0 0) 35 32 = 1 ∧ (lenOk ws = false ∨ packetCrcOk ws = false)) :
    ((opReceive p ws s).port p).discard = true ∧ ((opReceive p ws s).port p).rxq = (s.port p).rxq ∧
    (opReceive p ws s).getF (Reg.mshPLerr p) 35 0 = satInc (s.getF (Reg.mshPLerr p) 35 0) (2 ^ 36 - 1) := by
  obtain ⟨hregs, hdis, -, -, hq⟩ := rxNak_out p ws (linkError p s)
  rw [opReceive_errs h hd hk]
  exact ⟨hdis, hq, (congrArg (fun r => fld (Store.get regDefault r (Reg.mshPLerr p)) 35 0) hregs).trans (getF_count_same (by decide))⟩

theorem opAck_taken (h : s.link p = linkActive) (hd : (s.port p).discard = false) : opAck p w s = if !linkWordOk 2 w then linkError p s else
    (let n := BitVec.ofNat 12 (fld w 31 20)
     let k := (n - (s.port p).txAck).toNat
     let q := if k ≤ (s.port p).replay.length ∧ 0 < k then { s.port p with replay := (s.port p).replay.drop k, txAck := n, replays := 0 } else s.port p
     if w.getLsbD 19 then replayStart p (s.setPort p (portFlush q)) else s.setPort p (portFlush q)) :=
  if_neg (by rw [hd]; exact fun hc => hc.elim (fun hc => hc h) (by decide))

theorem opCredit_taken (h : s.link p = linkActive) (hd : (s.port p).discard = false) : opCredit p w s = if !linkWordOk 3 w then linkError p s else
    s.setPort p (portFlush { s.port p with freedFar := Store.set (fun _ => 0) (s.port p).freedFar (fld w 31 30) (BitVec.ofNat 12 (fld w 29 18)) }) :=
  if_neg (by rw [hd]; exact fun hc => hc.elim (fun hc => hc h) (by decide))

/-! ### Replay -/

theorem replayStart_ends (h : 7 ≤ (s.port p).replays) : replayStart p s = linkLost p 4 (s.count (Reg.mshPReplay p) 35 0) :=
  if_pos (show 8 ≤ (s.port p).replays + 1 by omega)

/-- Replays of a millisecond are counted beside the replay itself. -/
theorem replayCount_out (p : Nat) (s : State) : (∀ a, a ∉ evtRegs → (replayCount p s).reg a = s.reg a) ∧ ((replayCount p s).port p).replays = (s.port p).replays ∧
    ((replayCount p s).port p).replay = (s.port p).replay := by
  have hone : ∀ (n : Nat) (m : BitVec 64) (c : Prop) [Decidable c] (e : Option (BitVec 64)) (d : Nat),
      let v := s.setPort p { s.port p with replaysMs := n, msStart := m }
      let t := if c then raise 0x604 0 d (v.setPort p { v.port p with e604At := e }) else v
      (∀ a, a ∉ evtRegs → t.reg a = s.reg a) ∧ (t.port p).replays = (s.port p).replays ∧ (t.port p).replay = (s.port p).replay := by
    intro n m c _ e d
    dsimp only
    split
    · rw [raise_port, port_setPort_same, port_setPort_same]
      exact ⟨fun a ha => raise_reg _ _ _ _ _ ha, rfl, rfl⟩
    · rw [port_setPort_same]
      exact ⟨fun _ _ => rfl, rfl, rfl⟩
  exact hone _ _ _ _ _

theorem replayStart_out (hl : s.link p = linkActive) (h : (s.port p).replays < 7) : (replayStart p s).link p = linkActive ∧
    ((replayStart p s).port p).replays = (s.port p).replays + 1 ∧ ((replayStart p s).port p).replay = (s.port p).replay ∧
    (replayStart p s).getF (Reg.mshPReplay p) 35 0 = satInc (s.getF (Reg.mshPReplay p) 35 0) (2 ^ 36 - 1) := by
  have heq : ∃ sent first, replayStart p s = replayCount p ((s.count (Reg.mshPReplay p) 35 0).setPort p
      { s.port p with replays := (s.port p).replays + 1, sent := sent, txWords := first }) := by
    refine ⟨_, _, if_neg (show ¬ 8 ≤ (s.port p).replays + 1 by omega)⟩
  obtain ⟨sent, first, heq⟩ := heq
  rw [heq]
  obtain ⟨hreg, hreplays, hreplay⟩ := replayCount_out p ((s.count (Reg.mshPReplay p) 35 0).setPort p
    { s.port p with replays := (s.port p).replays + 1, sent := sent, txWords := first })
  rw [port_setPort_same] at hreplays hreplay
  refine ⟨?_, hreplays, hreplay, ?_⟩
  · refine (link_of_reg ((hreg _ (mshPStatus_evt p)).trans (reg_count_other (s := s) ?_))).trans hl
    unfold Reg.mshPStatus Reg.mshPReplay
    omega
  · exact (congrArg (fld · 35 0) (hreg _ (not_evtReg (by unfold Reg.mshPReplay; omega)))).trans (getF_count_same (s := s) (by decide))

/-- Settles O26: each word of the link layer is the lemma of its case. -/
theorem linkLayer : Obligations.LinkLayer := by
  unfold Obligations.LinkLayer
  refine ⟨fun p ws w c s h => ?inactive, fun p ws s h hd => ⟨fun hk hlen hcrc => ⟨fun hseq => ?inorder, fun hseq => ?outoforder⟩, fun hk hbad => ?bad,
      fun hk => .of_exec rfl (opReceive_errs_out h hd (.inl hk)), fun hk => ?idle, fun hk => ?isAck, fun hk => ?isCredit⟩,
    fun p ws w s h hd => ⟨congrArg Host.Outcome.next (if_pos (.inr hd)), congrArg Host.Outcome.next (if_pos (.inr hd)),
      congrArg Host.Outcome.next (opReceive_discards h hd)⟩,
    fun p w s h hd => ⟨fun hw => ?ackBad, fun hw => ?creditBad, fun hw => ?ack, fun hw => ?credit⟩,
    fun p s h => ⟨congrArg Host.Outcome.next (if_pos h), fun hr => congrArg Host.Outcome.next (if_neg (fun hc => hc.2 hr)), fun hr hn => ?replays,
      fun hr hn => congrArg Host.Outcome.next ((if_pos ⟨h, hr⟩).trans (replayStart_ends hn)), fun c => congrArg Host.Outcome.next (if_neg (not_not.2 h))⟩,
    fun p s => rfl, fun k s => rfl, fun p k s => ⟨fun hk => ?notin, fun hk => ?routed⟩⟩
  case inactive =>
    obtain ⟨hrecv, hack, hcredit, hrstart, htimeout, hlost⟩ := linkActive_not (ws := ws) (w := w) h
    simp only [List.forall_mem_cons, List.not_mem_nil, false_imp_iff, implies_true, and_true]
    exact ⟨congrArg Host.Outcome.next hrecv, congrArg Host.Outcome.next hack, congrArg Host.Outcome.next hcredit, congrArg Host.Outcome.next hrstart,
      congrArg Host.Outcome.next htimeout, congrArg Host.Outcome.next (hlost _)⟩
  case inorder => exact congrArg Host.Outcome.next ((opReceive_packet h hd hk hlen hcrc).trans (if_neg (not_not.2 hseq)))
  case outoforder => exact .of_exec_eq rfl ((opReceive_packet h hd hk hlen hcrc).trans (if_pos hseq)) (rxNak_out p.val ws s)
  case bad => exact .of_exec rfl (opReceive_errs_out h hd (.inr ⟨hk, hbad⟩))
  case idle => exact congrArg Host.Outcome.next ((opReceive_listens h hd).trans (if_pos hk))
  case isAck =>
    refine congrArg Host.Outcome.next ((opReceive_listens h hd).trans ?_)
    rw [if_neg (by rw [hk]; decide), if_pos hk]
  case isCredit =>
    refine congrArg Host.Outcome.next ((opReceive_listens h hd).trans ?_)
    rw [if_neg (by rw [hk]; decide), if_neg (by rw [hk]; decide), if_pos hk]
  case ackBad => exact congrArg Host.Outcome.next ((opAck_taken h hd).trans (if_pos (by rw [hw]; rfl)))
  case creditBad => exact congrArg Host.Outcome.next ((opCredit_taken h hd).trans (if_pos (by rw [hw]; rfl)))
  case ack => exact congrArg Host.Outcome.next ((opAck_taken h hd).trans (if_neg (by rw [hw]; decide)))
  case credit => exact congrArg Host.Outcome.next ((opCredit_taken h hd).trans (if_neg (by rw [hw]; decide)))
  case replays => exact .of_exec_eq rfl (if_pos ⟨h, hr⟩) (replayStart_out h hn)
  case notin => exact congrArg Host.Outcome.next (if_pos (by simpa using hk))
  case routed => exact congrArg Host.Outcome.next (if_neg (by simpa using hk))

end Sys2Proof.Machine
end

section
/-! O28: remote register access and remote engine operations (R324 to R327, R249). -/

namespace Sys2Proof.Machine

variable {s t u : State} {v : Word}

/-! ### Interrupt pulses -/

theorem irqPulse_bit {n : Nat} (h : n < 32) : (irqPulse n s).getB (Reg.scrIrqPend 0) n = true := by
  unfold irqPulse
  rw [show n / 32 = 0 by omega, show n % 32 = n by omega]
  exact getB_setB_same (by omega)

theorem irqPulse_reg {n a : Nat} (h : n < 32) (ha : a ≠ Reg.scrIrqPend 0) : (irqPulse n s).reg a = s.reg a := by
  unfold irqPulse
  rw [show n / 32 = 0 by omega]
  exact reg_setB_other ha

/-! ### Access at the origin (R324) -/

/-- The result and the reason of an access that has ended. -/
theorem rraDone_out {result reason : Nat} (hr : result < 8) (hw : reason < 16) : (rraDone result reason s).getF Reg.mshRraStatus 7 0 = result * 16 + reason ∧
    (rraDone result reason s).getB (Reg.scrIrqPend 0) 18 = true ∧ KeepRegs [Reg.mshRraStatus, Reg.scrIrqPend 0] s (rraDone result reason s) ∧
    (rraDone result reason s).mesh = s.mesh := by
  have hval : (result % 8) <<< 4 ||| reason = result * 16 + reason := by
    rw [Nat.mod_eq_of_lt hr, ← Nat.shiftLeft_add_eq_or_of_lt (b := reason) (i := 4) hw, Nat.shiftLeft_eq]
  have hset : (rraEnd result reason s).getF Reg.mshRraStatus 7 0 = result * 16 + reason := by
    unfold rraEnd
    rw [hval]
    exact (getF_setF_same (s := s) (a := Reg.mshRraStatus) (by decide)).trans (Nat.mod_eq_of_lt (by simp only [Nat.reduceAdd, Nat.reduceSub, Nat.reducePow]; omega))
  refine ⟨?_, irqPulse_bit (by decide), fun a ha => ?_, rfl⟩
  · exact (congrArg (fld · 7 0) (irqPulse_reg (by decide) (by decide))).trans hset
  · simp only [List.mem_cons, List.not_mem_nil, or_false, not_or] at ha
    exact (irqPulse_reg (by decide) ha.2).trans (reg_setReg_other ha.1)

theorem opRraCmd_idle (h : v.getLsbD 35 = false) (s : State) : opRraCmd v s = s := if_pos (by rw [h]; rfl)

theorem opRraCmd_busy (h : v.getLsbD 35 = true) (h7 : s.getB Reg.mshRraStatus 7 = true) : opRraCmd v s = s.setB Reg.mshRraStatus 8 true :=
  (if_neg (by rw [h]; decide)).trans (if_pos h7)

/-- The access word and the data of a write, as the access sends them. -/
def rraWords (v : Word) (s : State) : List Word :=
  if v.getLsbD 34 then [wd ((v.getLsbD 34).toNat <<< 35 ||| s.getF Reg.mshRraAddr 23 0), s.reg Reg.mshRraWdata]
  else [wd ((v.getLsbD 34).toNat <<< 35 ||| s.getF Reg.mshRraAddr 23 0)]

/-- The access is under way. -/
def rraStarted (v : Word) (s : State) : State := (rraEnd 0 0 { s with mesh := { s.mesh with rraWrite := v.getLsbD 34 } }).setB Reg.mshRraStatus 7 true

theorem rraStarted_other (v : Word) (s : State) {a : Nat} (h : a ≠ Reg.mshRraStatus) : (rraStarted v s).reg a = s.reg a :=
  (reg_setB_other (s := rraEnd 0 0 { s with mesh := { s.mesh with rraWrite := v.getLsbD 34 } }) h).trans (reg_setReg_other h)

theorem opRraCmd_acts (h : v.getLsbD 35 = true) (h7 : s.getB Reg.mshRraStatus 7 = false) : opRraCmd v s =
    if s.mstate ≠ 2 then rraDone 4 0 s
    else if s.getF (Reg.mshNht (s.getF Reg.mshRraNode 9 0)) 35 34 ≠ 1 ∧ s.getF (Reg.mshNht (s.getF Reg.mshRraNode 9 0)) 35 34 ≠ 2 then rraDone 3 0 s
    else meshSend (s.getF Reg.mshRraNode 9 0) 1 vcReq (rraWords v s) (rraStarted v s) := by
  have haddr : (rraStarted v s).getF Reg.mshRraAddr 23 0 = s.getF Reg.mshRraAddr 23 0 := congrArg (fld · 23 0) (rraStarted_other v s (by decide))
  have hdata : (rraStarted v s).reg Reg.mshRraWdata = s.reg Reg.mshRraWdata := rraStarted_other v s (by decide)
  unfold rraWords
  rw [← haddr, ← hdata]
  exact (if_neg (by rw [h]; decide)).trans (if_neg (by rw [h7]; decide))

theorem opRraRsp_late (h : s.getB Reg.mshRraStatus 7 = false) (result reason : BitVec 4) (data : Word) : opRraRsp result reason data s = s :=
  if_pos (by rw [h]; rfl)

/-- The response gives the data of a read that succeeded, and ends the access. -/
theorem opRraRsp_out (h : s.getB Reg.mshRraStatus 7 = true) {result : BitVec 4} (hr : result.toNat < 8) (reason : BitVec 4) (data : Word) :
    (opRraRsp result reason data s).getF Reg.mshRraStatus 7 0 = result.toNat * 16 + (if result = 1 then reason.toNat else 0) ∧
    (opRraRsp result reason data s).reg Reg.mshRraRdata = (if result = 0 ∧ s.mesh.rraWrite = false then data else s.reg Reg.mshRraRdata) ∧
    (opRraRsp result reason data s).getB (Reg.scrIrqPend 0) 18 = true ∧
    KeepRegs [Reg.mshRraStatus, Reg.mshRraRdata, Reg.scrIrqPend 0] s (opRraRsp result reason data s) := by
  generalize hq : (if result = 0 ∧ s.mesh.rraWrite = false then s.setReg Reg.mshRraRdata data else s) = q
  have hcond : (result = 0 ∧ (!s.mesh.rraWrite) = true) = (result = 0 ∧ s.mesh.rraWrite = false) := by
    rw [Bool.not_eq_true']
  have heq : opRraRsp result reason data s = rraDone result.toNat (if result = 1 then reason.toNat else 0) q := by
    rw [← hq]
    unfold opRraRsp
    simp only [hcond]
    rw [if_neg (by rw [h]; decide)]
  have hread : q.reg Reg.mshRraRdata = if result = 0 ∧ s.mesh.rraWrite = false then data else s.reg Reg.mshRraRdata := by
    rw [← hq]
    split
    · exact reg_setReg_same
    · rfl
  have hother : ∀ a, a ≠ Reg.mshRraRdata → q.reg a = s.reg a := by
    intro a ha
    rw [← hq]
    split
    · exact reg_setReg_other ha
    · rfl
  have hreason : (if result = 1 then reason.toNat else 0) < 16 := by
    split
    · exact reason.isLt
    · decide
  obtain ⟨hfield, hirq, hkeep, -⟩ := rraDone_out (s := q) hr hreason
  rw [heq]
  refine ⟨hfield, (hkeep _ (by decide)).trans hread, hirq, fun a ha => ?_⟩
  simp only [List.mem_cons, List.not_mem_nil, or_false, not_or] at ha
  exact (hkeep a (by simp [ha.1, ha.2.2])).trans (hother a ha.2.1)

/-! ### Access at the target (R325, R326) -/

theorem opRraReq_unserved (h : served s rqMesh = false) (src : Nat) (wr : Bool) (a : Nat) (data : Word) : opRraReq src wr a data s = s :=
  if_pos (by rw [h]; rfl)

theorem opRraReq_refused {wr : Bool} {a : Nat} (h : served s rqMesh = true) (hw : rraReason wr a s ≠ 0) (src : Nat) (data : Word) : opRraReq src wr a data s =
    meshSend src 2 vcRsp [wd (1 <<< 32 ||| rraReason wr a s <<< 28), 0] (raise 0x60D 0 (rraReason wr a s <<< 10 ||| src) s) :=
  (if_neg (by rw [h]; decide)).trans (if_pos hw)

theorem opRraReq_acts {wr : Bool} {a : Nat} (h : served s rqMesh = true) (hw : rraReason wr a s = 0) (src : Nat) (data : Word) : opRraReq src wr a data s =
    rraAnswer src wr (if wr then regWrite rqMesh a data s else regRead rqMesh false a s) :=
  (if_neg (by rw [h]; decide)).trans (if_neg (not_not.2 hw))

/-! ### Engine operations from the mesh (R249, R327) -/

theorem opEngReq_off (h : engOn s = false) (src : BitVec 10) (sreq : BitVec 4) (stag : BitVec 6) (q : Quad) : opEngReq src sreq stag q s =
    meshSend src.toNat 4 vcRsp [wd (sreq.toNat <<< 6 ||| stag.toNat), (resQuad s q { st := stOff }).w0, (resQuad s q { st := stOff }).w1,
      (resQuad s q { st := stOff }).w2, (resQuad s q { st := stOff }).w3] s := if_pos (by rw [h]; rfl)

theorem opEngReq_waits (h : engOn s = true) (hw : rqCredits s rqMeshNo = 0 ∨ s.eng.waitQ ≠ []) (src : BitVec 10) (sreq : BitVec 4) (stag : BitVec 6) (q : Quad) :
    opEngReq src sreq stag q s = { s with eng := { s.eng with waitQ := s.eng.waitQ ++ [(src, sreq, stag, q)] } } :=
  (if_neg (by rw [h]; decide)).trans (if_pos (hw.imp id (fun hw => by simpa using hw)))

theorem opEngReq_takes (h : engOn s = true) (hc : rqCredits s rqMeshNo ≠ 0) (hw : s.eng.waitQ = []) (src : BitVec 10) (sreq : BitVec 4) (stag : BitVec 6) (q : Quad) :
    opEngReq src sreq stag q s = meshTake src sreq stag q s :=
  (if_neg (by rw [h]; decide)).trans (if_neg (by rw [hw]; simpa using hc))

/-- The operation that a response from the mesh answers. -/
def engAnswered (sreq : BitVec 4) (stag : BitVec 6) (s : State) : Option Op :=
  s.eng.slots.find? (fun o => decide (o.phase = .remote) && o.rq.val == sreq.toNat && reqTag o.req == stag.toNat)

theorem opEngRsp_one {sreq : BitVec 4} {stag : BitVec 6} {rsp : Quad} {o : Op} (h : s.eng.late.contains (sreq.toNat, stag.toNat, fld rsp.w1 25 16) = false)
    (ho : engAnswered sreq stag s = some o) : opEngRsp sreq stag rsp s =
      lockRelease (setOp { o with phase := .done, status := BitVec.ofNat 6 (fld rsp.w0 25 20), rsp := rsp } s) := by
  unfold engAnswered at ho
  unfold opEngRsp
  dsimp only
  rw [if_neg (by rw [h]; decide), ho]

theorem opEngRsp_none {sreq : BitVec 4} {stag : BitVec 6} {rsp : Quad} (h : s.eng.late.contains (sreq.toNat, stag.toNat, fld rsp.w1 25 16) = false)
    (ho : engAnswered sreq stag s = none) : opEngRsp sreq stag rsp s = s := by
  unfold engAnswered at ho
  unfold opEngRsp
  dsimp only
  rw [if_neg (by rw [h]; decide), ho]

/-- A command of remote register access, with what it makes of each state of the mesh. -/
theorem rraCommand {who : Req} {c : Instr} (hlive : Live who s) (hc : exec c s = .next (gateW who Reg.mshRraCmd (opRraCmd v) s)) :
    (v.getLsbD 35 = false → exec c s = .next (begin who s)) ∧
    (v.getLsbD 35 = true → s.getB Reg.mshRraStatus 7 = true → exec c s = .next ((begin who s).setB Reg.mshRraStatus 8 true)) ∧
    (v.getLsbD 35 = true → s.getB Reg.mshRraStatus 7 = false → s.mstate ≠ 2 → Runs c s fun t => t.getF Reg.mshRraStatus 7 0 = 0x40 ∧ t.getB (Reg.scrIrqPend 0) 18 = true ∧
      KeepRegs [Reg.mshRraStatus, Reg.scrIrqPend 0] s t ∧ t.mesh = s.mesh) ∧
    (v.getLsbD 35 = true → s.getB Reg.mshRraStatus 7 = false → s.mstate = 2 → s.getF (Reg.mshNht (s.getF Reg.mshRraNode 9 0)) 35 34 = 0 →
      Runs c s fun t => t.getF Reg.mshRraStatus 7 0 = 0x30 ∧ t.getB (Reg.scrIrqPend 0) 18 = true ∧ KeepRegs [Reg.mshRraStatus, Reg.scrIrqPend 0] s t ∧ t.mesh = s.mesh) ∧
    (v.getLsbD 35 = true → s.getB Reg.mshRraStatus 7 = false → s.mstate = 2 → s.getF (Reg.mshNht (s.getF Reg.mshRraNode 9 0)) 35 34 = 2 →
      ∃ u, u.mesh = { s.mesh with rraWrite := v.getLsbD 34 } ∧ u.getB Reg.mshRraStatus 7 = true ∧ KeepRegs [Reg.mshRraStatus] s u ∧
        exec c s = .next (meshSend (s.getF Reg.mshRraNode 9 0) 1 vcReq (rraWords v s) u)) := by
  rw [gateW_live hlive] at hc
  refine ⟨fun h => ?_, fun h h7 => ?_, fun h h7 hm => ?_, fun h h7 hm hk => ?_, fun h h7 hm hk => ?_⟩
  · rw [opRraCmd_idle h] at hc
    exact hc
  · rw [opRraCmd_busy (s := begin who s) h h7] at hc
    exact hc
  · rw [opRraCmd_acts (s := begin who s) h h7, if_pos (show (begin who s).mstate ≠ 2 from hm)] at hc
    exact ⟨_, hc, rraDone_out (s := begin who s) (by decide) (by decide)⟩
  · rw [opRraCmd_acts (s := begin who s) h h7, if_neg (show ¬ (begin who s).mstate ≠ 2 from not_not.2 hm)] at hc
    have hkind : (begin who s).getF (Reg.mshNht ((begin who s).getF Reg.mshRraNode 9 0)) 35 34 = 0 := hk
    rw [if_pos (by rw [hkind]; decide)] at hc
    exact ⟨_, hc, rraDone_out (s := begin who s) (by decide) (by decide)⟩
  · rw [opRraCmd_acts (s := begin who s) h h7, if_neg (show ¬ (begin who s).mstate ≠ 2 from not_not.2 hm)] at hc
    have hkind : (begin who s).getF (Reg.mshNht ((begin who s).getF Reg.mshRraNode 9 0)) 35 34 = 2 := hk
    rw [if_neg (by rw [hkind]; decide)] at hc
    exact ⟨rraStarted v (begin who s), rfl, getB_setB_same (by decide), fun a ha => rraStarted_other v (begin who s) (by simpa using ha), hc⟩

/-- Settles O28: each remote access and operation is the lemma of its case. -/
theorem remoteAccess : Obligations.RemoteAccess := by
  unfold Obligations.RemoteAccess
  refine ⟨fun who v s hlive c hc => ?command, fun result reason data s u hu => ⟨fun h => ?late, fun h hr => ?answered⟩, fun s => ⟨fun h => ?notimeout, fun h => ?timeout⟩,
    fun src wr a data s u hu => ⟨fun h => ?unserved, fun h h0 => ?closed, fun h hw => ?served⟩,
    fun src sreq stag q s u hu => ⟨fun h => ?engOff, fun h hw => ?engWaits, fun h hc hw => ?engTakes⟩,
    fun sreq stag rsp s u hu => ⟨fun h => ?engLate, fun h => ⟨fun o ho => ?engOne, fun ho => ?engNone⟩⟩⟩
  case command =>
    simp only [List.mem_cons, List.not_mem_nil, or_false] at hc
    rcases hc with rfl | rfl
    · exact rraCommand hlive rfl
    · exact rraCommand hlive rfl
  case late => subst hu; exact congrArg Host.Outcome.next (opRraRsp_late h result reason data)
  case answered => subst hu; exact .of_exec rfl (opRraRsp_out h hr reason data)
  case notimeout => exact congrArg Host.Outcome.next (if_neg (by rw [h]; decide))
  case timeout => exact .of_exec_eq rfl (if_pos h) (rraDone_out (by decide) (by decide))
  case unserved => subst hu; exact congrArg Host.Outcome.next (opRraReq_unserved h _ _ _ _)
  case closed =>
    subst hu
    have hwhy : rraReason wr a.toNat (inboxTake 1 s) = 3 := if_pos (by rw [h0]; rfl)
    refine congrArg Host.Outcome.next ((opRraReq_refused h (by rw [hwhy]; decide) _ _).trans ?_)
    rw [hwhy]
  case served => subst hu; exact congrArg Host.Outcome.next (opRraReq_acts h hw _ _)
  case engOff => subst hu; exact congrArg Host.Outcome.next (opEngReq_off h _ _ _ _)
  case engWaits => subst hu; exact congrArg Host.Outcome.next (opEngReq_waits h hw _ _ _ _)
  case engTakes => subst hu; exact congrArg Host.Outcome.next (opEngReq_takes h hc hw _ _ _ _)
  case engLate => subst hu; exact congrArg Host.Outcome.next (if_pos h)
  case engOne => subst hu; exact congrArg Host.Outcome.next (opEngRsp_one h ho)
  case engNone => subst hu; exact congrArg Host.Outcome.next (opEngRsp_none h ho)

end Sys2Proof.Machine
end

section
/-! O29: image pushes, user STREAM channels, mesh time and MSH.NODE_CFG (R295, R329 to R336). -/

namespace Sys2Proof.Machine

variable {s t u : State} {v : Word}

/-! ### Image pushes (R329 to R332) -/

theorem pushRuns_iff : pushRuns s = true ↔ s.getF Reg.mshPushStatus 23 21 = 1 ∨ s.getF Reg.mshPushStatus 23 21 = 2 := by
  simp [pushRuns, pushState]

/-- The push ends in a state, with its interrupt. -/
theorem pushEnd_out {x : Nat} (h : pushRuns s = true) (hx : x < 8) : pushState (pushEnd x s) = x ∧ (pushEnd x s).getB (Reg.scrIrqPend 0) 19 = true ∧
    KeepRegs [Reg.mshPushStatus, Reg.scrIrqPend 0] s (pushEnd x s) ∧ (pushEnd x s).mesh = s.mesh := by
  have hend : pushEnd x s = irqPulse 19 (s.setF Reg.mshPushStatus 23 21 x) := if_pos (pushRuns_iff.1 h)
  rw [hend]
  refine ⟨?_, irqPulse_bit (by decide), fun a ha => ?_, rfl⟩
  · exact (congrArg (fld · 23 21) (irqPulse_reg (by decide) (by decide))).trans ((getF_setF_same (by decide)).trans (Nat.mod_eq_of_lt hx))
  · simp only [List.mem_cons, List.not_mem_nil, or_false, not_or] at ha
    exact (irqPulse_reg (by decide) ha.2).trans (reg_setF_other ha.1)

theorem pushAbort_idle (h : pushRuns s = false) : pushAbort s = s := if_pos (by rw [h]; rfl)

theorem pushAbort_runs (h : pushRuns s = true) : pushAbort s =
    meshSend s.mesh.pushDest.toNat 5 vcStream [wd (1 <<< 33 ||| (s.reg Reg.mshPushWords).toNat), 0] (pushEnd 5 s) := if_neg (by rw [h]; decide)

/-- A write of PUSH_CMD, by its bits: ABORT acts first, then START (R331). -/
theorem opPushCmd_eq (v : Word) (s : State) : opPushCmd v s =
    (fun u => if !v.getLsbD 35 then u else if pushRuns s then u.setB Reg.mshPushStatus 20 true
      else pushStart (Fin.ofNat 4 (fld v 13 12)) (BitVec.ofNat 10 (fld v 9 0)) u) (if v.getLsbD 34 then pushAbort s else s) := rfl

theorem opPushCmd_rests (h : v.getLsbD 35 = false) : opPushCmd v s = if v.getLsbD 34 then pushAbort s else s := by
  rw [opPushCmd_eq, h]
  rfl

theorem opPushCmd_busy (h : v.getLsbD 35 = true) (hr : pushRuns s = true) : opPushCmd v s = (if v.getLsbD 34 then pushAbort s else s).setB Reg.mshPushStatus 20 true := by
  rw [opPushCmd_eq, h, hr]
  rfl

theorem opPushCmd_starts (h : v.getLsbD 35 = true) (hr : pushRuns s = false) :
    opPushCmd v s = pushStart (Fin.ofNat 4 (fld v 13 12)) (BitVec.ofNat 10 (fld v 9 0)) s := by
  have hab : (if v.getLsbD 34 then pushAbort s else s) = s := by rw [pushAbort_idle hr, ite_self]
  rw [opPushCmd_eq, h, hr, hab]
  rfl

/-- A command of image pushes, with what it makes of each word. -/
theorem pushCommand {who : Req} {c : Instr} (hlive : Live who s) (hc : exec c s = .next (gateW who Reg.mshPushCmd (opPushCmd v) s)) :
    (v.getLsbD 34 = false → v.getLsbD 35 = false → exec c s = .next (begin who s)) ∧
    (v.getLsbD 34 = false → v.getLsbD 35 = true → pushRuns s = true → exec c s = .next ((begin who s).setB Reg.mshPushStatus 20 true)) ∧
    (v.getLsbD 34 = false → v.getLsbD 35 = true → pushRuns s = false → exec c s = .next (pushStart (Fin.ofNat 4 (fld v 13 12)) (BitVec.ofNat 10 (fld v 9 0)) (begin who s))) ∧
    (v.getLsbD 34 = true → v.getLsbD 35 = false → pushRuns s = true → exec c s = .next (meshSend s.mesh.pushDest.toNat 5 vcStream [wd (1 <<< 33 ||| (s.reg Reg.mshPushWords).toNat), 0]
      (pushEnd 5 (begin who s)))) ∧
    (v.getLsbD 34 = true → v.getLsbD 35 = false → pushRuns s = false → exec c s = .next (begin who s)) ∧
    (v.getLsbD 34 = true → v.getLsbD 35 = true → pushRuns s = true → exec c s = .next ((pushAbort (begin who s)).setB Reg.mshPushStatus 20 true)) ∧
    (v.getLsbD 34 = true → v.getLsbD 35 = true → pushRuns s = false → exec c s = .next (pushStart (Fin.ofNat 4 (fld v 13 12)) (BitVec.ofNat 10 (fld v 9 0)) (begin who s))) := by
  rw [gateW_live hlive] at hc
  have hnext : ∀ {w : State}, opPushCmd v (begin who s) = w → exec c s = .next w := fun h => hc.trans (congrArg Host.Outcome.next h)
  refine ⟨fun h34 h35 => hnext ?_, fun h34 h35 hr => hnext ?_, fun _ h35 hr => hnext (opPushCmd_starts (s := begin who s) h35 hr), fun h34 h35 hr => hnext ?_,
    fun h34 h35 hr => hnext ?_, fun h34 h35 hr => hnext ?_, fun _ h35 hr => hnext (opPushCmd_starts (s := begin who s) h35 hr)⟩
  · rw [opPushCmd_rests h35, h34, if_neg Bool.false_ne_true]
  · rw [opPushCmd_busy (s := begin who s) h35 hr, h34, if_neg Bool.false_ne_true]
  · rw [opPushCmd_rests h35, h34, if_pos rfl]
    exact pushAbort_runs (s := begin who s) hr
  · rw [opPushCmd_rests h35, h34, if_pos rfl]
    exact pushAbort_idle (s := begin who s) hr
  · rw [opPushCmd_busy (s := begin who s) h35 hr, h34, if_pos rfl]

/-- The result of the target ends the push with its code. -/
theorem opImgResult_out (h : pushRuns s = true) (code : Code) : (opImgResult code s).getF Reg.mshPushStatus 35 24 = code.toNat ∧ pushState (opImgResult code s) = 3 ∧
    (opImgResult code s).getB (Reg.scrIrqPend 0) 19 = true ∧ KeepRegs [Reg.mshPushStatus, Reg.scrIrqPend 0] s (opImgResult code s) := by
  obtain ⟨hst, hirq, hkeep, -⟩ := pushEnd_out (x := 3) h (by decide)
  have heq : opImgResult code s = (pushEnd 3 s).setF Reg.mshPushStatus 35 24 code.toNat := if_pos h
  rw [heq]
  refine ⟨(getF_setF_same (by decide)).trans (Nat.mod_eq_of_lt code.isLt), (getF_setF_field (by decide) (.inl (by decide))).trans hst,
    (getB_setF_other (by decide)).trans hirq, fun a ha => (reg_setF_other ?_).trans (hkeep a ha)⟩
  exact List.ne_of_not_mem_cons ha

theorem opImgRb_out (n : Nat) (s : State) : (opImgRb n s).getF Reg.mshPushRb 24 0 = min (2 ^ 25 - 1) (s.getF Reg.mshPushRb 24 0 + n) ∧ KeepRegs [Reg.mshPushRb] s (opImgRb n s) := by
  refine ⟨(getF_setF_same (by decide)).trans (Nat.mod_eq_of_lt ?_), fun a ha => reg_setF_other (by simpa using ha)⟩
  exact Nat.lt_of_le_of_lt (Nat.min_le_left _ _) (by decide)

/-! ### IMG_DATA at the target (R330) -/

theorem opImgData_abort (src : BitVec 10) (first : Bool) (ws : List Word) (s : State) : opImgData src first true ws s =
    if s.ld.st != .idle && s.ld.src == 3 && s.mesh.pushFrom == src then streamDiscard 2 s else s := rfl

theorem opImgData_words (src : BitVec 10) (first : Bool) (ws : List Word) (s : State) : opImgData src first false ws s =
    if (s.ld.st != .idle && s.ld.src == 3 && s.mesh.pushFrom == src) = true ∧ (!first) = true then ldOffer 3 rqMesh ws s
    else if s.ld.st ≠ .idle ∨ (!srcEnabled s 3) = true then (if first then meshSend src.toNat 7 vcRsp [wd 0x20C] (srcRefuse 3 s) else srcRefuse 3 s)
    else ldOffer 3 rqMesh ws { s with mesh := { s.mesh with pushFrom := src } } := rfl

theorem pushMine {src : BitVec 10} (hst : s.ld.st ≠ .idle) (h3 : s.ld.src = 3) (hf : s.mesh.pushFrom = src) :
    (s.ld.st != .idle && s.ld.src == 3 && s.mesh.pushFrom == src) = true := by
  rw [h3, hf, bne_iff_ne.2 hst]
  simp

theorem pushOther (src : BitVec 10) (hst : s.ld.st = .idle) : (s.ld.st != .idle && s.ld.src == 3 && s.mesh.pushFrom == src) = false := by
  rw [hst]
  rfl

/-! ### User STREAM channels (R333, R334) -/

/-- The channel with one more transfer in the packet under way. -/
def txAdded (k : Nat) (q : Quad) (dest : BitVec 13) (s : State) : St :=
  { s.stx k with tx := (s.stx k).tx ++ [q], txDest := if (s.stx k).tx.isEmpty then dest else (s.stx k).txDest }

theorem opStTx_waits {k : Fin 8} (h : portLive s 2 k.val = false ∨ s.mstate ≠ 2 ∨ 2048 < stTxWords k.val s + 4) (q : Quad) (dest : BitVec 13) (last : Bool) :
    opStTx k q dest last s = s := if_pos (h.imp (fun h => by rw [h]; rfl) id)

theorem opStTx_takes {k : Fin 8} (h : portLive s 2 k.val = true) (hm : s.mstate = 2) (hr : stTxWords k.val s + 4 ≤ 2048) (q : Quad) (dest : BitVec 13) (last : Bool) :
    opStTx k q dest last s = if last = true ∨ 15 ≤ (s.stx k.val).tx.length + 1 then stSend k.val (setStx k.val (txAdded k.val q dest s) s)
      else setStx k.val (txAdded k.val q dest s) s := by
  have hlen : ((s.stx k.val).tx ++ [q]).length = (s.stx k.val).tx.length + 1 := List.length_append
  rw [← hlen]
  exact if_neg (by rw [h, hm]; simpa using hr)

theorem opStRx_waits {k : Fin 8} (h : (s.stx k.val).rx = [] ∨ portClocked s 2 k.val = false) : opStRx k s = s := by
  unfold opStRx
  split
  next x rest hx =>
    refine if_neg (h.elim (fun h => ?_) (fun h => by rw [h]; decide))
    rw [hx] at h
    exact absurd h (List.cons_ne_nil _ _)
  next => rfl

theorem opStRx_takes {k : Fin 8} {x : Quad × BitVec 13 × Bool × Bool} {rest : List (Quad × BitVec 13 × Bool × Bool)} (hc : portClocked s 2 k.val = true)
    (h : (s.stx k.val).rx = x :: rest) : opStRx k s = setStx k.val { s.stx k.val with rx := rest, out := some x } s := by
  unfold opStRx
  rw [h]
  exact if_pos hc

/-- The interface's host neither quarantined nor in reset. -/
def stDown (k : Nat) (s : State) : Bool :=
  match hostOf s 2 k with
  | none => true
  | some n => s.getB (Reg.rgnStatus n) 0 || s.getB (Reg.rgnStatus n) 4

theorem stDown_up {k : Nat} (h : ∀ n, hostOf s 2 k = some n → s.getB (Reg.rgnStatus n) 0 = false ∧ s.getB (Reg.rgnStatus n) 4 = false) (hn : hostOf s 2 k ≠ none) :
    stDown k s = false := by
  unfold stDown
  cases hh : hostOf s 2 k with
  | none => exact absurd hh hn
  | some n =>
    obtain ⟨h0, h4⟩ := h n hh
    dsimp only
    rw [h0, h4]
    rfl

/-- The first packet of an origin (R334). -/
theorem opUser_first (src : BitVec 10) (i k : BitVec 3) (seq : BitVec 8) (ts : List Quad) (s : State) : opUser src i k true seq ts s =
    (let f := BitVec.ofNat 13 (src.toNat * 8 + i.toNat)
     let ex := Store.set (fun _ => 0) (s.stx k.toNat).expect f.toNat (seq + 1)
     if stDown k.toNat s then stLost k.toNat src true (inboxTake 9 (setStx k.toNat { s.stx k.toNat with expect := ex } s))
     else if 512 < (s.stx k.toNat).rx.length + ts.length then s
     else inboxTake 9 (setStx k.toNat { s.stx k.toNat with expect := ex, rx := (s.stx k.toNat).rx ++ stRx f false ts } s)) := rfl

/-! ### Mesh time (R335, R336) -/

theorem opTimeSend_rests (h : s.mstate ≠ 2 ∨ isRef s = true) (seq : BitVec 8) : opTimeSend seq s = s ∧ opTimeMissed s = s := ⟨if_pos h, if_pos h⟩

theorem follows (hm : s.mstate = 2) (hr : isRef s = false) : ¬ (s.mstate ≠ 2 ∨ isRef s = true) := by
  rw [hm, hr]
  decide

/-- The first exchange of an offset above 1 us steps the time (R336). -/
theorem opTimeReply_steps {t2 t3 t4 : BitVec 64} (hm : s.mstate = 2) (hr : isRef s = false) (hf : s.mesh.firstEx = true)
    (ho : 256000 < (timeOffset s t2 t3 t4).natAbs) : opTimeReply t2 t3 t4 s =
      (fun u : State => { u with
        evt := { u.evt with time := u.evt.time + BitVec.ofInt 64 (timeOffset s t2 t3 t4 / 256) }
        mesh := { u.mesh with good := 0 } })
      (State.setF { s with mesh := { s.mesh with firstEx := false, missed := 0 } } Reg.mshTimeStatus 18 0 (offsetField (timeOffset s t2 t3 t4))) := by
  unfold opTimeReply
  rw [if_neg (follows hm hr)]
  dsimp only
  rw [if_pos (⟨hf, ho⟩ : s.mesh.firstEx = true ∧ 256000 < (timeOffset s t2 t3 t4).natAbs)]
  exact if_neg (by decide : ¬ 100 ≤ 0)

theorem nodeCfg_all : (List.range 8).all (fun p => s.fn (.mesh (Fin.ofNat 8 p)) == fnOff) = true ↔ ∀ p : Fin 8, s.fn (.mesh p) = fnOff := by
  rw [List.all_eq_true]
  constructor
  · intro h p
    have hp := h p.val (List.mem_range.2 p.isLt)
    rw [show Fin.ofNat 8 p.val = p from Fin.ext (Nat.mod_eq_of_lt p.isLt)] at hp
    exact eq_of_beq hp
  · exact fun h p _ => beq_iff_eq.2 (h _)

/-- Settles O29: each service of the mesh is the lemma of its case. -/
theorem meshServices : Obligations.MeshServices := by
  unfold Obligations.MeshServices
  refine ⟨fun who v s hlive c hc => ?push, fun n code ws s => ⟨fun u hu hr => ?ack, fun u hu hr => ?noack, fun u hu hr => ?result, fun u hu hr => ?noresult, fun u hu => ?rb,
      fun hr => .of_exec rfl (pushEnd_out hr (by decide)), fun hr => ?notimeout⟩,
    fun src first last abort off ws s u hu => ⟨fun hst ha => ?dropped, fun hst h3 hf ha => ?aborted, fun hst h3 hf ha h1 => ?more, fun hst ha h1 => ?busy, fun hst he ha => ?starts⟩,
    fun k q dest last s => ⟨fun h => congrArg Host.Outcome.next (opStTx_waits h q dest last), fun h => congrArg Host.Outcome.next (opStRx_waits h),
      fun h hm hr hl hn => ?tx, fun h hm hr hl => ?txSends, fun x rest hc hx => congrArg Host.Outcome.next (opStRx_takes hc hx)⟩,
    fun src i k seq ts s t ht => ⟨fun h hn hroom => ?full, fun h hn hroom => ?user, fun hn => ?lost⟩,
    fun p seq t2 t3 t4 s => ⟨fun h => ⟨congrArg Host.Outcome.next (opTimeSend_rests h seq).1, congrArg Host.Outcome.next (opTimeSend_rests h seq).2⟩,
      fun hm hr => ⟨congrArg Host.Outcome.next (if_neg (follows hm hr)), congrArg Host.Outcome.next (if_neg (follows hm hr))⟩,
      fun u hu => ⟨?request, fun h => ?noreply, fun hm hr hf ho => ?reply⟩⟩,
    fun who v s hlive => ⟨fun hr => ?timeSet, fun hr => ?timeRefused, fun h => ?nodeCfg, fun ⟨p, hp⟩ => ?nodeKept⟩⟩
  case push =>
    simp only [List.mem_cons, List.not_mem_nil, or_false] at hc
    rcases hc with rfl | rfl
    · exact pushCommand hlive rfl
    · exact pushCommand hlive rfl
  case ack => subst hu; exact congrArg Host.Outcome.next (if_pos hr)
  case noack => subst hu; exact congrArg Host.Outcome.next (if_neg (by rw [hr]; decide))
  case result => subst hu; exact .of_exec rfl (opImgResult_out hr code)
  case noresult => subst hu; exact congrArg Host.Outcome.next (if_neg (by rw [hr]; decide))
  case rb => subst hu; exact .of_exec rfl (opImgRb_out ws.length _)
  case notimeout =>
    refine congrArg Host.Outcome.next (if_neg (fun h => ?_))
    rw [pushRuns_iff.2 h] at hr
    exact absurd hr (by decide)
  case dropped =>
    subst hu ha
    refine congrArg Host.Outcome.next ((opImgData_abort ..).trans ?_)
    rw [pushOther src hst]
    rfl
  case aborted =>
    subst hu ha
    exact congrArg Host.Outcome.next ((opImgData_abort ..).trans (if_pos (pushMine hst h3 hf)))
  case more =>
    subst hu ha h1
    exact congrArg Host.Outcome.next ((opImgData_words ..).trans (if_pos ⟨pushMine hst h3 hf, rfl⟩))
  case busy =>
    subst hu ha h1
    refine congrArg Host.Outcome.next ((opImgData_words ..).trans ?_)
    rw [if_neg (fun h => absurd h.2 (by decide)), if_pos (.inl hst), if_pos rfl]
  case starts =>
    subst hu ha
    refine congrArg Host.Outcome.next ((opImgData_words ..).trans ?_)
    rw [pushOther src hst, if_neg (fun h => absurd h.1 (by decide)), if_neg (fun h => h.elim (fun h => h hst) (by rw [he]; decide))]
  case tx =>
    refine congrArg Host.Outcome.next ((opStTx_takes h hm hr q dest last).trans (if_neg ?_))
    rw [hl]
    exact fun hc => hc.elim (by decide) (fun hc => by omega)
  case txSends =>
    exact congrArg Host.Outcome.next ((opStTx_takes h hm hr q dest last).trans (if_pos (hl.imp id (fun hl => by omega))))
  case full =>
    subst ht
    refine congrArg Host.Outcome.next ((opUser_first src i k seq ts s).trans ?_)
    dsimp only
    rw [stDown_up h hn, if_neg Bool.false_ne_true, if_pos hroom]
  case user =>
    subst ht
    refine congrArg Host.Outcome.next ((opUser_first src i k seq ts s).trans ?_)
    dsimp only
    rw [stDown_up h hn, if_neg Bool.false_ne_true, if_neg (by omega)]
  case lost =>
    subst ht
    have hdown : stDown k.toNat s = true := by
      unfold stDown
      rw [hn]
    refine congrArg Host.Outcome.next ((opUser_first src i k seq ts s).trans ?_)
    dsimp only
    rw [if_pos hdown]
  case request => subst hu; rfl
  case noreply => subst hu; exact congrArg Host.Outcome.next (if_pos h)
  case reply =>
    subst hu
    refine .of_exec_eq rfl (opTimeReply_steps hm hr hf ho) ⟨rfl, rfl, rfl, rfl, ?_, fun a ha => ?_⟩
    · exact getF_setF_same (s := { inboxTake 0x0A s with mesh := { (inboxTake 0x0A s).mesh with firstEx := false, missed := 0 } }) (a := Reg.mshTimeStatus) (by decide)
    · exact reg_setF_other (s := { inboxTake 0x0A s with mesh := { (inboxTake 0x0A s).mesh with firstEx := false, missed := 0 } }) (by simpa using ha)
  case timeSet => exact .of_exec_eq rfl ((gateW_live hlive).trans (if_pos hr)) ⟨rfl, rfl⟩
  case timeRefused => exact congrArg Host.Outcome.next ((gateW_live hlive).trans (if_neg (by rw [show isRef (begin who s) = false from hr]; decide)))
  case nodeCfg => exact congrArg Host.Outcome.next ((gateW_live hlive).trans (if_pos (nodeCfg_all (s := begin who s) |>.2 h)))
  case nodeKept => exact congrArg Host.Outcome.next ((gateW_live hlive).trans (if_neg (fun h => hp (nodeCfg_all (s := begin who s) |>.1 h p))))

end Sys2Proof.Machine
end

section
/-! O30: traps, MRET, the double fault, WFI, EBREAK and the core's interrupt (R341, R346, R347, R350, R385). -/

namespace Sys2Proof.Machine

variable {s t : State}

/-! ### CSRs and the trace -/

theorem csr_setCsr {a n : Nat} {x : BitVec 32} : (s.setCsr a x).csr n = if n = a then x else s.csr n := Store.get_set

theorem csr_of_core (h : t.core.csr = s.core.csr) (n : Nat) : t.csr n = s.csr n := congrArg (Store.get (fun _ => 0) · n) h

/-- The trace record moves the debug block alone (R439). -/
theorem traceRec_out (kind : Nat) (target : BitVec 32) (s : State) : (traceRec kind target s).core = s.core ∧ (traceRec kind target s).scr = s.scr ∧
    KeepRegs [Reg.dbgTraceCtrl] s (traceRec kind target s) := by
  unfold traceRec
  split
  · exact ⟨rfl, rfl, fun a ha => reg_setF_other (by simpa using ha)⟩
  · exact ⟨rfl, rfl, fun _ _ => rfl⟩

/-! ### Trap entry (R346, R385) -/

/-- The core's state after a trap entry, before the trace and IN_FAULT. -/
def trapCore (interrupt : Bool) (cause : Nat) (pc tval : BitVec 32) (s : State) : State :=
  let s := (((stageSave s).setCsr csrMepc pc).setCsr csrMcause (BitVec.ofNat 32 (interrupt.toNat <<< 31 ||| cause % 2 ^ 31))).setCsr csrMtval tval
  let s := s.setCsr csrMstatus (mstatusTrap (s.csr csrMstatus))
  { s with core := { s.core with pc := trapPc s interrupt cause, resv := none, wfi := false, exc := none } }

theorem trapTake_eq (interrupt : Bool) (cause : Nat) (pc tval : BitVec 32) (s : State) : trapTake interrupt cause pc tval s =
    (fun u => if ¬ interrupt ∧ accessFault cause then State.setB u Reg.flcXipStatus 35 true else u)
      (traceRec 3 (trapCore interrupt cause pc tval s).core.pc (trapCore interrupt cause pc tval s)) := rfl

/-- The CSRs that a trap writes; every other stays. -/
theorem trapCore_csr (interrupt : Bool) (cause : Nat) (pc tval : BitVec 32) (s : State) (n : Nat) : (trapCore interrupt cause pc tval s).csr n =
    if n = csrMstatus then mstatusTrap (s.csr csrMstatus) else if n = csrMtval then tval
    else if n = csrMcause then BitVec.ofNat 32 (interrupt.toNat <<< 31 ||| cause % 2 ^ 31) else if n = csrMepc then pc
    else if n = csrMstagea then BitVec.ofNat 32 s.core.latchAddr.toNat
    else if n = csrMstage then BitVec.ofNat 32 (s.core.latchValid.toNat <<< 8 ||| s.core.latchNib.toNat <<< 4 ||| s.core.staging.toNat) else s.csr n := by
  have hstage : ∀ m, (stageSave s).csr m = if m = csrMstagea then BitVec.ofNat 32 s.core.latchAddr.toNat
      else if m = csrMstage then BitVec.ofNat 32 (s.core.latchValid.toNat <<< 8 ||| s.core.latchNib.toNat <<< 4 ||| s.core.staging.toNat) else s.csr m := by
    intro m
    exact (csr_setCsr (a := csrMstagea)).trans (if_congr Iff.rfl rfl csr_setCsr)
  have hstatus : ((((stageSave s).setCsr csrMepc pc).setCsr csrMcause (BitVec.ofNat 32 (interrupt.toNat <<< 31 ||| cause % 2 ^ 31))).setCsr csrMtval tval).csr
      csrMstatus = s.csr csrMstatus := by
    rw [csr_setCsr, csr_setCsr, csr_setCsr, hstage, if_neg (by decide), if_neg (by decide), if_neg (by decide), if_neg (by decide), if_neg (by decide)]
  refine (csr_setCsr (a := csrMstatus)).trans ?_
  rw [hstatus, csr_setCsr, csr_setCsr, csr_setCsr, hstage]

theorem trapCore_pc (interrupt : Bool) (cause : Nat) (pc tval : BitVec 32) (s : State) : (trapCore interrupt cause pc tval s).core.pc = trapPc s interrupt cause := by
  have htvec : (trapCore interrupt cause pc tval s).csr csrMtvec = s.csr csrMtvec := by
    rw [trapCore_csr, if_neg (by decide), if_neg (by decide), if_neg (by decide), if_neg (by decide), if_neg (by decide), if_neg (by decide)]
  have hpc : (trapCore interrupt cause pc tval s).core.pc = trapPc (trapCore interrupt cause pc tval s) interrupt cause := rfl
  rw [hpc]
  unfold trapPc
  rw [htvec]

/-- What a trap clears in the core, and the registers it leaves. -/
theorem trapCore_live (interrupt : Bool) (cause : Nat) (pc tval : BitVec 32) (s : State) : (trapCore interrupt cause pc tval s).core.resv = none ∧
    (trapCore interrupt cause pc tval s).core.wfi = false ∧ (trapCore interrupt cause pc tval s).core.staging = 0 ∧
    (trapCore interrupt cause pc tval s).core.latchValid = false ∧ (trapCore interrupt cause pc tval s).core.gpr = s.core.gpr := by
  simp only [trapCore, State.setCsr, stageSave, and_self]

theorem setCsr_rest (s : State) (n : Nat) (x : BitVec 32) : ∃ c, s.setCsr n x = { s with core := c } := ⟨_, rfl⟩

theorem stageSave_rest (s : State) : ∃ c, stageSave s = { s with core := c } := ⟨_, rfl⟩

/-- A trap entry writes nothing but the core before its trace and IN_FAULT. -/
theorem trapCore_rest (interrupt : Bool) (cause : Nat) (pc tval : BitVec 32) (s : State) : ∃ c, trapCore interrupt cause pc tval s = { s with core := c } := by
  unfold trapCore
  dsimp only
  obtain ⟨c0, h0⟩ := stageSave_rest s
  rw [h0]
  obtain ⟨c1, h1⟩ := setCsr_rest { s with core := c0 } csrMepc pc
  rw [h1]
  obtain ⟨c2, h2⟩ := setCsr_rest { s with core := c1 } csrMcause (BitVec.ofNat 32 (interrupt.toNat <<< 31 ||| cause % 2 ^ 31))
  rw [h2]
  obtain ⟨c3, h3⟩ := setCsr_rest { s with core := c2 } csrMtval tval
  rw [h3]
  exact ⟨_, rfl⟩

theorem trapTake_core (interrupt : Bool) (cause : Nat) (pc tval : BitVec 32) (s : State) :
    (trapTake interrupt cause pc tval s).core = (trapCore interrupt cause pc tval s).core ∧ (trapTake interrupt cause pc tval s).scr = s.scr := by
  have htrap : (trapCore interrupt cause pc tval s).scr = s.scr := by
    obtain ⟨c, hc⟩ := trapCore_rest interrupt cause pc tval s
    rw [hc]
  rw [trapTake_eq]
  generalize trapCore interrupt cause pc tval s = v at htrap ⊢
  obtain ⟨hcore, hscr, -⟩ := traceRec_out 3 v.core.pc v
  generalize traceRec 3 v.core.pc v = q at hcore hscr ⊢
  dsimp only
  split
  · exact ⟨hcore, hscr.trans htrap⟩
  · exact ⟨hcore, hscr.trans htrap⟩

theorem trapTake_csr (interrupt : Bool) (cause : Nat) (pc tval : BitVec 32) (s : State) (n : Nat) :
    (trapTake interrupt cause pc tval s).csr n = (trapCore interrupt cause pc tval s).csr n :=
  csr_of_core (congrArg Core.csr (trapTake_core interrupt cause pc tval s).1) n

/-- A trap writes the trace register, and FLC.XIP_STATUS for an access fault. -/
theorem trapTake_regs (interrupt : Bool) (cause : Nat) (pc tval : BitVec 32) (s : State) :
    inFault (trapTake interrupt cause pc tval s) = (inFault s || (!interrupt && accessFault cause)) ∧
    KeepRegs [Reg.flcXipStatus, Reg.dbgTraceCtrl] s (trapTake interrupt cause pc tval s) ∧
    (accessFault cause = false → KeepRegs [Reg.dbgTraceCtrl] s (trapTake interrupt cause pc tval s)) := by
  have htrap : (trapCore interrupt cause pc tval s).regs = s.regs := by
    obtain ⟨c, hc⟩ := trapCore_rest interrupt cause pc tval s
    rw [hc]
  rw [trapTake_eq]
  generalize trapCore interrupt cause pc tval s = v at htrap ⊢
  obtain ⟨-, -, hkeep⟩ := traceRec_out 3 v.core.pc v
  have hregs : KeepRegs [Reg.dbgTraceCtrl] s (traceRec 3 v.core.pc v) := fun a ha => (hkeep a ha).trans (congrArg (Store.get regDefault · a) htrap)
  generalize traceRec 3 v.core.pc v = q at hregs ⊢
  have hq : inFault q = inFault s := by
    unfold inFault
    rw [getB_eq, getB_eq, hregs _ (by decide)]
  have hcond : (¬ interrupt = true ∧ accessFault cause = true) ↔ (!interrupt && accessFault cause) = true := by
    cases interrupt <;> simp
  have hmem : ∀ a, a ∉ [Reg.flcXipStatus, Reg.dbgTraceCtrl] → a ≠ Reg.flcXipStatus ∧ a ∉ [Reg.dbgTraceCtrl] := fun a ha => by simpa using ha
  dsimp only
  by_cases h : (!interrupt && accessFault cause) = true
  · rw [if_pos (hcond.2 h), h, Bool.or_true]
    refine ⟨getB_setB_same (by decide), fun a ha => (reg_setB_other (hmem a ha).1).trans (hregs a (hmem a ha).2), fun hf => ?_⟩
    rw [hf, Bool.and_false] at h
    exact absurd h (by decide)
  · rw [if_neg (fun hc => h (hcond.1 hc)), Bool.eq_false_iff.2 h, Bool.or_false]
    exact ⟨hq, fun a ha => hregs a (hmem a ha).2, fun _ => hregs⟩

/-! ### MRET -/

/-- MRET of a core that runs. -/
def mretTake (s : State) : State :=
  let s := stageRestore s
  let s := traceRec 4 (s.csr csrMepc) { s with core := { s.core with pc := s.csr csrMepc } }
  (s.setCsr csrMstatus (mstatusRet (s.csr csrMstatus))).setB Reg.flcXipStatus 35 false

theorem mretTake_out (s : State) : (mretTake s).core.pc = s.csr csrMepc ∧ (mretTake s).csr csrMstatus = mstatusRet (s.csr csrMstatus) ∧ inFault (mretTake s) = false ∧
    (mretTake s).core.staging = BitVec.ofNat 4 (fld (s.csr csrMstage) 3 0) ∧ (mretTake s).core.latchNib = BitVec.ofNat 4 (fld (s.csr csrMstage) 7 4) ∧
    (mretTake s).core.latchValid = (s.csr csrMstage).getLsbD 8 ∧ (mretTake s).core.latchAddr = BitVec.ofNat 24 (fld (s.csr csrMstagea) 23 0) ∧
    (mretTake s).core.gpr = s.core.gpr ∧ (mretTake s).scr = s.scr ∧ KeepRegs [Reg.flcXipStatus, Reg.dbgTraceCtrl] s (mretTake s) := by
  generalize hr : ({ stageRestore s with core := { (stageRestore s).core with pc := s.csr csrMepc } } : State) = r
  obtain ⟨hcore, hscr, hkeep⟩ := traceRec_out 4 (s.csr csrMepc) r
  have heq : mretTake s = ((traceRec 4 (s.csr csrMepc) r).setCsr csrMstatus (mstatusRet ((traceRec 4 (s.csr csrMepc) r).csr csrMstatus))).setB Reg.flcXipStatus 35 false := by
    rw [← hr]
    rfl
  generalize traceRec 4 (s.csr csrMepc) r = q at hcore hscr hkeep heq
  have hcsr : q.csr csrMstatus = s.csr csrMstatus := csr_of_core (by rw [hcore, ← hr]; rfl) _
  rw [heq, hcsr]
  refine ⟨?_, csr_setCsr.trans (if_pos rfl), getB_setB_same (by decide), ?_, ?_, ?_, ?_, ?_, ?_, fun a ha => ?_⟩
  · show q.core.pc = _
    rw [hcore, ← hr]
  · show q.core.staging = _
    rw [hcore, ← hr]
    rfl
  · show q.core.latchNib = _
    rw [hcore, ← hr]
    rfl
  · show q.core.latchValid = _
    rw [hcore, ← hr]
    rfl
  · show q.core.latchAddr = _
    rw [hcore, ← hr]
    rfl
  · show q.core.gpr = _
    rw [hcore, ← hr]
    rfl
  · show q.scr = _
    rw [hscr, ← hr]
    rfl
  · simp only [List.mem_cons, List.not_mem_nil, or_false, not_or] at ha
    refine (reg_setB_other (s := q.setCsr csrMstatus _) ha.1).trans ((hkeep a (by simpa using ha.2)).trans ?_)
    rw [← hr]
    rfl

/-! ### Double faults (R385, R435) -/

theorem attached_of_dbg (h : t.dbg = s.dbg) (hl : dbgLevel t = dbgLevel s) : attached t = attached s := by
  unfold attached
  rw [h, hl]

theorem coreHaltFor_out (cause : Nat) (s : State) : (coreHaltFor cause s).core.halted = true ∧ (coreHaltFor cause s).core.pc = s.core.pc ∧
    (coreHaltFor cause s).csr csrDcsr = BitVec.ofNat 32 (0x40000003 ||| cause <<< 6) ∧ (coreHaltFor cause s).regs = s.regs ∧ (coreHaltFor cause s).evt = s.evt :=
  ⟨rfl, rfl, csr_setCsr.trans (if_pos rfl), rfl, rfl⟩

theorem doubleFault_attached (h : attached s = true) (m : Nat) (pc : BitVec 32) : doubleFaultTake m pc s =
    coreHaltFor 3 { raise 0x70B 0 (m <<< 32 ||| pc.toNat) s with core := { (raise 0x70B 0 (m <<< 32 ||| pc.toNat) s).core with pc := pc, exc := none } } := by
  refine if_pos ?_
  exact (attached_of_dbg (raise_dbg ..) (by unfold dbgLevel; rw [raise_dbg])).trans h

theorem doubleFault_alone (h : attached s = false) (m : Nat) (pc : BitVec 32) : doubleFaultTake m pc s =
    failsafe 0xA05 12 3 { raise 0x70B 0 (m <<< 32 ||| pc.toNat) s with core := { (raise 0x70B 0 (m <<< 32 ||| pc.toNat) s).core with stopped := true, exc := none } } := by
  refine if_neg ?_
  have hatt : attached (raise 0x70B 0 (m <<< 32 ||| pc.toNat) s) = false := (attached_of_dbg (raise_dbg ..) (by unfold dbgLevel; rw [raise_dbg])).trans h
  rw [hatt]
  decide

theorem coreRuns_up (h : coreUp s = false) : coreRuns s = false := by
  unfold coreRuns
  rw [h]
  rfl

/-- Settles O30: each command of the core is the lemma of its case. -/
theorem coreTraps : Obligations.CoreTraps := by
  unfold Obligations.CoreTraps
  refine ⟨fun i cause pc tval s hup hdf => ?trap, fun i cause pc tval s hdown => ?down, fun s hr => .of_exec_eq rfl (if_pos hr) (mretTake_out s),
    fun m pc s hup hf ha => ⟨fun hatt => ?halts, fun hatt hn => ?fails⟩, fun pc s hr => ⟨congrArg Host.Outcome.next (if_pos hr), fun hatt => ?ebreakHalts, fun hatt => ?ebreakTraps⟩,
    fun m pc s h => ?single, fun pc s hup => ⟨fun h => ?noirq, fun hm hie hmie => ?wakes, fun hm hie hmie => ?irq⟩⟩
  case trap =>
    have htake : opTrap i cause.toNat pc tval s = trapTake i cause.toNat pc tval s := by
      refine if_neg (fun hc => hdf ?_)
      exact ⟨Bool.eq_false_iff.2 hc.1, hc.2.1, hc.2.2⟩
    obtain ⟨hcore, hscr⟩ := trapTake_core i cause.toNat pc tval s
    obtain ⟨hfault, hkeep, -⟩ := trapTake_regs i cause.toNat pc tval s
    obtain ⟨hresv, hwfi, hstaging, hlatch, hgpr⟩ := trapCore_live i cause.toNat pc tval s
    have hcsr := fun n => (trapTake_csr i cause.toNat pc tval s n).trans (trapCore_csr i cause.toNat pc tval s n)
    refine .of_exec_eq rfl ((if_pos hup).trans htake) ⟨hcsr _, (hcsr _).trans ?_, hcsr _, hcsr _, ?_, ?_, ?_, ?_, ?_, hcsr _, hcsr _, hfault, ?_, hscr, hkeep⟩
    · rw [Nat.mod_eq_of_lt cause.isLt]
      rfl
    · rw [hcore, trapCore_pc]
    · rw [hcore, hresv]
    · rw [hcore, hwfi]
    · rw [hcore, hstaging]
    · rw [hcore, hlatch]
    · rw [hcore, hgpr]
  case down =>
    have hr := coreRuns_up hdown
    have hup : ∀ {p : Prop}, ¬ (coreUp s = true ∧ p) := fun h => by rw [hdown] at h; exact absurd h.1 (by decide)
    have htrap : (if coreUp s = true then opTrap i cause.toNat pc tval s else s) = s := if_neg (by rw [hdown]; decide)
    have hrun : ∀ {f : State}, (if coreRuns s = true then f else s) = s := if_neg (by rw [hr]; decide)
    exact ⟨congrArg Host.Outcome.next htrap, fun m => congrArg Host.Outcome.next (if_neg hup), congrArg Host.Outcome.next (if_neg hup),
      congrArg Host.Outcome.next hrun, congrArg Host.Outcome.next hrun, congrArg Host.Outcome.next hrun⟩
  case halts =>
    have hlog := raise_logged (code := 0x70B) (src := 0) (d := m.toNat <<< 32 ||| pc.toNat) (s := s) (u := s) rfl
    refine .of_exec_eq rfl ((if_pos ⟨hup, hf, ha⟩).trans (doubleFault_attached hatt m.toNat pc)) ⟨rfl, rfl, ?_⟩
    exact hlog
  case fails =>
    refine .of_exec_eq rfl ((if_pos ⟨hup, hf, ha⟩).trans (doubleFault_alone hatt m.toNat pc)) (failsafe_mode ?_)
    show (raise 0x70B 0 (m.toNat <<< 32 ||| pc.toNat) s).boot.nrstLow = false
    rw [raise_boot]
    exact hn
  case ebreakHalts =>
    obtain ⟨hhalt, hpc, hdcsr, hregs, -⟩ := coreHaltFor_out 1 { s with core := { s.core with pc := pc } }
    exact .of_exec_eq rfl ((if_pos hr).trans (if_pos hatt)) ⟨hhalt, hpc, hdcsr, hregs⟩
  case ebreakTraps =>
    refine .of_exec_eq rfl ((if_pos hr).trans (if_neg (by rw [hatt]; decide))) ?_
    generalize (if Config.freeBit s.free = true then pc else 0) = tval
    obtain ⟨hcore, -⟩ := trapTake_core false 3 pc tval s.draw
    obtain ⟨-, -, hkeep⟩ := trapTake_regs false 3 pc tval s.draw
    have hcsr := fun n => (trapTake_csr false 3 pc tval s.draw n).trans (trapCore_csr false 3 pc tval s.draw n)
    refine ⟨hcsr _, hcsr _, ?_, hkeep (by decide)⟩
    rw [hcore, trapCore_pc]
    rfl
  case single =>
    refine congrArg Host.Outcome.next (if_neg (fun hc => ?_))
    rcases h with h | h
    · rw [h] at hc; exact absurd hc.2.1 (by decide)
    · rw [h] at hc; exact absurd hc.2.2 (by decide)
  case noirq =>
    refine congrArg Host.Outcome.next (if_neg (fun hc => ?_))
    rcases h with h | h
    · rw [h] at hc; exact absurd hc.2.1 (by decide)
    · rw [h] at hc; exact absurd hc.2.2 (by decide)
  case wakes => exact congrArg Host.Outcome.next ((if_pos ⟨hup, hm, hie⟩).trans (if_neg (by rw [hmie]; decide)))
  case irq =>
    obtain ⟨hcore, -⟩ := trapTake_core true 11 pc 0 s
    obtain ⟨-, -, hkeep⟩ := trapTake_regs true 11 pc 0 s
    have hcsr := fun n => (trapTake_csr true 11 pc 0 s n).trans (trapCore_csr true 11 pc 0 s n)
    refine .of_exec_eq rfl ((if_pos ⟨hup, hm, hie⟩).trans (if_pos hmie)) ⟨hcsr _, hcsr _, ?_, hcsr _, ?_, hkeep (by decide)⟩
    · rw [hcore, trapCore_pc]
    · rw [hcore, (trapCore_live true 11 pc 0 s).2.1]

end Sys2Proof.Machine
end

section
/-! O31: loads, stores, atomics and register accesses of the Vatman core (R343 to R348). -/

namespace Sys2Proof.Machine

variable {s t : State} {addr : BitVec 32} {wid : Width} {x : Word} {f : Word → Word} {g : Word → BitVec 32} {r cause : Nat}

/-! ### A core that does not run -/

theorem notRuns (h : coreRuns s = false) : (!coreRuns s) = true := by rw [h]; rfl

theorem runs_not (h : coreRuns s = true) : ¬ (!coreRuns s) = true := by rw [h]; decide

theorem ok_not {b : Bool} (h : b = true) : ¬ (!b) = true := by rw [h]; decide

theorem bad_not {b : Bool} (h : b = false) : (!b) = true := by rw [h]; rfl

/-! ### The answer of a good word -/

/-- The state in which a word has been answered to the core. -/
def coreAnswered (x : Word) (s : State) : State := { s with resp := { who := rqCore, data := x, err := false } }

theorem coreRead_good (h : WordAt s rqCore (scrOff addr) false x) : scrRead rqCore (scrOff addr) (begin rqCore s) = coreAnswered x s :=
  scrRead_good h.begin

theorem coreMerge_good (h : WordAt s rqCore (scrOff addr) true x) : coreMerge addr f s = coreAnswered x (scrSet (scrOff addr) { data := f x } s) := by
  unfold coreMerge
  rw [scrMerge_good h.begin]
  rfl

theorem coreAnswer_ok (h : s.resp.err = false) : coreAnswer cause addr g s = { s with core := { s.core with data := g s.resp.data } } :=
  if_neg (by rw [h]; decide)

/-! ### Loads and fetches (R344) -/

theorem opScrLoad_misaligned (hr : coreRuns s = true) (ha : aligned addr wid = false) : opScrLoad addr wid false s = coreExc 4 addr s :=
  (if_neg (runs_not hr)).trans (if_pos (by rw [ha]; rfl))

theorem opScrLoad_outside {fetch : Bool} (hr : coreRuns s = true) (ha : aligned addr wid = true) (hg : scrRange addr = none) :
    opScrLoad addr wid fetch s = coreExc (if fetch then 1 else 5) addr s := by
  unfold opScrLoad
  dsimp only
  rw [if_neg (runs_not hr), if_neg (by rw [ha]; simp), hg]

/-- What a load takes of the word: its upper nibble at the nibble address, its lanes otherwise. -/
def loadLanes (r : Nat) (addr : BitVec 32) (wid : Width) (d : Word) : BitVec 32 :=
  if r = 1 then laneGet (BitVec.ofNat 32 (fld d 35 32)) addr wid else laneGet (low32 d) addr wid

theorem opScrLoad_good (hr : coreRuns s = true) (ha : aligned addr wid = true) (hg : scrRange addr = some r) (h : WordAt s rqCore (scrOff addr) false x) :
    opScrLoad addr wid false s = { coreAnswered x s with core := { s.core with data := loadLanes r addr wid x } } := by
  unfold opScrLoad
  dsimp only
  rw [if_neg (runs_not hr), if_neg (by rw [ha]; decide), hg]
  dsimp only
  rw [if_neg (fun hc => absurd hc.1 (by decide)), coreRead_good h, if_neg (fun hc => absurd hc.1 (by decide))]
  exact coreAnswer_ok rfl

/-- A fetch takes words whose bits 35:32 are zero, and no other. -/
theorem opScrLoad_fetches (hr : coreRuns s = true) (hg : scrRange addr = some 0) (h : WordAt s rqCore (scrOff addr) false x) :
    opScrLoad addr wid true s = if fld x 35 32 ≠ 0 then coreExc 1 addr (coreAnswered x s)
      else { coreAnswered x s with core := { s.core with data := loadLanes 0 addr wid x } } := by
  unfold opScrLoad
  dsimp only
  rw [if_neg (runs_not hr), Bool.not_true, Bool.false_and, if_neg Bool.false_ne_true, hg]
  dsimp only
  rw [if_neg (fun hc => absurd rfl hc.2), coreRead_good h]
  by_cases h0 : fld x 35 32 ≠ 0
  · rw [if_pos h0]
    exact if_pos ⟨rfl, Bool.false_ne_true, h0⟩
  · rw [if_neg h0]
    exact (if_neg (fun hc => h0 hc.2.2)).trans (coreAnswer_ok rfl)

/-! ### Stores (R344, R347) -/

theorem opScrStore_misaligned {d : BitVec 32} (hr : coreRuns s = true) (ha : aligned addr wid = false) : opScrStore addr wid d s = coreExc 6 addr s :=
  (if_neg (runs_not hr)).trans (if_pos (bad_not ha))

/-- What a store does to the word of its range: the lanes, the upper nibble, bits set, bits cleared. -/
def storeWord (r : Nat) (addr : BitVec 32) (wid : Width) (d : BitVec 32) (x : Word) : Word :=
  match r with
  | 0 => withLow x (lanePut (low32 x) addr wid d)
  | 1 => if addr.toNat % 4 = 0 then setFld x 35 32 (fld d 3 0) else x
  | 2 => withLow x (low32 x ||| lanePut 0 addr wid d)
  | _ => withLow x (low32 x &&& ~~~(lanePut 0 addr wid d))

theorem opScrStore_outside {d : BitVec 32} (hr : coreRuns s = true) (ha : aligned addr wid = true) (hg : scrRange addr = none) :
    opScrStore addr wid d s = coreExc 7 addr s := by
  unfold opScrStore
  rw [if_neg (runs_not hr), if_neg (ok_not ha), hg]

theorem opScrStore_merges {d : BitVec 32} (hr : coreRuns s = true) (ha : aligned addr wid = true) (hg : scrRange addr = some r) (h4 : r < 4) :
    opScrStore addr wid d s = coreMerge addr (storeWord r addr wid d) s := by
  unfold opScrStore
  rw [if_neg (runs_not hr), if_neg (ok_not ha), hg]
  match r, h4 with
  | 0, _ => rfl
  | 1, _ => rfl
  | 2, _ => rfl
  | 3, _ => rfl

theorem opScrStore_good {d : BitVec 32} (hr : coreRuns s = true) (ha : aligned addr wid = true) (hg : scrRange addr = some r) (h4 : r < 4)
    (h : WordAt s rqCore (scrOff addr) true x) :
    opScrStore addr wid d s = coreAnswered x (scrSet (scrOff addr) { data := storeWord r addr wid d x } s) :=
  (opScrStore_merges hr ha hg h4).trans (coreMerge_good h)

/-! ### LR, SC and AMO (R347) -/

theorem opLr_misaligned (hr : coreRuns s = true) (ha : aligned addr .word = false) : opLr addr s = coreExc 4 addr s :=
  (if_neg (runs_not hr)).trans (if_pos (bad_not ha))

theorem opSc_misaligned {d : BitVec 32} (hr : coreRuns s = true) (ha : aligned addr .word = false) : opSc addr d s = coreExc 6 addr s :=
  (if_neg (runs_not hr)).trans (if_pos (bad_not ha))

theorem opAmo_misaligned {d : BitVec 32} (op : AmoOp) (hr : coreRuns s = true) (ha : aligned addr .word = false) : opAmo op addr d s = coreExc 6 addr s :=
  (if_neg (runs_not hr)).trans (if_pos (bad_not ha))

theorem scrRange_cases (h : scrRange addr ≠ some 0) : scrRange addr = none ∨ ∃ n, scrRange addr = some (n + 1) := by
  match hr : scrRange addr with
  | none => exact .inl rfl
  | some 0 => exact absurd hr h
  | some (n + 1) => exact .inr ⟨n, rfl⟩

/-- LR, SC and AMO outside the scratchpad words are access faults. -/
theorem atomic_outside {d : BitVec 32} (op : AmoOp) (hr : coreRuns s = true) (ha : aligned addr .word = true) (hg : scrRange addr ≠ some 0) :
    opLr addr s = coreExc 7 addr s ∧ opSc addr d s = coreExc 7 addr s ∧ opAmo op addr d s = coreExc 7 addr s := by
  unfold opLr opSc opAmo
  rw [if_neg (runs_not hr), if_neg (ok_not ha), if_neg (runs_not hr), if_neg (ok_not ha), if_neg (runs_not hr), if_neg (ok_not ha)]
  rcases scrRange_cases hg with h | ⟨n, h⟩ <;> rw [h] <;> exact ⟨rfl, rfl, rfl⟩

theorem opLr_good (hr : coreRuns s = true) (ha : aligned addr .word = true) (hg : scrRange addr = some 0) (h : WordAt s rqCore (scrOff addr) false x) :
    opLr addr s = { coreAnswered x s with core := { s.core with data := low32 x, resv := some (Fin.ofNat 2097152 (scrOff addr)) } } := by
  unfold opLr
  rw [if_neg (runs_not hr), if_neg (ok_not ha), hg]
  dsimp only
  rw [coreRead_good h, coreAnswer_ok rfl]
  rfl

theorem opSc_without {d : BitVec 32} (hr : coreRuns s = true) (ha : aligned addr .word = true) (hg : scrRange addr = some 0)
    (hv : s.core.resv.map Fin.val ≠ some (scrOff addr)) : opSc addr d s = { s with core := { s.core with resv := none, data := 1 } } := by
  unfold opSc
  rw [if_neg (runs_not hr), if_neg (ok_not ha), hg]
  exact if_neg hv

theorem opSc_with {d : BitVec 32} (hr : coreRuns s = true) (ha : aligned addr .word = true) (hg : scrRange addr = some 0)
    (hv : s.core.resv.map Fin.val = some (scrOff addr)) (h : WordAt s rqCore (scrOff addr) true x) :
    opSc addr d s = { coreAnswered x (scrSet (scrOff addr) { data := withLow x d } s) with core := { s.core with data := 0, resv := none } } := by
  unfold opSc
  rw [if_neg (runs_not hr), if_neg (ok_not ha), hg]
  dsimp only
  rw [if_pos hv, coreMerge_good h]
  rfl

theorem opAmo_good {d : BitVec 32} (op : AmoOp) (hr : coreRuns s = true) (ha : aligned addr .word = true) (hg : scrRange addr = some 0)
    (h : WordAt s rqCore (scrOff addr) true x) : opAmo op addr d s =
      (fun u : State => { u with core := { u.core with data := low32 x } }) (coreAnswered x (scrSet (scrOff addr) { data := withLow x (amoOp op (low32 x) d) } s)) := by
  unfold opAmo
  rw [if_neg (runs_not hr), if_neg (ok_not ha), hg]
  dsimp only
  rw [scrMerge_good h.begin]
  exact coreAnswer_ok rfl

/-! ### Registers and the staging nibble (R345, R348) -/

/-- A write to a nibble address. -/
def nibbleStore (addr d : BitVec 32) (s : State) : State :=
  if !coreRuns s then s
  else if !aligned addr .word then coreExc 6 addr s
  else if nibbleRange addr then { s with core := { s.core with staging := BitVec.ofNat 4 d.toNat } }
  else coreExc 7 addr s

theorem exec_nibbleWrite (addr d : BitVec 32) (s : State) : exec (.nibbleWrite addr d) s = .next (nibbleStore addr d s) := rfl

theorem nibbleStore_aligned {d : BitVec 32} (hr : coreRuns s = true) (ha : aligned addr .word = true) : nibbleStore addr d s =
    if nibbleRange addr then { s with core := { s.core with staging := BitVec.ofNat 4 d.toNat } } else coreExc 7 addr s :=
  (if_neg (runs_not hr)).trans (if_neg (ok_not ha))

theorem opNibbleRead_eq (hr : coreRuns s = true) (hn : nibbleRange addr = true) : opNibbleRead addr s = if !aligned addr .word then coreExc 4 addr s
    else if s.core.latchValid ∧ s.core.latchAddr.toNat = coreReg addr then { s with core := { s.core with data := s.core.latchNib.zeroExtend 32 } }
    else coreFull addr (fun d => BitVec.ofNat 32 (fld d 35 32)) s :=
  (if_neg (runs_not hr)).trans (if_neg (ok_not hn))

/-- The nibble is not latched: the whole register is read for it. -/
theorem opNibbleRead_full (hr : coreRuns s = true) (hn : nibbleRange addr = true) (ha : aligned addr .word = true)
    (hl : s.core.latchValid = false ∨ s.core.latchAddr.toNat ≠ coreReg addr) : opNibbleRead addr s = coreFull addr (fun d => BitVec.ofNat 32 (fld d 35 32)) s := by
  rw [opNibbleRead_eq hr hn, if_neg (ok_not ha)]
  refine if_neg (fun hc => hl.elim (fun h => ?_) (fun h => h hc.2))
  rw [h] at hc
  exact absurd hc.1 (by decide)

theorem opNibbleRead_outside (hr : coreRuns s = true) (hn : nibbleRange addr = false) : opNibbleRead addr s = coreExc 5 addr s :=
  (if_neg (runs_not hr)).trans (if_pos (bad_not hn))

theorem opCoreRead_eq (hr : coreRuns s = true) (hg : regRange addr = true) : opCoreRead addr wid s =
    if !aligned addr wid then coreExc 4 addr s else coreFull addr (fun d => laneGet (low32 d) addr wid) s :=
  (if_neg (runs_not hr)).trans (if_neg (ok_not hg))

theorem opCoreRead_outside (hr : coreRuns s = true) (hg : regRange addr = false) : opCoreRead addr wid s = coreExc 5 addr s :=
  (if_neg (runs_not hr)).trans (if_pos (bad_not hg))

theorem opCoreWrite_outside {d : BitVec 32} (hr : coreRuns s = true) (h : regRange addr = false ∨ wid ≠ .word) : opCoreWrite addr wid d s = coreExc 7 addr s :=
  (if_neg (runs_not hr)).trans (if_pos (h.imp bad_not id))

/-- The register after a write of the core, with the staging nibble spent. -/
def coreWritten (addr d : BitVec 32) (s : State) : State :=
  let u := regWrite rqCore (coreReg addr) (wd (s.core.staging.toNat <<< 32 ||| d.toNat)) s
  { u with core := { u.core with staging := 0 } }

theorem opCoreWrite_word {d : BitVec 32} (hr : coreRuns s = true) (hg : regRange addr = true) : opCoreWrite addr .word d s =
    if !aligned addr .word then coreExc 6 addr s
    else if (coreWritten addr d s).resp.err then coreExc 7 addr (coreWritten addr d s) else coreWritten addr d s :=
  (if_neg (runs_not hr)).trans (if_neg (fun h => h.elim (ok_not hg) (fun h => h rfl)))

/-- Settles O31: each access of the core is the lemma of its case. -/
theorem coreAccesses : Obligations.CoreAccesses := by
  unfold Obligations.CoreAccesses
  refine ⟨fun addr wid f d op s h => ?stopped,
    fun addr wid d op s hr => ⟨fun ha => ⟨congrArg Host.Outcome.next (opScrLoad_misaligned hr ha), congrArg Host.Outcome.next (opScrStore_misaligned hr ha)⟩,
      fun ha => ?misaligned, fun ha hg => ⟨congrArg Host.Outcome.next (opScrLoad_outside hr ha hg), congrArg Host.Outcome.next (opScrLoad_outside hr ha hg),
        congrArg Host.Outcome.next (opScrStore_outside hr ha hg)⟩, fun ha hg => ?atomics⟩,
    fun addr wid x s hr h => ⟨fun ha hg => congrArg Host.Outcome.next (opScrLoad_good hr ha hg h), fun ha hg => congrArg Host.Outcome.next (opScrLoad_good hr ha hg h),
      fun hg hn => congrArg Host.Outcome.next ((opScrLoad_fetches hr hg h).trans (if_pos hn)),
      fun hg h0 => congrArg Host.Outcome.next ((opScrLoad_fetches hr hg h).trans (if_neg (not_not.2 h0))), fun ha hg => congrArg Host.Outcome.next (opLr_good hr ha hg h)⟩,
    fun addr wid d op x s hr h => ⟨fun ha hg => congrArg Host.Outcome.next (opScrStore_good hr ha hg (by decide) h), fun ha hg h0 => ?nibble,
      fun ha hg => congrArg Host.Outcome.next (opScrStore_good hr ha hg (by decide) h), fun ha hg => congrArg Host.Outcome.next (opScrStore_good hr ha hg (by decide) h),
      fun ha hg hv => .of_exec_eq rfl (opSc_with hr ha hg hv h) ⟨rfl, rfl, fun j => scrStored_scrSet⟩,
      fun ha hg hv => congrArg Host.Outcome.next (opSc_without hr ha hg hv), fun ha hg => .of_exec_eq rfl (opAmo_good op hr ha hg h) ⟨rfl, rfl, fun j => scrStored_scrSet⟩⟩,
    fun addr d s hr ha => ⟨fun hn => congrArg Host.Outcome.next ((nibbleStore_aligned hr ha).trans (if_pos hn)), fun hn hv hl => ?latched,
      fun hn hv => congrArg Host.Outcome.next (opNibbleRead_full hr hn ha (.inl hv)),
      fun hn => ⟨congrArg Host.Outcome.next ((nibbleStore_aligned hr ha).trans (if_neg (by rw [hn]; decide))), congrArg Host.Outcome.next (opNibbleRead_outside hr hn)⟩,
      fun hg u hu => ?regWrite, fun hn hl => congrArg Host.Outcome.next (opNibbleRead_full hr hn ha (.inr hl))⟩,
    fun addr wid d s hr => ⟨fun hg ha => congrArg Host.Outcome.next ((opCoreRead_eq hr hg).trans (if_neg (ok_not ha))),
      fun hg ha => congrArg Host.Outcome.next ((opCoreRead_eq hr hg).trans (if_pos (bad_not ha))), fun hg => congrArg Host.Outcome.next (opCoreRead_outside hr hg),
      fun h => congrArg Host.Outcome.next (opCoreWrite_outside hr h),
      fun ha => ⟨fun hg => congrArg Host.Outcome.next ((opCoreWrite_word hr hg).trans (if_pos (bad_not ha))),
        fun hn => congrArg Host.Outcome.next ((opNibbleRead_eq hr hn).trans (if_pos (bad_not ha)))⟩⟩⟩
  case stopped =>
    have hs := notRuns h
    simp only [List.forall_mem_cons, List.not_mem_nil, false_imp_iff, implies_true, and_true]
    exact ⟨congrArg Host.Outcome.next (if_pos hs), congrArg Host.Outcome.next (if_pos hs), congrArg Host.Outcome.next (if_pos hs), congrArg Host.Outcome.next (if_pos hs),
      congrArg Host.Outcome.next (if_pos hs), congrArg Host.Outcome.next (if_pos hs), congrArg Host.Outcome.next (if_pos hs), congrArg Host.Outcome.next (if_pos hs),
      congrArg Host.Outcome.next (if_pos hs), congrArg Host.Outcome.next (if_pos hs), congrArg Host.Outcome.next (if_pos hs)⟩
  case misaligned =>
    simp only [List.forall_mem_cons, List.not_mem_nil, false_imp_iff, implies_true, and_true]
    exact ⟨congrArg Host.Outcome.next (opLr_misaligned hr ha), congrArg Host.Outcome.next (opSc_misaligned hr ha), congrArg Host.Outcome.next (opAmo_misaligned op hr ha),
      congrArg Host.Outcome.next (opScrStore_misaligned hr ha), congrArg Host.Outcome.next (opScrStore_misaligned hr ha),
      congrArg Host.Outcome.next ((if_neg (runs_not hr)).trans (if_pos (bad_not ha)))⟩
  case atomics =>
    obtain ⟨hlr, hsc, hamo⟩ := atomic_outside (d := d) op hr ha hg
    simp only [List.forall_mem_cons, List.not_mem_nil, false_imp_iff, implies_true, and_true]
    exact ⟨congrArg Host.Outcome.next hlr, congrArg Host.Outcome.next hsc, congrArg Host.Outcome.next hamo⟩
  case nibble =>
    have hstore := opScrStore_good (d := d) hr ha hg (by decide) h
    have hword : storeWord 1 addr wid d x = setFld x 35 32 (fld d 3 0) := if_pos h0
    rw [hword] at hstore
    exact congrArg Host.Outcome.next hstore
  case latched => exact congrArg Host.Outcome.next ((opNibbleRead_eq hr hn).trans ((if_neg (ok_not ha)).trans (if_pos ⟨hv, hl⟩)))
  case regWrite =>
    subst hu
    have hw := (opCoreWrite_word (d := d) hr hg).trans (if_neg (ok_not ha))
    exact ⟨fun he => congrArg Host.Outcome.next (hw.trans (if_neg (by rw [show (coreWritten addr d s).resp.err = false from he]; decide))),
      fun he => congrArg Host.Outcome.next (hw.trans (if_pos he))⟩

end Sys2Proof.Machine
end

section
/-! O32: scratchpad accesses, bank ownership and the interrupt controller (R350, R354 to R358, R364). -/

namespace Sys2Proof.Machine

variable {s t : State} {who : Req} {off b : Nat} {v x y : Word}

/-! ### Accesses of one word -/

theorem scrUp_live (hlive : Live who s) : scrUp (begin who s) who = true := by
  obtain ⟨hrun, -, hserved⟩ := hlive
  show ((allAnswer s || s.mode == .failsafe) && served s who) = true
  rw [hserved, Bool.and_true]
  unfold allAnswer
  rw [hrun]
  rfl

theorem opScratch_read (hlive : Live who s) : opScratch who off none s = scrRead who off (begin who s) := if_pos (scrUp_live hlive)

theorem opScratch_write (hlive : Live who s) : opScratch who off (some v) s = scrWrite who off v (begin who s) := if_pos (scrUp_live hlive)

theorem beatRest_nil : beatRest off [] = [] := by rw [beatRest, List.take_nil]; rfl

/-- A beat of one word is an access. -/
theorem opBeat_single (w : Option Word) : opBeat who off w [] s = opScratch who off w s := by
  unfold opBeat
  rw [beatRest_nil]
  rfl

/-- The three commands that access one word. -/
def WordAccess (c : Req → Fin 2097152 → Option Word → Instr) : Prop :=
  c = (fun w o x => Instr.scratchpadAccess w o ⟨x, [], 0⟩) ∨ c = Instr.beaterYield ∨ c = Instr.beaterAbortOnAccess

theorem WordAccess.exec {c : Req → Fin 2097152 → Option Word → Instr} (hc : WordAccess c) (o : Fin 2097152) (w : Option Word) :
    exec (c who o w) s = .next (opScratch who o.val w s) := by
  rcases hc with rfl | rfl | rfl
  · show Host.Outcome.next (opBeat who o.val w [] s) = _
    rw [opBeat_single]
  · rfl
  · rfl

theorem scrGate_owner {write : Bool} {op : State → State} (h : bankServes s who off write = 1) :
    scrGate who off write op s = scrFault who off write 1 s := by
  unfold scrGate
  rw [h]
  rfl

theorem scrGate_held {write : Bool} {op : State → State} (h : bankServes s who off write = 2) (hx : s.getB Reg.scrBeaterXcfg 0 = false) :
    scrGate who off write op s = scrFault who off write 2 s := by
  unfold scrGate
  rw [h, hx]
  rfl

theorem scrGate_aborts {write : Bool} {op : State → State} (h : bankServes s who off write = 2) (hx : s.getB Reg.scrBeaterXcfg 0 = true)
    (hd : bankServes (beaterDropBank who (scrBank off) s) who off write = 0) :
    scrGate who off write op s = op (beaterDropBank who (scrBank off) s) := by
  unfold scrGate
  rw [h, hx]
  exact if_pos hd

theorem scrFault_out (write : Bool) (cause : Nat) (s : State) : (scrFault who off write cause s).resp.err = true ∧
    (scrFault who off write cause s).resp.data = s.resp.data ∧
    Logged 0x804 0 (cause <<< 30 ||| write.toNat <<< 29 ||| who.toNat <<< 21 ||| off) s (scrFault who off write cause s) :=
  ⟨rfl, congrArg (fun r => r.data) (raise_resp 0x804 0 (cause <<< 30 ||| write.toNat <<< 29 ||| who.toNat <<< 21 ||| off) s), (raise_logged rfl).of_same rfl rfl⟩

/-- A fetch of a good word from a bank that a preserving run is testing makes the run yield (R365). -/
theorem scrFetch_yields {k : Word → State → State} (hr : s.scr.beater.running = true) (hd : s.scr.beater.destruct = false)
    (ha : s.scr.beater.active.getLsbD (scrBank off) = true) (hc : (scrCell s off).chk = .good y) : scrFetch off who k s =
      k y (State.setB { s with scr := { s.scr with beater := { s.scr.beater with waiting := s.scr.beater.waiting ||| (1 <<< scrBank off) } } }
        Reg.scrBeaterStatus 29 true) := by
  have hy : beaterYield off s =
      State.setB { s with scr := { s.scr with beater := { s.scr.beater with waiting := s.scr.beater.waiting ||| (1 <<< scrBank off) } } }
        Reg.scrBeaterStatus 29 true := if_pos (by rw [hr, hd, ha]; rfl)
  have hcell : scrCell (beaterYield off s) off = scrCell s off := by rw [hy]; rfl
  unfold scrFetch
  dsimp only
  rw [hcell, hc, hy]

/-! ### Beats -/

/-- The further words of a write beat, stored one after another. -/
theorem beatStores_out (ws : List Word) (n : Nat) (hb : s.scr.beater.running = false) :
    (forAll (ws.zipIdx n) (fun e => scrPut e.2 e.1) s).regs = s.regs ∧ ∀ j, scrStored (forAll (ws.zipIdx n) (fun e => scrPut e.2 e.1) s) j =
      if n ≤ j then (ws[j - n]?.map fun w => ({ data := w } : Cell)).or (scrStored s j) else scrStored s j := by
  induction ws generalizing s n with
  | nil => exact ⟨rfl, fun j => by split <;> rfl⟩
  | cons w ws ih =>
    have hput : scrPut n w s = scrSet n { data := w } s := scrPut_idle hb
    obtain ⟨hregs, hstored⟩ := ih (s := scrPut n w s) (n + 1) (by rw [hput]; exact hb)
    refine ⟨hregs.trans (by rw [hput]; rfl), fun j => (hstored j).trans ?_⟩
    rw [hput, scrStored_scrSet]
    rcases Nat.lt_trichotomy j n with hlt | heq | hgt
    · rw [if_neg (by omega), if_neg (by omega), if_neg (by omega)]
    · subst heq
      rw [if_neg (by omega), if_pos rfl, if_pos (Nat.le_refl j), Nat.sub_self]
      rfl
    · rw [if_pos (by omega), if_neg (by omega), if_pos (by omega), show j - n = j - (n + 1) + 1 by omega, List.getElem?_cons_succ]

theorem take_group (more : List Word) : (v :: more).take (4 - off % 4) = v :: more.take (3 - off % 4) := by
  rw [show 4 - off % 4 = 3 - off % 4 + 1 by omega, List.take_succ_cons]

/-- A write beat over a bank that serves it, no Beater run under way. -/
theorem writeBeat_out (more : List Word) (hlive : Live who s) (h : bankServes s who off true = 0) (hb : s.scr.beater.running = false) :
    (opBeat who off (some v) more s).regs = s.regs ∧ ∀ j, scrStored (opBeat who off (some v) more s) j =
      if off ≤ j then (((v :: more).take (4 - off % 4))[j - off]?.map fun w => ({ data := w } : Cell)).or (scrStored s j) else scrStored s j := by
  have hop : opBeat who off (some v) more s = forAll (((v :: more).take (4 - off % 4)).zipIdx off) (fun e => scrPut e.2 e.1) (begin who s) :=
    (if_pos (scrUp_live hlive)).trans ((scrGate_served (s := begin who s) h).trans (by rw [take_group, List.zipIdx_cons]; rfl))
  rw [hop]
  exact beatStores_out (s := begin who s) _ off hb

theorem beatWord_good (hb : s.scr.beater.running = false) (hc : (scrCell s off).chk = .good y) :
    beatWord who off s = { s with resp := { s.resp with more := s.resp.more ++ [y] } } := by
  have hfetch : scrFetch off who answer { s with resp := { s.resp with data := 0 } } = answer y { s with resp := { s.resp with data := 0 } } :=
    scrFetch_good (s := { s with resp := { s.resp with data := 0 } }) hb hc
  unfold beatWord
  rw [hfetch]
  rfl

/-- The further words of a read beat, all of them good. -/
theorem beatReads_good (f : Nat → Word) (hb : s.scr.beater.running = false) (l : List (Word × Nat)) (hl : ∀ e ∈ l, (scrCell s e.2).chk = .good (f e.2))
    (r : Resp) : forAll l (fun e => beatWord who e.2) { s with resp := r } = { s with resp := { r with more := r.more ++ l.map fun e => f e.2 } } := by
  induction l generalizing r with
  | nil => show ({ s with resp := r } : State) = _; rw [List.map_nil, List.append_nil]
  | cons e l ih =>
    have hword : beatWord who e.2 { s with resp := r } = { s with resp := { r with more := r.more ++ [f e.2] } } :=
      beatWord_good (s := { s with resp := r }) hb (hl e (List.mem_cons_self ..))
    show forAll l (fun e => beatWord who e.2) (beatWord who e.2 { s with resp := r }) = _
    rw [hword, ih fun e he => hl e (List.mem_cons_of_mem _ he), List.append_assoc]
    rfl

/-- The offsets of a beat's further words: in the group of the first, above it. -/
theorem mem_beatRest {more : List Word} {e : Word × Nat} (h : e ∈ beatRest off more) : off < e.2 ∧ e.2 / 4 = off / 4 := by
  obtain ⟨w, j⟩ := e
  have hmem := List.mk_mem_zipIdx_iff_le_and_getElem?_sub.1 h
  obtain ⟨hle, hget⟩ := hmem
  have hlen := (List.getElem?_eq_some_iff.1 hget).1
  rw [List.length_take] at hlen
  dsimp only at hle hlen ⊢
  omega

/-- A read beat whose words are all good. -/
theorem readBeat_good (f : Nat → Word) (more : List Word) (hlive : Live who s) (h : WordAt s who off false x)
    (hf : ∀ j, off < j → j / 4 = off / 4 → (scrCell s j).chk = .good (f j)) : opBeat who off none more s =
      { s with resp := { who := who, data := x, err := false, more := (beatRest off more).map fun e => f e.2 } } := by
  obtain ⟨hserve, hb, hgood⟩ := h
  have hfirst : scrFetch off who answer (begin who s) = answer x (begin who s) := scrFetch_good (s := begin who s) hb hgood
  refine (if_pos (scrUp_live hlive)).trans ((scrGate_served (s := begin who s) hserve).trans ?_)
  show forAll (beatRest off more) (fun e => beatWord who e.2) (scrFetch off who answer (begin who s)) = _
  rw [hfirst]
  refine (beatReads_good (s := s) f hb _ (fun e he => ?_) _).trans rfl
  obtain ⟨hgt, hgroup⟩ := mem_beatRest he
  exact hf e.2 hgt hgroup

/-- Cycles waited are counted before the beat acts. -/
theorem beat_waited (o : Fin 2097152) (write : Option Word) (more : List Word) {m waits : Nat} (hlive : Live who s) (hm : conflictIx who = some m)
    (hw : 0 < waits) : exec (.scratchpadAccess who o ⟨write, more, waits⟩) s =
      exec (.scratchpadAccess who o ⟨write, more, 0⟩) (s.setF (Reg.scrConflict m) 35 0 (min (s.getF (Reg.scrConflict m) 35 0 + waits) (2 ^ 36 - 1))) := by
  have hup : scrUp s who = true := scrUp_live hlive
  have hcond : ¬ (waits = 0 ∨ (!scrUp s who) = true) := by
    rintro (h | h)
    · omega
    · rw [hup] at h; cases h
  have hcount : beatWaited who waits s = s.setF (Reg.scrConflict m) 35 0 (min (s.getF (Reg.scrConflict m) 35 0 + waits) (2 ^ 36 - 1)) := by
    unfold beatWaited
    rw [hm]
  show Host.Outcome.next (opBeat who o.val write more (if waits = 0 ∨ (!scrUp s who) = true then s else beatWaited who waits s)) = _
  rw [if_neg hcond, hcount]
  rfl

/-! ### Bank registers -/

/-- A handover by the owner to another holder, or to none. -/
theorem handover_out (hown : bankOwner s b = who.toNat) (hwho : who ≠ 0) (hid : fld v 7 0 = 0 ∨ knownReq (fld v 7 0) = true)
    (hne : fld v 7 0 ≠ who.toNat) : opHandover b who v s = (s.setF (Reg.scrBankClaim b) 7 0 (fld v 7 0)).setB (Reg.scrBankCfg b) 0 false ∧
      bankOwner (opHandover b who v s) b = fld v 7 0 := by
  have hlt : fld v 7 0 < 256 := fld_lt v
  have hset : bankOwner (s.setF (Reg.scrBankClaim b) 7 0 (fld v 7 0)) b = fld v 7 0 :=
    (getF_setF_same (by decide)).trans (Nat.mod_eq_of_lt hlt)
  have hop : opHandover b who v s = (s.setF (Reg.scrBankClaim b) 7 0 (fld v 7 0)).setB (Reg.scrBankCfg b) 0 false := by
    have hmove : (if bankOwner s b = who.toNat ∧ who ≠ 0 ∧ (fld v 7 0 = 0 ∨ knownReq (fld v 7 0) = true) then
        s.setF (Reg.scrBankClaim b) 7 0 (fld v 7 0) else claimRefuse (Reg.scrBankClaim b) ⟨3, b⟩ who s) =
        s.setF (Reg.scrBankClaim b) 7 0 (fld v 7 0) := if_pos ⟨hown, hwho, hid⟩
    unfold opHandover bankClaim
    dsimp only
    rw [hmove, hset, hown, if_neg hne]
  refine ⟨hop, ?_⟩
  rw [hop]
  exact (getF_setF_other (by unfold Reg.scrBankClaim Reg.scrBankCfg; omega)).trans hset

theorem bankCfg_not_evtReg (hb : b < 16) : Reg.scrBankCfg b ∉ evtRegs := by
  simp only [evtRegs, Reg.scrBankCfg, Reg.sysEvtPend, Reg.sysEvtWr, Reg.sysEvtStatus, Reg.sysHifStatus, Reg.scrIrqPend, Reg.cfgStatus,
    Reg.cfgSwapStatus, Reg.calStatus, Reg.scrBeaterStatus, List.mem_cons, List.not_mem_nil, or_false]
  omega

theorem bankCfg_refused (hb : b < 16) (hmine : bankMine s b who = false) : (opBankCfg b who v s).resp.err = true ∧
    (opBankCfg b who v s).reg (Reg.scrBankCfg b) = s.reg (Reg.scrBankCfg b) := by
  have hop : opBankCfg b who v s = busErr (raise 0x804 0 (1 <<< 32 ||| 1 <<< 30 ||| 1 <<< 29 ||| who.toNat <<< 21 ||| b * 131072) s) :=
    if_neg (by rw [hmine]; exact Bool.false_ne_true)
  rw [hop]
  exact ⟨rfl, raise_reg _ _ _ _ _ (bankCfg_not_evtReg hb)⟩

/-! ### The interrupt controller -/

theorem irqTake_none (peek : Bool) (h : irqBest s = 0) : opIrqTake peek s = answer 0 s := by
  unfold opIrqTake
  dsimp only
  rw [if_pos (.inr h), h]
  rfl

theorem irqTake_peeked : opIrqTake true s = answer (wd (irqBest s)) s := by
  unfold opIrqTake
  exact if_pos (.inl rfl)

/-- The state in which the interrupt offered has been answered and is in service. -/
def irqServed (s : State) : State :=
  { answer (wd (irqBest s)) s with scr := { s.scr with inService := s.scr.inService ++ [irqBest s] } }

theorem irqTake_taken (h : irqBest s ≠ 0) : opIrqTake false s =
    if irqIsLevel (irqBest s) then irqServed s else (irqServed s).setB (Reg.scrIrqPend (irqBest s / 32)) (irqBest s % 32) false := by
  unfold opIrqTake
  refine if_neg ?_
  rintro (hpeek | hzero)
  · cases hpeek
  · exact h hzero

/-- Settles O32: each access by the state of its bank, beats word by word, and the bank and interrupt registers by their writes. -/
theorem scratchpad : Obligations.Scratchpad := by
  unfold Obligations.Scratchpad
  refine ⟨fun who off v x s hlive c hc => ⟨fun hword => ?read, fun hserve hb => ?write, fun howner => ?owner, fun hheld hx => ?held,
      fun hheld hx u hu hserve => ?aborts, fun hserve y hr hd ha hgood => ?yields⟩,
    fun who off v x more s hlive => ⟨fun hserve hb => ?writeBeat, fun f hword hf => ?readBeat, fun write m waits hm hw => beat_waited off write more hlive hm hw⟩,
    fun who b v s hlive => ⟨fun hown hwho hid hne => ?handover, fun hmine => ?cfg, fun hmine => ?cfgRefused⟩,
    fun who v s hlive => ⟨fun hbest peek => ?none, fun peek hpeek => ?peeked, fun peek hpeek hbest => ?taken, ?done⟩⟩
  case read => exact (WordAccess.exec hc off none).trans (congrArg Host.Outcome.next ((opScratch_read hlive).trans (scrRead_good hword.begin)))
  case write =>
    have hop : opScratch who off.val (some v) s = scrSet off.val { data := v } (begin who s) :=
      (opScratch_write hlive).trans (scrWrite_served (s := begin who s) hserve hb)
    exact .of_exec_eq (WordAccess.exec hc off (some v)) hop ⟨rfl, fun j => scrStored_scrSet⟩
  case owner =>
    have hop : opScratch who off.val none s = scrFault who off.val false 1 (begin who s) :=
      (opScratch_read hlive).trans (scrGate_owner (s := begin who s) howner)
    obtain ⟨herr, hdata, hlog⟩ := scrFault_out (who := who) (off := off.val) false 1 (begin who s)
    exact .of_exec_eq (WordAccess.exec hc off none) hop ⟨herr, hdata, hlog⟩
  case held =>
    have hop : opScratch who off.val (some v) s = scrFault who off.val true 2 (begin who s) :=
      (opScratch_write hlive).trans (scrGate_held (s := begin who s) hheld hx)
    obtain ⟨herr, -, hlog⟩ := scrFault_out (who := who) (off := off.val) true 2 (begin who s)
    exact .of_exec_eq (WordAccess.exec hc off (some v)) hop ⟨herr, hlog⟩
  case aborts =>
    subst hu
    exact (WordAccess.exec hc off (some v)).trans (congrArg Host.Outcome.next ((opScratch_write hlive).trans (scrGate_aborts (s := begin who s) hheld hx hserve)))
  case yields =>
    have hop := (opScratch_read hlive).trans ((scrGate_served (s := begin who s) hserve).trans (scrFetch_yields (s := begin who s) (k := answer) hr hd ha hgood))
    exact .of_exec_eq (WordAccess.exec hc off none) hop ⟨rfl, rfl, getB_setB_same (by decide)⟩
  case writeBeat => exact .of_exec rfl (writeBeat_out more hlive hserve hb)
  case readBeat => exact congrArg Host.Outcome.next (readBeat_good f more hlive hword hf)
  case handover =>
    obtain ⟨hop, howner⟩ := handover_out (s := begin who s) hown hwho hid hne
    refine .of_exec_eq rfl (gateW_live hlive) ⟨howner, ?_, ?_, ?_⟩
    · rw [hop]; exact getB_setB_same (by decide)
    · intro a ha
      rw [hop]
      simp only [List.mem_cons, List.not_mem_nil, or_false, not_or] at ha
      exact (reg_setB_other ha.2).trans (reg_setF_other ha.1)
    · rw [hop]; rfl
  case cfg => exact congrArg Host.Outcome.next ((gateW_live hlive).trans (if_pos hmine))
  case cfgRefused => exact .of_exec_eq rfl (gateW_live hlive) (bankCfg_refused (s := begin who s) b.isLt hmine)
  case none => exact congrArg Host.Outcome.next ((gateR_live hlive).trans (irqTake_none (s := begin who s) _ hbest))
  case peeked =>
    refine congrArg Host.Outcome.next ((gateR_live hlive).trans ?_)
    rw [hpeek]
    exact irqTake_peeked
  case taken =>
    refine .of_exec_eq rfl ((gateR_live hlive).trans ((congrArg (opIrqTake · (begin who s)) hpeek).trans (irqTake_taken (s := begin who s) hbest))) ?_
    split
    case isTrue hlev => exact ⟨rfl, rfl, fun _ => rfl, fun hn => absurd (hlev.symm.trans hn) (by decide)⟩
    case isFalse hlev =>
      exact ⟨rfl, rfl, fun h => absurd h hlev, fun _ _ => ⟨getB_setB_same (by omega), fun a ha => reg_setB_other fun h => ha (List.mem_singleton.2 h)⟩⟩
  case done => exact .of_exec_eq rfl (gateW_live hlive) ⟨rfl, rfl⟩

end Sys2Proof.Machine
end

section
/-! O33: Beater runs start, are refused, aborted and completed (R360 to R367). -/

namespace Sys2Proof.Machine

variable {s t : State} {who : Req} {v : Word}

/-! ### The state that a run begins from and the one it leaves -/

/-- The settings of CTRL are stored; STATUS, and with it the Beater's STATE, stays. -/
theorem fn_setReg_beaterCtrl (x : Word) : (s.setReg Reg.scrBeaterCtrl x).fn .beater = s.fn .beater := fn_of_reg (reg_setReg_other (by decide))

theorem getLsbD_or_one : (v ||| 1).getLsbD 0 = true := by
  rw [BitVec.getLsbD_or, show (1 : Word).getLsbD 0 = true by decide, Bool.or_true]

theorem getLsbD_and_not_one : (v &&& ~~~(1 : Word)).getLsbD 0 = false := by
  rw [BitVec.getLsbD_and, show (~~~(1 : Word)).getLsbD 0 = false by decide, Bool.and_false]

theorem beaterRun_out (banks : BitVec 16) (ss destruct repair fromSvc : Bool) (s : State) :
    (beaterRun banks ss destruct repair fromSvc s).fn .beater = fnStarting ∧ (beaterRun banks ss destruct repair fromSvc s).getB Reg.scrBeaterCtrl 0 = true ∧
    (beaterRun banks ss destruct repair fromSvc s).scr = { s.scr with beater :=
      { running := true, destruct := destruct, ss := ss, repair := repair, banks := banks, active := banks, fromSvc := fromSvc } } ∧
    KeepRegs [Reg.scrBeaterFail, Reg.scrBeaterStatus, Reg.scrBeaterCtrl] s (beaterRun banks ss destruct repair fromSvc s) := by
  refine ⟨fn_setFn (by decide), ?_, rfl, fun a ha => ?_⟩
  · exact (getB_setF_other (by decide)).trans (getB_setB_same (by decide))
  · simp only [List.mem_cons, List.not_mem_nil, or_false, not_or] at ha
    obtain ⟨hfail, hstatus, hctrl⟩ := ha
    exact (reg_setF_other hstatus).trans ((reg_setB_other hctrl).trans ((reg_setF_other hstatus).trans (reg_setReg_other hfail)))

/-- The Beater as an ended run leaves it: result `res` in STATUS, ENABLE clear, STOPPING. -/
def beaterStopped (res : Nat) (s : State) : State :=
  let s := { s with scr := { s.scr with beater := {} } }
  let s := (s.setF Reg.scrBeaterStatus 31 30 res).setF Reg.scrBeaterStatus 29 29 0
  (s.setB Reg.scrBeaterCtrl 0 false).setFn .beater fnStopping

theorem beaterStopped_out {res : Nat} (hres : res < 4) (s : State) : (beaterStopped res s).scr = { s.scr with beater := {} } ∧
    (beaterStopped res s).fn .beater = fnStopping ∧ (beaterStopped res s).getF Reg.scrBeaterStatus 31 30 = res ∧
    (beaterStopped res s).getF Reg.scrBeaterStatus 29 29 = 0 ∧ (beaterStopped res s).getB Reg.scrBeaterCtrl 0 = false := by
  refine ⟨rfl, fn_setFn (by decide), ?_, ?_, ?_⟩
  · exact (getF_setF_field (by decide) (.inr (by decide))).trans ((getF_setF_other (by decide)).trans
      ((getF_setF_field (by decide) (.inr (by decide))).trans ((getF_setF_same (by decide)).trans (Nat.mod_eq_of_lt hres))))
  · exact (getF_setF_field (by decide) (.inr (by decide))).trans ((getF_setF_other (by decide)).trans (getF_setF_same (by decide)))
  · exact (getB_setF_other (by decide)).trans (getB_setB_same (by decide))

/-! ### Start and abort -/

theorem beaterStart_runs (h : beaterReason s (BitVec.ofNat 16 (s.getF Reg.scrBeaterCtrl 31 16)) (s.getB Reg.scrBeaterCtrl 9) = 0) : beaterStart s =
    beaterRun (BitVec.ofNat 16 (s.getF Reg.scrBeaterCtrl 31 16)) (s.getB Reg.scrBeaterCtrl 8) (s.getB Reg.scrBeaterCtrl 9) (s.getB Reg.scrBeaterCtrl 10) false s :=
  if_pos h

theorem beaterStart_refused (h : beaterReason s (BitVec.ofNat 16 (s.getF Reg.scrBeaterCtrl 31 16)) (s.getB Reg.scrBeaterCtrl 9) ≠ 0) : beaterStart s =
    raise 0x808 0 (beaterReason s (BitVec.ofNat 16 (s.getF Reg.scrBeaterCtrl 31 16)) (s.getB Reg.scrBeaterCtrl 9)) (s.setB Reg.scrBeaterCtrl 0 false) :=
  if_neg h

/-- What an abort leaves before it is reported. -/
def beaterDropped (s : State) : State := beaterStopped 3 (if s.scr.beater.destruct then scrForget s.scr.beater.active s else s)

theorem beaterAbort_running {cause : Nat} (h : s.scr.beater.running = true) : beaterAbort who cause s =
    raise 0x807 0 (cause <<< 12 ||| who.toNat <<< 4 ||| lowBank s.scr.beater.active) (beaterDropped s) := if_neg (by rw [h]; decide)

theorem beaterAbort_idle {cause : Nat} (h : s.scr.beater.running = false) : beaterAbort who cause s = s := if_pos (by rw [h]; decide)

theorem beaterDropped_seq (s : State) : (beaterDropped s).evt.seq = s.evt.seq := by
  show (if s.scr.beater.destruct then scrForget s.scr.beater.active s else s).evt.seq = _
  split <;> rfl

/-- The write of CTRL with ENABLE set. -/
theorem beaterCtrl_start (hlive : Live who s) : exec (.beaterStart who v) s = .next (beaterCtrl who true
    ((begin who s).setReg Reg.scrBeaterCtrl (wd ((v ||| 1).toNat &&& 0xFFFF0703 ||| ((s.reg Reg.scrBeaterCtrl).toNat &&& 0xF0))))) := by
  refine congrArg Host.Outcome.next ((gateW_live hlive).trans ?_)
  unfold opBeaterCtrl
  rw [getLsbD_or_one]
  rfl

/-- The write of CTRL with ENABLE clear. -/
theorem beaterCtrl_abort (hlive : Live who s) : exec (.beaterAbort who v) s = .next (beaterCtrl who false
    ((begin who s).setReg Reg.scrBeaterCtrl (wd ((v &&& ~~~(1 : Word)).toNat &&& 0xFFFF0703 ||| ((s.reg Reg.scrBeaterCtrl).toNat &&& 0xF0))))) := by
  refine congrArg Host.Outcome.next ((gateW_live hlive).trans ?_)
  unfold opBeaterCtrl
  rw [getLsbD_and_not_one]
  rfl

theorem beaterCtrl_true (h : s.fn .beater = fnOff) : beaterCtrl who true s = beaterStart s := if_pos h

theorem beaterCtrl_true_busy (h : s.fn .beater ≠ fnOff) : beaterCtrl who true s = s := if_neg h

theorem beaterCtrl_false (h : s.fn .beater ≠ fnStarting) : beaterCtrl who false s = beaterAbort who 2 s := if_neg h

theorem beaterCtrl_false_starting (h : s.fn .beater = fnStarting) :
    beaterCtrl who false s = { s with scr := { s.scr with beater := { s.scr.beater with stopBy := who } } } := if_pos h

/-! ### The end of a run -/

theorem opBeaterEnd_none (fails : List BFail) (h : s.scr.beater.running = false ∨ s.fn .beater ≠ fnOn ∨ rootStopped s = true) : opBeaterEnd fails s = s := by
  refine if_pos ?_
  rcases h with h | h | h
  · exact .inl (by rw [h]; rfl)
  · exact .inr (.inl h)
  · exact .inr (.inr h)

theorem opBeaterEnd_run (fails : List BFail) (h : s.scr.beater.running = true) (hon : s.fn .beater = fnOn) (hroot : rootStopped s = false) :
    opBeaterEnd fails s = if s.scr.beater.fromSvc then testEnd (beaterEnd fails s).1 (beaterEnd fails s).2 else (beaterEnd fails s).2 := by
  refine if_neg ?_
  rintro (hr | hf | hs)
  · rw [h] at hr; cases hr
  · exact hf hon
  · rw [hroot] at hs; cases hs

/-- A preserving run that finds nothing. -/
theorem beaterEnd_passes (hd : s.scr.beater.destruct = false) : beaterEnd [] s = (none, raise 0x805 0 s.scr.beater.banks.toNat (beaterStopped 1 s)) := by
  unfold beaterEnd
  simp only [List.filter_nil, beaterFails, hd, Bool.false_eq_true, if_false]
  rfl

/-- Settles O33: CTRL with ENABLE set, CTRL with it clear, the restart of waiting blocks and the end of a run. -/
theorem beaterRuns : Obligations.BeaterRuns := by
  unfold Obligations.BeaterRuns
  refine ⟨fun who v s u hlive hu => ⟨fun hfn => ?busy, fun banks d hbanks hd hfn => ⟨fun hr => ?runs, fun hr => ?refused⟩⟩,
    fun who v s u hlive hu => ⟨fun hrun hfn => ?idle, fun hfn => ?starting, fun hrun hfn => ?abort⟩, fun s => rfl,
    fun fails s => ⟨fun h => congrArg Host.Outcome.next (opBeaterEnd_none fails h),
      fun hrun hon hroot => congrArg Host.Outcome.next (opBeaterEnd_run fails hrun hon hroot), fun hrun hon hroot hsvc hd => ?passes⟩⟩
  case busy =>
    have hf : u.fn .beater = s.fn .beater := hu ▸ fn_setReg_beaterCtrl (s := begin who s) _
    refine (beaterCtrl_start hlive).trans ?_
    rw [← hu, beaterCtrl_true_busy (by rw [hf]; exact hfn)]
  case runs =>
    have hf : u.fn .beater = s.fn .beater := hu ▸ fn_setReg_beaterCtrl (s := begin who s) _
    have hscr : u.scr = s.scr := by rw [hu]; rfl
    subst hbanks hd
    have hop : beaterCtrl who true u = _ := (beaterCtrl_true (hf.trans hfn)).trans (beaterStart_runs hr)
    obtain ⟨hfn', hen, hout, hregs⟩ := beaterRun_out (BitVec.ofNat 16 (u.getF Reg.scrBeaterCtrl 31 16)) (u.getB Reg.scrBeaterCtrl 8) (u.getB Reg.scrBeaterCtrl 9)
      (u.getB Reg.scrBeaterCtrl 10) false u
    refine .of_exec_eq (beaterCtrl_start hlive) ((congrArg (beaterCtrl who true) hu.symm).trans hop) ⟨hfn', hen, ?_, ?_, hregs⟩
    · rw [hout, hscr]
    · rw [hout]
  case refused =>
    have hf : u.fn .beater = s.fn .beater := hu ▸ fn_setReg_beaterCtrl (s := begin who s) _
    subst hbanks hd
    have hop : beaterCtrl who true u = _ := (beaterCtrl_true (hf.trans hfn)).trans (beaterStart_refused hr)
    exact .of_exec_eq (beaterCtrl_start hlive) ((congrArg (beaterCtrl who true) hu.symm).trans hop) (raise_raises (by rw [hu]; rfl))
  case idle =>
    have hf : u.fn .beater = s.fn .beater := hu ▸ fn_setReg_beaterCtrl (s := begin who s) _
    refine (beaterCtrl_abort hlive).trans ?_
    rw [← hu, beaterCtrl_false (by rw [hf]; exact hfn), beaterAbort_idle (by rw [hu]; exact hrun)]
  case starting =>
    have hf : u.fn .beater = s.fn .beater := hu ▸ fn_setReg_beaterCtrl (s := begin who s) _
    refine (beaterCtrl_abort hlive).trans ?_
    rw [← hu, beaterCtrl_false_starting (hf.trans hfn), hu]
    rfl
  case abort =>
    have hf : u.fn .beater = s.fn .beater := hu ▸ fn_setReg_beaterCtrl (s := begin who s) _
    have hscr : u.scr = s.scr := by rw [hu]; rfl
    have hop : beaterCtrl who false u = _ := (beaterCtrl_false (by rw [hf]; exact hfn)).trans (beaterAbort_running (by rw [hscr]; exact hrun))
    obtain ⟨hout, hstop, hres, hwait, hen⟩ := beaterStopped_out (res := 3) (by decide) (if u.scr.beater.destruct then scrForget u.scr.beater.active u else u)
    refine ⟨beaterDropped u, congrArg (·.beater) hout, hstop, hres, hwait, hen, fun hd => hout.trans ?_, ?_⟩
    · rw [hscr, if_neg (by rw [hd]; exact Bool.false_ne_true), hscr]
    · refine .of_exec_eq (beaterCtrl_abort hlive) ((congrArg (beaterCtrl who false) hu.symm).trans hop) ?_
      rw [hscr]
      exact raise_raises ((beaterDropped_seq u).trans (by rw [hu]; rfl))
  case passes =>
    have hop : opBeaterEnd [] s = raise 0x805 0 s.scr.beater.banks.toNat (beaterStopped 1 s) :=
      (opBeaterEnd_run [] hrun hon hroot).trans ((if_neg (by rw [hsvc]; exact Bool.false_ne_true)).trans (congrArg Prod.snd (beaterEnd_passes hd)))
    obtain ⟨hout, hstop, hres, hwait, hen⟩ := beaterStopped_out (res := 1) (by decide) s
    exact ⟨beaterStopped 1 s, hres, hwait, hstop, hen, hout, .of_exec_eq rfl hop (raise_raises rfl)⟩

end Sys2Proof.Machine
end

section
/-! O34: the serial controllers and timers (R351 to R353, R368). -/

namespace Sys2Proof.Machine

variable {s t : State} {who : Req} {v : Word} {n k : Nat}

/-! ### Serial controllers -/

theorem ser_setSer {p : Serial} {j : Nat} : (s.setSer n p).ser j = if j = n then p else s.ser j := Store.get_set

@[simp] theorem ser_setSer_same {p : Serial} : (s.setSer n p).ser n = p := Store.get_set_same

/-- The transmit commands and the controller each writes to. -/
theorem exec_tx {c : Instr} {j : Fin 2} (h : (c, n) ∈ [(Instr.uartTx who j v, j.val), (.spiTx who j v, j.val + 2), (.i2cTx who j v, j.val + 4)]) :
    exec c s = .next (gateW who (Reg.scrSerTx n) (opSerTx n who v) s) := by
  simp only [List.mem_cons, List.not_mem_nil, or_false, Prod.mk.injEq] at h
  rcases h with ⟨rfl, rfl⟩ | ⟨rfl, rfl⟩ | ⟨rfl, rfl⟩
  · rfl
  · rfl
  · rfl

theorem opSerTx_queued (hm : periphMine (Reg.scrSerClaim n) who s = true) (hl : (s.ser n).tx.length < 64) :
    opSerTx n who v s = s.setSer n { s.ser n with tx := (s.ser n).tx ++ [wd (v.toNat &&& serTxMask n)] } := (if_pos hm).trans (if_pos hl)

theorem opSerTx_full (hm : periphMine (Reg.scrSerClaim n) who s = true) (hl : 64 ≤ (s.ser n).tx.length) :
    opSerTx n who v s = s.setSer n { s.ser n with ovf := (s.ser n).ovf + 1 } := (if_pos hm).trans (if_neg (Nat.not_lt.2 hl))

theorem opSerTx_refused (hm : periphMine (Reg.scrSerClaim n) who s = false) : opSerTx n who v s = busErr s :=
  if_neg (by rw [hm]; exact Bool.false_ne_true)

theorem opSerRx_empty (peek : Bool) (hm : periphMine (Reg.scrSerClaim n) who s = true) (hr : (s.ser n).rx = []) :
    opSerRx n who peek s = answer (serEmpty n) s := by
  refine (if_pos hm).trans ?_
  dsimp only
  rw [hr]

theorem opSerRx_entry {e : Word} {rest : List Word} (peek : Bool) (hm : periphMine (Reg.scrSerClaim n) who s = true) (hr : (s.ser n).rx = e :: rest) :
    opSerRx n who peek s = if peek then answer e s else answer e (s.setSer n { s.ser n with rx := rest }) := by
  refine (if_pos hm).trans ?_
  dsimp only
  rw [hr]

theorem opUartByte_off (data : Byte) (pe fe : Bool) (h : s.fn (.serial (Fin.ofNat 6 n)) ≠ fnOn ∨ rootStopped s = true) : opUartByte n data pe fe s = s := by
  refine if_neg ?_
  rintro ⟨hon, hroot, -⟩
  exact h.elim (fun hf => hf hon) hroot

theorem opUartByte_stores (data : Byte) (pe fe : Bool) (hon : s.fn (.serial (Fin.ofNat 6 n)) = fnOn) (hroot : rootStopped s = false)
    (hl : s.getB (Reg.scrUartCfg n) 0 = false) (hs : (s.pn (673 + 2 * n)).stage = .none) (hm : (s.pn (673 + 2 * n)).masked = false)
    (hp : pinRow s (673 + 2 * n) = 11) :
    opUartByte n data pe fe s = serStore n (data.toNat ||| pe.toNat <<< 8 ||| fe.toNat <<< 9) s :=
  if_pos ⟨hon, by rw [hroot]; exact Bool.false_ne_true, by rw [hl]; exact Bool.false_ne_true, hs, by rw [hm]; exact Bool.false_ne_true, hp⟩

/-! ### The end of a transfer -/

theorem opTransferEnd_none (rx : BitVec 32) (nak : Bool) (h : (s.ser n).tx = [] ∨ s.fn (.serial (Fin.ofNat 6 n)) ≠ fnOn ∨ rootStopped s = true) :
    opTransferEnd n rx nak s = s := by
  unfold opTransferEnd
  dsimp only
  cases htx : (s.ser n).tx with
  | nil => rfl
  | cons e rest =>
    rw [htx] at h
    exact if_pos (h.resolve_left (List.cons_ne_nil _ _))

/-- What the end of a transfer stores: a UART's own byte in LOOP, or what SPI and I2C received. -/
theorem opTransferEnd_on {e : Word} {rest : List Word} (rx : BitVec 32) (nak : Bool) (htx : (s.ser n).tx = e :: rest)
    (hon : s.fn (.serial (Fin.ofNat 6 n)) = fnOn) (hroot : rootStopped s = false) : opTransferEnd n rx nak s =
      if n < 2 then (if s.getB (Reg.scrUartCfg n) 0 then serStore n (e.toNat % 256) (s.setSer n { s.ser n with tx := rest })
        else s.setSer n { s.ser n with tx := rest })
      else if n < 4 then serStore n (rx.toNat % 2 ^ serWidth (s.setSer n { s.ser n with tx := rest }) n) (s.setSer n { s.ser n with tx := rest })
      else serStore n (rx.toNat % 256 ||| nak.toNat <<< 8) (s.setSer n { s.ser n with tx := rest }) := by
  have hcond : ¬ (s.fn (.serial (Fin.ofNat 6 n)) ≠ fnOn ∨ rootStopped s = true) := by
    rintro (hf | hr)
    · exact hf hon
    · rw [hroot] at hr; cases hr
  unfold opTransferEnd
  dsimp only
  rw [htx]
  exact if_neg hcond

/-! ### Timers -/

theorem tmrPin_regs (b : Bool) (s : State) : (tmrPin n b s).regs = s.regs := by
  unfold tmrPin
  split <;> rfl

/-- A timer's interrupt where its enable is set. -/
def tmrIrq (n : Nat) (en : Bool) (s : State) : State := if en then irqPulse (32 + n) s else s

theorem tmrIrq_reg {en : Bool} {a : Nat} (hn : n < 16) (h : a ≠ Reg.scrIrqPend 1 ∨ en = false) : (tmrIrq n en s).reg a = s.reg a := by
  cases en with
  | false => rfl
  | true =>
    have ha : a ≠ Reg.scrIrqPend ((32 + n) / 32) := by
      rw [show (32 + n) / 32 = 1 by omega]
      exact h.resolve_right (by decide)
    exact reg_setB_other ha

theorem tmrIrq_bit (hn : n < 16) : (tmrIrq n true s).getB (Reg.scrIrqPend 1) n = true := by
  have h := getB_setB_same (s := s) (a := Reg.scrIrqPend ((32 + n) / 32)) (i := (32 + n) % 32) (c := true) (by omega)
  show (s.setB (Reg.scrIrqPend ((32 + n) / 32)) ((32 + n) % 32) true).getB (Reg.scrIrqPend 1) n = true
  rw [show (32 + n) / 32 = 1 by omega, show (32 + n) % 32 = n by omega] at h ⊢
  exact h

/-- The registers after a match in the modes that go on counting: COUNT is zero, and a pulse is raised in modes 1 and 2. -/
theorem opTimerMatch_regs (hon : s.fn (.tmr (Fin.ofNat 16 n)) = fnOn) (hroot : rootStopped s = false) (hm : tmrMode s n ≠ 0) :
    (opTimerMatch n s).regs = (tmrIrq n (s.getB (Reg.scrTmrCfg n) 7 && tmrMode s n != 3) (s.setReg (Reg.scrTmrCount n) 0)).regs := by
  have hcond : ¬ (s.fn (.tmr (Fin.ofNat 16 n)) ≠ fnOn ∨ rootStopped s = true) := by
    rintro (hf | hr)
    · exact hf hon
    · rw [hroot] at hr; cases hr
  have hlt : tmrMode s n < 4 := fld_lt _
  have hirq : ∀ u w : State, u.regs = w.regs → (tmrIrq n (s.getB (Reg.scrTmrCfg n) 7) u).regs = (tmrIrq n (s.getB (Reg.scrTmrCfg n) 7) w).regs := by
    intro u w huw
    unfold tmrIrq irqPulse State.setB State.setF State.setReg State.reg
    split
    · dsimp only; rw [huw]
    · exact huw
  unfold opTimerMatch
  dsimp only
  rw [if_neg hcond]
  generalize tmrMode s n = m at hm hlt ⊢
  match m, hm, hlt with
  | 1, _, _ => rw [show (1 != 3) = true by decide, Bool.and_true]; exact tmrPin_regs ..
  | 2, _, _ => rw [show (2 != 3) = true by decide, Bool.and_true]; exact hirq _ _ (tmrPin_regs ..)
  | 3, _, _ => rw [show (3 != 3) = false by decide, Bool.and_false]; rfl

theorem opTimerMatch_off (h : s.fn (.tmr (Fin.ofNat 16 n)) ≠ fnOn ∨ rootStopped s = true) : opTimerMatch n s = s := if_pos h

theorem opTimerCapture_off (h : s.fn (.tmr (Fin.ofNat 16 n)) ≠ fnOn ∨ rootStopped s = true) : opTimerCapture n s = s := by
  refine if_neg ?_
  rintro ⟨hon, hroot, -⟩
  exact h.elim (fun hf => hf hon) hroot

/-- A match of a one-shot timer without its interrupt: the timer is OFF and its pin released. -/
theorem opTimerMatch_oneShot (hon : s.fn (.tmr (Fin.ofNat 16 n)) = fnOn) (hroot : rootStopped s = false) (hm : tmrMode s n = 0)
    (hi : s.getB (Reg.scrTmrCfg n) 7 = false) : opTimerMatch n s = periphRelease (.tmr (Fin.ofNat 16 n))
      (tmrPin n false ((s.setB (Reg.scrTmrCtrl n) 0 false).setFn (.tmr (Fin.ofNat 16 n)) fnOff)) := by
  have hcond : ¬ (s.fn (.tmr (Fin.ofNat 16 n)) ≠ fnOn ∨ rootStopped s = true) := by
    rintro (hf | hr)
    · exact hf hon
    · rw [hroot] at hr; cases hr
  unfold opTimerMatch
  dsimp only
  rw [if_neg hcond, hm, hi]
  rfl

theorem opTimerCapture_takes (hon : s.fn (.tmr (Fin.ofNat 16 n)) = fnOn) (hroot : rootStopped s = false) (hm : tmrMode s n = 3)
    (hpin : s.getB (Reg.scrTmrCfg n) 8 = true) (hc : (s.pn (694 + n)).conn = 2) (hs : (s.pn (694 + n)).stage = .none) (hk : (s.pn (694 + n)).masked = false)
    (hp : pinRow s (694 + n) = 11) (hi : s.getB (Reg.scrTmrCfg n) 7 = false) :
    opTimerCapture n s = s.setReg (Reg.scrTmrCmpB n) (s.reg (Reg.scrTmrCount n)) := by
  refine (if_pos ⟨hon, by rw [hroot]; exact Bool.false_ne_true, hm, hpin, hc, hs, by rw [hk]; exact Bool.false_ne_true, hp⟩).trans (if_neg ?_)
  rw [getB_eq, reg_setReg_other (by unfold Reg.scrTmrCfg Reg.scrTmrCmpB; omega), ← getB_eq, hi]
  exact Bool.false_ne_true

/-- Settles O34: transmit writes, receive reads, received bytes, transfers and timers, each by the state of its controller. -/
theorem peripherals : Obligations.Peripherals := by
  unfold Obligations.Peripherals
  refine ⟨fun who k v s hlive c n hc => ⟨fun hm hl => ?queued, fun hm hl => ?full, fun hm => ?notOwner⟩,
    fun who k s hlive hm => ⟨fun hr peek => ?empty, fun e rest hr peek => ⟨fun hpeek => ?peeked, fun hpeek => ?popped⟩⟩,
    fun k d pe fe s => ⟨fun h => congrArg Host.Outcome.next (opUartByte_off d pe fe h),
      fun hon hroot hl hs hm hp => congrArg Host.Outcome.next (opUartByte_stores d pe fe hon hroot hl hs hm hp)⟩,
    fun k rx nak s => ⟨fun h => ?noTransfer, fun e rest u htx hon hroot hu => ?transfer⟩,
    fun k s => ?timer⟩
  case queued => exact .of_exec_eq (exec_tx hc) ((gateW_live hlive).trans (opSerTx_queued (s := begin who s) hm hl)) ⟨rfl, ser_setSer_same, fun j hj => ser_setSer.trans (if_neg hj)⟩
  case full => exact .of_exec_eq (exec_tx hc) ((gateW_live hlive).trans (opSerTx_full (s := begin who s) hm hl)) ⟨rfl, ser_setSer_same⟩
  case notOwner => exact (exec_tx hc).trans (congrArg Host.Outcome.next ((gateW_live hlive).trans (opSerTx_refused (s := begin who s) hm)))
  case empty => exact congrArg Host.Outcome.next ((gateR_live hlive).trans (opSerRx_empty (s := begin who s) _ hm hr))
  case peeked =>
    refine congrArg Host.Outcome.next ((gateR_live hlive).trans ((opSerRx_entry (s := begin who s) _ hm hr).trans ?_))
    exact if_pos hpeek
  case popped =>
    exact .of_exec_eq rfl ((gateR_live hlive).trans ((opSerRx_entry (s := begin who s) _ hm hr).trans (if_neg (by rw [hpeek]; exact Bool.false_ne_true))))
      ⟨rfl, ser_setSer_same, rfl⟩
  case noTransfer =>
    have hk : Fin.ofNat 6 k.val = k := Fin.ext (Nat.mod_eq_of_lt k.isLt)
    exact congrArg Host.Outcome.next (opTransferEnd_none rx nak (by rw [hk]; exact h))
  case transfer =>
    have hk : Fin.ofNat 6 k.val = k := Fin.ext (Nat.mod_eq_of_lt k.isLt)
    have hop := opTransferEnd_on rx nak htx (by rw [hk]; exact hon) hroot
    rw [← hu] at hop
    refine ⟨fun h2 hl => ?_, fun h2 hl => ?_, fun h2 h4 => ?_, fun h4 => ?_⟩ <;> refine congrArg Host.Outcome.next (hop.trans ?_)
    · rw [if_pos h2, if_neg (by rw [hl]; exact Bool.false_ne_true)]
    · rw [if_pos h2, if_pos hl]
    · rw [if_neg (Nat.not_lt.2 h2), if_pos h4]
    · rw [if_neg (by omega), if_neg (Nat.not_lt.2 h4)]
  case timer =>
    have hk : Fin.ofNat 16 k.val = k := Fin.ext (Nat.mod_eq_of_lt k.isLt)
    refine ⟨fun h => ⟨congrArg Host.Outcome.next (opTimerMatch_off (by rw [hk]; exact h)), congrArg Host.Outcome.next (opTimerCapture_off (by rw [hk]; exact h))⟩,
      fun hon hroot hm => ?_, fun hon hroot hm hi => ?_, fun hon hroot hm hpin hc hs hmask hp hi => ?_⟩
    · have hregs := opTimerMatch_regs (s := s) (n := k.val) (by rw [hk]; exact hon) hroot hm
      have hreg : ∀ a, (opTimerMatch k.val s).reg a =
          (tmrIrq k.val (s.getB (Reg.scrTmrCfg k.val) 7 && tmrMode s k.val != 3) (s.setReg (Reg.scrTmrCount k.val) 0)).reg a := fun a => congrArg (fun r => Store.get regDefault r a) hregs
      have hapart : Reg.scrTmrCount k.val ≠ Reg.scrIrqPend 1 := by unfold Reg.scrTmrCount Reg.scrIrqPend; omega
      refine .of_exec rfl ⟨?_, fun a ha => ?_, fun hquiet => ?_, fun hi hm3 => ?_⟩
      · exact (hreg _).trans ((tmrIrq_reg k.isLt (.inl hapart)).trans reg_setReg_same)
      · simp only [List.mem_cons, List.not_mem_nil, or_false, not_or] at ha
        exact (hreg a).trans ((tmrIrq_reg k.isLt (.inl ha.2)).trans (reg_setReg_other ha.1))
      · refine (hreg _).trans ((tmrIrq_reg k.isLt (.inr ?_)).trans (reg_setReg_other hapart.symm))
        rcases hquiet with h | h <;> rw [h]
        · rfl
        · exact Bool.and_false _
      · rw [getB_eq, hreg, ← getB_eq]
        have hen : (s.getB (Reg.scrTmrCfg k.val) 7 && tmrMode s k.val != 3) = true := by rw [hi, Bool.true_and]; exact bne_iff_ne.2 hm3
        rw [hen]
        exact tmrIrq_bit k.isLt
    · exact congrArg Host.Outcome.next (by
        have hop := opTimerMatch_oneShot (s := s) (n := k.val) (by rw [hk]; exact hon) hroot hm hi
        rw [hk] at hop
        exact hop)
    · exact congrArg Host.Outcome.next (opTimerCapture_takes (by rw [hk]; exact hon) hroot hm hpin hc hs hmask hp hi)

end Sys2Proof.Machine
end

section
/-! O36: gap moves, recovery, FLC.RECOV and execute in place (R381 to R392, R397). -/

namespace Sys2Proof.Machine

variable {s t : State} {who : Req} {w l id a : Nat} {x : Word} {addr : BitVec 32} {k : XipKind}

/-! ### Gap moves (R388) -/

theorem opGapMove_none (h : s.getB Reg.flcStatus 35 = false ∨ flcWorks s = false ∨ s.flash.recov ≠ []) : opGapMove s = s := by
  refine if_neg ?_
  rintro ⟨hworks, hpend, -, hempty, -⟩
  rcases h with h | h | h
  · rw [h] at hpend; cases hpend
  · rw [h] at hworks; cases hworks
  · exact h (List.isEmpty_iff.1 hempty)

theorem opGapMove_starts (hw : flcWorks s = true) (hp : s.getB Reg.flcStatus 35 = true) (hm : s.flash.move = none) (hr : s.flash.recov = [])
    (hdst : bankQuiet s (bankOf (windowSector (movePlan s).2)) = true) (hj : bankQuiet s (jrnlBank s) = true)
    (hsrc : bankTaken s (bankOf (windowSector (movePlan s).1)) = false) :
    ∃ u : State, opGapMove s = State.setB { u with flash := { u.flash with move := some (movePlan s) } } Reg.flcStatus 35 false :=
  ⟨_, if_pos ⟨hw, hp, by rw [hm]; rfl, by rw [hr]; rfl, hdst, hj, bad_not hsrc⟩⟩

theorem opGapMoveDone_none (h : s.flash.move = none ∨ flcWorks s = false) : opGapMoveDone s = s := by
  unfold opGapMoveDone
  cases hm : s.flash.move with
  | none => rfl
  | some m => exact if_pos (bad_not (h.resolve_left (by rw [hm]; exact Option.some_ne_none m)))

theorem opGapMoveDone_ends (hm : s.flash.move ≠ none) (hw : flcWorks s = true) :
    ∃ (u : State) (n d : Nat), opGapMoveDone s = raise 0x707 0 d (State.setF { u with flash := { u.flash with move := none } } Reg.flcWearCount 35 16 n) := by
  obtain ⟨m, hm⟩ := Option.ne_none_iff_exists'.1 hm
  unfold opGapMoveDone
  rw [hm]
  exact ⟨_, _, _, if_neg (ok_not hw)⟩

/-! ### Recovery (R391, R392) -/

/-- Checks read the array and add to the recovery queue. -/
structure RecovGrows (s t : State) : Prop where
  mem : t.flash.mem = s.flash.mem
  queue : ∃ l, t.flash.recov = s.flash.recov ++ l

theorem RecovGrows.of_flash (h : t.flash = s.flash) : RecovGrows s t := ⟨by rw [h], [], by rw [h, List.append_nil]⟩

theorem RecovGrows.trans {u : State} (h : RecovGrows s t) (g : RecovGrows t u) : RecovGrows s u := by
  obtain ⟨l, hl⟩ := h.queue
  obtain ⟨m, hm⟩ := g.queue
  exact ⟨g.mem.trans h.mem, l ++ m, by rw [hm, hl, List.append_assoc]⟩

theorem forAll_recovGrows {α : Type} (ls : List α) (f : α → State → State) (h : ∀ y s, RecovGrows s (f y s)) (s : State) : RecovGrows s (forAll ls f s) := by
  induction ls generalizing s with
  | nil => exact .of_flash rfl
  | cons y ys ih => exact (h y s).trans (ih (f y s))

theorem cellRd_flash (who a : Nat) (c : Cell) (s : State) : (cellRd who a c s).2.flash = s.flash := by
  unfold cellRd
  split
  · rfl
  · rfl
  · exact raise_flash ..

theorem flashRds_flash (ls : List Nat) (s : State) : (flashRds ls s).2.flash = s.flash := by
  induction ls generalizing s with
  | nil => rfl
  | cons b ls ih => exact (ih _).trans (cellRd_flash 0 b (s.fa b) s)

theorem flashWords_flash (ls : List Nat) (s : State) : (flashWords ls s).2.flash = s.flash := flashRds_flash ls s

theorem recovAdd_grows (id cause : Nat) (s : State) : RecovGrows s (recovAdd id cause s) := by
  unfold recovAdd
  split
  · exact .of_flash rfl
  · refine RecovGrows.trans ?_ (.of_flash (raise_flash ..))
    exact ⟨rfl, _, rfl⟩

theorem opRecoveryCheck_none (h : flcWorks s = false) : opRecoveryCheck s = s := if_pos (bad_not h)

theorem opRecoveryCheck_grows (h : flcWorks s = true) : RecovGrows s (opRecoveryCheck s) := by
  unfold opRecoveryCheck
  rw [if_neg (ok_not h)]
  dsimp only
  refine RecovGrows.trans ?_ (forAll_recovGrows _ _ (fun id u => ?_) _)
  · split
    · exact RecovGrows.trans (.of_flash (flashWords_flash _ _)) (recovAdd_grows ..)
    · exact .of_flash (flashWords_flash _ _)
  · split
    · exact RecovGrows.trans (t := u.draw) (.of_flash rfl) (recovAdd_grows ..)
    · exact .of_flash rfl

theorem opRecoveryErase_empty (h : s.flash.recov = []) : opRecoveryErase s = s := by
  unfold opRecoveryErase
  rw [h]

theorem opRecoveryErase_none (h : flcWorks s = false) : opRecoveryErase s = s := by
  unfold opRecoveryErase
  cases s.flash.recov with
  | nil => rfl
  | cons q rest => exact if_neg fun hc => by rw [h] at hc; cases hc.1

theorem opRecoveryErase_oldest {q : BitVec 13} {rest : List (BitVec 13)} (hq : s.flash.recov = q :: rest) (hw : flcWorks s = true)
    (hb : bankQuiet s (bankOf q.toNat) = true) (hj : bankQuiet s (jrnlBank s) = true) : opRecoveryErase s =
      eraseDone q.toNat false (sectorWipe q.toNat (jrnlPut 1 (wd (q.toNat <<< 8)) 0 [] (jrnlRoom 2 s))) := by
  unfold opRecoveryErase
  rw [hq]
  exact if_pos ⟨hw, hb, hj⟩

theorem opRecovRead_empty (peek : Bool) (h : s.flash.reports = []) : opRecovRead peek s = answer 1 s := by
  unfold opRecovRead
  rw [h]

theorem opRecovRead_report {y : Word} {ys : List Word} (peek : Bool) (h : s.flash.reports = y :: ys) :
    opRecovRead peek s = answer y (if peek then s else { s with flash := { s.flash with reports := ys } }) := by
  unfold opRecovRead
  rw [h]

/-! ### Page buffers (R381) -/

/-- A page buffer's word for an address, if one holds its page. -/
def bufferWord (bufs : List (Nat × List Cell)) (a : Nat) : Option Cell := (bufs.find? (fun b => b.1 == a / 128)).map (fun b => b.2.getD (a % 128) flashErased)

theorem xipHit_eq : xipHit a s = bufferWord s.flash.xip a := rfl

theorem xipHit_none_iff : xipHit a s = none ↔ ∀ b ∈ s.flash.xip, ¬ b.1 = a / 128 := by
  rw [xipHit, Option.map_eq_none_iff, List.find?_eq_none]
  simp only [beq_iff_eq]

theorem xipFill_length (a : Nat) (s : State) : (xipFill a s).flash.xip.length ≤ 4 := by
  show (s.flash.xip.drop (s.flash.xip.length - 3) ++ [_]).length ≤ 4
  rw [List.length_append, List.length_drop, List.length_singleton]
  omega

/-- The words of a page that is not held are those of the array, once its buffer is filled. -/
theorem xipHit_xipFill {b : Nat} (h : xipHit a s = none) (hb : b / 128 = a / 128) : xipHit b (xipFill a s) = some (s.fa b) := by
  have hold : (s.flash.xip.drop (s.flash.xip.length - 3)).find? (fun e => e.1 == b / 128) = none := by
    rw [List.find?_eq_none]
    intro e he
    rw [hb, beq_iff_eq]
    exact xipHit_none_iff.1 h e (List.mem_of_mem_drop he)
  have hpage : ((List.range 128).map (fun i => s.fa (a / 128 * 128 + i))).getD (b % 128) flashErased = s.fa b := by
    rw [List.getD_eq_getElem?_getD, List.getElem?_map, List.getElem?_range (Nat.mod_lt b (by decide))]
    show s.fa (a / 128 * 128 + b % 128) = s.fa b
    rw [← hb, Nat.div_add_mod']
  show ((s.flash.xip.drop (s.flash.xip.length - 3) ++ [(a / 128, (List.range 128).map (fun i => s.fa (a / 128 * 128 + i)))]).find?
    (fun e : Nat × List Cell => e.1 == b / 128)).map (fun e => e.2.getD (b % 128) flashErased) = _
  rw [List.find?_append, hold, Option.none_or, List.find?_singleton, if_pos (by rw [hb]; exact beq_self_eq_true _)]
  exact congrArg some hpage

/-- What the controller writes empties the buffers over it. -/
theorem xipHit_xipDrop {lo n : Nat} (hlo : lo ≤ a) (hn : a < lo + n) : xipHit a (xipDrop lo n s) = none := by
  rw [xipHit_none_iff]
  intro b hb
  have hkeep := of_decide_eq_true (List.mem_filter.1 hb).2
  omega

/-- The state in which a buffer holds the page of `a`. -/
def xipBuffered (a : Nat) (s : State) : State := if (xipHit a s).isSome then s else xipFill a s

theorem xipHit_buffered : xipHit a (xipBuffered a s) = some ((xipHit a s).getD (s.fa a)) := by
  unfold xipBuffered
  cases h : xipHit a s with
  | none => exact xipHit_xipFill h rfl
  | some c => exact h

theorem xipBuffered_out (a : Nat) (s : State) : ∃ f, xipBuffered a s = { s with flash := f } := by
  unfold xipBuffered
  split
  · exact ⟨s.flash, rfl⟩
  · exact ⟨_, rfl⟩

theorem xipBuffered_begin : xipBuffered a (begin who s) = begin who (xipBuffered a s) := by
  unfold xipBuffered
  rw [show xipHit a (begin who s) = xipHit a s from rfl]
  split <;> rfl

theorem xipBuffered_flash (h : t.flash = s.flash) : (xipBuffered a t).flash = (xipBuffered a s).flash := by
  have hhit : xipHit a t = xipHit a s := by unfold xipHit; rw [h]
  unfold xipBuffered
  rw [hhit]
  split
  · exact h
  · simp only [xipFill, State.fa, h]

/-! ### Accesses of the window (R382 to R387, R392) -/

/-- A fetch marks its bank (R383). -/
def xipMarked (k : XipKind) (id : Nat) (s : State) : State :=
  match k with
  | .fetch => s.setB Reg.flcBankStatus (bankOf id) true
  | _ => s

theorem xipMarked_fa (k : XipKind) : (xipMarked k id s).fa a = s.fa a := by cases k <;> rfl

theorem xipMarked_hit (k : XipKind) : xipHit a (xipMarked k id s) = xipHit a s := by cases k <;> rfl

theorem cellRd_good {who : Nat} {c : Cell} (h : c.chk = .good x) : cellRd who a c s = (.good x, s) := by
  unfold cellRd
  rw [h]

/-- An access that nothing refuses answers a good word out of a buffer. -/
theorem xipAccess_good (hl : l = w / 32768) (hid : id = logicalId s l) (ha : a = sectorFa id + w % 32768) (hxo : xipXo s l k = false) (hq : isQueued s id = false)
    (hb : (xipHit a s).isSome = true ∨ bankBusy s (bankOf id) = false) (hg : ((xipHit a s).getD (s.fa a)).chk = .good x) :
    xipAccess w k s = answer x (xipBuffered a (xipMarked k id s)) := by
  have hgood : ((xipHit a (xipMarked k id s)).getD ((xipMarked k id s).fa a)).chk = .good x := by rw [xipMarked_hit, xipMarked_fa]; exact hg
  have hread : cellRd (xipWho k).toNat a ((xipHit a (xipBuffered a (xipMarked k id s))).getD flashErased) (xipBuffered a (xipMarked k id s)) =
      (.good x, xipBuffered a (xipMarked k id s)) := by
    rw [xipHit_buffered]
    exact cellRd_good hgood
  have hfree : ¬ (isQueued s id = true ∨ (xipHit a s).isNone = true ∧ bankBusy s (bankOf id) = true) := by
    rintro (h | ⟨hmiss, hbusy⟩)
    · rw [hq] at h; cases h
    · rcases hb with hhit | hidle
      · rw [Option.isNone_iff_eq_none.1 hmiss] at hhit; cases hhit
      · rw [hidle] at hbusy; cases hbusy
  unfold xipAccess
  dsimp only
  rw [← hl, ← hid, ← ha, if_neg (by rw [hxo]; exact Bool.false_ne_true), if_neg hfree]
  show (fun r : Chk × State => if r.1.isBad then busErr r.2 else answer r.1.word r.2)
    (cellRd (xipWho k).toNat a ((xipHit a (xipBuffered a (xipMarked k id s))).getD flashErased) (xipBuffered a (xipMarked k id s))) = _
  rw [hread]
  rfl

theorem xipAccess_queued (hl : l = w / 32768) (hid : id = logicalId s l) (ha : a = sectorFa id + w % 32768) (hxo : xipXo s l k = false)
    (hq : isQueued s id = true ∨ xipHit a s = none ∧ bankBusy s (bankOf id) = true) :
    xipAccess w k s = busErr (raise 0x704 0 ((xipWho k).toNat <<< 28 ||| a) s) := by
  unfold xipAccess
  dsimp only
  rw [← hl, ← hid, ← ha, if_neg (by rw [hxo]; exact Bool.false_ne_true)]
  exact if_pos (hq.imp_right fun h => ⟨Option.isNone_iff_eq_none.2 h.1, h.2⟩)

theorem xipAccess_executeOnly (hl : l = w / 32768) (hid : id = logicalId s l) (ha : a = sectorFa id + w % 32768) (hxo : xipXo s l k = true) :
    xipAccess w k s = busErr (raise 0x705 0 ((xipWho k).toNat <<< 28 ||| a) s) := by
  unfold xipAccess
  dsimp only
  rw [← hl, ← hid, ← ha]
  exact if_pos hxo

theorem xipXo_fetch : xipXo s l .fetch = false := Bool.and_false _

theorem xipXo_load : xipXo s l .load = isXo s l := Bool.and_true _

theorem xipXo_debug (h : isXo s l = false) : xipXo s l .debug = false := by
  unfold xipXo
  rw [h, Bool.false_and]

/-- The data window lies in banks 0 to 15. -/
theorem bankOf_logicalId_lt (s : State) (l : Nat) : bankOf (logicalId s l) < 36 := by
  have hq : (l + wearStart s) % 5871 < 5871 := Nat.mod_lt _ (by decide)
  have hsec : ∀ q, q ≤ 5871 → bankOf (windowSector q) < 36 := fun q h => by unfold bankOf windowSector; omega
  refine hsec _ ?_
  split <;> omega

theorem opXip_load (hr : coreRuns s = true) (hg : xipRange addr = true) :
    opXip addr .load s = coreAnswer 5 addr low32 (xipAccess (addr.toNat / 4 % 2 ^ 26) .load (begin rqCore s)) := (if_neg (ok_not hr)).trans (if_neg (ok_not hg))

theorem opXip_fetch (hr : coreRuns s = true) (hg : xipRange addr = true) {u : State} (hu : xipAccess (addr.toNat / 4 % 2 ^ 26) .fetch (begin rqCore s) = u) :
    opXip addr .fetch s = if ¬ u.resp.err = true ∧ fld u.resp.data 35 32 ≠ 0 then coreExc 1 addr u else coreAnswer 1 addr low32 u := by
  subst hu
  exact (if_neg (ok_not hr)).trans (if_neg (ok_not hg))

theorem coreAnswer_err {cause : Nat} {g : Word → BitVec 32} (h : s.resp.err = true) : coreAnswer cause addr g s = coreExc cause addr s := if_pos h

/-- A refused load leaves the access fault and the event. -/
theorem load_refused {code : Code} {d : Nat} (hr : coreRuns s = true) (hg : xipRange addr = true)
    (h : xipAccess (addr.toNat / 4 % 2 ^ 26) .load (begin rqCore s) = busErr (raise code 0 d (begin rqCore s))) :
    Runs (.xipFetch addr .load) s fun t => t.core.exc = some (5, addr) ∧ Logged code 0 d s t := by
  have hop : opXip addr .load s = coreExc 5 addr (busErr (raise code 0 d (begin rqCore s))) := (opXip_load hr hg).trans ((congrArg _ h).trans (coreAnswer_err rfl))
  exact .of_exec_eq rfl hop ⟨rfl, (raise_logged (u := begin rqCore s) rfl).of_same rfl rfl⟩

/-- Settles O36: gap moves and recovery by their conditions, RECOV, and the window's accesses over the page buffers. -/
theorem flashWear : Obligations.FlashWear := by
  unfold Obligations.FlashWear
  refine ⟨fun s => ⟨fun h => congrArg Host.Outcome.next (opGapMove_none h), fun hw hp hm hr hdst hj hsrc => ?gapStarts⟩,
    fun s => ⟨fun h => congrArg Host.Outcome.next (opGapMoveDone_none h), fun hm hw => ?gapEnds⟩,
    fun s => ⟨fun h => ⟨congrArg Host.Outcome.next (opRecoveryCheck_none h), congrArg Host.Outcome.next (opRecoveryErase_none h)⟩,
      fun h => .of_exec rfl ⟨(opRecoveryCheck_grows h).mem, (opRecoveryCheck_grows h).queue⟩, fun h => congrArg Host.Outcome.next (opRecoveryErase_empty h),
      fun q rest hq hw hb hj => congrArg Host.Outcome.next (opRecoveryErase_oldest hq hw hb hj)⟩,
    fun b s => rfl,
    fun who s hlive => ⟨fun h peek => congrArg Host.Outcome.next ((gateR_live hlive).trans (opRecovRead_empty (s := begin who s) _ h)),
      fun y ys h peek => ⟨fun hp => ?peeked, fun hp => ?popped⟩⟩,
    fun addr s => ⟨fun hr => ⟨congrArg Host.Outcome.next (if_pos (bad_not hr)), congrArg Host.Outcome.next (if_pos (bad_not hr))⟩,
      fun hr hg => ⟨congrArg Host.Outcome.next ((if_neg (ok_not hr)).trans (if_pos (bad_not hg))), congrArg Host.Outcome.next ((if_neg (ok_not hr)).trans (if_pos (bad_not hg)))⟩,
      fun h => congrArg Host.Outcome.next (if_neg ?debugOff), fun w l id a u x hw hl hid ha hb hq hgood hu => ⟨fun hr hg hxo => ?load, fun hr hg => ?fetch, fun hd hall hxo => ?debug⟩,
      fun w l id a hw hl hid ha hr hg hxo hq => ?queued, fun w l hw hl hr hg hxo => ?executeOnly,
      fun a => ⟨xipFill_length a s, fun b => xipHit_xipFill⟩, fun lo n a => xipHit_xipDrop⟩⟩
  case gapStarts =>
    obtain ⟨u, hop⟩ := opGapMove_starts hw hp hm hr hdst hj hsrc
    exact .of_exec_eq rfl hop ⟨rfl, getB_setB_same (by decide)⟩
  case gapEnds =>
    obtain ⟨u, n, d, hop⟩ := opGapMoveDone_ends hm hw
    refine .of_exec_eq rfl hop ?_
    show (raise 0x707 0 d _).flash.move = none
    rw [raise_flash]
    rfl
  case peeked =>
    refine congrArg Host.Outcome.next ((gateR_live hlive).trans ((opRecovRead_report (s := begin who s) _ h).trans ?_))
    rw [hp]
    rfl
  case popped =>
    refine congrArg Host.Outcome.next ((gateR_live hlive).trans ((opRecovRead_report (s := begin who s) _ h).trans ?_))
    rw [hp]
    rfl
  case debugOff =>
    rintro ⟨hd, hall⟩
    rcases h with h | h
    · exact h hd
    · rw [h] at hall; cases hall
  case load =>
    subst hw
    have hacc := xipAccess_good (s := begin rqCore s) (k := .load) hl hid ha (xipXo_load.trans hxo) hq hb hgood
    refine congrArg Host.Outcome.next ((opXip_load hr hg).trans ((congrArg _ hacc).trans ?_))
    obtain ⟨f, hf⟩ := xipBuffered_out a s
    have hbuf : xipBuffered a (begin rqCore s) = begin rqCore u := xipBuffered_begin.trans (congrArg (begin rqCore) hu.symm)
    have huf : u = { s with flash := f } := hu.trans hf
    show coreAnswer 5 addr low32 (answer x (xipBuffered a (begin rqCore s))) = _
    rw [hbuf, huf]
    exact coreAnswer_ok rfl
  case fetch =>
    subst hw
    have hacc := xipAccess_good (s := begin rqCore s) (k := .fetch) hl hid ha xipXo_fetch hq hb hgood
    obtain ⟨f, hf⟩ := xipBuffered_out a (xipMarked .fetch id (begin rqCore s))
    have hflash : u.flash = f := by
      have h := xipBuffered_flash (t := xipMarked .fetch id (begin rqCore s)) (s := s) (a := a) rfl
      rw [hf] at h
      exact (congrArg State.flash hu).trans h.symm
    have hop := opXip_fetch hr hg (hacc.trans (congrArg (answer x) hf))
    have hmark : bankOf id < 36 := hid ▸ bankOf_logicalId_lt s l
    have hother : ∀ b, b ∉ [Reg.flcBankStatus] → (s.setB Reg.flcBankStatus (bankOf id) true).reg b = s.reg b := fun b hb =>
      reg_setB_other fun h => hb (List.mem_singleton.2 h)
    by_cases hx : fld x 35 32 = 0
    · refine .of_exec_eq rfl (hop.trans ((if_neg fun h => h.2 hx).trans (coreAnswer_ok rfl))) ⟨hflash.symm, getB_setB_same hmark, hother, fun _ => rfl, fun h => absurd hx h⟩
    · refine .of_exec_eq rfl (hop.trans (if_pos ⟨Bool.false_ne_true, hx⟩)) ⟨hflash.symm, getB_setB_same hmark, hother, fun h => absurd h hx, fun _ => rfl⟩
  case debug =>
    subst hw
    have hacc := xipAccess_good (s := begin rqDbg s) (k := .debug) hl hid ha (xipXo_debug hxo) hq hb hgood
    have hbuf : xipBuffered a (begin rqDbg s) = begin rqDbg u := xipBuffered_begin.trans (congrArg (begin rqDbg) hu.symm)
    refine congrArg Host.Outcome.next ((if_pos ⟨hd, hall⟩).trans (hacc.trans ?_))
    show answer x (xipBuffered a (begin rqDbg s)) = _
    rw [hbuf]
    rfl
  case queued =>
    subst hw
    exact load_refused hr hg (xipAccess_queued (s := begin rqCore s) (k := .load) hl hid ha (xipXo_load.trans hxo) hq)
  case executeOnly =>
    subst hw
    exact load_refused hr hg (xipAccess_executeOnly (s := begin rqCore s) (k := .load) hl rfl rfl (xipXo_load.trans hxo))

end Sys2Proof.Machine
end

section
/-! O37, O38: writes of a pin's registers, the steps of a switch, edges, lock, delay moves and masks (R402, R403, R407, R410 to R414). -/

namespace Sys2Proof.Machine

variable {s t u : State} {who : Req} {i j f : Nat} {v w : Word}

/-! ### Fields -/

/-- A part of a field that was copied from another word is that word's. -/
theorem fld_setFld_sub {hi lo hi' lo' : Nat} (h : hi < 36) (hlo : lo ≤ lo') (hhi : hi' ≤ hi) : fld (setFld w hi lo (fld v hi lo)) hi' lo' = fld v hi' lo' := by
  apply Nat.eq_of_testBit_eq
  intro k
  rw [fld_testBit, fld_testBit, setFld_testBit h]
  by_cases hk : k < hi' + 1 - lo'
  · rw [if_pos (by omega), fld_testBit, show lo + (lo' + k - lo) = lo' + k by omega]
    have hin : lo' + k - lo < hi + 1 - lo := by omega
    simp only [hin, decide_true, Bool.true_and]
  · simp only [hk, decide_false, Bool.false_and]

/-- The settings that a write of CFG stores: all its fields but FUNC and STD (R419). -/
def cfgWritten (v w : Word) : Word := setFld (setFld w 33 22 (fld v 33 22)) 18 14 (fld v 18 14)

theorem cfgWritten_park : fld (cfgWritten v w) 33 32 = fld v 33 32 :=
  (fld_setFld_other (by decide) (.inr (by decide))).trans (fld_setFld_sub (by decide) (by decide) (by decide))

theorem cfgWritten_bit (h : j < 14) : (cfgWritten v w).toNat.testBit j = w.toNat.testBit j := by
  unfold cfgWritten
  rw [setFld_testBit (by decide), if_neg (by omega), setFld_testBit (by decide), if_neg (by omega)]

/-! ### What following a change leaves of a pin -/

/-- The pin's switch and its connection are unchanged. -/
structure SwitchKept (p q : Pin) : Prop where
  stage : q.stage = p.stage
  conn : q.conn = p.conn
  held : q.heldFunc = p.heldFunc
  park : q.parkNow = p.parkNow

theorem SwitchKept.refl (p : Pin) : SwitchKept p p := ⟨rfl, rfl, rfl, rfl⟩

theorem SwitchKept.trans {p q r : Pin} (h : SwitchKept p q) (g : SwitchKept q r) : SwitchKept p r :=
  ⟨g.stage.trans h.stage, g.conn.trans h.conn, g.held.trans h.held, g.park.trans h.park⟩

theorem pairPin_ne (i : Nat) : pairPin i ≠ i := by unfold pairPin; omega

theorem pn_pinAt : (pinAt i s t).pn j = if j = pairPin i ∨ j = i then pinTrack s t j (t.pn j) else t.pn j := by
  show Store.get (fun _ => {}) (Store.upd (fun _ => {}) (Store.upd (fun _ => {}) t.pin i (pinTrack s t i)) (pairPin i) (pinTrack s t (pairPin i))) j = _
  rw [Store.get_upd, Store.get_upd, Store.get_upd]
  by_cases hp : j = pairPin i
  · subst hp
    rw [if_pos rfl, if_neg (pairPin_ne i)]
    exact (if_pos (Or.inl rfl)).symm
  · rw [if_neg hp]
    by_cases hi : j = i
    · subst hi
      rw [if_pos rfl, if_pos (.inr rfl)]
      rfl
    · rw [if_neg hi, if_neg (not_or.2 ⟨hp, hi⟩)]
      rfl

theorem pinTrack_kept (p : Pin) : SwitchKept p (pinTrack s t j p) := ⟨rfl, rfl, rfl, rfl⟩

theorem pinAt_kept : SwitchKept (t.pn j) ((pinAt i s t).pn j) := by
  rw [pn_pinAt]
  split
  · exact pinTrack_kept _
  · exact .refl _

theorem pinAt_other (hi : j ≠ i) (hp : j ≠ pairPin i) : (pinAt i s t).pn j = t.pn j := by
  rw [pn_pinAt, if_neg (not_or.2 ⟨hp, hi⟩)]

/-- Only pins were brought along: no register, no event, no answer, and of pin `i` and its pair no switch. -/
structure PinsMoved (i : Nat) (s t : State) : Prop where
  rest : ∃ m, t = { s with pin := m }
  kept : ∀ j, SwitchKept (s.pn j) (t.pn j)
  other : ∀ j, j ≠ i → j ≠ pairPin i → t.pn j = s.pn j

theorem pinAt_moved (i : Nat) (s t : State) : PinsMoved i t (pinAt i s t) := ⟨⟨_, rfl⟩, fun _ => pinAt_kept, fun _ => pinAt_other⟩

theorem PinsMoved.reg (h : PinsMoved i s t) (a : Nat) : t.reg a = s.reg a := by
  obtain ⟨m, rfl⟩ := h.rest
  rfl

theorem PinsMoved.resp (h : PinsMoved i s t) : t.resp = s.resp := by
  obtain ⟨m, rfl⟩ := h.rest
  rfl

theorem PinsMoved.evt (h : PinsMoved i s t) : t.evt = s.evt := by
  obtain ⟨m, rfl⟩ := h.rest
  rfl

theorem PinsMoved.keepRegs {as : List Nat} (h : PinsMoved i s t) (g : KeepRegs as u s) : KeepRegs as u t := fun a ha => (h.reg a).trans (g a ha)

/-! ### A switch begins, or is refused (R411, R413) -/

theorem raise_pn (code : Code) (src : Req) (d : Nat) (s : State) (j : Nat) : (raise code src d s).pn j = s.pn j := by
  unfold State.pn
  rw [raise_pin]

theorem pinRegs_not_evtReg {a : Nat} (h : 0x3000 ≤ a) (h' : a < 0x4000) : a ∉ evtRegs := fun hm =>
  (by decide : ∀ x ∈ evtRegs, ¬ (0x3000 ≤ x ∧ x < 0x4000)) a hm ⟨h, h'⟩

/-- A pin as a switch parks it. -/
def pinParked (i : Nat) (s : State) : Pin :=
  { s.pn i with stage := .parked, atSwitch := (pinDrive s i).level, heldFunc := none, parkNow := BitVec.ofNat 2 (s.getF (Reg.pinCfg i) 33 32) }

/-- A switch begins: FUNC shows where it leads, and the pin is parked as PARK has it. -/
theorem swStart_out (i f : Nat) (s : State) : (swStart i f s).reg (Reg.pinCfg i) = setFld (s.reg (Reg.pinCfg i)) 35 34 f ∧ (swStart i f s).resp = s.resp ∧
    KeepRegs [Reg.pinCfg i] s (swStart i f s) ∧ ((swStart i f s).pn i).stage = .parked ∧ ((swStart i f s).pn i).conn = (s.pn i).conn ∧
    ((swStart i f s).pn i).heldFunc = none ∧ ((swStart i f s).pn i).parkNow = BitVec.ofNat 2 (s.getF (Reg.pinCfg i) 33 32) ∧
    ∀ j, j ≠ i → j ≠ pairPin i → (swStart i f s).pn j = s.pn j := by
  have hown : SwitchKept (((s.setPn i (pinParked i s)).setF (Reg.pinCfg i) 35 34 f).pn i) ((swStart i f s).pn i) := pinAt_kept
  have hset : ((s.setPn i (pinParked i s)).setF (Reg.pinCfg i) 35 34 f).pn i = pinParked i s := (pn_setPn_same : (s.setPn i (pinParked i s)).pn i = pinParked i s)
  rw [hset] at hown
  exact ⟨reg_setReg_same, rfl, fun a ha => reg_setF_other fun h => ha (List.mem_singleton.2 h), hown.stage, hown.conn, hown.held, hown.park,
    fun j hi hp => (pinAt_other hi hp).trans ((pn_setPn.trans (if_neg hi) : (s.setPn i (pinParked i s)).pn j = s.pn j))⟩

theorem funcWrite_same (hs : (s.pn i).stage = .none) (hf : f = (s.pn i).conn.toNat) : funcWrite i f who s = s := if_pos ⟨hs, hf⟩

/-- A FUNC that a register write may carry is taken, or held during a switch (R407, R413). -/
theorem funcWrite_allowed (hn : (s.pn i).stage ≠ .none ∨ f ≠ (s.pn i).conn.toNat) (hf : f = 0 ∨ f = 1 ∧ s.getB (Reg.pinCfg i) 11 = true) :
    funcWrite i f who s = funcSet i f s := by
  have hsame : ¬ ((s.pn i).stage = .none ∧ f = (s.pn i).conn.toNat) := fun h => hn.elim (fun hs => hs h.1) (fun hc => hc h.2)
  have hlow : ¬ 2 ≤ f := by rcases hf with h | ⟨h, -⟩ <;> omega
  have hcell : ¬ (f = 1 ∧ ¬ s.getB (Reg.pinCfg i) 11 = true) := by
    rintro ⟨h1, h2⟩
    rcases hf with h | ⟨-, h⟩
    · omega
    · exact h2 h
  unfold funcWrite
  rw [if_neg hsame, if_neg hlow, if_neg hcell]

theorem funcWrite_refused (hn : (s.pn i).stage ≠ .none ∨ f ≠ (s.pn i).conn.toNat) (hf : 2 ≤ f ∨ f = 1 ∧ s.getB (Reg.pinCfg i) 11 = false) :
    funcWrite i f who s = pinRefuse i who (if 2 ≤ f then 3 else 2) s := by
  have hsame : ¬ ((s.pn i).stage = .none ∧ f = (s.pn i).conn.toNat) := fun h => hn.elim (fun hs => hs h.1) (fun hc => hc h.2)
  unfold funcWrite
  rw [if_neg hsame]
  rcases hf with h | ⟨h1, h2⟩
  · rw [if_pos h, if_pos h]
  · have hlow : ¬ 2 ≤ f := by omega
    rw [if_neg hlow, if_neg hlow, if_pos ⟨h1, by rw [h2]; exact Bool.false_ne_true⟩]

theorem funcSet_starts (hs : (s.pn i).stage = .none) (hf : f ≠ (s.pn i).conn.toNat) : funcSet i f s = swStart i f s :=
  (if_neg fun h => h hs).trans (if_neg hf)

theorem funcSet_holds (hs : (s.pn i).stage ≠ .none) : funcSet i f s = s.setPn i { s.pn i with heldFunc := some (BitVec.ofNat 2 f) } := if_pos hs

/-! ### Writes of the owner -/

theorem pinOwned_other {op : State → State} (h : pinWho s i who = false) : pinOwned i who op s = busErr (pinRefuse i who 1 s) :=
  if_neg (by rw [h]; exact Bool.false_ne_true)

theorem sleepKeep_run (h : s.mode = .run) : sleepKeep i s = s := if_neg fun hc => by rw [h] at hc; cases hc.2.1

/-- CFG as its owner writes it. -/
theorem opPinCfg_owner (hw : pinWho s i who = true) (ho : pinOddDiff s i = false) (hm : s.mode = .run) :
    opPinCfg i who v s = pinAt i s (funcWrite i (fld v 35 34) who (s.setReg (Reg.pinCfg i) (cfgWritten v (s.reg (Reg.pinCfg i))))) := by
  refine (if_pos hw).trans (congrArg (pinAt i s) ((if_neg (by rw [ho]; exact Bool.false_ne_true)).trans ?_))
  dsimp only
  rw [sleepKeep_run hm]
  rfl

/-- The state in which a write of GPIO has been stored: OE and OUT, the edge settings, and EDGE cleared where the write says so. -/
def gpioStored (i : Nat) (v : Word) (s : State) : State :=
  let s := s.setReg (Reg.pinGpio i) (setFld (setFld (s.reg (Reg.pinGpio i)) 8 6 (fld v 8 6)) 1 0 (fld v 1 0))
  if v.getLsbD 5 then s.setB (Reg.pinGpio i) 5 false else s

theorem gpioStored_out (s : State) : (gpioStored i v s).getF (Reg.pinGpio i) 1 0 = fld v 1 0 ∧ (gpioStored i v s).getF (Reg.pinGpio i) 8 6 = fld v 8 6 ∧
    (gpioStored i v s).getB (Reg.pinGpio i) 5 = (s.getB (Reg.pinGpio i) 5 && !v.getLsbD 5) ∧ KeepRegs [Reg.pinGpio i] s (gpioStored i v s) ∧
    (∀ j, (gpioStored i v s).pn j = s.pn j) ∧ (gpioStored i v s).resp = s.resp := by
  have hlow : fld v 1 0 < 4 := fld_lt v
  have hmid : fld v 8 6 < 8 := fld_lt v
  have h10 : fld (setFld (setFld (s.reg (Reg.pinGpio i)) 8 6 (fld v 8 6)) 1 0 (fld v 1 0)) 1 0 = fld v 1 0 :=
    (fld_setFld_same (by decide)).trans (Nat.mod_eq_of_lt hlow)
  have h86 : fld (setFld (setFld (s.reg (Reg.pinGpio i)) 8 6 (fld v 8 6)) 1 0 (fld v 1 0)) 8 6 = fld v 8 6 :=
    (fld_setFld_other (by decide) (.inr (by decide))).trans ((fld_setFld_same (by decide)).trans (Nat.mod_eq_of_lt hmid))
  have hbit : (setFld (setFld (s.reg (Reg.pinGpio i)) 8 6 (fld v 8 6)) 1 0 (fld v 1 0)).toNat.testBit 5 = s.getB (Reg.pinGpio i) 5 := by
    rw [setFld_testBit (by decide), if_neg (by decide), setFld_testBit (by decide), if_neg (by decide), getB_eq]
  have hother : ∀ a, a ∉ [Reg.pinGpio i] → a ≠ Reg.pinGpio i := fun a ha h => ha (List.mem_singleton.2 h)
  unfold gpioStored
  dsimp only
  generalize setFld (setFld (s.reg (Reg.pinGpio i)) 8 6 (fld v 8 6)) 1 0 (fld v 1 0) = x at h10 h86 hbit ⊢
  have hx : (s.setReg (Reg.pinGpio i) x).reg (Reg.pinGpio i) = x := reg_setReg_same
  cases hclr : v.getLsbD 5 with
  | true =>
    rw [if_pos rfl, Bool.not_true, Bool.and_false]
    exact ⟨(getF_setF_field (by decide) (.inl (by decide))).trans ((congrArg (fld · 1 0) hx).trans h10),
      (getF_setF_field (by decide) (.inr (by decide))).trans ((congrArg (fld · 8 6) hx).trans h86), getB_setB_same (by decide),
      fun a ha => (reg_setB_other (hother a ha)).trans (reg_setReg_other (hother a ha)), fun _ => rfl, rfl⟩
  | false =>
    rw [if_neg Bool.false_ne_true, Bool.not_false, Bool.and_true]
    refine ⟨(congrArg (fld · 1 0) hx).trans h10, (congrArg (fld · 8 6) hx).trans h86, ?_, fun a ha => reg_setReg_other (hother a ha), fun _ => rfl, rfl⟩
    rw [getB_eq, hx, hbit]

theorem opPinGpio_owner (hw : pinWho s i who = true) (ho : pinOddDiff s i = false) : opPinGpio i who v s = pinAt i s (gpioStored i v s) :=
  (if_pos hw).trans (congrArg (pinAt i s) (if_neg (by rw [ho]; exact Bool.false_ne_true)))

/-- A receive serialiser drives the pair's delay lines (R403). -/
def rxDrives (s : State) (i : Nat) : Bool := s.getB (Reg.pinCfg (i - i % 2)) 12 && (s.pn (i - i % 2)).img3.getLsbD 4

/-- The state in which a write of DLY has been stored: TAPS and STEP, and BUSY until the line stands at TAPS. -/
def delayStored (i : Nat) (v : Word) (s : State) : State :=
  (s.setF (Reg.pinDly i) 9 0 (fld v 9 0)).setB (Reg.pinDly i) 10 (fld v 8 0 != (s.pn i).tapAt.toNat)

theorem delayStored_out (s : State) : (delayStored i v s).getF (Reg.pinDly i) 8 0 = fld v 8 0 ∧ (delayStored i v s).getF (Reg.pinDly i) 9 9 = fld v 9 9 ∧
    (delayStored i v s).getB (Reg.pinDly i) 10 = (fld v 8 0 != (s.pn i).tapAt.toNat) ∧ KeepRegs [Reg.pinDly i] s (delayStored i v s) := by
  have hset : (s.setF (Reg.pinDly i) 9 0 (fld v 9 0)).reg (Reg.pinDly i) = setFld (s.reg (Reg.pinDly i)) 9 0 (fld v 9 0) := reg_setReg_same
  have hother : ∀ a, a ∉ [Reg.pinDly i] → a ≠ Reg.pinDly i := fun a ha h => ha (List.mem_singleton.2 h)
  exact ⟨(getF_setF_field (by decide) (.inl (by decide))).trans ((congrArg (fld · 8 0) hset).trans (fld_setFld_sub (by decide) (by decide) (by decide))),
    (getF_setF_field (by decide) (.inl (by decide))).trans ((congrArg (fld · 9 9) hset).trans (fld_setFld_sub (by decide) (by decide) (by decide))),
    getB_setB_same (by decide), fun a ha => (reg_setB_other (hother a ha)).trans (reg_setF_other (hother a ha))⟩

theorem opPinDly_owner (hw : pinWho s i who = true) (ho : pinOddDiff s i = false) (hr : rxDrives s i = false) :
    opPinDly i who v s = pinAt i s (delayStored i v s) := by
  have hcond : ¬ (pinOddDiff s i || rxDrives s i) = true := by rw [ho, hr]; decide
  exact (if_pos hw).trans (congrArg (pinAt i s) (if_neg hcond))

theorem rxDrives_false (h : s.getB (Reg.pinCfg (i - i % 2)) 12 = false) : rxDrives s i = false := by
  unfold rxDrives
  rw [h, Bool.false_and]

theorem opPinDly_ignored (hw : pinWho s i who = true) (h : pinOddDiff s i = true ∨ rxDrives s i = true) : opPinDly i who v s = pinAt i s s := by
  have hcond : (pinOddDiff s i || rxDrives s i) = true := Bool.or_eq_true_iff.2 h
  exact (if_pos hw).trans (congrArg (pinAt i s) (if_pos hcond))

/-- Each of the three commands is an owner's write, which the odd pin of a differential pair ignores. -/
theorem exec_ownerWrite {c : Instr} {a : Nat} {p : Fin 720} (hlive : Live who s)
    (h : c = .pinCfgWrite who p v ∧ a = Reg.pinCfg p.val ∨ c = .gpioWrite who p v ∧ a = Reg.pinGpio p.val ∨ c = .pinDlyWrite who p v ∧ a = Reg.pinDly p.val) :
    ∃ op, exec c s = .next (pinOwned p.val who op (begin who s)) ∧ (pinOddDiff s p.val = true → op (begin who s) = begin who s) ∧ a ∉ evtRegs := by
  have hp := p.isLt
  rcases h with ⟨rfl, rfl⟩ | ⟨rfl, rfl⟩ | ⟨rfl, rfl⟩
  · exact ⟨_, congrArg Host.Outcome.next (gateW_live hlive), fun ho => if_pos ho, pinRegs_not_evtReg (by unfold Reg.pinCfg; omega) (by unfold Reg.pinCfg; omega)⟩
  · exact ⟨_, congrArg Host.Outcome.next (gateW_live hlive), fun ho => if_pos ho, pinRegs_not_evtReg (by unfold Reg.pinGpio; omega) (by unfold Reg.pinGpio; omega)⟩
  · exact ⟨_, congrArg Host.Outcome.next (gateW_live hlive), fun ho => if_pos (Bool.or_eq_true_iff.2 (.inl ho)),
      pinRegs_not_evtReg (by unfold Reg.pinDly; omega) (by unfold Reg.pinDly; omega)⟩

/-! ### CFG, by what the write asks for -/

/-- The state in which CFG's settings have been stored. -/
def cfgStored (i : Nat) (v : Word) (s : State) : State := s.setReg (Reg.pinCfg i) (cfgWritten v (s.reg (Reg.pinCfg i)))

theorem cfgStored_reg : (cfgStored i v s).reg (Reg.pinCfg i) = cfgWritten v (s.reg (Reg.pinCfg i)) := reg_setReg_same

theorem cfgStored_keeps : KeepRegs [Reg.pinCfg i] s (cfgStored i v s) := fun _ ha => reg_setReg_other fun h => ha (List.mem_singleton.2 h)

theorem cfgStored_bit : (cfgStored i v s).getB (Reg.pinCfg i) 11 = s.getB (Reg.pinCfg i) 11 := by
  rw [getB_eq, getB_eq, cfgStored_reg, cfgWritten_bit (by decide)]

theorem opPinCfg_same (hw : pinWho s i who = true) (ho : pinOddDiff s i = false) (hm : s.mode = .run) (hs : (s.pn i).stage = .none)
    (hf : fld v 35 34 = (s.pn i).conn.toNat) : opPinCfg i who v s = pinAt i s (cfgStored i v s) :=
  (opPinCfg_owner hw ho hm).trans (congrArg (pinAt i s) (funcWrite_same (s := cfgStored i v s) hs hf))

theorem opPinCfg_starts (hw : pinWho s i who = true) (ho : pinOddDiff s i = false) (hm : s.mode = .run) (hs : (s.pn i).stage = .none)
    (hf : fld v 35 34 ≠ (s.pn i).conn.toNat) (hok : fld v 35 34 = 0 ∨ fld v 35 34 = 1 ∧ s.getB (Reg.pinCfg i) 11 = true) :
    opPinCfg i who v s = pinAt i s (swStart i (fld v 35 34) (cfgStored i v s)) :=
  (opPinCfg_owner hw ho hm).trans (congrArg (pinAt i s) ((funcWrite_allowed (s := cfgStored i v s) (.inr hf) (by rw [cfgStored_bit]; exact hok)).trans
    (funcSet_starts (s := cfgStored i v s) hs hf)))

theorem opPinCfg_holds (hw : pinWho s i who = true) (ho : pinOddDiff s i = false) (hm : s.mode = .run) (hs : (s.pn i).stage ≠ .none)
    (hok : fld v 35 34 = 0 ∨ fld v 35 34 = 1 ∧ s.getB (Reg.pinCfg i) 11 = true) :
    opPinCfg i who v s = pinAt i s ((cfgStored i v s).setPn i { s.pn i with heldFunc := some (BitVec.ofNat 2 (fld v 35 34)) }) :=
  (opPinCfg_owner hw ho hm).trans (congrArg (pinAt i s) ((funcWrite_allowed (s := cfgStored i v s) (.inl hs) (by rw [cfgStored_bit]; exact hok)).trans
    (funcSet_holds (s := cfgStored i v s) hs)))

theorem opPinCfg_refused (hw : pinWho s i who = true) (ho : pinOddDiff s i = false) (hm : s.mode = .run)
    (hn : (s.pn i).stage ≠ .none ∨ fld v 35 34 ≠ (s.pn i).conn.toNat) (hbad : 2 ≤ fld v 35 34 ∨ fld v 35 34 = 1 ∧ s.getB (Reg.pinCfg i) 11 = false) :
    opPinCfg i who v s = pinAt i s (pinRefuse i who (if 2 ≤ fld v 35 34 then 3 else 2) (cfgStored i v s)) :=
  (opPinCfg_owner hw ho hm).trans (congrArg (pinAt i s) (funcWrite_refused (s := cfgStored i v s) hn (by rw [cfgStored_bit]; exact hbad)))

/-- Settles O37: the writes of CFG by the switch they ask for, then those of GPIO and DLY. -/
theorem pinWrites : Obligations.PinWrites := by
  unfold Obligations.PinWrites
  refine ⟨fun who i v s hlive c a hc => ⟨fun hw => ?other, fun hw ho => ?odd⟩,
    fun who i v s hlive hw ho w hwv => ⟨fun hs hf => ?same, fun hs hf hok => ?starts, fun hs hok => ?held, fun hn hbad => ?refused⟩,
    fun who i v s hlive hw ho => ⟨?gpio, fun hr => ?delay, fun h12 h4 => ?driven⟩⟩
  case other =>
    obtain ⟨op, hexec, -, ha⟩ := exec_ownerWrite hlive hc
    refine .of_exec_eq hexec (pinOwned_other (s := begin who s) hw) ⟨?_, raise_reg _ _ _ _ _ ha, raise_pin .., (raise_logged (u := begin who s) rfl).of_same rfl rfl⟩
    show { (raise _ _ _ _).resp with err := true } = _
    rw [raise_resp]
    rfl
  case odd =>
    obtain ⟨op, hexec, hodd, -⟩ := exec_ownerWrite hlive hc
    exact .of_exec_eq hexec ((if_pos hw).trans (congrArg (pinAt i.val (begin who s)) (hodd ho))) rfl
  case same =>
    have hop := opPinCfg_same (s := begin who s) (v := v) hw ho hlive.1 hs hf
    have hmv := pinAt_moved i.val (begin who s) (cfgStored i.val v (begin who s))
    generalize pinAt i.val (begin who s) (cfgStored i.val v (begin who s)) = t at hop hmv
    exact .of_exec_eq rfl ((gateW_live hlive).trans hop) ⟨(hmv.reg _).trans (cfgStored_reg.trans hwv.symm), hmv.keepRegs (cfgStored_keeps (s := begin who s)),
      (hmv.kept i.val).stage.trans hs, (hmv.kept i.val).conn, hmv.resp, hmv.other⟩
  case starts =>
    have hop := opPinCfg_starts (s := begin who s) (v := v) hw ho hlive.1 hs hf hok
    obtain ⟨hreg, hresp, hregs, hstage, hconn, -, hpark, hpins⟩ := swStart_out i.val (fld v 35 34) (cfgStored i.val v (begin who s))
    have hkeeps : KeepRegs [Reg.pinCfg i.val] s (cfgStored i.val v (begin who s)) := cfgStored_keeps (s := begin who s)
    generalize swStart i.val (fld v 35 34) (cfgStored i.val v (begin who s)) = q at hreg hresp hregs hstage hconn hpark hpins hop
    have hmv := pinAt_moved i.val (begin who s) q
    generalize pinAt i.val (begin who s) q = t at hop hmv
    refine .of_exec_eq rfl ((gateW_live hlive).trans hop)
      ⟨(hmv.reg _).trans ?_, hmv.keepRegs fun a ha => (hregs a ha).trans (hkeeps a ha), (hmv.kept i.val).stage.trans hstage, (hmv.kept i.val).conn.trans hconn, ?_, hmv.resp.trans hresp,
        fun j hi hp => (hmv.other j hi hp).trans (hpins j hi hp)⟩
    · rw [hwv]
      exact hreg.trans (congrArg (setFld · 35 34 (fld v 35 34)) cfgStored_reg)
    · have hfield : (cfgStored i.val v (begin who s)).getF (Reg.pinCfg i.val) 33 32 = fld v 33 32 := (congrArg (fld · 33 32) cfgStored_reg).trans cfgWritten_park
      rw [(hmv.kept i.val).park, hpark, hfield, BitVec.toNat_ofNat]
      exact Nat.mod_eq_of_lt (fld_lt v)
  case held =>
    have hop := opPinCfg_holds (s := begin who s) (v := v) hw ho hlive.1 hs hok
    have hreg : (cfgStored i.val v (begin who s)).reg (Reg.pinCfg i.val) = w := cfgStored_reg.trans hwv.symm
    have hkeeps : KeepRegs [Reg.pinCfg i.val] s (cfgStored i.val v (begin who s)) := cfgStored_keeps (s := begin who s)
    have hresp : (cfgStored i.val v (begin who s)).resp = { who := who, data := 0, err := false } := rfl
    generalize cfgStored i.val v (begin who s) = q at hop hreg hkeeps hresp
    have hmv := pinAt_moved i.val (begin who s) (q.setPn i.val { s.pn i.val with heldFunc := some (BitVec.ofNat 2 (fld v 35 34)) })
    have hkept := hmv.kept i.val
    rw [pn_setPn_same] at hkept
    exact .of_exec_eq rfl ((gateW_live hlive).trans hop)
      ⟨(hmv.reg _).trans hreg, hmv.keepRegs hkeeps, hkept.stage, hkept.held, hmv.resp.trans hresp⟩
  case refused =>
    have hp := i.isLt
    have hop := opPinCfg_refused (s := begin who s) (v := v) hw ho hlive.1 hn hbad
    have hreg : (pinRefuse i.val who (if 2 ≤ fld v 35 34 then 3 else 2) (cfgStored i.val v (begin who s))).reg (Reg.pinCfg i.val) = w :=
      (raise_reg _ _ _ _ _ (pinRegs_not_evtReg (by unfold Reg.pinCfg; omega) (by unfold Reg.pinCfg; omega))).trans (cfgStored_reg.trans hwv.symm)
    have hresp : (pinRefuse i.val who (if 2 ≤ fld v 35 34 then 3 else 2) (cfgStored i.val v (begin who s))).resp = _ := raise_resp ..
    have hpn : (pinRefuse i.val who (if 2 ≤ fld v 35 34 then 3 else 2) (cfgStored i.val v (begin who s))).pn i.val = s.pn i.val :=
      raise_pn ..
    have hlog : Logged 0x902 0 ((if 2 ≤ fld v 35 34 then 3 else 2) <<< 18 ||| who.toNat <<< 10 ||| i.val) s
      (pinRefuse i.val who (if 2 ≤ fld v 35 34 then 3 else 2) (cfgStored i.val v (begin who s))) := raise_logged rfl
    generalize pinRefuse i.val who (if 2 ≤ fld v 35 34 then 3 else 2) (cfgStored i.val v (begin who s)) = q at hop hreg hresp hpn hlog
    have hmv := pinAt_moved i.val (begin who s) q
    generalize pinAt i.val (begin who s) q = t at hop hmv
    have hkept := hmv.kept i.val
    rw [hpn] at hkept
    exact .of_exec_eq rfl ((gateW_live hlive).trans hop) ⟨(hmv.reg _).trans hreg, hkept.stage, hkept.held, hmv.resp.trans hresp, hlog.of_same hmv.evt (hmv.reg _)⟩
  case gpio =>
    have hop := opPinGpio_owner (s := begin who s) (v := v) hw ho
    obtain ⟨hmode, hedge, hclear, hregs, hpn, hresp⟩ := gpioStored_out (i := i.val) (v := v) (begin who s)
    generalize gpioStored i.val v (begin who s) = q at hop hmode hedge hclear hregs hpn hresp
    have hmv := pinAt_moved i.val (begin who s) q
    generalize pinAt i.val (begin who s) q = t at hop hmv
    refine .of_exec_eq rfl ((gateW_live hlive).trans hop) ⟨(congrArg (fld · 1 0) (hmv.reg _)).trans hmode, (congrArg (fld · 8 6) (hmv.reg _)).trans hedge, ?_,
      hmv.keepRegs hregs, (hmv.kept i.val).stage.trans (congrArg Pin.stage (hpn i.val)), hmv.resp.trans hresp⟩
    rw [getB_eq, hmv.reg, ← getB_eq]
    exact hclear
  case delay =>
    have hop := opPinDly_owner (s := begin who s) (v := v) hw ho (rxDrives_false (s := begin who s) hr)
    obtain ⟨htap, hstep, hbusy, hregs⟩ := delayStored_out (i := i.val) (v := v) (begin who s)
    have hresp : (delayStored i.val v (begin who s)).resp = { who := who, data := 0, err := false } := rfl
    generalize delayStored i.val v (begin who s) = q at hop htap hstep hbusy hregs hresp
    have hmv := pinAt_moved i.val (begin who s) q
    generalize pinAt i.val (begin who s) q = t at hop hmv
    refine .of_exec_eq rfl ((gateW_live hlive).trans hop) ⟨(congrArg (fld · 8 0) (hmv.reg _)).trans htap, (congrArg (fld · 9 9) (hmv.reg _)).trans hstep, ?_,
      hmv.keepRegs hregs, hmv.resp.trans hresp⟩
    rw [getB_eq, hmv.reg, ← getB_eq]
    exact hbusy
  case driven =>
    exact .of_exec_eq rfl ((gateW_live hlive).trans (opPinDly_ignored (s := begin who s) hw (.inr (Bool.and_eq_true_iff.2 ⟨h12, h4⟩)))) rfl

end Sys2Proof.Machine
end

section
/-! O38: the steps of a switch, edges, lock, delay moves and masks (R402, R403, R407, R410, R411, R413). -/

namespace Sys2Proof.Machine

variable {s t u : State} {i j : Nat}

/-! ### The steps of a switch (R411, R413) -/

theorem opParkEnd_other (h : (s.pn i).stage ≠ .parked) : opParkEnd i s = s := if_neg h

theorem opParkEnd_parked (h : (s.pn i).stage = .parked) : opParkEnd i s =
    pinAt i s (s.setPn i { s.pn i with stage := .masked, conn := BitVec.ofNat 2 (pinFunc s i), testAt := s.evt.time }) := if_pos h

theorem opUnmask_other (h : (s.pn i).stage ≠ .masked) : opUnmask i s = s := if_neg h

theorem opUnmask_ends (h : (s.pn i).stage = .masked) (hh : (s.pn i).heldFunc = none ∨ (s.pn i).heldFunc = some (s.pn i).conn) :
    opUnmask i s = s.setPn i { s.pn i with stage := .none, heldFunc := none } := by
  unfold opUnmask
  rw [if_pos h]
  dsimp only
  rcases hh with hh | hh
  · rw [hh]
  · rw [hh]
    dsimp only
    rw [pn_setPn_same]
    exact if_pos rfl

theorem opUnmask_switches {f : BitVec 2} (h : (s.pn i).stage = .masked) (hh : (s.pn i).heldFunc = some f) (hf : f ≠ (s.pn i).conn) :
    opUnmask i s = swStart i f.toNat (s.setPn i { s.pn i with stage := .none, heldFunc := none }) := by
  unfold opUnmask
  rw [if_pos h]
  dsimp only
  rw [hh]
  refine if_neg ?_
  rw [pn_setPn_same]
  exact hf

/-! ### Edges (R407) -/

/-- The level outside the pad has moved. -/
def edgeSeen (i : Nat) (rising : Bool) (s : State) : State :=
  s.setPn i { s.pn i with pad := some rising, keeper := match (pinDrive s i).level with
    | some b => some b
    | none => some rising }

theorem edgeSeen_eq (rising : Bool) : edgeSeen i rising s = s.setPn i { s.pn i with pad := some rising, keeper := some ((pinDrive s i).level.getD rising) } := by
  unfold edgeSeen
  cases (pinDrive s i).level <;> rfl

theorem opGpioEdge_eq (rising : Bool) : opGpioEdge i rising s =
    if gpioDetects (edgeSeen i rising s) i = true ∧ edgeWanted (s.getF (Reg.pinGpio i) 8 7) rising = true then
      if s.getB (Reg.pinGpio i) 6 then raise 0x905 0 (rising.toNat <<< 10 ||| i) ((edgeSeen i rising s).setB (Reg.pinGpio i) 5 true)
      else (edgeSeen i rising s).setB (Reg.pinGpio i) 5 true
    else edgeSeen i rising s := by
  have hirq : ((edgeSeen i rising s).setB (Reg.pinGpio i) 5 true).getB (Reg.pinGpio i) 6 = s.getB (Reg.pinGpio i) 6 :=
    (getB_setF (by decide)).trans (if_neg (by decide))
  rw [← hirq]
  rfl

/-! ### The aligner (R403) -/

theorem opSerLock_same {p : Nat} {locked : Bool} (h : serRxPair s p = false ∨ s.getB (Reg.pinSer p) 0 = locked) : opSerLock p locked s = s := by
  refine if_pos (Bool.or_eq_true_iff.2 ?_)
  rcases h with h | h
  · exact .inl (by rw [h]; rfl)
  · exact .inr (by rw [h]; exact beq_self_eq_true locked)

theorem serLock_moves {p : Nat} {locked : Bool} (hr : serRxPair s p = true) (hl : s.getB (Reg.pinSer p) 0 = !locked) :
    ¬ (!serRxPair s p || s.getB (Reg.pinSer p) 0 == locked) = true := by
  rw [hr, hl]
  cases locked <;> decide

/-- The state in which the loss of lock is shown. -/
def lockLost (p : Nat) (s : State) : State := ((s.setPn (2 * p) { s.pn (2 * p) with lostLock := true }).setB (Reg.pinSer p) 0 false).setB (Reg.pinSer p) 1 true

/-- The state in which the lock is shown. -/
def lockTaken (p : Nat) (s : State) : State := (s.setPn (2 * p) { s.pn (2 * p) with lostLock := false }).setB (Reg.pinSer p) 0 true

theorem opSerLock_loses {p : Nat} (hr : serRxPair s p = true) (hl : s.getB (Reg.pinSer p) 0 = true) : opSerLock p false s =
    raise 0x904 0 (1 <<< 9 ||| p) (lockLost p s) := if_neg (serLock_moves (locked := false) hr hl)

theorem opSerLock_locks {p : Nat} (hr : serRxPair s p = true) (hl : s.getB (Reg.pinSer p) 0 = false) : opSerLock p true s =
    if (s.pn (2 * p)).lostLock then raise 0x904 0 p (lockTaken p s) else lockTaken p s := if_neg (serLock_moves (locked := true) hr hl)

theorem lockLost_out (p : Nat) (s : State) : (lockLost p s).getB (Reg.pinSer p) 0 = false ∧ (lockLost p s).getB (Reg.pinSer p) 1 = true ∧
    ((lockLost p s).pn (2 * p)).lostLock = true ∧ (lockLost p s).evt.seq = s.evt.seq := by
  refine ⟨?_, getB_setB_same (by decide), ?_, rfl⟩
  · exact (getB_setF (by decide)).trans ((if_neg (by decide)).trans (getB_setB_same (by decide)))
  · exact congrArg Pin.lostLock (pn_setPn_same (s := s) (i := 2 * p) (p := { s.pn (2 * p) with lostLock := true }))

theorem lockTaken_out (p : Nat) (s : State) : (lockTaken p s).getB (Reg.pinSer p) 0 = true ∧ ((lockTaken p s).pn (2 * p)).lostLock = false ∧
    (lockTaken p s).evt = s.evt ∧ KeepRegs [Reg.pinSer p] s (lockTaken p s) :=
  ⟨getB_setB_same (by decide), congrArg Pin.lostLock (pn_setPn_same (s := s) (i := 2 * p) (p := { s.pn (2 * p) with lostLock := false })), rfl,
    fun _ ha => reg_setB_other fun h => ha (List.mem_singleton.2 h)⟩

theorem pinSer_not_evtReg (p : Fin 360) : Reg.pinSer p.val ∉ evtRegs := by
  have hp := p.isLt
  exact pinRegs_not_evtReg (by unfold Reg.pinSer; omega) (by unfold Reg.pinSer; omega)

theorem getB_raise {a b : Nat} (code : Code) (src : Req) (d : Nat) (s : State) (h : a ∉ evtRegs) : (raise code src d s).getB a b = s.getB a b := by
  rw [getB_eq, getB_eq, raise_reg _ _ _ _ _ h]

/-! ### Delay lines (R402) -/

theorem opDelayDone_out (i : Nat) (s : State) : ((opDelayDone i s).pn i).tapAt.toNat = s.getF (Reg.pinDly i) 8 0 ∧ (opDelayDone i s).getB (Reg.pinDly i) 10 = false ∧
    (opDelayDone i s).getF (Reg.pinDly i) 9 0 = s.getF (Reg.pinDly i) 9 0 ∧ KeepRegs [Reg.pinDly i] s (opDelayDone i s) ∧ ∀ j, j ≠ i → (opDelayDone i s).pn j = s.pn j := by
  have hpn : (opDelayDone i s).pn i = { s.pn i with tapAt := BitVec.ofNat 9 (s.getF (Reg.pinDly i) 8 0) } :=
    pn_setPn_same (s := s) (i := i) (p := { s.pn i with tapAt := BitVec.ofNat 9 (s.getF (Reg.pinDly i) 8 0) })
  refine ⟨?_, getB_setB_same (by decide), getF_setF_field (by decide) (.inl (by decide)), fun _ ha => reg_setB_other fun h => ha (List.mem_singleton.2 h),
    fun j hj => (pn_setPn (s := s) (i := i)).trans (if_neg hj)⟩
  rw [hpn]
  exact (BitVec.toNat_ofNat ..).trans (Nat.mod_eq_of_lt (fld_lt _))

/-- Settles O38: the stages of a switch, the edge detector, the aligner and the delay line. -/
theorem pinEvents : Obligations.PinEvents := by
  unfold Obligations.PinEvents
  refine ⟨fun i s => ⟨fun h => ?parks, fun h => congrArg Host.Outcome.next (opParkEnd_other h), fun h hh => congrArg Host.Outcome.next (opUnmask_ends h hh),
      fun h f hh hf => ?switches, fun h => congrArg Host.Outcome.next (opUnmask_other h), .of_exec rfl (opDelayDone_out i.val s), rfl⟩,
    fun i rising s u hu => ⟨fun h => ?noEdge, fun hd hw => ⟨fun hi => ?edge, fun hi => ?irq⟩⟩,
    fun p locked s => ⟨fun h => congrArg Host.Outcome.next (opSerLock_same h), fun hr hl => ?loses, fun hr hl => ?locks⟩⟩
  case parks =>
    have hop := opParkEnd_parked h
    have hmv := pinAt_moved i.val s (s.setPn i.val { s.pn i.val with stage := .masked, conn := BitVec.ofNat 2 (pinFunc s i.val), testAt := s.evt.time })
    have hkept := hmv.kept i.val
    rw [pn_setPn_same] at hkept
    refine .of_exec_eq rfl hop ⟨hkept.stage, ?_, rfl, rfl⟩
    rw [hkept.conn]
    exact (BitVec.toNat_ofNat ..).trans (Nat.mod_eq_of_lt (fld_lt _))
  case switches =>
    have hop := opUnmask_switches h hh hf
    obtain ⟨hreg, -, hregs, hstage, hconn, hheld, -, -⟩ := swStart_out i.val f.toNat (s.setPn i.val { s.pn i.val with stage := .none, heldFunc := none })
    rw [pn_setPn_same] at hconn
    refine .of_exec_eq rfl hop ⟨hstage, hheld, ?_, hconn, hregs⟩
    exact (congrArg (fld · 35 34) hreg).trans ((fld_setFld_same (by decide)).trans (Nat.mod_eq_of_lt f.isLt))
  case noEdge =>
    have hu' : u = edgeSeen i.val rising s := hu.trans (edgeSeen_eq rising).symm
    refine congrArg Host.Outcome.next ((opGpioEdge_eq rising).trans ?_)
    rw [← hu']
    refine if_neg fun hc => ?_
    rcases h with h | h
    · rw [h] at hc; cases hc.1
    · rw [h] at hc; cases hc.2
  case edge =>
    have hu' : u = edgeSeen i.val rising s := hu.trans (edgeSeen_eq rising).symm
    refine congrArg Host.Outcome.next ((opGpioEdge_eq rising).trans ?_)
    rw [← hu', if_pos ⟨hd, hw⟩, if_neg (by rw [hi]; exact Bool.false_ne_true)]
  case irq =>
    have hu' : u = edgeSeen i.val rising s := hu.trans (edgeSeen_eq rising).symm
    have hop := opGpioEdge_eq (s := s) (i := i.val) rising
    rw [← hu', if_pos ⟨hd, hw⟩, if_pos hi] at hop
    exact .of_exec_eq rfl hop (raise_raises (by rw [hu]; rfl))
  case loses =>
    obtain ⟨hlock, hlost, hpin, hseq⟩ := lockLost_out p.val s
    exact .of_exec_eq rfl (opSerLock_loses hr hl) ⟨(getB_raise _ _ _ _ (pinSer_not_evtReg p)).trans hlock, (getB_raise _ _ _ _ (pinSer_not_evtReg p)).trans hlost,
      (congrArg Pin.lostLock (raise_pn ..)).trans hpin, raise_logged hseq⟩
  case locks =>
    obtain ⟨hlock, hpin, hevt, hregs⟩ := lockTaken_out p.val s
    have hop := opSerLock_locks hr hl
    cases hlost : (s.pn (2 * p.val)).lostLock with
    | true =>
      rw [hlost, if_pos rfl] at hop
      exact .of_exec_eq rfl hop ⟨(getB_raise _ _ _ _ (pinSer_not_evtReg p)).trans hlock, (congrArg Pin.lostLock (raise_pn ..)).trans hpin,
        fun _ => raise_logged (congrArg (fun e => e.seq) hevt), fun h => by cases h⟩
    | false =>
      rw [hlost, if_neg Bool.false_ne_true] at hop
      exact .of_exec_eq rfl hop ⟨hlock, hpin, (fun h => by cases h), fun _ => ⟨hevt, hregs⟩⟩

end Sys2Proof.Machine
end

section
/-! O39: TAP instructions, and what a level too low or power-on reset makes of them (R420 to R423, R438). -/

namespace Sys2Proof.Machine

variable {s t : State} {code l : Nat}

/-! ### Instructions (R421) -/

/-- The pins follow an instruction; nothing else does. -/
theorem pinsFrom_out (s t : State) : ∃ m, pinsFrom s t = { t with pin := m } := ⟨_, pinsFrom_rest s t⟩

theorem irLevel_none (h : code ∉ [0x00, 0x01, 0x02, 0x03, 0x04, 0x10, 0x11, 0x12]) : irLevel code = none := by
  unfold irLevel
  split
  case h_9 => rfl
  all_goals exact absurd (by decide) h

theorem irSelect_bypass (h : irLevel code = none) : irSelect code s = pinsFrom s (setCapture 0 (setIr 0xFF s)) := by
  unfold irSelect
  rw [h]

theorem irSelect_held (h : irLevel code = some l) (hl : l ≤ dbgLevel s) : irSelect code s = pinsFrom s (setIr code s) := by
  unfold irSelect
  rw [h]
  exact if_neg (Nat.not_lt.2 hl)

theorem irSelect_refused (h : irLevel code = some l) (hl : dbgLevel s < l) : irSelect code s = pinsFrom s (dbgRefuse code 0 (setCapture 0 (setIr 0xFF s))) := by
  unfold irSelect
  rw [h]
  exact if_pos hl

theorem dbgRefuse_dbg (ir addr : Nat) (s : State) : (dbgRefuse ir addr s).dbg = s.dbg := raise_dbg 0xA04 rqDbg _ s

/-- An instruction above the level held acts as BYPASS: its own operation is not run. -/
theorem tap_refused {op : State → State} (hp : s.boot.porHeld = false) (h : irLevel code = some l) (hl : dbgLevel s < l) (hc : code ≠ 0xFF) :
    tap code op s = pinsFrom s (dbgRefuse code 0 (setCapture 0 (setIr 0xFF s))) := by
  have hir : (pinsFrom s (dbgRefuse code 0 (setCapture 0 (setIr 0xFF s)))).dbg.ir.toNat = 0xFF := by
    rw [pinsFrom_rest]
    show (dbgRefuse code 0 (setCapture 0 (setIr 0xFF s))).dbg.ir.toNat = 0xFF
    rw [dbgRefuse_dbg]
    rfl
  unfold tap
  rw [if_neg (by rw [hp]; exact Bool.false_ne_true), irSelect_refused h hl]
  refine if_neg ?_
  rw [hir]
  exact hc.symm

/-! ### EA04 (R438) -/

theorem dbgRefuse_logged (code : Nat) (s : State) : Logged 0xA04 4 (dbgLevel s <<< 34 ||| code) s (dbgRefuse code 0 s) := by
  have h : dbgLevel s <<< 34 ||| 0 <<< 8 ||| code = dbgLevel s <<< 34 ||| code := by rw [Nat.zero_shiftLeft, Nat.or_zero]
  rw [← h]
  exact raise_logged rfl

/-- What an instruction above the level held leaves. -/
theorem bypassed_out (hb : pinsFrom s (dbgRefuse code 0 (setCapture 0 (setIr 0xFF s))) = t) : t.dbg = { s.dbg with ir := 0xFF, capture := 0 } ∧ boundaryHeld t = false ∧
    Logged 0xA04 4 (dbgLevel s <<< 34 ||| code) s t ∧ (∀ a, a ∉ evtRegs → t.reg a = s.reg a) ∧ t.core.halted = s.core.halted := by
  have hlog := dbgRefuse_logged code (setCapture 0 (setIr 0xFF s))
  have hdbg : (dbgRefuse code 0 (setCapture 0 (setIr 0xFF s))).dbg = { s.dbg with ir := 0xFF, capture := 0 } := dbgRefuse_dbg ..
  have hreg : ∀ a, a ∉ evtRegs → (dbgRefuse code 0 (setCapture 0 (setIr 0xFF s))).reg a = s.reg a := fun a ha => raise_reg _ _ _ _ _ ha
  have hcore : (dbgRefuse code 0 (setCapture 0 (setIr 0xFF s))).core.halted = s.core.halted := raise_core_halted ..
  obtain ⟨m, hm⟩ := pinsFrom_out s (dbgRefuse code 0 (setCapture 0 (setIr 0xFF s)))
  rw [hm] at hb
  subst hb
  refine ⟨hdbg, ?_, hlog.of_same rfl rfl, hreg, hcore⟩
  unfold boundaryHeld
  rw [hdbg]
  rfl

/-! ### What the instructions scan -/

theorem boundaryScan_out (dr : BitVec 2160) (s : State) : ∃ c m, boundaryScan dr s = { s with dbg := { s.dbg with capture := c, boundary := dr }, pin := m } := by
  unfold boundaryScan
  generalize boundaryOf s = c
  obtain ⟨m, hm⟩ := pinsFrom_out (setCapture c s) { setCapture c s with dbg := { (setCapture c s).dbg with boundary := dr } }
  exact ⟨c, m, hm⟩

theorem dtmcs_fields : fld (dtmcsScan s).dbg.capture 3 0 = 1 ∧ fld (dtmcsScan s).dbg.capture 9 4 = 7 := by
  have hmod : (Config.freeWord s.free).toNat % 8 < 8 := Nat.mod_lt _ (by decide)
  show fld (BitVec.ofNat 2160 (1 ||| 7 <<< 4 ||| ((Config.freeWord s.free).toNat % 8) <<< 12)) 3 0 = 1 ∧
    fld (BitVec.ofNat 2160 (1 ||| 7 <<< 4 ||| ((Config.freeWord s.free).toNat % 8) <<< 12)) 9 4 = 7
  rw [fld_ofNat (by decide), fld_ofNat (by decide)]
  exact (by decide : ∀ n < 8, ((1 ||| 7 <<< 4 ||| n <<< 12) >>> 0) % 2 ^ (3 + 1 - 0) = 1 ∧ ((1 ||| 7 <<< 4 ||| n <<< 12) >>> 4) % 2 ^ (9 + 1 - 4) = 7) _ hmod

/-- An instruction that needs no level. -/
theorem tap_open {op : State → State} (hp : s.boot.porHeld = false) (hc : code < 256) (hl : irLevel code = some 0) :
    ∃ m, tap code op s = op { s with dbg := { s.dbg with ir := BitVec.ofNat 8 code }, pin := m } := by
  obtain ⟨m, hm⟩ := pinsFrom_out s (setIr code s)
  exact ⟨m, (tap_of_level op hp hc hl (Nat.zero_le _)).trans (congrArg op hm)⟩

/-- An instruction of FULL, at FULL. -/
theorem tap_full {op : State → State} (hp : s.boot.porHeld = false) (hc : code < 256) (hl : irLevel code = some 2) (h2 : dbgLevel s = 2) :
    ∃ m, tap code op s = op { s with dbg := { s.dbg with ir := BitVec.ofNat 8 code }, pin := m } := by
  obtain ⟨m, hm⟩ := pinsFrom_out s (setIr code s)
  exact ⟨m, (tap_of_level op hp hc hl (Nat.le_of_eq h2.symm)).trans (congrArg op hm)⟩

/-- Settles O39: the instructions by the level that each needs, and none while power-on reset is held. -/
theorem tapInstructions : Obligations.TapInstructions := by
  unfold Obligations.TapInstructions
  refine ⟨fun s dr hp => ⟨?idcode, ?reset, ?sample, ?dtmcs, fun code hc => ?bypass⟩, fun s dr hp h2 => ⟨?extest, ?clamp, ?highz⟩,
    fun s dr op addr data c code hp h => ?refused, fun s dr op addr data write a w code c hp hc => ?held⟩
  case idcode =>
    obtain ⟨m, hop⟩ := tap_open (code := 0x01) (op := setCapture (BitVec.ofNat 2160 idcodeOf)) hp (by decide) rfl
    exact .of_exec_eq rfl hop rfl
  case reset =>
    obtain ⟨m, hm⟩ := pinsFrom_out s (setIr 0x01 s)
    have hop : (if s.boot.porHeld then s else irSelect 0x01 s) = { setIr 0x01 s with pin := m } :=
      (if_neg (by rw [hp]; exact Bool.false_ne_true)).trans ((irSelect_held rfl (Nat.zero_le _)).trans hm)
    exact .of_exec_eq rfl hop rfl
  case sample =>
    obtain ⟨m, hop⟩ := tap_open (code := 0x02) (op := boundaryScan dr) hp (by decide) rfl
    obtain ⟨b, n, hscan⟩ := boundaryScan_out dr { s with dbg := { s.dbg with ir := BitVec.ofNat 8 0x02 }, pin := m }
    exact .of_exec_eq rfl (hop.trans hscan) rfl
  case dtmcs =>
    obtain ⟨m, hop⟩ := tap_open (code := 0x10) (op := dtmcsScan) hp (by decide) rfl
    exact .of_exec_eq rfl hop ⟨rfl, dtmcs_fields⟩
  case bypass =>
    obtain ⟨m, hm⟩ := pinsFrom_out s (setCapture 0 (setIr 0xFF s))
    have hcode : code.toNat ∉ [0x00, 0x01, 0x02, 0x03, 0x04, 0x10, 0x11, 0x12] := fun h => hc (by
      have hmap : code.toNat ∈ [0x00#8, 0x01, 0x02, 0x03, 0x04, 0x10, 0x11, 0x12].map BitVec.toNat := h
      obtain ⟨b, hb, heq⟩ := List.mem_map.1 hmap
      exact BitVec.eq_of_toNat_eq heq ▸ hb)
    have hop : (if s.boot.porHeld then s else irSelect code.toNat s) = { setCapture 0 (setIr 0xFF s) with pin := m } :=
      (if_neg (by rw [hp]; exact Bool.false_ne_true)).trans ((irSelect_bypass (irLevel_none hcode)).trans hm)
    exact .of_exec_eq rfl hop rfl
  case extest =>
    obtain ⟨m, hop⟩ := tap_full (code := 0x00) (op := boundaryScan dr) hp (by decide) rfl h2
    obtain ⟨b, n, hscan⟩ := boundaryScan_out dr { s with dbg := { s.dbg with ir := BitVec.ofNat 8 0x00 }, pin := m }
    exact .of_exec_eq rfl (hop.trans hscan) ⟨rfl, rfl⟩
  case clamp =>
    obtain ⟨m, hop⟩ := tap_full (code := 0x03) (op := setCapture 0) hp (by decide) rfl h2
    exact .of_exec_eq rfl hop ⟨rfl, rfl⟩
  case highz =>
    obtain ⟨m, hop⟩ := tap_full (code := 0x04) (op := setCapture 0) hp (by decide) rfl h2
    exact .of_exec_eq rfl hop ⟨rfl, rfl⟩
  case refused =>
    rcases h with ⟨hl, ⟨rfl, rfl⟩ | ⟨rfl, rfl⟩ | ⟨rfl, rfl⟩⟩ | ⟨h0, rfl, rfl⟩
    · exact .of_exec rfl (bypassed_out (tap_refused (op := boundaryScan dr) hp (rfl : irLevel 0x00 = some 2) hl (by decide)).symm)
    · exact .of_exec rfl (bypassed_out (tap_refused (op := setCapture 0) hp (rfl : irLevel 0x03 = some 2) hl (by decide)).symm)
    · exact .of_exec rfl (bypassed_out (tap_refused (op := setCapture 0) hp (rfl : irLevel 0x04 = some 2) hl (by decide)).symm)
    · exact .of_exec rfl (bypassed_out (tap_refused (op := opDmi op.toNat addr.toNat data) hp (rfl : irLevel 0x11 = some 1) (by omega) (by decide)).symm)
  case held =>
    simp only [List.mem_cons, List.not_mem_nil, or_false] at hc
    rcases hc with rfl | rfl | rfl | rfl | rfl | rfl | rfl | rfl | rfl | rfl
    all_goals exact congrArg Host.Outcome.next (if_pos hp)

end Sys2Proof.Machine
end

section
/-! O40: DBGREG accesses by the level held, one at a time (R425, R438). -/

namespace Sys2Proof.Machine

variable {s t : State} {a : Nat} {w : Word}

theorem dbgAccess_pending (write : Bool) (h : s.dbg.dbgNext.isSome = true) : dbgAccess write a w s = { s with dbg := { s.dbg with dbgOver := true } } := if_pos h

theorem dbgAccess_refused {write : Bool} (h : s.dbg.dbgNext = none) (hm : dbgMay write a s = false) :
    dbgAccess write a w s = { dbgRefuse 0x12 a s with dbg := { (dbgRefuse 0x12 a s).dbg with dbgErr := true } } := by
  unfold dbgAccess
  rw [if_neg (by rw [h]; decide), hm]
  rfl

/-- What an access that the level allows has read or written. -/
def dbgAccessed (write : Bool) (a : Nat) (w : Word) (s : State) : State := if write then regWrite rqDbg a w s else regRead rqDbg true a s

theorem dbgAccess_allowed {write : Bool} (h : s.dbg.dbgNext = none) (hm : dbgMay write a s = true) : dbgAccess write a w s =
    { dbgAccessed write a w s with dbg := { (dbgAccessed write a w s).dbg with
        dbgNext := some (if write then (dbgAccessed write a w s).dbg.dbgData else (dbgAccessed write a w s).resp.data, (dbgAccessed write a w s).resp.err) } } := by
  unfold dbgAccess
  rw [if_neg (by rw [h]; decide), hm]
  rfl

/-- Settles O40: Capture-DR first, then the Update-DR by what is pending and what the level allows. -/
theorem debugRegister : Obligations.DebugRegister := by
  unfold Obligations.DebugRegister
  refine ⟨fun s write a w d hp hd => ?_, fun s a => ⟨?_, ?_⟩⟩
  · obtain ⟨m, hop⟩ := tap_open (code := 0x12) (op := fun s => dbgAccess write a.toNat w (dbgCapture s)) hp (by decide) rfl
    have hcap : dbgCapture { s with dbg := { s.dbg with ir := BitVec.ofNat 8 0x12 }, pin := m } = { s with dbg := d, pin := m } := by rw [hd]; rfl
    have hnext : d.dbgNext = s.dbg.dbgNext := by rw [hd]
    have hlev : dbgLevel { s with dbg := d, pin := m } = dbgLevel s := by rw [hd]; rfl
    have hmay : dbgMay write a.toNat { s with dbg := d, pin := m } = dbgMay write a.toNat s := by unfold dbgMay; rw [hlev]
    have hrun : exec (.dbgregUpdate write a w) s = .next (dbgAccess write a.toNat w { s with dbg := d, pin := m }) :=
      congrArg Host.Outcome.next (hop.trans (congrArg (dbgAccess write a.toNat w) hcap))
    refine ⟨fun h => ?pending, fun h hm => ?refused, fun h hm => ?allowed⟩
    case pending => exact .of_exec_eq hrun (dbgAccess_pending (s := { s with dbg := d, pin := m }) write (by rw [hnext]; exact h)) rfl
    case refused =>
      refine .of_exec_eq hrun (dbgAccess_refused (s := { s with dbg := d, pin := m }) (hnext.trans h) (hmay.trans hm)) ⟨?_, ?_, fun b hb => raise_reg _ _ _ _ _ hb⟩
      · show { (dbgRefuse 0x12 a.toNat { s with dbg := d, pin := m }).dbg with dbgErr := true } = _
        rw [dbgRefuse_dbg]
      · have hlog : Logged 0xA04 4 (dbgLevel { s with dbg := d, pin := m } <<< 34 ||| a.toNat <<< 8 ||| 0x12) s (dbgRefuse 0x12 a.toNat { s with dbg := d, pin := m }) := raise_logged rfl
        rw [hlev] at hlog
        exact hlog.of_same rfl rfl
    case allowed =>
      refine ⟨{ s with dbg := d, pin := m }, rfl, fun x hx => .of_exec_eq hrun ?_ rfl⟩
      rw [hx]
      exact dbgAccess_allowed (s := { s with dbg := d, pin := m }) (hnext.trans h) (hmay.trans hm)
  · unfold dbgMay
    rw [Bool.not_true, Bool.and_false, Bool.or_false]
  · unfold dbgMay
    rw [Bool.not_false, Bool.and_true]

end Sys2Proof.Machine
end

section
/-! O41: halt, resume, abstract commands and detaching (R424, R431, R433, R436). -/

namespace Sys2Proof.Machine

variable {s t : State} {n : Nat} {write : Bool}

/-! ### Below FULL (R438) -/

/-- A refusal leaves the core and the debug module alone. -/
theorem dbgRefuse_out (s : State) : Logged 0xA04 4 (dbgLevel s <<< 34 ||| s.dbg.ir.toNat) s (dbgRefuse s.dbg.ir.toNat 0 s) ∧
    (dbgRefuse s.dbg.ir.toNat 0 s).core.halted = s.core.halted ∧ (dbgRefuse s.dbg.ir.toNat 0 s).core.gpr = s.core.gpr ∧
    (dbgRefuse s.dbg.ir.toNat 0 s).core.csr = s.core.csr ∧ (dbgRefuse s.dbg.ir.toNat 0 s).core.pc = s.core.pc ∧ (dbgRefuse s.dbg.ir.toNat 0 s).dbg = s.dbg :=
  ⟨dbgRefuse_logged s.dbg.ir.toNat s, raise_core_halted .., raise_core_gpr .., raise_core_csr .., raise_core_pc .., dbgRefuse_dbg ..⟩

theorem setCmderr_out (e : Nat) (s : State) : ∃ d, setCmderr e s = { s with dbg := { s.dbg with cmderr := d } } ∧ (s.dbg.cmderr = 0 → d = BitVec.ofNat 3 e) := by
  unfold setCmderr
  by_cases h : s.dbg.cmderr = 0
  · exact ⟨_, if_pos h, fun _ => rfl⟩
  · exact ⟨s.dbg.cmderr, if_neg h, fun h' => absurd h' h⟩

theorem setCmderr_first (e : Nat) (h : s.dbg.cmderr = 0) : setCmderr e s = { s with dbg := { s.dbg with cmderr := BitVec.ofNat 3 e } } := if_pos h

/-! ### Halt and resume -/

theorem level_of_attached (h : attached s = true) : dbgLevel s = 2 := of_decide_eq_true (Bool.and_eq_true_iff.1 h).1

theorem not_below (h : attached s = true) : ¬ dbgLevel s < 2 := by rw [level_of_attached h]; decide

theorem opHalt_running (h : attached s = true) (hh : s.core.halted = false) : opHalt s = coreHaltFor 3 s :=
  (if_neg (not_below h)).trans (if_pos ⟨h, by rw [hh]; rfl⟩)

theorem opHalt_halted (h : attached s = true) (hh : s.core.halted = true) : opHalt s = s := by
  refine (if_neg (not_below h)).trans (if_neg fun hc => ?_)
  rw [hh] at hc
  cases hc.2

theorem opResume_attached (h : attached s = true) : opResume s = coreResume s := (if_neg (not_below h)).trans (if_pos h)

theorem coreResume_running (hh : s.core.halted = false) : coreResume s = s := if_pos (by rw [hh]; rfl)

/-- The state in which a halted core goes on. -/
def coreGoes (s : State) : State := { s with core := { s.core with halted := false }, dbg := { s.dbg with resumeack := true } }

theorem coreResume_halted (hh : s.core.halted = true) : coreResume s = if s.fn .wdt = fnOff then coreGoes s else wdtGrace (coreGoes s) :=
  if_neg (by rw [hh]; decide)

theorem coreResume_off (hh : s.core.halted = true) (hw : s.fn .wdt = fnOff) : coreResume s = coreGoes s := (coreResume_halted hh).trans (if_pos hw)

theorem coreResume_grace (hh : s.core.halted = true) (hw : s.fn .wdt ≠ fnOff) : coreResume s = wdtGrace (coreGoes s) := (coreResume_halted hh).trans (if_neg hw)

/-! ### Abstract commands (R424) -/

theorem opAbstract_running (h : attached s = true) (he : s.dbg.cmderr = 0) (hh : s.core.halted = false) : opAbstract write n s = setCmderr 4 s := by
  unfold opAbstract
  rw [if_neg (not_below h), if_neg (by rw [h, he]; decide), if_pos (by rw [hh]; rfl)]

theorem opAbstract_halted (h : attached s = true) (he : s.dbg.cmderr = 0) (hh : s.core.halted = true) : opAbstract write n s =
    if 0x1000 ≤ n ∧ n < 0x1020 then
      if write then (if n - 0x1000 = 0 then s else { s with core := { s.core with gpr := Store.set (fun _ => 0) s.core.gpr (n - 0x1000) s.dbg.data0 } })
      else { s with dbg := { s.dbg with data0 := if n - 0x1000 = 0 then 0 else Store.get (fun _ => 0) s.core.gpr (n - 0x1000) } }
    else if 0x1000 ≤ n then setCmderr 2 s
    else if !csrExists n ∨ (write ∧ 0xC00 ≤ n) then setCmderr 3 s
    else if write then csrWrite n s.dbg.data0 s
    else { (if csrCounts n then s.draw else s) with dbg := { s.dbg with data0 := csrRead s n } } := by
  unfold opAbstract
  rw [if_neg (not_below h), if_neg (by rw [h, he]; decide), if_neg (by rw [hh]; decide)]

/-- A register of the core by its number. -/
theorem opAbstract_gpr {x : Nat} (h : attached s = true) (he : s.dbg.cmderr = 0) (hh : s.core.halted = true) (hx1 : 1 ≤ x) (hx : x < 32) (hn : n = 0x1000 + x) :
    opAbstract true n s = { s with core := { s.core with gpr := Store.set (fun _ => 0) s.core.gpr x s.dbg.data0 } } ∧
    opAbstract false n s = { s with dbg := { s.dbg with data0 := Store.get (fun _ => 0) s.core.gpr x } } := by
  have hin : 0x1000 ≤ n ∧ n < 0x1020 := by omega
  have hsub : n - 0x1000 = x := by omega
  have hne : ¬ x = 0 := by omega
  rw [opAbstract_halted h he hh, opAbstract_halted h he hh, if_pos hin, if_pos hin, hsub, if_neg hne, if_neg hne, if_pos rfl, if_neg Bool.false_ne_true]
  exact ⟨rfl, rfl⟩

theorem opAbstract_x0 (h : attached s = true) (he : s.dbg.cmderr = 0) (hh : s.core.halted = true) (hn : n = 0x1000) :
    opAbstract true n s = s ∧ opAbstract false n s = { s with dbg := { s.dbg with data0 := 0 } } := by
  subst hn
  rw [opAbstract_halted h he hh, opAbstract_halted h he hh]
  exact ⟨rfl, rfl⟩

/-- A CSR of the debug specification or of R341 that holds what was written, and counts nothing. -/
theorem opAbstract_csr (h : attached s = true) (he : s.dbg.cmderr = 0) (hh : s.core.halted = true) (hn : n < 0xC00) (hx : csrExists n = true) (hc : csrCounts n = false) :
    opAbstract true n s = csrWrite n s.dbg.data0 s ∧ opAbstract false n s = { s with dbg := { s.dbg with data0 := csrRead s n } } := by
  have hout : ¬ (0x1000 ≤ n ∧ n < 0x1020) := by omega
  have hlow : ¬ 0x1000 ≤ n := by omega
  have hok : ∀ b : Bool, ¬ ((!csrExists n) = true ∨ (b = true ∧ 0xC00 ≤ n)) := by
    rintro b (hb | ⟨-, hb⟩)
    · rw [hx] at hb; cases hb
    · omega
  rw [opAbstract_halted h he hh, opAbstract_halted h he hh, if_neg hout, if_neg hout, if_neg hlow, if_neg hlow, if_neg (hok true), if_neg (hok false), hc]
  exact ⟨rfl, rfl⟩

theorem opAbstract_unsupported (h : attached s = true) (he : s.dbg.cmderr = 0) (hh : s.core.halted = true) (hn : 0x1020 ≤ n) :
    opAbstract write n s = setCmderr 2 s := by
  have hout : ¬ (0x1000 ≤ n ∧ n < 0x1020) := by omega
  have hhigh : 0x1000 ≤ n := by omega
  rw [opAbstract_halted h he hh, if_neg hout, if_pos hhigh]

theorem opAbstract_noCsr (h : attached s = true) (he : s.dbg.cmderr = 0) (hh : s.core.halted = true) (hn : n < 0x1000) (hx : csrExists n = false) :
    opAbstract write n s = setCmderr 3 s := by
  have hout : ¬ (0x1000 ≤ n ∧ n < 0x1020) := by omega
  have hlow : ¬ 0x1000 ≤ n := by omega
  rw [opAbstract_halted h he hh, if_neg hout, if_neg hlow, if_pos (.inl (by rw [hx]; rfl))]

/-! ### Detaching (R433) -/

/-- The module is no longer active, and its registers are as at reset. -/
def dmOff (s : State) : State := { s with dbg := { dmIdle s.dbg with dmactive := false } }

theorem attached_dmOff : attached (dmOff s) = false := Bool.and_false _

/-- A core that was halted or not goes on, and what the debugger did not hold stays. -/
structure CoreFreed (s t : State) : Prop where
  regs : t.regs = s.regs
  mode : t.mode = s.mode
  active : t.dbg.dmactive = s.dbg.dmactive
  ir : t.dbg.ir = s.dbg.ir
  level : t.dbg.level = s.dbg.level
  halted : t.core.halted = false
  graced : s.core.halted = true → s.fn .wdt ≠ fnOff → t.wdt.graced = true

theorem coreResume_freed (s : State) : CoreFreed s (coreResume s) := by
  cases hh : s.core.halted with
  | false =>
    rw [coreResume_running hh]
    exact ⟨rfl, rfl, rfl, rfl, rfl, hh, fun h => by rw [hh] at h; cases h⟩
  | true =>
    by_cases hw : s.fn .wdt = fnOff
    · rw [coreResume_off hh hw]
      exact ⟨rfl, rfl, rfl, rfl, rfl, rfl, fun _ h => absurd hw h⟩
    · rw [coreResume_grace hh hw]
      exact ⟨rfl, rfl, rfl, rfl, rfl, rfl, fun _ _ => rfl⟩

theorem detached_freed (s : State) : CoreFreed s (detached s) ∧ (detached s).boot.emu = false := by
  obtain ⟨hregs, hmode, hact, hir, hlevel, hhalt, hgrace⟩ := coreResume_freed s
  unfold detached
  generalize coreResume s = u at hregs hmode hact hir hlevel hhalt hgrace
  dsimp only
  cases hemu : u.boot.emu with
  | true => exact ⟨⟨hregs, hmode, hact, hir, hlevel, hhalt, hgrace⟩, rfl⟩
  | false => exact ⟨⟨hregs, hmode, hact, hir, hlevel, hhalt, hgrace⟩, hemu⟩

/-- Nothing of a change of level or of dmactive ends where no debugger was attached and no pin is under boundary control. -/
theorem dbgChange_apart (ha : attached s = false) (hb : boundaryHeld t = false) : dbgChange s t = t := by
  have hnone : ¬ (attached s = true ∧ (!attached t) = true) := fun h => by rw [ha] at h; cases h.1
  have hfree : ¬ (boundaryHeld t = true ∧ dbgLevel t < 2) := fun h => by rw [hb] at h; cases h.1
  unfold dbgChange
  dsimp only
  rw [if_neg hnone, if_neg hfree]

theorem boundaryHeld_of_ir (h : t.dbg.ir = s.dbg.ir) : boundaryHeld t = boundaryHeld s := by
  unfold boundaryHeld
  rw [h]

/-- The end of an attachment without boundary control. -/
theorem dbgChange_detaches (ha : attached s = true) (hn : attached t = false) (hb : boundaryHeld t = false) : dbgChange s t = detached t := by
  have hcond : attached s = true ∧ (!attached t) = true := ⟨ha, by rw [hn]; rfl⟩
  have hheld : boundaryHeld (detached t) = false := (boundaryHeld_of_ir (detached_freed t).1.ir).trans hb
  have hfree : ¬ (boundaryHeld (detached t) = true ∧ dbgLevel (detached t) < 2) := fun h => by rw [hheld] at h; cases h.1
  unfold dbgChange
  dsimp only
  rw [if_pos hcond, if_neg hfree]

/-- Settles O41: what the level refuses, halt and resume, abstract commands by number, and the end of an attachment. -/
theorem haltAndResume : Obligations.HaltAndResume := by
  unfold Obligations.HaltAndResume
  refine ⟨fun s write n c hl hc => ?refused,
    fun s ha => ⟨fun hh => ?halts, fun hh => congrArg Host.Outcome.next (opHalt_halted ha hh), fun hh hw => congrArg Host.Outcome.next ((opResume_attached ha).trans (coreResume_off hh hw)),
      fun hh hw => .of_exec_eq rfl ((opResume_attached ha).trans (coreResume_grace hh hw)) ⟨rfl, rfl, rfl, rfl, rfl⟩,
      fun hh => congrArg Host.Outcome.next ((opResume_attached ha).trans (coreResume_running hh))⟩,
    fun s write n ha he => ⟨fun hh => congrArg Host.Outcome.next ((opAbstract_running ha he hh).trans (setCmderr_first 4 he)),
      fun hh x hx1 hx hn => (opAbstract_gpr ha he hh hx1 hx hn).imp (congrArg Host.Outcome.next) (congrArg Host.Outcome.next),
      fun hh hn => (opAbstract_x0 ha he hh hn).imp (congrArg Host.Outcome.next) (congrArg Host.Outcome.next), fun hh hn => ?dpc, fun hh hn => ?csr,
      fun hh hn => congrArg Host.Outcome.next ((opAbstract_unsupported ha he hh hn).trans (setCmderr_first 2 he)),
      fun hh hn hx => congrArg Host.Outcome.next ((opAbstract_noCsr ha he hh hn hx).trans (setCmderr_first 3 he))⟩,
    fun s => ⟨fun ha hb => ?detaches, fun ha hb => ?unattached⟩⟩
  case refused =>
    obtain ⟨hlog, hhalt, hgpr, hcsr, hpc, hdbg⟩ := dbgRefuse_out s
    have hdata : (dbgRefuse s.dbg.ir.toNat 0 s).dbg.data0 = s.dbg.data0 := congrArg Debug.data0 hdbg
    rcases hc with rfl | rfl | rfl
    · exact .of_exec_eq rfl (if_pos hl) ⟨hlog, hhalt, hgpr, hcsr, hpc, hdata, fun h => by cases h⟩
    · exact .of_exec_eq rfl (if_pos hl) ⟨hlog, hhalt, hgpr, hcsr, hpc, hdata, fun h => by cases h⟩
    · obtain ⟨d, hset, hval⟩ := setCmderr_out 7 (dbgRefuse s.dbg.ir.toNat 0 s)
      exact .of_exec_eq rfl ((if_pos hl).trans hset) ⟨hlog.of_same rfl rfl, hhalt, hgpr, hcsr, hpc, hdata,
        fun _ h => hval ((congrArg Debug.cmderr hdbg).trans h)⟩
  case halts =>
    obtain ⟨-, -, hdcsr, -, -⟩ := coreHaltFor_out 3 s
    exact .of_exec_eq rfl (opHalt_running ha hh) ⟨rfl, hdcsr⟩
  case dpc =>
    rw [show exec (.abstractCommand true n) s = .next (opAbstract true n.toNat s) from rfl, show exec (.abstractCommand false n) s = .next (opAbstract false n.toNat s) from rfl, hn]
    exact (opAbstract_csr ha he hh (by decide) (by decide) (by decide)).imp (congrArg Host.Outcome.next) (congrArg Host.Outcome.next)
  case csr =>
    rw [show exec (.abstractCommand true n) s = .next (opAbstract true n.toNat s) from rfl, show exec (.abstractCommand false n) s = .next (opAbstract false n.toNat s) from rfl]
    rcases hn with hn | hn
    · rw [hn]
      exact (opAbstract_csr ha he hh (by decide) (by decide) (by decide)).imp (congrArg Host.Outcome.next) (congrArg Host.Outcome.next)
    · rw [hn]
      exact (opAbstract_csr ha he hh (by decide) (by decide) (by decide)).imp (congrArg Host.Outcome.next) (congrArg Host.Outcome.next)
  case detaches =>
    obtain ⟨⟨hregs, hmode, hact, -, -, hhalt, hgrace⟩, hemu⟩ := detached_freed (dmOff s)
    exact .of_exec_eq rfl (dbgChange_detaches (t := dmOff s) ha attached_dmOff hb) ⟨hact, hhalt, hemu, hregs, hmode, hgrace⟩
  case unattached => exact .of_exec_eq rfl (dbgChange_apart (t := dmOff s) ha hb) ⟨rfl, rfl, rfl⟩

end Sys2Proof.Machine
end

section
/-! O42: the debug module interface and the system bus (R424, R430). -/

namespace Sys2Proof.Machine

variable {s t : State} {a : Nat} {v addr data : BitVec 32} {write : Bool}

/-! ### The interface (R424) -/

/-- What a DMI access finds: the instruction in force, and what the last access gave captured. -/
def dmiCaptured (s : State) : Debug := { s.dbg with ir := 0x11, capture := BitVec.ofNat 2160 (s.dbg.dmiAddr.toNat <<< 34 ||| s.dbg.dmiData.toNat <<< 2) }

/-- The state that a DMI access works on, the pins at `m`. -/
def dmiFound (m : Store Pin) (s : State) : State := { s with dbg := dmiCaptured s, pin := m }

/-- The state in which a DMI write of `v` at `a` has been taken. -/
def dmiTaken (a : Nat) (v : BitVec 32) (s : State) : State := { s with dbg := { s.dbg with dmiAddr := BitVec.ofNat 7 a, dmiData := v } }

/-- A DMI access by its operation. -/
def dmiAct (op a : Nat) (v : BitVec 32) (s : State) : State :=
  if op = 1 then dmiRead a s
  else if op = 2 then (if dbgLevel (dmiTaken a v s) = 2 ∨ a = 0x38 ∨ a = 0x39 then dmiPut a v (dmiTaken a v s) else dmiRefuse a (dmiTaken a v s))
  else s

/-- With a level above NONE the access is made on the captured state. -/
theorem exec_dmi (op : BitVec 2) (a : BitVec 7) (v : BitVec 32) (hp : s.boot.porHeld = false) (hl : 1 ≤ dbgLevel s) :
    ∃ m, exec (.dmi op a v) s = .next (dmiAct op.toNat a.toNat v (dmiFound m s)) := by
  obtain ⟨m, hm⟩ := pinsFrom_out s (setIr 0x11 s)
  have htap := (tap_of_level (opDmi op.toNat a.toNat v) hp (by decide) rfl hl).trans (congrArg (opDmi op.toNat a.toNat v) hm)
  exact ⟨m, congrArg Host.Outcome.next htap⟩

theorem exec_dmiWrite (a : BitVec 7) (v : BitVec 32) (hp : s.boot.porHeld = false) (hl : 1 ≤ dbgLevel s) (ha : dbgLevel s = 2 ∨ a.toNat = 0x38 ∨ a.toNat = 0x39) :
    ∃ m, exec (.dmi 2 a v) s = .next (dmiPut a.toNat v (dmiTaken a.toNat v (dmiFound m s))) := by
  obtain ⟨m, hm⟩ := exec_dmi 2 a v hp hl
  have hact : dmiAct 2 a.toNat v (dmiFound m s) = dmiPut a.toNat v (dmiTaken a.toNat v (dmiFound m s)) := if_pos ha
  exact ⟨m, hm.trans (congrArg Host.Outcome.next hact)⟩

theorem exec_dmiRefused (a : BitVec 7) (v : BitVec 32) (hp : s.boot.porHeld = false) (hl : dbgLevel s = 1) (h38 : a ≠ 0x38) (h39 : a ≠ 0x39) :
    ∃ m, exec (.dmi 2 a v) s = .next (dmiRefuse a.toNat (dmiTaken a.toNat v (dmiFound m s))) := by
  obtain ⟨m, hm⟩ := exec_dmi 2 a v hp (Nat.le_of_eq hl.symm)
  have hno : ¬ (dbgLevel s = 2 ∨ a.toNat = 0x38 ∨ a.toNat = 0x39) := by
    rintro (h | h | h)
    · rw [hl] at h; cases h
    · exact h38 (BitVec.eq_of_toNat_eq h)
    · exact h39 (BitVec.eq_of_toNat_eq h)
  have hact : dmiAct 2 a.toNat v (dmiFound m s) = dmiRefuse a.toNat (dmiTaken a.toNat v (dmiFound m s)) := if_neg hno
  exact ⟨m, hm.trans (congrArg Host.Outcome.next hact)⟩

theorem dmiRead_plain (h12 : a ≠ 0x12) (h3C : a ≠ 0x3C ∨ s.dbg.sbOnData = false) :
    dmiRead a s = { s with dbg := { s.dbg with dmiAddr := BitVec.ofNat 7 a, dmiData := dmiShow a s } } := by
  unfold dmiRead
  dsimp only
  rw [if_neg h12]
  refine if_neg ?_
  rintro ⟨ha, hon⟩
  exact h3C.elim (fun h => h ha) (fun h => by rw [h] at hon; cases hon)

theorem dmiPut_sbAddr (hon : s.dbg.sbOnAddr = false) : dmiPut 0x39 v s = { s with dbg := { s.dbg with sbAddr := v } } :=
  if_neg (by rw [show _ = false from hon]; exact Bool.false_ne_true)

/-- dmcontrol with dmactive and haltreq, the module active: the core halts. -/
theorem dmControl_halts (hatt : attached s = true) (hir : s.dbg.ir = 0x11) (hh : s.core.halted = false) : dmControl 0x80000001 s = coreHaltFor 3 s := by
  obtain ⟨hlev, hact⟩ := Bool.and_eq_true_iff.1 hatt
  have hset : ({ s with dbg := { s.dbg with dmactive := true } } : State) = s := by
    rw [← hact]
  have hheld : boundaryHeld s = false := by
    unfold boundaryHeld
    rw [hir]
    decide
  have hstay : ¬ (attached s = true ∧ (!attached s) = true) := fun h => by rw [hatt] at h; cases h.2
  have hfree : ¬ (boundaryHeld s = true ∧ dbgLevel s < 2) := fun h => by rw [hheld] at h; cases h.1
  have hchange : setDmactive true s = s := by
    unfold setDmactive
    rw [if_pos rfl, hset]
    unfold dbgChange
    dsimp only
    rw [if_neg hstay, if_neg hfree]
  unfold dmControl
  rw [show (0x80000001 : BitVec 32).getLsbD 0 = true by decide, hchange]
  dsimp only
  rw [if_neg (by rw [hact]; decide), show (0x80000001 : BitVec 32).getLsbD 28 = false by decide, show (0x80000001 : BitVec 32).getLsbD 2 = false by decide,
    show (0x80000001 : BitVec 32).getLsbD 3 = false by decide, show (0x80000001 : BitVec 32).getLsbD 31 = true by decide]
  exact opHalt_running hatt hh

/-! ### Refused accesses (R424, R438) -/

theorem sbErr_out (e : Nat) (s : State) : ∃ x, sbErr e s = { s with dbg := { s.dbg with sberror := x } } ∧ (s.dbg.sberror = 0 → x = BitVec.ofNat 3 e) := by
  unfold sbErr
  by_cases h : s.dbg.sberror = 0
  · exact ⟨_, if_pos h, fun _ => rfl⟩
  · exact ⟨s.dbg.sberror, if_neg h, fun h' => absurd h' h⟩

/-- A DMI write that OBSERVE does not allow moves its error and EA04 alone. -/
theorem dmiRefuse_out (a : Nat) (s : State) : ∃ x c, (dmiRefuse a s).dbg = { s.dbg with sberror := x, cmderr := c } ∧ (a = 0x3C → s.dbg.sberror = 0 → x = 7) ∧
    (a = 0x17 → s.dbg.cmderr = 0 → c = 7) ∧ (dmiRefuse a s).core.halted = s.core.halted ∧ Logged 0xA04 4 (dbgLevel s <<< 34 ||| 0x11) s (dmiRefuse a s) := by
  have hmark : ∃ x c, (if a = 0x3C then sbErr 7 s else if a = 0x04 ∨ a = 0x16 ∨ a = 0x17 then setCmderr 7 s else s) =
      { s with dbg := { s.dbg with sberror := x, cmderr := c } } ∧ (a = 0x3C → s.dbg.sberror = 0 → x = 7) ∧ (a = 0x17 → s.dbg.cmderr = 0 → c = 7) := by
    by_cases h3C : a = 0x3C
    · obtain ⟨x, hset, hval⟩ := sbErr_out 7 s
      exact ⟨x, s.dbg.cmderr, (if_pos h3C).trans hset, fun _ => hval, fun h => by omega⟩
    · by_cases hcmd : a = 0x04 ∨ a = 0x16 ∨ a = 0x17
      · obtain ⟨c, hset, hval⟩ := setCmderr_out 7 s
        exact ⟨s.dbg.sberror, c, (if_neg h3C).trans ((if_pos hcmd).trans hset), fun h => absurd h h3C, fun _ => hval⟩
      · exact ⟨s.dbg.sberror, s.dbg.cmderr, (if_neg h3C).trans (if_neg hcmd), fun h => absurd h h3C, fun h => absurd (.inr (.inr h)) hcmd⟩
  obtain ⟨x, c, hset, hx, hc⟩ := hmark
  have hop : dmiRefuse a s = dbgRefuse 0x11 0 { s with dbg := { s.dbg with sberror := x, cmderr := c } } := congrArg (dbgRefuse 0x11 0) hset
  refine ⟨x, c, ?_, hx, hc, ?_, ?_⟩
  · rw [hop, dbgRefuse_dbg]
  · rw [hop]
    exact raise_core_halted ..
  · rw [hop]
    exact dbgRefuse_logged 0x11 { s with dbg := { s.dbg with sberror := x, cmderr := c } }

/-! ### The system bus (R424, R430) -/

/-- The access that an address and its data ask for. -/
def sbAsked (write : Bool) (addr data : BitVec 32) (s : State) : State :=
  { s with dbg := { s.dbg with sbAddr := addr, sbAccess := 2, sbData := if write then data else s.dbg.sbData } }

theorem opSysBus_refused (hp : s.boot.porHeld = false) (hl : dbgLevel s < (if write then 2 else 1)) :
    opSysBus write addr data s = dbgRefuse 0x11 0 (sbErr 7 s) := (if_neg (by rw [hp]; exact Bool.false_ne_true)).trans (if_pos hl)

theorem opSysBus_asks (hp : s.boot.porHeld = false) (hl : (if write then 2 else 1) ≤ dbgLevel s) :
    opSysBus write addr data s = sbAccess write (sbAsked write addr data s) := (if_neg (by rw [hp]; exact Bool.false_ne_true)).trans (if_neg (Nat.not_lt.2 hl))

theorem sbAccess_misaligned (he : s.dbg.sberror = 0) (h2 : s.dbg.sbAccess = 2) (ha : aligned s.dbg.sbAddr .word = false) : sbAccess write s = sbErr 3 s := by
  unfold sbAccess
  dsimp only
  rw [if_neg (by rw [he]; decide), if_neg (by rw [h2]; decide), if_pos (bad_not ha)]

/-- An aligned write whose end leaves no address to advance. -/
theorem sbAccess_write (he : s.dbg.sberror = 0) (h2 : s.dbg.sbAccess = 2) (ha : aligned s.dbg.sbAddr .word = true) (ht : sbWriteAt s.dbg.sbAddr s.dbg.sbData s = t) :
    sbAccess true s = if t.dbg.sberror = 0 ∧ t.dbg.sbInc then { t with dbg := { t.dbg with sbAddr := t.dbg.sbAddr + 4 } } else t := by
  subst ht
  unfold sbAccess
  dsimp only
  rw [if_neg (by rw [he]; decide), if_neg (by rw [h2]; decide), if_neg (ok_not ha), if_pos rfl]

theorem sbAccess_writeStays (he : s.dbg.sberror = 0) (h2 : s.dbg.sbAccess = 2) (ha : aligned s.dbg.sbAddr .word = true) (ht : sbWriteAt s.dbg.sbAddr s.dbg.sbData s = t)
    (hs : t.dbg.sbInc = false ∨ t.dbg.sberror ≠ 0) : sbAccess true s = t := by
  refine (sbAccess_write he h2 ha ht).trans (if_neg ?_)
  rintro ⟨herr, hinc⟩
  rcases hs with h | h
  · rw [h] at hinc; cases hinc
  · exact h herr

theorem regRange_of_nibble (h : nibbleRange addr = true) : regRange addr = false := by
  unfold nibbleRange at h
  unfold regRange
  simp only [Bool.and_eq_true, decide_eq_true_eq] at h
  simp only [Bool.and_eq_false_imp, decide_eq_true_eq, decide_eq_false_iff_not]
  omega

theorem sbWriteAt_nibble (hn : nibbleRange addr = true) : sbWriteAt addr data s = { s with dbg := { s.dbg with sbStaging := BitVec.ofNat 4 data.toNat } } := by
  unfold sbWriteAt
  rw [regRange_of_nibble hn, if_neg Bool.false_ne_true, if_pos hn]

theorem sbWriteAt_register (hr : regRange addr = true) (ht : regWrite rqDbg (coreReg addr) (wd (s.dbg.sbStaging.toNat <<< 32 ||| data.toNat)) s = t) (he : t.resp.err = false) :
    sbWriteAt addr data s = { t with dbg := { t.dbg with sbStaging := 0 } } := by
  subst ht
  unfold sbWriteAt
  rw [if_pos hr]
  exact if_neg (by rw [he]; exact Bool.false_ne_true)

theorem sbWriteAt_window (hr : regRange addr = false) (hn : nibbleRange addr = false) (hx : xipRange addr = true) : sbWriteAt addr data s = sbErr 7 s := by
  unfold sbWriteAt
  rw [hr, hn, if_neg Bool.false_ne_true, if_neg Bool.false_ne_true, if_pos hx]

/-- Settles O42: DMI reads, the writes that each level accepts, and the system bus by what it reaches. -/
theorem debugModule : Obligations.DebugModule := by
  unfold Obligations.DebugModule
  refine ⟨fun s a v hp hl d hd => ⟨?none, fun h12 h3C => ?read, fun hon => ?readData, fun hon => ?sbAddr, ?sbcs, fun h2 => ?data0, fun h2 hact hv hh => ?halts,
      fun h1 h38 h39 => ?refused⟩,
    fun s write addr data hp => ⟨fun hl => ?busRefused, fun hl he ha => ?misaligned⟩,
    fun s addr data hlive h2 he hinc ha => ⟨fun hn => ?nibble, fun u hu hr x hx herr => ?register, fun hr hn hxip => ?window⟩⟩
  case none =>
    obtain ⟨m, hm⟩ := exec_dmi 0 a v hp hl
    exact .of_exec hm (by rw [hd]; rfl)
  case read =>
    obtain ⟨m, hm⟩ := exec_dmi 1 a v hp hl
    have hn12 : a.toNat ≠ 0x12 := fun h => h12 (BitVec.eq_of_toNat_eq h)
    have hn3C : a.toNat ≠ 0x3C := fun h => h3C (BitVec.eq_of_toNat_eq h)
    refine .of_exec_eq hm (dmiRead_plain hn12 (.inl hn3C)) ?_
    rw [hd, BitVec.ofNat_toNat, BitVec.setWidth_eq]
    rfl
  case readData =>
    obtain ⟨m, hm⟩ := exec_dmi 1 0x3C v hp hl
    refine .of_exec_eq hm (dmiRead_plain (s := dmiFound m s) (a := 0x3C) (by decide) (.inr hon)) ?_
    rw [hd]
    rfl
  case sbAddr =>
    obtain ⟨m, hm⟩ := exec_dmiWrite 0x39 v hp hl (.inr (.inr rfl))
    refine .of_exec_eq hm (dmiPut_sbAddr (s := dmiTaken 0x39 v (dmiFound m s)) hon) ?_
    rw [hd]
    rfl
  case sbcs =>
    obtain ⟨m, hm⟩ := exec_dmiWrite 0x38 v hp hl (.inr (.inl rfl))
    refine .of_exec hm ?_
    rw [hd]
    rfl
  case data0 =>
    obtain ⟨m, hm⟩ := exec_dmiWrite 0x04 v hp hl (.inl h2)
    refine .of_exec hm ?_
    rw [hd]
    rfl
  case halts =>
    obtain ⟨m, hm⟩ := exec_dmiWrite 0x10 v hp hl (.inl h2)
    have hatt : attached (dmiTaken 0x10 v (dmiFound m s)) = true := by
      show (dbgLevel s == 2 && s.dbg.dmactive) = true
      rw [h2, hact]
      rfl
    subst hv
    refine .of_exec_eq hm (dmControl_halts hatt rfl hh) ⟨rfl, hact, rfl⟩
  case refused =>
    obtain ⟨m, hm⟩ := exec_dmiRefused a v hp h1 h38 h39
    obtain ⟨x, c, hdbg, hx, hc, hhalt, hlog⟩ := dmiRefuse_out a.toNat (dmiTaken a.toNat v (dmiFound m s))
    have hlev : dbgLevel (dmiTaken a.toNat v (dmiFound m s)) = 1 := h1
    rw [hlev] at hlog
    refine .of_exec hm ⟨?_, ?_, ?_, hhalt, fun h he => ?_, fun h he => ?_, hlog⟩
    · rw [hdbg]; rfl
    · rw [hdbg]; rfl
    · rw [hdbg]; rfl
    · rw [hdbg]; exact hx (congrArg BitVec.toNat h) he
    · rw [hdbg]; exact hc (congrArg BitVec.toNat h) he
  case busRefused =>
    obtain ⟨x, hset, hval⟩ := sbErr_out 7 s
    have hop : opSysBus write addr data s = dbgRefuse 0x11 0 { s with dbg := { s.dbg with sberror := x } } := (opSysBus_refused hp hl).trans (congrArg (dbgRefuse 0x11 0) hset)
    have hdbg := dbgRefuse_dbg 0x11 0 { s with dbg := { s.dbg with sberror := x } }
    refine .of_exec_eq rfl hop ⟨?_, ?_, fun he => ?_, dbgRefuse_logged 0x11 { s with dbg := { s.dbg with sberror := x } }, fun b hb => raise_reg _ _ _ _ _ hb⟩
    · rw [hdbg]
    · rw [hdbg]
    · rw [hdbg]; exact hval he
  case misaligned =>
    have hop := (opSysBus_asks (addr := addr) (data := data) hp hl).trans (sbAccess_misaligned (s := sbAsked write addr data s) he rfl ha)
    obtain ⟨x, hset, hval⟩ := sbErr_out 3 (sbAsked write addr data s)
    exact .of_exec_eq rfl (hop.trans hset) ⟨hval he, rfl, rfl⟩
  case nibble =>
    have hop := (opSysBus_asks (write := true) (addr := addr) (data := data) hlive.2.1 (Nat.le_of_eq h2.symm)).trans
      (sbAccess_writeStays (s := sbAsked true addr data s) he rfl ha (sbWriteAt_nibble hn) (.inl hinc))
    exact .of_exec_eq rfl hop rfl
  case register =>
    have hu' : u = sbAsked true addr data s := hu
    subst hu' hx
    exact congrArg Host.Outcome.next ((opSysBus_asks (write := true) hlive.2.1 (Nat.le_of_eq h2.symm)).trans
      (sbAccess_write (s := sbAsked true addr data s) he rfl ha (sbWriteAt_register hr rfl herr)))
  case window =>
    obtain ⟨x, hset, hval⟩ := sbErr_out 7 (sbAsked true addr data s)
    have hseven : (sbErr 7 (sbAsked true addr data s)).dbg.sberror = 7 := by rw [hset]; exact hval he
    have hop := (opSysBus_asks (write := true) (addr := addr) (data := data) hlive.2.1 (Nat.le_of_eq h2.symm)).trans
      (sbAccess_writeStays (s := sbAsked true addr data s) he rfl ha (sbWriteAt_window hr hn hxip) (.inr (by rw [hseven]; decide)))
    exact .of_exec_eq rfl (hop.trans hset) ⟨hval he, rfl, rfl⟩

end Sys2Proof.Machine
end

section
/-! O43: NEW_CHAL, CHECK, DROP and a challenge's expiry (R427 to R429, R438). -/

namespace Sys2Proof.Machine

variable {s t : State} {who : Req} {v : Word} {l : Nat}

theorem dbgStatus_not_evtReg : Reg.dbgStatus ∉ evtRegs := by decide

theorem opAuthCmd_other (h : who ≠ rqDbg) : opAuthCmd who v s = s := if_pos h

/-! ### NEW_CHAL -/

/-- NEW_CHAL is refused (R427, R429). -/
def chalRefused (v : Word) (s : State) : Prop :=
  Config.fuseDbgPolicy.getLsbD 4 = false ∨ Config.fuseDbgPolicy.getLsbD 5 = false ∨ fld Config.fuseDbgPolicy 3 2 < fld v 1 0 ∨ fld v 1 0 ≤ dbgLevel s ∨ s.getB Reg.dbgStatus 8 = true

theorem opAuthCmd_newChal (h8 : v.getLsbD 8 = true) (h9 : v.getLsbD 9 = false) (h10 : v.getLsbD 10 = false) : opAuthCmd rqDbg v s = newChal (fld v 1 0) s := by
  unfold opAuthCmd
  rw [if_neg (fun h => h rfl), h8, h9, h10]
  rfl

theorem newChal_refused (h : chalRefused v s) : newChal (fld v 1 0) s = s.setB Reg.dbgStatus 10 true := by
  refine if_pos ?_
  rcases h with h | h | h | h | h
  · exact .inl (bad_not h)
  · exact .inr (.inl (bad_not h))
  · exact .inr (.inr (.inl h))
  · exact .inr (.inr (.inr (.inl h)))
  · exact .inr (.inr (.inr (.inr h)))

theorem newChal_issued (h : ¬ chalRefused v s) : newChal (fld v 1 0) s = chalIssue (fld v 1 0) s := by
  refine if_neg fun hc => h ?_
  rcases hc with hc | hc | hc | hc | hc
  · exact .inl ((Bool.not_eq_true' _).mp hc)
  · exact .inr (.inl ((Bool.not_eq_true' _).mp hc))
  · exact .inr (.inr (.inl hc))
  · exact .inr (.inr (.inr (.inl hc)))
  · exact .inr (.inr (.inr (.inr hc)))

/-! ### CHECK -/

theorem opAuthCmd_check (h8 : v.getLsbD 8 = false) (h9 : v.getLsbD 9 = true) (h10 : v.getLsbD 10 = false) : opAuthCmd rqDbg v s = chalCheck (fld v 1 0) s := by
  unfold opAuthCmd
  rw [if_neg (fun h => h rfl), h8, h9, h10]
  rfl

/-- The state in which a right response has been taken. -/
def chalRight (l : Nat) (s : State) : State :=
  { (s.setB Reg.dbgStatus 9 false).setF Reg.dbgStatus 7 5 0 with dbg := { s.dbg with level := some (BitVec.ofNat 2 l) } }

theorem chalCheck_right (h9 : s.getB Reg.dbgStatus 9 = true) (hr : respBytes s = chalAnswer s.dbg.chal) (req : Nat) :
    chalCheck req s = raise 0xA01 rqDbg (1 <<< 2 ||| fld (s.dbg.chal.getD 6 0) 1 0) (chalRight (fld (s.dbg.chal.getD 6 0) 1 0) s) :=
  (if_neg (by rw [h9]; decide)).trans (if_pos hr)

theorem chalCheck_wrong (h : s.getB Reg.dbgStatus 9 = false ∨ respBytes s ≠ chalAnswer s.dbg.chal) (req : Nat) :
    chalCheck req s = chalFail (if s.getB Reg.dbgStatus 9 then fld (s.dbg.chal.getD 6 0) 1 0 else req) s := by
  unfold chalCheck
  cases h9 : s.getB Reg.dbgStatus 9 with
  | false => rfl
  | true =>
    rw [h9] at h
    exact if_neg (h.resolve_left (by decide))

theorem chalRight_out (l : Nat) (s : State) : (chalRight l s).getB Reg.dbgStatus 9 = false ∧ (chalRight l s).getF Reg.dbgStatus 7 5 = 0 := by
  have hreg : (chalRight l s).reg Reg.dbgStatus = ((s.setB Reg.dbgStatus 9 false).setF Reg.dbgStatus 7 5 0).reg Reg.dbgStatus := rfl
  refine ⟨?_, (congrArg (fld · 7 5) hreg).trans (getF_setF_same (by decide))⟩
  rw [getB_eq, hreg, ← getB_eq]
  exact (getB_setF (by decide)).trans ((if_neg (by decide)).trans (getB_setB_same (by decide)))

/-- The count of failures after one more. -/
def failsNow (s : State) : Nat := min 7 (s.getF Reg.dbgStatus 7 5 + 1)

theorem failsNow_eq (s : State) : satInc (s.getF Reg.dbgStatus 7 5) 7 = failsNow s := by
  have hlt : s.getF Reg.dbgStatus 7 5 < 8 := fld_lt _
  unfold satInc failsNow
  split <;> omega

/-- The state in which a wrong response has been counted and reported. -/
def authCounted (l : Nat) (s : State) : State := raise 0xA02 rqDbg (failsNow s <<< 2 ||| l) (s.setF Reg.dbgStatus 7 5 (failsNow s))

theorem authFail_eq (l : Nat) (s : State) : authFail l s =
    if failsNow s = 4 then raise 0xA03 rqDbg (failsNow s <<< 2) ((authCounted l s).setB Reg.dbgStatus 8 true) else authCounted l s := by
  unfold authFail
  rw [failsNow_eq]
  rfl

/-- After a failure FAILS counts one more, the other bits of STATUS are as they were, and the event is reported. -/
theorem authCounted_out (l : Nat) (s : State) : (authCounted l s).dbg = s.dbg ∧ (authCounted l s).getF Reg.dbgStatus 7 5 = failsNow s ∧
    (∀ k, k < 5 ∨ 7 < k → (authCounted l s).getB Reg.dbgStatus k = s.getB Reg.dbgStatus k) ∧ Logged 0xA02 4 (failsNow s <<< 2 ||| l) s (authCounted l s) := by
  have hlt : failsNow s < 8 := by unfold failsNow; omega
  refine ⟨raise_dbg .., (congrArg (fld · 7 5) (raise_reg _ _ _ _ _ dbgStatus_not_evtReg)).trans ((getF_setF_same (by decide)).trans (Nat.mod_eq_of_lt hlt)),
    fun k hk => (getB_raise _ _ _ _ dbgStatus_not_evtReg).trans ((getB_setF (by decide)).trans (if_neg (by omega))), raise_logged rfl⟩

/-- A failed response: FAILS counts, and the fourth failure locks out with an event of its own. -/
theorem authFail_out (l : Nat) (s : State) : (authFail l s).dbg = s.dbg ∧ (authFail l s).getF Reg.dbgStatus 7 5 = failsNow s ∧
    (∀ k, k < 5 ∨ 8 < k → (authFail l s).getB Reg.dbgStatus k = s.getB Reg.dbgStatus k) ∧
    (s.getF Reg.dbgStatus 7 5 ≠ 3 → (authFail l s).getB Reg.dbgStatus 8 = s.getB Reg.dbgStatus 8 ∧ Logged 0xA02 4 (failsNow s <<< 2 ||| l) s (authFail l s)) ∧
    (s.getF Reg.dbgStatus 7 5 = 3 → (authFail l s).getB Reg.dbgStatus 8 = true ∧ ∃ u, Logged 0xA02 4 (4 <<< 2 ||| l) s u ∧ Logged 0xA03 4 (4 <<< 2) u (authFail l s)) := by
  obtain ⟨hdbg, hfails, hkept, hlog⟩ := authCounted_out l s
  have hop := authFail_eq l s
  by_cases h3 : s.getF Reg.dbgStatus 7 5 = 3
  · have h4 : failsNow s = 4 := by unfold failsNow; omega
    rw [h4] at hlog
    rw [h4, if_pos rfl] at hop
    generalize authCounted l s = u at hdbg hfails hkept hop hlog
    rw [hop]
    refine ⟨(raise_dbg ..).trans hdbg, (congrArg (fld · 7 5) (raise_reg _ _ _ _ _ dbgStatus_not_evtReg)).trans ?_, fun k hk => ?_,
      fun h => absurd h3 h, fun _ => ⟨(getB_raise _ _ _ _ dbgStatus_not_evtReg).trans (getB_setB_same (by decide)), u, hlog, raise_logged rfl⟩⟩
    · exact (getF_setF_field (by decide) (.inl (by decide))).trans hfails
    · exact (getB_raise _ _ _ _ dbgStatus_not_evtReg).trans ((getB_setF (by decide)).trans ((if_neg (by omega)).trans (hkept k (by omega))))
  · have h4 : ¬ failsNow s = 4 := by unfold failsNow; omega
    rw [if_neg h4] at hop
    rw [hop]
    exact ⟨hdbg, hfails, fun k hk => hkept k (by omega), fun _ => ⟨hkept 8 (by decide), hlog⟩, fun h => absurd h h3⟩

/-- A failed CHECK: the level stands, and the challenge is void. -/
theorem chalFail_out (l : Nat) (s : State) : (chalFail l s).dbg = s.dbg ∧ (chalFail l s).getB Reg.dbgStatus 9 = false ∧
    (chalFail l s).getF Reg.dbgStatus 7 5 = failsNow s ∧
    (s.getF Reg.dbgStatus 7 5 ≠ 3 → (chalFail l s).getB Reg.dbgStatus 8 = s.getB Reg.dbgStatus 8 ∧ Logged 0xA02 4 (failsNow s <<< 2 ||| l) s (chalFail l s)) ∧
    (s.getF Reg.dbgStatus 7 5 = 3 → (chalFail l s).getB Reg.dbgStatus 8 = true ∧ ∃ u, Logged 0xA02 4 (4 <<< 2 ||| l) s u ∧ Logged 0xA03 4 (4 <<< 2) u (chalFail l s)) := by
  have hkeep : (s.setB Reg.dbgStatus 9 false).getF Reg.dbgStatus 7 5 = s.getF Reg.dbgStatus 7 5 := getF_setF_field (by decide) (.inl (by decide))
  have hnow : failsNow (s.setB Reg.dbgStatus 9 false) = failsNow s := by unfold failsNow; rw [hkeep]
  have hlock : (s.setB Reg.dbgStatus 9 false).getB Reg.dbgStatus 8 = s.getB Reg.dbgStatus 8 := (getB_setF (by decide)).trans (if_neg (by decide))
  obtain ⟨hdbg, hfails, hkept, hwrong, hfourth⟩ := authFail_out l (s.setB Reg.dbgStatus 9 false)
  rw [hkeep, hnow, hlock] at hwrong
  rw [hkeep] at hfourth
  rw [hnow] at hfails
  exact ⟨hdbg, (hkept 9 (by decide)).trans (getB_setB_same (by decide)), hfails, hwrong, hfourth⟩

/-! ### DROP -/

theorem opAuthCmd_drop (h8 : v.getLsbD 8 = false) (h9 : v.getLsbD 9 = false) (h10 : v.getLsbD 10 = true) : opAuthCmd rqDbg v s = levelDrop s := by
  unfold opAuthCmd
  rw [if_neg (fun h => h rfl), h8, h9, h10]
  rfl

/-- The state at FLOOR. -/
def atFloor (s : State) : State := { s with dbg := { s.dbg with level := none } }

theorem attached_atFloor (h : attached s = true) : attached (atFloor s) = decide (Config.fuseDbgPolicy.toNat % 4 = 2) := by
  show (Config.fuseDbgPolicy.toNat % 4 == 2 && s.dbg.dmactive) = _
  rw [(Bool.and_eq_true_iff.1 h).2, Bool.and_true]
  rfl

theorem dbgChange_stays (ha : attached t = true) (hb : boundaryHeld t = false) : dbgChange s t = t := by
  have hstay : ¬ (attached s = true ∧ (!attached t) = true) := fun h => by rw [ha] at h; cases h.2
  have hfree : ¬ (boundaryHeld t = true ∧ dbgLevel t < 2) := fun h => by rw [hb] at h; cases h.1
  unfold dbgChange
  dsimp only
  rw [if_neg hstay, if_neg hfree]

/-- Settles O43: the commands of AUTH_CMD one by one, and the expiry of a challenge. -/
theorem debugAuthentication : Obligations.DebugAuthentication := by
  unfold Obligations.DebugAuthentication
  refine ⟨fun who v s hlive hd c hc => ?other, fun v s hlive b hb => ⟨fun h8 h9 h10 => ?newChal, fun h8 h9 h10 => ⟨fun hvalid l hl => ?checked, fun hwrong l hl => ?wrong⟩,
    fun h8 h9 h10 hfree => ?drop⟩, fun s => rfl⟩
  case other =>
    rcases hc with rfl | rfl | rfl
    all_goals exact congrArg Host.Outcome.next ((gateW_live hlive).trans (opAuthCmd_other hd))
  case newChal =>
    subst hb
    refine congrArg Host.Outcome.next ((gateW_live hlive).trans ((opAuthCmd_newChal h8 h9 h10).trans ?_))
    by_cases href : chalRefused v s
    · rw [if_pos (show _ ∨ _ from href)]
      exact newChal_refused (s := begin rqDbg s) href
    · rw [if_neg (show ¬ (_ ∨ _) from href)]
      exact newChal_issued (s := begin rqDbg s) href
  case checked =>
    subst hl
    have hop := (gateW_live (a := Reg.dbgAuthCmd) (op := opAuthCmd rqDbg v) hlive).trans (opAuthCmd_check h8 h9 h10)
    by_cases hr : respBytes s = chalAnswer s.dbg.chal
    · obtain ⟨hvoid, hfails⟩ := chalRight_out (fld (s.dbg.chal.getD 6 0) 1 0) (begin rqDbg s)
      refine .of_exec_eq rfl (hop.trans (chalCheck_right (s := begin rqDbg s) hvalid hr _)) ⟨(getB_raise _ _ _ _ dbgStatus_not_evtReg).trans hvoid, fun _ => ⟨raise_dbg .., ?_, raise_logged rfl⟩⟩
      exact (congrArg (fld · 7 5) (raise_reg _ _ _ _ _ dbgStatus_not_evtReg)).trans hfails
    · exact .of_exec_eq rfl (hop.trans (chalCheck_wrong (s := begin rqDbg s) (.inr hr) _)) ⟨(chalFail_out _ (begin rqDbg s)).2.1, fun h => absurd h hr⟩
  case wrong =>
    subst hl
    have hop := (gateW_live (a := Reg.dbgAuthCmd) (op := opAuthCmd rqDbg v) hlive).trans (opAuthCmd_check h8 h9 h10)
    exact .of_exec_eq rfl (hop.trans (chalCheck_wrong (s := begin rqDbg s) hwrong _)) (chalFail_out _ (begin rqDbg s))
  case drop =>
    subst hb
    have hop := (gateW_live (a := Reg.dbgAuthCmd) (op := opAuthCmd rqDbg v) hlive).trans (opAuthCmd_drop h8 h9 h10)
    cases hatt : attached s with
    | false => exact .of_exec_eq rfl (hop.trans (dbgChange_apart (t := atFloor (begin rqDbg s)) hatt hfree)) ⟨rfl, rfl, rfl, fun h => (by cases h), fun _ => rfl⟩
    | true =>
      by_cases hfloor : Config.fuseDbgPolicy.toNat % 4 = 2
      · have hstill : attached (atFloor (begin rqDbg s)) = true := (attached_atFloor (s := begin rqDbg s) hatt).trans (decide_eq_true hfloor)
        refine .of_exec_eq rfl (hop.trans (dbgChange_stays (t := atFloor (begin rqDbg s)) hstill hfree)) ⟨rfl, rfl, rfl, fun _ => ?_, fun h => (by cases h)⟩
        rw [decide_eq_true hfloor, Bool.and_true]
        rfl
      · have hgone : attached (atFloor (begin rqDbg s)) = false := (attached_atFloor (s := begin rqDbg s) hatt).trans (decide_eq_false hfloor)
        obtain ⟨⟨hregs, hmode, -, -, hlevel, hhalt, -⟩, -⟩ := detached_freed (atFloor (begin rqDbg s))
        refine .of_exec_eq rfl (hop.trans (dbgChange_detaches (t := atFloor (begin rqDbg s)) hatt hgone hfree)) ⟨hlevel, hregs, hmode, fun _ => ?_, fun h => (by cases h)⟩
        rw [decide_eq_false hfloor, Bool.and_false]
        exact hhalt

end Sys2Proof.Machine
end

section
/-! O44: the watchdog's kicks and expiry (R432, R434 to R437). -/

namespace Sys2Proof.Machine

variable {s t : State} {who m : Req}

/-! ### The two writes of a refresh (R432) -/

/-- A write of KICK with the key of the first or of the second write, `second` where it ends the writer's own sequence. -/
def kicked (who : Req) (first second : Bool) (s : State) : State :=
  { (if second then s else seqOther Reg.wdtKick s.boot.seqKick who s) with
    boot := { (if second then s else seqOther Reg.wdtKick s.boot.seqKick who s).boot with seqKick := seqAfter s.boot.seqKick who first second } }

theorem opKick_eq {v : Word} {first second : Bool} (hf : decide (fld v 35 24 = 0x6D1) = first)
    (hs : (decide (fld v 35 24 = 0x92E) && decide (s.boot.seqKick = some who)) = second) : opKick who v s =
    if second = true ∧ (kicked who first second s).fn .wdt = fnOn then wdtRefresh (kicked who first second s) else kicked who first second s := by
  subst hf hs
  rfl

theorem opKick_first : opKick who (wd (0x6D1 <<< 24)) s = kicked who true false s :=
  (opKick_eq (by decide) (by rw [show decide (fld (wd (0x6D1 <<< 24)) 35 24 = 0x92E) = false by decide, Bool.false_and])).trans (if_neg fun h => Bool.false_ne_true h.1)

theorem opKick_second (h : s.boot.seqKick ≠ some who) : opKick who (wd (0x92E <<< 24)) s = kicked who false false s :=
  (opKick_eq (by decide) (by rw [decide_eq_false h, Bool.and_false])).trans (if_neg fun h => Bool.false_ne_true h.1)

theorem opKick_completes (h : s.boot.seqKick = some who) : opKick who (wd (0x92E <<< 24)) s =
    if (kicked who false true s).fn .wdt = fnOn then wdtRefresh (kicked who false true s) else kicked who false true s :=
  (opKick_eq (by decide) (by rw [decide_eq_true h, show decide (fld (wd (0x92E <<< 24)) 35 24 = 0x92E) = true by decide]; rfl)).trans
    (if_congr ⟨fun hc => hc.2, fun hc => ⟨rfl, hc⟩⟩ rfl rfl)

theorem seqOther_own (a : Nat) : seqOther a (some who) who s = s := if_pos rfl

theorem seqOther_other (a : Nat) (h : m ≠ who) : seqOther a (some m) who s = seqCancelled a m (if who = rqDbg then 3 else 2) s := if_neg h

/-- After the first write the writer's sequence is live. -/
theorem kicked_first (h : s.boot.seqKick = none ∨ s.boot.seqKick = some who) : kicked who true false s = { s with boot := { s.boot with seqKick := some who } } := by
  have hother : seqOther Reg.wdtKick s.boot.seqKick who s = s := by
    rcases h with h | h
    · rw [h]; rfl
    · rw [h]; exact seqOther_own _
  unfold kicked
  rw [if_neg Bool.false_ne_true, hother]
  rfl

/-- Another's sequence is cancelled with EA06 (R432). -/
theorem kicked_cancels (first : Bool) (h : s.boot.seqKick = some m) (hm : m ≠ who) :
    (kicked who first false s).boot = { s.boot with seqKick := if first then some who else none } ∧ (kicked who first false s).wdt = s.wdt ∧
    Logged 0xA06 4 ((if who = 4 then 3 else 2) <<< 32 ||| m.toNat <<< 24 ||| Reg.wdtKick) s (kicked who first false s) := by
  have hother : seqOther Reg.wdtKick s.boot.seqKick who s = seqCancelled Reg.wdtKick m (if who = rqDbg then 3 else 2) s := by
    rw [h]; exact seqOther_other _ hm
  have hafter : seqAfter s.boot.seqKick who first false = if first then some who else none := by
    unfold seqAfter
    rw [h]
    cases first with
    | true => rfl
    | false =>
      have hne : (some m == some who) = false := beq_eq_false_iff_ne.2 fun he => hm (Option.some.inj he)
      rw [hne]
      rfl
  have hboot : (seqCancelled Reg.wdtKick m (if who = rqDbg then 3 else 2) s).boot = s.boot := raise_boot ..
  have hwdt : (seqCancelled Reg.wdtKick m (if who = rqDbg then 3 else 2) s).wdt = s.wdt := raise_wdt ..
  have hlog : Logged 0xA06 4 ((if who = 4 then 3 else 2) <<< 32 ||| m.toNat <<< 24 ||| Reg.wdtKick) s (seqCancelled Reg.wdtKick m (if who = rqDbg then 3 else 2) s) := raise_logged rfl
  unfold kicked
  rw [if_neg Bool.false_ne_true, hother, hafter]
  generalize seqCancelled Reg.wdtKick m (if who = rqDbg then 3 else 2) s = u at hboot hwdt hlog
  exact ⟨by rw [hboot], hwdt, hlog.of_same rfl rfl⟩

/-- A second write without a sequence begins none. -/
theorem kicked_none (h : s.boot.seqKick = none) : kicked who false false s = { s with boot := { s.boot with seqKick := none } } := by
  unfold kicked
  rw [if_neg Bool.false_ne_true, h]
  rfl

/-- The second write ends the writer's own sequence. -/
theorem kicked_second : kicked who false true s = { s with boot := { s.boot with seqKick := none } } := by
  unfold kicked seqAfter
  rw [if_pos rfl]
  rfl

/-! ### Refresh and expiry (R434 to R437) -/

theorem wdtRefresh_loads (h : 2500 * s.getF Reg.wdtCfg 15 0 ≤ s.wdt.since ∨ s.wdt.graced = true) :
    wdtRefresh s = wdtLoad { s with wdt := { s.wdt with graced := false } } := by
  refine if_neg ?_
  rintro ⟨hearly, hgraced⟩
  rcases h with h | h
  · omega
  · rw [h] at hgraced; cases hgraced

theorem wdtRefresh_early (h : s.wdt.since < 2500 * s.getF Reg.wdtCfg 15 0) (hg : s.wdt.graced = false) : wdtRefresh s = failsafe 0xA05 12 2 s :=
  if_pos ⟨h, by rw [hg]; rfl⟩

/-- A write of KICK, by the requester's access. -/
theorem exec_kick (hlive : Live who s) : exec (.wdtKickFirst who) s = .next (opKick who (wd (0x6D1 <<< 24)) (begin who s)) ∧
    exec (.wdtKickSecond who) s = .next (opKick who (wd (0x92E <<< 24)) (begin who s)) :=
  ⟨congrArg Host.Outcome.next (gateW_live hlive), congrArg Host.Outcome.next (gateW_live hlive)⟩

theorem wdtFrozen_false (h : s.core.halted = false ∨ s.getB Reg.wdtXcfg 0 = true) : wdtFrozen s = false := by
  unfold wdtFrozen
  rcases h with h | h
  · rw [h, Bool.false_and]
  · rw [h, Bool.not_true, Bool.and_false]

/-- Settles O44: the kicks by the sequence that is live, the refresh by its window, the expiry by what freezes the count. -/
theorem watchdog : Obligations.Watchdog := by
  unfold Obligations.Watchdog
  refine ⟨fun who s hlive b hb => ⟨fun h => ?first, fun m h hm => ?firstOther, fun h => ?secondNone, fun m h hm => ?secondOther, fun h hw => ?off, fun h hw hin => ?reload,
      fun h hw hearly hg hn => ?early⟩,
    fun s => ⟨fun hw hr hn hf => ?expires, fun h => ?stays⟩⟩
  case first =>
    subst hb
    exact (exec_kick hlive).1.trans (congrArg Host.Outcome.next (opKick_first.trans (kicked_first (s := begin who s) h)))
  case firstOther => exact .of_exec_eq (exec_kick hlive).1 opKick_first (kicked_cancels (s := begin who s) true h hm)
  case secondNone =>
    subst hb
    have hne : s.boot.seqKick ≠ some who := by rw [h]; exact nofun
    exact (exec_kick hlive).2.trans (congrArg Host.Outcome.next ((opKick_second (s := begin who s) hne).trans (kicked_none (s := begin who s) h)))
  case secondOther =>
    have hne : s.boot.seqKick ≠ some who := by rw [h]; exact fun he => hm (Option.some.inj he)
    exact .of_exec_eq (exec_kick hlive).2 (opKick_second (s := begin who s) hne) (kicked_cancels (s := begin who s) false h hm)
  case off =>
    subst hb
    have hop := opKick_completes (s := begin who s) h
    rw [kicked_second] at hop
    exact (exec_kick hlive).2.trans (congrArg Host.Outcome.next (hop.trans (if_neg hw)))
  case reload =>
    subst hb
    have hop := opKick_completes (s := begin who s) h
    rw [kicked_second] at hop
    exact (exec_kick hlive).2.trans (congrArg Host.Outcome.next (hop.trans ((if_pos hw).trans
      (wdtRefresh_loads (s := { begin who s with boot := { s.boot with seqKick := none } }) hin))))
  case early =>
    subst hb
    have hop := opKick_completes (s := begin who s) h
    rw [kicked_second] at hop
    exact .of_exec_eq (exec_kick hlive).2 (hop.trans ((if_pos hw).trans (wdtRefresh_early (s := { begin who s with boot := { s.boot with seqKick := none } }) hearly hg)))
      ⟨failsafe_mode hn, rfl⟩
  case expires =>
    have hcond : s.fn .wdt = fnOn ∧ s.mode ≠ .retain ∧ (!wdtFrozen s) = true := ⟨hw, hr, by rw [wdtFrozen_false hf]; rfl⟩
    exact .of_exec_eq rfl (if_pos hcond) ⟨failsafe_mode hn, rfl⟩
  case stays =>
    refine congrArg Host.Outcome.next (if_neg ?_)
    rintro ⟨hw, hr, hf⟩
    rcases h with h | h | ⟨hh, hx⟩
    · exact h hw
    · exact hr h
    · have hfrozen : wdtFrozen s = true := by unfold wdtFrozen; rw [hh, hx]; rfl
      rw [hfrozen] at hf
      cases hf

end Sys2Proof.Machine
end

section
/-! O46: a line of the service port waits while another executes (R444, R455). -/

namespace Sys2Proof.Machine

variable {s t : State} {c : Instr} {i : SvcLine}

/-- The command is the arrival of a line that waits its turn. -/
structure IsLine (c : Instr) (i : SvcLine) : Prop where
  exec : ∀ s, exec c s = .next (svcTake i s)
  waits : i ≠ .serviceExit

theorem IsLine.of_mem {l : List (Instr × SvcLine)} (hl : ∀ e ∈ l, IsLine e.1 e.2) (h : (c, i) ∈ l) : IsLine c i := hl (c, i) h

theorem svcTake_held (h : s.boot.porHeld = true) : svcTake i s = s := if_pos h

/-- A line that must wait is counted and waits last. -/
theorem svcTake_waits (hi : i ≠ .serviceExit) (hp : s.boot.porHeld = false) (h : svcWaits i (s.count Reg.svcCntLines 35 0) = true ∨ s.svc.waiting ≠ []) :
    svcTake i s = { s.count Reg.svcCntLines 35 0 with svc := { s.svc with waiting := s.svc.waiting ++ [i] } } := by
  have hwait : ¬ ((i = .serviceExit ∧ (s.count Reg.svcCntLines 35 0).svc.test.isSome = true) ∨
      ((!svcWaits i (s.count Reg.svcCntLines 35 0)) = true ∧ (s.count Reg.svcCntLines 35 0).svc.waiting.isEmpty = true)) := by
    rintro (⟨hexit, -⟩ | ⟨hfree, hempty⟩)
    · exact hi hexit
    · rcases h with h | h
      · rw [h] at hfree; cases hfree
      · exact h (List.isEmpty_iff.1 hempty)
  exact (if_neg (by rw [hp]; exact Bool.false_ne_true)).trans (if_neg hwait)

theorem svcWaits_busy (h : svcBusy s = true) : svcWaits i s = true := by
  unfold svcWaits
  rw [h, Bool.true_or]

/-- Settles O46: the fifty commands are each the arrival of their line, which waits by what it finds. -/
theorem serviceLinesWait : Obligations.ServiceLinesWait := by
  unfold Obligations.ServiceLinesWait
  intro k n r a peek v o p h toService nsafe ws rej b k16 m k2 ss pre rep c i hmem
  have hline : IsLine c i := IsLine.of_mem ?lines hmem
  case lines =>
    repeat refine List.forall_mem_cons.2 ⟨⟨fun _ => rfl, nofun⟩, ?_⟩
    exact List.forall_mem_nil _
  intro s
  refine ⟨fun hp => (hline.exec s).trans (congrArg Host.Outcome.next (svcTake_held hp)), fun hp hw => ?_, fun ht hm => ?_⟩
  · exact .of_exec_eq (hline.exec s) (svcTake_waits hline.waits hp (hw.imp_left fun hb => svcWaits_busy hb)) rfl
  · exact (hline.exec s).trans (congrArg Host.Outcome.next (svcTake_of_taken ht hm))

end Sys2Proof.Machine
end

section
/-! O51: MARCH runs the Beater over one bank (R363, R453, R455). -/

namespace Sys2Proof.Machine

variable {s t : State} {b : Fin 16} {ss pre rep : Bool}

/-! ### The root clock (R93) -/

theorem rootStopped_absent (hm : s.mode = .service) (hc : s.getB Reg.clkRoot 1 = false) : rootStopped s = true := by
  unfold rootStopped
  rw [hm, hc]
  rfl

theorem rootStopped_present (hc : s.getB Reg.clkRoot 1 = true) : rootStopped s = false := by
  unfold rootStopped
  rw [hc, Bool.not_true, Bool.and_false]

/-- The count of lines moves its own register alone. -/
theorem getB_count_lines {a n : Nat} (h : a ≠ Reg.svcCntLines) : (s.count Reg.svcCntLines 35 0).getB a n = s.getB a n := by
  rw [getB_eq, getB_eq, reg_count_other h]

theorem getF_count_lines {a hi lo : Nat} (h : a ≠ Reg.svcCntLines) : (s.count Reg.svcCntLines 35 0).getF a hi lo = s.getF a hi lo :=
  congrArg (fld · hi lo) (reg_count_other h)

/-! ### MARCH -/

theorem opMarch_elsewhere (h : s.mode ≠ .service) : opMarch b ss pre rep s = svcReject 4 s := if_pos h

theorem opMarch_stopped (hm : s.mode = .service) (h : rootStopped s = true) : opMarch b ss pre rep s = svcReply (.er 0x102) s :=
  (if_neg fun hne => hne hm).trans (if_pos h)

theorem opMarch_asks (hm : s.mode = .service) (h : rootStopped s = false) : opMarch b ss pre rep s =
    if beaterReason s (bankBit b.val) (!pre) = 0 then beaterRun (bankBit b.val) ss (!pre) rep true (testStart 4 b.val s)
    else svcReply (.er 0x808) (raise 0x808 0 (beaterReason s (bankBit b.val) (!pre)) s) :=
  (if_neg fun hne => hne hm).trans (if_neg (by rw [h]; exact Bool.false_ne_true))

/-- The start of MARCH takes no function and no pin. -/
theorem testStart_march (n : Nat) (s : State) :
    testStart 4 n s = { s with svc := { s.svc with test := some { id := 4, arg := BitVec.ofNat 8 n }, testFailed := false } } := rfl

theorem exec_march (h : Taken s) (hb : s.fn .beater = fnOff ∨ s.mode ≠ .service) :
    exec (.march b ss pre rep) s = .next (opMarch b ss pre rep (s.count Reg.svcCntLines 35 0)) :=
  congrArg Host.Outcome.next (svcTake_of_taken (i := .march b ss pre rep) h fun _ _ _ _ _ => hb)

theorem Taken.noTest (h : Taken s) : s.svc.test = none := by
  obtain ⟨-, hbusy, -⟩ := h
  unfold svcBusy at hbusy
  rw [Bool.or_eq_false_iff] at hbusy
  exact Option.isSome_eq_false_iff.1 hbusy.1 |> Option.isNone_iff_eq_none.1

/-- Settles O51: where MARCH runs, what refuses it, and the line that waits for the Beater. -/
theorem marchTest : Obligations.MarchTest := by
  unfold Obligations.MarchTest
  refine ⟨fun b ss pre rep s ht hb u hu => ⟨fun hm => ?elsewhere, fun hm hc => ?stopped, fun hm hc hr => ?runs, fun hm hc hr => ?refused⟩,
    fun b ss pre rep s ht hb hm => ?waits⟩
  case elsewhere =>
    subst hu
    exact (exec_march ht hb).trans (congrArg Host.Outcome.next (opMarch_elsewhere (s := s.count Reg.svcCntLines 35 0) hm))
  case stopped =>
    subst hu
    have hstop := rootStopped_absent (s := s.count Reg.svcCntLines 35 0) hm ((getB_count_lines (by decide)).trans hc)
    exact (exec_march ht hb).trans (congrArg Host.Outcome.next (opMarch_stopped (s := s.count Reg.svcCntLines 35 0) hm hstop))
  case runs =>
    have hmu : u.mode = .service := by rw [hu]; exact hm
    have hroot : rootStopped u = false := rootStopped_present (by rw [hu]; exact (getB_count_lines (by decide)).trans hc)
    have hrun := exec_march (ss := ss) (pre := pre) (rep := rep) (b := b) ht hb
    rw [← hu, opMarch_asks hmu hroot, if_pos hr, testStart_march] at hrun
    obtain ⟨hfn, hen, hscr, -⟩ := beaterRun_out (bankBit b.val) ss (!pre) rep true
      { u with svc := { u.svc with test := some { id := 4, arg := BitVec.ofNat 8 b.val }, testFailed := false } }
    refine .of_exec hrun ⟨rfl, ?_, hfn, hen, hscr.trans ?_⟩
    · rw [hu]; rfl
    · rw [hu]; rfl
  case refused =>
    have hmu : u.mode = .service := by rw [hu]; exact hm
    have hroot : rootStopped u = false := rootStopped_present (by rw [hu]; exact (getB_count_lines (by decide)).trans hc)
    have hrun := exec_march (ss := ss) (pre := pre) (rep := rep) (b := b) ht hb
    rw [← hu, opMarch_asks hmu hroot, if_neg hr] at hrun
    refine .of_exec hrun ⟨rfl, ?_, (raise_logged (by rw [hu]; rfl)).of_same rfl rfl⟩
    show (raise 0x808 0 _ u).svc.test = none
    rw [raise_svc, hu]
    exact ht.noTest
  case waits =>
    obtain ⟨hp, -, hwaiting⟩ := ht
    have hfn : (s.count Reg.svcCntLines 35 0).fn .beater = s.fn .beater := getF_count_lines (by decide)
    have hw : svcWaits (.march b ss pre rep) (s.count Reg.svcCntLines 35 0) = true := by
      show (svcBusy _ || ((s.count Reg.svcCntLines 35 0).fn .beater != fnOff && s.mode == .service)) = true
      rw [hfn, hm, bne_iff_ne.2 hb]
      exact Bool.or_true _
    refine .of_exec_eq rfl (svcTake_waits (i := .march b ss pre rep) nofun hp (.inl hw)) ?_
    rw [hwaiting]
    rfl

end Sys2Proof.Machine
end

section
/-! O52: a self-test ends with its record and its reply, or is aborted (R452, R453, R455). -/

namespace Sys2Proof.Machine

variable {s t u : State} {x : TestRun}

/-! ### What a test leaves behind -/

/-- Registers and mesh ports alone moved, and no event is pending that was not. -/
structure TestLeft (s t : State) : Prop where
  rest : ∃ r m, t = { s with regs := r, mesh := m }
  pend : t.reg Reg.sysEvtPend = s.reg Reg.sysEvtPend

theorem TestLeft.refl (s : State) : TestLeft s s := ⟨⟨s.regs, s.mesh, rfl⟩, rfl⟩

theorem TestLeft.trans (h : TestLeft s t) (g : TestLeft t u) : TestLeft s u := by
  obtain ⟨⟨r, m, rfl⟩, hp⟩ := h
  obtain ⟨⟨q, n, rfl⟩, hq⟩ := g
  exact ⟨⟨q, n, rfl⟩, hq.trans hp⟩

theorem fnStat_ne_evtPend (f : Func) : Reg.sysEvtPend ≠ fnStat f := by
  by_cases h : f = .beater
  · subst h; decide
  · exact fun he => (fnStat_evt h).1 (he ▸ (by decide : Reg.sysEvtPend ∈ evtRegs))

theorem linkIdle_left (p l : Nat) (s : State) : TestLeft s (linkIdle p l s) :=
  ⟨⟨_, _, rfl⟩, reg_setReg_other (by unfold Reg.sysEvtPend Reg.mshPStatus; omega)⟩

theorem testGive_left (f : Func) (s : State) : TestLeft s (testGive f s) := by
  unfold testGive
  split
  · exact .refl s
  · exact ⟨⟨_, s.mesh, rfl⟩, (reg_setF_other (fnStat_ne_evtPend f)).trans (reg_setF_other (fnStat_ne_evtPend f))⟩

theorem testLeave_left (s : State) : TestLeft s (testLeave s) := by
  unfold testLeave
  split
  · exact .refl s
  · split
    · exact (linkIdle_left _ 0 s).trans (testGive_left ..)
    · exact testGive_left ..
    · exact .refl s

/-- The record of a test: TEST_LAST, TEST_DETAIL and the result in STATUS; no test runs, and nothing waits to be injected. -/
theorem testRecord_form (result : Nat) (code : Code) (detail : Word) (h : s.svc.test = some x) : ∃ m, testRecord result code detail s =
    { ((s.setReg Reg.svcTestLast (wd (code.toNat <<< 24 ||| x.id.toNat <<< 16 ||| x.arg.toNat <<< 8 ||| result))).setReg Reg.svcTestDetail detail).setF Reg.svcStatus 4 3 result with
      svc := { s.svc with test := none }, cal := { s.cal with inject := none }, pin := m } := by
  unfold testRecord
  rw [h]
  dsimp only
  by_cases h8 : x.id = 8
  · rw [if_pos h8, pinsFrom_rest]
    exact ⟨_, rfl⟩
  · rw [if_neg h8]
    exact ⟨s.pin, rfl⟩

/-- What the record leaves: the three registers and the frame of the rest. -/
theorem testRecord_out {result : Nat} (hr : result < 4) (code : Code) (detail : Word) (h : s.svc.test = some x) :
    (testRecord result code detail s).svc = { s.svc with test := none } ∧ (testRecord result code detail s).evt = s.evt ∧ (testRecord result code detail s).scr = s.scr ∧ (testRecord result code detail s).mode = s.mode ∧
    (testRecord result code detail s).reg Reg.svcTestLast = wd (code.toNat <<< 24 ||| x.id.toNat <<< 16 ||| x.arg.toNat <<< 8 ||| result) ∧
    (testRecord result code detail s).reg Reg.svcTestDetail = detail ∧ (testRecord result code detail s).getF Reg.svcStatus 4 3 = result ∧
    (testRecord result code detail s).reg Reg.sysEvtPend = s.reg Reg.sysEvtPend := by
  obtain ⟨m, hm⟩ := testRecord_form result code detail h
  generalize hlast : wd (code.toNat <<< 24 ||| x.id.toNat <<< 16 ||| x.arg.toNat <<< 8 ||| result) = last at hm ⊢
  have hreg : ∀ a, (testRecord result code detail s).reg a = (((s.setReg Reg.svcTestLast last).setReg Reg.svcTestDetail detail).setF Reg.svcStatus 4 3 result).reg a :=
    fun a => congrArg (fun q => q.reg a) hm
  have hsvc := congrArg (fun q => q.svc) hm
  have hevt := congrArg (fun q => q.evt) hm
  have hscr := congrArg (fun q => q.scr) hm
  have hmode := congrArg (fun q => q.mode) hm
  generalize testRecord result code detail s = w at hreg hsvc hevt hscr hmode ⊢
  refine ⟨hsvc, hevt, hscr, hmode, ?_, ?_, ?_, ?_⟩
  · exact (hreg _).trans ((reg_setF_other (by decide)).trans ((reg_setReg_other (by decide)).trans reg_setReg_same))
  · exact (hreg _).trans ((reg_setF_other (by decide)).trans reg_setReg_same)
  · exact (congrArg (fun v : Word => fld v 4 3) (hreg _)).trans ((getF_setF_same (by decide)).trans (Nat.mod_eq_of_lt hr))
  · exact (hreg _).trans ((reg_setF_other (by decide)).trans ((reg_setReg_other (by decide)).trans (reg_setReg_other (by decide))))

/-! ### Ends and aborts -/

theorem opTestEnd_none (fail : Option (Nat × Nat)) (h : s.svc.test = none) : opTestEnd fail s = s := by
  unfold opTestEnd
  rw [h]

theorem opTestEnd_march (fail : Option (Nat × Nat)) (h : s.svc.test = some x) (h4 : x.id = 4) : opTestEnd fail s = s := by
  unfold opTestEnd
  rw [h]
  exact if_pos h4

/-- How a test ends: as the command says, but TEST CAL as the injected mismatches have it. -/
def testVerdict (x : TestRun) (fail : Option (Nat × Nat)) (s : State) : Option (Nat × Nat) := if x.id = 6 then calFail s else fail.map (testFail x.id.toNat)

theorem opTestEnd_ends (fail : Option (Nat × Nat)) (h : s.svc.test = some x) (h4 : x.id ≠ 4) :
    opTestEnd fail s = testEnd (testVerdict x fail s) (testRaise x (testVerdict x fail s) s) := by
  unfold opTestEnd
  rw [h]
  exact if_neg h4

/-- A pass: record 1, PASS. -/
theorem testEnd_pass (h : s.svc.test = some x) : (testEnd none s).svc.test = none ∧ (testEnd none s).svc.reply = .ok [.text "PASS"] ∧
    (testEnd none s).svc.testFailed = s.svc.testFailed ∧ (testEnd none s).reg Reg.svcTestLast = wd (x.id.toNat <<< 16 ||| x.arg.toNat <<< 8 ||| 1) ∧
    (testEnd none s).reg Reg.svcTestDetail = 0 ∧ (testEnd none s).getF Reg.svcStatus 4 3 = 1 ∧ (testEnd none s).evt = s.evt ∧ (testEnd none s).mode = s.mode := by
  obtain ⟨⟨r, m, hu⟩, -⟩ := testLeave_left s
  have htest : (testLeave s).svc.test = some x := by rw [hu]; exact h
  obtain ⟨hsvc, hevt, -, hmode, hlast, hdetail, hresult, -⟩ := testRecord_out (result := 1) (by decide) 0 0 htest
  have hfailed : (testLeave s).svc.testFailed = s.svc.testFailed := by rw [hu]
  have hevt' : (testLeave s).evt = s.evt := by rw [hu]
  have hmode' : (testLeave s).mode = s.mode := by rw [hu]
  have hop : testEnd none s = svcReply (.ok [.text "PASS"]) (testRecord 1 0 0 (testLeave s)) := rfl
  rw [hop]
  generalize testRecord 1 0 0 (testLeave s) = w at hsvc hevt hmode hlast hdetail hresult
  refine ⟨congrArg (fun v => v.test) hsvc, rfl, (congrArg (fun v => v.testFailed) hsvc).trans hfailed, hlast.trans ?_, hdetail, hresult, hevt.trans hevt', hmode.trans hmode'⟩
  rw [show (0 : Code).toNat <<< 24 = 0 by decide, Nat.zero_or]

/-- A failure: record 2 with its code and detail, FAIL, the HEALTH failure. -/
theorem testEnd_fail (c : Code) (d : Word) (h : s.svc.test = some x) : (testEnd (some (c.toNat, d.toNat)) s).svc.test = none ∧
    (testEnd (some (c.toNat, d.toNat)) s).svc.reply = .ok [.text "FAIL", .code c, .hex 9 d.toNat] ∧ (testEnd (some (c.toNat, d.toNat)) s).svc.testFailed = true ∧
    (testEnd (some (c.toNat, d.toNat)) s).reg Reg.svcTestLast = wd (c.toNat <<< 24 ||| x.id.toNat <<< 16 ||| x.arg.toNat <<< 8 ||| 2) ∧
    (testEnd (some (c.toNat, d.toNat)) s).reg Reg.svcTestDetail = d ∧ (testEnd (some (c.toNat, d.toNat)) s).getF Reg.svcStatus 4 3 = 2 ∧
    (testEnd (some (c.toNat, d.toNat)) s).evt = s.evt ∧ (testEnd (some (c.toNat, d.toNat)) s).mode = s.mode ∧ (testEnd (some (c.toNat, d.toNat)) s).reg Reg.sysEvtPend = s.reg Reg.sysEvtPend := by
  obtain ⟨⟨r, m, hu⟩, hpend⟩ := testLeave_left s
  have htest : (testLeave s).svc.test = some x := by rw [hu]; exact h
  obtain ⟨hsvc, hevt, -, hmode, hlast, hdetail, hresult, hpend'⟩ := testRecord_out (result := 2) (by decide) c d htest
  have hevt' : (testLeave s).evt = s.evt := by rw [hu]
  have hmode' : (testLeave s).mode = s.mode := by rw [hu]
  have hc : BitVec.ofNat 12 c.toNat = c := by rw [BitVec.ofNat_toNat, BitVec.setWidth_eq]
  have hd : wd d.toNat = d := (BitVec.ofNat_toNat 36 d).trans (BitVec.setWidth_eq d)
  have hop : testEnd (some (c.toNat, d.toNat)) s = svcReply (.ok [.text "FAIL", .code c, .hex 9 d.toNat])
      { testRecord 2 c d (testLeave s) with svc := { (testRecord 2 c d (testLeave s)).svc with testFailed := true } } := by
    unfold testEnd
    dsimp only
    rw [hc, hd]
    rfl
  rw [hop]
  generalize testRecord 2 c d (testLeave s) = w at hsvc hevt hmode hlast hdetail hresult hpend'
  exact ⟨congrArg (fun v => v.test) hsvc, rfl, rfl, hlast, hdetail, hresult, hevt.trans hevt', hmode.trans hmode', hpend'.trans hpend⟩

/-- What the command's failure field becomes before the test's own rule is applied. -/
def failNats (fail : Option (Code × Word)) : Option (Nat × Nat) := fail.map (fun e => (e.1.toNat, e.2.toNat))

theorem testVerdict_pass {fail : Option (Code × Word)} (h : fail = none ∧ x.id ≠ 6 ∨ s.cal.inject = none ∧ x.id = 6) : testVerdict x (failNats fail) s = none := by
  unfold testVerdict
  rcases h with ⟨rfl, h6⟩ | ⟨hi, h6⟩
  · exact if_neg h6
  · rw [if_pos h6, calFail, hi]
    rfl

theorem testVerdict_fail {fail : Option (Code × Word)} {c e : Code} {d : Word}
    (h : (x.id ≠ 6 ∧ fail = some (e, d) ∧ c = (if (testCodes x.id.toNat).contains e.toNat then e else 0)) ∨ (x.id = 6 ∧ c = 0 ∧ ∃ b, s.cal.inject = some b ∧ d = if b then 2 else 1)) :
    testVerdict x (failNats fail) s = some (c.toNat, d.toNat) := by
  unfold testVerdict
  rcases h with ⟨h6, rfl, rfl⟩ | ⟨h6, rfl, b, hb, rfl⟩
  · rw [if_neg h6]
    show some (testFail x.id.toNat (e.toNat, d.toNat)) = _
    unfold testFail
    by_cases hk : (testCodes x.id.toNat).contains e.toNat = true
    · rw [if_pos hk, if_pos hk]
    · rw [if_neg hk, if_neg hk]
      rfl
  · rw [if_pos h6, calFail, hb]
    cases b <;> rfl

theorem testRaise_reported {c : Code} (d : Word) (hc : c ≠ 0) (hid : x.id = 1 ∨ x.id = 5) : testRaise x (some (c.toNat, d.toNat)) s = raise c 0 d.toNat s := by
  have hn : c.toNat ≠ 0 := fun h => hc (BitVec.eq_of_toNat_eq h)
  refine (if_pos ⟨hn, hid⟩).trans ?_
  rw [BitVec.ofNat_toNat, BitVec.setWidth_eq]

theorem testRaise_silent {c : Code} (d : Word) (h : c = 0 ∨ x.id ≠ 1 ∧ x.id ≠ 5) : testRaise x (some (c.toNat, d.toNat)) s = s := by
  refine if_neg fun hn => ?_
  rcases h with rfl | ⟨h1, h5⟩
  · exact hn.1 rfl
  · exact hn.2.elim h1 h5

/-- The failure is raised before the test ends, or nothing is. -/
theorem testRaise_kept (fail : Option (Nat × Nat)) (s : State) : (testRaise x fail s).svc = s.svc ∧ (testRaise x fail s).mode = s.mode := by
  unfold testRaise
  split
  · split
    · exact ⟨raise_svc .., raise_mode ..⟩
    · exact ⟨rfl, rfl⟩
  · exact ⟨rfl, rfl⟩

/-- What stands between the end of the test's own work and its record at an abort: a march's run is aborted. -/
theorem testAborted_kept (s : State) : (if x.id = 4 then beaterAbort rqSvc 2 s else s).svc = s.svc ∧ (if x.id = 4 then beaterAbort rqSvc 2 s else s).mode = s.mode ∧
    (x.id = 4 → (if x.id = 4 then beaterAbort rqSvc 2 s else s).scr.beater.running = false) := by
  by_cases h4 : x.id = 4
  · rw [if_pos h4]
    cases hr : s.scr.beater.running
    case false => exact ⟨by rw [beaterAbort_idle hr], beaterAbort_mode .., fun _ => by rw [beaterAbort_idle hr]; exact hr⟩
    case true =>
      refine ⟨?_, beaterAbort_mode .., fun _ => ?_⟩
      · rw [beaterAbort_running hr, raise_svc]
        show (if s.scr.beater.destruct then scrForget s.scr.beater.active s else s).svc = _
        split <;> rfl
      · rw [beaterAbort_running hr, raise_scr_beater_running]
        rfl
  · rw [if_neg h4]
    exact ⟨rfl, rfl, fun h => absurd h h4⟩

theorem opTestAbort_of (h : s.svc.test = some x) : opTestAbort s = testAbandon (if x.id = 4 then beaterAbort rqSvc 2 (testLeave s) else testLeave s) := by
  unfold opTestAbort
  rw [h]

theorem testAbandon_of (h : s.svc.test = some x) : testAbandon s = svcReply (.ok [.text "ABORTED"]) (testRecord 3 0 0 s) := by
  unfold testAbandon
  rw [h]

/-- An abort: record 3, ABORTED, and no march goes on. -/
theorem opTestAbort_out (h : s.svc.test = some x) : (opTestAbort s).svc.test = none ∧ (opTestAbort s).svc.reply = .ok [.text "ABORTED"] ∧
    (opTestAbort s).reg Reg.svcTestLast = wd (x.id.toNat <<< 16 ||| x.arg.toNat <<< 8 ||| 3) ∧ (opTestAbort s).getF Reg.svcStatus 4 3 = 3 ∧ (opTestAbort s).mode = s.mode ∧
    (x.id = 4 → (opTestAbort s).scr.beater.running = false) := by
  obtain ⟨⟨r, m, hu⟩, -⟩ := testLeave_left s
  obtain ⟨hksvc, hkmode, hkrun⟩ := testAborted_kept (x := x) (testLeave s)
  have hsvc' : (testLeave s).svc = s.svc := by rw [hu]
  have hmode' : (testLeave s).mode = s.mode := by rw [hu]
  rw [opTestAbort_of h]
  generalize (if x.id = 4 then beaterAbort rqSvc 2 (testLeave s) else testLeave s) = w at hksvc hkmode hkrun
  have htest : w.svc.test = some x := (congrArg (fun v => v.test) (hksvc.trans hsvc')).trans h
  obtain ⟨hsvc, -, hscr, hmode, hlast, -, hresult, -⟩ := testRecord_out (result := 3) (by decide) 0 0 htest
  rw [testAbandon_of htest]
  generalize testRecord 3 0 0 w = v at hsvc hscr hmode hlast hresult
  refine ⟨congrArg (fun v => v.test) hsvc, rfl, hlast.trans ?_, hresult, hmode.trans (hkmode.trans hmode'), fun h4 => (congrArg (fun q => q.beater.running) hscr).trans (hkrun h4)⟩
  rw [show (0 : Code).toNat <<< 24 = 0 by decide, Nat.zero_or]

/-- Settles O52: a test ends by its verdict, which is the command's or the injected mismatches', and by nothing for a march; an abort ends every test. -/
theorem selfTestEnds : Obligations.SelfTestEnds := by
  unfold Obligations.SelfTestEnds
  refine fun s fail => ⟨fun hn => ?idle, fun x hx => ⟨fun h4 => ?march, fun h4 hp => ?pass, fun c d e h4 hf => ?fail, ?abort⟩⟩
  case idle =>
    refine ⟨congrArg Host.Outcome.next (opTestEnd_none _ hn), congrArg Host.Outcome.next ?_⟩
    unfold opTestAbort
    rw [hn]
  case march => exact congrArg Host.Outcome.next (opTestEnd_march _ hx h4)
  case pass =>
    have hop : opTestEnd (failNats fail) s = testEnd none s := by
      rw [opTestEnd_ends _ hx h4, testVerdict_pass hp]
      rfl
    obtain ⟨htest, hreply, hfailed, hlast, hdetail, hresult, hevt, hmode⟩ := testEnd_pass hx
    exact .of_exec_eq rfl hop ⟨htest, hreply, hfailed, hlast, hdetail, hresult, hevt, hmode⟩
  case fail =>
    have hop : opTestEnd (failNats fail) s = testEnd (some (c.toNat, d.toNat)) (testRaise x (some (c.toNat, d.toNat)) s) := by
      rw [opTestEnd_ends _ hx h4, testVerdict_fail hf]
    obtain ⟨hsvc, hmode'⟩ := testRaise_kept (x := x) (some (c.toNat, d.toNat)) s
    obtain ⟨htest, hreply, hfailed, hlast, hdetail, hresult, hevt, hmode, hpend⟩ := testEnd_fail c d ((congrArg (fun v => v.test) hsvc).trans hx)
    refine .of_exec_eq rfl hop ⟨htest, hreply, hfailed, hlast, hdetail, hresult, hmode.trans hmode', fun hc hid => ?_, fun hq => hevt.trans (by rw [testRaise_silent d hq])⟩
    rw [testRaise_reported d hc hid] at hevt hpend ⊢
    exact (raise_logged rfl).of_same hevt hpend
  case abort =>
    obtain ⟨htest, hreply, hlast, hresult, hmode, hrun⟩ := opTestAbort_out hx
    exact .of_exec rfl ⟨htest, hreply, hlast, hresult, hmode, fun h4 _ => hrun h4⟩

end Sys2Proof.Machine
end

section
/-! O47: the status lines of the service port (R93, R444 to R446, R448). -/

namespace Sys2Proof.Machine

variable {s t u : State} {c : Instr} {i : SvcLine} {off n : Nat} {w : Word}

/-- A line's command, the line handled at once. -/
theorem exec_line (hc : ∀ v, exec c v = .next (svcTake i v)) (hi : ∀ b ss pre rep, i ≠ .march b ss pre rep) (h : Taken s) (hu : u = s.count Reg.svcCntLines 35 0) :
    exec c s = .next (svcLine i u) :=
  (hc s).trans (congrArg Host.Outcome.next (hu ▸ svcTake_of_taken h fun b ss pre rep he => absurd he (hi b ss pre rep)))

/-! ### Lines that read registers -/

/-- The line reads registers with peek, and replies with what it makes of them. -/
structure IsReport (c : Instr) (as : List Nat) (f : List Word → List SvcVal) : Prop where
  line : ∀ {s u : State}, Taken s → u = s.count Reg.svcCntLines 35 0 → exec c s = .next (svcShow as f u)
  clocked : c ≠ .svcPwr → as.any rootClocked = true

theorem IsReport.of_mem {l : List (Instr × List Nat × (List Word → List SvcVal))} {as : List Nat} {f : List Word → List SvcVal}
    (hl : ∀ e ∈ l, IsReport e.1 e.2.1 e.2.2) (h : (c, as, f) ∈ l) : IsReport c as f := hl (c, as, f) h

theorem svcShow_clocked {as : List Nat} {f : List Word → List SvcVal} (hs : rootStopped s = true) (ha : as.any rootClocked = true) :
    svcShow as f s = svcReply (.er 0x102) s := if_pos ⟨hs, ha⟩

theorem svcShow_answers {as : List Nat} {f : List Word → List SvcVal} (h : rootStopped s = false ∨ as.any rootClocked = false) :
    svcShow as f s = svcReply (.ok (f (svcReads as s).1)) (svcReads as s).2 := by
  refine if_neg fun hno => ?_
  rcases h with h | h
  · rw [h] at hno; cases hno.1
  · rw [h] at hno; cases hno.2

theorem rgnStatus_rootClocked : ∀ k : Fin 64, rootClocked (Reg.rgnStatus k.val) = true := by decide

theorem railV_rootClocked : ((List.range 22).map Reg.pwrRailV).any rootClocked = false := by decide

/-! ### Event records -/

theorem getB_lines_evtCtrl (hu : u = s.count Reg.svcCntLines 35 0) : u.getB Reg.sysEvtCtrl 0 = s.getB Reg.sysEvtCtrl 0 := by
  rw [hu]
  exact getB_count_lines (by decide)

theorem opEvtK_buffered {k : Nat} {q : Quad} (h1 : 1 ≤ k) (hk : k ≤ s.evt.buf.length) (hq : s.evt.buf[s.evt.buf.length - k]? = some q) :
    opEvtK k s = svcReply (.ok [.hex 9 q.w0.toNat, .hex 9 q.w1.toNat, .hex 9 q.w2.toNat, .hex 9 q.w3.toNat]) s := by
  unfold opEvtK
  dsimp only
  rw [if_pos ⟨h1, hk⟩, hq]
  rfl

theorem opEvtK_free {k : Nat} (hk : s.evt.buf.length < k) (hr : s.getB Reg.sysEvtCtrl 0 = false) :
    opEvtK k s = svcReply (.ok ((freeWords 4 s).1.map hex9)) { s with free := s.free + 4 } := by
  unfold opEvtK
  dsimp only
  rw [if_neg (by omega), if_neg (by rw [hr]; exact Bool.false_ne_true)]
  rfl

theorem opEvtK_ring {k : Nat} (hk : s.evt.buf.length < k) (hr : s.getB Reg.sysEvtCtrl 0 = true) :
    opEvtK k s = svcScrReads ((s.reg Reg.sysEvtBase).toNat + 4 * ((s.getF Reg.sysEvtWr 9 0 + 1024 + s.evt.buf.length - k) % 1024)) 4 [] s := by
  unfold opEvtK
  dsimp only
  rw [if_neg (by omega), if_pos hr]

/-! ### Scratchpad words that the port reads -/

/-- The answer of a scratchpad read by the port. -/
def svcAnswered (w : Word) (s : State) : State := { s with resp := { who := rqSvc, data := w, err := false } }

theorem opScratch_svc (hlive : Live rqSvc s) (h : WordAt s rqSvc off false w) : opScratch rqSvc off none s = svcAnswered w s :=
  (opScratch_read hlive).trans (scrRead_good (s := begin rqSvc s) h)

/-- A good word joins the reply. -/
theorem svcScrReads_good {got : List Word} (hlive : Live rqSvc s) (h : WordAt s rqSvc off false w) :
    svcScrReads off (n + 1) got s = svcScrReads (off + 1) n (got ++ [w]) (svcAnswered w s) := by
  show (if (opScratch rqSvc off none s).resp.err then _ else _) = _
  rw [opScratch_svc hlive h]
  rfl

/-- The count of lines leaves the port served. -/
theorem live_count_lines (h : Live rqSvc s) : Live rqSvc (s.count Reg.svcCntLines 35 0) := h

theorem svcScrReads_four {w0 w1 w2 w3 : Word} (hlive : Live rqSvc s) (h0 : WordAt s rqSvc off false w0) (h1 : WordAt s rqSvc (off + 1) false w1)
    (h2 : WordAt s rqSvc (off + 2) false w2) (h3 : WordAt s rqSvc (off + 3) false w3) : svcScrReads off 4 [] s =
      svcReply (.ok [.hex 9 w0.toNat, .hex 9 w1.toNat, .hex 9 w2.toNat, .hex 9 w3.toNat]) (svcAnswered w3 s) := by
  rw [svcScrReads_good hlive h0, svcScrReads_good (s := svcAnswered w0 s) hlive h1, svcScrReads_good (s := svcAnswered w1 (svcAnswered w0 s)) hlive h2,
    svcScrReads_good (s := svcAnswered w2 (svcAnswered w1 (svcAnswered w0 s))) hlive h3]
  rfl

/-! ### Quotients -/

theorem whole_eq (m d : Int) (s : State) : ∃ e : Int, (e = 0 ∨ e = 1) ∧ whole m d s = (m / d + e, s.draw) := by
  refine ⟨_, ?_, rfl⟩
  split
  · exact .inr rfl
  · exact .inl rfl

theorem wholes_eq (d : Int) (ms : List Int) : ∀ s, ∃ es : List Int, es.length = ms.length ∧ (∀ e ∈ es, e = 0 ∨ e = 1) ∧
    wholes d ms s = ((ms.zip es).map fun p => SvcVal.dec (p.1 / d + p.2), { s with free := s.free + ms.length }) := by
  induction ms with
  | nil => exact fun s => ⟨[], rfl, nofun, rfl⟩
  | cons m ms ih =>
    intro s
    obtain ⟨e, he, hw⟩ := whole_eq m d s
    obtain ⟨es, hlen, hes, hws⟩ := ih s.draw
    refine ⟨e :: es, congrArg Nat.succ hlen, List.forall_mem_cons.2 ⟨he, hes⟩, ?_⟩
    unfold wholes
    dsimp only
    rw [hw]
    dsimp only
    rw [hws, List.length_cons, Nat.add_comm ms.length 1, ← Nat.add_assoc]
    rfl

theorem svcReads_length (as : List Nat) : ∀ s, (svcReads as s).1.length = as.length := by
  induction as with
  | nil => exact fun s => rfl
  | cons a as ih => exact fun s => congrArg Nat.succ (ih _)

theorem opMeshTime_stopped (h : rootStopped s = true) : opMeshTime s = svcReply (.er 0x102) s := if_pos h

theorem opMeshTime_answers (h : rootStopped s = false) : ∃ e : Int, (e = 0 ∨ e = 1) ∧ opMeshTime s =
    svcReply (.ok [.dec (fld (svcRead Reg.mshTimeStatus s).1 35 35), .dec (sgn (fld (svcRead Reg.mshTimeStatus s).1 18 0) 19 / 4 + e), .num 3 (fld (svcRead Reg.mshTimeStatus s).1 28 19)])
      (svcRead Reg.mshTimeStatus s).2.draw := by
  obtain ⟨e, he, hw⟩ := whole_eq (sgn (fld (svcRead Reg.mshTimeStatus s).1 18 0) 19) 4 (svcRead Reg.mshTimeStatus s).2
  refine ⟨e, he, ?_⟩
  unfold opMeshTime
  dsimp only
  rw [if_neg (by rw [h]; exact Bool.false_ne_true), hw]
  rfl

theorem opSvcWdt_answers (s : State) : ∃ e : Int, (e = 0 ∨ e = 1) ∧ opSvcWdt s =
    svcReply (.ok [.dec (fld ((svcReads [Reg.wdtStatus, Reg.wdtRemain] s).1.getD 0 0) 2 0), .dec ((fld ((svcReads [Reg.wdtStatus, Reg.wdtRemain] s).1.getD 1 0) 27 0 : Nat) / (25 : Int) + e)])
      (svcReads [Reg.wdtStatus, Reg.wdtRemain] s).2.draw := by
  unfold opSvcWdt
  generalize svcReads [Reg.wdtStatus, Reg.wdtRemain] s = r
  obtain ⟨e, he, hw⟩ := whole_eq (fld (wordAt r.1 1) 27 0 : Nat) 25 r.2
  refine ⟨e, he, ?_⟩
  dsimp only
  rw [hw]
  rfl

theorem opTemp_answers (s : State) : ∃ es : List Int, es.length = 8 ∧ (∀ e ∈ es, e = 0 ∨ e = 1) ∧ opTemp s =
    svcReply (.ok ((((svcReads ((List.range 8).map Reg.pwrTemp) s).1.map fun w => sgn (fld w 11 0) 12).zip es).map fun p => SvcVal.dec (p.1 / 4 + p.2)))
      { (svcReads ((List.range 8).map Reg.pwrTemp) s).2 with free := (svcReads ((List.range 8).map Reg.pwrTemp) s).2.free + 8 } := by
  have hlen := svcReads_length ((List.range 8).map Reg.pwrTemp) s
  unfold opTemp
  generalize svcReads ((List.range 8).map Reg.pwrTemp) s = r at hlen
  obtain ⟨es, hes, h01, hw⟩ := wholes_eq 4 (r.1.map fun w => sgn (fld w 11 0) 12) r.2
  rw [List.length_map, hlen, List.length_map, List.length_range] at hes hw
  refine ⟨es, hes, h01, ?_⟩
  dsimp only
  rw [hw]
  rfl

/-- Settles O47: each status line is one read of what it names, and its reply is that read's. -/
theorem serviceReports : Obligations.ServiceReports := by
  unfold Obligations.ServiceReports
  refine ⟨fun s ht u hu => ⟨?id, ?mode, ?health, ?fs, ?last, ?i3c, ?boot, fun q hq => ?newest, fun hq => ?noEvent, fun k q h1 hk hq => ?buffered, fun k hk hr => ?absent,
      fun k w0 w1 w2 w3 hk _ hr hlive off ho h0 h1 h2 h3 => ?ring⟩,
    fun s ht u hu n c as f hmem => ?reports,
    fun s ht u hu => ⟨fun hs => ?timeStopped, fun hs r hr => ?time, fun r hr => ?wdt, fun r hr => ?temp⟩⟩
  case id => exact exec_line (i := .id) (fun _ => rfl) nofun ht hu
  case mode => rw [exec_line (i := .mode) (fun _ => rfl) nofun ht hu, hu]; rfl
  case health => exact exec_line (i := .health) (fun _ => rfl) nofun ht hu
  case fs =>
    have hF : ∀ hi lo, u.getF Reg.sysFsCause hi lo = s.getF Reg.sysFsCause hi lo := fun hi lo => by rw [hu]; exact getF_count_lines (by decide)
    rw [exec_line (i := .fs) (fun _ => rfl) nofun ht hu, ← hF, ← hF]
    rfl
  case last =>
    rw [hu]
    exact exec_svcErrLast_of_taken ht
  case i3c => exact exec_line (i := .i3c) (fun _ => rfl) nofun ht hu
  case boot =>
    rw [hu]
    exact exec_svcBoot_of_taken ht
  case newest =>
    rw [exec_line (i := .evtLast) (fun _ => rfl) nofun ht hu]
    have hq' : u.evt.newest = some q := by rw [hu]; exact hq
    show Host.Outcome.next (opEvtLast u) = _
    unfold opEvtLast
    rw [hq']
    rfl
  case noEvent =>
    have hq' : u.evt.newest = none := by rw [hu]; exact hq
    have hop : svcLine .evtLast u = svcReply (.ok [.hex 9 (Config.freeWord u.free).toNat]) { u with free := u.free + 1 } := by
      show opEvtLast u = _
      unfold opEvtLast
      rw [hq']
      rfl
    have hfree : u.free = s.free := by rw [hu]; rfl
    exact .of_exec_eq (exec_line (i := .evtLast) (fun _ => rfl) nofun ht hu) hop ⟨by rw [hfree]; rfl, _, rfl⟩
  case buffered =>
    have hbuf : u.evt.buf = s.evt.buf := by rw [hu]; rfl
    rw [← hbuf] at hk hq
    exact (exec_line (i := .evtK k) (fun _ => rfl) nofun ht hu).trans (congrArg Host.Outcome.next (opEvtK_buffered h1 hk hq))
  case absent =>
    have hbuf : u.evt.buf = s.evt.buf := by rw [hu]; rfl
    have hfree : u.free = s.free := by rw [hu]; rfl
    rw [← hbuf] at hk
    refine .of_exec_eq (exec_line (i := .evtK k) (fun _ => rfl) nofun ht hu) (opEvtK_free hk ((getB_lines_evtCtrl hu).trans hr))
      ⟨by rw [hfree]; rfl, (freeWords 4 u).1.map BitVec.toNat, rfl, rfl⟩
  case ring =>
    have hbuf : u.evt.buf = s.evt.buf := by rw [hu]; rfl
    have hbase : u.reg Reg.sysEvtBase = s.reg Reg.sysEvtBase := by rw [hu]; exact reg_count_other (by decide)
    have hwr : u.getF Reg.sysEvtWr 9 0 = s.getF Reg.sysEvtWr 9 0 := by rw [hu]; exact getF_count_lines (by decide)
    have hlive' : Live rqSvc u := by rw [hu]; exact live_count_lines hlive
    rw [← hbuf] at hk
    have hop := opEvtK_ring hk ((getB_lines_evtCtrl hu).trans hr)
    rw [hbase, hwr, hbuf, ← ho, svcScrReads_four hlive' h0 h1 h2 h3] at hop
    exact .of_exec_eq (exec_line (i := .evtK k) (fun _ => rfl) nofun ht hu) hop rfl
  case reports =>
    have hrep : IsReport c as f := IsReport.of_mem ?_ hmem
    · refine ⟨fun hs => (hrep.line ht hu).trans (congrArg Host.Outcome.next (svcShow_answers (.inl hs))),
        fun hs hc => (hrep.line ht hu).trans (congrArg Host.Outcome.next (svcShow_clocked hs (hrep.clocked hc))), fun _ => ?_⟩
      exact (exec_line (i := .pwr) (fun _ => rfl) nofun ht hu).trans (congrArg Host.Outcome.next (svcShow_answers (.inr railV_rootClocked)))
    · refine List.forall_mem_cons.2 ⟨⟨exec_line (i := .pwr) (fun _ => rfl) nofun, fun h => absurd rfl h⟩, ?_⟩
      refine List.forall_mem_cons.2 ⟨⟨exec_line (i := .calStat) (fun _ => rfl) nofun, fun _ => by decide⟩, ?_⟩
      refine List.forall_mem_cons.2 ⟨⟨exec_line (i := .rgn n) (fun _ => rfl) nofun, fun _ => List.any_eq_true.2 ⟨_, List.mem_cons_self, rgnStatus_rootClocked n⟩⟩, ?_⟩
      refine List.forall_mem_cons.2 ⟨⟨exec_line (i := .rgnAll) (fun _ => rfl) nofun, fun _ => by decide⟩, ?_⟩
      refine List.forall_mem_cons.2 ⟨⟨exec_line (i := .img) (fun _ => rfl) nofun, fun _ => by decide⟩, ?_⟩
      refine List.forall_mem_cons.2 ⟨⟨exec_line (i := .swap) (fun _ => rfl) nofun, fun _ => by decide⟩, ?_⟩
      refine List.forall_mem_cons.2 ⟨⟨exec_line (i := .rhx) (fun _ => rfl) nofun, fun _ => by decide⟩, ?_⟩
      exact List.forall_mem_singleton.2 ⟨exec_line (i := .mesh) (fun _ => rfl) nofun, fun _ => by decide⟩
  case timeStopped => exact (exec_line (i := .meshTime) (fun _ => rfl) nofun ht hu).trans (congrArg Host.Outcome.next (opMeshTime_stopped hs))
  case time =>
    obtain ⟨e, he, hop⟩ := opMeshTime_answers hs
    rw [← hr] at hop
    exact ⟨e, he, .of_exec_eq (exec_line (i := .meshTime) (fun _ => rfl) nofun ht hu) hop rfl⟩
  case wdt =>
    obtain ⟨e, he, hop⟩ := opSvcWdt_answers u
    rw [← hr] at hop
    exact ⟨e, he, .of_exec_eq (exec_line (i := .wdt) (fun _ => rfl) nofun ht hu) hop rfl⟩
  case temp =>
    obtain ⟨es, hlen, h01, hop⟩ := opTemp_answers u
    rw [← hr] at hop
    exact .of_exec_eq (exec_line (i := .temp) (fun _ => rfl) nofun ht hu) hop ⟨es, hlen, h01, rfl⟩

end Sys2Proof.Machine
end

section
/-! O48: register, scratchpad and pin lines of the service port (R93, R414, R444, R445, R447, R450, R451). -/

namespace Sys2Proof.Machine

variable {s t u : State} {c : Instr} {i j f off a k : Nat} {v w : Word} {d : BitVec 2}

/-! ### Registers -/

theorem svcBusErr_eq (b t : State) : ∃ k, k < 16 ∧ svcBusErr b t = if t.evt.seq = b.evt.seq then svcReject k t.draw else svcReply (.er t.evt.raised) t := by
  refine ⟨_, Nat.mod_lt (Config.freeWord t.free).toNat (by decide), ?_⟩
  unfold svcBusErr
  by_cases h : t.evt.seq = b.evt.seq
  · rw [if_neg (not_not.2 h), if_pos h]
  · rw [if_pos h, if_neg h]

theorem opSvcRd_clocked {peek : Bool} (hs : rootStopped s = true) (ha : rootClocked a = true) : opSvcRd a peek s = svcReply (.er 0x102) s := if_pos ⟨hs, ha⟩

/-- The access is not in the way of the absent root clock. -/
theorem not_clocked (h : rootStopped s = false ∨ rootClocked a = false) : ¬ (rootStopped s = true ∧ rootClocked a = true) := by
  rintro ⟨hs, ha⟩
  rcases h with h | h
  · rw [h] at hs; cases hs
  · rw [h] at ha; cases ha

theorem opSvcRd_reads {peek : Bool} (h : rootStopped s = false ∨ rootClocked a = false) (ht : t = regRead rqSvc peek a s) :
    opSvcRd a peek s = if t.resp.err then svcBusErr s t else svcReply (.ok [.hex 9 t.resp.data.toNat]) t := by
  subst ht
  exact if_neg (not_clocked h)

/-- The write gate is shut (R447). -/
theorem opSvcWr_shut (h : svcMayWrite s = false) : opSvcWr a v s = svcReject 5 s := if_pos (by rw [h]; rfl)

theorem gate_open {α : Type} {x y : α} (h : svcMayWrite s = true) : (if !svcMayWrite s then x else y) = y := if_neg (by rw [h]; exact Bool.false_ne_true)

theorem opSvcWr_clocked (h : svcMayWrite s = true) (hs : rootStopped s = true) (ha : rootClocked a = true) : opSvcWr a v s = svcReply (.er 0x102) s :=
  (gate_open h).trans (if_pos ⟨hs, ha⟩)

theorem opSvcWr_writes (h : svcMayWrite s = true) (hc : rootStopped s = false ∨ rootClocked a = false) (ht : t = regWrite rqSvc a v s) :
    opSvcWr a v s = if t.resp.err then svcBusErr s t else if t.reg Reg.svcCntLines = 0 then t else svcReply (.ok []) t := by
  subst ht
  exact (gate_open h).trans (if_neg (not_clocked hc))

theorem svcMayWrite_count_lines : svcMayWrite (s.count Reg.svcCntLines 35 0) = (s.mode == .service && s.getB Reg.sysMode 8 || s.getB Reg.svcStatus 0) := by
  show (s.mode == .service && (s.count Reg.svcCntLines 35 0).getB Reg.sysMode 8 || (s.count Reg.svcCntLines 35 0).getB Reg.svcStatus 0) = _
  rw [getB_count_lines (by decide), getB_count_lines (by decide)]

/-! ### Scratchpad words -/

theorem opSpRd_stopped (h : s.getB Reg.clkRoot 1 = false) : opSpRd off s = svcReply (.er 0x102) s := if_pos (by rw [h]; rfl)

theorem opSpRd_good (h : s.getB Reg.clkRoot 1 = true) (hlive : Live rqSvc s) (hw : WordAt s rqSvc off false w) :
    opSpRd off s = svcReply (.ok [.hex 9 w.toNat]) (svcAnswered w s) :=
  (if_neg (by rw [h]; exact Bool.false_ne_true)).trans (svcScrReads_good (n := 0) (got := []) hlive hw)

theorem opSpWr_shut (h : svcMayWrite s = false) : opSpWr off v s = svcReject 5 s := if_pos (by rw [h]; rfl)

theorem opSpWr_stopped (h : svcMayWrite s = true) (hc : s.getB Reg.clkRoot 1 = false) : opSpWr off v s = svcReply (.er 0x102) s :=
  (gate_open h).trans (if_pos (by rw [hc]; rfl))

theorem opSpWr_served (h : svcMayWrite s = true) (hc : s.getB Reg.clkRoot 1 = true) (hlive : Live rqSvc s) (hb : bankServes s rqSvc off true = 0)
    (hr : s.scr.beater.running = false) : opSpWr off v s = svcReply (.ok []) (scrSet off { data := v } (begin rqSvc s)) := by
  have hop : opScratch rqSvc off (some v) s = scrSet off { data := v } (begin rqSvc s) :=
    (opScratch_write hlive).trans (scrWrite_served (s := begin rqSvc s) hb hr)
  refine (gate_open h).trans ((if_neg (by rw [hc]; exact Bool.false_ne_true)).trans ?_)
  rw [hop]
  rfl

/-! ### Pins in TEST (R450, R451) -/

/-- What the service port drives on the pin, and the FUNC to go back to, are unchanged. -/
structure TestSame (p q : Pin) : Prop where
  before : q.before = p.before
  drive : q.testDrive = p.testDrive

theorem TestSame.refl (p : Pin) : TestSame p p := ⟨rfl, rfl⟩

theorem pinAt_test (i j : Nat) (s t : State) : TestSame (t.pn j) ((pinAt i s t).pn j) := by
  rw [pn_pinAt]
  split
  · exact ⟨rfl, rfl⟩
  · exact .refl _

theorem setPn_test {p : Pin} (h : TestSame (s.pn i) p) (j : Nat) : TestSame (s.pn j) ((s.setPn i p).pn j) := by
  rw [pn_setPn]
  split
  next hj => exact hj ▸ h
  next => exact .refl _

theorem swStart_test (i f j : Nat) (s : State) : TestSame (s.pn j) ((swStart i f s).pn j) := by
  obtain ⟨hb, hd⟩ := setPn_test (s := s) (p := pinParked i s) ⟨rfl, rfl⟩ j
  obtain ⟨hb', hd'⟩ := pinAt_test i j s ((s.setPn i (pinParked i s)).setF (Reg.pinCfg i) 35 34 f)
  exact ⟨hb'.trans hb, hd'.trans hd⟩

theorem funcSet_test (i f j : Nat) (s : State) : TestSame (s.pn j) ((funcSet i f s).pn j) := by
  unfold funcSet
  split
  · exact setPn_test (p := { s.pn i with heldFunc := some (BitVec.ofNat 2 f) }) ⟨rfl, rfl⟩ j
  · split
    · exact .refl _
    · exact swStart_test ..

theorem funcSet_same (hs : (s.pn i).stage = .none) (hf : f = (s.pn i).conn.toNat) : funcSet i f s = s := (if_neg fun h => h hs).trans (if_pos hf)

/-- A pin that the service port drives. -/
def pinDriven (i : Nat) (d : BitVec 2) (s : State) : Pin :=
  { s.pn i with before := some ((s.pn i).before.getD (BitVec.ofNat 2 (pinFunc s i))), testDrive := d, testAt := s.evt.time }

/-- The pin driven and followed, its function still to be set. -/
def testDriven (i : Nat) (d : BitVec 2) (s : State) : State := pinAt i s (s.setPn i (pinDriven i d s))

theorem testDriven_out (i : Nat) (d : BitVec 2) (s : State) : SwitchKept (s.pn i) ((testDriven i d s).pn i) ∧ ((testDriven i d s).pn i).testDrive = d ∧
    ((testDriven i d s).pn i).before = some ((s.pn i).before.getD (BitVec.ofNat 2 (pinFunc s i))) := by
  have hset : (s.setPn i (pinDriven i d s)).pn i = pinDriven i d s := pn_setPn_same
  have hkept : SwitchKept ((s.setPn i (pinDriven i d s)).pn i) ((testDriven i d s).pn i) := pinAt_kept
  obtain ⟨hb, hd⟩ := pinAt_test i i s (s.setPn i (pinDriven i d s))
  rw [hset] at hkept hb hd
  exact ⟨(show SwitchKept (s.pn i) (pinDriven i d s) from ⟨rfl, rfl, rfl, rfl⟩).trans hkept, hd, hb⟩

/-- What a drive form leaves of the pin. -/
structure DrivenAs (i : Nat) (d : BitVec 2) (s t : State) : Prop where
  drive : (t.pn i).testDrive = d
  before : (t.pn i).before = some ((s.pn i).before.getD (BitVec.ofNat 2 (pinFunc s i)))
  parks : (s.pn i).stage = .none → (s.pn i).conn ≠ 3 → (t.pn i).stage = .parked ∧ t.getF (Reg.pinCfg i) 35 34 = 3
  rests : (s.pn i).stage = .none → (s.pn i).conn = 3 → (t.pn i).stage = .none
  holds : (s.pn i).stage ≠ .none → (t.pn i).heldFunc = some 3

theorem testPin_driven (i : Nat) (d : BitVec 2) (s : State) : DrivenAs i d s (testPin i d s) := by
  have hop : testPin i d s = funcSet i 3 (testDriven i d s) := rfl
  obtain ⟨hkept, hdrive, hbefore⟩ := testDriven_out i d s
  rw [hop]
  generalize testDriven i d s = q at hkept hdrive hbefore
  obtain ⟨hb, hd⟩ := funcSet_test i 3 i q
  refine ⟨hd.trans hdrive, hb.trans hbefore, fun hs hc => ?_, fun hs hc => ?_, fun hs => ?_⟩
  · have hne : 3 ≠ (q.pn i).conn.toNat := fun h => hc (hkept.conn ▸ BitVec.eq_of_toNat_eq h.symm)
    obtain ⟨hreg, -, -, hstage, -⟩ := swStart_out i 3 q
    rw [funcSet_starts (hkept.stage.trans hs) hne]
    exact ⟨hstage, (congrArg (fld · 35 34) hreg).trans (fld_setFld_same (by decide))⟩
  · have heq : 3 = (q.pn i).conn.toNat := by rw [hkept.conn, hc]; rfl
    rw [funcSet_same (hkept.stage.trans hs) heq]
    exact hkept.stage.trans hs
  · rw [funcSet_holds fun h => hs (hkept.stage.symm.trans h)]
    exact congrArg Pin.heldFunc pn_setPn_same

theorem opSvcDrive_elsewhere (h : s.mode ≠ .service) : opSvcDrive i d s = svcReject 4 s := if_pos h

theorem opSvcDrive_odd (h : s.mode = .service) (ho : pinOddDiff s i = true) : opSvcDrive i d s = svcReject 2 s := (if_neg fun hn => hn h).trans (if_pos ho)

theorem opSvcDrive_drives (h : s.mode = .service) (ho : pinOddDiff s i = false) : opSvcDrive i d s = svcReply (.ok []) (testPin i d s) :=
  (if_neg fun hn => hn h).trans (if_neg (by rw [ho]; exact Bool.false_ne_true))

theorem opSvcRelease_elsewhere (h : s.mode ≠ .service) : opSvcRelease i s = svcReject 4 s := if_pos h

theorem opSvcRelease_odd (h : s.mode = .service) (ho : pinOddDiff s i = true) : opSvcRelease i s = svcReject 2 s := (if_neg fun hn => hn h).trans (if_pos ho)

theorem opSvcRelease_releases (h : s.mode = .service) (ho : pinOddDiff s i = false) : opSvcRelease i s = svcReply (.ok []) (unTestPin i s) :=
  (if_neg fun hn => hn h).trans (if_neg (by rw [ho]; exact Bool.false_ne_true))

theorem unTestPin_none (h : (s.pn i).before = none) : unTestPin i s = s := by
  unfold unTestPin
  rw [h]

theorem unTestPin_some {f : BitVec 2} (h : (s.pn i).before = some f) : unTestPin i s = funcSet i f.toNat (s.setPn i { s.pn i with before := none }) := by
  unfold unTestPin
  rw [h]

/-- A pin that leaves TEST for another function than the one connected. -/
theorem unTestPin_switches {f : BitVec 2} (h : (s.pn i).before = some f) (hs : (s.pn i).stage = .none) (hf : f ≠ (s.pn i).conn) :
    ((unTestPin i s).pn i).before = none ∧ ((unTestPin i s).pn i).stage = .parked ∧ (unTestPin i s).getF (Reg.pinCfg i) 35 34 = f.toNat := by
  rw [unTestPin_some h]
  have hpn : (s.setPn i { s.pn i with before := none }).pn i = { s.pn i with before := none } := pn_setPn_same
  generalize s.setPn i { s.pn i with before := none } = q at hpn
  have hstage : (q.pn i).stage = .none := by rw [hpn]; exact hs
  have hne : f.toNat ≠ (q.pn i).conn.toNat := by rw [hpn]; exact fun he => hf (BitVec.eq_of_toNat_eq he)
  have hbefore : (q.pn i).before = none := by rw [hpn]
  obtain ⟨hreg, -, -, hpark, -⟩ := swStart_out i f.toNat q
  rw [funcSet_starts hstage hne]
  exact ⟨(swStart_test i f.toNat i q).before.trans hbefore, hpark, (congrArg (fld · 35 34) hreg).trans ((fld_setFld_same (by decide)).trans (Nat.mod_eq_of_lt f.isLt))⟩

/-- The command drives a pin. -/
structure IsDrive (p : Fin 720) (c : Instr) (d : BitVec 2) : Prop where
  line : ∀ {s u : State}, Taken s → u = s.count Reg.svcCntLines 35 0 → exec c s = .next (opSvcDrive p.val d u)

theorem IsDrive.of_mem {p : Fin 720} {l : List (Instr × BitVec 2)} (hl : ∀ e ∈ l, IsDrive p e.1 e.2) (h : (c, d) ∈ l) : IsDrive p c d := hl (c, d) h

/-- Settles O48: a line passes its gates in their order, then does one access, or one change of a pin, and replies by it. -/
theorem serviceAccesses : Obligations.ServiceAccesses := by
  unfold Obligations.ServiceAccesses
  refine ⟨fun s ht u hu => ⟨?gate, fun a peek v => ⟨fun hs ha => ?rdClocked, fun hc t hread => ⟨fun he => ?rd, fun he => ?rdErr⟩, fun hg => ?wrShut, fun hg hs ha => ?wrClocked,
      fun hg hc t hwrite => ⟨fun he hl => ?wr, fun he hl => ?wrReset, fun he hq => ?wrSilent, fun he hq => ?wrErr⟩⟩⟩,
    fun s ht u hu o v w => ⟨fun hc => ?spRdStopped, fun hc hlive hw => ?spRd, fun hg => ?spWrShut, fun hg hc => ?spWrStopped, fun hg hc hlive hb hr => ?spWr⟩,
    fun s ht u hu p => ⟨?pin, fun c d hmem => ?drive, fun hm => ?relElsewhere, fun hm ho => ?relOdd, fun hm ho hn => ?relNone, fun f hm ho hb hs hf => ?rel⟩⟩
  case gate =>
    rw [hu]
    exact svcMayWrite_count_lines
  case rdClocked => exact (exec_line (i := .rd a peek) (fun _ => rfl) nofun ht hu).trans (congrArg Host.Outcome.next (opSvcRd_clocked hs ha))
  case rd =>
    refine (exec_line (i := .rd a peek) (fun _ => rfl) nofun ht hu).trans (congrArg Host.Outcome.next ((opSvcRd_reads hc hread).trans ?_))
    rw [he]
    rfl
  case rdErr =>
    obtain ⟨k, hk, hop⟩ := svcBusErr_eq u t
    refine ⟨k, hk, (exec_line (i := .rd a peek) (fun _ => rfl) nofun ht hu).trans (congrArg Host.Outcome.next ((opSvcRd_reads hc hread).trans ?_))⟩
    exact (if_pos he).trans hop
  case wrShut => exact (exec_line (i := .wr a v) (fun _ => rfl) nofun ht hu).trans (congrArg Host.Outcome.next (opSvcWr_shut hg))
  case wrClocked => exact (exec_line (i := .wr a v) (fun _ => rfl) nofun ht hu).trans (congrArg Host.Outcome.next (opSvcWr_clocked hg hs ha))
  case wr =>
    refine (exec_line (i := .wr a v) (fun _ => rfl) nofun ht hu).trans (congrArg Host.Outcome.next ((opSvcWr_writes hg hc hwrite).trans ?_))
    exact (if_neg (by rw [he]; exact Bool.false_ne_true)).trans (if_neg hl)
  case wrReset =>
    refine (exec_line (i := .wr a v) (fun _ => rfl) nofun ht hu).trans (congrArg Host.Outcome.next ((opSvcWr_writes hg hc hwrite).trans ?_))
    exact (if_neg (by rw [he]; exact Bool.false_ne_true)).trans (if_pos hl)
  case wrSilent =>
    obtain ⟨k, hk, hop⟩ := svcBusErr_eq u t
    refine ⟨k, hk, (exec_line (i := .wr a v) (fun _ => rfl) nofun ht hu).trans (congrArg Host.Outcome.next ((opSvcWr_writes hg hc hwrite).trans ?_))⟩
    exact (if_pos he).trans (hop.trans (if_pos hq))
  case wrErr =>
    obtain ⟨k, -, hop⟩ := svcBusErr_eq u t
    refine (exec_line (i := .wr a v) (fun _ => rfl) nofun ht hu).trans (congrArg Host.Outcome.next ((opSvcWr_writes hg hc hwrite).trans ?_))
    exact (if_pos he).trans (hop.trans (if_neg hq))
  case spRdStopped =>
    have hcu : u.getB Reg.clkRoot 1 = false := by rw [hu]; exact (getB_count_lines (by decide)).trans hc
    exact (exec_line (i := .spRd o) (fun _ => rfl) nofun ht hu).trans (congrArg Host.Outcome.next (opSpRd_stopped hcu))
  case spRd =>
    have hcu : u.getB Reg.clkRoot 1 = true := by rw [hu]; exact (getB_count_lines (by decide)).trans hc
    have hlive' : Live rqSvc u := by rw [hu]; exact live_count_lines hlive
    exact (exec_line (i := .spRd o) (fun _ => rfl) nofun ht hu).trans (congrArg Host.Outcome.next (opSpRd_good hcu hlive' hw))
  case spWrShut => exact (exec_line (i := .spWr o v) (fun _ => rfl) nofun ht hu).trans (congrArg Host.Outcome.next (opSpWr_shut hg))
  case spWrStopped =>
    have hcu : u.getB Reg.clkRoot 1 = false := by rw [hu]; exact (getB_count_lines (by decide)).trans hc
    exact (exec_line (i := .spWr o v) (fun _ => rfl) nofun ht hu).trans (congrArg Host.Outcome.next (opSpWr_stopped hg hcu))
  case spWr =>
    have hcu : u.getB Reg.clkRoot 1 = true := by rw [hu]; exact (getB_count_lines (by decide)).trans hc
    have hlive' : Live rqSvc u := by rw [hu]; exact live_count_lines hlive
    have hru : u.scr.beater.running = false := by rw [hu]; exact hr
    have hstored : ∀ n, scrStored u n = scrStored s n := fun n => by rw [hu]; rfl
    refine .of_exec_eq (exec_line (i := .spWr o v) (fun _ => rfl) nofun ht hu) (opSpWr_served hg hcu hlive' hb hru) ⟨rfl, rfl, fun n => ?_⟩
    rw [← hstored]
    exact scrStored_scrSet (s := begin rqSvc u)
  case pin => exact exec_svcPin_of_taken p ht hu
  case drive =>
    have hdrive : IsDrive p c d := IsDrive.of_mem ?_ hmem
    · have hmode : u.mode = s.mode := by rw [hu]; rfl
      have hpn : ∀ n, u.pn n = s.pn n := fun n => by rw [hu]; rfl
      have hfunc : pinFunc u p.val = s.getF (Reg.pinCfg p.val) 35 34 := by rw [hu]; exact pinFunc_count_lines p.isLt
      refine ⟨fun hm => (hdrive.line ht hu).trans (congrArg Host.Outcome.next (opSvcDrive_elsewhere fun h => hm (hmode.symm.trans h))),
        fun hm ho => (hdrive.line ht hu).trans (congrArg Host.Outcome.next (opSvcDrive_odd (hmode.trans hm) ho)), fun hm ho => ?_⟩
      have hdriven := testPin_driven p.val d u
      have hop := opSvcDrive_drives (d := d) (hmode.trans hm) ho
      generalize testPin p.val d u = q at hdriven hop
      obtain ⟨hd, hbefore, hparks, hrests, hholds⟩ := hdriven
      rw [hpn, hfunc] at hbefore
      rw [hpn] at hparks hrests hholds
      exact .of_exec_eq (hdrive.line ht hu) hop ⟨rfl, hd, hbefore, hparks, hrests, hholds⟩
    · refine List.forall_mem_cons.2 ⟨⟨exec_line (i := .pinZ p) (fun _ => rfl) nofun⟩, ?_⟩
      refine List.forall_mem_cons.2 ⟨⟨exec_line (i := .pinHigh p) (fun _ => rfl) nofun⟩, ?_⟩
      refine List.forall_mem_cons.2 ⟨⟨exec_line (i := .pinLow p) (fun _ => rfl) nofun⟩, ?_⟩
      exact List.forall_mem_singleton.2 ⟨exec_line (i := .pinSquare p) (fun _ => rfl) nofun⟩
  case relElsewhere =>
    have hmode : u.mode = s.mode := by rw [hu]; rfl
    exact (exec_line (i := .pinRelease p) (fun _ => rfl) nofun ht hu).trans (congrArg Host.Outcome.next (opSvcRelease_elsewhere fun h => hm (hmode.symm.trans h)))
  case relOdd =>
    have hmode : u.mode = s.mode := by rw [hu]; rfl
    exact (exec_line (i := .pinRelease p) (fun _ => rfl) nofun ht hu).trans (congrArg Host.Outcome.next (opSvcRelease_odd (hmode.trans hm) ho))
  case relNone =>
    have hmode : u.mode = s.mode := by rw [hu]; rfl
    have hnone : (u.pn p.val).before = none := by rw [hu]; exact hn
    refine (exec_line (i := .pinRelease p) (fun _ => rfl) nofun ht hu).trans (congrArg Host.Outcome.next ((opSvcRelease_releases (hmode.trans hm) ho).trans ?_))
    rw [unTestPin_none hnone]
  case rel =>
    have hmode : u.mode = s.mode := by rw [hu]; rfl
    have hpn : u.pn p.val = s.pn p.val := by rw [hu]; rfl
    have hout := unTestPin_switches (s := u) (hpn ▸ hb) (hpn ▸ hs) (hpn ▸ hf)
    have hop := opSvcRelease_releases (hmode.trans hm) ho
    generalize unTestPin p.val u = q at hout hop
    obtain ⟨hbefore, hstage, hfunc⟩ := hout
    exact .of_exec_eq (exec_line (i := .pinRelease p) (fun _ => rfl) nofun ht hu) hop ⟨rfl, hbefore, hstage, hfunc⟩

end Sys2Proof.Machine
end

section
/-! O49: the session of the service port, its mode commands, its rate and its timeouts (R58, R60, R76, R441, R442, R444, R447, R449, R455). -/

namespace Sys2Proof.Machine

variable {s t u : State} {i a n : Nat} {who : Req}

/-! ### Authentication (R449) -/

theorem authClosed_count_lines : authClosed (s.count Reg.svcCntLines 35 0) = (!Config.fuseDbgPolicy.getLsbD 4 || !Config.fuseDbgPolicy.getLsbD 5 || s.getB Reg.dbgStatus 8) := by
  show (!Config.fuseDbgPolicy.getLsbD 4 || !Config.fuseDbgPolicy.getLsbD 5 || (s.count Reg.svcCntLines 35 0).getB Reg.dbgStatus 8) = _
  rw [getB_count_lines (by decide)]

/-- Where AUTH is available there is no lockout. -/
theorem notLocked_of_open (h : authClosed s = false) : s.getB Reg.dbgStatus 8 = false := by
  unfold authClosed at h
  exact (Bool.or_eq_false_iff.1 h).2

/-- A failed response moves no register but DBG.STATUS and the event unit's. -/
theorem authFail_reg (l : Nat) (s : State) (h : a ≠ Reg.dbgStatus) (he : a ∉ evtRegs) : (authFail l s).reg a = s.reg a := by
  have hcounted : (authCounted l s).reg a = s.reg a := (raise_reg _ _ _ _ _ he).trans (reg_setF_other h)
  rw [authFail_eq]
  split
  · exact (raise_reg _ _ _ _ _ he).trans ((reg_setB_other h).trans hcounted)
  · exact hcounted

/-- The challenge that a response answers serves no other. -/
def chalSpent (s : State) : State := { s with dbg := { s.dbg with svcChalValid := false } }

/-- The response answers the challenge. -/
def respRight (r : List (BitVec 32)) (s : State) : Bool := s.dbg.svcChalValid && decide (r.flatMap (fun w => Crypto.beBytes 4 w.toNat) = chalAnswer s.dbg.svcChal)

theorem opSvcAuthResp_closed (r : List (BitVec 32)) (h : authClosed s = true) : opSvcAuthResp r s = svcReject 6 s := if_pos h

theorem opSvcAuthResp_open (r : List (BitVec 32)) (h : authClosed s = false) : opSvcAuthResp r s = if respRight r s then
      svcReply (.ok []) (((chalSpent s).setF Reg.dbgStatus 7 5 0).setB Reg.svcStatus 0 true)
    else svcReply (.er (if lockedOut (authFail 2 (chalSpent s)) then 0xA03 else 0xA02)) (authFail 2 (chalSpent s)) :=
  if_neg (by rw [h]; exact Bool.false_ne_true)

theorem respRight_true {r : List (BitVec 32)} (hv : s.dbg.svcChalValid = true) (hr : r.flatMap (fun w => Crypto.beBytes 4 w.toNat) = chalAnswer s.dbg.svcChal) :
    respRight r s = true := by
  unfold respRight
  rw [hv, decide_eq_true hr]
  rfl

theorem respRight_false {r : List (BitVec 32)} (h : s.dbg.svcChalValid = false ∨ r.flatMap (fun w => Crypto.beBytes 4 w.toNat) ≠ chalAnswer s.dbg.svcChal) :
    respRight r s = false := by
  unfold respRight
  rcases h with h | h
  · rw [h, Bool.false_and]
  · rw [decide_eq_false h, Bool.and_false]

/-- A right response opens the session and clears FAILS. -/
structure SessionOpened (s t : State) : Prop where
  dbg : t.dbg = { s.dbg with svcChalValid := false }
  reply : t.svc.reply = .ok []
  authed : t.getB Reg.svcStatus 0 = true
  fails : t.getF Reg.dbgStatus 7 5 = 0
  evt : t.evt = s.evt

theorem opSvcAuthResp_right {r : List (BitVec 32)} (hc : authClosed s = false) (h : respRight r s = true) : SessionOpened s (opSvcAuthResp r s) := by
  rw [opSvcAuthResp_open r hc, if_pos h]
  have hauthed : (((chalSpent s).setF Reg.dbgStatus 7 5 0).setB Reg.svcStatus 0 true).getB Reg.svcStatus 0 = true := getB_setB_same (by decide)
  have hfails : (((chalSpent s).setF Reg.dbgStatus 7 5 0).setB Reg.svcStatus 0 true).getF Reg.dbgStatus 7 5 = 0 :=
    (congrArg (fld · 7 5) (reg_setB_other (by decide))).trans (getF_setF_same (by decide))
  exact ⟨rfl, rfl, hauthed, hfails, rfl⟩

/-- A wrong response is counted, and locks the debugger out at the fourth failure. -/
structure SessionFailed (s t : State) : Prop where
  dbg : t.dbg = { s.dbg with svcChalValid := false }
  authed : t.getB Reg.svcStatus 0 = s.getB Reg.svcStatus 0
  fails : t.getF Reg.dbgStatus 7 5 = min 7 (s.getF Reg.dbgStatus 7 5 + 1)
  wrong : s.getF Reg.dbgStatus 7 5 ≠ 3 → t.svc.reply = .er 0xA02 ∧ Logged 0xA02 4 (min 7 (s.getF Reg.dbgStatus 7 5 + 1) <<< 2 ||| 2) s t
  fourth : s.getF Reg.dbgStatus 7 5 = 3 → t.svc.reply = .er 0xA03 ∧ t.getB Reg.dbgStatus 8 = true

theorem svcStatus_not_evtReg : Reg.svcStatus ∉ evtRegs := by decide

theorem opSvcAuthResp_wrong {r : List (BitVec 32)} (hc : authClosed s = false) (h : respRight r s = false) : SessionFailed s (opSvcAuthResp r s) := by
  have hlock := notLocked_of_open hc
  obtain ⟨hdbg, hfails, -, hwrong, hfourth⟩ := authFail_out 2 (chalSpent s)
  have hreg : (authFail 2 (chalSpent s)).reg Reg.svcStatus = s.reg Reg.svcStatus := authFail_reg 2 (chalSpent s) (by decide) svcStatus_not_evtReg
  rw [opSvcAuthResp_open r hc, if_neg (by rw [h]; exact Bool.false_ne_true)]
  generalize authFail 2 (chalSpent s) = w at hdbg hfails hwrong hfourth hreg
  refine ⟨hdbg, by rw [getB_eq, getB_eq]; exact congrArg (fun v : Word => v.toNat.testBit 0) hreg, hfails, fun h3 => ?_, fun h3 => ?_⟩
  · obtain ⟨hkept, hlog⟩ := hwrong h3
    refine ⟨congrArg Reply.er (if_neg ?_), hlog.of_same rfl rfl⟩
    show ¬ w.getB Reg.dbgStatus 8 = true
    rw [hkept]
    exact fun hl => Bool.false_ne_true (hlock.symm.trans hl)
  · obtain ⟨hlocked, -⟩ := hfourth h3
    exact ⟨congrArg Reply.er (if_pos hlocked), hlocked⟩

/-! ### The mode commands (R58, R60, R76, R447) -/

/-- A refused mode command: the mode stands, E003 is reported and replied. -/
structure ModeRefused (detail : Nat) (s t : State) : Prop where
  mode : t.mode = s.mode
  reply : t.svc.reply = .er 0x003
  test : t.svc.test = s.svc.test
  logged : Logged 0x003 0 detail s t

theorem svcModeRefuse_out (req reason : Nat) (s : State) : ModeRefused (1 <<< 12 ||| reason <<< 8 ||| req) s (svcModeRefuse req reason s) := by
  have hlog : Logged 0x003 0 (1 <<< 12 ||| reason <<< 8 ||| req) s (modeRefuse req reason true s) := raise_logged rfl
  have hmode := modeRefuse_mode req reason true s
  have hsvc : (modeRefuse req reason true s).svc = s.svc := raise_svc ..
  unfold svcModeRefuse
  generalize modeRefuse req reason true s = w at hlog hmode hsvc
  exact ⟨hmode, rfl, congrArg (fun v => v.test) hsvc, hlog.of_same rfl rfl⟩

/-- A refusal after steps that moved none of what it reports. -/
theorem ModeRefused.after {detail : Nat} (h : ModeRefused detail u t) (hm : u.mode = s.mode) (ht : u.svc.test = s.svc.test) (hq : u.evt.seq = s.evt.seq) : ModeRefused detail s t := by
  obtain ⟨hmode, hreply, htest, hlog⟩ := h
  refine ⟨hmode.trans hm, hreply, htest.trans ht, ?_⟩
  unfold Logged at hlog ⊢
  rwa [hq] at hlog

/-- The state in which SERVICE has sampled the pin. -/
def pinSampled (high : Bool) (s : State) : State := { s with boot := { s.boot with svcModePin := high } }

/-- SERVICE once the pin has been sampled. -/
def serviceAsk (high : Bool) (s : State) : State :=
  match s.mode with
  | .inert => if s.boot.nrstLow then svcModeRefuse 4 1 s else if svcAuthed s then svcReply (.ok []) (serviceCold 0 s) else svcModeRefuse 4 7 s
  | .run | .retain =>
    if !(high || svcAuthed s) then svcModeRefuse 4 7 s
    else if s.boot.retain = .entering then { s with boot := { s.boot with heldService := true } }
    else svcReply (.ok []) (enterService s)
  | _ => svcModeRefuse 4 1 s

theorem opService_eq (high : Bool) (s : State) : opService high s = serviceAsk high (pinSampled high s) := rfl

/-- SERVICE asks for authentication in INERT, for authentication or the pin in RUN and RETAIN. -/
theorem serviceAsk_gate {high : Bool} (h : s.mode = .inert ∧ s.boot.nrstLow = false ∧ svcAuthed s = false ∨ (s.mode = .run ∨ s.mode = .retain) ∧ high = false ∧ svcAuthed s = false) :
    serviceAsk high s = svcModeRefuse 4 7 s := by
  unfold serviceAsk
  rcases h with ⟨hm, hn, ha⟩ | ⟨hm | hm, hh, ha⟩
  · rw [hm, hn, ha]
    rfl
  · rw [hm, hh, ha]
    rfl
  · rw [hm, hh, ha]
    rfl

theorem serviceAsk_elsewhere {high : Bool} (h : s.mode = .boot ∨ s.mode = .service ∨ s.mode = .failsafe ∨ s.mode = .inert ∧ s.boot.nrstLow = true) :
    serviceAsk high s = svcModeRefuse 4 1 s := by
  unfold serviceAsk
  rcases h with hm | hm | hm | ⟨hm, hn⟩
  · rw [hm]
  · rw [hm]
  · rw [hm]
  · rw [hm, hn]
    rfl

theorem serviceAsk_cold {high : Bool} (hm : s.mode = .inert) (hn : s.boot.nrstLow = false) (ha : svcAuthed s = true) :
    serviceAsk high s = svcReply (.ok []) (serviceCold 0 s) := by
  unfold serviceAsk
  rw [hm, hn, ha]
  rfl

theorem serviceAsk_warm {high : Bool} (hm : s.mode = .run ∨ s.mode = .retain) (hg : high = true ∨ svcAuthed s = true) :
    serviceAsk high s = if s.boot.retain = .entering then { s with boot := { s.boot with heldService := true } } else svcReply (.ok []) (enterService s) := by
  have hopen : (high || svcAuthed s) = true := Bool.or_eq_true_iff.2 hg
  unfold serviceAsk
  rcases hm with hm | hm
  · rw [hm, hopen]
    rfl
  · rw [hm, hopen]
    rfl

theorem serviceCold_mode (cause : Nat) (s : State) : (serviceCold cause s).mode = .service := (coreStart_mode _).trans (setMode_mode ..)

theorem enterService_mode (s : State) : (enterService s).mode = .service := by
  have hset : ∀ v : State, (govDrop .exit (setMode .service 0 v)).mode = .service := fun v => setMode_mode ..
  unfold enterService
  dsimp only
  split
  · exact (govAsk_mode ..).trans (hset _)
  · exact hset _

/-! ### SERVICE EXIT (R76) -/

/-- Pins left TEST: registers of pins and the pins alone moved. -/
structure TestsEnded (s t : State) : Prop where
  rest : ∃ r m, t = { s with regs := r, pin := m }
  regs : ∀ a, ¬ (0x3000 ≤ a ∧ a < 0x4000) → t.reg a = s.reg a

theorem TestsEnded.refl (s : State) : TestsEnded s s := ⟨⟨_, _, rfl⟩, fun _ _ => rfl⟩

theorem TestsEnded.trans (h : TestsEnded s t) (g : TestsEnded t u) : TestsEnded s u := by
  obtain ⟨⟨r, m, rfl⟩, hr⟩ := h
  obtain ⟨⟨q, k, rfl⟩, hq⟩ := g
  exact ⟨⟨q, k, rfl⟩, fun a ha => (hq a ha).trans (hr a ha)⟩

theorem swStart_ended (f : Nat) (s : State) (hi : i < 720) : TestsEnded s (swStart i f s) := by
  obtain ⟨-, -, hregs, -⟩ := swStart_out i f s
  refine ⟨⟨_, _, rfl⟩, fun a ha => hregs a fun hm => ha ?_⟩
  rw [List.mem_singleton.1 hm]
  unfold Reg.pinCfg
  omega

theorem funcSet_ended (f : Nat) (s : State) (hi : i < 720) : TestsEnded s (funcSet i f s) := by
  unfold funcSet
  split
  · exact ⟨⟨_, _, rfl⟩, fun _ _ => rfl⟩
  · split
    · exact .refl s
    · exact swStart_ended f s hi

theorem unTestPin_ended (s : State) (hi : i < 720) : TestsEnded s (unTestPin i s) := by
  unfold unTestPin
  split
  · exact (show TestsEnded s (s.setPn i _) from ⟨⟨_, _, rfl⟩, fun _ _ => rfl⟩).trans (funcSet_ended _ _ hi)
  · exact .refl s

theorem unTestPin_before (i j : Nat) (s : State) : ((unTestPin i s).pn j).before = if j = i then none else (s.pn j).before := by
  unfold unTestPin
  split
  next f h =>
    rw [(funcSet_test i f.toNat j _).before, pn_setPn]
    split
    · rfl
    · rfl
  next h =>
    split
    next hj => rw [hj]; exact h
    next => rfl

/-- All the pins of a list leave TEST. -/
theorem unTestPins_out (l : List Nat) : ∀ s, (∀ i ∈ l, i < 720) → TestsEnded s (forAll l unTestPin s) ∧ ∀ j, j ∈ l ∨ (s.pn j).before = none → ((forAll l unTestPin s).pn j).before = none := by
  induction l with
  | nil => exact fun s _ => ⟨.refl s, fun j hj => hj.resolve_left (List.not_mem_nil)⟩
  | cons i l ih =>
    intro s hl
    obtain ⟨hi, hrest⟩ := List.forall_mem_cons.1 hl
    obtain ⟨hended, hnone⟩ := ih (unTestPin i s) hrest
    refine ⟨(unTestPin_ended s hi).trans hended, fun j hj => hnone j ?_⟩
    by_cases hji : j = i
    · exact .inr ((unTestPin_before i j s).trans (if_pos hji))
    · refine hj.imp (fun hm => (List.mem_cons.1 hm).resolve_left hji) fun hb => ?_
      rw [unTestPin_before, if_neg hji]
      exact hb

theorem opServiceExit_refused (h : s.mode ≠ .service ∨ noImage s = true ∨ s.boot.released = false ∨ s.svc.test.isSome = true) :
    opServiceExit s = svcModeRefuse 5 1 s := by
  refine if_pos ?_
  rcases h with h | h | h | h
  · exact .inl h
  · exact .inr (.inl h)
  · exact .inr (.inr (.inl (by rw [h]; rfl)))
  · exact .inr (.inr (.inr h))

/-- The state in which the exit has been taken up: pins in TEST go back. -/
def exitTaken (s : State) : State := { forAll (List.range 720) unTestPin s with boot := { (forAll (List.range 720) unTestPin s).boot with exitRun := true } }

theorem opServiceExit_accepted (hm : s.mode = .service) (hi : noImage s = false) (hr : s.boot.released = true) (ht : s.svc.test = none) :
    opServiceExit s = if s.boot.exitRun then svcReply (.ok []) s
      else svcReply (.ok []) (if (exitTaken s).getB Reg.pwrBootStatus 8 then exitTaken s else govAsk .exit 0 (estSum (fun _ => true) (exitTaken s)) (exitTaken s)) := by
  refine if_neg ?_
  rintro (h | h | h | h)
  · exact h hm
  · exact Bool.false_ne_true (hi.symm.trans h)
  · rw [hr] at h; cases h
  · rw [ht] at h; cases h

theorem exitTaken_out (s : State) : (exitTaken s).mode = s.mode ∧ (exitTaken s).gov = s.gov ∧ (exitTaken s).reg Reg.pwrBootStatus = s.reg Reg.pwrBootStatus ∧
    (exitTaken s).boot.exitRun = true ∧ ∀ j, j < 720 → ((exitTaken s).pn j).before = none := by
  obtain ⟨⟨⟨r, m, hrest⟩, hregs⟩, hnone⟩ := unTestPins_out (List.range 720) s fun _ hi => List.mem_range.1 hi
  unfold exitTaken
  generalize forAll (List.range 720) unTestPin s = w at hrest hregs hnone
  exact ⟨congrArg (fun q => q.mode) hrest, congrArg (fun q => q.gov) hrest, hregs Reg.pwrBootStatus (by decide), rfl, fun j hj => hnone j (.inl (List.mem_range.2 hj))⟩

/-- An exit taken up asks for the soft-start of the clocks, unless the release was held. -/
structure ExitTaken (s t : State) : Prop where
  mode : t.mode = s.mode
  reply : t.svc.reply = .ok []
  exitRun : t.boot.exitRun = true
  pins : ∀ j, j < 720 → (t.pn j).before = none
  held : s.getB Reg.pwrBootStatus 8 = true → t.gov = s.gov
  asks : s.getB Reg.pwrBootStatus 8 = false → ∃ r ∈ t.gov.queue, r.kind = .exit

theorem opServiceExit_taken (hm : s.mode = .service) (hi : noImage s = false) (hr : s.boot.released = true) (ht : s.svc.test = none) (hx : s.boot.exitRun = false) :
    ExitTaken s (opServiceExit s) := by
  have hop := opServiceExit_accepted hm hi hr ht
  rw [if_neg (by rw [hx]; exact Bool.false_ne_true)] at hop
  obtain ⟨hmode, hgov, hreg, hrun, hpins⟩ := exitTaken_out s
  have hbit : (exitTaken s).getB Reg.pwrBootStatus 8 = s.getB Reg.pwrBootStatus 8 := by rw [getB_eq, getB_eq, hreg]
  rw [hop]
  generalize exitTaken s = w at hrun hpins hmode hgov hbit
  cases h8 : s.getB Reg.pwrBootStatus 8 with
  | true =>
    rw [if_pos (hbit.trans h8)]
    exact ⟨hmode, rfl, hrun, hpins, fun _ => hgov, fun h => absurd h (by rw [h8]; decide)⟩
  | false =>
    rw [if_neg (by rw [hbit, h8]; exact Bool.false_ne_true)]
    obtain ⟨q, hq, hkind, -⟩ := govAsk_has .exit 0 (estSum (fun _ => true) w) w
    have hask := govAsk_rest .exit 0 (estSum (fun _ => true) w) w
    generalize govAsk .exit 0 (estSum (fun _ => true) w) w = v at hq hask
    have hpin : v.pin = w.pin := congrArg (fun x => x.pin) hask
    refine ⟨(congrArg (fun x => x.mode) hask).trans hmode, rfl, (congrArg (fun x => x.boot.exitRun) hask).trans hrun, fun j hj => ?_,
      fun h => absurd (h8.symm.trans h) (by decide), fun _ => ⟨q, hq, hkind⟩⟩
    show (Store.get (fun _ => {}) v.pin j).before = none
    rw [hpin]
    exact hpins j hj

/-! ### Reset and rate (R83, R441, R455) -/

theorem softReset_high_mode (cause : Nat) (b : Bool) (h : s.boot.nsafeLow = false) : (softReset who cause b s).mode = .inert := by
  have hnsafe : (resetTo .soft s).boot.nsafeLow = false := by rw [resetTo_boot]; exact h
  have hinert := resetTo_mode .soft s
  unfold softReset
  generalize resetTo .soft s = t at hnsafe hinert
  dsimp only
  rw [nsafeRearm_of_high]
  · exact hinert
  · exact hnsafe

theorem softReset_low_mode (cause : Nat) (b : Bool) (hl : s.boot.nsafeLow = true) (hp : s.boot.powerGood = true)
    (hr : s.getF Reg.pwrRailOk 21 0 = 0x3FFFFF - 0x40 + 0x40 * s.getF Reg.pwrRailOk 6 6) (hn : s.boot.nrstLow = false) :
    (softReset who cause b s).mode = .failsafe := by
  have hnsafe : (resetTo .soft s).boot.nsafeLow = true := by rw [resetTo_boot]; exact hl
  have hnrst : (resetTo .soft s).boot.nrstLow = false := by rw [resetTo_boot]; exact hn
  have hgood := resetTo_soft_powerGood hp hr
  unfold softReset
  generalize resetTo .soft s = t at hnsafe hnrst hgood
  exact nsafeRearm_mode hnsafe hgood hnrst

theorem opReboot_shut {b n : Bool} (h : s.getB Reg.svcStatus 0 = false) : opReboot b n s = svcReject 5 s :=
  if_neg fun ha => Bool.false_ne_true (h.symm.trans ha)

theorem opReboot_resets {b n : Bool} (h : s.getB Reg.svcStatus 0 = true) : opReboot b n s = softReset rqSvc 3 b { s with boot := { s.boot with nsafeLow := n } } := if_pos h

theorem opBaud_ok (h : baudOk n = true) : opBaud n s = (svcReply (.ok []) s).setF Reg.svcCfg 15 0 ((400000000 + n / 2) / n) := if_pos h

theorem opBaud_bad (h : baudOk n = false) : opBaud n s = svcReject 2 s := if_neg (by rw [h]; exact Bool.false_ne_true)

theorem opSvcWake_wakes (h : s.mode = .retain ∨ s.boot.retain = .entering) : opSvcWake s = svcReply (.ok []) (regWrite rqSvc Reg.pwrModeReq 2 s) := if_pos h

theorem opSvcWake_elsewhere (hm : s.mode ≠ .retain) (hr : s.boot.retain ≠ .entering) : opSvcWake s = svcReject 4 s := if_neg fun h => h.elim hm hr

/-- SERVICE EXIT is answered at once where no line waits, and during a self-test always (R455). -/
theorem exec_serviceExit (hp : s.boot.porHeld = false) (h : Taken s ∨ s.svc.test.isSome = true) (hu : u = s.count Reg.svcCntLines 35 0) :
    exec .svcServiceExit s = .next (opServiceExit u) := by
  rcases h with ht | ht
  · exact exec_line (i := .serviceExit) (fun _ => rfl) nofun ht hu
  · subst hu
    exact congrArg Host.Outcome.next ((if_neg (by rw [hp]; exact Bool.false_ne_true)).trans (if_pos (.inl ⟨rfl, ht⟩)))

/-- Settles O49: each line of the session acts by the gate that its mode and its authentication leave open. -/
theorem serviceSession : Obligations.ServiceSession := by
  unfold Obligations.ServiceSession
  refine ⟨fun s ht u hu => ⟨?closed, ?auth, fun r => ?response, ?logout, fun r => exec_line (i := .invalidLine r) (fun _ => rfl) nofun ht hu, fun n hn => ?baud, fun n hn => ?badBaud,
      fun hw => ?wake, fun hm hr => ?noWake, fun b n ha => ?rebootShut, fun b n ha => ?reboot⟩,
    fun s high ht a ha => ?service,
    fun s hp u hu => ⟨fun ht h => ?exitRefused, fun ht hm hi hr hx => ?exitAgain, fun ht hm hi hr hx => ?exit⟩,
    fun s => ⟨rfl, rfl, fun h => congrArg Host.Outcome.next (if_pos h), fun h => congrArg Host.Outcome.next (if_neg (by rw [h]; exact Bool.false_ne_true))⟩⟩
  case closed =>
    rw [hu]
    exact authClosed_count_lines
  case auth =>
    have hfree : u.free = s.free := by rw [hu]; rfl
    have hdbg : u.dbg = s.dbg := by rw [hu]; rfl
    rw [← hfree, ← hdbg]
    exact exec_line (i := .auth) (fun _ => rfl) nofun ht hu
  case response =>
    have hrun : exec (.svcAuthResponse r) s = .next (opSvcAuthResp r u) := exec_line (i := .authResponse r) (fun _ => rfl) nofun ht hu
    have hdbg : u.dbg = s.dbg := by rw [hu]; rfl
    have hevt : u.evt = s.evt := by rw [hu]; rfl
    have hstatus : u.getB Reg.svcStatus 0 = s.getB Reg.svcStatus 0 := by rw [hu]; exact getB_count_lines (by decide)
    have hcount : u.getF Reg.dbgStatus 7 5 = s.getF Reg.dbgStatus 7 5 := by rw [hu]; exact getF_count_lines (by decide)
    have hclosed := opSvcAuthResp_closed (s := u) r
    have hright := opSvcAuthResp_right (s := u) (r := r)
    have hwrong := opSvcAuthResp_wrong (s := u) (r := r)
    have htrue := respRight_true (s := u) (r := r)
    have hfalse := respRight_false (s := u) (r := r)
    generalize opSvcAuthResp r u = w at hrun hclosed hright hwrong
    refine .of_exec hrun ⟨hclosed, fun hc => ?_⟩
    rw [← hdbg]
    cases hb : respRight r u with
    | true =>
      obtain ⟨hd, hreply, hauthed, hfails, he⟩ := hright hc hb
      exact ⟨hd, fun _ _ => ⟨hreply, hauthed, hfails, he.trans hevt⟩, fun h => absurd (hb.symm.trans (hfalse h)) (by decide)⟩
    | false =>
      obtain ⟨hd, hauthed, hfails, hone, hfourth⟩ := hwrong hc hb
      rw [hcount] at hfails hone hfourth
      refine ⟨hd, fun hv hr => absurd (hb.symm.trans (htrue hv hr)) (by decide), fun _ => ⟨hauthed.trans hstatus, hfails, fun h3 => ?_, hfourth⟩⟩
      obtain ⟨hreply, hlog⟩ := hone h3
      refine ⟨hreply, ?_⟩
      unfold Logged at hlog ⊢
      rwa [hevt] at hlog
  case logout => exact exec_line (i := .logout) (fun _ => rfl) nofun ht hu
  case baud => exact .of_exec_eq (exec_line (i := .baud n) (fun _ => rfl) nofun ht hu) (opBaud_ok hn) rfl
  case badBaud => exact (exec_line (i := .baud n) (fun _ => rfl) nofun ht hu).trans (congrArg Host.Outcome.next (opBaud_bad hn))
  case wake =>
    have hw' : u.mode = .retain ∨ u.boot.retain = .entering := by rw [hu]; exact hw
    exact (exec_line (i := .wake) (fun _ => rfl) nofun ht hu).trans (congrArg Host.Outcome.next (opSvcWake_wakes hw'))
  case noWake =>
    have hm' : u.mode ≠ .retain := by rw [hu]; exact hm
    have hr' : u.boot.retain ≠ .entering := by rw [hu]; exact hr
    exact (exec_line (i := .wake) (fun _ => rfl) nofun ht hu).trans (congrArg Host.Outcome.next (opSvcWake_elsewhere hm' hr'))
  case rebootShut =>
    have ha' : u.getB Reg.svcStatus 0 = false := by rw [hu]; exact (getB_count_lines (by decide)).trans ha
    exact (exec_line (i := .reboot b n) (fun _ => rfl) nofun ht hu).trans (congrArg Host.Outcome.next (opReboot_shut ha'))
  case reboot =>
    have ha' : u.getB Reg.svcStatus 0 = true := by rw [hu]; exact (getB_count_lines (by decide)).trans ha
    have hrail : ∀ hi lo, u.getF Reg.pwrRailOk hi lo = s.getF Reg.pwrRailOk hi lo := fun hi lo => by rw [hu]; exact getF_count_lines (by decide)
    have hboot : u.boot = s.boot := by rw [hu]; rfl
    refine .of_exec_eq (exec_line (i := .reboot b n) (fun _ => rfl) nofun ht hu) (opReboot_resets ha') ⟨rfl, fun hn => softReset_high_mode 3 b hn, fun hn hg hl hr => ?_⟩
    rw [← hrail, ← hrail] at hr
    rw [← hboot] at hg hl
    exact softReset_low_mode 3 b hn hg hr hl
  case service =>
    have hrun : exec (.svcService high) s = .next (serviceAsk high (pinSampled high (s.count Reg.svcCntLines 35 0))) :=
      (exec_line (i := .service high) (fun _ => rfl) nofun ht rfl).trans (congrArg Host.Outcome.next (opService_eq high _))
    have hauthed : svcAuthed (pinSampled high (s.count Reg.svcCntLines 35 0)) = a := (getB_count_lines (by decide)).trans ha.symm
    have hmode : (pinSampled high (s.count Reg.svcCntLines 35 0)).mode = s.mode := rfl
    have hboot : (pinSampled high (s.count Reg.svcCntLines 35 0)).boot = { s.boot with svcModePin := high } := rfl
    have hsvc : (pinSampled high (s.count Reg.svcCntLines 35 0)).svc = s.svc := rfl
    have hevt : (pinSampled high (s.count Reg.svcCntLines 35 0)).evt = s.evt := rfl
    generalize pinSampled high (s.count Reg.svcCntLines 35 0) = q at hrun hauthed hmode hboot hsvc hevt
    have hnrst : q.boot.nrstLow = s.boot.nrstLow := by rw [hboot]
    have hretain : q.boot.retain = s.boot.retain := by rw [hboot]
    rw [← hmode, ← hnrst, ← hretain, ← hauthed]
    refine ⟨fun h => ?gate, fun h => ?elsewhere, fun hm hn ha => ?cold, fun hm hg hr => ?warm, fun hm hg hr => ?held⟩
    case gate =>
      obtain ⟨hm, hreply, -, hlog⟩ := (svcModeRefuse_out 4 7 q).after (s := s) hmode (by rw [hsvc]) (by rw [hevt])
      exact .of_exec_eq hrun (serviceAsk_gate h) ⟨hm.trans hmode.symm, hreply, hlog⟩
    case elsewhere =>
      obtain ⟨hm, hreply, -, hlog⟩ := (svcModeRefuse_out 4 1 q).after (s := s) hmode (by rw [hsvc]) (by rw [hevt])
      exact .of_exec_eq hrun (serviceAsk_elsewhere h) ⟨hm.trans hmode.symm, hreply, hlog⟩
    case cold =>
      have hservice := serviceCold_mode 0 q
      have hop := serviceAsk_cold (high := high) hm hn ha
      generalize serviceCold 0 q = w at hservice hop
      exact .of_exec_eq hrun hop ⟨hservice, rfl⟩
    case warm =>
      have hservice := enterService_mode q
      have hop := (serviceAsk_warm hm hg).trans (if_neg hr)
      generalize enterService q = w at hservice hop
      exact .of_exec_eq hrun hop ⟨hservice, rfl⟩
    case held => exact .of_exec_eq hrun ((serviceAsk_warm hm hg).trans (if_pos hr)) ⟨rfl, rfl, congrArg (fun v => v.reply) hsvc, hevt⟩
  case exitRefused =>
    have hmode : u.mode = s.mode := by rw [hu]; rfl
    have hsvc : u.svc = s.svc := by rw [hu]; rfl
    have hboot : u.boot = s.boot := by rw [hu]; rfl
    rw [← hmode, ← hboot, ← hsvc] at h
    obtain ⟨hm, hreply, htest, hlog⟩ := (svcModeRefuse_out 5 1 u).after (s := s) hmode (by rw [hsvc]) (by rw [hu]; rfl)
    exact .of_exec_eq (exec_serviceExit hp ht hu) (opServiceExit_refused h) ⟨hm, hreply, htest, hlog⟩
  case exitAgain =>
    have hm' : u.mode = .service := by rw [hu]; exact hm
    have hboot : u.boot = s.boot := by rw [hu]; rfl
    have htest : u.svc.test = none := by rw [hu]; exact ht.noTest
    refine (exec_serviceExit hp (.inl ht) hu).trans (congrArg Host.Outcome.next ((opServiceExit_accepted hm' hi (by rw [hboot]; exact hr) htest).trans (if_pos (by rw [hboot]; exact hx))))
  case exit =>
    have hm' : u.mode = .service := by rw [hu]; exact hm
    have hboot : u.boot = s.boot := by rw [hu]; rfl
    have hgov : u.gov = s.gov := by rw [hu]; rfl
    have htest : u.svc.test = none := by rw [hu]; exact ht.noTest
    have hbit : u.getB Reg.pwrBootStatus 8 = s.getB Reg.pwrBootStatus 8 := by rw [hu]; exact getB_count_lines (by decide)
    have htaken := opServiceExit_taken hm' hi (by rw [hboot]; exact hr) htest (by rw [hboot]; exact hx)
    have hrun := exec_serviceExit hp (.inl ht) hu
    generalize opServiceExit u = w at htaken hrun
    obtain ⟨hmode, hreply, hexit, hpins, hheld, hasks⟩ := htaken
    rw [hbit] at hheld hasks
    exact .of_exec hrun ⟨hmode.trans hm', hreply, hexit, hpins, fun h8 => (hheld h8).trans hgov, hasks⟩

end Sys2Proof.Machine
end

section
/-! O53: one CK_SVC cycle on an empty queue. -/

namespace Sys2Proof.Machine

variable {s t u : State}

/-! ### Timers, delay lines, pads and FIFOs -/

/-- Registers, pins, timers, the fabric and the free words alone moved. -/
structure WorldMoved (s t : State) : Prop where
  rest : ∃ r p m f n, t = { s with regs := r, pin := p, scr := { s.scr with tmr := m }, fab := f, free := n }

theorem WorldMoved.refl (s : State) : WorldMoved s s := ⟨⟨_, _, _, _, _, rfl⟩⟩

theorem WorldMoved.trans (h : WorldMoved s t) (g : WorldMoved t u) : WorldMoved s u := by
  obtain ⟨r, p, m, f, n, rfl⟩ := h
  obtain ⟨r', p', m', f', n', rfl⟩ := g
  exact ⟨⟨r', p', m', f', n', rfl⟩⟩

theorem forAll_world {α : Type} {f : α → State → State} (hf : ∀ x v, WorldMoved v (f x v)) (l : List α) : ∀ s, WorldMoved s (forAll l f s) := by
  induction l with
  | nil => exact fun s => .refl s
  | cons x l ih => exact fun s => (hf x s).trans (ih (f x s))

theorem setReg_world (a : Nat) (v : Word) (s : State) : WorldMoved s (s.setReg a v) := ⟨⟨_, _, _, _, _, rfl⟩⟩

theorem setTmr_world (k : Nat) (v : Timer) (s : State) : WorldMoved s (s.setTmr k v) := ⟨⟨_, _, _, _, _, rfl⟩⟩

theorem setPn_world (i : Nat) (v : Pin) (s : State) : WorldMoved s (s.setPn i v) := ⟨⟨_, _, _, _, _, rfl⟩⟩

theorem draw_world (s : State) : WorldMoved s s.draw := ⟨⟨_, _, _, _, _, rfl⟩⟩

theorem pinAt_world (i : Nat) (s t : State) : WorldMoved t (pinAt i s t) := ⟨⟨_, _, _, _, _, pinAt_rest i s t⟩⟩

theorem tmrPin_world (k : Nat) (b : Bool) (s : State) : WorldMoved s (tmrPin k b s) := by
  unfold tmrPin
  split
  · exact setTmr_world ..
  · exact .refl s

theorem pwmPin_world (k : Nat) (b : Bool) (s : State) : WorldMoved s (if tmrMode s k = 2 then tmrPin k b s else s) := by
  split
  · exact tmrPin_world ..
  · exact .refl s

theorem tickTimer_world (k : Nat) (s : State) : WorldMoved s (tickTimer k s) := by
  unfold tickTimer
  split
  · exact ((setTmr_world ..).trans (setReg_world ..)).trans (pwmPin_world ..)
  · exact .refl s

theorem delayStep_world (i : Nat) (s : State) : WorldMoved s (delayStep i s) := (setPn_world ..).trans (setReg_world ..)

theorem padStep_world (i : Nat) (s : State) : WorldMoved s (padStep i s) := by
  unfold padStep
  dsimp only
  split
  · exact setPn_world ..
  · split
    · exact (setPn_world ..).trans (draw_world _)
    · exact ((setPn_world ..).trans (draw_world _)).trans (pinAt_world ..)

theorem tickFifos_world (s : State) : WorldMoved s (tickFifos s) := ⟨⟨_, _, _, _, _, rfl⟩⟩

/-- The timers, delay lines, pads and FIFOs of one cycle. -/
def tickWorld (s : State) : State := tickFifos (tickPads (tickDelays (forAll (List.range 16) tickTimer s)))

theorem tickWorld_world (s : State) : WorldMoved s (tickWorld s) :=
  (((forAll_world tickTimer_world _ s).trans (forAll_world delayStep_world _ _)).trans (forAll_world padStep_world _ _)).trans (tickFifos_world _)

/-- What precedes the engine's events in a cycle. -/
def tickBefore (s : State) : State := tickPromoted (tickWorld (tickWdt (tickTime s)))

/-- The watchdog after a cycle. -/
def wdtTicked (s : State) : Wdt :=
  if s.fn .wdt = fnOn ∧ s.mode ≠ .retain ∧ !wdtFrozen s then { s.wdt with count := s.wdt.count - 1, since := s.wdt.since + 1 } else s.wdt

theorem tickWdt_form (s : State) : tickWdt s = { s with wdt := wdtTicked s } := by
  unfold tickWdt wdtTicked
  split <;> rfl

/-- The two parts of the counter hold it modulo 2^96. -/
theorem timeParts_toNat (v : Nat) : (BitVec.ofNat 64 (v / 2 ^ 32)).toNat * 2 ^ 32 + (BitVec.ofNat 32 v).toNat = v % 2 ^ 96 := by
  rw [BitVec.toNat_ofNat, BitVec.toNat_ofNat]
  omega

theorem tickTime_form (s : State) : ∃ τ φ, tickTime s = { s with evt := { s.evt with time := τ, frac := φ } } ∧
    τ.toNat * 2 ^ 32 + φ.toNat = (s.evt.time.toNat * 2 ^ 32 + s.evt.frac.toNat + (40 * 2 ^ 32 * (1000000 + s.mesh.rate)).toNat / 1000000) % 2 ^ 96 := by
  exact ⟨_, _, rfl, timeParts_toNat _⟩

/-- The promoted requests after a cycle: each has lost its share, and one that has come to 0 is gone. -/
def promotedTicked (l : List (Nat × Fin 15 × Nat)) : List (Nat × Fin 15 × Nat) := (l.map (fun p => (p.1, p.2.1, p.2.2 - 16))).filter (fun p => p.2.2 != 0)

/-- What has moved in a cycle before the engine's events are raised. -/
abbrev cycled (τ : BitVec 64) (φ : BitVec 32) (r : Store Word) (p : Store Pin) (m : Store Timer) (f : Fabric) (n : Nat) (s : State) : State :=
  { s with
    evt := { s.evt with time := τ, frac := φ }
    wdt := wdtTicked s
    boot := { s.boot with promoted := promotedTicked s.boot.promoted }
    scr := { s.scr with tmr := m }
    regs := r, pin := p, fab := f, free := n }

theorem tickBefore_form (s : State) : ∃ τ φ r p m f n, tickBefore s = cycled τ φ r p m f n s ∧
    τ.toNat * 2 ^ 32 + φ.toNat = (s.evt.time.toNat * 2 ^ 32 + s.evt.frac.toNat + (40 * 2 ^ 32 * (1000000 + s.mesh.rate)).toNat / 1000000) % 2 ^ 96 := by
  obtain ⟨τ, φ, ht, hn⟩ := tickTime_form s
  obtain ⟨r, p, m, f, n, hw⟩ := tickWorld_world (tickWdt (tickTime s))
  refine ⟨τ, φ, r, p, m, f, n, ?_, hn⟩
  unfold tickBefore
  rw [hw, tickWdt_form, ht]
  rfl

theorem mem_promoted_share {l : List (Nat × Fin 15 × Nat)} {p : Nat × Fin 15 × Nat} :
    p ∈ promotedTicked l ↔ ∃ q ∈ l, 16 < q.2.2 ∧ p = (q.1, q.2.1, q.2.2 - 16) := by
  rw [promotedTicked, List.mem_filter, List.mem_map]
  constructor
  · rintro ⟨⟨q, hq, rfl⟩, hne⟩
    have hne' : q.2.2 - 16 ≠ 0 := bne_iff_ne.1 hne
    exact ⟨q, hq, by omega, rfl⟩
  · rintro ⟨q, hq, hlt, rfl⟩
    exact ⟨⟨q, hq, rfl⟩, bne_iff_ne.2 (show q.2.2 - 16 ≠ 0 by omega)⟩

theorem wdtTicked_count (hon : s.fn .wdt = fnOn) (hm : s.mode ≠ .retain) (hf : wdtFrozen s = false) : (wdtTicked s).count = s.wdt.count - 1 := by
  unfold wdtTicked
  rw [if_pos ⟨hon, hm, by rw [hf]; rfl⟩]

theorem wdtTicked_still (h : s.fn .wdt ≠ fnOn ∨ s.mode = .retain ∨ wdtFrozen s = true) : wdtTicked s = s.wdt := by
  refine if_neg fun ⟨hon, hm, hf⟩ => ?_
  rcases h with h | h | h
  · exact h hon
  · exact hm h
  · rw [h] at hf
    exact Bool.false_ne_true hf

/-! ### The engine's events -/

/-- The engine's buffered events, raised in order. -/
def engRaised (l : List (Code × Req × Word)) (s : State) : State := forAll l (fun e => raise e.1 e.2.1 e.2.2.toNat) s

theorem engRaised_evtOnly (l : List (Code × Req × Word)) : ∀ s, EvtOnly s (engRaised l s) := by
  induction l with
  | nil => exact fun s => .refl s
  | cons e l ih => exact fun s => (raise_evtOnly ..).trans (ih _)

theorem engRaised_seq (l : List (Code × Req × Word)) : ∀ s, (engRaised l s).evt.seq = s.evt.seq + BitVec.ofNat 16 l.length := by
  induction l with
  | nil => exact fun s => (BitVec.add_zero _).symm
  | cons e l ih =>
    intro s
    have hseq : (raise e.1 e.2.1 e.2.2.toNat s).evt.seq = s.evt.seq + 1 := (raise_logged rfl).1
    rw [show engRaised (e :: l) s = engRaised l (raise e.1 e.2.1 e.2.2.toNat s) from rfl, ih, hseq, List.length_cons, Nat.add_comm l.length, BitVec.ofNat_add, BitVec.add_assoc]
    rfl

theorem engRaised_snoc (l : List (Code × Req × Word)) (code : Code) (src : Req) (d : Word) (s : State) :
    engRaised (l ++ [(code, src, d)]) s = raise code src d.toNat (engRaised l s) := List.foldl_append ..

theorem engDrain_failsafe (h : s.mode = .failsafe) : engDrain s = s := if_pos h

theorem engDrain_raises (h : s.mode ≠ .failsafe) : engDrain s = engRaised s.eng.evBuf { s with eng := { s.eng with evBuf := [] } } := if_neg h

/-- The engine while its events drain. -/
def engDrained (s : State) : Engine := if s.mode = .failsafe then s.eng else { s.eng with evBuf := [] }

theorem engDrain_evtOnly (s : State) : EvtOnly { s with eng := engDrained s } (engDrain s) := by
  unfold engDrained
  by_cases h : s.mode = .failsafe
  · rw [engDrain_failsafe h, if_pos h]
    exact .refl s
  · rw [engDrain_raises h, if_neg h]
    exact engRaised_evtOnly _ _

/-- With nothing to drain the engine and the event unit stay. -/
theorem engDrain_idle (h : s.mode = .failsafe ∨ s.eng.evBuf = []) : engDrain s = s := by
  by_cases hm : s.mode = .failsafe
  · exact engDrain_failsafe hm
  · have hb := h.resolve_left hm
    rw [engDrain_raises hm, hb]
    show { s with eng := { s.eng with evBuf := [] } } = s
    rw [← hb]

/-! ### The debug access under way -/

/-- The debug module once its access has settled. -/
def dbgSettled (d : Debug) : Debug :=
  match d.dbgNext with
  | some r => { d with dbgData := r.1, dbgErr := r.2, dbgNext := none }
  | none => d

theorem dbgSettle_form (s : State) : dbgSettle s = { s with dbg := dbgSettled s.dbg } := by
  unfold dbgSettle dbgSettled
  cases s.dbg.dbgNext <;> rfl

/-! ### The cycle -/

theorem tick_held (h : s.boot.porHeld = true) : tick s = s := if_pos h

theorem tick_runs (h : s.boot.porHeld = false) : tick s = svcNext (dbgSettle (tickEngine (tickBefore s))) := if_neg (by rw [h]; exact Bool.false_ne_true)

theorem svcNext_none (h : s.svc.waiting = []) : svcNext s = s := by
  unfold svcNext
  rw [h]

theorem engDrain_svc (s : State) : (engDrain s).svc = s.svc := congrArg (fun q => q.svc) (engDrain_evtOnly s).rest

theorem engDrain_dbg (s : State) : (engDrain s).dbg = s.dbg := congrArg (fun q => q.dbg) (engDrain_evtOnly s).rest

/-- After the counters: the engine's events, WC_STATUS, and the debug access. -/
theorem svcNext_settled (hw : s.svc.waiting = []) : svcNext (dbgSettle (tickEngine s)) = { (engDrain s).setB Reg.rhxWcStatus 0 false with dbg := dbgSettled s.dbg } := by
  have hsvc := engDrain_svc s
  have hdbg := engDrain_dbg s
  rw [dbgSettle_form, tickEngine]
  generalize engDrain s = e at hsvc hdbg ⊢
  rw [← hdbg]
  exact svcNext_none ((congrArg (fun q => q.waiting) hsvc).trans hw)

/-- Settles O53: a cycle moves its counters, then raises the engine's events, then settles the debug access. -/
theorem idleTick : Obligations.IdleTick := by
  unfold Obligations.IdleTick
  refine ⟨fun s hp => ?step, fun s h => tick_held h, fun s h hw n hn t ht => ?cycle⟩
  case step =>
    unfold step
    rw [hp]
  case cycle =>
    subst hn
    obtain ⟨τ, φ, r, p, m, f, free, he, htime⟩ := tickBefore_form s
    rw [tick_runs h] at ht
    generalize tickBefore s = e at he ht
    have hafter : t = { (engDrain e).setB Reg.rhxWcStatus 0 false with dbg := dbgSettled e.dbg } := ht.trans (svcNext_settled (by rw [he]; exact hw))
    have hrest := (engDrain_evtOnly e).rest
    have hidle := engDrain_idle (s := e)
    have hfull := engDrain_raises (s := e)
    have hmode : e.mode = s.mode := by rw [he]
    have heng : e.eng = s.eng := by rw [he]
    have hseq : e.evt.seq = s.evt.seq := by rw [he]
    have hmem : e.scr.mem = s.scr.mem := by rw [he]
    have hdbg : t.dbg = dbgSettled s.dbg := (congrArg (fun q => q.dbg) hafter).trans (congrArg dbgSettled (by rw [he]))
    generalize engDrain e = d at hafter hrest hidle hfull
    have hboot : t.boot = e.boot := (congrArg (fun q => q.boot) hafter).trans (congrArg (fun q => q.boot) hrest)
    have hprom : t.boot = { s.boot with promoted := promotedTicked s.boot.promoted } := hboot.trans (by rw [he])
    have hwdt : t.wdt = wdtTicked s := (congrArg (fun q => q.wdt) hafter).trans ((congrArg (fun q => q.wdt) hrest).trans (by rw [he]))
    refine ⟨?time, ?pending, ?mode, ?sec, ?flash, ?svc, ?swap, ?cal, ?mesh, fun hon hm hf => ?count, fun hs => hwdt.trans (wdtTicked_still hs), fun r hr => ?settle, fun hr => ?quiet, fun hi => ?idle, fun hm => ?drain, ?busy, fun p => ?share, ?boot⟩
    case time =>
      have h1 : t.evt.time = τ := (congrArg (fun q => q.evt.time) hafter).trans ((congrArg (fun q => q.evt.time) hrest).trans (by rw [he]))
      have h2 : t.evt.frac = φ := (congrArg (fun q => q.evt.frac) hafter).trans ((congrArg (fun q => q.evt.frac) hrest).trans (by rw [he]))
      rw [h1, h2]
      exact htime
    case pending => exact (congrArg (fun q => q.pending) hafter).trans ((congrArg (fun q => q.pending) hrest).trans (by rw [he]))
    case mode => exact (congrArg (fun q => q.mode) hafter).trans ((congrArg (fun q => q.mode) hrest).trans hmode)
    case sec => exact (congrArg (fun q => q.sec) hafter).trans ((congrArg (fun q => q.sec) hrest).trans (by rw [he]))
    case flash => exact (congrArg (fun q => q.flash) hafter).trans ((congrArg (fun q => q.flash) hrest).trans (by rw [he]))
    case svc => exact (congrArg (fun q => q.svc) hafter).trans ((congrArg (fun q => q.svc) hrest).trans (by rw [he]))
    case swap => exact (congrArg (fun q => q.swap) hafter).trans ((congrArg (fun q => q.swap) hrest).trans (by rw [he]))
    case cal => exact (congrArg (fun q => q.cal) hafter).trans ((congrArg (fun q => q.cal) hrest).trans (by rw [he]))
    case mesh => exact (congrArg (fun q => q.mesh) hafter).trans ((congrArg (fun q => q.mesh) hrest).trans (by rw [he]))
    case count => exact (congrArg (fun w => w.count) hwdt).trans (wdtTicked_count hon hm hf)
    case settle => exact hdbg.trans (by unfold dbgSettled; rw [hr])
    case quiet => exact hdbg.trans (by unfold dbgSettled; rw [hr])
    case idle =>
      have hde : d = e := hidle (by rw [hmode, heng]; exact hi)
      rw [hde] at hafter
      exact ⟨(congrArg (fun q => q.eng) hafter).trans heng, (congrArg (fun q => q.evt.seq) hafter).trans hseq, (congrArg (fun q => q.scr.mem) hafter).trans hmem⟩
    case drain =>
      have hd := hfull (fun hf => hm (hmode.symm.trans hf))
      have hq : ({ e with eng := { s.eng with evBuf := [] } } : State).eng = { s.eng with evBuf := [] } := rfl
      have hqseq : ({ e with eng := { s.eng with evBuf := [] } } : State).evt.seq = s.evt.seq := hseq
      rw [heng] at hd
      generalize ({ e with eng := { s.eng with evBuf := [] } } : State) = q at hd hq hqseq
      have hdeng : d.eng = q.eng := (congrArg (fun v => v.eng) hd).trans (congrArg (fun v => v.eng) (engRaised_evtOnly _ q).rest)
      have hdseq : d.evt.seq = q.evt.seq + BitVec.ofNat 16 s.eng.evBuf.length := (congrArg (fun v => v.evt.seq) hd).trans (engRaised_seq _ q)
      refine ⟨(congrArg (fun v => v.eng) hafter).trans (hdeng.trans hq), (congrArg (fun v => v.evt.seq) hafter).trans (hdseq.trans (congrArg (· + _) hqseq)),
        fun l code src w hl => ⟨engRaised l q, (engRaised_seq l q).trans (congrArg (· + _) hqseq), ?_⟩⟩
      rw [hl, engRaised_snoc] at hd
      generalize engRaised l q = y at hd
      have hlog : Logged code src w.toNat y d := hd ▸ raise_logged rfl
      exact hlog.of_same (congrArg (fun v => v.evt) hafter) ((congrArg (fun v => v.reg Reg.sysEvtPend) hafter).trans (reg_setB_other (by decide)))
    case busy => exact (congrArg (fun q => q.getB Reg.rhxWcStatus 0) hafter).trans (getB_setB_same (by decide))
    case share =>
      rw [hprom]
      exact mem_promoted_share
    case boot => rw [hprom]

end Sys2Proof.Machine
end
